-- ==== Sys2Proof/Word.lean ====
section
/-!
DEFINITION. The word types of the machine and their names: 32-bit registers (R202), bytes, 72-bit virtual addresses
(R92) and 64-bit host registers (R25).
-/

namespace Sys2Proof

/-- A register word, v0 to v127 (R202). -/
abbrev Word := BitVec 32
/-- A byte of memory (R144). -/
abbrev Byte := BitVec 8
/-- A virtual address (R92). -/
abbrev VA := BitVec 72
/-- A 64-bit word: host registers (R25), counters (R49), register pairs. -/
abbrev Word64 := BitVec 64

end Sys2Proof
end

