-- ==== Sys2Proof/Machine/Float.lean ====
section
/-!
DEFINITION. Number formats and their exact arithmetic (R219 to R224, R290): a value is a NaN, an infinity or a signed
multiple of a power of two; every operation computes the exact value and rounds it once.
-/

namespace Sys2Proof.Machine

/-- Rounding modes (R5, R216, R285). -/
inductive Rm where | rne | rtz | rdn | rup | sr
deriving DecidableEq, Repr

/-- A floating format (R219): exponent bits, fraction bits, bias, and which special codes it has. -/
structure Fmt where
  ebits : Nat
  mbits : Nat
  bias : Nat
  hasInf : Bool
  hasNan : Bool
deriving DecidableEq, Repr

def fp32 : Fmt := { ebits := 8, mbits := 23, bias := 127, hasInf := true, hasNan := true }
def fp16 : Fmt := { ebits := 5, mbits := 10, bias := 15, hasInf := true, hasNan := true }
def bf16 : Fmt := { ebits := 8, mbits := 7, bias := 127, hasInf := true, hasNan := true }
def e4m3 : Fmt := { ebits := 4, mbits := 3, bias := 7, hasInf := false, hasNan := true }
def e5m2 : Fmt := { ebits := 5, mbits := 2, bias := 15, hasInf := true, hasNan := true }
def e2m1 : Fmt := { ebits := 2, mbits := 1, bias := 1, hasInf := false, hasNan := false }

/-- A value: NaN, a signed infinity, or (-1)^neg × m × 2^e exactly. -/
inductive Fp where
  | nan
  | inf (neg : Bool)
  | fin (neg : Bool) (m : Nat) (e : Int)
deriving DecidableEq, Repr

/-- 2^i for a possibly negative i, as a shift of m to the left (i ≥ 0) or an exact division never used for i < 0. -/
def shlInt (m : Nat) (i : Int) : Nat := m * 2 ^ i.toNat

/-- The canonical NaN of a format (R219). -/
def Fmt.nanBits (f : Fmt) : Nat :=
  if f.hasInf then (2 ^ f.ebits - 1) * 2 ^ f.mbits + 2 ^ (f.mbits - 1) else 2 ^ (f.ebits + f.mbits) - 1

/-- The infinity of a format without its sign. -/
def Fmt.infBits (f : Fmt) : Nat := (2 ^ f.ebits - 1) * 2 ^ f.mbits

/-- The code of the largest finite magnitude (R219). -/
def Fmt.maxBits (f : Fmt) : Nat :=
  if f.hasInf then f.infBits - 1 else if f.hasNan then 2 ^ (f.ebits + f.mbits) - 2 else 2 ^ (f.ebits + f.mbits) - 1

/-- The sign bit of a format. -/
def Fmt.signBit (f : Fmt) : Nat := 2 ^ (f.ebits + f.mbits)

/-- The value of a code (R219). -/
def Fmt.decode (f : Fmt) (bits : Nat) : Fp :=
  let neg := bits / f.signBit % 2 == 1
  let mag := bits % f.signBit
  let e := mag / 2 ^ f.mbits
  let m := mag % 2 ^ f.mbits
  if f.hasInf && e == 2 ^ f.ebits - 1 then (if m == 0 then .inf neg else .nan)
  else if f.hasNan && !f.hasInf && mag == f.nanBits then .nan
  else if e == 0 then .fin neg m (1 - (f.bias : Int) - (f.mbits : Int))
  else .fin neg (m + 2 ^ f.mbits) ((e : Int) - (f.bias : Int) - (f.mbits : Int))

/-- Exception flags in FPCTL order (R216): NV 1, DZ 2, OF 4, UF 8, IX 16. -/
abbrev FpFlags := BitVec 5
def flNV : FpFlags := 1
def flDZ : FpFlags := 2
def flOF : FpFlags := 4
def flUF : FpFlags := 8
def flIX : FpFlags := 16

/-- Whether rounding m / 2^s (plus a part below it when sticky) goes up in magnitude (R5, R224). r is the SR word. -/
def roundUp (rm : Rm) (neg : Bool) (m s : Nat) (sticky : Bool) (r : Nat) : Bool :=
  let hi := m / 2 ^ s
  let lo := m % 2 ^ s
  let inexact := lo != 0 || sticky
  match rm with
  | .rne => decide (2 * lo > 2 ^ s) || (s != 0 && 2 * lo == 2 ^ s && (sticky || hi % 2 == 1))
  | .rtz => false
  | .rdn => neg && inexact
  | .rup => !neg && inexact
  | .sr => decide (r < 2 ^ 32 * lo / 2 ^ s)

/-- The magnitude m × 2^e (m > 0) rounded to multiples of 2^q: the multiple, and whether it is inexact. -/
def roundQ (rm : Rm) (neg : Bool) (m : Nat) (e q : Int) (sticky : Bool) (r : Nat) : Nat × Bool :=
  if q ≤ e then (shlInt m (e - q), sticky)
  else
    let s := (q - e).toNat
    (m / 2 ^ s + (if roundUp rm neg m s sticky r then 1 else 0), m % 2 ^ s != 0 || sticky)

/-- What rounding into a format gives before special results: the magnitude as a multiple of 2^q, exactness, and
tininess after rounding (R216, UF). -/
structure Rounded where
  mant : Nat
  q : Int
  inexact : Bool
  tiny : Bool
deriving DecidableEq, Repr

/-- Round m × 2^e (m > 0) to the significand width of a format with its subnormal spacing (R223). -/
def Fmt.round (f : Fmt) (rm : Rm) (neg : Bool) (m : Nat) (e : Int) (sticky : Bool) (r : Nat) : Rounded :=
  let E : Int := (Nat.log2 m : Int) + e
  let emin : Int := 1 - (f.bias : Int)
  let q : Int := max (E - (f.mbits : Int)) (emin - (f.mbits : Int))
  let (k, ix) := roundQ rm neg m e q sticky r
  let tiny :=
    if emin ≤ E then false
    else
      let (k', _) := roundQ rm neg m e (E - (f.mbits : Int)) sticky r
      decide (E + 1 < emin) || decide (k' < 2 ^ (f.mbits + 1))
  { mant := k, q := q, inexact := ix, tiny := tiny }

/-- The code of k × 2^q, a magnitude the format can hold or one above its largest. -/
def Fmt.magBits (f : Fmt) (k : Nat) (q : Int) : Nat :=
  if k == 0 then 0
  else
    let L := Nat.log2 k
    let E : Int := (L : Int) + q
    let emin : Int := 1 - (f.bias : Int)
    if E < emin then shlInt k (q - (emin - (f.mbits : Int)))
    else
      let frac := (if f.mbits ≥ L then k * 2 ^ (f.mbits - L) else k / 2 ^ (L - f.mbits)) % 2 ^ f.mbits
      (E + (f.bias : Int)).toNat * 2 ^ f.mbits + frac

/-- Bits of a signed magnitude. -/
def Fmt.signed (f : Fmt) (neg : Bool) (mag : Nat) : Nat := if neg then mag + f.signBit else mag

/-- Round a nonzero finite exact value into an IEEE format (FP32, FP16, BF16) by m, with FTZ, and its flags (R290,
R299): overflow gives the IEEE result for m. -/
def Fmt.finish (f : Fmt) (rm : Rm) (ftz : Bool) (neg : Bool) (m : Nat) (e : Int) (sticky : Bool) (r : Nat) :
    Nat × FpFlags :=
  let v := f.round rm neg m e sticky r
  let mag := f.magBits v.mant v.q
  if mag ≥ f.infBits then
    let out := match rm with
      | .rtz => f.maxBits
      | .rdn => if neg then f.infBits else f.maxBits
      | .rup => if neg then f.maxBits else f.infBits
      | _ => f.infBits
    (f.signed neg out, flOF ||| flIX)
  else if ftz && mag != 0 && decide (mag < 2 ^ f.mbits) then (f.signed neg 0, flUF ||| flIX)
  else
    (f.signed neg mag, (if v.inexact then flIX else 0) ||| (if v.tiny && v.inexact then flUF else 0))

/-- An operand with FTZ applied: subnormals read as zero of the same sign (R216). -/
def Fmt.operand (f : Fmt) (ftz : Bool) (bits : Nat) : Fp :=
  match f.decode bits with
  | .fin neg m e => if ftz && decide (bits % f.signBit < 2 ^ f.mbits) then .fin neg 0 e else .fin neg m e
  | v => v

/-- The signed integer of a finite value at exponent e0 ≤ e. -/
def fpInt (neg : Bool) (m : Nat) (e e0 : Int) : Int :=
  if neg then -(shlInt m (e - e0) : Int) else (shlInt m (e - e0) : Int)

/-- Round an exact finite sum given as an integer times 2^e; zeroNeg is the sign of an exact zero (R290). -/
def Fmt.ofInt (f : Fmt) (rm : Rm) (ftz : Bool) (v : Int) (e : Int) (zeroNeg : Bool) : Nat × FpFlags :=
  if v = 0 then (f.signed zeroNeg 0, 0) else f.finish rm ftz (decide (v < 0)) v.natAbs e false 0

/-- a + b (R299). -/
def Fmt.add (f : Fmt) (rm : Rm) (ftz : Bool) (a b : Fp) : Nat × FpFlags :=
  match a, b with
  | .nan, _ | _, .nan => (f.nanBits, 0)
  | .inf x, .inf y => if x == y then (f.signed x f.infBits, 0) else (f.nanBits, flNV)
  | .inf x, _ => (f.signed x f.infBits, 0)
  | _, .inf y => (f.signed y f.infBits, 0)
  | .fin sa ma ea, .fin sb mb eb =>
    let e := min ea eb
    let z := if ma == 0 && mb == 0 && sa == sb then sa else rm == .rdn
    f.ofInt rm ftz (fpInt sa ma ea e + fpInt sb mb eb e) e z

/-- a × b (R299). -/
def Fmt.mul (f : Fmt) (rm : Rm) (ftz : Bool) (a b : Fp) : Nat × FpFlags :=
  match a, b with
  | .nan, _ | _, .nan => (f.nanBits, 0)
  | .inf x, .inf y => (f.signed (x != y) f.infBits, 0)
  | .inf x, .fin y m _ => if m == 0 then (f.nanBits, flNV) else (f.signed (x != y) f.infBits, 0)
  | .fin y m _, .inf x => if m == 0 then (f.nanBits, flNV) else (f.signed (x != y) f.infBits, 0)
  | .fin sa ma ea, .fin sb mb eb =>
    if ma * mb == 0 then (f.signed (sa != sb) 0, 0) else f.finish rm ftz (sa != sb) (ma * mb) (ea + eb) false 0

/-- a × b + c with one rounding (R299, FMAC). -/
def Fmt.fma (f : Fmt) (rm : Rm) (ftz : Bool) (a b c : Fp) : Nat × FpFlags :=
  match a, b, c with
  | .nan, _, _ | _, .nan, _ =>
    (f.nanBits, 0)
  | .inf _, .fin _ 0 _, _ | .fin _ 0 _, .inf _, _ => (f.nanBits, flNV)
  | _, _, .nan => (f.nanBits, 0)
  | .inf x, .inf y, c =>
    match c with
    | .inf z => if (x != y) == z then (f.signed z f.infBits, 0) else (f.nanBits, flNV)
    | _ => (f.signed (x != y) f.infBits, 0)
  | .inf x, .fin y _ _, c | .fin y _ _, .inf x, c =>
    match c with
    | .inf z => if (x != y) == z then (f.signed z f.infBits, 0) else (f.nanBits, flNV)
    | _ => (f.signed (x != y) f.infBits, 0)
  | .fin _ _ _, .fin _ _ _, .inf z => (f.signed z f.infBits, 0)
  | .fin sa ma ea, .fin sb mb eb, .fin sc mc ec =>
    let sp := sa != sb
    let e := min (ea + eb) ec
    let z := if ma * mb == 0 && mc == 0 && sp == sc then sp else rm == .rdn
    f.ofInt rm ftz (fpInt sp (ma * mb) (ea + eb) e + fpInt sc mc ec e) e z

/-- Whether a value is below another, for values that are not NaN, with −0 below +0 (R300). -/
def fpKey (v : Fp) (e0 : Int) : Int :=
  match v with
  | .fin neg m e => if neg then -(2 * (shlInt m (e - e0) : Int)) - 1 else 2 * (shlInt m (e - e0) : Int)
  | _ => 0

def fpLess (a b : Fp) : Bool :=
  match a, b with
  | .nan, _ | _, .nan => false
  | .inf x, .inf y => x && !y
  | .inf x, .fin _ _ _ => x
  | .fin _ _ _, .inf y => !y
  | .fin _ _ ea, .fin _ _ eb => let e := min ea eb; decide (fpKey a e < fpKey b e)

/-- Numeric comparison where −0 equals +0: less, equal, greater; none when a NaN is among the operands (R272). -/
def fpCmp (a b : Fp) : Option Ordering :=
  match a, b with
  | .nan, _ | _, .nan => none
  | .inf x, .inf y => some (if x == y then .eq else if x then .lt else .gt)
  | .inf x, .fin _ _ _ => some (if x then .lt else .gt)
  | .fin _ _ _, .inf y => some (if y then .gt else .lt)
  | .fin sa ma ea, .fin sb mb eb =>
    let e := min ea eb
    some (compare (fpInt sa ma ea e) (fpInt sb mb eb e))

/-- The code of a value the format holds exactly; NaN canonical. -/
def Fmt.exact (f : Fmt) (v : Fp) : Nat :=
  match v with
  | .nan => f.nanBits
  | .inf neg => f.signed neg f.infBits
  | .fin neg m e => f.signed neg (f.magBits m e)

/-- FMIN and FMAX on codes (R300): the lesser or greater operand after FTZ, unrounded. -/
def Fmt.minmax (f : Fmt) (isMax ftz : Bool) (a b : Nat) : Nat :=
  let va := f.operand ftz a
  let vb := f.operand ftz b
  match va, vb with
  | .nan, .nan => f.nanBits
  | .nan, _ => f.exact vb
  | _, .nan => f.exact va
  | _, _ => if (if isMax then fpLess va vb else fpLess vb va) then f.exact vb else f.exact va

/-- The clamp of .sat to [+0, 1.0]: NaN and −0 give +0 (R301, R302). -/
def Fmt.saturate (f : Fmt) (bits : Nat) : Nat :=
  match f.decode bits with
  | .nan => 0
  | .inf neg => if neg then 0 else f.bias * 2 ^ f.mbits
  | .fin neg _ _ => if neg then 0 else min bits (f.bias * 2 ^ f.mbits)

/-- a / b as magnitude with sticky part, for finite nonzero operands. -/
def fpDiv (ma : Nat) (ea : Int) (mb : Nat) (eb : Int) : Nat × Int × Bool :=
  let s := 64 + Nat.log2 mb
  let n := ma * 2 ^ s
  (n / mb, ea - eb - (s : Int), n % mb != 0)

/-- Integer square root by bisection on fuel bits. -/
def isqrt : Nat → Nat → Nat → Nat
  | 0, _, r => r
  | k + 1, n, r => let r' := r + 2 ^ k; isqrt k n (if r' * r' ≤ n then r' else r)

/-- √(m × 2^e) as magnitude with sticky part. -/
def fpSqrt (m : Nat) (e : Int) : Nat × Int × Bool :=
  let s : Nat := 80 + (if (e - 80) % 2 = 0 then 0 else 1)
  let n := m * 2 ^ s
  let r := isqrt (Nat.log2 n / 2 + 1) n 0
  (r, (e - (s : Int)) / 2, r * r != n)

/-! ## Conversion into a narrower format (R223) -/

/-- A target of convert: a floating format or an integer format by bounds. -/
inductive Target where
  | fmt (f : Fmt)
  | int (lo hi : Int)
deriving DecidableEq, Repr

/-- An exact value rounded to an integer by a mode (R223). -/
def fpToInt (rm : Rm) (neg : Bool) (m : Nat) (e : Int) (r : Nat) : Int × Bool :=
  if m == 0 then (0, false)
  else
    let (k, ix) := roundQ rm neg m e 0 false r
    (if neg then -(k : Int) else k, ix)

/-- convert(v, F, m, sat) with its flags (R223): bits of F, two's complement modulo 2^32 for integers. ftz flushes a
subnormal result where the entry says FTZ applies to results. -/
def convert (v : Fp) (t : Target) (rm : Rm) (sat ftz : Bool) (r : Nat) : Nat × FpFlags :=
  match t with
  | .int lo hi =>
    match v with
    | .nan => (0, flNV)
    | .inf neg => (((if neg then lo else hi) % 2 ^ 32).toNat, flNV)
    | .fin neg m e =>
      let (n, ix) := fpToInt rm neg m e r
      if n < lo then ((lo % 2 ^ 32).toNat, flNV)
      else if hi < n then ((hi % 2 ^ 32).toNat, flNV)
      else ((n % 2 ^ 32).toNat, if ix then flIX else 0)
  | .fmt f =>
    match v with
    | .nan => if f.hasNan then (f.nanBits, 0) else (0, flNV)
    | .inf neg =>
      if f.hasInf && !sat then (f.signed neg f.infBits, 0)
      else if f.hasNan && !f.hasInf && !sat then (f.nanBits, flNV)
      else (f.signed neg f.maxBits, flNV)
    | .fin neg m e =>
      if m == 0 then (f.signed neg 0, 0)
      else
        let u := f.round rm neg m e false r
        let mag := f.magBits u.mant u.q
        if mag ≤ f.maxBits then
          if ftz && mag != 0 && decide (mag < 2 ^ f.mbits) then (f.signed neg 0, flUF ||| flIX)
          else
            (f.signed neg mag, (if u.inexact then flIX else 0) ||| (if u.tiny && u.inexact then flUF else 0))
        else if sat || !f.hasNan then (f.signed neg f.maxBits, flOF ||| flIX)
        else if !f.hasInf then (f.nanBits, flOF ||| flIX ||| flNV)
        else
          let out := match rm with
            | .rtz => f.maxBits
            | .rdn => if neg then f.infBits else f.maxBits
            | .rup => if neg then f.maxBits else f.infBits
            | _ => f.infBits
          (f.signed neg out, flOF ||| flIX)

/-- The keyed generator g (R224), modulo 2^32. -/
def keyed (key e : BitVec 32) : BitVec 32 :=
  let x := key ^^^ e
  let x := x ^^^ (x >>> 16)
  let x := x * 0x2C9F5A63
  let x := x ^^^ (x >>> 15)
  let x := x * 0x6E35D2B1
  x ^^^ (x >>> 15)

/-- The SR word of element e (R224). -/
def srWord (hseed e : BitVec 32) : Nat := (keyed (hseed.rotateLeft 16) e).toNat

/-- A value times 2^n, exactly. -/
def Fp.scale (v : Fp) (n : Int) : Fp :=
  match v with
  | .fin neg m e => .fin neg m (e + n)
  | v => v

/-! ## Elementary functions in fixed point (R304)

A real x is held as ⌊x × 2^400⌋. The series below are cut where their terms vanish; the error stays far below any
distance an FP32 or FP16 argument can have from a rounding boundary, exact cases apart, so rounding the truncated value
with a sticky part gives the correctly rounded result (log 14). -/

/-- The scale of the fixed-point numbers. -/
def fxOne : Nat := 2 ^ 400

def fxMul (a b : Nat) : Nat := a * b / fxOne

/-- Σ term_k for term_{k+1} = term_k × t / (k + 1): the exponential series. -/
def fxExpGo (t : Nat) : Nat → Nat → Nat → Nat → Nat
  | 0, _, _, acc => acc
  | n + 1, k, term, acc =>
    let term' := fxMul term t / (k + 1)
    fxExpGo t n (k + 1) term' (acc + term')

/-- e^t for 0 ≤ t < 1. -/
def fxExp (t : Nat) : Nat := fxExpGo t 110 0 fxOne fxOne

/-- Σ z^(2k+1) / (2k + 1): atanh of z, sign of the terms all positive. -/
def fxAtanhGo (z2 : Nat) : Nat → Nat → Nat → Nat → Nat
  | 0, _, _, acc => acc
  | n + 1, k, p, acc => fxAtanhGo z2 n (k + 1) (fxMul p z2) (acc + p / (2 * k + 1))

/-- ln y = 2 atanh((y − 1)/(y + 1)) for y = a/b in [1, 2]. -/
def fxLn (a b : Nat) : Nat :=
  let z := (a - b) * fxOne / (a + b)
  2 * fxAtanhGo (fxMul z z) 140 0 z 0

/-- ln 2. -/
def fxLn2 : Nat := fxLn 2 1

/-- arctan(1/n) with alternating terms: positive and negative sums. -/
def fxAtanGo (n2 : Nat) : Nat → Nat → Nat → Nat → Nat → Nat
  | 0, _, _, pos, neg => pos - neg
  | f + 1, k, p, pos, neg =>
    if k % 2 == 0 then fxAtanGo n2 f (k + 1) (p / n2) (pos + p / (2 * k + 1)) neg
    else fxAtanGo n2 f (k + 1) (p / n2) pos (neg + p / (2 * k + 1))

def fxAtanInv (n : Nat) : Nat := fxAtanGo (n * n) 200 0 (fxOne / n) 0 0

/-- π by Machin's formula. -/
def fxPi : Nat := 16 * fxAtanInv 5 - 4 * fxAtanInv 239

/-- Alternating series Σ ± term with term_{k+1} = term_k × a2 / ((k + 1)(k + 2)), from k0: sine and cosine. -/
def fxTrigGo (a2 : Nat) : Nat → Nat → Nat → Bool → Nat → Nat → Nat
  | 0, _, _, _, pos, neg => pos - neg
  | f + 1, k, term, sign, pos, neg =>
    let term' := fxMul term a2 / ((k + 1) * (k + 2))
    if sign then fxTrigGo a2 f (k + 2) term' false (pos + term) neg
    else fxTrigGo a2 f (k + 2) term' true pos (neg + term)

def fxSin (a : Nat) : Nat := fxTrigGo (fxMul a a) 60 1 a true 0 0
def fxCos (a : Nat) : Nat := fxTrigGo (fxMul a a) 60 0 fxOne true 0 0

/-- The fraction m × 2^e mod 1 as an exact pair numerator, log2 denominator; e < 0. -/
def fracBits (m : Nat) (e : Int) : Nat × Nat := (m % 2 ^ (-e).toNat, (-e).toNat)

end Sys2Proof.Machine
end

