-- ==== Sys2Proof/Machine/IntFn.lean ====
section
/-!
DEFINITION. The integer functions of R294 to R297, R311 to R315 and R370 on 32-bit words.
-/

namespace Sys2Proof.Machine

/-- a << b, or 0 when b ≥ 32 (R294, SHL). -/
def shlFn (a b : Word) : Word := if b.toNat < 32 then a <<< b.toNat else 0
/-- a >> b zero-filled, or 0 when b ≥ 32 (R294, SHR.n). -/
def shrNFn (a b : Word) : Word := if b.toNat < 32 then a >>> b.toNat else 0
/-- a >> b sign-filled; all sign bits when b ≥ 32 (R294, SHR.i). -/
def shrIFn (a b : Word) : Word :=
  if b.toNat < 32 then a.sshiftRight b.toNat else if a.msb then BitVec.allOnes 32 else 0
/-- a rotated left by b mod 32 (R294, ROTL). -/
def rotlFn (a b : Word) : Word := a.rotateLeft (b.toNat % 32)
/-- Bits [63:32] of the signed product (R294, IMULH.i). -/
def mulhI (a b : Word) : Word := BitVec.ofInt 32 (a.toInt * b.toInt / 2 ^ 32)
/-- Bits [63:32] of the unsigned product (R294, IMULH.n). -/
def mulhN (a b : Word) : Word := BitVec.ofNat 32 (a.toNat * b.toNat / 2 ^ 32)
def minI (a b : Word) : Word := if a.toInt ≤ b.toInt then a else b
def maxI (a b : Word) : Word := if a.toInt ≤ b.toInt then b else a
def minN (a b : Word) : Word := if a.toNat ≤ b.toNat then a else b
def maxN (a b : Word) : Word := if a.toNat ≤ b.toNat then b else a
/-- |x| read signed, modulo 2^32 (R296). -/
def iabsFn (x : Word) : Word := if x.msb then 0 - x else x

/-- Count of 1 bits among the n low bits. -/
def popGo (x : Word) : Nat → Nat
  | 0 => 0
  | n + 1 => popGo x n + (if x.getLsbD n then 1 else 0)
def popc (x : Word) : Word := BitVec.ofNat 32 (popGo x 32)

/-- Leading zeros of the n low bits. -/
def clzGo (x : Word) : Nat → Nat
  | 0 => 0
  | n + 1 => if x.getLsbD n then 0 else clzGo x n + 1
def clz (x : Word) : Word := BitVec.ofNat 32 (clzGo x 32)

/-- Trailing zeros, from bit 32 − n upward. -/
def ctzGo (x : Word) : Nat → Nat
  | 0 => 0
  | n + 1 => if x.getLsbD (31 - n) then 0 else ctzGo x n + 1
def ctz (x : Word) : Word := BitVec.ofNat 32 (ctzGo x 32)

/-- bit i := bit 31 − i (R296). -/
def brev (x : Word) : Word := x.reverse
/-- byte i := byte 3 − i (R296). -/
def bswap (x : Word) : Word := x.extractLsb' 0 8 ++ x.extractLsb' 8 8 ++ x.extractLsb' 16 8 ++ x.extractLsb' 24 8
def sext8 (x : Word) : Word := (x.extractLsb' 0 8).signExtend 32
def sext16 (x : Word) : Word := (x.extractLsb' 0 16).signExtend 32
def zext8 (x : Word) : Word := (x.extractLsb' 0 8).zeroExtend 32
def zext16 (x : Word) : Word := (x.extractLsb' 0 16).zeroExtend 32

/-- pos, len of a bit-field control word (R297). -/
def bfPos (b : Word) : Nat := (b.extractLsb' 0 5).toNat
def bfLen (b : Word) : Nat := min (b.extractLsb' 8 6).toNat 32

/-- BFE (R297). -/
def bfe (a b : Word) : Word :=
  let pos := bfPos b
  let len := bfLen b
  let f := a.toNat / 2 ^ pos % 2 ^ len
  if b.getLsbD 15 && decide (0 < len) then
    let top := min (pos + len) 32 - 1 - pos
    if f / 2 ^ top % 2 = 1 then BitVec.ofNat 32 (f + (2 ^ 32 - 2 ^ (top + 1))) else BitVec.ofNat 32 f
  else BitVec.ofNat 32 f

/-- BFI: vD is source and destination (R297). -/
def bfi (d a b : Word) : Word :=
  let mask : Word := BitVec.ofNat 32 ((2 ^ bfLen b - 1) * 2 ^ bfPos b)
  (d &&& ~~~mask) ||| ((a <<< bfPos b) &&& mask)

/-- One result byte of PRMT: pool byte s[2:0], or its sign when s[3] (R297). -/
def prmtByte (d a : Word) (s : BitVec 4) : BitVec 8 :=
  let y := (d ++ a).extractLsb' (8 * (s.toNat % 8)) 8
  if s.getLsbD 3 then (if y.getLsbD 7 then 0xFF else 0) else y

/-- PRMT: vD is source and destination (R297). -/
def prmt (d a b : Word) : Word :=
  prmtByte d a (b.extractLsb' 12 4) ++ prmtByte d a (b.extractLsb' 8 4) ++ prmtByte d a (b.extractLsb' 4 4) ++
    prmtByte d a (b.extractLsb' 0 4)

/-- ICMP relations by CC 0 to 5 on an ordering (R272). -/
def ccRel (cc : Nat) (o : Ordering) : Bool :=
  match cc with
  | 0 => o == .eq
  | 1 => o != .eq
  | 2 => o == .lt
  | 3 => o != .gt
  | 4 => o == .gt
  | 5 => o != .lt
  | _ => false

/-- Signed element j of width n bits of a packed word (R220). -/
def elemI (x : Word) (j n : Nat) : Int := ((x.toNat / 2 ^ (n * j) % 2 ^ n : Nat) : Int) -
  (if x.getLsbD (n * j + n - 1) then 2 ^ n else 0)
/-- Unsigned element j of width n bits (R220). -/
def elemN (x : Word) (j n : Nat) : Nat := x.toNat / 2 ^ (n * j) % 2 ^ n

def sumI (f : Nat → Int) : Nat → Int
  | 0 => 0
  | n + 1 => sumI f n + f n

def idot4 (acc a b : Word) : Word := acc + BitVec.ofInt 32 (sumI (fun j => elemI a j 8 * elemI b j 8) 4)
def ndot4 (acc a b : Word) : Word :=
  acc + BitVec.ofInt 32 (sumI (fun j => (elemN a j 8 : Int) * (elemN b j 8 : Int)) 4)
def idot8 (acc a b : Word) : Word := acc + BitVec.ofInt 32 (sumI (fun j => elemI a j 4 * elemI b j 4) 8)
def idist4 (acc a b : Word) : Word :=
  acc + BitVec.ofInt 32 (sumI (fun j => (elemI a j 8 - elemI b j 8) * (elemI a j 8 - elemI b j 8)) 4)

/-- The partner of lane L in a shuffle: kind 0 idx, 1 xor, 2 xw (R313). -/
def partner (kind L n : Nat) : Nat :=
  match kind with
  | 0 => n % 32
  | 1 => L ^^^ (n % 32)
  | _ => L ^^^ ((32 / 2 ^ min n 31) % 32)

end Sys2Proof.Machine
end

