-- ==== Sys2Proof/Machine/FpFn.lean ====
section
/-!
DEFINITION. The floating-point functions of R299 to R308, R314 and R315: values and flags from operand words.
-/

namespace Sys2Proof.Machine

/-- FPCTL.FTZ and FPCTL.RM (R216). -/
def ftzOf (fpctl : Word) : Bool := fpctl.getLsbD 12
def rmOf (fpctl : Word) : Rm :=
  match (fpctl.extractLsb' 10 2).toNat with
  | 0 => .rne
  | 1 => .rtz
  | 2 => .rdn
  | _ => .rup

/-- Fields of an XMOD payload (R285). -/
def xmRM (x : BitVec 25) : Nat := (x.extractLsb' 0 3).toNat
def xmSAT (x : BitVec 25) : Bool := x.getLsbD 3
def xmFMT (x : BitVec 25) : Nat := (x.extractLsb' 4 5).toNat
def xmCACHE (x : BitVec 25) : Nat := (x.extractLsb' 9 2).toNat
def xmTC (x : BitVec 25) : Nat := (x.extractLsb' 11 2).toNat
def xmSCOPE (x : BitVec 25) : BitVec 3 := x.extractLsb' 13 3
def xmWT (x : BitVec 25) : Bool := x.getLsbD 16
def xmEA (x : BitVec 25) : Bool := x.getLsbD 17
def xmET (x : BitVec 25) : Bool := x.getLsbD 18

/-- The rounding mode m: XMOD RM when it names 0 to 4, otherwise the default (R290). -/
def pickRm (xm : Option (BitVec 25)) (dflt : Rm) : Rm :=
  match xm with
  | none => dflt
  | some x =>
    match xmRM x with
    | 0 => .rne
    | 1 => .rtz
    | 2 => .rdn
    | 3 => .rup
    | 4 => .sr
    | _ => dflt

def satOf (xm : Option (BitVec 25)) : Bool :=
  match xm with
  | none => false
  | some x => xmSAT x

/-- The FP32 operations of R299 and R300. -/
inductive FOp where | add | sub | mul | mac | min | max
deriving DecidableEq, Repr

/-- The negative of a value. -/
def Fp.neg : Fp → Fp
  | .nan => .nan
  | .inf s => .inf (!s)
  | .fin s m e => .fin (!s) m e

/-- One operation in a format, on codes a, b, c, before .sat (R299, R300, R303). -/
def Fmt.op (f : Fmt) (o : FOp) (rm : Rm) (ftz : Bool) (a b c : Nat) : Nat × FpFlags :=
  let va := f.operand ftz a
  let vb := f.operand ftz b
  match o with
  | .add => f.add rm ftz va vb
  | .sub => f.add rm ftz va vb.neg
  | .mul => f.mul rm ftz va vb
  | .mac => f.fma rm ftz va vb (f.operand ftz c)
  | .min => (f.minmax false ftz a b, 0)
  | .max => (f.minmax true ftz a b, 0)

/-- With .sat the rounded result is clamped (R301). -/
def Fmt.opSat (f : Fmt) (o : FOp) (rm : Rm) (ftz sat : Bool) (a b c : Nat) : Nat × FpFlags :=
  let (v, fl) := f.op o rm ftz a b c
  (if sat then f.saturate v else v, fl)

/-- An FP32 instruction of R299 on words. -/
def f32op (o : FOp) (xm : Option (BitVec 25)) (fpctl a b c : Word) : Word × FpFlags :=
  let (v, fl) := fp32.opSat o (pickRm xm (rmOf fpctl)) (ftzOf fpctl) (satOf xm) a.toNat b.toNat c.toNat
  (BitVec.ofNat 32 v, fl)

/-- A packed instruction of R303: element 0 in bits [15:0], element 1 in bits [31:16]. -/
def packedOp (f : Fmt) (o : FOp) (xm : Option (BitVec 25)) (fpctl a b c : Word) : Word × FpFlags :=
  let rm := pickRm xm (rmOf fpctl)
  let go (i : Nat) := f.opSat o rm (ftzOf fpctl) (satOf xm) (elemN a i 16) (elemN b i 16) (elemN c i 16)
  let (v0, f0) := go 0
  let (v1, f1) := go 1
  (BitVec.ofNat 16 v1 ++ BitVec.ofNat 16 v0, f0 ||| f1)

/-- FSCALE (R299). -/
def fscale (xm : Option (BitVec 25)) (fpctl a b : Word) : Word × FpFlags :=
  match fp32.operand (ftzOf fpctl) a.toNat with
  | .nan => (BitVec.ofNat 32 fp32.nanBits, 0)
  | .inf s => (BitVec.ofNat 32 (fp32.signed s fp32.infBits), 0)
  | .fin s m e =>
    if m == 0 then (BitVec.ofNat 32 (fp32.signed s 0), 0)
    else
      -- beyond these exponents every result is the same overflow or underflow
      let n : Int := max (-2000) (min 2000 b.toInt)
      let (v, fl) := fp32.finish (pickRm xm (rmOf fpctl)) (ftzOf fpctl) s m (e + n) false 0
      (BitVec.ofNat 32 v, fl)

/-- A value rounded to an integral value by a mode: FRNDN, FRNDZ, FRNDD, FRNDU (R302). -/
def frnd (rm : Rm) (ftz : Bool) (x : Word) : Word :=
  match fp32.operand ftz x.toNat with
  | .nan => BitVec.ofNat 32 fp32.nanBits
  | .inf s => BitVec.ofNat 32 (fp32.signed s fp32.infBits)
  | .fin s m e =>
    if m == 0 then BitVec.ofNat 32 (fp32.signed s 0)
    else
      let (k, _) := roundQ rm s m e 0 false 0
      BitVec.ofNat 32 (fp32.signed s (fp32.magBits k 0))

/-- FFRAC (R302). -/
def ffrac (xm : Option (BitVec 25)) (fpctl x : Word) : Word × FpFlags :=
  let ftz := ftzOf fpctl
  match fp32.operand ftz x.toNat with
  | .nan => (BitVec.ofNat 32 fp32.nanBits, 0)
  | .inf _ => (BitVec.ofNat 32 fp32.nanBits, flNV)
  | .fin s m e =>
    if m == 0 then (0, 0)
    else
      let fl := fp32.operand ftz (frnd .rdn ftz x).toNat
      let (v, g) := fp32.add (pickRm xm (rmOf fpctl)) ftz (.fin s m e) fl.neg
      match fp32.decode v with
      | .fin _ 0 _ => (0, g)
      | _ => (BitVec.ofNat 32 (min v 0x3F7FFFFF), g)

/-- FCLASS: one-hot class, without FTZ (R302). -/
def fclass (x : Word) : Word :=
  match fp32.decode x.toNat with
  | .nan => 0x100
  | .inf s => if s then 0x001 else 0x080
  | .fin s m _ =>
    if m == 0 then (if s then 0x008 else 0x010)
    else if decide (x.toNat % 2 ^ 31 < 2 ^ 23) then (if s then 0x004 else 0x020)
    else (if s then 0x002 else 0x040)

/-- FSAT: FTZ applies to operand and result (R302). -/
def fsat (fpctl x : Word) : Word := BitVec.ofNat 32 (fp32.saturate (fp32.exact (fp32.operand (ftzOf fpctl) x.toNat)))

/-! ## Special functions (R304) -/

inductive SfuFn where | rcp | rsq | sqrt | exp2 | log2 | sint | cost | tanh
deriving DecidableEq, Repr

/-- Round a fixed-point magnitude v / 2^400 with a sticky part. -/
def Fmt.ofFx (f : Fmt) (ftz neg : Bool) (v : Nat) : Nat × FpFlags := f.finish .rne ftz neg v (-400) true 0

/-- 1.0 of a format. -/
def Fmt.one (f : Fmt) : Nat := f.bias * 2 ^ f.mbits

/-- 1/x (R304, RCP, RCPH2). -/
def Fmt.rcp (f : Fmt) (ftz : Bool) (x : Fp) : Nat × FpFlags :=
  match x with
  | .nan => (f.nanBits, 0)
  | .inf s => (f.signed s 0, 0)
  | .fin s m e =>
    if m == 0 then (f.signed s f.infBits, flDZ)
    else
      let (q, qe, st) := fpDiv 1 0 m e
      f.finish .rne ftz s q qe st 0

/-- 1/√x (R304). -/
def Fmt.rsq (f : Fmt) (ftz : Bool) (x : Fp) : Nat × FpFlags :=
  match x with
  | .nan => (f.nanBits, 0)
  | .inf s => if s then (f.nanBits, flNV) else (0, 0)
  | .fin s m e =>
    if m == 0 then (f.signed s f.infBits, flDZ)
    else if s then (f.nanBits, flNV)
    else
      -- 1/√(m 2^e) = √(2^(200 − e') / m) × 2^k with e' made even
      let e' : Int := e
      let par : Nat := if e' % 2 = 0 then 0 else 1
      let n := 2 ^ (200 + par) / m
      let rem := 2 ^ (200 + par) % m
      let r := isqrt (Nat.log2 n / 2 + 1) n 0
      f.finish .rne ftz false r ((-(e' + (par : Int)) - 200) / 2) (r * r != n || rem != 0) 0

/-- √x (R304). -/
def Fmt.sqrt (f : Fmt) (ftz : Bool) (x : Fp) : Nat × FpFlags :=
  match x with
  | .nan => (f.nanBits, 0)
  | .inf s => if s then (f.nanBits, flNV) else (f.infBits, 0)
  | .fin s m e =>
    if m == 0 then (f.signed s 0, 0)
    else if s then (f.nanBits, flNV)
    else
      let (r, re, st) := fpSqrt m e
      f.finish .rne ftz false r re st 0

/-- 2^x (R304, EXP2, EXPH2). -/
def Fmt.exp2 (f : Fmt) (ftz : Bool) (x : Fp) : Nat × FpFlags :=
  match x with
  | .nan => (f.nanBits, 0)
  | .inf s => if s then (0, 0) else (f.infBits, 0)
  | .fin s m e =>
    if m == 0 then (f.one, 0)
    else if e ≥ 0 || m % 2 ^ (-e).toNat == 0 then
      -- an integral exponent: exact
      let k : Int := if e ≥ 0 then (shlInt m (min e 20) : Int) else (m / 2 ^ (-e).toNat : Nat)
      let k := min k 4000
      f.finish .rne ftz false 1 (if s then -k else k) false 0
    else
      let d := 2 ^ (-e).toNat
      let ip : Nat := min (m / d) 4000
      let fr := m % d
      -- x = ip + fr/d, or −x = −ip − 1 + (d − fr)/d
      let (i, g) : Int × Nat := if s then (-(ip : Int) - 1, d - fr) else ((ip : Int), fr)
      let t := fxMul (g * fxOne / d) fxLn2
      f.finish .rne ftz false (fxExp t) (i - 400) true 0

/-- log2 x (R304). -/
def Fmt.log2 (f : Fmt) (ftz : Bool) (x : Fp) : Nat × FpFlags :=
  match x with
  | .nan => (f.nanBits, 0)
  | .inf s => if s then (f.nanBits, flNV) else (f.infBits, 0)
  | .fin s m e =>
    if m == 0 then (f.signed true f.infBits, flDZ)
    else if s then (f.nanBits, flNV)
    else
      let L := Nat.log2 m
      let E : Int := (L : Int) + e
      if m == 2 ^ L then f.ofInt .rne ftz E 0 false
      else
        let fr := fxLn m (2 ^ L) * fxOne / fxLn2
        let v : Int := E * (fxOne : Int) + (fr : Int)
        f.finish .rne ftz (decide (v < 0)) v.natAbs (-400) true 0

/-- sin and cos of a quarter-turn fraction: q quarter turns plus r/2^s of one (r < 2^s); result sign and magnitude in
fixed point, with exactness for r = 0. -/
def quarter (isCos : Bool) (q r s : Nat) : Bool × Nat × Bool :=
  let a := fxMul (r * fxOne / 2 ^ s) (fxPi / 2)
  let k := (q + (if isCos then 1 else 0)) % 4
  -- sin of (k quarter turns + a): sin a, cos a, −sin a, −cos a
  let mag := if k % 2 == 0 then (if r == 0 then 0 else fxSin a) else (if r == 0 then fxOne else fxCos a)
  (decide (2 ≤ k), mag, r == 0)

/-- sin(2πx) and cos(2πx), x in turns (R304, SINT, COST). -/
def Fmt.trig (f : Fmt) (isCos ftz : Bool) (x : Fp) : Nat × FpFlags :=
  match x with
  | .nan => (f.nanBits, 0)
  | .inf _ => (f.nanBits, flNV)
  | .fin s m e =>
    if m == 0 || decide (e ≥ 0) then (if isCos then f.one else f.signed s 0, 0)
    else
      let (fr, sh) := fracBits m e
      -- quarters: 4 fr / 2^sh
      let q := 4 * fr / 2 ^ sh
      let r := 4 * fr % 2 ^ sh
      let (sg, mag, exact) := quarter isCos q r sh
      if exact then
        if mag == 0 then (if isCos then 0 else f.signed s 0, 0)
        else (f.signed (if isCos then sg else (sg != s)) f.one, 0)
      else f.ofFx ftz (if isCos then sg else (sg != s)) mag

/-- tanh x (R304). -/
def Fmt.tanh (f : Fmt) (ftz : Bool) (x : Fp) : Nat × FpFlags :=
  match x with
  | .nan => (f.nanBits, 0)
  | .inf s => (f.signed s f.one, 0)
  | .fin s m e =>
    if m == 0 then (f.signed s 0, 0)
    else
      let E : Int := (Nat.log2 m : Int) + e
      if E < -14 then
        -- |x| (1 − x²/3 + …): just below |x|
        f.finish .rne ftz s (m * 2 ^ 80 - 1) (e - 80) true 0
      else if E ≥ 4 then f.finish .rne ftz s (2 ^ 80 - 1) (-80) true 0
      else
        -- (w − 1)/(w + 1), w = e^(2|x|) = 2^i × e^t
        let y := (if e ≥ 0 then shlInt m e * fxOne else m * fxOne / 2 ^ (-e).toNat) * 2
        let i := y / fxLn2
        let w := fxExp (y - i * fxLn2) * 2 ^ i
        f.ofFx ftz s ((w - fxOne) * fxOne / (w + fxOne))

/-- A special function in a format. -/
def Fmt.sfu (f : Fmt) (fn : SfuFn) (ftz : Bool) (bits : Nat) : Nat × FpFlags :=
  let x := f.operand ftz bits
  match fn with
  | .rcp => f.rcp ftz x
  | .rsq => f.rsq ftz x
  | .sqrt => f.sqrt ftz x
  | .exp2 => f.exp2 ftz x
  | .log2 => f.log2 ftz x
  | .sint => f.trig false ftz x
  | .cost => f.trig true ftz x
  | .tanh => f.tanh ftz x

def sfu32 (fn : SfuFn) (fpctl x : Word) : Word × FpFlags :=
  let (v, fl) := fp32.sfu fn (ftzOf fpctl) x.toNat
  (BitVec.ofNat 32 v, fl)

/-- RCPH2 and EXPH2: per FP16 element (R304). -/
def sfuH2 (fn : SfuFn) (fpctl x : Word) : Word × FpFlags :=
  let (v0, f0) := fp16.sfu fn (ftzOf fpctl) (elemN x 0 16)
  let (v1, f1) := fp16.sfu fn (ftzOf fpctl) (elemN x 1 16)
  (BitVec.ofNat 16 v1 ++ BitVec.ofNat 16 v0, f0 ||| f1)

/-! ## Conversions (R305 to R308) -/

def i32Target : Target := .int (-2147483648) 2147483647
def n32Target : Target := .int 0 4294967295

/-- A signed integer as an exact value. -/
def fpOfInt (v : Int) : Fp := .fin (decide (v < 0)) v.natAbs 0

/-- I2F and N2F (R305). -/
def intToF (signed : Bool) (xm : Option (BitVec 25)) (fpctl x : Word) : Word × FpFlags :=
  let v := if signed then x.toInt else (x.toNat : Int)
  let (r, fl) := convert (fpOfInt v) (.fmt fp32) (pickRm xm (rmOf fpctl)) false (ftzOf fpctl) 0
  (BitVec.ofNat 32 r, fl)

/-- F2IN to F2NZ: fixed rounding (R305). -/
def fToInt (t : Target) (rm : Rm) (fpctl x : Word) : Word × FpFlags :=
  let (r, fl) := convert (fp32.operand (ftzOf fpctl) x.toNat) t rm false false 0
  (BitVec.ofNat 32 r, fl)

/-- H2FL, H2FH, B2FL, B2FH: exact widening of half i; a flushed BF16 subnormal sets UF and IX (R305, R290). -/
def widen (f : Fmt) (i : Nat) (fpctl x : Word) : Word × FpFlags :=
  let b := elemN x i 16
  let v := fp32.exact (f.decode b)
  let sub := match f.decode b with | .fin _ 0 _ => false | .fin _ _ _ => f == bf16 && decide (b % 2 ^ 15 < 2 ^ 7) | _ => false
  if ftzOf fpctl && sub then (BitVec.ofNat 32 (fp32.signed (decide (2 ^ 15 ≤ b)) 0), flUF ||| flIX)
  else (BitVec.ofNat 32 v, 0)

/-- F2H, F2B and the halves of CVTP (R305, R306): e is the SR index. -/
def narrow (f : Fmt) (xm : Option (BitVec 25)) (fpctl hseed x e : Word) : Nat × FpFlags :=
  convert (fp32.operand (ftzOf fpctl) x.toNat) (.fmt f) (pickRm xm (rmOf fpctl)) (satOf xm) (ftzOf fpctl) (srWord hseed e)

def laneIx (lane i : Nat) : Word := BitVec.ofNat 32 (8 * lane + i)

def narrow1 (f : Fmt) (xm : Option (BitVec 25)) (fpctl hseed : Word) (lane : Nat) (x : Word) : Word × FpFlags :=
  let (v, fl) := narrow f xm fpctl hseed x (laneIx lane 0)
  (BitVec.ofNat 32 v, fl)

/-- CVTP (R306). -/
def cvtp (f : Fmt) (xm : Option (BitVec 25)) (fpctl hseed : Word) (lane : Nat) (a b : Word) : Word × FpFlags :=
  let (v0, f0) := narrow f xm fpctl hseed a (laneIx lane 0)
  let (v1, f1) := narrow f xm fpctl hseed b (laneIx lane 1)
  (BitVec.ofNat 16 v1 ++ BitVec.ofNat 16 v0, f0 ||| f1)

/-- The target of a format code of R222 that CVTQ or HADQ may name, its element width, and emax of R238. -/
def fmtTarget (code : Nat) : Option (Target × Nat × Int) :=
  match code with
  | 3 => some (.fmt e4m3, 8, 8)
  | 4 => some (.fmt e5m2, 8, 15)
  | 5 => some (.fmt e2m1, 4, 2)
  | 6 => some (.int (-128) 127, 8, 6)
  | 7 => some (.int 0 255, 8, 7)
  | 8 => some (.int (-8) 7, 4, 2)
  | _ => none

/-- Elements packed from element 0 in the low bits upward, width n bits each (R220). -/
def packElems (n : Nat) : List Nat → Nat
  | [] => 0
  | x :: xs => x % 2 ^ n + 2 ^ n * packElems n xs

def cvtqGo (t : Target) (rm : Rm) (sat ftz : Bool) (hseed : Word) (lane : Nat) (e : Int) :
    Nat → List Word → List Nat × FpFlags
  | _, [] => ([], 0)
  | j, x :: xs =>
    let (v, fl) := convert ((fp32.operand ftz x.toNat).scale (-e)) t rm sat false (srWord hseed (laneIx lane j))
    let (vs, fls) := cvtqGo t rm sat ftz hseed lane e (j + 1) xs
    (v :: vs, fl ||| fls)

/-- CVTQ over its source registers (R307). -/
def cvtq (x : BitVec 25) (fpctl hseed : Word) (lane : Nat) (srcs : List Word) (b : Word) : Word × FpFlags :=
  match fmtTarget (xmFMT x) with
  | none => (0, 0)
  | some (t, n, _) =>
    let (vs, fl) := cvtqGo t (pickRm (some x) (rmOf fpctl)) (xmSAT x) (ftzOf fpctl) hseed lane b.toInt 0 srcs
    (BitVec.ofNat 32 (packElems n vs), fl)

/-- CVTX by its function code (R278, R308). -/
def cvtx (c : Nat) (x : Word) : Word :=
  if c < 4 then BitVec.ofNat 32 (fp32.exact (e4m3.decode (elemN x c 8)))
  else if c < 8 then BitVec.ofNat 32 (fp32.exact (e5m2.decode (elemN x (c - 4) 8)))
  else if c < 16 then BitVec.ofNat 32 (fp32.exact (e2m1.decode (elemN x (c - 8) 4)))
  else if c < 20 then BitVec.ofInt 32 (elemI x (c - 16) 8)
  else BitVec.ofInt 32 (elemI x (c - 20) 4)

/-! ## Compares and combinations -/

/-- FCMP and one half of HCMP2 (R272, R309). -/
def fcmpRel (f : Fmt) (cc : Nat) (ftz : Bool) (a b : Nat) : Bool :=
  match fpCmp (f.operand ftz a) (f.operand ftz b) with
  | none => cc == 7 || decide (8 ≤ cc)
  | some o => if cc == 6 then true else if cc == 7 then false else if cc < 6 then ccRel cc o else ccRel (cc - 8) o

/-- The combining operation of REDUCE and SCAN by function code 0 to 10 (R314). -/
def combine (c : Nat) (x y : Word) : Word :=
  match c with
  | 0 => x + y
  | 1 => minI x y
  | 2 => maxI x y
  | 3 => minN x y
  | 4 => maxN x y
  | 5 => x &&& y
  | 6 => x ||| y
  | 7 => x ^^^ y
  | 8 => BitVec.ofNat 32 (fp32.add .rne false (fp32.decode x.toNat) (fp32.decode y.toNat)).1
  | 9 => BitVec.ofNat 32 (fp32.minmax false false x.toNat y.toNat)
  | _ => BitVec.ofNat 32 (fp32.minmax true false x.toNat y.toNat)

/-- The identity of a SCAN operation (R315). -/
def scanIdentity (c : Nat) : Word :=
  match c with
  | 1 => 0x7FFFFFFF
  | 2 => 0x80000000
  | 3 => 0xFFFFFFFF
  | 5 => 0xFFFFFFFF
  | 8 => 0x80000000
  | 9 => 0x7F800000
  | 10 => 0xFF800000
  | _ => 0

def combineOpt (c : Nat) (x y : Option Word) : Option Word :=
  match x, y with
  | some a, some b => some (combine c a b)
  | some a, none => some a
  | none, y => y

/-- One butterfly step of REDUCE (R314). -/
def reduceStep (c s : Nat) (v : List (Option Word)) : List (Option Word) :=
  (List.range v.length).map fun L => combineOpt c (v.getD L none) (v.getD (L ^^^ s) none)

/-- REDUCE over the 32 lanes, absent lanes none (R314). -/
def reduceAll (c : Nat) (v : List (Option Word)) : List (Option Word) :=
  [16, 8, 4, 2, 1].foldl (fun v s => reduceStep c s v) v

/-- One step of SCAN: the left operand first (R315). -/
def scanStep (c s : Nat) (v : List (Option Word)) : List (Option Word) :=
  (List.range v.length).map fun L =>
    if s ≤ L then combineOpt c (v.getD (L - s) none) (v.getD L none) else v.getD L none

def scanAll (c : Nat) (v : List (Option Word)) : List (Option Word) :=
  [1, 2, 4, 8, 16].foldl (fun v s => scanStep c s v) v

end Sys2Proof.Machine
end

