-- ==== Sys2Proof/Config.lean ====
section
/-!
DEFINITION. What an implementation fixes and the manual leaves open. Each constant is opaque: nothing can be proved
about its value, so a statement that holds, holds whatever the value is.
-/

namespace Sys2Proof

/-- The value of the n-th read that the manual leaves open (log 11). -/
opaque Config.freeWord : Nat → BitVec 64
/-- The set of an L2 slice or RDC that a 128-byte line maps to, by die and line number (log 13): R112 counts locked
lines per set, and no rule gives the index function. -/
opaque Config.lineSet : Nat → Nat → Nat

/-- GRIDTAG, the device-internal number of a grid and a team (R207, R252), by grid and team: opaque to programs (log 15). -/
opaque Config.gridTag : Nat → Nat → BitVec 32
/-- The unit code of a machine-check record (R55), by the unit concerned: no rule lists the codes (log 16). -/
opaque Config.unitCode : Nat → BitVec 16

end Sys2Proof
end

