-- ==== Sys2Proof/Syntax.lean ====
section
/-!
DEFINITION. The abstract syntax: one constructor for every row of spec/opcode_table.json. First the 208 encoded
instructions, which carry exactly the operand fields of their word (R267 to R287); then the 118 steps of the device
that have no encoding. What tells one occurrence of such a step from another (which queue, which die, which value the
host writes) stands in the State (Machine/State.lean, occ), as the table gives these rows no fields.
-/

namespace Sys2Proof

/-- Every operation and event of the part, by table row. -/
inductive Instr where
  /-- IADD (R294). -/
  | iadd (d : BitVec 7) (a : BitVec 7) (b : BitVec 7) (e : BitVec 1) (f : BitVec 1) (g : BitVec 2)
  /-- ISUB (R294). -/
  | isub (d : BitVec 7) (a : BitVec 7) (b : BitVec 7) (e : BitVec 1) (f : BitVec 1) (g : BitVec 2)
  /-- IMUL (R294). -/
  | imul (d : BitVec 7) (a : BitVec 7) (b : BitVec 7) (e : BitVec 1) (f : BitVec 1) (g : BitVec 2)
  /-- IMULH_I (R294). -/
  | imulhI (d : BitVec 7) (a : BitVec 7) (b : BitVec 7) (e : BitVec 1) (f : BitVec 1) (g : BitVec 2)
  /-- IMULH_N (R294). -/
  | imulhN (d : BitVec 7) (a : BitVec 7) (b : BitVec 7) (e : BitVec 1) (f : BitVec 1) (g : BitVec 2)
  /-- IMIN_I (R294). -/
  | iminI (d : BitVec 7) (a : BitVec 7) (b : BitVec 7) (e : BitVec 1) (f : BitVec 1) (g : BitVec 2)
  /-- IMAX_I (R294). -/
  | imaxI (d : BitVec 7) (a : BitVec 7) (b : BitVec 7) (e : BitVec 1) (f : BitVec 1) (g : BitVec 2)
  /-- IMIN_N (R294). -/
  | iminN (d : BitVec 7) (a : BitVec 7) (b : BitVec 7) (e : BitVec 1) (f : BitVec 1) (g : BitVec 2)
  /-- IMAX_N (R294). -/
  | imaxN (d : BitVec 7) (a : BitVec 7) (b : BitVec 7) (e : BitVec 1) (f : BitVec 1) (g : BitVec 2)
  /-- AND (R294). -/
  | and (d : BitVec 7) (a : BitVec 7) (b : BitVec 7) (e : BitVec 1) (f : BitVec 1) (g : BitVec 2)
  /-- OR (R294). -/
  | or (d : BitVec 7) (a : BitVec 7) (b : BitVec 7) (e : BitVec 1) (f : BitVec 1) (g : BitVec 2)
  /-- XOR (R294). -/
  | xor (d : BitVec 7) (a : BitVec 7) (b : BitVec 7) (e : BitVec 1) (f : BitVec 1) (g : BitVec 2)
  /-- SHL (R294). -/
  | shl (d : BitVec 7) (a : BitVec 7) (b : BitVec 7) (e : BitVec 1) (f : BitVec 1) (g : BitVec 2)
  /-- SHR_N (R294). -/
  | shrN (d : BitVec 7) (a : BitVec 7) (b : BitVec 7) (e : BitVec 1) (f : BitVec 1) (g : BitVec 2)
  /-- SHR_I (R294). -/
  | shrI (d : BitVec 7) (a : BitVec 7) (b : BitVec 7) (e : BitVec 1) (f : BitVec 1) (g : BitVec 2)
  /-- ROTL (R294). -/
  | rotl (d : BitVec 7) (a : BitVec 7) (b : BitVec 7) (e : BitVec 1) (f : BitVec 1) (g : BitVec 2)
  /-- IMAC (R294). -/
  | imac (d : BitVec 7) (a : BitVec 7) (b : BitVec 7) (e : BitVec 1) (f : BitVec 1) (g : BitVec 2)
  /-- IADDI (R295). -/
  | iaddi (d : BitVec 7) (a : BitVec 7) (e : BitVec 1) (i : BitVec 10)
  /-- IMULI (R295). -/
  | imuli (d : BitVec 7) (a : BitVec 7) (e : BitVec 1) (i : BitVec 10)
  /-- ANDI (R295). -/
  | andi (d : BitVec 7) (a : BitVec 7) (e : BitVec 1) (i : BitVec 10)
  /-- ORI (R295). -/
  | ori (d : BitVec 7) (a : BitVec 7) (e : BitVec 1) (i : BitVec 10)
  /-- XORI (R295). -/
  | xori (d : BitVec 7) (a : BitVec 7) (e : BitVec 1) (i : BitVec 10)
  /-- SHLI (R295). -/
  | shli (d : BitVec 7) (a : BitVec 7) (e : BitVec 1) (i : BitVec 10)
  /-- SHRI_N (R295). -/
  | shriN (d : BitVec 7) (a : BitVec 7) (e : BitVec 1) (i : BitVec 10)
  /-- SHRI_I (R295). -/
  | shriI (d : BitVec 7) (a : BitVec 7) (e : BitVec 1) (i : BitVec 10)
  /-- MOVI (R295). -/
  | movi (d : BitVec 7) (i : BitVec 10)
  /-- MOV (R296). -/
  | mov (d : BitVec 7) (a : BitVec 7) (e : BitVec 1) (g : BitVec 2)
  /-- INEG (R296). -/
  | ineg (d : BitVec 7) (a : BitVec 7) (e : BitVec 1) (g : BitVec 2)
  /-- IABS (R296). -/
  | iabs (d : BitVec 7) (a : BitVec 7) (e : BitVec 1) (g : BitVec 2)
  /-- NOT (R296). -/
  | not (d : BitVec 7) (a : BitVec 7) (e : BitVec 1) (g : BitVec 2)
  /-- POPC (R296). -/
  | popc (d : BitVec 7) (a : BitVec 7) (e : BitVec 1) (g : BitVec 2)
  /-- CLZ (R296). -/
  | clz (d : BitVec 7) (a : BitVec 7) (e : BitVec 1) (g : BitVec 2)
  /-- CTZ (R296). -/
  | ctz (d : BitVec 7) (a : BitVec 7) (e : BitVec 1) (g : BitVec 2)
  /-- BREV (R296). -/
  | brev (d : BitVec 7) (a : BitVec 7) (e : BitVec 1) (g : BitVec 2)
  /-- BSWAP (R296). -/
  | bswap (d : BitVec 7) (a : BitVec 7) (e : BitVec 1) (g : BitVec 2)
  /-- SEXT8 (R296). -/
  | sext8 (d : BitVec 7) (a : BitVec 7) (e : BitVec 1) (g : BitVec 2)
  /-- SEXT16 (R296). -/
  | sext16 (d : BitVec 7) (a : BitVec 7) (e : BitVec 1) (g : BitVec 2)
  /-- ZEXT8 (R296). -/
  | zext8 (d : BitVec 7) (a : BitVec 7) (e : BitVec 1) (g : BitVec 2)
  /-- ZEXT16 (R296). -/
  | zext16 (d : BitVec 7) (a : BitVec 7) (e : BitVec 1) (g : BitVec 2)
  /-- BFE (R297). -/
  | bfe (d : BitVec 7) (a : BitVec 7) (b : BitVec 7) (e : BitVec 1) (f : BitVec 1) (g : BitVec 2)
  /-- BFI (R297). -/
  | bfi (d : BitVec 7) (a : BitVec 7) (b : BitVec 7) (e : BitVec 1) (f : BitVec 1) (g : BitVec 2)
  /-- PRMT (R297). -/
  | prmt (d : BitVec 7) (a : BitVec 7) (b : BitVec 7) (e : BitVec 1) (f : BitVec 1) (g : BitVec 2)
  /-- SEL (R298). -/
  | sel (d : BitVec 7) (a : BitVec 7) (b : BitVec 7) (e : BitVec 1) (f : BitVec 1) (g : BitVec 2)
  /-- FADD (R299). -/
  | fadd (d : BitVec 7) (a : BitVec 7) (b : BitVec 7) (e : BitVec 1) (f : BitVec 1) (g : BitVec 2)
  /-- FSUB (R299). -/
  | fsub (d : BitVec 7) (a : BitVec 7) (b : BitVec 7) (e : BitVec 1) (f : BitVec 1) (g : BitVec 2)
  /-- FMUL (R299). -/
  | fmul (d : BitVec 7) (a : BitVec 7) (b : BitVec 7) (e : BitVec 1) (f : BitVec 1) (g : BitVec 2)
  /-- FMAC (R299). -/
  | fmac (d : BitVec 7) (a : BitVec 7) (b : BitVec 7) (e : BitVec 1) (f : BitVec 1) (g : BitVec 2)
  /-- FMIN (R300). -/
  | fmin (d : BitVec 7) (a : BitVec 7) (b : BitVec 7) (e : BitVec 1) (f : BitVec 1) (g : BitVec 2)
  /-- FMAX (R300). -/
  | fmax (d : BitVec 7) (a : BitVec 7) (b : BitVec 7) (e : BitVec 1) (f : BitVec 1) (g : BitVec 2)
  /-- FNEG (R302). -/
  | fneg (d : BitVec 7) (a : BitVec 7) (e : BitVec 1) (g : BitVec 2)
  /-- FABS (R302). -/
  | fabs (d : BitVec 7) (a : BitVec 7) (e : BitVec 1) (g : BitVec 2)
  /-- FRNDN (R302). -/
  | frndn (d : BitVec 7) (a : BitVec 7) (e : BitVec 1) (g : BitVec 2)
  /-- FRNDZ (R302). -/
  | frndz (d : BitVec 7) (a : BitVec 7) (e : BitVec 1) (g : BitVec 2)
  /-- FRNDD (R302). -/
  | frndd (d : BitVec 7) (a : BitVec 7) (e : BitVec 1) (g : BitVec 2)
  /-- FRNDU (R302). -/
  | frndu (d : BitVec 7) (a : BitVec 7) (e : BitVec 1) (g : BitVec 2)
  /-- FFRAC (R302). -/
  | ffrac (d : BitVec 7) (a : BitVec 7) (e : BitVec 1) (g : BitVec 2)
  /-- FCLASS (R302). -/
  | fclass (d : BitVec 7) (a : BitVec 7) (e : BitVec 1) (g : BitVec 2)
  /-- FSAT (R302). -/
  | fsat (d : BitVec 7) (a : BitVec 7) (e : BitVec 1) (g : BitVec 2)
  /-- FSCALE (R299). -/
  | fscale (d : BitVec 7) (a : BitVec 7) (b : BitVec 7) (e : BitVec 1) (f : BitVec 1) (g : BitVec 2)
  /-- HADD2_F16 (R303). -/
  | hadd2F16 (d : BitVec 7) (a : BitVec 7) (b : BitVec 7) (e : BitVec 1) (f : BitVec 1) (g : BitVec 2)
  /-- HMUL2_F16 (R303). -/
  | hmul2F16 (d : BitVec 7) (a : BitVec 7) (b : BitVec 7) (e : BitVec 1) (f : BitVec 1) (g : BitVec 2)
  /-- HMAC2_F16 (R303). -/
  | hmac2F16 (d : BitVec 7) (a : BitVec 7) (b : BitVec 7) (e : BitVec 1) (f : BitVec 1) (g : BitVec 2)
  /-- HMIN2_F16 (R303). -/
  | hmin2F16 (d : BitVec 7) (a : BitVec 7) (b : BitVec 7) (e : BitVec 1) (f : BitVec 1) (g : BitVec 2)
  /-- HMAX2_F16 (R303). -/
  | hmax2F16 (d : BitVec 7) (a : BitVec 7) (b : BitVec 7) (e : BitVec 1) (f : BitVec 1) (g : BitVec 2)
  /-- HADD2_BF16 (R303). -/
  | hadd2Bf16 (d : BitVec 7) (a : BitVec 7) (b : BitVec 7) (e : BitVec 1) (f : BitVec 1) (g : BitVec 2)
  /-- HMUL2_BF16 (R303). -/
  | hmul2Bf16 (d : BitVec 7) (a : BitVec 7) (b : BitVec 7) (e : BitVec 1) (f : BitVec 1) (g : BitVec 2)
  /-- HMAC2_BF16 (R303). -/
  | hmac2Bf16 (d : BitVec 7) (a : BitVec 7) (b : BitVec 7) (e : BitVec 1) (f : BitVec 1) (g : BitVec 2)
  /-- HMIN2_BF16 (R303). -/
  | hmin2Bf16 (d : BitVec 7) (a : BitVec 7) (b : BitVec 7) (e : BitVec 1) (f : BitVec 1) (g : BitVec 2)
  /-- HMAX2_BF16 (R303). -/
  | hmax2Bf16 (d : BitVec 7) (a : BitVec 7) (b : BitVec 7) (e : BitVec 1) (f : BitVec 1) (g : BitVec 2)
  /-- RCP (R304). -/
  | rcp (d : BitVec 7) (a : BitVec 7) (e : BitVec 1) (g : BitVec 2)
  /-- RSQ (R304). -/
  | rsq (d : BitVec 7) (a : BitVec 7) (e : BitVec 1) (g : BitVec 2)
  /-- SQRT (R304). -/
  | sqrt (d : BitVec 7) (a : BitVec 7) (e : BitVec 1) (g : BitVec 2)
  /-- EXP2 (R304). -/
  | exp2 (d : BitVec 7) (a : BitVec 7) (e : BitVec 1) (g : BitVec 2)
  /-- LOG2 (R304). -/
  | log2 (d : BitVec 7) (a : BitVec 7) (e : BitVec 1) (g : BitVec 2)
  /-- SINT (R304). -/
  | sint (d : BitVec 7) (a : BitVec 7) (e : BitVec 1) (g : BitVec 2)
  /-- COST (R304). -/
  | cost (d : BitVec 7) (a : BitVec 7) (e : BitVec 1) (g : BitVec 2)
  /-- TANH (R304). -/
  | tanh (d : BitVec 7) (a : BitVec 7) (e : BitVec 1) (g : BitVec 2)
  /-- RCPH2 (R304). -/
  | rcph2 (d : BitVec 7) (a : BitVec 7) (e : BitVec 1) (g : BitVec 2)
  /-- EXPH2 (R304). -/
  | exph2 (d : BitVec 7) (a : BitVec 7) (e : BitVec 1) (g : BitVec 2)
  /-- I2F (R305). -/
  | i2f (d : BitVec 7) (a : BitVec 7) (e : BitVec 1) (g : BitVec 2)
  /-- N2F (R305). -/
  | n2f (d : BitVec 7) (a : BitVec 7) (e : BitVec 1) (g : BitVec 2)
  /-- F2IN (R305). -/
  | f2in (d : BitVec 7) (a : BitVec 7) (e : BitVec 1) (g : BitVec 2)
  /-- F2IZ (R305). -/
  | f2iz (d : BitVec 7) (a : BitVec 7) (e : BitVec 1) (g : BitVec 2)
  /-- F2ID (R305). -/
  | f2id (d : BitVec 7) (a : BitVec 7) (e : BitVec 1) (g : BitVec 2)
  /-- F2IU (R305). -/
  | f2iu (d : BitVec 7) (a : BitVec 7) (e : BitVec 1) (g : BitVec 2)
  /-- F2NN (R305). -/
  | f2nn (d : BitVec 7) (a : BitVec 7) (e : BitVec 1) (g : BitVec 2)
  /-- F2NZ (R305). -/
  | f2nz (d : BitVec 7) (a : BitVec 7) (e : BitVec 1) (g : BitVec 2)
  /-- H2FL (R305). -/
  | h2fl (d : BitVec 7) (a : BitVec 7) (e : BitVec 1) (g : BitVec 2)
  /-- H2FH (R305). -/
  | h2fh (d : BitVec 7) (a : BitVec 7) (e : BitVec 1) (g : BitVec 2)
  /-- B2FL (R305). -/
  | b2fl (d : BitVec 7) (a : BitVec 7) (e : BitVec 1) (g : BitVec 2)
  /-- B2FH (R305). -/
  | b2fh (d : BitVec 7) (a : BitVec 7) (e : BitVec 1) (g : BitVec 2)
  /-- F2H (R305). -/
  | f2h (d : BitVec 7) (a : BitVec 7) (e : BitVec 1) (g : BitVec 2)
  /-- F2B (R305). -/
  | f2b (d : BitVec 7) (a : BitVec 7) (e : BitVec 1) (g : BitVec 2)
  /-- CVTP_F16 (R306). -/
  | cvtpF16 (d : BitVec 7) (a : BitVec 7) (b : BitVec 7) (e : BitVec 1) (f : BitVec 1) (g : BitVec 2)
  /-- CVTP_BF16 (R306). -/
  | cvtpBf16 (d : BitVec 7) (a : BitVec 7) (b : BitVec 7) (e : BitVec 1) (f : BitVec 1) (g : BitVec 2)
  /-- CVTQ (R307). -/
  | cvtq (d : BitVec 7) (a : BitVec 7) (b : BitVec 7) (e : BitVec 1) (f : BitVec 1) (g : BitVec 2)
  /-- CVTX (R308). -/
  | cvtx (d : BitVec 7) (a : BitVec 7) (c : BitVec 7) (e : BitVec 1) (g : BitVec 2)
  /-- ICMP_I (R309). -/
  | icmpI (p : BitVec 7) (a : BitVec 7) (b : BitVec 7) (c : BitVec 4)
  /-- ICMP_N (R309). -/
  | icmpN (p : BitVec 7) (a : BitVec 7) (b : BitVec 7) (c : BitVec 4)
  /-- FCMP (R309). -/
  | fcmp (p : BitVec 7) (a : BitVec 7) (b : BitVec 7) (c : BitVec 4)
  /-- HCMP2 (R309). -/
  | hcmp2 (p : BitVec 7) (a : BitVec 7) (b : BitVec 7) (c : BitVec 4)
  /-- PLOG (R310). -/
  | plog (d : BitVec 7) (a : BitVec 7) (b : BitVec 7) (t : BitVec 4)
  /-- V2P (R311). -/
  | v2p (d : BitVec 7) (a : BitVec 7) (e : BitVec 1) (g : BitVec 2)
  /-- P2V (R311). -/
  | p2v (d : BitVec 7) (a : BitVec 7) (e : BitVec 1) (g : BitVec 2)
  /-- PRD (R311). -/
  | prd (d : BitVec 7) (g : BitVec 2)
  /-- PWR (R311). -/
  | pwr (a : BitVec 7) (e : BitVec 1) (g : BitVec 2)
  /-- ALL (R312). -/
  | all (d : BitVec 7) (a : BitVec 7) (e : BitVec 1) (g : BitVec 2)
  /-- ANY (R312). -/
  | any (d : BitVec 7) (a : BitVec 7) (e : BitVec 1) (g : BitVec 2)
  /-- BALLOT (R312). -/
  | ballot (d : BitVec 7) (a : BitVec 7) (e : BitVec 1) (g : BitVec 2)
  /-- MATCH (R312). -/
  | matchLanes (d : BitVec 7) (a : BitVec 7) (e : BitVec 1) (g : BitVec 2)
  /-- LCOUNT (R312). -/
  | lcount (d : BitVec 7) (g : BitVec 2)
  /-- SHFL_IDX (R313). -/
  | shflIdx (d : BitVec 7) (a : BitVec 7) (b : BitVec 7) (e : BitVec 1) (f : BitVec 1) (g : BitVec 2)
  /-- SHFL_XOR (R313). -/
  | shflXor (d : BitVec 7) (a : BitVec 7) (b : BitVec 7) (e : BitVec 1) (f : BitVec 1) (g : BitVec 2)
  /-- SHFL_XW (R313). -/
  | shflXw (d : BitVec 7) (a : BitVec 7) (b : BitVec 7) (e : BitVec 1) (f : BitVec 1) (g : BitVec 2)
  /-- REDUCE (R314). -/
  | reduce (d : BitVec 7) (a : BitVec 7) (c : BitVec 7) (e : BitVec 1) (g : BitVec 2)
  /-- SCAN (R315). -/
  | scan (d : BitVec 7) (a : BitVec 7) (c : BitVec 7) (e : BitVec 1) (g : BitVec 2)
  /-- BRA (R316). -/
  | bra (s : BitVec 25)
  /-- BRP (R316). -/
  | brp (p : BitVec 7) (n : BitVec 1) (s : BitVec 17)
  /-- CALL (R316). -/
  | call (s : BitVec 25)
  /-- JMPI (R316). -/
  | jmpi (a : BitVec 7) (e : BitVec 1) (g : BitVec 2)
  /-- RET (R316). -/
  | ret (e : BitVec 1) (g : BitVec 2)
  /-- EXIT (R317). -/
  | exit
  /-- WSYNC (R318). -/
  | wsync
  /-- BAR_SYNC (R342). -/
  | barSync (b : BitVec 4)
  /-- BAR_ARRIVE (R342). -/
  | barArrive (b : BitVec 4)
  /-- BAR_WAIT (R342). -/
  | barWait (b : BitVec 4)
  /-- BAR_CSYNC (R343). -/
  | barCsync
  /-- NOP (R319). -/
  | nop
  /-- YIELD (R319). -/
  | yield
  /-- SLEEP (R319). -/
  | sleep (a : BitVec 7)
  /-- LD (R323). -/
  | ld (t : BitVec 7) (a : BitVec 7) (r : BitVec 4) (o : BitVec 2) (s : BitVec 3) (g : BitVec 2)
  /-- ST (R324). -/
  | st (t : BitVec 7) (a : BitVec 7) (r : BitVec 4) (o : BitVec 2) (s : BitVec 3) (g : BitVec 2)
  /-- LDS (R325). -/
  | lds (t : BitVec 7) (a : BitVec 7) (r : BitVec 4) (o : BitVec 2) (s : BitVec 3) (g : BitVec 2)
  /-- STS (R325). -/
  | sts (t : BitVec 7) (a : BitVec 7) (r : BitVec 4) (o : BitVec 2) (s : BitVec 3) (g : BitVec 2)
  /-- LDFE (R326). -/
  | ldfe (t : BitVec 7) (a : BitVec 7) (r : BitVec 4) (o : BitVec 2) (s : BitVec 3) (g : BitVec 2)
  /-- STFE (R327). -/
  | stfe (t : BitVec 7) (a : BitVec 7) (r : BitVec 4) (o : BitVec 2) (s : BitVec 2) (g : BitVec 2)
  /-- ATOM (R329). -/
  | atom (t : BitVec 7) (a : BitVec 7) (r : BitVec 4) (o : BitVec 2) (c : BitVec 4) (z : BitVec 1)
  /-- RED (R329). -/
  | red (t : BitVec 7) (a : BitVec 7) (r : BitVec 4) (o : BitVec 2) (c : BitVec 4) (z : BitVec 1)
  /-- ATOMS (R329). -/
  | atoms (t : BitVec 7) (a : BitVec 7) (r : BitVec 4) (o : BitVec 2) (c : BitVec 4) (z : BitVec 1)
  /-- CSTORE (R334). -/
  | cstore (t : BitVec 7) (a : BitVec 7) (r : BitVec 4) (o : BitVec 2) (s : BitVec 3) (g : BitVec 2)
  /-- FENCE (R152). -/
  | fence (k : BitVec 2) (s : BitVec 3)
  /-- XFENCE (R155). -/
  | xfence (d : BitVec 1) (m : BitVec 3)
  /-- LOCK (R336). -/
  | lock (t : BitVec 7) (a : BitVec 7) (r : BitVec 4) (g : BitVec 2)
  /-- UNLOCK (R336). -/
  | unlock (t : BitVec 7) (a : BitVec 7) (r : BitVec 4) (g : BitVec 2)
  /-- PREF (R337). -/
  | pref (t : BitVec 7) (a : BitVec 7) (r : BitVec 4) (s : BitVec 3) (g : BitVec 2)
  /-- EST (R346). -/
  | est (x : BitVec 7) (i : BitVec 7) (r : BitVec 11)
  /-- ELD (R347). -/
  | eld (x : BitVec 7) (i : BitVec 7) (r : BitVec 11)
  /-- EMRG (R348). -/
  | emrg (i : BitVec 7) (r : BitVec 11)
  /-- ECLR (R348). -/
  | eclr (i : BitVec 7) (r : BitVec 11)
  /-- ESWEEP (R348). -/
  | esweep (i : BitVec 7) (r : BitVec 11)
  /-- ESCENE (R168). -/
  | escene (r : BitVec 11)
  /-- ERAW (R348). -/
  | eraw (i : BitVec 7) (r : BitVec 11)
  /-- EINIT (R348). -/
  | einit (i : BitVec 7) (r : BitVec 11)
  /-- QPUSH (R349). -/
  | qpush (d : BitVec 7) (a : BitVec 7) (n : BitVec 4)
  /-- RWAIT (R350). -/
  | rwait (a : BitVec 7) (n : BitVec 4)
  /-- RREL (R351). -/
  | rrel (a : BitVec 7) (n : BitVec 4)
  /-- LAUNCH (R382). -/
  | launch (d : BitVec 7) (a : BitVec 7) (n : BitVec 4)
  /-- ORDWAIT (R345). -/
  | ordwait (d : BitVec 7) (n : BitVec 4)
  /-- ORDTAKE (R345). -/
  | ordtake (n : BitVec 4)
  /-- MARK_IMM (R127). -/
  | markImm (k : BitVec 10)
  /-- MARK_REG (R383). -/
  | markReg (a : BitVec 7)
  /-- CONT (R373). -/
  | cont (d : BitVec 7) (o : BitVec 18)
  /-- TRAV (R374). -/
  | trav (d : BitVec 7) (a : BitVec 7) (n : BitVec 4)
  /-- TNEW (R377). -/
  | tnew (d : BitVec 7) (a : BitVec 7) (m : BitVec 4) (n : BitVec 4)
  /-- TCUT (R378). -/
  | tcut (d : BitVec 7) (a : BitVec 7) (n : BitVec 4)
  /-- TRET (R379). -/
  | tret (a : BitVec 7)
  /-- TFRD (R380). -/
  | tfrd (d : BitVec 7) (a : BitVec 7) (w : BitVec 3)
  /-- TFWR (R380). -/
  | tfwr (d : BitVec 7) (a : BitVec 7) (w : BitVec 3)
  /-- TSTAT (R381). -/
  | tstat (d : BitVec 7) (a : BitVec 7) (n : BitVec 4)
  /-- MMA (R364). -/
  | mma (d : BitVec 7) (f : BitVec 7) (a : BitVec 5) (b : BitVec 5) (z : BitVec 1)
  /-- MCLAIM (R357). -/
  | mclaim (d : BitVec 7) (n : BitVec 3) (h : BitVec 5)
  /-- MREL (R357). -/
  | mrel (n : BitVec 3) (h : BitVec 5)
  /-- MZERO (R357). -/
  | mzero (n : BitVec 3) (h : BitVec 5)
  /-- MROW (R358). -/
  | mrow (a : BitVec 7) (h : BitVec 5)
  /-- MREAD (R358). -/
  | mread (d : BitVec 7) (h : BitVec 5)
  /-- MLD (R359). -/
  | mld (h : BitVec 5) (a : BitVec 7) (r : BitVec 4) (s : BitVec 3) (g : BitVec 2)
  /-- MSETS (R361). -/
  | msets (a : BitVec 7)
  /-- HADQ (R366). -/
  | hadq (d : BitVec 7) (a : BitVec 7) (b : BitVec 7) (e : BitVec 1) (f : BitVec 1) (g : BitVec 2)
  /-- MCBT (R362). -/
  | mcbt (a : BitVec 7) (r : BitVec 4) (g : BitVec 2)
  /-- MARCH (R368). -/
  | march (d : BitVec 7) (a : BitVec 7) (b : BitVec 7) (e : BitVec 1) (f : BitVec 1) (g : BitVec 2)
  /-- HGRID (R369). -/
  | hgrid (d : BitVec 7) (a : BitVec 7) (b : BitVec 7) (e : BitVec 1) (f : BitVec 1) (g : BitVec 2)
  /-- IDOT4 (R370). -/
  | idot4 (d : BitVec 7) (a : BitVec 7) (e : BitVec 1) (g : BitVec 2)
  /-- NDOT4 (R370). -/
  | ndot4 (d : BitVec 7) (a : BitVec 7) (e : BitVec 1) (g : BitVec 2)
  /-- IDOT8 (R370). -/
  | idot8 (d : BitVec 7) (a : BitVec 7) (e : BitVec 1) (g : BitVec 2)
  /-- IDIST4 (R370). -/
  | idist4 (d : BitVec 7) (a : BitVec 7) (e : BitVec 1) (g : BitVec 2)
  /-- FDOT4E4 (R370). -/
  | fdot4e4 (d : BitVec 7) (a : BitVec 7) (e : BitVec 1) (g : BitVec 2)
  /-- FDOT4E5 (R370). -/
  | fdot4e5 (d : BitVec 7) (a : BitVec 7) (e : BitVec 1) (g : BitVec 2)
  /-- HDOT2 (R370). -/
  | hdot2 (d : BitVec 7) (a : BitVec 7) (e : BitVec 1) (g : BitVec 2)
  /-- KINIT (R372). -/
  | kinit (a : BitVec 7) (y : BitVec 1) (k : BitVec 8)
  /-- KINS (R372). -/
  | kins (d : BitVec 7) (a : BitVec 7)
  /-- KMRG (R372). -/
  | kmrg (d : BitVec 7) (a : BitVec 7)
  /-- KRD (R372). -/
  | krd (d : BitVec 7) (a : BitVec 7)
  /-- SRD (R384). -/
  | srd (d : BitVec 7) (s : BitVec 11)
  /-- SWR (R384). -/
  | swr (a : BitVec 7) (s : BitVec 11)
  /-- TRAP_ASSERT (R385). -/
  | trapAssert (a : BitVec 7) (n : BitVec 4)
  /-- TRAP_USER (R385). -/
  | trapUser (a : BitVec 7)
  /-- BKPT (R386). -/
  | bkpt
  /-- RFT (R387). -/
  | rft
  /-- SAVEW (R388). -/
  | savew (a : BitVec 7) (n : BitVec 4)
  /-- RESTW (R388). -/
  | restw (a : BitVec 7) (n : BitVec 4)
  /-- IPREF (R338). -/
  | ipref (a : BitVec 7) (c : BitVec 11)
  /-- BSET (R339). -/
  | bset (a : BitVec 7) (n : BitVec 4)
  /-- BGET (R339). -/
  | bget (d : BitVec 7) (n : BitVec 4)
  /-- SCHED (R286). -/
  | sched (p : BitVec 2)
  /-- XIMM (R283). -/
  | ximm (p : BitVec 25)
  /-- XSRC (R284). -/
  | xsrc (k : BitVec 2) (v : BitVec 20)
  /-- XMOD (R285). -/
  | xmod (t : BitVec 1) (e : BitVec 1) (w : BitVec 1) (s : BitVec 3) (c : BitVec 2) (h : BitVec 2) (f : BitVec 5) (a : BitVec 1) (m : BitVec 3)
  /-- PRED (R282). -/
  | pred (p : BitVec 7) (n : BitVec 1)
  /-- RESET (R19). -/
  | reset
  /-- FUNCTION_READY (R19). -/
  | functionReady
  /-- PORT_DOWN (R17). -/
  | portDown
  /-- PORT_UP (R17). -/
  | portUp
  /-- TC0_DEMOTION (R13). -/
  | tc0Demotion
  /-- DVFS_CHANGE (R23). -/
  | dvfsChange
  /-- POWERCAP_WRITE (R22). -/
  | powercapWrite
  /-- REGISTER_WRITE (R25). -/
  | registerWrite
  /-- CTXTAB_WRITE (R89). -/
  | ctxtabWrite
  /-- BAR2_READ (R27). -/
  | bar2Read
  /-- BAR2_WRITE (R28). -/
  | bar2Write
  /-- BAR2STAT_WRITE (R27). -/
  | bar2statWrite
  /-- HOST_ATOMIC (R18). -/
  | hostAtomic
  /-- CONTEXT_ENABLE (R31). -/
  | contextEnable
  /-- CONTEXT_RECHECK (R31). -/
  | contextRecheck
  /-- CONTEXT_DISABLE (R31). -/
  | contextDisable
  /-- CTXSTAT_WRITE (R30). -/
  | ctxstatWrite
  /-- CNTREINIT_WRITE (R50). -/
  | cntreinitWrite
  /-- QUEUE_ENABLE (R34). -/
  | queueEnable
  /-- QUEUE_DISABLE (R32). -/
  | queueDisable
  /-- QUEUE_RESTART (R37). -/
  | queueRestart
  /-- QUEUE_SKIP (R37). -/
  | queueSkip
  /-- FAULTACK_RETRY (R57). -/
  | faultackRetry
  /-- FAULTACK_UNRESOLVABLE (R57). -/
  | faultackUnresolvable
  /-- JOB_PACKET (R39). -/
  | jobPacket
  /-- GRID_PACKET (R41). -/
  | gridPacket
  /-- COPY_PACKET (R42). -/
  | copyPacket
  /-- TRAVERSE_PACKET (R43). -/
  | traversePacket
  /-- WAITCNT_PACKET (R44). -/
  | waitcntPacket
  /-- SIGNAL_PACKET (R45). -/
  | signalPacket
  /-- TIMEBIND_PACKET (R46). -/
  | timebindPacket
  /-- NOP_PACKET (R47). -/
  | nopPacket
  /-- ILLEGAL_PACKET_KIND (R36). -/
  | illegalPacketKind
  /-- PACKET_WAIT_MET (R38). -/
  | packetWaitMet
  /-- PACKET_COMPLETION (R48). -/
  | packetCompletion
  /-- COMPLETION_RING_SPACE (R51). -/
  | completionRingSpace
  /-- EVENT_RING_SPACE (R54). -/
  | eventRingSpace
  /-- FAULT_RING_SPACE (R54). -/
  | faultRingSpace
  /-- COUNTER_POISON (R50). -/
  | counterPoison
  /-- MONITOR_SRAM_ERROR (R37). -/
  | monitorSramError
  /-- ESTREQ_BATCH_COUNT (R80). -/
  | estreqBatchCount
  /-- ESTREQ_BATCH_TIMEOUT (R80). -/
  | estreqBatchTimeout
  /-- JOB_DEAL (R61). -/
  | jobDeal
  /-- GRID_DEAL (R62). -/
  | gridDeal
  /-- TEAM_RESTORE (R88). -/
  | teamRestore
  /-- TEAM_RETIRE (R74). -/
  | teamRetire
  /-- GRID_RETIRE (R75). -/
  | gridRetire
  /-- PREEMPT_TIMEOUT (R83). -/
  | preemptTimeout
  /-- TIME_SLICE_EXPIRY (R90). -/
  | timeSliceExpiry
  /-- TEAM_SAVE_COMPLETE (R87). -/
  | teamSaveComplete
  /-- TEAM_FLUSH_COMPLETE (R86). -/
  | teamFlushComplete
  /-- CADDY_ARRIVAL (R76). -/
  | caddyArrival
  /-- CADDY_PARTIAL_TIMEOUT (R77). -/
  | caddyPartialTimeout
  /-- CADDY_DRAIN (R77). -/
  | caddyDrain
  /-- CADDY_WAVE_PLACE (R78). -/
  | caddyWavePlace
  /-- PAGE_WALK_COMPLETE (R102). -/
  | pageWalkComplete
  /-- ACCESS_PERFORM (R146). -/
  | accessPerform
  /-- RESULT_LAND (R203). -/
  | resultLand
  /-- SHOOTDOWN_PAGES (R109). -/
  | shootdownPages
  /-- SHOOTDOWN_CONTEXT (R109). -/
  | shootdownContext
  /-- SHOOTDOWN_ALL (R109). -/
  | shootdownAll
  /-- SHOOTDOWN_COMPLETE (R109). -/
  | shootdownComplete
  /-- TIER_FETCH_START (R136). -/
  | tierFetchStart
  /-- TIER_FETCH_LAND (R136). -/
  | tierFetchLand
  /-- TIER_EVICT_START (R136). -/
  | tierEvictStart
  /-- TIER_EVICT_LAND (R136). -/
  | tierEvictLand
  /-- TIER_COPY_ERROR (R142). -/
  | tierCopyError
  /-- ESU_EST (R165). -/
  | esuEst
  /-- ESU_ELD (R166). -/
  | esuEld
  /-- ESU_EMRG (R170). -/
  | esuEmrg
  /-- ESU_ECLR (R167). -/
  | esuEclr
  /-- ESU_ESWEEP (R169). -/
  | esuEsweep
  /-- ESU_ERAW (R167). -/
  | esuEraw
  /-- ESU_EINIT (R167). -/
  | esuEinit
  /-- ESU_GEN_IN_FORCE (R168). -/
  | esuGenInForce
  /-- ESU_APPEND_RESUME (R171). -/
  | esuAppendResume
  /-- STACK_TAKE (R182). -/
  | stackTake
  /-- WALK_STEP (R184). -/
  | walkStep
  /-- NODE_FETCH_COMPLETE (R175). -/
  | nodeFetchComplete
  /-- ROUTINE_WAVE_FORM (R188). -/
  | routineWaveForm
  /-- ROUTINE_DECISION (R187). -/
  | routineDecision
  /-- JOIN_ZERO (R191). -/
  | joinZero
  /-- WALK_FINISH (R183). -/
  | walkFinish
  /-- QUIESCENT_POINT (R208). -/
  | quiescentPoint
  /-- TRAP_WINDOW_TIMEOUT (R208). -/
  | trapWindowTimeout
  /-- HANDLER_ENTRY (R209). -/
  | handlerEntry
  /-- WSYNC_RELEASE (R200). -/
  | wsyncRelease
  /-- BARRIER_PHASE_COMPLETE (R342). -/
  | barrierPhaseComplete
  /-- LDFE_UNBLOCK (R326). -/
  | ldfeUnblock
  /-- STFE_UNBLOCK (R327). -/
  | stfeUnblock
  /-- ORDWAIT_RELEASE (R345). -/
  | ordwaitRelease
  /-- RWAIT_RELEASE (R350). -/
  | rwaitRelease
  /-- TOPK_LOCK_RELEASE (R240). -/
  | topkLockRelease
  /-- SLEEP_EXPIRY (R319). -/
  | sleepExpiry
  /-- MARK_STALL_END (R132). -/
  | markStallEnd
  /-- BREAKPOINT_MATCH (R247). -/
  | breakpointMatch
  /-- SSMODE_RECORD (R255). -/
  | ssmodeRecord
  /-- SSMODE_REPLAY (R257). -/
  | ssmodeReplay
  /-- SSMODE_OFF (R255). -/
  | ssmodeOff
  /-- DEBUG_CONFIG_UPDATE (R242). -/
  | debugConfigUpdate
  /-- STALL_SAMPLE (R244). -/
  | stallSample
  /-- ENERGY_INTERVAL (R254). -/
  | energyInterval
  /-- REPLAY_DIVERGE_TIMEOUT (R257). -/
  | replayDivergeTimeout
  /-- REPLAY_DIVERGE_STALE (R257). -/
  | replayDivergeStale
  /-- REPLAY_LOG_MATCH (R257). -/
  | replayLogMatch
  /-- SCORESHEET_LOG_SPACE (R255). -/
  | scoresheetLogSpace
  /-- HALTCTX (R249). -/
  | dbgHaltCtx
  /-- RESUME (R249). -/
  | dbgResume
  /-- STEP (R249). -/
  | dbgStep
  /-- RESUMEALL (R249). -/
  | dbgResumeAll
  /-- DUMP (R250). -/
  | dbgDump
  /-- DUMP_WRITE (R250). -/
  | dbgDumpWrite
  /-- DEBUG_BAD_COMMAND (R249). -/
  | dbgBadCommand
  /-- ILLEGAL_INSTRUCTION (R288). -/
  | illegalInstruction
  /-- INSTRUCTION_FETCH_FAULT (R198). -/
  | instructionFetchFault
  /-- MATRIX_UNIT_FREE (R365). -/
  | matrixUnitFree
  /-- PORT_RETRAIN (R16). -/
  | portRetrain
  /-- REPLAY_DIVERGE_UNKNOWN_KIND (R257). -/
  | replayDivergeUnknownKind
deriving DecidableEq, Repr

end Sys2Proof
end

