-- ==== Sys2Proof/Machine/State.lean ====
section
/-!
DEFINITION. The state of the device as plain data: everything the manual gives it, and the model's own fields (the
agenda, fresh identities), with the reasons a step can stop. INVENTORY.md lists every piece with its rule.
-/

namespace Sys2Proof.Machine

/-- Why the machine stops with a fault: no rule of the manual stops the device, so no step raises one. -/
inductive Fault where
  /-- Never raised: the manual stops lanes, queues and contexts, never the device. Safe. -/
  | deviceStopped
deriving DecidableEq, Repr

/-- Why the model gives a step no meaning. -/
inductive Refusal where
  /-- Raised by an arm of exec whose instruction is not modelled, by name. Safe: nothing is claimed of it. -/
  | notModelled (mnemonic : String)
deriving DecidableEq, Repr

/-- A table from numbers to values, in strictly rising order of the number. -/
abbrev Tab (α : Type) := List (Nat × α)

/-! ## Package and host registers -/

/-- The ordering code (R1). -/
inductive Part where | m4 | p4 | m2
deriving DecidableEq, Repr

/-- What the package straps and the part itself present (R1, R2, R7, R22). -/
structure Straps where
  part : Part
  /-- IDENT.STEP (R25). -/
  step : BitVec 8
  sample : Bool
  c2dec : Bool
  topk : Bool
  scoresheet : Bool
  link : Bool
  /-- Channel groups fitted on a DSV7-4P (R7). -/
  groups : BitVec 8
  /-- GiB per channel on a DSV7-4P (R7). -/
  channelGib : Nat
  /-- Module limit in W on a DSV7-4P (R22). -/
  moduleW : Nat
deriving DecidableEq, Repr

/-- STATE of a link port (R16). -/
inductive PortState where | down | training | up | degraded | fault
deriving DecidableEq, Repr

/-- PORTSTAT and TC0OVER of one link port (R16). -/
structure Port where
  retrain : BitVec 8 := 0
  peerport : BitVec 5 := 0
  peerdev : BitVec 10 := 0x3FF
  lanes : BitVec 4 := 0
  state : PortState := .down
  tc0over : BitVec 64 := 0
  /-- The switch that the port attaches to, where it attaches to no device directly (R17). -/
  switch : Nat := 0
deriving DecidableEq, Repr

/-- The clock of one compute die (R23, R217, R253). -/
structure DieClk where
  mhz : BitVec 32 := 2700
  mv : BitVec 32 := 0
  limit : BitVec 32 := 32
  temp : BitVec 16 := 0
  /-- Number of the last change (R253, SEQ). -/
  seq : Nat := 0
  /-- Cycles of the die since reset (R217, CLOCKLO and CLOCKHI). -/
  cycles : Nat := 0
  /-- Clock not yet counted as a whole cycle, in units of 1/2700. -/
  frac : Nat := 0
  /-- The die's clock has made a cycle in this cycle of the main clock: its quadrants may issue (R24). -/
  ticked : Bool := true
deriving DecidableEq, Repr

/-- A pool of near frames (R134). -/
structure Pool where
  framepa : Nat := 0
  frames : Nat := 0
deriving DecidableEq, Repr

/-- The registers of BAR0 that are not a context's or a queue's, and what the last host access answered. -/
structure HostRegs where
  ctxtab : BitVec 64 := 0
  mcring : BitVec 64 := 0
  powercap : BitVec 12 := 0
  /-- BAR2WIN.BASE (R27). -/
  bar2win : BitVec 60 := 0
  /-- log2 of the size the host selected for BAR2 (R27). -/
  bar2log : Nat := 28
  /-- KIND, ACCESS and NOTREADY of BAR2STAT (R27). -/
  bar2stat : BitVec 3 := 0
  /-- The value the last host read or atomic returned. -/
  reply : Nat := 0
  /-- Whether the last host request was answered with data (true) or Unsupported Request (false) (R18). -/
  replyOk : Bool := true
  /-- Drain budget and time slice in microseconds (R89). -/
  drainUs : Nat := 50
  sliceUs : Nat := 2000
  /-- The tier frame table as last read, one pool for each die (R134). -/
  pools : List Pool := []
  /-- CTXTAB has been written since reset: the objects beside the table are watched (R89, R108, R242). -/
  tabSet : Bool := false
  /-- They are still to be read: their memory was not ready (R20). -/
  tabDue : Bool := false
deriving DecidableEq, Repr

/-- Straps, readiness, ports and clocks (R1 to R24). -/
structure Pkg where
  /-- What the straps present now; sampled at the next reset. -/
  pins : Straps
  /-- What the last reset sampled. -/
  straps : Straps
  ready0 : BitVec 64 := 0
  ready1 : BitVec 64 := 0
  ports : List Port := List.replicate 18 {}
  /-- Device ID (R9). -/
  deviceId : BitVec 10 := 0
  /-- Members of the domain (R9). -/
  members : List Nat := [0]
  /-- The devices that a switch reaches, by switch; an unlisted one reaches every member (R17). -/
  switches : Tab (List Nat) := []
  clks : List DieClk := List.replicate 4 {}
deriving DecidableEq, Repr

/-! ## Contexts, queues and packets -/

/-- A context (R29 to R31). -/
structure Ctx where
  enable : Bool := false
  suspended : Bool := false
  asserted : Bool := false
  faulted : Bool := false
  descbad : Bool := false
  /-- The kept copy of the 512-byte descriptor, byte i in bits 8i + 7 to 8i (R31). -/
  desc : BitVec 4096 := 0
  /-- Counters that are poisoned (R50). -/
  poisoned : List Nat := []
  /-- The next fault sequence number (R56). -/
  faultSeq : BitVec 32 := 1
  /-- The next HALTID (R248). -/
  haltNext : BitVec 32 := 1
  /-- HALTCTX holds placement of its new teams (R249). -/
  haltHold : Bool := false
  /-- It was switched out: its last resident team was saved (R90). -/
  switchedOut : Bool := false
deriving DecidableEq, Repr

/-- The state of a queue's monitor (R33 to R37, R80). -/
structure Queue where
  qaddr : BitVec 64 := 0
  ctx : BitVec 8 := 0
  enable : Bool := false
  /-- The 64-byte header as kept at the last reading (R34). -/
  hdr : BitVec 512 := 0
  /-- STATUS (R33). -/
  status : BitVec 8 := 0
  /-- The packet held for its wait condition, with its slot index (R36, step 5; R44). -/
  held : Option (BitVec 512 × Nat) := none
  /-- The kept template card of an ESTREQ queue (R79). -/
  template : BitVec 512 := 0
  /-- The grid of the running ESTREQ batch, its first slot and its length (R80). -/
  batch : Option (Nat × Nat × Nat) := none
  /-- ESTREQ records whose append has performed: slot index and time of arrival (R79, R80). -/
  present : List (Nat × Nat) := []
  /-- The next packet's header read is still to be made (R34). -/
  stale : Bool := false
  /-- What a RESTART asked for that waits for that reading: SKIP or not (R37). -/
  redo : Option Bool := none
  /-- READIDX as the monitor last read or wrote it: what QUEUEHALT names when the header cannot be read (R34, R37). -/
  rix : Nat := 0
deriving DecidableEq, Repr

/-- Progress of a dispatched packet (R36, R45, R48). -/
inductive OutSt where
  /-- Dispatched and not complete. -/
  | running
  /-- Complete with this status and units; its record, signal and event are still to be written (R48). -/
  | done (status : BitVec 8) (units : Nat)
  /-- Its completion ring is full (R51). -/
  | ringWait (status : BitVec 8) (units : Nat)
  /-- Its completion ring is unusable; the queue is halted (R37). -/
  | ringBad (status : BitVec 8) (units : Nat)
  /-- Its record is written, and its signal's counter cannot be reached; the queue is halted (R37). -/
  | signalBad (status : BitVec 8) (units : Nat)
  /-- A SIGNAL whose own counter cannot be reached; the queue is halted (R37, R45). -/
  | opBad
deriving DecidableEq, Repr

/-- A packet that has been dispatched and has not completed (R36, R48, R119). -/
structure OutPkt where
  id : Nat
  q : Nat
  slot : Nat
  ctx : Nat
  /-- The 64 bytes, byte i in bits 8i + 7 to 8i. -/
  pkt : BitVec 512
  st : OutSt := .running
  /-- Team of the pushing lane, for scratchpad endpoints of a COPY (R42). -/
  tid : Option Nat := none
  /-- Bytes of a COPY read so far from its source, in order (R120). -/
  buf : List (BitVec 8) := []
  /-- Bytes of a COPY already performed (R107, R52 UNITS). -/
  copied : Nat := 0
  /-- Fault record the packet waits for (R107, R43). -/
  fault : Option (BitVec 32) := none
  /-- TRAVERSE: waiting for an engine slot or taken (R43, R182). -/
  taken : Bool := false
  /-- Grid of a JOB, GRID, ESTREQ batch or TRAVERSE (R188), and of a child. -/
  gid : Nat := 0
  /-- A child grid has no queue (R382). -/
  child : Bool := false
  /-- First fault sequence number of its grid (R55). -/
  firstFault : BitVec 32 := 0
  /-- Time at which it completed, where its record had to wait for its ring (R52). -/
  doneAt : Option Nat := none
deriving DecidableEq, Repr

/-- A record that waits for its ring: an event or fault record of 64 bytes (R54). -/
structure RingWait where
  ctx : Nat
  /-- 0 event ring, 1 fault ring, 2 MCRING. -/
  ring : Nat
  bytes : BitVec 512
  /-- A copy of the record has been written to MCRING, or dropped there (R54). -/
  copied : Bool := false
deriving DecidableEq, Repr

/-! ## Grids and teams -/

/-- Where a grid comes from (R36, R71, R80, R188). -/
inductive GridSrc where
  | packet (q slot : Nat)
  | child (parent die : Nat)
  | batch (q slot : Nat)
  /-- The walks of a TRAVERSE packet are a grid of their own (R188). -/
  | walk (q slot : Nat)
deriving DecidableEq, Repr

/-- A chunk of a JOB: first record and count (R61). -/
structure Chunk where
  base : Nat
  count : Nat
deriving DecidableEq, Repr

/-- What teams leave their cores for: the next deal of a grid, a formed wave, a saved team (R83, R85, R90). -/
inductive Claimant where
  | deal (gid : Nat)
  | form (id : Nat)
  | saved (tid : Nat)
deriving DecidableEq, Repr

/-- Tickets of one team: bit n of each mask (R70). -/
structure Tickets where
  taken : BitVec 16 := 0
  poisoned : BitVec 16 := 0
deriving DecidableEq, Repr

/-- A run of bits of a completion bitmap that is still to be set (R53): the fault record it waits for, or 0 once that has been answered
with RETRY while the memory was not ready (R57); first bit, count, and die. -/
structure BitmapWait where
  seq : BitVec 32
  first : Nat
  count : Nat
  die : Nat
deriving DecidableEq, Repr

/-- A grid: all teams of one launch (R60 to R75). -/
structure Grid where
  gid : Nat
  ctx : Nat
  /-- The 64-byte card, byte i in bits 8i + 7 to 8i (R39, R41). -/
  card : BitVec 512
  src : GridSrc
  depth : Nat := 0
  prio : Nat := 0
  /-- JOB: records not yet dealt (R61). -/
  rem : Nat := 0
  /-- Next deal ordinal or linear team index (R62, R63). -/
  nextOrd : Nat := 0
  /-- Chunks (JOB) or indices (GRID) to deal again after a flush (R86). -/
  redeal : List Chunk := []
  /-- A child waits for its counter (R71). -/
  waiting : Bool := false
  /-- It has been dispatched: its first deal has been made (R36). -/
  begun : Bool := false
  /-- Records of retired chunks, or retired teams (R52 UNITS). -/
  units : Nat := 0
  faulted : Bool := false
  firstFault : BitVec 32 := 0
  /-- Tickets by team ordinal (R70). -/
  tickets : Tab Tickets := []
  /-- No team at or above this ordinal is placed: a lower team has faulted (R70). -/
  stopAt : Option Nat := none
  /-- Timetable entries, 32 bytes each (R124); none without a timetable. -/
  tt : Option (List (BitVec 256)) := none
  /-- Entries that have fired (R129). -/
  fired : List Nat := []
  /-- b0 to b15 at the first MARK (R126). -/
  snapshot : Option (List (BitVec 72)) := none
  /-- Leading: the highest front its dealt teams have reached (R128). -/
  lead : Nat := 0
  /-- Sum and count of the lifetimes of retired teams, in cycles (R84). -/
  lifeSum : Nat := 0
  lifeCnt : Nat := 0
  /-- Since when the next team that it deals could not be placed (R83, R90). -/
  blockedAt : Option Nat := none
  /-- When teams were last taken off their cores for it after 20 µs (R83). -/
  askedAt : Option Nat := none
  /-- Queue and slot of the root packet (R133). -/
  rootQ : Nat := 0xFFFF
  rootSlot : Nat := 0
  /-- Completion-bitmap ORs that wait for an answer, or for memory that is not ready (R53, R57). -/
  bitmapWait : List BitmapWait := []
  bitmapFail : Bool := false
  /-- Ordinal among logged grids (R256). -/
  logOrd : Option Nat := none
  /-- Caddy and routine waves formed so far (R256). -/
  formOrd : Nat := 0
  /-- Cores on which no further team is placed while another drains (R85). -/
  drainCores : List (Nat × Claimant) := []
  /-- It has retired (R75). -/
  retired : Bool := false
deriving DecidableEq, Repr

/-! ## The Caddy -/

/-- A continuation record (R76, R207). -/
structure CaddyRec where
  id : Nat
  /-- Identity of the CONT or TRAV that made it: its records arrive together (R76). -/
  batch : Nat
  die : Nat
  gid : Nat
  /-- Team that made it (R63). -/
  tid : Nat
  ordinal : Nat
  recbase : Nat
  reccount : Nat
  cmember : Nat
  resume : Nat
  key : Nat
  n : Nat
  regs : List (BitVec 32)
  preds : BitVec 32
  /-- Made by TRAV (R207 FLAGS). -/
  trav : Bool
  /-- Results that land in v(n) upward (R183). -/
  results : List (BitVec 32) := []
  /-- Held by a running walk (R182). -/
  held : Bool := false
  /-- Its arrival step has been made (R76). -/
  arrived : Bool := false
  arrivedAt : Nat := 0
  /-- Slot of the context's spill pool (R76). -/
  spill : Option Nat := none
  /-- The lane that made it: its wave's index in its team too, which the record of its arrival names (R256). -/
  uid : Nat := 0
  wave : Nat := 0
  lane : Nat := 0
  /-- The lane itself, the team that it counts as, and its count of logged operations: they go on in the lane that resumes (R146, R149,
  R256). -/
  me : Nat := 0
  home : Nat := 0
  opCount : Nat := 0
deriving DecidableEq, Repr

/-- An invocation of a routine that waits for its wave (R188). -/
structure Invocation where
  id : Nat
  die : Nat
  eng : Nat
  gid : Nat
  addr : Nat
  nlt : BitVec 72
  /-- The stack itself, as in Stack.id. -/
  stk : Nat
  handle : Nat
  level : Nat
  kind : Nat
  ref : BitVec 64
  /-- v22: the node's kind, or the child (R188). -/
  v22 : BitVec 32
  born : Nat
deriving DecidableEq, Repr

/-- A wave the Caddy has formed and not placed (R77, R188). -/
inductive FormSrc where
  | recs (rs : List CaddyRec)
  | invs (is : List Invocation)
deriving DecidableEq, Repr

structure CaddyForm where
  id : Nat
  die : Nat
  gid : Nat
  resume : Nat
  src : FormSrc
  born : Nat
  ordinal : Nat
  /-- Since when it could not be placed (R83, R90). -/
  blockedAt : Option Nat := none
  /-- When teams were last taken off their cores for it after 20 µs (R83). -/
  askedAt : Option Nat := none
deriving DecidableEq, Repr

/-! ## Teams -/

/-- Where a team stands (R66, R84 to R88). -/
inductive TeamSt where | resident | saving | draining | flushing | saved | retired
deriving DecidableEq, Repr

/-- What a team was made of: a deal, Caddy records or routine invocations (R78, R188). -/
inductive TeamKind where | dealt | caddy | routine
deriving DecidableEq, Repr

/-- A barrier: phase and arrived lanes (bit 32w + L), and per lane the phase it arrived in and has not waited for
(R342). -/
structure Bar where
  phase : BitVec 32 := 0
  arrived : BitVec 1024 := 0
  last : Tab (BitVec 32) := []
deriving DecidableEq, Repr

/-- LOCK of a top-k list is held: offset and bytes of the list, the wave and its lanes that work on it, and when that ends (R239, R240,
R398). -/
structure ListLock where
  off : Nat
  len : Nat
  uid : Nat
  lanes : BitVec 32
  till : Nat
deriving DecidableEq, Repr

/-- A team (R61 to R91). -/
structure Team where
  tid : Nat
  gid : Nat
  ctx : Nat
  kind : TeamKind := .dealt
  st : TeamSt := .resident
  /-- TEAM, RECBASE, RECCOUNT (R63). -/
  ordinal : Nat := 0
  recbase : Nat := 0
  reccount : Nat := 0
  die : Nat := 0
  core : Nat := 0
  cmember : Nat := 0
  /-- Cluster of a clustered team (R68). -/
  cluster : Option Nat := none
  nwaves : Nat := 1
  regs : Nat := 16
  slots : Nat := 0
  /-- Allocation in bytes (R114). -/
  alloc : Nat := 0
  /-- Scratchpad bytes that are not 0 (R115). -/
  scratch : Tab (BitVec 8) := []
  /-- Empty granules (R116). -/
  empties : List Nat := []
  /-- Barriers 0 to 15, then the cluster barrier (R342, R343). -/
  bars : List Bar := List.replicate 17 {}
  faulted : Bool := false
  /-- It has executed MARK or ORDTAKE (R84). -/
  marked : Bool := false
  placedAt : Nat := 0
  /-- Codebook saved with the team (R226). -/
  codebook : Option (Tab (BitVec 8)) := none
  /-- Formation ordinal of a Caddy or routine wave (R256). -/
  formOrd : Nat := 0
  /-- It wrote its core's codebook (R226). -/
  wroteCb : Bool := false
  /-- Chosen for pre-emption in favour of this team (R85). -/
  drainFor : Option Claimant := none
  /-- Since when it could not be restored (R83, R90). -/
  blockedAt : Option Nat := none
  /-- When teams were last taken off their cores for it after 20 µs (R83). -/
  askedAt : Option Nat := none
  /-- The formed wave that a Caddy or routine wave was placed from, to which a flush returns (R84, R86). -/
  form : Option CaddyForm := none
  /-- Lists of its scratchpad on which LOCK is held (R239, R240). -/
  locks : List ListLock := []
deriving DecidableEq, Repr

/-! ## Waves and lanes -/

/-- A register of a lane (R202). -/
structure Reg where
  val : BitVec 32 := 0
  full : Bool := true
  fault : Bool := false
  tag : BitVec 32 := 0
deriving DecidableEq, Repr

/-- A hint a lane holds: major, payload, and where it stood (R199, R281). -/
structure Hint where
  major : BitVec 7
  pay : BitVec 25
  pc : BitVec 32
deriving DecidableEq, Repr

/-- A KINIT, KINS or KMRG of a lane: its list, destination, and what it brings (R372). -/
inductive KOp where
  | init (off k : Nat) (int : Bool)
  | ins (off d : Nat) (key payload : BitVec 32)
  | mrg (off src d : Nat)
deriving DecidableEq, Repr

/-- What a blocked lane waits for (R197). -/
inductive Wait where
  | ordwait (n d : Nat)
  | ldfe (tid off n d : Nat) (clr : Bool) (ord : BitVec 2)
  | stfe (tid off n : Nat) (v : BitVec 128) (ord : BitVec 2)
  | rwait (idx va : Nat)
  /-- Barrier 0 to 15 or 16, the phase waited for; arrive is still to be made (sync or a second arrive). -/
  | bar (b : Nat) (phase : BitVec 32) (arrive thenWait : Bool)
  | wsync
  /-- The list at an offset, to do this; the number is that of the instruction, which all its lanes complete together. -/
  | topk (tid off : Nat) (op : KOp) (grp : Nat)
deriving DecidableEq, Repr

/-- Whether a lane issues (R197, R208, R209). -/
inductive LaneSt where
  | run
  | exited
  /-- Parked by a trap (R208). -/
  | trapped
  /-- Parked on the fault record of this number (R104, R20). -/
  | faulted (seq : BitVec 32)
  /-- Halted by the debugger (R247, R249). -/
  | halted
  | blocked (w : Wait)
  /-- Held at the close of a collection window (R208). -/
  | held
  /-- A handler lane that has executed RFT (R387). -/
  | returned
deriving DecidableEq, Repr

/-- The identity of a routine lane (R188). -/
structure Routine where
  /-- The stack itself: the identity of the request that brought it. -/
  stk : Nat
  level : Nat
  /-- 0 enter, 1 leave, 2 prune. -/
  kind : Nat
deriving DecidableEq, Repr

/-- What a faulted access was issued with: the lane's registers, and the wave's base registers and SCALELOC (R105, R359, R361). -/
structure Snap where
  regs : List Reg
  bases : List (BitVec 72)
  scaleloc : BitVec 14
deriving DecidableEq, Repr

/-- One lane (R197 to R217). -/
structure Lane where
  st : LaneSt := .run
  pc : BitVec 32 := 0
  regs : List Reg := []
  preds : BitVec 128 := 0
  fpctl : BitVec 32 := 0
  key : BitVec 32 := 0
  hseed : BitVec 32 := 0
  resumepc : BitVec 32 := 0
  trapinfo : List (BitVec 32) := [0, 0, 0, 0, 0, 0]
  clockHi : BitVec 32 := 0
  timeHi : BitVec 32 := 0
  hints : List Hint := []
  /-- Hints set aside at handler entry, and the PC held then (R199). -/
  aside : List Hint := []
  entryPc : BitVec 32 := 0
  inHandler : Bool := false
  /-- Registers as they stood when the faulted access was issued: the sources of its replay (R105). -/
  replay : Option Snap := none
  /-- Index already claimed by a CSTORE or QPUSH that faulted after its claim (R335, R349). -/
  claim : Option Nat := none
  /-- SLOTSVA and LOGSLOTS of the queue header as a QPUSH read them for its claim (R349). -/
  ring : Nat × Nat := (0, 0)
  /-- The slot that a parked MLD of this lane still fills (R360). -/
  fill : Option Nat := none
  /-- When it blocked, in the order of identities (R326, R327). -/
  bseq : Nat := 0
  /-- An ESCENE or a MARK stall that the lane has begun: done when set and its condition holds. -/
  begun : Bool := false
  /-- Die cycle at which a SLEEP the lane has begun ends (R319). -/
  wake : Option Nat := none
  /-- Halt after the next instruction (R249 STEP); no comparator at the first issue (R249). -/
  stepping : Bool := false
  /-- The stepped instruction is done (R249). -/
  stepped : Bool := false
  noBreak : Bool := false
  /-- A DUMP holds its posted writes at its core until it resumes (R250). -/
  dumped : Bool := false
  /-- An access of the lane lost its path while the lane stood parked or halted: PC and VA of the trap it takes when it next
  issues, and the cycle at which the access was issued (R17, R211). -/
  lost : Option (BitVec 32 × BitVec 72 × Nat) := none
  /-- Count of logged operations (R256). -/
  opCount : Nat := 0
  /-- It has issued (R241). -/
  ran : Bool := false
  routine : Option Routine := none
  /-- The lane itself, the same before and after CONT or TRAV (R146), and the team that it counts as (R149). -/
  me : Nat := 0
  home : Nat := 0
deriving DecidableEq, Repr

/-- A slot of operand memory: bytes that are not 0 of its 2 KiB and of its scale area (R227, R228). -/
structure OpSlot where
  data : Tab (BitVec 8) := []
  scale : Tab (BitVec 8) := []
deriving DecidableEq, Repr

/-- A collection window (R208). -/
structure Window where
  openedAt : Nat
  /-- PC of the trapping instruction that opened it (R245). -/
  pc : BitVec 32
  /-- The primary lane: the lowest of the earliest-issued trapping instruction, the cycle of that issue, and the lanes of the window
  (R211). -/
  primary : Nat
  issued : Nat := 0
  lanes : BitVec 32 := 0
  /-- The window has closed (quiescent point reached). -/
  closed : Bool := false
deriving DecidableEq, Repr

/-- One wave (R196 to R217). -/
structure Wave where
  uid : Nat
  tid : Nat
  /-- WAVE (R63). -/
  idx : Nat
  /-- Wave slot of the core (R64). -/
  slot : Nat
  lanes : List Lane
  bases : List (BitVec 72) := List.replicate 16 0
  /-- m0 to m31: index within the wave's reservation (R215). -/
  handles : List (Option Nat) := List.replicate 32 none
  ops : List OpSlot := []
  marker : Option (BitVec 16) := none
  scaleloc : BitVec 14 := 0
  window : Option Window := none
  /-- The window of lanes that trap or halt while the handler runs (R208; log 18). -/
  next : Option Window := none
  /-- b15 set aside while the handler runs (R209). -/
  handlerB15 : Option (BitVec 72) := none
  haltId : BitVec 32 := 0
  /-- Die cycles of its placement and of its last issue; a wave that has not issued has no lanes of a last issue (R81). -/
  placedAt : Nat := 0
  lastIssue : Nat := 0
  /-- PC and lanes of its last issue (R244, R245). -/
  issPc : BitVec 32 := 0
  issLanes : BitVec 32 := 0
  /-- SCHED effect on the next choice: 0 none, 1 yield, 2 once more, with the cycle it was given (R81). -/
  sched : Nat := 0
  schedAt : Nat := 0
  /-- Pages that a STALL waits for: PC of the MARK, page VA (R132). -/
  stall : List (Nat × Nat) := []
  /-- Those among them that have landed, or that nothing will bring any more (R132, R137, R141, R142). -/
  settled : List (Nat × Nat) := []
  /-- Page walks that ended in a fault for this wave: page number and cause (R102, R104). -/
  walkFaults : List (Nat × Nat) := []
deriving DecidableEq, Repr

/-! ## Accesses in flight -/

/-- What an access does when it performs (R323 to R335, R346 to R348, R359). -/
inductive AccOp where
  /-- Load of n bytes landing in registers from d; sx: sign-extend from this many bits. -/
  | load (d : Nat) (sx : Nat)
  | store
  /-- Atomic by AOP; x operand, y second operand; lands at d when some. -/
  | atom (aop : Nat) (x y : BitVec 64) (d : Option Nat)
  /-- One 16-byte piece of MLD into slot index, byte offset of the slot. -/
  | mldData (slotIx off : Nat)
  /-- One scale byte of MLD. -/
  | mldScale (slotIx off : Nat)
  | est (rg cell : Nat) (x : BitVec 32) (w : Nat)
  | eld (rg cell d : Nat)
  | emrg (rg a b : Nat)
  | eclr (rg cell : Nat)
  /-- Next cell, cells left, tile that has already appended. -/
  | esweep (rg cell left : Nat) (tile : Option Nat)
  | eraw (rg cell d : Nat)
  | einit (rg cell : Nat) (mean m2 : BitVec 32) (w : Nat)
  /-- RREL with this index: 16 bytes, WIDX and RELIDX (R351). -/
  | rrel (v : BitVec 64)
deriving DecidableEq, Repr

/-- Order class of an access (R145, R270). -/
inductive Ord where | sc | wk | acq | rel | ar
deriving DecidableEq, Repr

/-- An issued access that has not performed (R151), in issue order. -/
structure Acc where
  id : Nat
  op : AccOp
  /-- Issuing lane. -/
  ctx : Nat
  gid : Nat
  tid : Nat
  uid : Nat
  wave : Nat
  lane : Nat
  die : Nat
  core : Nat
  pc : BitVec 32
  /-- Scratchpad of this team, or none for memory. -/
  sp : Option Nat := none
  /-- Domain physical address, or scratchpad offset. -/
  addr : Nat
  va : BitVec 72 := 0
  n : Nat
  data : BitVec 128 := 0
  ord : Ord := .sc
  scope : BitVec 3 := 5
  /-- TYPE of the page (R96); 0 for scratchpad. -/
  type : Nat := 0
  /-- The page is logged (R96 LOG). -/
  log : Bool := false
  /-- Counts for its grid until it performs (R74). -/
  posted : Bool := false
  /-- Refused by a protection failure under the new entries (R109): raises DEFSTORE when forced (R213). -/
  refused : Bool := false
  /-- XMOD CACHE 2: does not allocate in L1 (R111). -/
  nol1 : Bool := false
  /-- The lane's own count of logged operations at issue (R256). -/
  count : Nat := 0
  /-- The lane itself, and the team that it counts as (R146, R149). -/
  me : Nat := 0
  home : Nat := 0
  /-- Cycle of issue; the cycle from which its time counts at the die's present clock (R24); and cycles that banks of the scratchpad or its
  distance add (R15, R117). -/
  born : Nat := 0
  start : Nat := 0
  extra : Nat := 0
  /-- A CSTORE element (R335). -/
  element : Bool := false
  /-- The lane has ended with CONT, TRAV or its team: nobody gets what the access returns (R146, R207). -/
  mute : Bool := false
  /-- Cell B of an EMRG, as its ESU brought it: the merge into cell A is still to come (R170). -/
  mate : Option (BitVec 128) := none
deriving DecidableEq, Repr

/-- A result that has not landed: values for registers from d upward (R203). -/
structure Land where
  id : Nat
  uid : Nat
  lane : Nat
  d : Nat
  vals : List (BitVec 32)
  /-- First cycle at which it may land. -/
  due : Nat := 0
  /-- Instruction that made it. -/
  pc : BitVec 32 := 0
  /-- SFU results keep their quadrant busy (R206). -/
  sfu : Bool := false
  /-- What a read of memory or scratchpad brought, which a fence waits for (R152). -/
  isRead : Bool := false
  /-- The cycle by which a read of memory lands whatever its clocks do (R12, R24), or 0. -/
  bound : Nat := 0
  /-- What a read at its home needs while its value is on the way (R17): the home, and the access's VA and cycle. -/
  src : Option (Nat × BitVec 72 × Nat) := none
deriving DecidableEq, Repr

/-! ## Translation and caches -/

/-- A TLB entry of a die (R102). -/
structure TlbEnt where
  die : Nat
  ctx : Nat
  /-- First 64 KiB page number of the range and log2 of its pages: 0, 5, 13 or 26 (R95, R101). -/
  vpn : Nat
  lg : Nat
  /-- The leaf as filled, its address, and the physical base of the range. -/
  leaf : BitVec 64
  leafPa : Nat
  pa : Nat
  /-- DIRTY has been set through this entry (R100). -/
  dirty : Bool
deriving DecidableEq, Repr

/-- A walk-cache entry: the table a non-leaf entry of this level names, for the pages whose number shifted right by
sh is key (R102). -/
structure WalkEnt where
  die : Nat
  ctx : Nat
  level : Nat
  key : Nat
  table : Nat
deriving DecidableEq, Repr

/-- An entry of a die's miss table with the waves that joined it (R102). -/
structure Miss where
  die : Nat
  ctx : Nat
  vpn : Nat
  uids : List Nat
deriving DecidableEq, Repr

/-- A read copy of a line, in the L1 of a core or, with core none, in the RDC of a die (R110). -/
structure Copy where
  die : Nat
  core : Option Nat
  line : Nat
  data : BitVec 1024
  /-- The count of writes when its data stood at the home: it shows no later write (R147; log 10). -/
  asOf : Nat
deriving DecidableEq, Repr

/-- Who makes an access or a synchronising operation: the lane, its wave, the team that it counts as (R149), and its die. -/
structure Who where
  me : Nat
  uid : Nat
  tid : Nat
  die : Nat
deriving DecidableEq, Repr

/-- A scope, as an operation of a lane gives it (R149); 7 stands for the lane itself. -/
structure Pub where
  scope : Nat
  who : Who
deriving DecidableEq, Repr

/-- What joins accesses of different agents besides the values they read and the order S (R153, R402). -/
inductive Sync where
  /-- The start of a grid's dealt lanes: LAUNCH, a WAIT that was satisfied, an ESTREQ batch. -/
  | start (gid : Nat)
  /-- The completion of a grid. -/
  | grid (gid : Nat)
  /-- A phase of barrier b of a team, or of the cluster barrier of a cluster. -/
  | bar (owner b : Nat) (phase : BitVec 32)
  /-- What a barrier has ordered before a lane, which its LAUNCH hands on (R72). -/
  | barred (me : Nat)
  | ticket (gid ordinal n : Nat)
  /-- Engine work that a lane starts after its XFENCE.to.trav; a packet whose KIND it has written since. -/
  | trav (me : Nat)
  | slot (pa : Nat)
  /-- The routines of a stack, and the stacks that were cut from it at the frame whose JOIN word is there (R189, R191, R397). -/
  | stack (id : Nat)
  | join (ctx va : Nat)
  /-- JOIN words of the stack that are used anew. -/
  | walk (id : Nat)
deriving DecidableEq, Repr

/-- What a write happens before (R150). -/
inductive Reach where
  /-- Every later access of a lane, or those but to host-window and device pages. -/
  | lane (me : Nat) (all : Bool)
  /-- Every later write of a lane. -/
  | writes (me : Nat) (all : Bool)
  /-- This access, which a lane has made. -/
  | made (a : Acc)
  /-- Every later access in S. -/
  | inS
  /-- The write of this number. -/
  | write (id : Nat)
  /-- What an operation of another agent that synchronises here orders after it. -/
  | sync (k : Sync)
  /-- No happens-before: a lane has observed the location at least as new as the write, on these bytes (R147). -/
  | here (me addr n : Nat)
deriving DecidableEq, Repr

/-- A write happens before what reach names, as seen by lanes that the scope of every link includes (R150, R400). -/
structure Fact where
  reach : Reach
  via : List Pub := []
deriving DecidableEq, Repr

/-- A write while some copy does not show it or an earlier one: its number, its place, the engine that made it, if one of those that XFENCE
names (0 COPY, 1 TRAV, 2 TIER, 3 ESU, 4 HOST), and what it happens before (R147, R150, R155; log 10). -/
structure Unshown where
  id : Nat
  /-- Scratchpad of this team, or none for memory. -/
  sp : Option Nat := none
  addr : Nat
  n : Nat
  eng : Option Nat := none
  facts : List Fact := []
deriving DecidableEq, Repr

/-- A locked line (R112). -/
structure Lock where
  ctx : Nat
  die : Nat
  line : Nat
deriving DecidableEq, Repr

/-- The header of the translation maintenance ring as last read: MWIDX, MSLOTSPA, MLOGSLOTS (R108). -/
structure ShootHdr where
  mwidx : Nat
  slots : Nat
  log : Nat
deriving DecidableEq, Repr

/-- A shootdown slot being served: its index and the accesses and engine work it waits for (R109). -/
structure Shootdown where
  idx : Nat
  accs : List Nat
deriving DecidableEq, Repr

/-- Who waits for the answer to a fault record (R56, R57). -/
inductive FaultWho where
  /-- The lanes of a wave, by mask. -/
  | lanes (uid : Nat) (mask : BitVec 32)
  /-- A dispatched packet (R43, R107). -/
  | packet (id : Nat)
  /-- A completion-bitmap OR of a grid (R53). -/
  | bitmap (gid : Nat)
  /-- A stack in an engine, by its identity: a node fetch, or a write-back (R192). -/
  | node (id : Nat)
  | writeback (id : Nat)
  /-- A stack object that an engine could not read to take it (R43). -/
  | take (id : Nat)
  /-- An append of an ESU (R171). -/
  | append (id : Nat)
deriving DecidableEq, Repr

/-- An outstanding fault record (R56). -/
structure FaultRec where
  ctx : Nat
  seq : BitVec 32
  cause : Nat
  kind : Nat
  va : BitVec 72
  die : Nat
  pc : BitVec 32
  who : FaultWho
  /-- Cycle at which the instruction that faulted was issued (R211). -/
  born : Nat := 0
deriving DecidableEq, Repr

/-! ## Core-wide units -/

/-- What the quadrants of a core share (R196, R226, R244). -/
structure CoreSt where
  codebook : Tab (BitVec 8) := []
  /-- Cycle at which the matrix unit is free again, and the MMA that occupies it (R365). -/
  mmaFree : Nat := 0
  mmaPc : BitVec 32 := 0
  mmaUid : Nat := 0
  mmaSlots : List Nat := []
  /-- An occupation has begun and its end has not been noted (MATRIX_UNIT_FREE). -/
  mmaBusy : Bool := false
  /-- Per quadrant: enter cycles and PCs of queued SFU instructions (R206). -/
  sfu : List (List (Nat × BitVec 32)) := [[], [], [], []]
  /-- Per quadrant: the first cycle at which it may issue again after an HADQ (R366). -/
  qfree : List Nat := [0, 0, 0, 0]
  /-- Last sampled wave slot and sample number (R244). -/
  sampleSlot : Option Nat := none
  sampleNo : BitVec 32 := 0
  /-- Die cycle of the last sample. -/
  sampledAt : Nat := 0
deriving DecidableEq, Repr

/-! ## Traversal engine -/

/-- A node as the engine fetched it at its push (R175, R177): the NLT of its table, its kind, the kind's entry, its
bytes. -/
structure NodeBuf where
  nlt : BitVec 72
  kind : Nat
  ent : BitVec 512
  bytes : List (BitVec 8)
deriving DecidableEq, Repr

/-- A frame of a stack (R179). -/
structure Frame where
  node : BitVec 64
  mask : BitVec 16
  cursor : BitVec 8 := 0xFF
  entered : Bool := false
  leavepend : Bool := false
  noleave : Bool := false
  tableroot : Bool := false
  table : Nat := 0
  state0 : BitVec 32 := 0
  state1 : BitVec 32 := 0
  /-- Its node, once fetched (R175). -/
  buf : Option NodeBuf := none
deriving DecidableEq, Repr

/-- What a live stack waits for (R184, R188, R191, R192). -/
inductive StackSt where
  /-- The next walk step may be taken. -/
  | step
  /-- This reference is being pushed, in this table, with TABLEROOT or not: its node is being fetched. -/
  | fetch (ref : BitVec 64) (tab : Nat) (root : Bool)
  /-- A routine invocation is outstanding: kind, and its child for prune. -/
  | routine (kind c : Nat)
  /-- The routine has returned this decision, with v1:v2, the query words of QW, and the level and state words of SW. -/
  | decided (kind c : Nat) (word : BitVec 32) (v1v2 : BitVec 64) (qw : Option (List (BitVec 32)))
      (sw : Option (Nat × BitVec 32 × BitVec 32))
  | join
  /-- Finishing with this RESULT, once every JOIN is 0 (R183). -/
  | finishing (result : Nat)
deriving DecidableEq, Repr

/-- A live stack of a traversal engine (R179 to R183). -/
structure Stack where
  /-- The identity of the request that brought it. -/
  id : Nat := 0
  handle : Nat
  die : Nat
  eng : Nat
  slot : Nat
  ctx : Nat
  gid : Nat
  va : BitVec 72
  q : List (BitVec 32)
  root : BitVec 64
  nlt : BitVec 72
  result : Nat := 0
  jlevel : Nat := 0xFF
  joinva : BitVec 72 := 0
  /-- Continuation held (R182), or none. -/
  cont : Option Nat := none
  /-- Packet that brought it (R43), or none. -/
  pkt : Option Nat := none
  visits : BitVec 32 := 0
  accepts : BitVec 32 := 0
  frames : List Frame := []
  st : StackSt := .step
  /-- Kept in memory while its context is disabled (R194). Its slot is free: where another stack has taken it meanwhile, the handle of
  this one is raised by 2^32 times an identity until the slot is free again (log 23). -/
  asleep : Bool := false
  /-- A fetch of a node or of an NLT faulted: STATUS is PARKED-FAULT until RETRY, which repeats it (R192). -/
  parked : Bool := false
  /-- A write-back, or an access to a JOIN word, faulted: the walk advances no further until RETRY (R192). -/
  wbFault : Bool := false
  /-- STATUS RUNNING, and CONTREF, are still to be written to the header in memory (R182, R375). -/
  hdrDue : Bool := false
  /-- 64-byte pieces of NLTs read and checked so far, by 2048 times the VA of the NLT plus their offset in it (R178). -/
  nlts : Tab (BitVec 512) := []
  /-- The first fault record about the stack (R55). -/
  firstFault : BitVec 32 := 0
deriving DecidableEq, Repr

/-- A stack that waits to be taken: a TRAV lane's, with its continuation, or a packet's (R182). -/
structure StackReq where
  id : Nat
  die : Nat
  eng : Nat
  ctx : Nat
  gid : Nat
  va : BitVec 72
  cont : Option Nat
  pkt : Option Nat
  /-- Fault record it waits for (R43). -/
  fault : Option (BitVec 32) := none
deriving DecidableEq, Repr

/-! ## Tier engine and ESUs -/

/-- A page request of a tier engine (R138). -/
structure TierReq where
  /-- Its place in the order of arrival. -/
  id : Nat
  die : Nat
  ctx : Nat
  /-- Page number, VA bits [71:16]. -/
  vpn : Nat
  /-- True: to near. -/
  fetch : Bool
  stall : Bool := false
  /-- A STALL request that waits for space in the queue. -/
  waiting : Bool := false
deriving DecidableEq, Repr

/-- A migration in progress (R136). -/
structure Migration where
  id : Nat
  die : Nat
  ctx : Nat
  vpn : Nat
  leafPa : Nat
  leaf : BitVec 64
  src : Nat
  dst : Nat
  fetch : Bool
deriving DecidableEq, Repr

/-- A near frame that holds a page (R134 to R137). -/
structure PoolPage where
  die : Nat
  frame : Nat
  back : Nat
  ctx : Nat
  vpn : Nat
  leafPa : Nat
  landedAt : Nat
  written : Bool := false
deriving DecidableEq, Repr

/-- A region descriptor held by an ESU (R163). -/
structure EsuDesc where
  die : Nat
  esu : Nat
  ctx : Nat
  rg : Nat
  desc : BitVec 512
deriving DecidableEq, Repr

/-- One occurrence of a logged point: what its record names (R256). -/
structure SsPoint where
  kind : Nat
  unit : Nat
  id : BitVec 32
  wave : BitVec 8
  lane : BitVec 8
  grid : BitVec 16
  n : BitVec 32
deriving DecidableEq, Repr

/-- Work that a logged point holds back, since this cycle, by 65536·die + 256·kind + unit (R257). -/
structure SsHeld where
  key : Nat
  since : Nat
  pt : SsPoint
deriving DecidableEq, Repr

/-- A request append that an ESU has not finished (R171). -/
structure Append where
  id : Nat
  die : Nat
  esu : Nat
  ctx : Nat
  hdr : BitVec 72
  bytes : BitVec 128
  /-- Slot index once claimed, and SLOTSVA and LOGSLOTS as the claim read them. -/
  slot : Option Nat := none
  ring : Nat × Nat := (0, 0)
  /-- RETRY: the header is read anew before the step that failed is repeated (R171). -/
  reread : Bool := false
  fault : Option (BitVec 32) := none
  /-- It waits for space, for memory that is not ready, or at its logged point. -/
  full : Bool := false
  /-- The point of its claim, less the slice (R174). -/
  pt : Option SsPoint := none
deriving DecidableEq, Repr

/-- A new generation that is not yet in force everywhere (R168). -/
structure GenPend where
  id : Nat
  ctx : Nat
  rg : Nat
  gen : BitVec 8
  uid : Nat
  lane : Nat
  /-- ESUs that cache the descriptor and have not taken the new generation: die and slice. -/
  left : List (Nat × Nat)
deriving DecidableEq, Repr

/-! ## Debug, Scoresheet and energy -/

/-- SSSTATUS (R242). -/
inductive SsStatus where | idle | recording | replaying | refused | diverged | ended
deriving DecidableEq, Repr

/-- Debug control block, Scoresheet and pending DUMP (R242 to R257). -/
structure Debug where
  /-- The 512 bytes as last read. -/
  blk : BitVec 4096 := 0
  /-- A DUMP in progress: command slot, context, where its bytes go (R250). -/
  dump : Option (Nat × Nat × Nat) := none
  /-- The SSMODE last applied (R255): a mode starts only after OFF. -/
  ssMode : Nat := 0
  ssStatus : SsStatus := .idle
  /-- Logged grids counted so far (R256). -/
  ssGrids : Nat := 0
  /-- Records on chip per die, oldest first (R255). -/
  ssChip : List (List (BitVec 128)) := [[], [], [], []]
  /-- Counts of each point, by 65536·die + 256·kind + unit (R256 CHECK). -/
  ssCount : Tab Nat := []
  /-- Dies whose replay log has reached its END record (R257). -/
  ssEnd : List Nat := []
  /-- Replay records read from the ring and not yet used, per die. -/
  ssLog : List (List (BitVec 128)) := [[], [], [], []]
  /-- The work that points hold without a match (R257). -/
  ssHeld : List SsHeld := []
  /-- Activity per die and context, index 256·die + context (R254). -/
  activity : Tab Nat := []
  /-- Cycle of the last energy interval of each die (R254). -/
  energyAt : List Nat := [0, 0, 0, 0]
deriving DecidableEq, Repr

/-! ## The machine -/

/-- What tells one occurrence of a device step from another: the numbers and values the outside world or the schedule
supplies with it. Each step's meaning says which it reads. -/
structure Occ where
  n : Nat := 0
  m : Nat := 0
  k : Nat := 0
  j : Nat := 0
  x : Nat := 0
  y : Nat := 0
deriving DecidableEq, Repr

/-- What the outside world does that no step of its own names. -/
inductive Outside where
  /-- The domain forms: the driver assigns this device its ID and names the members, with the devices each switch reaches
  (R9, R17). -/
  | domain (id : BitVec 10) (members : List Nat) (switches : Tab (List Nat))
  /-- The host selects the size of BAR2, as its log2 (R27). -/
  | window (log : Nat)
  /-- The host writes its own memory, at a physical address of the host window (R97, R144). -/
  | hostMem (pa : Nat) (bytes : List (BitVec 8))
deriving DecidableEq, Repr

/-- One entry of the agenda: let this many cycles pass, then make this step, let this wave issue, or let the outside world
act (log 7). -/
inductive Move where
  | event (wait : Nat) (i : Sys2Proof.Instr) (o : Occ)
  | issue (wait : Nat) (uid : Nat)
  | outside (wait : Nat) (x : Outside)
deriving DecidableEq, Repr

/-- The whole device, with the memory of its load-store domain. -/
structure State where
  pkg : Pkg
  host : HostRegs
  /-- Contexts 0 to 255; unlisted ones are as at reset. -/
  ctxs : Tab Ctx
  /-- Queues 0 to 4095; unlisted ones are as at reset. -/
  queues : Tab Queue
  /-- The queue each monitor served last, by 64·die + monitor (R59). -/
  lastServed : Tab Nat
  /-- The queue whose grid was dealt from last, by 64·die + monitor (R59, R60). -/
  lastDealt : Tab Nat
  outs : List OutPkt
  /-- The team whose lane last wrote the KIND byte of a slot of a COPY queue, by the byte's address (R42). -/
  pushers : Tab Nat
  ringWaits : List RingWait
  grids : List Grid
  teams : List Team
  waves : List Wave
  accs : List Acc
  lands : List Land
  /-- Bytes at domain physical addresses, in canonical form. -/
  mem : List Host.Cell
  tlb : List TlbEnt
  walks : List WalkEnt
  misses : List Miss
  copies : List Copy
  /-- Writes while some copy does not show them or an earlier one, and the count of writes (R147, R150; log 10). -/
  wrote : List Unshown
  writes : Nat
  /-- Lines that an access has brought into the L2 of their home (R15, R110; log 6). -/
  l2 : List Nat
  locks : List Lock
  /-- The header of the translation maintenance ring as the device keeps it (R108). -/
  shootHdr : Option ShootHdr
  shoot : Option Shootdown
  faults : List FaultRec
  /-- Cores by 48·die + core. -/
  cores : Tab CoreSt
  caddy : List CaddyRec
  invs : List Invocation
  forms : List CaddyForm
  stks : List Stack
  stackReqs : List StackReq
  tierq : List TierReq
  migs : List Migration
  pages : List PoolPage
  badFrames : List Nat
  esuDescs : List EsuDesc
  appends : List Append
  gens : List GenPend
  dbg : Debug
  /-- Main-clock cycles since reset (R5). -/
  cycle : Nat
  /-- The occurrence of the step that comes about now. -/
  occ : Occ
  /-- The word that issues now (R266), and the wave that issues it. -/
  ir : BitVec 32
  cur : Option Nat
  /-- Quadrants that have issued in this cycle, by 4·(48·die + core) + quadrant (R81). -/
  issued : List Nat
  /-- Waves whose minimum-PC set was found not ready in this cycle (R198). -/
  tried : List Nat
  /-- What the outside world and the schedule still bring (log 7). -/
  agenda : List Move
  /-- Next fresh identity, and next free value (log 11). -/
  fresh : Nat
  freeCtr : Nat
deriving DecidableEq, Repr

/-- A DSV7-4M with every unit (R1, R2), the straps of State.reset (log 5). -/
def Straps.m4 : Straps :=
  { part := .m4, step := 1, sample := true, c2dec := true, topk := true, scoresheet := true, link := true,
    groups := 0xFF, channelGib := 16, moduleW := 1950 }

/-- The module limit in W (R22). -/
def Straps.limitW (p : Straps) : Nat :=
  match p.part with
  | .m4 => 1950
  | .m2 => 1000
  | .p4 => p.moduleW

/-- The device right after a reset with these straps, over this memory (R2, R16, R19, R22, R27, R30, R32). -/
def State.resetWith (pins : Straps) (mem : List Host.Cell) : State :=
  { pkg := { pins := pins, straps := pins }
    host := { powercap := BitVec.ofNat 12 pins.limitW }
    ctxs := [], queues := [], lastServed := [], lastDealt := [], outs := [], pushers := [], ringWaits := [], grids := [], teams := [], waves := []
    accs := [], lands := [], mem := mem, tlb := [], walks := [], misses := [], copies := [], wrote := [], writes := 0, l2 := [], locks := []
    shootHdr := none, shoot := none, faults := [], cores := [], caddy := [], invs := [], forms := [], stks := [], stackReqs := []
    tierq := [], migs := [], pages := [], badFrames := [], esuDescs := [], appends := [], gens := []
    dbg := {}, cycle := 0, occ := {}, ir := 0, cur := none, issued := [], tried := [], agenda := [], fresh := 1, freeCtr := 0 }

/-- The machine right after reset: nothing in memory, nothing ready, no context enabled. -/
def State.reset : State := State.resetWith Straps.m4 []

end Sys2Proof.Machine
end

