-- ==== Sys2Proof/Machine/Base.lean ====
section
/-!
DEFINITION. Tables by number, byte lists (little-endian, R5) and memory in its canonical form.
-/

namespace Sys2Proof.Machine

/-! ## Tables -/

/-- The value a table gives a number. -/
def Tab.find {α : Type} : Tab α → Nat → Option α
  | [], _ => none
  | (j, v) :: r, k => if j = k then some v else Tab.find r k

/-- Give a number a value, keeping the numbers in rising order. -/
def Tab.put {α : Type} : Tab α → Nat → α → Tab α
  | [], k, v => [(k, v)]
  | (j, w) :: r, k, v => if k < j then (k, v) :: (j, w) :: r else if k = j then (k, v) :: r else (j, w) :: Tab.put r k v

/-- Drop a number. -/
def Tab.drop {α : Type} : Tab α → Nat → Tab α
  | [], _ => []
  | (j, w) :: r, k => if j = k then r else (j, w) :: Tab.drop r k

/-- Numbers strictly rising from a bound. -/
def Tab.risingFrom {α : Type} : Tab α → Nat → Bool
  | [], _ => true
  | (j, _) :: r, lo => decide (lo ≤ j) && Tab.risingFrom r (j + 1)

/-- A table of bytes that lists no zero: the byte of a number, 0 when unlisted. -/
def byteAt (t : Tab Byte) (k : Nat) : Byte := (Tab.find t k).getD 0

/-- Write one byte, keeping zeros unlisted. -/
def putByte (t : Tab Byte) (k : Nat) (v : Byte) : Tab Byte := if v = 0 then Tab.drop t k else Tab.put t k v

/-- The canonical form: numbers strictly rising, no byte equal to what an unlisted one reads as. -/
def bytesWf (t : Tab Byte) : Bool := Tab.risingFrom t 0 && t.all (fun c => c.2 != 0)

/-- Bytes from k upward. -/
def bytesAt (t : Tab Byte) (k : Nat) : Nat → List Byte
  | 0 => []
  | n + 1 => byteAt t k :: bytesAt t (k + 1) n

/-- Write bytes from k upward. -/
def putBytes (t : Tab Byte) (k : Nat) : List Byte → Tab Byte
  | [] => t
  | b :: bs => putBytes (putByte t k b) (k + 1) bs

/-! ## Bytes and numbers, little-endian (R5) -/

/-- The number a list of bytes stands for, lowest byte first. -/
def leNat : List Byte → Nat
  | [] => 0
  | b :: bs => b.toNat + 256 * leNat bs

/-- The n low bytes of a number, lowest first. -/
def leBytes : Nat → Nat → List Byte
  | 0, _ => []
  | n + 1, v => BitVec.ofNat 8 v :: leBytes n (v / 256)

/-- Field of len bytes at byte offset off of a record. -/
def fieldAt {w : Nat} (x : BitVec w) (off len : Nat) : Nat := x.toNat / 2 ^ (8 * off) % 2 ^ (8 * len)

/-- A record from fields: offset, length, value. -/
def record (w : Nat) : List (Nat × Nat × Nat) → BitVec w
  | [] => 0
  | (off, len, v) :: r => BitVec.ofNat w (v % 2 ^ (8 * len) * 2 ^ (8 * off)) ||| record w r

/-- The bytes of a record. -/
def recordBytes {w : Nat} (x : BitVec w) : List Byte := leBytes (w / 8) x.toNat

/-- Round up to a multiple. -/
def ceilDiv (a b : Nat) : Nat := (a + b - 1) / b

/-! ## Memory (R144): bytes at domain physical addresses; what an unlisted address reads as is 0 (log 1) -/

/-- Memory in canonical form. -/
def Memory.wf (m : List Host.Cell) : Bool := bytesWf m

/-- One byte of memory. -/
def memByte (m : List Host.Cell) (a : Nat) : Byte := byteAt m a

/-- The cells of a range. -/
def memWin (m : List Host.Cell) (a n : Nat) : List Host.Cell := m.filter (fun c => decide (a ≤ c.1) && decide (c.1 < a + n))

/-- n bytes of memory. -/
def memBytes (m : List Host.Cell) (a n : Nat) : List Byte := bytesAt (memWin m a n) a n

/-- n bytes of memory as a number. -/
def memNat (m : List Host.Cell) (a n : Nat) : Nat := leNat (memBytes m a n)

/-- Write bytes to memory. -/
def memPut (m : List Host.Cell) (a : Nat) (bs : List Byte) : List Host.Cell := putBytes m a bs

/-! ## Lists -/

/-- Change entry i of a list. -/
def listUpd {α : Type} : List α → Nat → (α → α) → List α
  | [], _, _ => []
  | x :: xs, 0, f => f x :: xs
  | x :: xs, i + 1, f => x :: listUpd xs i f

/-- The numbers below n whose bit is set in a mask. -/
def maskLanes (m : BitVec 32) : List Nat := (List.range 32).filter (fun i => m.getLsbD i)

/-- The mask of a list of lanes. -/
def lanesMask : List Nat → BitVec 32
  | [] => 0
  | i :: r => (1#32 <<< i) ||| lanesMask r

/-- The least element by a key, the first among equals. -/
def minBy {α : Type} (key : α → Nat) : List α → Option α
  | [] => none
  | x :: xs =>
    match minBy key xs with
    | none => some x
    | some y => if key x ≤ key y then some x else some y

end Sys2Proof.Machine
end

