-- ==== Sys2Proof/Machine/Access.lean ====
section
/-!
DEFINITION. Reading and updating parts of the state by name; what the part holds (R2, R6, R7, R97); readiness (R19,
R20); device time (R5, R217); fresh identities and free values.
-/

namespace Sys2Proof.Machine

/-! ## Tables of the state -/

def State.ctx (s : State) (c : Nat) : Ctx := (Tab.find s.ctxs c).getD {}
/-- HALTCTX holds the context: a lane that it halted is still halted (R249). -/
def State.placeHeld (s : State) (c : Nat) : Bool :=
  (s.ctx c).haltHold && s.waves.any (fun w => (match s.teams.find? (fun t => t.tid == w.tid) with | some t => t.ctx == c | none => false) &&
    w.lanes.any (fun l => l.st == .halted && l.trapinfo.getD 4 0 == 0xFE))
def State.updCtx (s : State) (c : Nat) (f : Ctx → Ctx) : State := { s with ctxs := Tab.put s.ctxs c (f (s.ctx c)) }
def State.queue (s : State) (q : Nat) : Queue := (Tab.find s.queues q).getD {}
def State.updQueue (s : State) (q : Nat) (f : Queue → Queue) : State :=
  { s with queues := Tab.put s.queues q (f (s.queue q)) }
def State.core (s : State) (k : Nat) : CoreSt := (Tab.find s.cores k).getD {}
def State.updCore (s : State) (k : Nat) (f : CoreSt → CoreSt) : State :=
  { s with cores := Tab.put s.cores k (f (s.core k)) }

def State.wave? (s : State) (uid : Nat) : Option Wave := s.waves.find? (fun w => w.uid == uid)
def State.updWave (s : State) (uid : Nat) (f : Wave → Wave) : State :=
  { s with waves := s.waves.map (fun w => if w.uid == uid then f w else w) }
def State.team? (s : State) (tid : Nat) : Option Team := s.teams.find? (fun t => t.tid == tid)
def State.updTeam (s : State) (tid : Nat) (f : Team → Team) : State :=
  { s with teams := s.teams.map (fun t => if t.tid == tid then f t else t) }
def State.grid? (s : State) (gid : Nat) : Option Grid := s.grids.find? (fun g => g.gid == gid)
def State.updGrid (s : State) (gid : Nat) (f : Grid → Grid) : State :=
  { s with grids := s.grids.map (fun g => if g.gid == gid then f g else g) }
def State.out? (s : State) (id : Nat) : Option OutPkt := s.outs.find? (fun o => o.id == id)
def State.updOut (s : State) (id : Nat) (f : OutPkt → OutPkt) : State :=
  { s with outs := s.outs.map (fun o => if o.id == id then f o else o) }
def State.stk? (s : State) (h : Nat) : Option Stack := s.stks.find? (fun k => k.handle == h)
def State.updStk (s : State) (h : Nat) (f : Stack → Stack) : State :=
  { s with stks := s.stks.map (fun k => if k.handle == h then f k else k) }
/-- The stack of this identity, while it has not ended: a later one may hold its handle (R190, R192). -/
def State.stkOf (s : State) (id : Nat) : Option Stack := s.stks.find? (fun k => k.id == id)
def State.updStkOf (s : State) (id : Nat) (f : Stack → Stack) : State := { s with stks := s.stks.map (fun k => if k.id == id then f k else k) }

/-- Update one lane of a wave. -/
def Wave.updLane (w : Wave) (L : Nat) (f : Lane → Lane) : Wave := { w with lanes := listUpd w.lanes L f }
def State.updLane (s : State) (uid L : Nat) (f : Lane → Lane) : State := s.updWave uid (fun w => w.updLane L f)
/-- Lane L of a wave. -/
def Wave.lane (w : Wave) (L : Nat) : Lane := w.lanes.getD L {}

/-- A fresh identity. -/
def State.next (s : State) : State := { s with fresh := s.fresh + 1 }
/-- The next free value, and the state that has used it (log 11). -/
def State.free (s : State) : BitVec 64 × State := (Config.freeWord s.freeCtr, { s with freeCtr := s.freeCtr + 1 })

/-! ## The part (R1, R2, R6, R7) -/

def Part.dies : Part → Nat
  | .m4 => 4
  | .p4 => 4
  | .m2 => 2
/-- Compute dies of the part. -/
def State.dies (s : State) : Nat := s.pkg.straps.part.dies
/-- Channel groups fitted (R7). -/
def State.groups (s : State) : BitVec 8 :=
  match s.pkg.straps.part with
  | .m4 => 0xFF
  | .m2 => 0x0F
  | .p4 => s.pkg.straps.groups
/-- Bytes of a fitted channel group (R7, R97). -/
def State.groupBytes (s : State) : Nat :=
  match s.pkg.straps.part with
  | .p4 => 8 * s.pkg.straps.channelGib * 2 ^ 30
  | _ => 2 ^ 37
/-- Svetcy Link ports fitted (R2). -/
def State.linkPorts (s : State) : Nat :=
  if s.pkg.straps.link then (match s.pkg.straps.part with | .m2 => 9 | _ => 18) else 0

def b2n (b : Bool) : Nat := if b then 1 else 0

/-- FEATURES (R2). -/
def State.features (s : State) : Word :=
  let p := s.pkg.straps
  BitVec.ofNat 32 (b2n p.sample + 2 * b2n p.c2dec + 4 * b2n p.topk + 8 * b2n p.scoresheet +
    16 * b2n (s.groups != 0) + 32 * b2n p.link + 256 * s.dies + 4096 * s.linkPorts)

/-- A unit is present, by its FEATURES bit (R2, R4). -/
def State.hasUnit (s : State) (bit : Nat) : Bool := s.features.getLsbD bit

/-- IDENT (R25). -/
def State.ident (s : State) : BitVec 64 :=
  let part := match s.pkg.straps.part with | .m4 => 0x0D74 | .p4 => 0x0D75 | .m2 => 0x0D72
  BitVec.ofNat 64 (part * 256 + s.pkg.straps.step.toNat)

/-! ## Time (R5, R217) -/

/-- Device time in ns since reset: 2.7 cycles to the ns. -/
def State.time (s : State) : Nat := s.cycle * 10 / 27
/-- Cycle count of a die since reset. -/
def State.dieCycle (s : State) (d : Nat) : Nat := (s.pkg.clks.getD d {}).cycles
/-- Cycles of the main clock in a number of microseconds. -/
def usCycles (us : Nat) : Nat := us * 2700
/-- The clock of a die in MHz (R23). -/
def State.mhz (s : State) (d : Nat) : Nat := max 1 (s.pkg.clks.getD d {}).mhz.toNat
/-- Cycles of the main clock that n cycles of a die take: a die below 2.7 GHz takes proportionally more (R24). -/
def State.slow (s : State) (d n : Nat) : Nat := ceilDiv (n * 2700) (s.mhz d)
/-- The cycle of the main clock that comes n cycles of a die from now. -/
def State.after (s : State) (d n : Nat) : Nat := s.cycle + s.slow d n
/-- Cycles of a die that have passed since a cycle of the main clock. -/
def State.since (s : State) (d c : Nat) : Nat := (s.cycle - c) * s.mhz d / 2700

/-! ## Domain physical addresses (R97) -/

def paDev (pa : Nat) : Nat := pa / 2 ^ 50 % 1024
/-- 0 near, 1 far, 2 MMIO, 3 host window. -/
def paKind (pa : Nat) : Nat := pa / 2 ^ 48 % 4
def paOff (pa : Nat) : Nat := pa % 2 ^ 48
/-- The die of this package at which a near or far address is at home. -/
def paDie (pa : Nat) : Nat := if paKind pa == 0 then paOff pa / 2 ^ 36 else paOff pa / 2 ^ 37 / 2
def fold6 : Nat → Nat → Nat
  | 0, _ => 0
  | n + 1, x => x % 64 ^^^ fold6 n (x / 64)
/-- Home slice of a line (R110). -/
def paSlice (pa : Nat) : Nat := fold6 7 (paOff pa / 128)
/-- The device is this one. -/
def State.isLocal (s : State) (pa : Nat) : Bool := paDev pa == s.pkg.deviceId.toNat
/-- The device is a present member of the domain (R9, R4). -/
def State.present (s : State) (pa : Nat) : Bool :=
  s.isLocal pa || (s.pkg.straps.link && s.pkg.members.contains (paDev pa))
/-- n bytes at an address lie within what the die, the group or the window holds (R97). -/
def State.holds (s : State) (pa n : Nat) : Bool :=
  let o := paOff pa
  match paKind pa with
  | 0 => decide (o / 2 ^ 36 < s.dies) && decide (o % 2 ^ 36 + n ≤ 48 * 2 ^ 30)
  | 1 => decide (o / 2 ^ 37 < 8) && s.groups.getLsbD (o / 2 ^ 37) && decide (o % 2 ^ 37 + n ≤ s.groupBytes)
  | 2 => decide (o + n ≤ 2 ^ 26)
  | _ => true
/-- A port that carries traffic (R16, R17). -/
def Port.isUp (p : Port) : Bool := p.state == .up || p.state == .degraded
/-- A port reaches a device: the one that it attaches to directly, or those of its switch (R16, R17). -/
def Port.reaches (switches : Tab (List Nat)) (p : Port) (dev : Nat) : Bool :=
  p.isUp && (if p.peerdev = 0x3FF then (match Tab.find switches p.switch with | some ds => ds.contains dev | none => true) else p.peerdev.toNat == dev)
/-- A path to the address remains: the package itself, or a port that reaches its device (R17). -/
def State.reachable (s : State) (pa : Nat) : Bool := s.isLocal pa || s.pkg.ports.any (fun p => p.reaches s.pkg.switches (paDev pa))

/-- The port that the machine-check event of a lost link names where no port has just gone down: the lowest that is not up, or
port 0. R17 says only that the event names the port: the choice is the model's (log 122). -/
def State.downPort (s : State) : Nat := ((List.range 18).find? (fun p => !(s.pkg.ports.getD p {}).isUp)).getD 0
/-- Readiness bits (R19). -/
def State.rdy (s : State) (bit : Nat) : Bool := s.pkg.ready1.getLsbD bit
def State.barwin (s : State) : Bool := s.rdy 1
def State.nearRdy (s : State) (d : Nat) : Bool := s.rdy (2 + d)
def State.groupRdy (s : State) (g : Nat) : Bool := s.rdy (6 + g)
def State.l2Rdy (s : State) (d : Nat) : Bool := s.rdy (14 + d)
def State.qmonRdy (s : State) (d : Nat) : Bool := s.rdy (18 + d)
def State.clusterRdy (s : State) (d c : Nat) : Bool := s.pkg.ready0.getLsbD (12 * d + c)
/-- The DRAM behind a near or far address of this device has reported ready (R20). -/
def State.dramRdy (s : State) (pa : Nat) : Bool :=
  match paKind pa with
  | 0 => s.nearRdy (paOff pa / 2 ^ 36)
  | 1 => s.groupRdy (paOff pa / 2 ^ 37)
  | _ => true
/-- Memory is ready for an access from die d (none: the host or a whole-device unit). A cached access also needs the
L2 of its home die and the RDC of the die it comes from (R20). -/
def State.memRdy (s : State) (d : Option Nat) (cached : Bool) (pa : Nat) : Bool :=
  if decide (2 ≤ paKind pa) then true
  else
    (!s.isLocal pa || (s.dramRdy pa && (!cached || s.l2Rdy (paDie pa)))) &&
      (match d with
       | none => true
       | some d => !cached || (s.isLocal pa && paDie pa == d) || s.l2Rdy d)

/-- A number read from memory at a domain physical address. -/
def State.rd (s : State) (pa n : Nat) : Nat := memNat s.mem pa n
/-- A copy of a line meets n bytes at an address. -/
def Copy.meets (c : Copy) (pa n : Nat) : Bool := decide (pa < 128 * c.line + 128) && decide (128 * c.line < pa + n)
/-- Some copy does not show the write. -/
def Unshown.hidden (w : Unshown) (copies : List Copy) : Bool := w.sp.isNone && copies.any (fun c => decide (c.asOf ≤ w.id) && c.meets w.addr w.n)
/-- A write to n bytes takes its number. It is kept while some copy does not show it, or one before it: an order that leads from an earlier
write may lead through this one (R147, R150; log 10). -/
def State.noteWrite (s : State) (sp : Option Nat) (addr n : Nat) : State :=
  let old := if s.wrote.any (fun w => w.hidden s.copies) then s.wrote else []
  let w : Unshown := { id := s.writes, sp, addr, n }
  { s with wrote := if old.isEmpty && !w.hidden s.copies then [] else old ++ [w], writes := s.writes + 1 }
/-- Write bytes to memory: a frame of a pool that holds a page is then no longer clean (R136), and copies do not show the write (R147; log
10). -/
def State.wrBytes (s : State) (pa : Nat) (bs : List Byte) : State :=
  { s.noteWrite none pa bs.length with
    mem := memPut s.mem pa bs
    pages := s.pages.map (fun p => if decide (pa < p.frame + 65536) && decide (p.frame < pa + bs.length) then { p with written := true } else p) }
/-- Write a number to memory. -/
def State.wr (s : State) (pa n v : Nat) : State := s.wrBytes pa (leBytes n v)
/-- CTXTAB in effect: bits [15:0] are ignored (R25). -/
def State.tabPa (s : State) : Nat := s.host.ctxtab.toNat % 2 ^ 60 / 65536 * 65536
/-- A unit of the device can read and write these bytes: they exist and answer. -/
def State.devOk (s : State) (pa n : Nat) : Bool :=
  s.present pa && s.holds pa n && paKind pa != 2 && s.reachable pa && s.memRdy none true pa

/-! ## Activity (R254) -/

/-- Activity of a context on a die, in units of 1/32: 32 for an issue, 1 for a byte moved (R254). -/
def State.addActivity (s : State) (die c n : Nat) : State :=
  let k := 256 * die + c
  { s with dbg := { s.dbg with activity := Tab.put s.dbg.activity k (((Tab.find s.dbg.activity k).getD 0) + n) } }
/-- Bytes moved for a context at a home on a die of this device (R254; log 130). -/
def State.movedBytes (s : State) (c pa n : Nat) : State := if s.isLocal pa && paKind pa ≤ 1 then s.addActivity (paDie pa) c n else s

/-! ## Descriptors of contexts (R29) and cards (R39) -/

/-- Field of the kept descriptor. -/
def Ctx.d (c : Ctx) (off len : Nat) : Nat := fieldAt c.desc off len
def Ctx.handler (c : Ctx) : Nat := c.d 4 4
def Ctx.codeva (c : Ctx) : Nat := c.d 8 9
def Ctx.hstackva (c : Ctx) : Nat := c.d 17 9
def Ctx.codewords (c : Ctx) : Nat := if c.d 26 4 = 0 then 2 ^ 32 else c.d 26 4
def Ctx.cntva (c : Ctx) : Nat := c.d 32 9
def Ctx.cntcount (c : Ctx) : Nat := c.d 41 3
def Ctx.lockquota (c : Ctx) : Nat := c.d 44 4
def Ctx.evring (c : Ctx) : Nat := c.d 48 9
def Ctx.flring (c : Ctx) : Nat := c.d 57 9
def Ctx.spillva (c : Ctx) : Nat := c.d 66 9
def Ctx.spilllen (c : Ctx) : Nat := c.d 75 5
def Ctx.ertva (c : Ctx) : Nat := c.d 80 9
def Ctx.ertcount (c : Ctx) : Nat := c.d 89 2
def Ctx.ttva (c : Ctx) : Nat := c.d 91 9
/-- Timetable table entries: 0 stands for 65,536 when TTVA is not 0 (R29). -/
def Ctx.ttcount (c : Ctx) : Nat := if c.d 100 2 = 0 && c.ttva != 0 then 65536 else c.d 100 2
def Ctx.top (c : Ctx) (i : Nat) : Nat := c.d (256 + 8 * i) 8

/-- Field of a card. -/
def Grid.f (g : Grid) (off len : Nat) : Nat := fieldAt g.card off len
def Grid.isJob (g : Grid) : Bool := g.f 0 1 == 1
def Grid.flag (g : Grid) (i : Nat) : Bool := (g.f 1 1).testBit i
def Grid.ordered (g : Grid) : Bool := g.flag 0
def Grid.idempotent (g : Grid) : Bool := g.flag 1
def Grid.logged (g : Grid) : Bool := g.flag 2
def Grid.clustered (g : Grid) : Bool := g.flag 3
def Grid.csize (g : Grid) : Nat := if g.clustered then max 1 (g.f 27 1) else 1
def Grid.regs (g : Grid) : Nat := g.f 28 2
/-- Scratchpad allocation: SCRATCHKIB rounded up to 4 KiB (R114). -/
def allocOf (kib : Nat) : Nat := ceilDiv kib 4 * 4096
def Grid.alloc (g : Grid) : Nat := allocOf (g.f 30 2)
def Grid.slots (g : Grid) : Nat := g.f 32 1
def Grid.dimX (g : Grid) : Nat := g.f 20 2
def Grid.dimY (g : Grid) : Nat := g.f 22 2
def Grid.dimZ (g : Grid) : Nat := g.f 24 2
/-- Teams of a GRID. -/
def Grid.total (g : Grid) : Nat := g.dimX * g.dimY * g.dimZ

/-! ## Waves and lanes -/

/-- The handler runs in this wave (R209). -/
def Wave.handling (w : Wave) : Bool := w.handlerB15.isSome
/-- The lane may issue: eligible, and a handler lane while the handler runs (R197, R209). -/
def Wave.laneOn (w : Wave) (l : Lane) : Bool := l.st == .run && (!w.handling || l.inHandler)
def Wave.eligible (w : Wave) : List Nat := (List.range w.lanes.length).filter (fun L => w.laneOn (w.lane L))
def minNat : List Nat → Nat
  | [] => 0
  | [a] => a
  | a :: r => min a (minNat r)
/-- The lowest lpc of the eligible lanes. -/
def Wave.minPc (w : Wave) : Nat := minNat (w.eligible.map (fun L => (w.lane L).pc.toNat))
/-- The minimum-PC set (R198). -/
def Wave.minSet (w : Wave) : List Nat := w.eligible.filter (fun L => (w.lane L).pc.toNat == w.minPc)

/-- Index of a core: 48 · die + core. -/
def coreIx (d c : Nat) : Nat := 48 * d + c
def State.teamOf (s : State) (w : Wave) : Team := (s.team? w.tid).getD { tid := w.tid, gid := 0, ctx := 0 }
def State.gridOf (s : State) (t : Team) : Grid :=
  (s.grid? t.gid).getD { gid := t.gid, ctx := t.ctx, card := 0, src := .packet 0 0 }
/-- The team's lanes issue: it is on its core and not leaving it by a save or a flush (R86, R87, R91). -/
def Team.active (t : Team) : Bool := t.st == .resident || t.st == .draining
/-- A team, or a wave, whose lanes issue. -/
def State.activeTeam? (s : State) (tid : Nat) : Option Team := (s.team? tid).filter Team.active
def State.activeWave? (s : State) (uid : Nat) : Option Wave := (s.wave? uid).filter (fun w => (s.teamOf w).active)
/-- Waves of a team. -/
def State.wavesOf (s : State) (tid : Nat) : List Wave := s.waves.filter (fun w => w.tid == tid)
/-- The team holds its core: it is not saved and not retired (R66). -/
def Team.onCore (t : Team) : Bool := t.st != .saved && t.st != .retired

/-- A lane that has not exited. -/
def Lane.live (l : Lane) : Bool := l.st != .exited
/-- Exited or parked by a trap: it keeps no team that has faulted (R214). -/
def Lane.gone (l : Lane) : Bool := l.st == .exited || l.st == .trapped
/-- Register n of a lane. -/
def Lane.reg (l : Lane) (n : Nat) : Reg := l.regs.getD n {}
def Lane.v (l : Lane) (n : Nat) : Word := (l.reg n).val
/-- Predicate n; p0 reads true (R202). -/
def Lane.p (l : Lane) (n : Nat) : Bool := n == 0 || l.preds.getLsbD n
/-- Write a register: the value, and full. -/
def Lane.set (l : Lane) (n : Nat) (x : Word) : Lane :=
  { l with regs := listUpd l.regs n (fun r => { r with val := x, full := true, fault := false }) }
/-- Write registers from n upward. -/
def Lane.setFrom (l : Lane) (n : Nat) : List Word → Lane
  | [] => l
  | x :: xs => Lane.setFrom (l.set n x) (n + 1) xs
/-- Write a predicate; p0 ignores writes (R202). -/
def Lane.setP (l : Lane) (n : Nat) (b : Bool) : Lane :=
  if n = 0 then l
  else
    let bit : BitVec 128 := 1#128 <<< n
    { l with preds := if b then l.preds ||| bit else l.preds &&& ~~~bit }
/-- A register pair, low word first. -/
def Lane.pair (l : Lane) (n : Nat) : BitVec 64 := l.v (n + 1) ++ l.v n
/-- Mark registers from n upward empty, with the producer's tag (R203). -/
def Lane.mark (l : Lane) (pc : Word) (n : Nat) : Nat → Lane
  | 0 => l
  | k + 1 =>
    Lane.mark { l with regs := listUpd l.regs n (fun r => { r with full := false, fault := false, tag := pc }) } pc (n + 1) k
/-- Set the fault bit of registers from n upward (R203). -/
def Lane.markFault (l : Lane) (n : Nat) : Nat → Lane
  | 0 => l
  | k + 1 => Lane.markFault { l with regs := listUpd l.regs n (fun r => { r with fault := true }) } (n + 1) k
/-- The lane executes at the next word, its hints used (R198, R199). -/
def Lane.adv (l : Lane) : Lane :=
  { l with pc := l.pc + 1, stepped := l.stepping, hints := [], replay := none, claim := none, fill := none, begun := false, wake := none }
/-- The lane goes to a target (R198). -/
def Lane.goto (l : Lane) (t : Word) : Lane :=
  { l with pc := t, stepped := l.stepping, hints := [], replay := none, claim := none, fill := none, begun := false, wake := none }
/-- Word j of registers from n upward, as a number of k words (R5). -/
def Lane.words (l : Lane) (n : Nat) : Nat → Nat
  | 0 => 0
  | k + 1 => (l.v n).toNat + 2 ^ 32 * Lane.words l (n + 1) k
/-- k words of a number, lowest first. -/
def wordsOf : Nat → Nat → List Word
  | 0, _ => []
  | k + 1, x => BitVec.ofNat 32 x :: wordsOf k (x / 2 ^ 32)

/-- LANELOC (R241). -/
def State.laneLoc (s : State) (t : Team) (slot lane : Nat) (pc : Word) : Nat :=
  pc.toNat * 2 ^ 32 + s.pkg.deviceId.toNat * 2 ^ 19 + t.die % 4 * 2 ^ 17 + t.core % 64 * 2 ^ 11 + slot % 64 * 2 ^ 5 + lane % 32

end Sys2Proof.Machine
end

