-- ==== Sys2Proof/Machine/Trans.lean ====
section
/-!
DEFINITION. Translation of virtual addresses (R92, R95 to R103), what a page allows (R98, R99), and the accesses that
engines and other units make in a context (R107, R118).
-/

namespace Sys2Proof.Machine

/-! ## Page-table entries (R96) -/

abbrev Pte := BitVec 64
def Pte.valid (e : Pte) : Bool := e.getLsbD 0
def Pte.leaf (e : Pte) : Bool := e.getLsbD 1
def Pte.write (e : Pte) : Bool := e.getLsbD 2
def Pte.exec (e : Pte) : Bool := e.getLsbD 3
def Pte.type (e : Pte) : Nat := (e.extractLsb' 4 3).toNat
def Pte.log (e : Pte) : Bool := e.getLsbD 7
def Pte.migr (e : Pte) : Bool := e.getLsbD 8
def Pte.dirty (e : Pte) : Bool := e.getLsbD 9
def Pte.accessed (e : Pte) : Bool := e.getLsbD 10
def Pte.contig (e : Pte) : Bool := e.getLsbD 11
def Pte.pa (e : Pte) : Nat := (e.extractLsb' 16 44).toNat * 65536

/-- log2 of the 64 KiB pages a leaf at a level maps (R95). -/
def leafLg (lvl : Nat) : Nat := 13 * lvl

/-- Index of a VA at a level (R95). -/
def vaIndex (lvl va : Nat) : Nat :=
  if lvl = 4 then va / 2 ^ 68 % 16 else va / 2 ^ (16 + 13 * lvl) % 8192

/-- TYPE and KIND of a leaf agree (R98). -/
def typeKindOk (type kind : Nat) : Bool :=
  match type with
  | 0 => decide (kind ≤ 1)
  | 1 => decide (kind ≤ 1)
  | 2 => kind == 3
  | 3 => kind == 3
  | 4 => kind == 2
  | 5 => kind != 2
  | _ => false

/-- A valid entry at a level is malformed (R98). -/
def State.pteBad (s : State) (lvl : Nat) (e : Pte) : Bool :=
  e.extractLsb' 60 4 != 0 || e.extractLsb' 12 4 != 0 ||
    (if e.leaf then
      decide (3 ≤ lvl) || decide (6 ≤ e.type) || !typeKindOk e.type (paKind e.pa) ||
        (decide (1 ≤ lvl) && (e.contig || e.pa % 2 ^ (16 + leafLg lvl) != 0))
    else
      lvl == 0 || decide (2 ≤ paKind e.pa) || !s.isLocal e.pa || !s.holds e.pa 65536)

/-- How a walk ends: the leaf, its level and its address; or the cause of the fault record (R56). -/
inductive Walk where
  | leaf (lvl : Nat) (e : Pte) (epa : Nat)
  | bad (cause : Nat)
deriving DecidableEq, Repr

/-- Walk from the table at a level downwards; also the tables entered, by level (R95, R102). -/
def State.walkGo (s : State) (va : Nat) : Nat → Nat → Walk × List (Nat × Nat)
  | lvl, table =>
    let epa := table + 8 * vaIndex lvl va
    let e : Pte := BitVec.ofNat 64 (s.rd epa 8)
    if !s.memRdy none true epa then (.bad 3, [])
    else if !e.valid then (.bad 1, [])
    else if s.pteBad lvl e then (.bad 2, [])
    else if e.leaf then (.leaf lvl e epa, [])
    else
      match lvl with
      | 0 => (.bad 2, [])
      | k + 1 =>
        let (r, ts) := State.walkGo s va k e.pa
        (r, (k, e.pa) :: ts)

/-- The deepest table the walk cache of a die names for this VA (R102). -/
def State.walkStart (s : State) (die c va : Nat) : Option (Nat × Nat) :=
  (minBy (fun x : Nat × Nat => x.1) (s.walks.filterMap (fun w =>
    if w.die == die && w.ctx == c && w.key == va / 2 ^ (16 + 13 * (w.level + 1)) then some (w.level, w.table) else none)))

/-- A walk in a context, from its kept top-level entries (R29) or from a walk-cache entry. -/
def State.walkFrom (s : State) (c va : Nat) (start : Option (Nat × Nat)) : Walk × List (Nat × Nat) :=
  match start with
  | some (lvl, t) => s.walkGo va lvl t
  | none =>
    let e : Pte := BitVec.ofNat 64 ((s.ctx c).top (vaIndex 4 va))
    if !e.valid then (.bad 1, [])
    else if s.pteBad 4 e then (.bad 2, [])
    else
      let (r, ts) := s.walkGo va 3 e.pa
      (r, (3, e.pa) :: ts)

/-- The TLB entry a leaf fills (R101, R102). The base of a CONTIG group is a 60-bit physical address, taken modulo 2^60: the leaf's own
page is always translated to its own address. -/
def tlbOf (die c va lvl : Nat) (e : Pte) (epa : Nat) : TlbEnt :=
  let page := va / 65536
  if lvl == 0 && e.contig then
    { die, ctx := c, vpn := page / 32 * 32, lg := 5, leaf := e, leafPa := epa, pa := (e.pa + 2 ^ 60 - page % 32 * 65536) % 2 ^ 60, dirty := e.dirty }
  else
    let n := 2 ^ leafLg lvl
    { die, ctx := c, vpn := page / n * n, lg := leafLg lvl, leaf := e, leafPa := epa, pa := e.pa, dirty := e.dirty }

/-- The entry translates a page. -/
def TlbEnt.covers (t : TlbEnt) (die c page : Nat) : Bool :=
  t.die == die && t.ctx == c && decide (t.vpn ≤ page) && decide (page < t.vpn + 2 ^ t.lg)
/-- The virtual addresses an access of a lane was translated at: for EMRG its two cells, until B has been read
(R109, R163, R170). -/
def Acc.vas (a : Acc) : List Nat :=
  match a.op with
  | .emrg _ x y => a.va.toNat :: (if a.mate.isSome then [] else [(a.va.toNat + 2 ^ 72 + 16 * y - 16 * x) % 2 ^ 72])
  | _ => [a.va.toNat]
/-- The physical address of a VA the entry covers. -/
def TlbEnt.phys (t : TlbEnt) (va : Nat) : Nat := (t.pa + (va - t.vpn * 65536)) % 2 ^ 60
def State.tlbFind (s : State) (die c va : Nat) : Option TlbEnt := s.tlb.find? (fun t => t.covers die c (va / 65536))

/-- Set bits of a page-table entry in memory, as an atomic OR (R100). -/
def State.orPte (s : State) (epa mask : Nat) : State := s.wr epa 8 (s.rd epa 8 ||| mask)

/-! ## Accesses of engines and other units -/

/-- What an engine access meets. -/
inductive Eng (α : Type) where
  | ok (a : α)
  | fault (cause : Nat)
  | wait
deriving DecidableEq, Repr

/-- A migration holds back writes to the page of this address (R136). -/
def State.migHeld (s : State) (pa : Nat) : Bool := s.migs.any (fun m => m.src / 65536 == pa / 65536)

/-- Translate for an engine: a page on an absent or unassigned device, or on one to which no path remains, gives the engine a fault of
cause PROTECTION, and so does an access beyond what its die or channel group holds, where R9, R17 and R97 speak only of an instruction's
access (the model's choice, log 122). It is done setting ACCESSED and, for a write, DIRTY (R100, R107, R118). n bytes within one page. -/
def State.engXlate (s : State) (c va n : Nat) (write : Bool) : Eng (Nat × State) :=
  match (s.walkFrom c va none).1 with
  | .bad cause => if cause = 3 then .wait else .fault cause
  | .leaf lvl e epa =>
    let pa := (tlbOf 0 c va lvl e epa).phys va
    if e.type == 4 || (write && (!e.write || e.type == 1)) then .fault 2
    else if !s.present pa || !s.holds pa n || !s.reachable pa then .fault 2
    else if !s.memRdy none (e.type == 0 || e.type == 1) pa || (write && s.migHeld pa) then .wait
    else .ok (pa, if e.accessed && (e.dirty || !write) then s else s.orPte epa (if write then 0x600 else 0x400))

/-- Read n bytes page by page. -/
def State.engRdGo (s : State) (c : Nat) : Nat → Nat → Nat → Eng (List Byte × State)
  | 0, _, _ => .ok ([], s)
  | fuel + 1, va, n =>
    if n = 0 then .ok ([], s)
    else
      let a := va % 2 ^ 72
      let k := min n (65536 - a % 65536)
      match s.engXlate c a k false with
      | .ok (pa, s1) =>
        match State.engRdGo s1 c fuel (a + k) (n - k) with
        | .ok (bs, s2) => .ok (memBytes s.mem pa k ++ bs, s2)
        | .fault f => .fault f
        | .wait => .wait
      | .fault f => .fault f
      | .wait => .wait

/-- An engine reads n bytes at a VA of a context. -/
def State.engRd (s : State) (c va n : Nat) : Eng (List Byte × State) := s.engRdGo c (n / 65536 + 2) va n

/-- Write bytes page by page. -/
def State.engWrGo (s : State) (c : Nat) : Nat → Nat → List Byte → Eng State
  | 0, _, _ => .ok s
  | fuel + 1, va, bs =>
    match bs with
    | [] => .ok s
    | _ =>
      let a := va % 2 ^ 72
      let k := min bs.length (65536 - a % 65536)
      match s.engXlate c a k true with
      | .ok (pa, s1) => State.engWrGo (s1.wrBytes pa (bs.take k)) c fuel (a + k) (bs.drop k)
      | .fault f => .fault f
      | .wait => .wait

/-- An engine writes bytes at a VA of a context. -/
def State.engWr (s : State) (c va : Nat) (bs : List Byte) : Eng State :=
  if bs.length + va % 65536 ≤ 65536 then s.engWrGo c 2 va bs
  else
    -- every page is translated before anything is written
    match s.engRdGo c (bs.length / 65536 + 2) va bs.length with
    | .ok (_, s1) => s1.engWrGo c (bs.length / 65536 + 2) va bs
    | .fault f => .fault f
    | .wait => .wait

/-- Bytes from a VA have moved for a context, page by page (R254). -/
def State.movedVa (s : State) (c : Nat) : Nat → Nat → Nat → State
  | 0, _, _ => s
  | fuel + 1, va, n =>
    if n = 0 then s
    else
      let a := va % 2 ^ 72
      let k := min n (65536 - a % 65536)
      State.movedVa (match (s.walkFrom c a none).1 with
        | .leaf lvl e epa => s.movedBytes c ((tlbOf 0 c a lvl e epa).phys a) k
        | .bad _ => s) c fuel (a + k) (n - k)

/-! ## What a page allows a lane (R98, R99) -/

/-- The kinds of access of a lane. -/
inductive AccKind where
  | load | store | atomic (aop : Nat) | fetch | est
  /-- A CSTORE element, and the load of RWAIT: as a store and a load, but LD and ST alone reach device registers (R98). -/
  | element | ring
  /-- The GEN byte of a region descriptor (R168). -/
  | gen
deriving DecidableEq, Repr

/-- ACCESSKIND of the fault record (R56). -/
def AccKind.code : AccKind → Nat
  | .load => 0
  | .store => 1
  | .atomic _ => 2
  | .fetch => 3
  | .est => 4
  | .gen => 4
  | .element => 1
  | .ring => 0

/-- It writes its page (R99). -/
def AccKind.writes : AccKind → Bool
  | .load => false
  | .store => true
  | .atomic _ => true
  | .fetch => false
  | .est => true
  | .gen => true
  | .element => true
  | .ring => false

/-- The page type lets an access of this kind and size through; otherwise it raises ACCESS (R98, R331, R367). -/
def typeOk (k : AccKind) (type n : Nat) : Bool :=
  match k with
  | .load => if type = 4 then n == 4 || n == 8 else true
  | .store => if type = 1 then false else if type = 4 then n == 4 || n == 8 else true
  | .atomic aop =>
    if type = 1 || type = 4 then false else if type = 2 || type = 3 then aop == 0 || aop == 9 else true
  | .fetch => true
  | .est => type == 1
  | .gen => type == 0 || type == 5
  | .element => type != 1 && type != 4
  | .ring => type != 4

end Sys2Proof.Machine
end

