-- ==== Sys2Proof/Machine/Views.lean ====
section
/-!
DEFINITION. The memory model: which accesses of a lane are ordered (R144 to R148, R156, R157, R401), scopes (R149), and what the writes that
copies do not show happen before, link by link (R147, R150, R153, R155, R400, R402; log 10).
-/

namespace Sys2Proof.Machine

/-! ## Kinds of access -/

def AccOp.isEst : AccOp → Bool
  | .est _ _ _ _ => true
  | .eld _ _ _ => true
  | .emrg _ _ _ => true
  | .eclr _ _ => true
  | .esweep _ _ _ _ => true
  | .eraw _ _ _ => true
  | .einit _ _ _ _ _ => true
  | _ => false
/-- It writes memory or scratchpad: a store or an atomic. -/
def AccOp.isWrite : AccOp → Bool
  | .store => true
  | .atom _ _ _ _ => true
  | .rrel _ => true
  | _ => false
def AccOp.isRead : AccOp → Bool
  | .load _ _ => true
  | .mldData _ _ => true
  | .mldScale _ _ => true
  | _ => false
/-- A read whose value lands: a load, or an atomic with return. -/
def AccOp.returns : AccOp → Bool
  | .atom _ _ _ d => d.isSome
  | op => op.isRead
/-- The region that an estimator operation names. -/
def AccOp.region : AccOp → Nat
  | .est rg _ _ _ => rg
  | .eld rg _ _ => rg
  | .emrg rg _ _ => rg
  | .eclr rg _ => rg
  | .esweep rg _ _ _ => rg
  | .eraw rg _ _ => rg
  | .einit rg _ _ _ _ => rg
  | _ => 0
/-- A page of the host window or of device registers (R157). -/
def Acc.outside (a : Acc) : Bool := a.sp.isNone && (a.type == 2 || a.type == 3 || a.type == 4)
/-- A page of the host window. -/
def Acc.inHost (a : Acc) : Bool := a.sp.isNone && (a.type == 2 || a.type == 3)
/-- It takes part in the total order S (R145). -/
def Acc.inS (a : Acc) : Bool := a.ord != .wk && !a.outside && !a.op.isEst
def Acc.acquires (a : Acc) : Bool := a.ord == .acq || a.ord == .ar
def Acc.releases (a : Acc) : Bool := a.ord == .rel || a.ord == .ar
/-- They touch a common location (R148, case 5). -/
def Acc.overlaps (a b : Acc) : Bool := a.sp == b.sp && decide (a.addr < b.addr + b.n) && decide (b.addr < a.addr + a.n)
def sameLane (a b : Acc) : Bool := a.uid == b.uid && a.lane == b.lane
/-- The lane of an access. -/
def Acc.who (a : Acc) : Who := { me := a.me, uid := a.uid, tid := a.home, die := a.die }

/-! ## The cells of estimator operations (R156) -/

/-- The cells that an estimator operation has still to reach: their virtual addresses, as first and length (R156, R163). -/
def Acc.cells (a : Acc) : List (Nat × Nat) :=
  match a.op with
  | .esweep _ _ k _ => [(a.va.toNat, 16 * k)]
  | _ => a.vas.map (fun v => (v, 16))
/-- Two ranges of addresses meet. -/
def rangesMeet (x y : List (Nat × Nat)) : Bool := x.any (fun p => y.any (fun q => decide (p.1 < q.1 + q.2) && decide (q.1 < p.1 + p.2)))
/-- Two estimator operations of a lane meet in a cell, in whatever regions they name it (R156). -/
def Acc.sameCell (a b : Acc) : Bool := a.ctx == b.ctx && rangesMeet a.cells b.cells
/-- The physical addresses of a range of virtual ones, page by page, where its pages have any. -/
def State.pasOf (s : State) (c : Nat) : Nat → Nat → Nat → List (Nat × Nat)
  | 0, _, _ => []
  | fuel + 1, va, n =>
    if n = 0 then []
    else
      let k := min n (65536 - va % 65536)
      let here := match (s.walkFrom c (va % 2 ^ 72) none).1 with
        | .leaf lvl e epa => [((tlbOf 0 c (va % 2 ^ 72) lvl e epa).phys (va % 2 ^ 72), k)]
        | .bad _ => []
      here ++ State.pasOf s c fuel (va + k) (n - k)
/-- The physical addresses of the cells that an operation has still to reach: two virtual addresses of one page name the same cells
(R144). -/
def State.cellPas (s : State) (a : Acc) : List (Nat × Nat) := a.cells.flatMap (fun x => s.pasOf a.ctx (x.2 / 65536 + 2) x.1 x.2)
/-- Two estimator operations of a lane meet in a cell, by its virtual or its physical address (R144, R156). -/
def State.meetCell (s : State) (a b : Acc) : Bool := a.sameCell b || rangesMeet (s.cellPas a) (s.cellPas b)

/-! ## Order within a lane (R148, R156, R157, R401) -/

/-- The ways in which a, before b in the program order of one lane, is ordered before b: with the scope of a or of b, or for every lane
(R148, R157, R401). -/
def laneLinks (a b : Acc) : List (Option Pub) :=
  let own (x : Acc) : Option Pub := some { scope := x.scope.toNat, who := x.who }
  if a.op.isEst || b.op.isEst then (if a.op.isEst && b.op.isEst && a.sameCell b then [none] else [])
  else if a.overlaps b || (a.inS && b.inS) then [none]
  else if a.outside || b.outside then
    (if (a.acquires && a.scope == 6) || (b.releases && b.scope == 6) || (a.inHost && b.inHost && (a.acquires || b.releases)) ||
      (a.type == 2 && b.type == 2 && !(a.op == .store && b.op.isRead)) ||
      (a.type == 4 && b.type == 4 && paDev a.addr == paDev b.addr) then [none] else [])
  else (if a.acquires then [own a] else []) ++ (if b.releases then [own b] else [])
/-- a, issued before b by the same lane, performs before it (R148, R156, R157, R401): whatever the scope, which includes the lane itself
and decides what other lanes may still read of older copies (R150, R151; log 9). -/
def orderedBefore (a b : Acc) : Bool := laneLinks a b != []

/-- Accesses issued before the access of this identity. -/
def before (id : Nat) : List Acc → List Acc
  | [] => []
  | a :: r => if a.id = id then [] else a :: before id r

/-- No earlier access of its lane that is ordered before it is still to perform. -/
def State.orderFree (s : State) (a : Acc) : Bool :=
  (before a.id s.accs).all (fun b =>
    !(sameLane b a && (orderedBefore b a || (a.op.isEst && b.op.isEst && s.meetCell b a))) || b.refused)

/-! ## Scopes (R149) -/

/-- A lane of a wave as an agent of the memory model. -/
def State.whoOf (s : State) (uid L : Nat) : Who :=
  match s.wave? uid with
  | some w => { me := (w.lane L).me, uid := uid, tid := (w.lane L).home, die := (s.teamOf w).die }
  | none => { me := 0, uid := uid, tid := 0, die := 0 }
/-- The lanes of a wave as agents. -/
def Wave.whos (w : Wave) (die : Nat) : List Who := w.lanes.map (fun l => { me := l.me, uid := w.uid, tid := l.home, die })
/-- The lanes of a team as agents. -/
def State.teamWhos (s : State) (t : Team) : List Who := (s.wavesOf t.tid).flatMap (fun w => w.whos t.die)
/-- The cluster of a team. -/
def State.clusterOf (s : State) (tid : Nat) : Option Nat := (s.team? tid).bind Team.cluster
/-- A lane is within the scope (R149). -/
def State.inScope (s : State) (q : Who) (p : Pub) : Bool :=
  p.who.me == q.me ||
    (match p.scope with
     | 0 => p.who.uid == q.uid
     | 1 => p.who.tid == q.tid
     | 2 => p.who.tid == q.tid || (match s.clusterOf p.who.tid with | some c => s.clusterOf q.tid == some c | none => false)
     | 3 => p.who.die == q.die
     | 7 => false
     | _ => true)
/-- A chain with one more link: one of device, domain or system scope includes every lane. -/
def linked (v : List Pub) (p : Pub) : List Pub := if (decide (4 ≤ p.scope) && p.scope != 7) || v.contains p then v else v ++ [p]
/-- A chain with a link of lane order. -/
def linkedBy (v : List Pub) (p : Option Pub) : List Pub := match p with | some p => linked v p | none => v

/-! ## What a write happens before (R150, R400) -/

/-- The write meets n bytes at a place. -/
def Unshown.meets (w : Unshown) (sp : Option Nat) (pa n : Nat) : Bool := w.sp == sp && decide (w.addr < pa + n) && decide (pa < w.addr + w.n)
/-- The write with these facts too. -/
def Unshown.add (w : Unshown) (fs : List Fact) : Unshown := { w with facts := fs.foldl (fun r f => if r.contains f then r else r ++ [f]) w.facts }
/-- What tells one access of a lane from another for the order: not what it carries, nor when. -/
def Acc.shape (a : Acc) : Acc := { a with id := 0, pc := 0, va := 0, data := 0, born := 0, start := 0, extra := 0, count := 0, log := false, posted := false, element := false, nol1 := false }
/-- The chains by which one thing that the write happens before leads to a lane's access b (R150). -/
def Fact.routes (f : Fact) (b : Acc) : List (List Pub) :=
  match f.reach with
  | .lane me all => if me == b.me && (all || !b.outside) then [f.via] else []
  | .writes me all => if me == b.me && b.op.isWrite && (all || !b.outside) then [f.via] else []
  | .made a => if a.me == b.me then (laneLinks a b).map (linkedBy f.via) else []
  | .inS => if b.inS then [f.via] else []
  | _ => []
/-- The chains by which the write happens before a lane's access b, whatever b reads. -/
def Unshown.routes (w : Unshown) (b : Acc) : List (List Pub) := w.facts.flatMap (fun f => f.routes b)
/-- The lane of b may read nothing older than the write: it has observed it, or the write happens before b as its lane sees it, which
every link's scope includes (R147, R150, R400). -/
def State.mustSee (s : State) (b : Acc) (w : Unshown) : Bool :=
  w.facts.any (fun f => match f.reach with
    | .here me pa n => me == b.me && decide (pa < b.addr + b.n) && decide (b.addr < pa + n)
    | _ => false) ||
    (w.routes b).any (fun v => v.all (s.inScope b.who))

/-- The writes that n bytes at a place held before write number upTo: the last one to each byte. -/
def State.lastWrites (s : State) (sp : Option Nat) (pa n upTo : Nat) : List Nat :=
  ((List.range n).filterMap (fun j => ((s.wrote.filter (fun w => w.meets sp (pa + j) 1 && decide (w.id < upTo))).getLast?).map Unshown.id)).eraseDups
/-- The chains by which the write happens before a read of what these writes left. -/
def Unshown.readFrom (w : Unshown) (srcs : List Nat) : List (List Pub) :=
  (if srcs.contains w.id then [[]] else []) ++
    w.facts.filterMap (fun f => match f.reach with | .write n => if srcs.contains n then some f.via else none | _ => none)
/-- What b adds to what a write happens before that happens before b by this chain: later accesses of its lane, later accesses in S, and
what reads the write that b makes. -/
def stepFacts (b : Acc) (own : Option Nat) (v : List Pub) : List Fact :=
  { reach := .made b.shape, via := v } :: (if b.inS then [{ reach := .inS, via := v }] else []) ++
    (match own with | some n => [{ reach := .write n, via := v }] | none => [])

/-- Access b of a lane performs as memory stood before write number upTo: the chains that lead to it lead on from it (R148, R150), and its
lane reads nothing older at its bytes again (R147). It reads its bytes if reads, and write number own is its own. -/
def State.touch (s : State) (b : Acc) (reads : Bool) (own : Option Nat) (upTo : Nat) : State :=
  let srcs := if reads then s.lastWrites b.sp b.addr b.n (own.getD upTo) else []
  { s with wrote := s.wrote.map (fun w =>
      let vs := if own == some w.id then [[]] else w.routes b ++ w.readFrom srcs
      let w1 := w.add (vs.flatMap (stepFacts b (if own == some w.id then none else own)))
      if w.meets b.sp b.addr b.n && decide (w.id < upTo) then w1.add [{ reach := .here b.me b.addr b.n }] else w1) }

/-! ## What synchronises lanes (R72, R148, R152, R153, R397, R402) -/

/-- Every write's facts, and what more each of them gives. -/
def State.extend (s : State) (f : Fact → List Fact) : State :=
  { s with wrote := s.wrote.map (fun w => w.add (w.facts.flatMap f)) }
/-- A FENCE of this kind and scope in these lanes (R152). -/
def State.fence (s : State) (qs : List Who) (kind scope : Nat) : State :=
  s.extend (fun f => match f.reach with
    | .made a =>
      (match qs.find? (fun q => q.me == a.me) with
       | some q =>
         let v := linked f.via { scope, who := q }
         if a.outside && scope != 6 then []
         else if kind = 1 then [{ reach := .writes q.me (scope == 6), via := v }]
         else if kind = 2 && !a.op.returns then []
         else [{ reach := .lane q.me (scope == 6), via := v }]
       | none => [])
    | _ => [])
/-- What these lanes have accessed happens before what synchronises at one of these, with a scope (R153). -/
def State.release (s : State) (qs : List Who) (scope : Nat) (ks : List Sync) : State :=
  s.extend (fun f => match f.reach with
    | .made a =>
      (match qs.find? (fun q => q.me == a.me) with
       | some q => ks.map (fun k => { reach := .sync k, via := linked f.via { scope, who := q } })
       | none => [])
    | _ => [])
/-- What has been released at these happens before every later access of these lanes (R153). -/
def State.obtain (s : State) (qs : List Who) (p : Sync → Bool) : State :=
  s.extend (fun f => match f.reach with
    | .sync k => if p k then qs.map (fun q => { reach := .lane q.me true, via := f.via }) else []
    | _ => [])
/-- What has been released at these is released at k too. -/
def State.pass (s : State) (p : Sync → Bool) (k : Sync) : State :=
  s.extend (fun f => match f.reach with | .sync x => if p x then [{ reach := .sync k, via := f.via }] else [] | _ => [])
/-- Nothing is released at these any more. -/
def State.forget (s : State) (p : Sync → Bool) : State :=
  { s with wrote := s.wrote.map (fun w => { w with facts := w.facts.filter (fun f => match f.reach with | .sync k => !p k | _ => true) }) }
/-- What a lane's LAUNCH hands on: its own writes, what they follow, and what a barrier has ordered before it (R72). -/
def State.launchFrom (s : State) (q : Who) (k : Sync) : State :=
  (s.extend (fun f => match f.reach with
    | .made a => if a.me == q.me && a.op.isWrite then [{ reach := .sync k, via := f.via }] else []
    | _ => [])).pass (fun x => x == .barred q.me) k
/-- A barrier's wait is over for a lane: it is ordered after the phase, and so is what it launches (R72, R153). -/
def State.obtainBar (s : State) (q : Who) (k : Sync) : State := (s.obtain [q] (fun x => x == k)).pass (fun x => x == k) (.barred q.me)
/-- What released at these happens before the writes that have been made since this many (R153: completion records and counters). -/
def State.releaseInto (s : State) (p : Sync → Bool) (since : Nat) : State :=
  let new := (s.wrote.filter (fun w => decide (since ≤ w.id))).map Unshown.id
  s.extend (fun f => match f.reach with | .sync k => if p k then new.map (fun n => { reach := .write n, via := f.via }) else [] | _ => [])
/-- Writes made since this many replaced what an atomic read: what happened before a write that it read happens before them (R147,
R402). -/
def State.carry (s : State) (pa n since : Nat) : State :=
  let srcs := s.lastWrites none pa n since
  let new := (s.wrote.filter (fun w => decide (since ≤ w.id) && w.meets none pa n)).map Unshown.id
  { s with wrote := s.wrote.map (fun w => if decide (since ≤ w.id) then w
      else w.add ((w.readFrom srcs).flatMap (fun v => new.map (fun m => { reach := .write m, via := v })))) }
/-- What a unit reads here, of writes that pass, happens before what synchronises at k (R153). -/
def State.readInto (s : State) (p : Unshown → Bool) (pa n : Nat) (k : Sync) : State :=
  let srcs := (s.lastWrites none pa n s.writes).filter (fun x => s.wrote.any (fun w => w.id == x && p w))
  { s with wrote := s.wrote.map (fun w => w.add ((w.readFrom srcs).map (fun v => { reach := .sync k, via := v }))) }

/-! ## Engines (R154, R155) -/

/-- What tags the increments of SIGNAL, beside the domains 0 to 4 of R155. -/
def signalDom : Nat := 5

/-- The writes made since this many are an engine's. -/
def State.byEngine (s : State) (dom since : Nat) : State :=
  { s with wrote := s.wrote.map (fun w => if decide (since ≤ w.id) then { w with eng := some dom } else w) }
/-- XFENCE.from: these lanes' later accesses return what the domain's engines have written (R155). -/
def State.fromEngine (s : State) (qs : List Who) (dom : Nat) : State :=
  { s with wrote := s.wrote.map (fun w =>
      if w.eng == some dom then w.add (qs.map (fun q => { reach := .lane q.me true, via := [{ scope := 7, who := q }] })) else w) }

/-- XFENCE.to.trav: what each lane has accessed happens before the walks that it starts from now on (R155, R191, R402). -/
def State.xfenceTrav (s : State) (qs : List Who) : State := qs.foldl (fun s q => s.release [q] 5 [.trav q.me]) s

end Sys2Proof.Machine
end

