-- ==== Sys2Proof/Machine/Ring.lean ====
section
/-!
DEFINITION. Rings (R51, R54), event records (R55), fault records (R56) and the event trace (R243, R252).
-/

namespace Sys2Proof.Machine

/-- Read n bytes as a unit of the device: in a context at a VA, or with none at a domain physical address. -/
def State.unitRd (s : State) (sp : Option Nat) (a n : Nat) : Eng (List Byte × State) :=
  match sp with
  | some c => s.engRd c a n
  | none =>
    if !s.present a || !s.holds a n || paKind a == 2 || !s.reachable a then .fault 2
    else if !s.memRdy none true a then .wait else .ok (memBytes s.mem a n, s)

/-- Write bytes as a unit of the device. -/
def State.unitWr (s : State) (sp : Option Nat) (a : Nat) (bs : List Byte) : Eng State :=
  match sp with
  | some c => s.engWr c a bs
  | none =>
    if !s.present a || !s.holds a bs.length || paKind a == 2 || !s.reachable a then .fault 2
    else if !s.memRdy none true a then .wait else .ok (s.wrBytes a bs)

/-- A ring header (R51). -/
structure RingHdr where
  widx : Nat
  relidx : Nat
  count : Nat
  size : Nat
  slots : Nat
  dropped : Nat
  /-- COUNT, SLOTSIZE, SLOTSVA and the zero fields are right (R54). -/
  good : Bool
deriving DecidableEq, Repr

/-- Bytes of a list from an offset, as a number. -/
def bsNat (bs : List Byte) (off len : Nat) : Nat := leNat ((bs.drop off).take len)

def isPow2 (n : Nat) : Bool := n != 0 && 2 ^ Nat.log2 n == n

/-- A header of 64 bytes; the slot sizes allowed; whether SLOTSVA is a VA or, in bits [59:0], a physical address. -/
def ringHdr (bs : List Byte) (sizes : List Nat) (va : Bool) : RingHdr :=
  let count := bsNat bs 16 4
  let size := bsNat bs 20 1
  let slots := bsNat bs 24 9
  { widx := bsNat bs 0 8, relidx := bsNat bs 8 8, count, size, slots := if va then slots else slots % 2 ^ 60,
    dropped := bsNat bs 40 8
    good := isPow2 count && decide (4 ≤ count) && decide (count ≤ 2 ^ 20) && sizes.contains size && slots % size == 0 &&
      bsNat bs 21 3 == 0 && bsNat bs 33 7 == 0 && bsNat bs 48 16 == 0 }

/-- What a ring makes of a record. -/
inductive Put where
  | ok (s : State)
  | full (s : State)
  | bad
deriving DecidableEq, Repr

/-- Write a record into slot WIDX mod COUNT, then advance WIDX (R51). A ring whose memory is not ready counts as full, not as
unusable: R54 does not say, and the choice is the model's (log 124). -/
def State.ringPut (s : State) (sp : Option Nat) (hdr : Nat) (sizes : List Nat) (bytesOf : Nat → List Byte) : Put :=
  match s.unitRd sp hdr 64 with
  | .wait => .full s
  | .fault _ => .bad
  | .ok (bs, s1) =>
    let h := ringHdr bs sizes sp.isSome
    if !h.good then .bad
    else if decide (h.count ≤ (h.widx + 2 ^ 64 - h.relidx) % 2 ^ 64) then .full s1
    else
      match s1.unitWr sp (h.slots + h.size * (h.widx % h.count)) (bytesOf h.size) with
      | .wait => .full s1
      | .fault _ => .bad
      | .ok s2 =>
        match s2.unitWr sp hdr (leBytes 8 (h.widx + 1)) with
        | .ok s3 => .ok s3
        | _ => .bad

/-- Count a record not written (R54, R243). -/
def State.ringDrop (s : State) (sp : Option Nat) (hdr : Nat) : State :=
  match s.unitRd sp hdr 64 with
  | .ok (bs, s1) =>
    match s1.unitWr sp (hdr + 40) (leBytes 8 (bsNat bs 40 8 + 1)) with
    | .ok s2 => s2
    | _ => s
  | _ => s

/-! ## Events (R54, R55) -/

/-- The machine-check ring takes a record, or drops it (R54). -/
def State.mcPut (s : State) (r : BitVec 512) (mustWait : Bool) : State :=
  let h := s.host.mcring.toNat
  if h = 0 then s
  else
    match s.ringPut none h [64] (fun _ => recordBytes r) with
    | .ok s1 => s1
    | .full s1 => if mustWait then { s1 with ringWaits := s1.ringWaits ++ [{ ctx := 0, ring := 2, bytes := r }] } else s1.ringDrop none h
    | .bad => s

/-- Kinds that wait for space: JOBFAULT, QUEUEHALT, COUNTERPOISON (R54). -/
def evWaits (kind : Nat) : Bool := kind == 2 || kind == 3 || kind == 4

/-- The head and body of an event record; body fields by offset from byte 0 (R55). -/
def State.evRecord (s : State) (kind c q slot : Nat) (body : List (Nat × Nat × Nat)) : BitVec 512 :=
  record 512 ([(0, 2, kind), (2, 2, c), (4, 2, q), (6, 6, slot), (16, 8, s.time)] ++ body)

/-- Offer a record to the event ring of a context. -/
def State.evPut (s : State) (c kind : Nat) (r : BitVec 512) : State :=
  let h := (s.ctx c).evring
  match s.ringPut (some c) h [64] (fun _ => recordBytes r) with
  | .ok s1 => s1
  | .full s1 =>
    if evWaits kind then { s1 with ringWaits := s1.ringWaits ++ [{ ctx := c, ring := 0, bytes := r }] }
    else s1.ringDrop (some c) h
  | .bad => s.mcPut r (evWaits kind)

/-- Post an event to a context. -/
def State.event (s : State) (kind c q slot : Nat) (body : List (Nat × Nat × Nat)) : State :=
  s.evPut c kind (s.evRecord kind c q slot body)

/-- Post a machine-check event to MCRING (R17, R37, R55): a unit and an index of it. -/
def State.machineCheck (s : State) (c q slot unit index : Nat) : State :=
  s.mcPut (s.evRecord 9 c q slot [(24, 2, (Config.unitCode unit).toNat), (26, 8, index)]) false

/-- The page of a VA is at home on a device to which no path remains (R17). -/
def State.pathLost (s : State) (c va : Nat) : Bool :=
  match (s.walkFrom c (va % 2 ^ 72) none).1 with
  | .leaf lvl e epa =>
    let pa := (tlbOf 0 c (va % 2 ^ 72) lvl e epa).phys (va % 2 ^ 72)
    s.present pa && !s.reachable pa
  | .bad _ => false
/-- An access of an engine to this VA has failed: where no path remains, a machine check says so (R17; log 122). -/
def State.noteLost (s : State) (c va : Nat) : State := if s.pathLost c va then s.machineCheck c 0xFFFF 0 1 s.downPort else s

/-- What becomes of a record that waited. -/
inductive Retry where
  /-- It is written, or dropped for good. -/
  | gone (s : State)
  /-- It waits on, and MCRING has been offered a copy. -/
  | copied (s : State)
  | stays
deriving DecidableEq, Repr
/-- Retry a record that waits for its ring. A ring that has become unusable in the meantime is treated as at the first try: an
event goes to MCRING instead, a fault record is held and copied to MCRING once, MCRING's own record is dropped (R54). -/
def State.retryWait (s : State) (r : RingWait) : Retry :=
  if r.ring = 0 then
    match s.ringPut (some r.ctx) (s.ctx r.ctx).evring [64] (fun _ => recordBytes r.bytes) with
    | .ok s1 => .gone s1
    | .full _ => .stays
    | .bad => .gone (s.mcPut r.bytes (evWaits (fieldAt r.bytes 0 2)))
  else if r.ring = 1 then
    match s.ringPut (some r.ctx) (s.ctx r.ctx).flring [64] (fun _ => recordBytes r.bytes) with
    | .ok s1 => .gone s1
    | .full _ => .stays
    | .bad => if r.copied then .stays else .copied (s.mcPut r.bytes false)
  else if s.host.mcring.toNat = 0 then .gone s
  else
    match s.ringPut none s.host.mcring.toNat [64] (fun _ => recordBytes r.bytes) with
    | .ok s1 => .gone s1
    | .full _ => .stays
    | .bad => .gone s

/-! ## Fault records (R56) -/

/-- The next fault sequence number: 0 is never used. -/
def nextSeq (n : BitVec 32) : BitVec 32 := if n + 1 = 0 then 1 else n + 1

/-- Write a fault record to the fault ring of a context, or hold it (R54, R56). -/
def State.faultPut (s : State) (c : Nat) (r : BitVec 512) : State :=
  match s.ringPut (some c) (s.ctx c).flring [64] (fun _ => recordBytes r) with
  | .ok s1 => s1
  | .full s1 => { s1 with ringWaits := s1.ringWaits ++ [{ ctx := c, ring := 1, bytes := r }] }
  | .bad =>
    let s1 := s.mcPut r false
    { s1 with ringWaits := s1.ringWaits ++ [({ ctx := c, ring := 1, bytes := r, copied := true } : RingWait)] }

/-- Raise a fault record: cause, access kind, VA, die, core and wave slot (0xFF for an engine), lanes, PC, OBJVA, and
who waits for its answer. Also the sequence number it got. -/
def State.raiseFault (s : State) (c cause kind va die core slot : Nat) (lanes pc : Word) (obj : Nat) (who : FaultWho) :
    BitVec 32 × State :=
  let seq := (s.ctx c).faultSeq
  let rec512 := record 512 [(0, 1, cause), (1, 1, kind), (2, 2, c), (4, 4, seq.toNat), (8, 9, va), (17, 1, die), (18, 1, core),
    (19, 1, slot), (20, 4, lanes.toNat), (24, 2, s.pkg.deviceId.toNat), (28, 4, pc.toNat), (32, 9, obj)]
  let s1 := s.updCtx c (fun x => { x with faultSeq := nextSeq seq })
  let f : FaultRec := { ctx := c, seq := seq, cause := cause, kind := kind, va := BitVec.ofNat 72 va, die := die, pc := pc, who := who, born := s.cycle }
  let s2 : State := { s1 with faults := s1.faults ++ [f] }
  (seq, s2.faultPut c rec512)

/-! ## Streams of the debug control block (R242, R243) -/

def State.streamPa (s : State) (die stream : Nat) : Nat := fieldAt s.dbg.blk (64 + 32 * die + 8 * stream) 8

/-- Write a record to stream 0, 1 or 2 of a die: a full ring counts it as dropped (R243). -/
def State.streamPut (s : State) (die stream : Nat) (r : BitVec 256) : State :=
  let h := s.streamPa die stream % 2 ^ 60
  if s.streamPa die stream = 0 then s
  else
    match s.ringPut none h [32] (fun _ => recordBytes r) with
    | .ok s1 => s1
    | .full s1 => s1.ringDrop none h
    | .bad => s

/-- An event-trace record (R252). -/
def State.trace (s : State) (die kind arg c gid tid loc team aux : Nat) : State :=
  s.streamPut die 0 (record 256 [(0, 1, kind), (1, 1, arg), (2, 2, c), (4, 4, (Config.gridTag gid tid).toNat), (8, 8, loc),
    (16, 8, s.time), (24, 4, team), (28, 4, aux)])

/-- A record about a team names lane 0 of its first wave, with PC 0 before it has issued (R241). -/
def State.teamLoc (s : State) (t : Team) : Nat :=
  match minBy (fun w : Wave => w.idx) (s.wavesOf t.tid) with
  | some w => s.laneLoc t w.slot 0 (if (w.lane 0).ran then (w.lane 0).pc else 0)
  | none => s.laneLoc t 0 0 0
def State.traceTeam (s : State) (kind arg : Nat) (t : Team) (aux : Nat) : State :=
  s.trace t.die kind arg t.ctx t.gid t.tid (s.teamLoc t) t.ordinal aux
/-- A record about a lane. -/
def State.traceLane (s : State) (kind arg : Nat) (t : Team) (w : Wave) (L : Nat) (pc : Word) (aux : Nat) : State :=
  s.trace t.die kind arg t.ctx t.gid t.tid (s.laneLoc t w.slot L pc) t.ordinal aux

end Sys2Proof.Machine
end

