-- ==== Sys2Proof/Machine/Ops.lean ====
section
/-!
DEFINITION. Taking a trap, halting, faulting a team and stopping a context, the collection window, entry into the
handler and the return from it (R208 to R214, R247 to R249, R385, R387).
-/

namespace Sys2Proof.Machine

/-! ## Traps (R208, R211, R212) -/

/-- A trap of one lane: kind, PC of the instruction, where the lane parks, and what TRAPINFO2 to 4 hold. -/
structure Trap where
  kind : Nat
  pc : Word
  /-- lpc of the parked lane. -/
  stop : Word
  /-- VA bits [71:64] in TRAPINFO0. -/
  vaHi : Nat := 0
  info2 : Word := 0
  info3 : Word := 0
  info4 : Word := 0
  /-- Hints that the lane keeps (R199). -/
  keep : List Hint := []
  /-- Cycle at which the trapping instruction was issued, where that is not now (R211). -/
  issued : Option Nat := none
deriving DecidableEq, Repr

/-- Trap kinds (R212). -/
def tkILLEGAL : Nat := 1
def tkILLHINT : Nat := 2
def tkEMPTYREG : Nat := 3
def tkREGRANGE : Nat := 4
def tkMISALIGN : Nat := 5
def tkPAGEFAULT : Nat := 6
def tkACCESS : Nat := 7
def tkFPX : Nat := 8
def tkFMTDIV : Nat := 9
def tkROUTINE : Nat := 10
def tkSCHEDMISS : Nat := 11
def tkASSERT : Nat := 12
def tkBREAK : Nat := 13
def tkTICKETPOISON : Nat := 14
def tkUNITABSENT : Nat := 15
def tkESTREGION : Nat := 16
def tkSLOTHANDLE : Nat := 17
def tkCLUSTERRANGE : Nat := 18
def tkDEFSTORE : Nat := 19
def tkUSER : Nat := 20
def tkFMTILL : Nat := 21

/-- A trap at the lane's own instruction, with TRAPINFO4: the lane keeps its hints (R199). -/
def Lane.trapHere (l : Lane) (kind : Nat) (info4 : Word) : Trap := { kind, pc := l.pc, stop := l.pc, info4, keep := l.hints }
/-- A trap that names a virtual address in TRAPINFO0, 2 and 3. -/
def Trap.withVa (t : Trap) (va : Nat) : Trap :=
  { t with vaHi := va / 2 ^ 64 % 256, info2 := BitVec.ofNat 32 va, info3 := BitVec.ofNat 32 (va / 2 ^ 32) }
/-- A trap that names a scratchpad offset. -/
def Trap.withOff (t : Trap) (off : Nat) : Trap := { t with info2 := BitVec.ofNat 32 off, info3 := 0xFFFFFFFF }

/-- What TRAPINFO0 to 5 hold after a trap (R211). -/
def Trap.info (t : Trap) (primary : Nat) : List Word :=
  [BitVec.ofNat 32 (t.kind + 256 * t.vaHi), t.pc, t.info2, t.info3, t.info4, BitVec.ofNat 32 primary]

/-- An access that the lane had issued has lost its path while the lane stood parked or halted: ACCESS of detail 1, attributed to
the access, at the lane's next issue (R17). -/
def Lane.lostTrap (l : Lane) : Option Trap :=
  if l.inHandler then none
  else l.lost.map (fun x => ({ l.trapHere tkACCESS 1 with pc := x.1, issued := some x.2.2 } : Trap).withVa x.2.1.toNat)
/-- A lane that a DUMP found stopped and that has not resumed since (R250). -/
def Lane.stillDumped (l : Lane) : Bool := l.dumped && l.st != .run
/-- The lane parks: nothing of the instruction lands or performs for it, and one that it executes again claims anew (R208, R335, R349;
log 128). -/
def Lane.park (l : Lane) (t : Trap) (primary : Nat) : Lane :=
  { l with st := .trapped, pc := t.stop, trapinfo := t.info primary, hints := t.keep, fill := none, begun := false, wake := none, stepping := false
           claim := none, replay := none, lost := if l.lostTrap == some t then none else l.lost, dumped := l.stillDumped }

/-- TRAPINFO0 names this kind. -/
def Lane.trapKind (l : Lane) : Nat := (l.trapinfo.getD 0 0).toNat % 256

/-- A window with one more lane, whose instruction was issued at this cycle: the lowest lane of the earliest-issued instruction is the
primary one (R211). -/
def Window.add (cycle : Nat) (pc : Word) (issued L : Nat) (x : Option Window) : Window :=
  match x with
  | none => { openedAt := cycle, pc, primary := L, issued, lanes := 1#32 <<< L }
  | some v =>
    { v with
      primary := if issued < v.issued then L else if issued = v.issued then min L v.primary else v.primary
      issued := min issued v.issued, lanes := v.lanes ||| (1#32 <<< L) }
/-- A parked or halted lane of a window holds its primary lane (R211). -/
def Lane.underPrimary (l : Lane) (n : Nat) : Lane :=
  if l.st == .trapped || l.st == .halted then { l with trapinfo := l.trapinfo.set 5 (BitVec.ofNat 32 n) } else l
/-- The collection window that the wave's lanes open, join and close now: while the handler runs, one of its own (R208; log 18). -/
def Wave.win (w : Wave) : Option Window := if w.handling then w.next else w.window
def Wave.setWin (w : Wave) (x : Option Window) : Wave := if w.handling then { w with next := x } else { w with window := x }
/-- A lane that has just parked or halted opens the collection window or joins it. TRAPINFO5 of every lane of the window names the primary
lane (R208, R211). -/
def Wave.join (w : Wave) (cycle : Nat) (pc : Word) (issued L : Nat) : Wave :=
  let v := Window.add cycle pc issued L w.win
  let w1 := w.setWin (some v)
  (maskLanes v.lanes).foldl (fun w M => w.updLane M (fun l => l.underPrimary v.primary)) w1

/-! ## Tickets and team faults (R70, R75, R210) -/

def Grid.ticketsOf (g : Grid) (ordinal : Nat) : Tickets := (Tab.find g.tickets ordinal).getD {}
def Grid.updTickets (g : Grid) (ordinal : Nat) (f : Tickets → Tickets) : Grid :=
  { g with tickets := Tab.put g.tickets ordinal (f (g.ticketsOf ordinal)) }
/-- Ticket state applies to dealt teams of an ordered grid (R70, R345). -/
def ticketed (g : Grid) (t : Team) : Bool := g.ordered && t.kind == .dealt

/-- A team exits normally: every ticket it has not taken is taken (R70). -/
def Grid.takeAll (g : Grid) (ordinal : Nat) : Grid := g.updTickets ordinal (fun x => { x with taken := ~~~x.poisoned })
/-- What is to be dealt again, less the teams above one that has faulted: they are not placed any more (R70). A chunk would take a new
ordinal, above it too (R86). -/
def Grid.dropStopped (g : Grid) : Grid :=
  match g.stopAt with
  | none => g
  | some n => { g with redeal := if g.isJob then [] else g.redeal.filter (fun x => decide (x.base < n)) }
/-- A team faults: every ticket it has not taken is poisoned, and no higher team is placed (R70). -/
def Grid.poisonAll (g : Grid) (ordinal : Nat) : Grid :=
  let g1 := g.updTickets ordinal (fun x => { x with poisoned := ~~~x.taken })
  ({ g1 with stopAt := some (match g.stopAt with | none => ordinal + 1 | some n => min n (ordinal + 1)) } : Grid).dropStopped

/-- Posted accesses of a team's lanes that have still to perform (R74). -/
def State.teamPosted (s : State) (tid : Nat) : Bool := s.accs.any (fun a => a.tid == tid && a.posted && !a.refused)
/-- Every lane of the wave has exited. -/
def Wave.ended (w : Wave) : Bool := w.lanes.all (fun l => l.st == .exited)
/-- Every lane of the team has exited. -/
def State.allExited (s : State) (tid : Nat) : Bool := (s.wavesOf tid).all Wave.ended

/-- The tickets that a team's exit takes: those that it has not taken (R70). -/
def Grid.untaken (g : Grid) (ordinal : Nat) : List Nat :=
  (List.range 16).filter (fun n => !(g.ticketsOf ordinal).taken.getLsbD n && !(g.ticketsOf ordinal).poisoned.getLsbD n)
/-- A team has exited, and its writes have performed: it takes the tickets that it has not taken, and what its lanes have accessed is ordered
before what waits for these (R70, R153). -/
def State.exitTickets (s : State) (tid : Nat) : State :=
  match s.team? tid with
  | some t =>
    let g := s.gridOf t
    if s.allExited tid && !t.faulted && ticketed g t && !s.teamPosted tid then
      (s.release (s.teamWhos t) 5 ((g.untaken t.ordinal).map (fun n => .ticket t.gid t.ordinal n))).updGrid t.gid (fun g => g.takeAll t.ordinal)
    else s
  | none => s
/-- A team faults (R70, R210, R214). -/
def State.faultTeam (s : State) (tid : Nat) : State :=
  match s.team? tid with
  | none => s
  | some t =>
    if t.faulted then s
    else
      let s1 := s.updTeam tid (fun t => { t with faulted := true })
      s1.updGrid t.gid (fun g =>
        let g1 := { g with faulted := true }
        if ticketed g t then g1.poisonAll t.ordinal else g1)

/-- An access whose lane is gone: nobody gets what it returns, and a write counts for its grid until it performs (R74, R146). -/
def Acc.orphan (a : Acc) : Acc :=
  { a with mute := true, posted := a.posted || a.op.isWrite
           op := match a.op with | .atom aop x y _ => .atom aop x y none | op => op }

/-- The lane is parked on a fault record (R104, R197). -/
def Lane.onFault (l : Lane) : Bool := match l.st with | .faulted _ => true | _ => false
/-- With no handler, a team with a trapped lane faults once every other lane has exited or parked (R214). -/
def State.checkStuck (s : State) (tid : Nat) : State :=
  match s.team? tid with
  | none => s
  | some t =>
    let ls := (s.wavesOf tid).flatMap Wave.lanes
    if (s.ctx t.ctx).handler == 0 && ls.any (fun l => l.st == .trapped && l.trapKind != tkASSERT) && ls.all (fun l => l.gone || l.onFault) then
      s.faultTeam tid
    else s

/-! ## Halting (R247, R248, R249) -/

/-- A blocked lane gives up its wait: what the waiting instruction marked empty is as before, and an arrival in a phase
that it still waits for is withdrawn (R249, R342; log 17). -/
def Lane.giveUp (l : Lane) : Lane :=
  match l.st with
  | .blocked (.ordwait _ d) => { l with regs := listUpd l.regs d (fun r => { r with full := true }), st := .run }
  | .blocked (.ldfe _ _ n d _ _) =>
    let k := max 1 (n / 4)
    { l with regs := (List.range k).foldl (fun rs i => listUpd rs (d + i) (fun r => { r with full := true })) l.regs, st := .run }
  | .blocked (.topk _ _ (.ins _ d _ _) _) => { l with regs := listUpd l.regs d (fun r => { r with full := true }), st := .run }
  | .blocked (.topk _ _ (.mrg _ _ d) _) => { l with regs := listUpd l.regs d (fun r => { r with full := true }), st := .run }
  | .blocked _ => { l with st := .run }
  | _ => l

/-- The lane halts at a PC, with TRAPINFO of kind BREAK (R247). -/
def Lane.halt (l : Lane) (pc : Word) (stop : Word) (info4 : Word) (primary : Nat) : Lane :=
  { l.giveUp with
    st := .halted, pc := stop, stepping := false, stepped := false, dumped := l.stillDumped
    trapinfo := [BitVec.ofNat 32 tkBREAK, pc, 0, 0, info4, BitVec.ofNat 32 primary] }

/-- The wave takes a HALTID when its first lane halts (R248). -/
def State.takeHaltId (s : State) (c uid : Nat) : State :=
  match s.wave? uid with
  | none => s
  | some w =>
    if w.haltId = 0 then
      let id := (s.ctx c).haltNext
      (s.updWave uid (fun w => { w with haltId := id })).updCtx c (fun x => { x with haltNext := id + 1 })
    else s

/-- An arrival that is withdrawn when its lane halts inside BAR.sync or BAR.csync (R342; log 17). -/
def State.withdraw (s : State) (w : Wave) (L : Nat) : State :=
  match (w.lane L).st with
  | .blocked (.bar b ph false true) =>
    s.updTeam w.tid (fun t => { t with bars := listUpd t.bars b (fun x =>
      if x.phase == ph then
        { x with arrived := x.arrived &&& ~~~(1#1024 <<< (32 * w.idx + L)), last := Tab.drop x.last (32 * w.idx + L) }
      else x) })
  | _ => s

/-- Lanes of a wave halt: each with the PC it reports, where it stops and its detail. They open or join a window, and a
HALT record is written for each (R247, R248, R252). -/
def State.haltLanes (s : State) (uid : Nat) (hs : List (Nat × Word × Word × Word)) : State :=
  match s.wave? uid, hs with
  | some w, _ :: _ =>
    let t := s.teamOf w
    let s1 := (hs.foldl (fun s h => s.withdraw w h.1) s).updWave uid (fun w =>
      hs.foldl (fun w h => (w.updLane h.1 (fun l => l.halt h.2.1 h.2.2.1 h.2.2.2 0)).join s.cycle h.2.1 s.cycle h.1) w)
    let s2 := s1.takeHaltId t.ctx uid
    let hid := ((s2.wave? uid).map Wave.haltId).getD 0
    hs.foldl (fun s h => s.traceLane 9 (h.2.2.2.toNat % 256) t w h.1 h.2.2.1 hid.toNat) s2
  | _, _ => s

/-- A lane that HALTCTX halts: not exited, not parked, not halted (R249). -/
def Lane.haltable (l : Lane) : Bool :=
  match l.st with
  | .exited => false
  | .trapped => false
  | .faulted _ => false
  | .halted => false
  | _ => true

/-- Every such lane of a context halts at its lpc with detail 0xFE (R249, R385). -/
def State.haltCtx (s : State) (c : Nat) : State :=
  s.waves.foldl (fun s w =>
    if (s.teamOf w).ctx == c then
      s.haltLanes w.uid (((List.range w.lanes.length).filter (fun L => (w.lane L).haltable)).map
        (fun L => (L, (w.lane L).pc, (w.lane L).pc, 0xFE)))
    else s) s

/-- A context stops as TRAP.ASSERT stops it: the event, CTXSTAT.ASSERTED, the other lanes halt, every team faults
(R210, R385). -/
def State.stopCtx (s : State) (t : Team) (w : Wave) (L : Nat) (pc : Word) (msg : Nat) : State :=
  let s1 := s.haltCtx t.ctx
  let s2 := s1.updCtx t.ctx (fun x => { x with asserted := true })
  let s3 := s2.event 10 t.ctx 0xFFFF 0 [(24, 2, t.core), (26, 2, w.slot), (28, 1, L), (32, 4, pc.toNat), (36, 9, msg)]
  (s3.teams.filter (fun u => u.ctx == t.ctx && u.st != .retired)).foldl (fun s u => s.faultTeam u.tid) s3

/-! ## Taking traps -/

/-- Lanes of a wave trap: they park with their TRAPINFO, the window opens or is joined, each is traced, and one that was running the
handler stops the context (R208, R210, R211, R214). -/
def State.takeTraps (s : State) (uid : Nat) (ts : List (Nat × Trap)) : State :=
  match s.wave? uid, ts with
  | some w, _ :: _ =>
    let t := s.teamOf w
    let s1 := s.updWave uid (fun w =>
      ts.foldl (fun w x => (w.updLane x.1 (fun l => l.park x.2 0)).join s.cycle x.2.pc (x.2.issued.getD s.cycle) x.1) w)
    let s2 := ts.foldl (fun s x => s.traceLane 5 x.2.kind t w x.1 x.2.stop x.2.info4.toNat) s1
    let s3 := match ts.find? (fun x => (w.lane x.1).inHandler && x.2.kind != tkASSERT) with
      | some x => s2.stopCtx t w x.1 x.2.pc 0
      | none => s2
    s3.checkStuck w.tid
  | _, _ => s

/-! ## Parking on a fault record (R20, R104) -/

/-- Lanes of one instruction fault on one page: they share one record and park on it. Nothing of the instruction
performs for them; the record keeps the operands for the replay. -/
def State.parkFault (s : State) (uid : Nat) (lanes : List Nat) (cause kind va : Nat) (pc : Word) : State :=
  match s.wave? uid with
  | none => s
  | some w =>
    let t := s.teamOf w
    let (seq, s1) := s.raiseFault t.ctx cause kind va t.die t.core w.slot (lanesMask lanes) pc 0 (.lanes uid (lanesMask lanes))
    let s2 := s1.updWave uid (fun w => lanes.foldl (fun w L => w.updLane L (fun l => { l with st := .faulted seq, dumped := l.stillDumped })) w)
    (s2.updGrid t.gid (fun g => if g.firstFault = 0 then { g with firstFault := seq } else g)).checkStuck w.tid

/-! ## The window and the handler (R208, R209, R214, R387) -/

/-- A parked lane that is handed to the handler: a trap other than ASSERT, a handler address, and a context that no TRAP.ASSERT has stopped
(R209, R210, R214). -/
def Lane.deliverable (l : Lane) : Bool := l.st == .trapped && l.trapKind != tkASSERT && !l.inHandler
def State.deliver (s : State) (w : Wave) : List Nat :=
  if (s.ctx (s.teamOf w).ctx).handler = 0 || (s.ctx (s.teamOf w).ctx).asserted then []
  else (List.range w.lanes.length).filter (fun L => (w.lane L).deliverable)

/-- Held lanes resume, those of the handler or the others (R208). -/
def Wave.release (w : Wave) (handler : Bool) : Wave :=
  { w with lanes := w.lanes.map (fun l => if l.st == .held && l.inHandler == handler then { l with st := .run } else l) }

/-- Nobody is left for the held lanes to resume with: no lane of the wave is halted or goes to the handler, which does not run (R208;
log 18). -/
def State.nobodyWaits (s : State) (w : Wave) : Bool :=
  (w.handling || s.deliver w == []) && w.lanes.all (fun l => l.st != .halted || l.inHandler != w.handling)
/-- The window closes: lanes still eligible are held, until the others resume (R208; log 18). -/
def State.closeWindow (s : State) (uid : Nat) : State :=
  match s.wave? uid with
  | none => s
  | some w =>
    match w.win with
    | none => s
    | some win =>
      if s.nobodyWaits w then s.updWave uid (fun w => (w.release w.handling).setWin none)
      else
        s.updWave uid (fun w => ({ w with
          lanes := w.lanes.map (fun l => if w.laneOn l then { l with st := .held } else l) } : Wave).setWin (some { win with closed := true }))

/-- Some issued result of the wave has still to land in a register (R209, R87). -/
def AccOp.lands : AccOp → Bool
  | .load _ _ => true
  | .atom _ _ _ d => d.isSome
  | .eld _ _ _ => true
  | .eraw _ _ _ => true
  | _ => false
/-- It fills operand memory of its wave (R359). -/
def AccOp.inSlot : AccOp → Bool
  | .mldData _ _ => true
  | .mldScale _ _ => true
  | _ => false
def State.pending (s : State) (uid : Nat) : Bool :=
  s.lands.any (fun x => x.uid == uid) || s.accs.any (fun a => a.uid == uid && a.op.lands && !a.mute)

/-- The wave's 64 KiB handler area (R209). -/
def handlerArea (hstackva die core slot : Nat) : Nat := hstackva + 65536 * (48 * (48 * die + core) + slot)

/-- A lane enters the handler (R209). -/
def Lane.enter (l : Lane) (handler : Nat) : Lane :=
  { l with st := .run, resumepc := l.pc, entryPc := l.pc, pc := BitVec.ofNat 32 handler, aside := l.hints, hints := [], inHandler := true }

/-- Handler entry (R209). -/
def State.enterHandler (s : State) (uid : Nat) : State :=
  match s.wave? uid with
  | none => s
  | some w =>
    let t := s.teamOf w
    let c := s.ctx t.ctx
    let ls := s.deliver w
    match w.window with
    | some win =>
      if win.closed && ls != [] && !w.handling && !s.pending uid then
        s.updWave uid (fun w =>
          let w1 := ls.foldl (fun w L => w.updLane L (fun l => l.enter c.handler)) w
          { w1 with
            handlerB15 := some (w.bases.getD 15 0)
            bases := w.bases.set 15 (BitVec.ofNat 72 (handlerArea c.hstackva t.die t.core w.slot)) })
      else s
    | none => s

/-- A lane that executed RFT continues at RESUMEPC, with its hints when RESUMEPC is as at entry (R199, R387). -/
def Lane.leave (l : Lane) : Lane :=
  if l.st == .returned then
    { l with st := .run, pc := l.resumepc, hints := if l.resumepc == l.entryPc then l.aside else [], aside := [], inHandler := false }
  else { l with inHandler := false, aside := [] }

/-- The window of lanes that trapped or halted while the handler ran stays, if one of them is still so; one that had closed opens anew, since
lanes go on now (R208; log 18). -/
def Wave.nextWindow (w : Wave) (cycle : Nat) : Option Window :=
  match w.next with
  | some v =>
    if (maskLanes v.lanes).any (fun L => (w.lane L).st == .trapped || (w.lane L).st == .halted) then
      some (if v.closed then { v with openedAt := cycle, closed := false } else v)
    else none
  | none => none
/-- Once every handler lane has executed RFT or exited, the handler ends (R387). -/
def State.endHandler (s : State) (uid : Nat) : State :=
  match s.wave? uid with
  | none => s
  | some w =>
    match w.handlerB15 with
    | none => s
    | some b15 =>
      if w.lanes.all (fun l => !l.inHandler || l.st == .returned || l.st == .exited) then
        s.updWave uid (fun w => { w with
          lanes := (w.release false).lanes.map Lane.leave
          bases := w.bases.set 15 b15, handlerB15 := none, window := w.nextWindow s.cycle, next := none })
      else s

end Sys2Proof.Machine
end

