-- ==== Sys2Proof/Machine/Operands.lean ====
section
/-!
DEFINITION. Operand forms and issue: the hints a lane holds (R281 to R287), what an instruction names (R267, R268), the
checks of R288 in their order, readiness (R198, R204, R205), and issuing an instruction for its minimum-PC set.
-/

namespace Sys2Proof.Machine

/-! ## Hints (R281 to R286) -/

/-- The hints a lane holds, by kind. -/
structure HintSet where
  sched : Option (BitVec 25) := none
  xim : Option (BitVec 25) := none
  xsrc : Option (BitVec 25) := none
  xmod : Option (BitVec 25) := none
  prd : Option (BitVec 25) := none
deriving DecidableEq, Repr

def hintOf (major : Nat) (hs : List Hint) : Option (BitVec 25) := (hs.find? (fun h => h.major.toNat == major)).map Hint.pay
def hintSet (hs : List Hint) : HintSet :=
  { sched := hintOf 0x7B hs, xim := hintOf 0x7C hs, xsrc := hintOf 0x7D hs, xmod := hintOf 0x7E hs, prd := hintOf 0x7F hs }

/-- KIND and VALUE of XSRC (R284). -/
def xsKind (x : BitVec 25) : Nat := (x.extractLsb' 23 2).toNat
def xsVal (x : BitVec 25) : Nat := (x.extractLsb' 0 20).toNat
/-- Byte offset of an XIMM before an M or MA form (R283). -/
def ximOff (h : HintSet) : Int := match h.xim with | none => 0 | some x => x.toInt
/-- The immediate of an RI form (R283). -/
def riImm (h : HintSet) (i : BitVec 10) : Word :=
  match h.xim with
  | none => i.signExtend 32
  | some x => x.extractLsb' 0 22 ++ i

/-! ## Forms -/

/-- Source registers from r upward; trap: an empty one raises EMPTYREG instead of blocking (R204). -/
structure Src where
  r : Nat
  n : Nat := 1
  trap : Bool := false
deriving DecidableEq, Repr

/-- What the checks of R288 need to know of an instruction with given hints. -/
structure Form where
  /-- Hints accepted besides SCHED (R287). -/
  prd : Bool := true
  xim : Bool := false
  xsrc : Bool := false
  xmod : Bool := false
  /-- G: 0 none, 1 p1, 2 p2, 3 the PRED hint; 4 for formats without G, guarded by a PRED hint if there is one. -/
  g : Nat := 4
  /-- SEL executes for every lane of its set (R269). -/
  unguarded : Bool := false
  /-- A hint: the checks of the hints held wait for the instruction they precede (R281). -/
  isHint : Bool := false
  /-- A word-level value is illegal (R288, check 2). -/
  bad : Bool := false
  /-- The XMOD rules of R285: SR accepted, M-format store, M or MA format, EST, SCOPE used. -/
  sr : Bool := false
  store : Bool := false
  mfmt : Bool := false
  est : Bool := false
  scp : Bool := false
  /-- RI form: XIMM [24:22] must be zero (R283). -/
  ri : Bool := false
  /-- FEATURES bit of the unit the word names (R4). -/
  unit : Option Nat := none
  srcs : List Src := []
  /-- First destination register and count. -/
  dsts : List (Nat × Nat) := []
  /-- Slot handles that must be held (R288, check 4). -/
  handles : List Nat := []
deriving DecidableEq, Repr

/-- A form depends on the hints held and on whether the lane runs the handler (R388). -/
abbrev FormF := HintSet → Bool → Form

/-- An XMOD payload that R285 forbids on this form. -/
def xmodBad (f : Form) (x : BitVec 25) : Bool :=
  x.extractLsb' 19 6 != 0 || xmRM x == 5 || xmRM x == 6 || (xmRM x == 4 && !f.sr) || (xmET x && !f.store) ||
    (xmEA x && !f.mfmt) || (xmWT x && !f.est) || (xmSCOPE x == 7 && f.scp)
/-- An XSRC payload that R284 forbids. -/
def xsrcBad (x : BitVec 25) : Bool :=
  xsKind x == 3 || x.extractLsb' 20 3 != 0 || (xsKind x == 0 && decide (128 ≤ xsVal x)) || (xsKind x == 1 && decide (39 ≤ xsVal x))
def predBad (x : BitVec 25) : Bool := x.extractLsb' 0 17 != 0
def schedBad (x : BitVec 25) : Bool := x.extractLsb' 2 23 != 0 || x.extractLsb' 0 2 == 3
def ximBad (f : Form) (x : BitVec 25) : Bool := f.ri && x.extractLsb' 22 3 != 0
def optBad (o : Option (BitVec 25)) (p : BitVec 25 → Bool) : Bool := match o with | none => false | some x => p x

/-- Some hint payload holds a value the instruction forbids (R281). -/
def hintsBad (f : Form) (h : HintSet) : Bool :=
  optBad h.prd predBad || optBad h.sched schedBad || optBad h.xim (ximBad f) || optBad h.xsrc xsrcBad || optBad h.xmod (xmodBad f)

/-- The form accepts a hint of this major (R287). -/
def Form.accepts (f : Form) (major : Nat) : Bool :=
  match major with
  | 0x7B => true
  | 0x7C => f.xim
  | 0x7D => f.xsrc
  | 0x7E => f.xmod
  | _ => f.prd && (f.g == 3 || f.g == 4)

/-- A PRED payload holds for a lane (R282). -/
def predHolds (l : Lane) (x : BitVec 25) : Bool := (l.p (x.extractLsb' 18 7).toNat) != x.getLsbD 17
/-- The guard passes (R269). -/
def guardPass (f : Form) (h : HintSet) (l : Lane) : Bool :=
  if f.unguarded then true
  else
    match f.g with
    | 0 => true
    | 1 => l.p 1
    | 2 => l.p 2
    | _ => match h.prd with | none => true | some x => predHolds l x

/-! ## The checks (R288) -/

/-- What becomes of a lane of the minimum-PC set. -/
inductive Fate where
  /-- The guard fails: the lane only advances (R198). -/
  | skip
  | run
  /-- An empty register that it must wait for, and whether that is a source (R245). -/
  | wait (reg : Nat) (src : Bool)
  | trap (t : Trap)
  /-- It traps with EMPTYREG when the instruction issues (R204). -/
  | empty (t : Trap)
deriving DecidableEq, Repr

/-- The registers an instruction reads: for a replay, or after a claim, as they stood at first issue (R105, R349). -/
def Lane.srcRegs (l : Lane) : List Reg := match l.replay with | some x => x.regs | none => l.regs
/-- The first register of a span at or above REGS (R202, R268). -/
def overRange (regs r n : Nat) : Option Nat := if n = 0 then none else if regs < r + n then some (max r regs) else none
def lowestOf : List (Option Nat) → Option Nat
  | [] => none
  | none :: xs => lowestOf xs
  | some a :: xs => match lowestOf xs with | none => some a | some b => some (min a b)
/-- The lowest register index out of range that the word names (R268; log 19). -/
def Form.outOfRange (f : Form) (regs : Nat) : Option Nat :=
  lowestOf (f.srcs.map (fun x => overRange regs x.r x.n) ++ f.dsts.map (fun x => overRange regs x.1 x.2))
/-- The lowest handle that is not held (R357). -/
def Form.unheld (f : Form) (w : Wave) : Option Nat :=
  lowestOf (f.handles.map (fun h => if (w.handles.getD h none).isSome then none else some h))
/-- The first empty register of a span. -/
def firstEmpty (rs : List Reg) (ok : Reg → Bool) (r n : Nat) : Option Nat :=
  ((List.range n).map (fun i => r + i)).find? (fun i => !ok (rs.getD i {}))
def firstSome {α β : Type} (f : α → Option β) : List α → Option β
  | [] => none
  | x :: xs => match f x with | some y => some y | none => firstSome f xs

/-- Checks 1 and 2 of R288: hints, then word-level values. -/
def wordTrap (f : Form) (h : HintSet) (l : Lane) : Option Trap :=
  if f.isHint then none
  else
  match l.hints.find? (fun x => !f.accepts x.major.toNat) with
  | some x =>
    some { kind := tkILLHINT, pc := x.pc, stop := x.pc, info4 := BitVec.ofNat 32 x.major.toNat,
           keep := l.hints.takeWhile (fun y => f.accepts y.major.toNat) }
  | none =>
    if f.bad || hintsBad f h || (f.g == 3 && h.prd.isNone) then some (l.trapHere tkILLEGAL 0) else none

/-- Checks 3 and 4 of R288: absent units, registers beyond REGS, unheld handles. -/
def nameTrap (s : State) (w : Wave) (f : Form) (l : Lane) : Option Trap :=
  match f.unit.bind (fun u => if s.hasUnit u then none else some u) with
  | some u => some (l.trapHere tkUNITABSENT (BitVec.ofNat 32 u))
  | none =>
    match f.outOfRange l.regs.length with
    | some r => some (l.trapHere tkREGRANGE (BitVec.ofNat 32 r))
    | none =>
      match f.unheld w with
      | some h => some (l.trapHere tkSLOTHANDLE (BitVec.ofNat 32 h))
      | none => none

/-- EMPTYREG of register r (R204). -/
def emptyTrap (l : Lane) (r : Nat) : Trap :=
  let x := l.srcRegs.getD r {}
  { l.trapHere tkEMPTYREG (BitVec.ofNat 32 (r + 128 * b2n x.fault)) with info2 := x.tag }

/-- What becomes of a lane of the set. -/
def fate (s : State) (w : Wave) (ff : FormF) (l : Lane) : Fate :=
  let h := hintSet l.hints
  let f := ff h l.inHandler
  match (match l.lostTrap with | some t => some t | none => wordTrap f h l) with
  | some t => .trap t
  | none =>
    if !guardPass f h l then .skip
    else
      match nameTrap s w f l with
      | some t => .trap t
      | none =>
        match firstSome (fun x : Src => if x.trap then none else firstEmpty l.srcRegs Reg.full x.r x.n) f.srcs with
        | some r => .wait r true
        | none =>
          match (if l.claim.isSome || l.replay.isSome then none
            else firstSome (fun x : Nat × Nat => firstEmpty l.regs Reg.full x.1 x.2) f.dsts) with
          | some r => .wait r false
          | none =>
            match firstSome (fun x : Src => if x.trap then firstEmpty l.srcRegs Reg.full x.r x.n else none) f.srcs with
            | some r => .empty (emptyTrap l r)
            | none => .run

/-! ## Issue (R81, R198, R249) -/

/-- What a meaning is given: the wave as it stood (sources of a replay as they were), its team and grid, and the
executing lanes. -/
structure Iss where
  w : Wave
  t : Team
  g : Grid
  E : List Nat
deriving DecidableEq, Repr

def Iss.c (i : Iss) : Nat := i.t.ctx
def Iss.uid (i : Iss) : Nat := i.w.uid
/-- Lane L as the instruction reads it. -/
def Iss.l (i : Iss) (L : Nat) : Lane := i.w.lane L
/-- The hints lane L holds. -/
def Iss.h (i : Iss) (L : Nat) : HintSet := hintSet (i.l L).hints
def Iss.die (i : Iss) : Nat := i.t.die
def Iss.core (i : Iss) : Nat := coreIx i.t.die i.t.core

/-- Traps of an instruction, by lane. -/
abbrev Traps := List (Nat × Trap)

/-- The quadrant of a wave: 4 · (48 · die + core) + slot mod 4 (R64, R196). -/
def quadOf (t : Team) (w : Wave) : Nat := 4 * coreIx t.die t.core + w.slot % 4

/-- The effect of SCHED on the next choice (R81, R286). -/
def schedOf (hs : List Hint) : Nat := match (hintSet hs).sched with | none => 0 | some x => (x.extractLsb' 0 2).toNat

/-- Stepped lanes that have done their instruction halt (R249). -/
def State.stepHalt (s : State) (uid : Nat) : State :=
  match s.wave? uid with
  | none => s
  | some w =>
    let ls := (List.range w.lanes.length).filter (fun L => (w.lane L).stepped && (w.lane L).st == .run)
    s.haltLanes uid (ls.map (fun L => (L, (w.lane L).pc, (w.lane L).pc, 0xFD)))

/-- A lane that has issued: no further exemption from comparators, and no write of it held by a DUMP (R249, R241, R250). -/
def Lane.noted (l : Lane) : Lane := { l with noBreak := false, ran := true, dumped := false }
/-- What an issue leaves behind: the wave has issued, its quadrant has issued in this cycle, the SCHED effect of the instruction that SCHED
precedes, which no hint between them takes (R286). -/
def State.noteIssue (s : State) (w : Wave) (t : Team) (set : List Nat) (hint : Bool) : State :=
  let eff := if hint then 0 else (set.map (fun L => schedOf (w.lane L).hints)).foldl max 0
  let s1 := s.updWave w.uid (fun x => { x with
    lastIssue := s.dieCycle t.die, issPc := (w.lane (set.headD 0)).pc, issLanes := lanesMask set
    sched := if eff = 0 && x.schedAt == s.dieCycle t.die then x.sched else eff, schedAt := s.dieCycle t.die
    lanes := set.foldl (fun ls L => listUpd ls L Lane.noted) x.lanes })
  ({ s1 with issued := quadOf t w :: s1.issued }).addActivity t.die t.ctx 32

def fatesOf (s : State) (w : Wave) (ff : FormF) (set : List Nat) : List (Nat × Fate) :=
  set.map (fun L => (L, fate s w ff (w.lane L)))
def trapsOf (fs : List (Nat × Fate)) (withEmpty : Bool) : Traps :=
  fs.filterMap (fun x => match x.2 with
    | .trap t => some (x.1, t)
    | .empty t => if withEmpty then some (x.1, t) else none
    | _ => none)
def runsOf (fs : List (Nat × Fate)) : List Nat :=
  fs.filterMap (fun x => match x.2 with | .run => some x.1 | _ => none)
def skipsOf (fs : List (Nat × Fate)) : List Nat :=
  fs.filterMap (fun x => match x.2 with | .skip => some x.1 | _ => none)
def anyWait (fs : List (Nat × Fate)) : Bool := fs.any (fun x => match x.2 with | .wait _ _ => true | _ => false)

/-- Traps in ascending lane order. -/
def orderTraps (ts : Traps) : Traps := (List.range 32).flatMap (fun L => ts.filter (fun x => x.1 == L))

/-- A wave whose source registers are those of a replay (R105). -/
def Wave.forReplay (w : Wave) : Wave :=
  { w with lanes := w.lanes.map (fun l => { l with regs := l.srcRegs }) }

/-- The set waits: lanes that trap on checks 1 to 4 park, the others stay (R198, R288). -/
def State.hold (s : State) (uid : Nat) (ts : Traps) : State :=
  { (s.takeTraps uid (orderTraps ts)) with tried := uid :: s.tried }

/-- Issue an instruction of this form for the minimum-PC set of the current wave: busy gives the state in which it waits
when a unit it needs cannot accept it (R198); the body performs it for the executing lanes and answers their traps. -/
def State.issue (s : State) (ff : FormF) (busy : State → Iss → Option State) (body : Iss → State → State × Traps) : State :=
  match s.cur with
  | none => s
  | some uid =>
    match s.wave? uid with
    | none => s
    | some w =>
      let set := w.minSet
      let t := s.teamOf w
      let fs := fatesOf s w ff set
      let i : Iss := { w := w.forReplay, t, g := s.gridOf t, E := runsOf fs }
      if set = [] then s
      else if anyWait fs then s.hold uid (trapsOf fs false)
      else
        match (if i.E = [] then none else busy s i) with
        | some s1 => s1.hold uid (trapsOf fs false)
        | none =>
        let s1 := s.updWave uid (fun w => (skipsOf fs).foldl (fun w L => w.updLane L Lane.adv) w)
        let (s2, ts) := if i.E = [] then (s1, []) else body i s1
        ((s2.takeTraps uid (orderTraps (trapsOf fs true ++ ts))).noteIssue w t set (ff {} false).isHint).stepHalt uid

def never : State → Iss → Option State := fun _ _ => none
/-- Wait, changing nothing, while a condition holds. -/
def waitIf (p : State → Iss → Bool) : State → Iss → Option State := fun s i => if p s i then some s else none

/-- What a register instruction makes of one lane: the lane as it goes on, or the lane and its trap. -/
inductive LRes where
  | ok (l : Lane)
  | trap (l : Lane) (t : Trap)
deriving DecidableEq, Repr

/-- A lane of the wave as it stands. -/
def State.laneNow (s : State) (i : Iss) (L : Nat) : Lane := match s.wave? i.uid with | some w => w.lane L | none => i.l L

/-- Perform a register instruction: sources are read in every lane before any is written (R205, R289). -/
def laneBody (f : State → Iss → Nat → Lane → LRes) (i : Iss) (s : State) : State × Traps :=
  let rs := i.E.map (fun L => (L, f s i L (s.laneNow i L)))
  (s.updWave i.uid (fun w => rs.foldl (fun w r => w.updLane r.1 (fun _ => match r.2 with | .ok l => l | .trap l _ => l)) w),
   rs.filterMap (fun r => match r.2 with | .ok _ => none | .trap _ t => some (r.1, t)))

/-- An instruction that only reads and writes registers. -/
def State.regIssue (s : State) (ff : FormF) (f : State → Iss → Nat → Lane → LRes) : State := s.issue ff never (laneBody f)

/-- Write one register and go on. -/
def Lane.done (l : Lane) (d : BitVec 7) (x : Word) : LRes := .ok (l.set d.toNat x).adv

/-! ## Operand forms (R267, R268) -/

def src (a : BitVec 7) (e : BitVec 1) (n : Nat := 1) : Src := { r := a.toNat, n, trap := e == 1 }
def srcBlk (a : BitVec 7) (n : Nat := 1) : Src := { r := a.toNat, n }
/-- RRR. -/
def fRRR (d a b : BitVec 7) (e f : BitVec 1) (g : BitVec 2) : FormF := fun _ _ =>
  { g := g.toNat, srcs := [src a e, src b f], dsts := [(d.toNat, 1)] }
/-- RRR whose vD is a source too. -/
def fRRRd (d a b : BitVec 7) (e f : BitVec 1) (g : BitVec 2) : FormF := fun _ _ =>
  { g := g.toNat, srcs := [src a e, src b f, srcBlk d], dsts := [(d.toNat, 1)] }
/-- Operand C: vD, an XSRC register, or nothing to wait for (R284). -/
def cSrc (d : BitVec 7) (h : HintSet) : List Src :=
  match h.xsrc with
  | none => [srcBlk d]
  | some x => if xsKind x = 0 then [{ r := xsVal x % 128 }] else []
/-- RRR with operand C (IMAC, FMAC, HMAC2). -/
def fRRRc (xmod : Bool) (d a b : BitVec 7) (e f : BitVec 1) (g : BitVec 2) : FormF := fun h _ =>
  { g := g.toNat, xsrc := true, xmod, srcs := [src a e, src b f] ++ cSrc d h, dsts := [(d.toNat, 1)] }
/-- RRR that accepts XMOD. -/
def fRRRx (sr : Bool) (d a b : BitVec 7) (e f : BitVec 1) (g : BitVec 2) : FormF := fun _ _ =>
  { g := g.toNat, xmod := true, sr, srcs := [src a e, src b f], dsts := [(d.toNat, 1)] }
/-- RRF. -/
def fRRF (d a : BitVec 7) (e : BitVec 1) (g : BitVec 2) : FormF := fun _ _ =>
  { g := g.toNat, srcs := [src a e], dsts := [(d.toNat, 1)] }
/-- RRF that accepts XMOD. -/
def fRRFx (sr : Bool) (d a : BitVec 7) (e : BitVec 1) (g : BitVec 2) : FormF := fun _ _ =>
  { g := g.toNat, xmod := true, sr, srcs := [src a e], dsts := [(d.toNat, 1)] }
/-- RI. -/
def fRI (d a : BitVec 7) (e : BitVec 1) : FormF := fun _ _ =>
  { xim := true, ri := true, srcs := [src a e], dsts := [(d.toNat, 1)] }
/-- CMP: no register destination. -/
def fCMP (a b : BitVec 7) (bad : Bool) : FormF := fun _ _ => { srcs := [srcBlk a, srcBlk b], bad }
/-- SYS and other formats without G: sources, destinations. -/
def fSYS (srcs : List Src) (dsts : List (Nat × Nat)) : FormF := fun _ _ => { srcs, dsts }
/-- SYS that accepts XMOD for TC. -/
def fSYSx (srcs : List Src) (dsts : List (Nat × Nat)) : FormF := fun _ _ => { xmod := true, srcs, dsts }

def eaOf (h : HintSet) : Bool := match h.xmod with | none => false | some x => xmEA x
def etOf (h : HintSet) : Bool := match h.xmod with | none => false | some x => xmET x
/-- M-format load: offset registers (two for memory, one for scratchpad) and destination span (R268, R114). -/
def fLoad (t : BitVec 7) (k : Nat) (a : BitVec 7) (pair : Nat) (ord : BitVec 2) (g : BitVec 2) (bad : Bool) : FormF := fun h _ =>
  { g := g.toNat, xim := true, xmod := true, mfmt := true, scp := ord == 2, bad,
    srcs := [{ r := a.toNat, n := pair, trap := eaOf h }], dsts := [(t.toNat, k)] }
/-- M-format store: offset registers and data span. -/
def fStore (t : BitVec 7) (k : Nat) (a : BitVec 7) (pair : Nat) (ord : BitVec 2) (g : BitVec 2) (bad : Bool) : FormF := fun h _ =>
  { g := g.toNat, xim := true, xmod := true, mfmt := true, store := true, scp := ord == 2, bad,
    srcs := [{ r := a.toNat, n := pair, trap := eaOf h }, { r := t.toNat, n := k, trap := etOf h }] }

/-! ## Addresses (R92, R93, R114) -/

/-- Base register n, for a replay as it stood when the access was issued (R105). -/
def baseOf (w : Wave) (l : Lane) (n : Nat) : Nat :=
  ((match l.replay with | some x => x.bases | none => w.bases).getD n 0).toNat
/-- b[BR] + the offset pair + the XIMM offset, modulo 2^72 (R92). -/
def vaOf (w : Wave) (br : Nat) (l : Lane) (a : Nat) (xoff : Int) : Nat :=
  (((baseOf w l br : Int) + (l.pair a).toInt + xoff) % 2 ^ 72).toNat
/-- The scratchpad byte offset (R114). -/
def spOff (l : Lane) (a : Nat) (xoff : Int) : Nat := ((((l.v a).toNat : Int) + xoff) % 2 ^ 32).toNat

end Sys2Proof.Machine
end

