-- ==== Sys2Proof/Machine/Flags.lean ====
section
/-!
DEFINITION. The sticky exception flags of FPCTL and the trap FPX (R216, R290).
-/

namespace Sys2Proof.Machine

/-- Set sticky flags: FPCTL [4:0] is IX, UF, OF, DZ, NV (R216). -/
def Lane.flags (l : Lane) (fl : FpFlags) : Lane := { l with fpctl := l.fpctl ||| fl.zeroExtend 32 }
/-- The exceptions raised that are enabled: FPCTL [9:5]. -/
def Lane.enabled (l : Lane) (fl : FpFlags) : FpFlags := fl &&& l.fpctl.extractLsb' 5 5
/-- Finish a floating-point instruction with its result and flags: an enabled exception sets the flags, raises FPX and
writes no destination (R216, R290). -/
def Lane.fpDone (l : Lane) (d : BitVec 7) (r : Word × FpFlags) : LRes :=
  if l.enabled r.2 != 0 then .trap (l.flags r.2) ((l.flags r.2).trapHere tkFPX (r.2.zeroExtend 32))
  else .ok ((l.flags r.2).set d.toNat r.1).adv

end Sys2Proof.Machine
end

