-- ==== Sys2Proof/WellFormed.lean ====
section
/-!
DEFINITION. Which instructions are well formed: every field holds a value that R149, R152, R155, R270 to R273, R278 to
R280 and R284 to R286 allow. A word whose fields break one of these is no instruction (R288, check 2).
-/

namespace Sys2Proof

/-- ORD 11 is illegal (R270). -/
def ordOk (o : BitVec 2) : Bool := o.toNat != 3
/-- Scratchpad forms take BR 0 to 3 or 15 (R270). -/
def spOk (r : BitVec 4) : Bool := decide (r.toNat ≤ 3) || r.toNat == 15
/-- A number no greater than a bound, as a decision. -/
def upTo (n k : Nat) : Bool := decide (n ≤ k)

/-- The field values of an instruction are legal. Events of the device have no fields to check. -/
def Instr.wf : Instr → Bool
  | .iadd _ _ _ _ _ _ => true
  | .isub _ _ _ _ _ _ => true
  | .imul _ _ _ _ _ _ => true
  | .imulhI _ _ _ _ _ _ => true
  | .imulhN _ _ _ _ _ _ => true
  | .iminI _ _ _ _ _ _ => true
  | .imaxI _ _ _ _ _ _ => true
  | .iminN _ _ _ _ _ _ => true
  | .imaxN _ _ _ _ _ _ => true
  | .and _ _ _ _ _ _ => true
  | .or _ _ _ _ _ _ => true
  | .xor _ _ _ _ _ _ => true
  | .shl _ _ _ _ _ _ => true
  | .shrN _ _ _ _ _ _ => true
  | .shrI _ _ _ _ _ _ => true
  | .rotl _ _ _ _ _ _ => true
  | .imac _ _ _ _ _ _ => true
  | .iaddi _ _ _ _ => true
  | .imuli _ _ _ _ => true
  | .andi _ _ _ _ => true
  | .ori _ _ _ _ => true
  | .xori _ _ _ _ => true
  | .shli _ _ _ _ => true
  | .shriN _ _ _ _ => true
  | .shriI _ _ _ _ => true
  | .movi _ _ => true
  | .mov _ _ _ _ => true
  | .ineg _ _ _ _ => true
  | .iabs _ _ _ _ => true
  | .not _ _ _ _ => true
  | .popc _ _ _ _ => true
  | .clz _ _ _ _ => true
  | .ctz _ _ _ _ => true
  | .brev _ _ _ _ => true
  | .bswap _ _ _ _ => true
  | .sext8 _ _ _ _ => true
  | .sext16 _ _ _ _ => true
  | .zext8 _ _ _ _ => true
  | .zext16 _ _ _ _ => true
  | .bfe _ _ _ _ _ _ => true
  | .bfi _ _ _ _ _ _ => true
  | .prmt _ _ _ _ _ _ => true
  | .sel _ _ _ _ _ _ => true
  | .fadd _ _ _ _ _ _ => true
  | .fsub _ _ _ _ _ _ => true
  | .fmul _ _ _ _ _ _ => true
  | .fmac _ _ _ _ _ _ => true
  | .fmin _ _ _ _ _ _ => true
  | .fmax _ _ _ _ _ _ => true
  | .fneg _ _ _ _ => true
  | .fabs _ _ _ _ => true
  | .frndn _ _ _ _ => true
  | .frndz _ _ _ _ => true
  | .frndd _ _ _ _ => true
  | .frndu _ _ _ _ => true
  | .ffrac _ _ _ _ => true
  | .fclass _ _ _ _ => true
  | .fsat _ _ _ _ => true
  | .fscale _ _ _ _ _ _ => true
  | .hadd2F16 _ _ _ _ _ _ => true
  | .hmul2F16 _ _ _ _ _ _ => true
  | .hmac2F16 _ _ _ _ _ _ => true
  | .hmin2F16 _ _ _ _ _ _ => true
  | .hmax2F16 _ _ _ _ _ _ => true
  | .hadd2Bf16 _ _ _ _ _ _ => true
  | .hmul2Bf16 _ _ _ _ _ _ => true
  | .hmac2Bf16 _ _ _ _ _ _ => true
  | .hmin2Bf16 _ _ _ _ _ _ => true
  | .hmax2Bf16 _ _ _ _ _ _ => true
  | .rcp _ _ _ _ => true
  | .rsq _ _ _ _ => true
  | .sqrt _ _ _ _ => true
  | .exp2 _ _ _ _ => true
  | .log2 _ _ _ _ => true
  | .sint _ _ _ _ => true
  | .cost _ _ _ _ => true
  | .tanh _ _ _ _ => true
  | .rcph2 _ _ _ _ => true
  | .exph2 _ _ _ _ => true
  | .i2f _ _ _ _ => true
  | .n2f _ _ _ _ => true
  | .f2in _ _ _ _ => true
  | .f2iz _ _ _ _ => true
  | .f2id _ _ _ _ => true
  | .f2iu _ _ _ _ => true
  | .f2nn _ _ _ _ => true
  | .f2nz _ _ _ _ => true
  | .h2fl _ _ _ _ => true
  | .h2fh _ _ _ _ => true
  | .b2fl _ _ _ _ => true
  | .b2fh _ _ _ _ => true
  | .f2h _ _ _ _ => true
  | .f2b _ _ _ _ => true
  | .cvtpF16 _ _ _ _ _ _ => true
  | .cvtpBf16 _ _ _ _ _ _ => true
  | .cvtq _ _ _ _ _ _ => true
  | .cvtx _ _ c _ _ => upTo c.toNat 27
  | .icmpI _ _ _ c => upTo c.toNat 5
  | .icmpN _ _ _ c => upTo c.toNat 5
  | .fcmp _ _ _ c => upTo c.toNat 13
  | .hcmp2 p _ _ c => upTo c.toNat 13 && p.toNat != 127
  | .plog _ _ _ _ => true
  | .v2p _ _ _ _ => true
  | .p2v _ _ _ _ => true
  | .prd _ _ => true
  | .pwr _ _ _ => true
  | .all _ _ _ _ => true
  | .any _ _ _ _ => true
  | .ballot _ _ _ _ => true
  | .matchLanes _ _ _ _ => true
  | .lcount _ _ => true
  | .shflIdx _ _ _ _ _ _ => true
  | .shflXor _ _ _ _ _ _ => true
  | .shflXw _ _ _ _ _ _ => true
  | .reduce _ _ c _ _ => upTo c.toNat 10
  | .scan _ _ c _ _ => upTo c.toNat 10 || (upTo 16 c.toNat && upTo c.toNat 26)
  | .bra _ => true
  | .brp _ _ _ => true
  | .call _ => true
  | .jmpi a _ _ => a.toNat != 127
  | .ret _ _ => true
  | .exit => true
  | .wsync => true
  | .barSync _ => true
  | .barArrive _ => true
  | .barWait _ => true
  | .barCsync => true
  | .nop => true
  | .yield => true
  | .sleep _ => true
  | .ld _ _ _ o s _ => ordOk o && upTo s.toNat 6
  | .st _ _ _ o s _ => ordOk o && upTo s.toNat 4
  | .lds _ _ r o s _ => spOk r && ordOk o && upTo s.toNat 6
  | .sts _ _ r o s _ => spOk r && ordOk o && upTo s.toNat 4
  | .ldfe _ _ r o s _ => spOk r && ordOk o && s.toNat % 4 != 3
  | .stfe _ _ r o s _ => spOk r && ordOk o && s.toNat != 3
  | .atom _ _ _ o c z => ordOk o && upTo c.toNat 13 && (upTo c.toNat 10 || z.toNat == 0)
  | .red _ _ _ o c z => ordOk o && upTo c.toNat 13 && c.toNat != 8 && c.toNat != 9 && (upTo c.toNat 10 || z.toNat == 0)
  | .atoms _ _ r o c z => spOk r && ordOk o && upTo c.toNat 13 && (upTo c.toNat 10 || z.toNat == 0)
  | .cstore _ _ _ o s _ => ordOk o && upTo s.toNat 4
  | .fence _ s => s.toNat != 7
  | .xfence _ m => upTo m.toNat 4
  | .lock _ _ _ _ => true
  | .unlock _ _ _ _ => true
  | .pref _ _ _ s _ => upTo s.toNat 3
  | .est _ _ _ => true
  | .eld _ _ _ => true
  | .emrg _ _ => true
  | .eclr _ _ => true
  | .esweep _ _ => true
  | .escene _ => true
  | .eraw _ _ => true
  | .einit _ _ => true
  | .qpush _ _ _ => true
  | .rwait _ _ => true
  | .rrel _ _ => true
  | .launch _ _ _ => true
  | .ordwait _ _ => true
  | .ordtake _ => true
  | .markImm _ => true
  | .markReg _ => true
  | .cont d _ => upTo d.toNat 28
  | .trav d _ _ => upTo d.toNat 28
  | .tnew _ _ _ _ => true
  | .tcut _ _ _ => true
  | .tret _ => true
  | .tfrd _ _ _ => true
  | .tfwr _ _ _ => true
  | .tstat _ _ _ => true
  | .mma _ _ _ _ _ => true
  | .mclaim _ n h => upTo (h.toNat + (n.toNat + 1)) 32
  | .mrel n h => upTo (h.toNat + (n.toNat + 1)) 32
  | .mzero n h => upTo (h.toNat + (n.toNat + 1)) 32
  | .mrow _ _ => true
  | .mread _ _ => true
  | .mld _ _ _ s _ => upTo s.toNat 1
  | .msets _ => true
  | .hadq _ _ _ _ _ _ => true
  | .mcbt _ _ _ => true
  | .march _ _ _ _ _ _ => true
  | .hgrid _ _ _ _ _ _ => true
  | .idot4 _ _ _ _ => true
  | .ndot4 _ _ _ _ => true
  | .idot8 _ _ _ _ => true
  | .idist4 _ _ _ _ => true
  | .fdot4e4 _ _ _ _ => true
  | .fdot4e5 _ _ _ _ => true
  | .hdot2 _ _ _ _ => true
  | .kinit _ _ _ => true
  | .kins _ _ => true
  | .kmrg _ _ => true
  | .krd _ _ => true
  | .srd _ s => upTo s.toNat 38
  | .swr _ s => s.toNat == 21 || s.toNat == 33 || s.toNat == 34 || s.toNat == 36
  | .trapAssert _ _ => true
  | .trapUser _ => true
  | .bkpt => true
  | .rft => true
  | .savew _ _ => true
  | .restw _ _ => true
  | .ipref _ c => c.toNat != 0
  | .bset _ _ => true
  | .bget _ _ => true
  | .sched p => p.toNat != 3
  | .ximm _ => true
  | .xsrc k v => k.toNat != 3 && (k.toNat != 0 || upTo v.toNat 127) && (k.toNat != 1 || upTo v.toNat 38)
  | .xmod _ _ _ _ _ _ _ _ m => m.toNat != 5 && m.toNat != 6
  | .pred _ _ => true
  | .reset => true
  | .functionReady => true
  | .portDown => true
  | .portUp => true
  | .tc0Demotion => true
  | .dvfsChange => true
  | .powercapWrite => true
  | .registerWrite => true
  | .ctxtabWrite => true
  | .bar2Read => true
  | .bar2Write => true
  | .bar2statWrite => true
  | .hostAtomic => true
  | .contextEnable => true
  | .contextRecheck => true
  | .contextDisable => true
  | .ctxstatWrite => true
  | .cntreinitWrite => true
  | .queueEnable => true
  | .queueDisable => true
  | .queueRestart => true
  | .queueSkip => true
  | .faultackRetry => true
  | .faultackUnresolvable => true
  | .jobPacket => true
  | .gridPacket => true
  | .copyPacket => true
  | .traversePacket => true
  | .waitcntPacket => true
  | .signalPacket => true
  | .timebindPacket => true
  | .nopPacket => true
  | .illegalPacketKind => true
  | .packetWaitMet => true
  | .packetCompletion => true
  | .completionRingSpace => true
  | .eventRingSpace => true
  | .faultRingSpace => true
  | .counterPoison => true
  | .monitorSramError => true
  | .estreqBatchCount => true
  | .estreqBatchTimeout => true
  | .jobDeal => true
  | .gridDeal => true
  | .teamRestore => true
  | .teamRetire => true
  | .gridRetire => true
  | .preemptTimeout => true
  | .timeSliceExpiry => true
  | .teamSaveComplete => true
  | .teamFlushComplete => true
  | .caddyArrival => true
  | .caddyPartialTimeout => true
  | .caddyDrain => true
  | .caddyWavePlace => true
  | .pageWalkComplete => true
  | .accessPerform => true
  | .resultLand => true
  | .shootdownPages => true
  | .shootdownContext => true
  | .shootdownAll => true
  | .shootdownComplete => true
  | .tierFetchStart => true
  | .tierFetchLand => true
  | .tierEvictStart => true
  | .tierEvictLand => true
  | .tierCopyError => true
  | .esuEst => true
  | .esuEld => true
  | .esuEmrg => true
  | .esuEclr => true
  | .esuEsweep => true
  | .esuEraw => true
  | .esuEinit => true
  | .esuGenInForce => true
  | .esuAppendResume => true
  | .stackTake => true
  | .walkStep => true
  | .nodeFetchComplete => true
  | .routineWaveForm => true
  | .routineDecision => true
  | .joinZero => true
  | .walkFinish => true
  | .quiescentPoint => true
  | .trapWindowTimeout => true
  | .handlerEntry => true
  | .wsyncRelease => true
  | .barrierPhaseComplete => true
  | .ldfeUnblock => true
  | .stfeUnblock => true
  | .ordwaitRelease => true
  | .rwaitRelease => true
  | .topkLockRelease => true
  | .sleepExpiry => true
  | .markStallEnd => true
  | .breakpointMatch => true
  | .ssmodeRecord => true
  | .ssmodeReplay => true
  | .ssmodeOff => true
  | .debugConfigUpdate => true
  | .stallSample => true
  | .energyInterval => true
  | .replayDivergeTimeout => true
  | .replayDivergeStale => true
  | .replayLogMatch => true
  | .scoresheetLogSpace => true
  | .dbgHaltCtx => true
  | .dbgResume => true
  | .dbgStep => true
  | .dbgResumeAll => true
  | .dbgDump => true
  | .dbgDumpWrite => true
  | .dbgBadCommand => true
  | .illegalInstruction => true
  | .instructionFetchFault => true
  | .matrixUnitFree => true
  | .portRetrain => true
  | .replayDivergeUnknownKind => true

/-- An instruction of the language: legal in every field. -/
abbrev Instr.WellFormed (i : Instr) : Prop := i.wf = true

end Sys2Proof
end

