-- ==== Sys2Proof/Machine/Special.lean ====
section
/-!
DEFINITION. What SRD reads at each selector (R217, R63, R384), and operand C (R284).
-/

namespace Sys2Proof.Machine

/-- The outcome of a step. -/
abbrev Out := Host.Outcome State Fault Refusal

/-- PARKMASK: lanes parked by a trap, the handler's lanes among them (R217, R387). -/
def Wave.parkmask (w : Wave) : Word :=
  lanesMask ((List.range w.lanes.length).filter (fun L => (w.lane L).st == .trapped || (w.lane L).inHandler))

def lo32 (n : Nat) : Word := BitVec.ofNat 32 n
def hi32 (n : Nat) : Word := BitVec.ofNat 32 (n / 2 ^ 32)

/-- The value at a selector, and the lane with what the read latches (R217). -/
def srd (s : State) (i : Iss) (L : Nat) (l : Lane) (sel : Nat) : Word × Lane :=
  match sel with
  | 0 => (lo32 L, l)
  | 1 => (32, l)
  | 2 => (lo32 i.w.idx, l)
  | 3 => (lo32 i.t.nwaves, l)
  | 4 => (lo32 i.t.ordinal, l)
  | 5 => (if i.g.isJob then 0 else lo32 i.g.total, l)
  | 6 => (lo32 i.t.recbase, l)
  | 7 => (lo32 i.t.reccount, l)
  | 8 => (if i.g.isJob then 0 else lo32 i.g.dimX, l)
  | 9 => (if i.g.isJob then 0 else lo32 i.g.dimY, l)
  | 10 => (if i.g.isJob then 0 else lo32 i.g.dimZ, l)
  | 11 => (lo32 i.t.core, l)
  | 12 => (lo32 (i.t.core / 4), l)
  | 13 => (lo32 i.t.die, l)
  | 14 => (s.pkg.deviceId.zeroExtend 32, l)
  | 15 => (lo32 i.g.depth, l)
  | 16 => (l.pc, l)
  | 17 => (lo32 (s.dieCycle i.t.die), { l with clockHi := hi32 (s.dieCycle i.t.die) })
  | 18 => (l.clockHi, l)
  | 19 => (lo32 s.time, { l with timeHi := hi32 s.time })
  | 20 => (l.timeHi, l)
  | 21 => (l.fpctl, l)
  | 22 => (s.features, l)
  | 23 => ((i.w.marker.getD 0).zeroExtend 32, l)
  | 24 => (lo32 (i.g.f 56 4), l)
  | 25 => (lo32 (i.g.f 60 4), l)
  | 32 => (lo32 i.t.cmember, l)
  | 33 => (l.key, l)
  | 34 => (l.hseed, l)
  | 35 => (i.w.scaleloc.zeroExtend 32, l)
  | 36 => (l.resumepc, l)
  | 37 => (i.w.parkmask, l)
  | 38 => (lo32 i.w.slot, l)
  | n => (l.trapinfo.getD (n - 26) 0, l)

/-- Operand C: vD, or what XSRC names; a constant is sign-extended for IMAC and placed in bits [31:12] for the FP forms
(R284). -/
def cVal (fp : Bool) (s : State) (i : Iss) (L : Nat) (l : Lane) (d : BitVec 7) : Word × Lane :=
  match (i.h L).xsrc with
  | none => (l.v d.toNat, l)
  | some x =>
    match xsKind x with
    | 0 => (l.v (xsVal x % 128), l)
    | 1 => srd s i L l (xsVal x)
    | _ =>
      let c := x.extractLsb' 0 20
      (if fp then c ++ (0 : BitVec 12) else c.signExtend 32, l)

/-! ## Producers (R203, R353) -/

/-- Results on their way to a lane's registers, from a cycle on (R203). -/
def State.addLand (s : State) (uid L d : Nat) (vals : List Word) (due : Nat) (pc : Word) (sfu : Bool) : State :=
  { s with
    lands := s.lands ++ [{ id := s.fresh, uid := uid, lane := L, d := d, vals := vals, due := due, pc := pc, sfu := sfu }]
    fresh := s.fresh + 1 }

/-- What a producer makes of one lane: its results and when they may land, or its trap. -/
inductive PRes where
  | land (l : Lane) (d : Nat) (vals : List Word) (due : Nat)
  | trap (l : Lane) (t : Trap)
deriving DecidableEq, Repr

/-- Perform a producer: destinations go empty at issue with the PC as tag, and the results land later (R203). -/
def prodBody (sfu : Bool) (f : State → Iss → Nat → Lane → PRes) (i : Iss) (s : State) : State × Traps :=
  let rs := i.E.map (fun L => (L, f s i L (s.laneNow i L)))
  let s1 := s.updWave i.uid (fun w => rs.foldl (fun w r => w.updLane r.1 (fun _ => match r.2 with
    | .land l d vals _ => (l.mark l.pc d vals.length).adv
    | .trap l _ => l)) w)
  (rs.foldl (fun s r => match r.2 with
    | .land l d vals due => s.addLand i.uid r.1 d vals due l.pc sfu
    | .trap _ _ => s) s1,
   rs.filterMap (fun r => match r.2 with | .land _ _ _ _ => none | .trap _ t => some (r.1, t)))

end Sys2Proof.Machine
end

