-- ==== Sys2Proof/Machine/Order.lean ====
section
/-!
DEFINITION. The instructions that wait for a lane's earlier accesses (R151, R152, R155, R213), and what a lane has seen with reads made as a
whole at issue (R147).
-/

namespace Sys2Proof.Machine

/-- The lanes of an instruction as agents of the memory model. -/
def Iss.whos (i : Iss) (s : State) : List Who := i.E.map (fun L => s.whoOf i.uid L)
/-- A lane has read a place as a whole at the issue of its instruction, with this order (R147, R148). -/
def State.sawWhole (s : State) (q : Who) (sp : Option Nat) (pa n : Nat) (ord : Ord) (type : Nat) : State :=
  s.touch { id := 0, op := .load 0 0, ctx := 0, gid := 0, tid := 0, uid := q.uid, wave := 0, lane := 0, die := q.die, core := 0, pc := 0, sp, addr := pa, n,
            ord, type, me := q.me, home := q.tid } true none s.writes
/-- Bytes are written with .wk stores that perform at once, as a write of each of these lanes. -/
def State.wrSeen (s : State) (qs : List Who) (pa : Nat) (bs : List Byte) : State :=
  qs.foldl (fun s1 q => s1.touch { id := 0, op := .store, ctx := 0, gid := 0, tid := 0, uid := q.uid, wave := 0, lane := 0, die := q.die, core := 0, pc := 0,
                                   addr := pa, n := bs.length, ord := .wk, me := q.me, home := q.tid } false (some s.writes) s1.writes) (s.wrBytes pa bs)

/-! ## Waiting for a lane's earlier accesses (R151) -/

/-- What a forcing instruction finds for a lane. -/
inductive Force where
  | ready
  | wait
  | refused (a : Acc)
deriving DecidableEq, Repr

def State.lanePend (s : State) (uid L : Nat) (p : Acc → Bool) : List Acc :=
  s.accs.filter (fun a => a.uid == uid && a.lane == L && p a)
/-- Some read of the lane has not landed (R152). -/
def State.readsPend (s : State) (uid L : Nat) : Bool := s.lands.any (fun x => x.uid == uid && x.lane == L && x.isRead)

/-- Earlier accesses of a kind force the lane to wait; a refused write raises DEFSTORE (R151, R213). -/
def State.force (s : State) (uid L : Nat) (p : Acc → Bool) (reads : Bool) : Force :=
  match (s.lanePend uid L p).find? (fun a => a.refused) with
  | some a => .refused a
  | none => if s.lanePend uid L p != [] || (reads && s.readsPend uid L) then .wait else .ready

/-- DEFSTORE, attributed to the store and parked at the forcing instruction (R213). -/
def defStore (l : Lane) (a : Acc) : Trap :=
  let t := (l.trapHere tkDEFSTORE l.pc)
  let t1 : Trap := { t with pc := a.pc }
  match a.sp with
  | some _ => t1.withOff a.addr
  | none => t1.withVa a.va.toNat

/-- Every write of the lane but estimator operations (R151). -/
def anyWrite (a : Acc) : Bool := a.op.isWrite
/-- Some access of the lane that performs before b has still to perform; a refused write has not (R213). -/
def State.ordersPend (s : State) (uid L : Nat) (b : Acc) : Bool := (s.lanePend uid L (fun a => orderedBefore a b)).any (fun a => !a.refused)
/-- Two conditions to wait for, one after the other. -/
def both (p q : State → Iss → Option State) : State → Iss → Option State := fun s i => match p s i with | some s1 => some s1 | none => q s i
/-- The set waits while that holds for the access that some lane of it makes (R146, R148). -/
def waitBefore (mk : State → Iss → Nat → Option Acc) : State → Iss → Option State :=
  waitIf (fun s i => i.E.any (fun L => match mk s i L with | some b => s.ordersPend i.uid L b | none => false))
/-- What an instruction whose lanes wait for earlier accesses does for those that are ready: DEFSTORE for lanes with a refused write (R151,
R213). -/
def forcedBody (fr : State → Iss → Nat → Force) (body : Iss → State → State × Traps) (i : Iss) (s : State) : State × Traps :=
  let bad := i.E.filterMap (fun L => match fr s i L with | .refused a => some (L, a) | _ => none)
  let go := i.E.filter (fun L => fr s i L == .ready)
  let s1 : State := { s with accs := s.accs.filter (fun a => !bad.any (fun x => x.2.id == a.id)) }
  let (s2, ts) := if go = [] then (s1, []) else body { i with E := go } s1
  (s2, bad.map (fun x => (x.1, defStore (i.l x.1) x.2)) ++ ts)
/-- In lanes that trap, what a claim marked empty is as before it (R203, R349; log 128). -/
def State.unclaim (s : State) (uid : Nat) (ts : Traps) : State :=
  s.updWave uid (fun w => ts.foldl (fun w x => w.updLane x.1 (fun l => if l.claim.isSome then { l with regs := l.srcRegs } else l)) w)
/-- What such an instruction waits for: every lane's earlier accesses, or else what it asks for the lanes that are ready. -/
def forcedBusy (fr : State → Iss → Nat → Force) (busy : State → Iss → Option State) : State → Iss → Option State := fun s i =>
  if i.E.all (fun L => fr s i L == .wait) then some s else busy s { i with E := i.E.filter (fun L => fr s i L == .ready) }
/-- Issue an instruction that serves its lanes together or in their order: all wait until none has to (R327, R334). -/
def State.issueTogether (s : State) (ff : FormF) (p : Iss → Nat → Acc → Bool) (busy : State → Iss → Option State)
    (body : Iss → State → State × Traps) : State :=
  let fr (s : State) (i : Iss) (L : Nat) : Force := s.force i.uid L (p i L) false
  s.issue ff (fun s i =>
    if i.E.any (fun L => fr s i L == .wait) then some s
    else busy s { i with E := i.E.filter (fun L => fr s i L == .ready) }) (forcedBody fr body)
/-- Issue an instruction whose lanes first wait for earlier accesses: lanes that are ready perform the body, lanes with
a refused write trap, the others stay at the instruction, eligible (R151, R152). busy is asked for the ready lanes. -/
def State.issueForced (s : State) (ff : FormF) (p : Iss → Nat → Acc → Bool) (reads : Bool) (busy : State → Iss → Option State)
    (body : Iss → State → State × Traps) : State :=
  let fr (s : State) (i : Iss) (L : Nat) : Force := s.force i.uid L (p i L) reads
  s.issue ff (forcedBusy fr busy) (forcedBody fr body)

/-- Accesses of a lane that have still to perform keep it at the instruction, eligible; a refused write does not (R213). -/
def State.unquiet (s : State) (uid L : Nat) (p : Acc → Bool) : Bool := (s.lanePend uid L p).any (fun a => !a.refused)
/-- The set waits while some lane of it has such accesses. -/
def waitQuiet (p : Acc → Bool) : State → Iss → Option State := waitIf (fun s i => i.E.any (fun L => s.unquiet i.uid L p))
/-- Every access of the lane but estimator operations. -/
def anyAccess (a : Acc) : Bool := !a.op.isEst

end Sys2Proof.Machine
end

