-- ==== Sys2Proof/Machine/Stack.lean ====
section
/-!
DEFINITION. Stack objects: their layout, what an engine writes back and the records of its faults, and the end of a
routine invocation (R179 to R181, R187, R189, R192, R194, R375).
-/

namespace Sys2Proof.Machine

/-! ## Layout (R179, R181) -/

/-- The handle of a live stack (R181). -/
def stackHandle (dev die eng slot : Nat) : Nat := dev % 1024 * 2 ^ 17 + die % 4 * 2 ^ 15 + eng % 16 * 2 ^ 11 + slot % 2048
/-- "No child" (R175). -/
def noChild : BitVec 64 := 0xFFFFFFFFFFFFFFFF
/-- Live stacks that an engine holds, and top frames of each that it keeps (R181). -/
def engineSlots : Nat := 2048
def engineFrames : Nat := 8

def Stack.depth (k : Stack) : Nat := k.frames.length
/-- VA of frame L, and of its JOIN word. -/
def Stack.frameVa (k : Stack) (L : Nat) : Nat := (k.va.toNat + 128 + 32 * L) % 2 ^ 72
def Stack.joinAt (k : Stack) (L : Nat) : Nat := (k.frameVa L + 24) % 2 ^ 72
/-- The levels whose frames the engine keeps. -/
def Stack.cached (k : Stack) : List Nat := (List.range k.depth).filter (fun L => decide (k.depth ≤ L + engineFrames))
def Stack.frame (k : Stack) (L : Nat) : Frame := k.frames.getD L { node := 0, mask := 0 }
def Stack.setFrame (k : Stack) (L : Nat) (f : Frame → Frame) : Stack := { k with frames := listUpd k.frames L f }

def Frame.flagsByte (f : Frame) : Nat := b2n f.entered + 2 * b2n f.leavepend + 4 * b2n f.noleave + 8 * b2n f.tableroot
/-- Bytes 0 to 23 of a frame: JOIN stands in memory only (R191). -/
def Frame.bytes (f : Frame) : List Byte :=
  leBytes 8 f.node.toNat ++ leBytes 2 f.mask.toNat ++ [f.cursor, BitVec.ofNat 8 f.flagsByte] ++ leBytes 2 f.table ++ [0, 0] ++
    leBytes 4 f.state0.toNat ++ leBytes 4 f.state1.toNat
/-- A frame from its bytes. -/
def frameOf (bs : List Byte) : Frame :=
  let fl := bsNat bs 11 1
  { node := BitVec.ofNat 64 (bsNat bs 0 8), mask := BitVec.ofNat 16 (bsNat bs 8 2), cursor := BitVec.ofNat 8 (bsNat bs 10 1)
    entered := fl.testBit 0, leavepend := fl.testBit 1, noleave := fl.testBit 2, tableroot := fl.testBit 3, table := bsNat bs 12 2
    state0 := BitVec.ofNat 32 (bsNat bs 16 4), state1 := BitVec.ofNat 32 (bsNat bs 20 4) }
/-- The 128 bytes of a header (R179). -/
def headerBytes (q : List Word) (root : BitVec 64) (nlt : BitVec 72) (status depth result jlevel : Nat) (joinva : BitVec 72)
    (contref : Nat) (visits accepts : Word) : List Byte :=
  (List.range 16).flatMap (fun i => leBytes 4 (q.getD i 0).toNat) ++ leBytes 8 root.toNat ++ leBytes 9 nlt.toNat ++
    [BitVec.ofNat 8 status, BitVec.ofNat 8 depth, BitVec.ofNat 8 result, BitVec.ofNat 8 jlevel] ++ leBytes 9 joinva.toNat ++ [0, 0] ++
    leBytes 8 contref ++ leBytes 4 visits.toNat ++ leBytes 4 accepts.toNat ++ List.replicate 16 0
def Stack.header (k : Stack) (status : Nat) : List Byte :=
  headerBytes k.q k.root k.nlt status k.depth k.result k.jlevel k.joinva (k.cont.getD 0) k.visits k.accepts
/-- STATUS of a live stack: PARKED-FAULT when a node fetch has parked it or has ended it (R192, R193). -/
def Stack.status (k : Stack) : Nat := if k.parked || k.result == 7 then 2 else 1
/-- STATUS is PARKED-FAULT: the stack may be cut, and its frames read and written, from outside its routines (R190, R380). -/
def Stack.open (k : Stack) : Bool := k.status == 2

/-! ## Write-back (R181, R192) -/

/-- The first byte of an access of n bytes that cannot be translated or is refused, given that some cannot. -/
def State.badVa (s : State) (c va n : Nat) (write : Bool) : Nat :=
  match s.engXlate c (va % 2 ^ 72) (min n (65536 - va % 65536)) write with
  | .fault _ => va % 2 ^ 72
  | _ => (va / 65536 + 1) * 65536 % 2 ^ 72

/-- What writing a stack object comes to: done, a fault at a VA, or memory that is not ready. -/
inductive Wb where
  | ok (s : State)
  | fault (va : Nat)
  | wait
deriving DecidableEq, Repr
def State.wbWrite (s : State) (c va : Nat) (bs : List Byte) : Wb :=
  match s.engWr c (va % 2 ^ 72) bs with
  | .ok s1 => .ok ((s1.byEngine 1 s.writes).movedVa c 2 va bs.length)
  | .fault _ => .fault (s.badVa c va bs.length true)
  | .wait => .wait
/-- Write the frames of these levels. -/
def State.wbFrames (s : State) (k : Stack) : List Nat → Wb
  | [] => .ok s
  | L :: r => match s.wbWrite k.ctx (k.frameVa L) (k.frame L).bytes with | .ok s1 => s1.wbFrames k r | x => x
/-- The header with this STATUS, then every cached frame (R183, R192). -/
def State.writeBack (s : State) (k : Stack) (status : Nat) : Wb :=
  match s.wbWrite k.ctx k.va.toNat (k.header status) with
  | .ok s1 => s1.wbFrames k k.cached
  | x => x

/-- A fault record about a stack: cause, access kind, VA, who waits (R192). -/
def State.stackFault (s : State) (k : Stack) (cause kind va : Nat) (who : FaultWho) : State :=
  let (seq, s1) := (s.noteLost k.ctx va).raiseFault k.ctx cause kind va k.die 0xFF 0xFF 0 0 k.va.toNat who
  s1.updStkOf k.id (fun k => { k with firstFault := if k.firstFault = 0 then seq else k.firstFault })
/-- The address is that of a JOIN word: of a frame of the stack, or of the frame that it was cut from (R179, R190). -/
def Stack.joinWord (k : Stack) (va : Nat) : Bool :=
  (List.range 65).any (fun L => decide (k.joinAt L ≤ va) && decide (va < k.joinAt L + 8)) ||
    (k.jlevel != 0xFF && va == (k.joinva.toNat + 128 + 32 * k.jlevel + 24) % 2 ^ 72)
/-- The cause of an engine access that faults at a VA: a protection failure, or the engine's (R107). -/
def State.causeAt (s : State) (c va : Nat) (write : Bool) : Nat := match s.engXlate c va 1 write with | .fault 2 => 2 | _ => 5
/-- An access of the engine to the stack object faults, of this kind: the stack advances no further. A write-back of its header or a frame has
cause ENGINE (R192), any other access what R107 says. -/
def State.wbFault (s : State) (k : Stack) (va : Nat) (kind : Nat := 1) : State :=
  (s.stackFault k (if kind = 1 && !k.joinWord va then 5 else s.causeAt k.ctx va (kind != 0)) kind va (.writeback k.id)).updStkOf k.id
    (fun k => { k with wbFault := true })
/-- A node fetch faults: the header and the cached frames are written back and the stack parks (R192). -/
def State.parkStack (s : State) (k : Stack) (va : Nat) : State :=
  match s.writeBack k 2 with
  | .ok s1 => (s1.stackFault k 4 0 va (.node k.id)).updStkOf k.id (fun k => { k with parked := true })
  | .fault x => s.wbFault k x
  | .wait => s

/-- STATUS RUNNING, and the handle of the continuation, go to the header in memory (R182, R374, R375): whether nothing
is due any more. -/
def State.payHdr (s : State) (k : Stack) : Bool × State :=
  if !k.hdrDue then (true, s)
  else
    match s.wbWrite k.ctx (k.va.toNat + 81) [1] with
    | .ok s1 =>
      match (match k.cont with | some id => s1.wbWrite k.ctx (k.va.toNat + 96) (leBytes 8 id) | none => .ok s1) with
      | .ok s2 => (true, s2.updStk k.handle (fun k => { k with hdrDue := false }))
      | .fault x => (false, s.wbFault k x)
      | .wait => (false, s)
    | .fault x => (false, s.wbFault k x)
    | .wait => (false, s)

/-- The engines write back the stacks of a context that has been disabled (R194), but what has ended with NODEFAULT (R193); one that must wait
for memory is asked again. -/
def State.sleepStacks (s : State) (c : Nat) : State :=
  (s.stks.filter (fun k => k.ctx == c && !k.asleep && !k.wbFault && k.result != 7)).foldl (fun s k =>
    match s.writeBack k k.status with
    | .ok s1 => s1.updStk k.handle (fun k => { k with asleep := true })
    | .fault x => s.wbFault k x
    | .wait => s) s
/-- Its context is disabled, with no team on a core, and the engine has still to write it back (R194). -/
def State.sleepDue (s : State) (k : Stack) : Bool := !(s.ctx k.ctx).enable && (s.ctx k.ctx).suspended && !k.asleep && !k.wbFault && k.result != 7
/-- A stack goes by another handle; its invocations and routine lanes know it by its identity. -/
def State.renameStack (s : State) (old new : Nat) : State := s.updStk old (fun k => { k with handle := new })
/-- Its slot has been taken by another stack. -/
def displaced (handle : Nat) : Bool := decide (2 ^ 32 ≤ handle)
/-- A displaced stack whose context runs again takes its slot as soon as it is free (R194; log 23). -/
def State.restartStack (s : State) (k : Stack) : State :=
  if !k.asleep || !displaced k.handle || !(s.ctx k.ctx).enable || s.stks.any (fun x => x.handle == k.handle % 2 ^ 32) then s
  else (s.renameStack k.handle (k.handle % 2 ^ 32)).updStk (k.handle % 2 ^ 32) (fun x => { x with asleep := false, hdrDue := true })
/-- A formed wave, or a saved team, of routines whose stack has no slot waits for it. -/
def State.slotless (s : State) (id : Nat) : Bool := match s.stkOf id with | some k => displaced k.handle | none => false
def State.formWaits (s : State) (f : CaddyForm) : Bool := match f.src with | .invs vs => vs.any (fun v => s.slotless v.stk) | .recs _ => false
def State.routinesWait (s : State) (tid : Nat) : Bool :=
  (s.wavesOf tid).any (fun w => w.lanes.any (fun l => match l.routine with | some r => s.slotless r.stk | none => false))
/-- The walk may go on: its context runs, or it has ended with NODEFAULT and has only steps left that R193 names; and nothing has parked it
(R192, R194). -/
def State.stackGoes (s : State) (k : Stack) : Bool := (((s.ctx k.ctx).enable && !k.asleep) || k.result == 7) && !k.wbFault && !k.parked

/-! ## The end of a routine (R187, R189) -/

/-- The outstanding routine of a stack ends with a decision word, and what follows it (R187). -/
def State.routineEnds (s : State) (r : Routine) (word : Word) (v1v2 : BitVec 64) (qw : Option (List Word))
    (sw : Option (Nat × Word × Word)) : State :=
  s.updStkOf r.stk (fun k => match k.st with | .routine kind c => { k with st := .decided kind c word v1v2 qw sw } | _ => k)
/-- A routine lane that is ended in the trap handler, or discarded with its team, finishes its stack with ROUTINEFAULT
(R180, R189, R214). -/
def State.routineFault (s : State) (r : Routine) : State :=
  s.updStkOf r.stk (fun k => match k.st with | .routine _ _ => { k with st := .finishing 8, result := 8 } | _ => k)

end Sys2Proof.Machine
end

