-- ==== Sys2Proof/Machine/Timetable.lean ====
section
/-!
DEFINITION. Movement timetables: markers, which entries fire, and the page requests they make (R124 to R135, R138, R143).
-/

namespace Sys2Proof.Machine

/-! ## Entries (R124) -/

abbrev TtEnt := BitVec 256
def TtEnt.marker (e : TtEnt) : Nat := fieldAt e 0 2
/-- 0 FETCH, 1 EVICT, 2 REQUIRE, 3 HOLD. -/
def TtEnt.action (e : TtEnt) : Nat := fieldAt e 2 1
def TtEnt.baseReg (e : TtEnt) : Nat := fieldAt e 3 1
/-- 0 STALL, 1 TRAP, 2 PROCEED. -/
def TtEnt.policy (e : TtEnt) : Nat := fieldAt e 4 1
def TtEnt.lead (e : TtEnt) : Nat := fieldAt e 6 2
def TtEnt.pages (e : TtEnt) : Nat := fieldAt e 16 4
/-- The limits of R124. -/
def TtEnt.good (e : TtEnt) : Bool :=
  decide (e.action ≤ 3) && decide (e.baseReg ≤ 15) && (if e.action = 2 then decide (e.policy ≤ 2) else e.policy == 0) &&
    fieldAt e 5 1 == 0 && (e.action == 0 || e.action == 3 || e.lead == 0) && fieldAt e 8 8 % 65536 == 0 &&
    decide (1 ≤ e.pages) && decide (e.pages ≤ 65536) && fieldAt e 20 12 == 0
/-- VA of the first page of the region, from these base registers. -/
def TtEnt.region (e : TtEnt) (bases : List (BitVec 72)) : Nat :=
  ((((bases.getD e.baseReg 0).toNat : Int) + (BitVec.ofNat 64 (fieldAt e 8 8)).toInt) % 2 ^ 72).toNat / 65536 * 65536
def TtEnt.pageVas (e : TtEnt) (bases : List (BitVec 72)) : List Nat :=
  (List.range e.pages).map (fun i => (e.region bases + 65536 * i) % 2 ^ 72)

/-! ## Pages (R131, R135) -/

/-- The level-0 leaf of a page, with its address. -/
def State.leafOf (s : State) (c va : Nat) : Option (Pte × Nat) :=
  match (s.walkFrom c va none).1 with
  | .leaf 0 e epa => some (e, epa)
  | _ => none
/-- The die whose frame pool holds this address (R134). -/
def State.poolDie (s : State) (pa : Nat) : Option Nat :=
  (List.range s.dies).find? (fun d =>
    let p := s.host.pools.getD d {}
    decide (p.framepa ≤ pa) && decide (pa < p.framepa + 65536 * p.frames))
/-- The page is movable (R135): its leaf, the leaf's address and the die of its tier engine. -/
def State.movable (s : State) (c va : Nat) : Option (Pte × Nat × Nat) :=
  match s.leafOf c va with
  | none => none
  | some (e, epa) =>
    if e.migr && !e.contig && (e.type == 0 || e.type == 1) && s.isLocal e.pa then
      if paKind e.pa = 1 then some (e, epa, paDie e.pa)
      else
        match s.poolDie e.pa with
        | some d => some (e, epa, d)
        | none => none
    else none
/-- The page is near-resident: valid leaf, near address, no migration in progress (R131). -/
def State.nearResident (s : State) (c va : Nat) : Bool :=
  match s.leafOf c va with
  | none => false
  | some (e, _) => paKind e.pa == 0 && !s.migs.any (fun m => m.ctx == c && m.vpn == va / 65536)
/-- The die's engine moves pages: some channel group of the die is ready (R143). -/
def State.tierWorks (s : State) (d : Nat) : Bool :=
  s.groups != 0 && ((s.groups.getLsbD (2 * d) && s.groupRdy (2 * d)) || (s.groups.getLsbD (2 * d + 1) && s.groupRdy (2 * d + 1)))

/-- A request of STALL goes to the head of the queue (R138). DESIGN CHOICE: behind those that went there before it (log 138). -/
def toHead (q : List TierReq) (r : TierReq) : List TierReq := q.filter (fun x => x.stall) ++ r :: q.filter (fun x => !x.stall)
/-- Ask a die's tier engine for a page: a queue of 4,096 requests drops the request, but one of STALL waits for space (R138). -/
def State.tierAsk (s : State) (d c va : Nat) (fetch stall : Bool) : State :=
  let full := decide (4096 ≤ (s.tierq.filter (fun x => x.die == d && !x.waiting)).length)
  let r : TierReq := { id := s.fresh, die := d, ctx := c, vpn := va / 65536, fetch, stall, waiting := full }
  if !s.tierWorks d || (full && !stall) then s
  else { s with tierq := if stall && !full then toHead s.tierq r else s.tierq ++ [r], fresh := s.fresh + 1 }
/-- Take a request out of the queue: the STALL request that has waited longest for space goes to the head (R138). -/
def State.tierDrop (s : State) (r : TierReq) : State :=
  let q := s.tierq.erase r
  { s with tierq := match q.find? (fun x => x.die == r.die && x.waiting) with
      | some x => toHead (q.erase x) { x with waiting := false }
      | none => q }

/-! ## Markers (R127, R128) -/

def Wave.mark (w : Wave) : Nat := (w.marker.getD 0).toNat
/-- Minimum marker over the waves that have not exited; none: past every marker. -/
def State.teamMarker (s : State) (t : Team) : Option Nat :=
  match (s.wavesOf t.tid).filter (fun w => !w.ended) with
  | [] => none
  | ws => some (minNat (ws.map Wave.mark))
/-- A team of the grid is still to be dealt (R128). -/
def Grid.undealt (g : Grid) : Bool :=
  g.redeal != [] || (if g.isJob then g.rem != 0 else decide (g.nextOrd < g.total))
/-- Every team that is to be dealt has been (R70, R75). -/
def Grid.allDealt (g : Grid) : Bool :=
  !g.undealt || (match g.stopAt with
    | none => false
    | some n => if g.isJob then true else decide (n ≤ g.nextOrd) && g.redeal.all (fun x => decide (n ≤ x.base)))
/-- Trailing; none: past every marker (R128). A team that is still to be dealt, first or again after a flush, stands at 0 (R128,
R141). -/
def State.trailing (s : State) (g : Grid) : Option Nat :=
  if !g.allDealt then some 0
  else
    match (s.teams.filter (fun t => t.gid == g.gid && t.kind == .dealt && t.st != .retired)).filterMap s.teamMarker with
    | [] => none
    | ms => some (minNat ms)
def passed (m : Option Nat) (k : Nat) : Bool := match m with | none => true | some x => decide (k < x)

/-- A HOLD entry is in force (R129). -/
def State.holdOn (s : State) (g : Grid) (e : TtEnt) : Bool :=
  g.snapshot.isSome && e.action == 3 && decide (e.marker ≤ g.lead + e.lead) && !passed (s.trailing g) e.marker && !g.retired
/-- The page is under HOLD (R129, R137). -/
def State.held (s : State) (c va : Nat) : Bool :=
  s.grids.any (fun g => g.ctx == c && (g.tt.getD []).any (fun (e : TtEnt) =>
    s.holdOn g e &&
      (let base := e.region (g.snapshot.getD [])
       decide ((va / 65536 * 65536 + 2 ^ 72 - base) % 2 ^ 72 < 65536 * e.pages))))

/-- Make the page requests of an entry: to near for a page that is not near-resident, to far for one that is (R129, R131). -/
def State.ttRequest (s : State) (g : Grid) (e : TtEnt) : State :=
  let fetch := e.action == 0
  (e.pageVas (g.snapshot.getD [])).foldl (fun s va =>
    match s.movable g.ctx va with
    | some (_, _, d) => if s.nearResident g.ctx va == fetch then s else s.tierAsk d g.ctx va fetch false
    | none => s) s

/-- The condition of a FETCH or EVICT entry (R129); at retirement every EVICT is due (R130). -/
def State.ttDue (s : State) (g : Grid) (e : TtEnt) (retire : Bool) : Bool :=
  g.snapshot.isSome && (if e.action = 0 then decide (e.marker ≤ g.lead + e.lead) && !retire
    else e.action == 1 && (retire || passed (s.trailing g) e.marker))

/-- Fire the entries whose condition holds, each once (R129). -/
def State.fireTt (s : State) (gid : Nat) (retire : Bool) : State :=
  match s.grid? gid with
  | none => s
  | some g =>
    match g.tt with
    | none => s
    | some es =>
      if s.groups = 0 || !(s.ctx g.ctx).enable then s
      else
        (List.range es.length).foldl (fun s k =>
          let e := es.getD k 0
          if !g.fired.contains k && s.ttDue g e retire then
            (s.ttRequest g e).updGrid gid (fun g => { g with fired := k :: g.fired })
          else s) s

end Sys2Proof.Machine
end

