-- ==== Sys2Proof/Machine/Control.lean ====
section
/-!
DEFINITION. Control transfer, EXIT, WSYNC, the Idle group and the hints: R281 to R286, R316 to R319.
-/

namespace Sys2Proof.Machine

/-! ## Branches (R274, R316) -/

/-- BRA (R316). -/
def execBra (o : BitVec 25) (s : State) : Out :=
  .next (s.regIssue (fSYS [] []) (fun _ _ _ l => .ok (l.goto (l.pc + o.signExtend 32))))
/-- BRP: the branch is taken where p[P] XOR N is 1 (R316). -/
def execBrp (p : BitVec 7) (n : BitVec 1) (o : BitVec 17) (s : State) : Out :=
  .next (s.regIssue (fSYS [] []) (fun _ _ _ l =>
    .ok (if l.p p.toNat != (n == 1) then l.goto (l.pc + o.signExtend 32) else l.adv)))
/-- CALL: v127 := lpc + 1, then the branch (R316). -/
def execCall (o : BitVec 25) (s : State) : Out :=
  .next (s.regIssue (fSYS [] [(127, 1)]) (fun _ _ _ l => .ok ((l.set 127 (l.pc + 1)).goto (l.pc + o.signExtend 32))))
/-- A jump to the address in a register (R316). -/
def jumpOp (a : BitVec 7) (e : BitVec 1) (g : BitVec 2) (s : State) : State :=
  s.regIssue (fun _ _ => { g := g.toNat, srcs := [src a e] }) (fun _ _ _ l => .ok (l.goto (l.v a.toNat)))
/-- JMPI (R316). -/
def execJmpi (a : BitVec 7) (e : BitVec 1) (g : BitVec 2) (s : State) : Out := .next (jumpOp a e g s)
/-- RET: JMPI v127 (R316). -/
def execRet (e : BitVec 1) (g : BitVec 2) (s : State) : Out := .next (jumpOp 127 e g s)

/-! ## EXIT (R317) -/

/-- What one lane's EXIT means for its invocation and its team (R189, R210). -/
def State.laneExits (s : State) (i : Iss) (L : Nat) : State :=
  let l := i.l L
  let s1 := s.updLane i.uid L (fun l => { l with st := .exited, hints := [], stepping := false })
  if l.inHandler then
    let s2 := match l.routine with | some r => s1.routineFault r | none => s1
    s2.faultTeam i.t.tid
  else
    match l.routine with
    | some r => s1.routineEnds r 4 0 none none
    | none => s1

/-- What follows when lanes of a team have exited: its tickets, its handler, its timetable (R70, R129, R387). -/
def State.afterExit (s : State) (i : Iss) : State :=
  let s1 := s.exitTickets i.t.tid
  ((s1.endHandler i.uid).checkStuck i.t.tid).fireTt i.t.gid false

/-- EXIT, once the lane's earlier writes have performed (R317, R151). -/
def execExit (s : State) : Out :=
  .next (s.issueForced (fSYS [] []) (fun _ _ => anyWrite) false never (fun i s =>
    ((i.E.foldl (fun s L => s.laneExits i L) s).afterExit i, [])))

/-! ## WSYNC (R200, R318) -/

/-- WSYNC: the lanes wait at its address; in a routine it raises ROUTINE (R189). -/
def execWsync (s : State) : Out :=
  .next (s.regIssue (fun _ _ => { prd := false }) (fun _ _ _ l =>
    if l.routine.isSome then .trap l (l.trapHere tkROUTINE 0) else .ok { l with st := .blocked .wsync }))

/-- The lanes of a wave that wait at WSYNC in handler code, or outside it (R209, R318). -/
def Wave.syncers (w : Wave) (handler : Bool) : List Nat :=
  (List.range w.lanes.length).filter (fun L => (w.lane L).st == .blocked .wsync && (w.lane L).inHandler == handler)
/-- A lane that keeps the others of its wave at WSYNC: not exited, not parked, not halted (R200). -/
def Lane.counts (l : Lane) : Bool :=
  match l.st with
  | .exited => false
  | .trapped => false
  | .faulted _ => false
  | .halted => false
  | _ => true
/-- The address whose waiting lanes are released, if any (R200, R318): no counted lane is elsewhere than at a WSYNC, and
it is the lowest at which lanes wait (which is the one address when all stand together). In the handler every lane of it stands at that
one address. -/
def Wave.syncPc (w : Wave) (handler : Bool) : Option Nat :=
  let ws := w.syncers handler
  let others := (List.range w.lanes.length).filter (fun L =>
    (if handler then (w.lane L).live else (w.lane L).counts) && (w.lane L).inHandler == handler && (w.lane L).st != .blocked .wsync)
  let low := minNat (ws.map (fun L => (w.lane L).pc.toNat))
  if ws = [] then none
  else if others = [] && (!handler || ws.all (fun L => (w.lane L).pc.toNat == low)) then some low
  else none
/-- No drain is in progress: no WSYNC releases during one (R200, R208). DEDUCED: a drain that ends in the handler lasts until the handler
starts, so that no lane goes on between the quiescent point and its entry (R209; log 18). -/
def State.syncFree (s : State) (w : Wave) : Bool := match w.win with | some x => x.closed && (w.handling || s.deliver w == []) | none => true
/-- WSYNC_RELEASE of wave n (R200, R318). -/
def execWsyncRelease (s : State) : Out :=
  .next (match s.activeWave? s.occ.n with
    | none => s
    | some w =>
      let h := w.handling
      match (if s.syncFree w then w.syncPc h else none) with
      | none => s
      | some pc =>
        let go := (w.syncers h).filter (fun L => (w.lane L).pc.toNat == pc)
        (s.updWave w.uid (fun w => go.foldl (fun w L => w.updLane L (fun l => { l.adv with st := .run })) w)).stepHalt w.uid)

/-! ## The Idle group (R319) -/

/-- NOP (R319). -/
def execNop (s : State) : Out := .next (s.regIssue (fSYS [] []) (fun _ _ _ l => .ok l.adv))
/-- YIELD: the wave stands back at the next cycle (R319, R81). -/
def execYield (s : State) : Out :=
  .next (s.issue (fSYS [] []) never (fun i s =>
    laneBody (fun _ _ _ l => .ok l.adv) i (s.updWave i.uid (fun w => { w with sched := 1, schedAt := s.dieCycle i.die }))))
/-- Cycles of a SLEEP: the largest count, capped (R319). -/
def sleepFor (i : Iss) (a : BitVec 7) : Nat := min 1048575 ((i.E.map (fun L => ((i.l L).v a.toNat).toNat)).foldl max 0)
/-- SLEEP: the lanes stay eligible until their cycles of the die's clock have passed (R319). -/
def execSleep (a : BitVec 7) (s : State) : Out :=
  .next (s.issue (fSYS [srcBlk a] []) (waitIf (fun _ i => i.E.all (fun L => (i.l L).wake.isSome))) (fun i s =>
    let new := i.E.filter (fun L => (i.l L).wake.isNone)
    let till := s.dieCycle i.die + sleepFor { i with E := new } a
    (s.updWave i.uid (fun w => new.foldl (fun w L => w.updLane L (fun l => { l with wake := some till })) w), [])))
/-- A lane's SLEEP is over. -/
def Lane.awake (l : Lane) (dieCycle : Nat) : Bool := match l.wake with | some n => decide (n ≤ dieCycle) | none => false
/-- SLEEP_EXPIRY of wave n (R319). -/
def execSleepExpiry (s : State) : Out :=
  .next (match s.activeWave? s.occ.n with
    | none => s
    | some w =>
      let d := (s.teamOf w).die
      let go := w.minSet.filter (fun L => (w.lane L).awake (s.dieCycle d))
      (s.updWave w.uid (fun w => go.foldl (fun w L => w.updLane L Lane.adv) w)).stepHalt w.uid)

/-! ## Hints (R199, R281) -/

def fHINT : FormF := fun _ _ => { unguarded := true, isHint := true }
/-- A lane executes a hint: it holds it, unless it holds one of its kind or three already (R281). -/
def takeHint (major : Nat) (pay : BitVec 25) (l : Lane) : LRes :=
  if l.hints.any (fun h => h.major.toNat == major) || decide (3 ≤ l.hints.length) then
    .trap l (l.trapHere tkILLHINT (lo32 major))
  else .ok { l with hints := l.hints ++ [{ major := BitVec.ofNat 7 major, pay, pc := l.pc }], pc := l.pc + 1 }
def hintOp (major : Nat) (pay : BitVec 25) (s : State) : State := s.regIssue fHINT (fun _ _ _ l => takeHint major pay l)
/-- SCHED (R286). -/
def execSched (p : BitVec 2) (s : State) : Out := .next (hintOp 0x7B (p.zeroExtend 25) s)
/-- XIMM (R283). -/
def execXimm (p : BitVec 25) (s : State) : Out := .next (hintOp 0x7C p s)
/-- XSRC (R284). -/
def execXsrc (k : BitVec 2) (v : BitVec 20) (s : State) : Out := .next (hintOp 0x7D (k ++ (0 : BitVec 3) ++ v) s)
/-- XMOD (R285). -/
def execXmod (t e w : BitVec 1) (sc : BitVec 3) (c h : BitVec 2) (f : BitVec 5) (a : BitVec 1) (m : BitVec 3) (s : State) : Out :=
  .next (hintOp 0x7E ((0 : BitVec 6) ++ t ++ e ++ w ++ sc ++ c ++ h ++ f ++ a ++ m) s)
/-- PRED (R282). -/
def execPred (p : BitVec 7) (n : BitVec 1) (s : State) : Out := .next (hintOp 0x7F (p ++ n ++ (0 : BitVec 17)) s)

end Sys2Proof.Machine
end

