-- ==== Sys2Proof/Machine/Score.lean ====
section
/-!
DEFINITION. The Scoresheet at its logged points: record, replay and divergence (R255 to R257, R393).
-/

namespace Sys2Proof.Machine

/-- The 16-byte record of a point (R256). -/
def SsPoint.bytes (p : SsPoint) (check : Nat) : BitVec 128 :=
  record 128 [(0, 1, p.kind), (1, 1, p.unit), (2, 2, check), (4, 4, p.id.toNat), (8, 1, p.wave.toNat), (9, 1, p.lane.toNat),
    (10, 2, p.grid.toNat), (12, 4, p.n.toNat)]
/-- The END record (R256). -/
def ssEndRec : BitVec 128 := record 128 [(0, 1, 255)]
def recKind (r : BitVec 128) : Nat := fieldAt r 0 1
def recUnit (r : BitVec 128) : Nat := fieldAt r 1 1
/-- The key of a point: die, kind and unit. -/
def pointKey (die kind unit : Nat) : Nat := 65536 * die + 256 * kind + unit % 256

/-- SSSTATUS code (R242). -/
def SsStatus.code : SsStatus → Nat
  | .idle => 0
  | .recording => 1
  | .replaying => 2
  | .refused => 3
  | .diverged => 4
  | .ended => 5

/-- Domain physical address of the debug control block (R242). -/
def State.dbgPa (s : State) : Nat := s.tabPa + 0x20100

/-- SSSTATUS takes a value, in the device and in the block (R242). -/
def State.setSs (s : State) (x : SsStatus) : State :=
  let s1 : State := { s with dbg := { s.dbg with ssStatus := x } }
  if s.devOk (s.dbgPa + 10) 1 then s1.wr (s.dbgPa + 10) 1 x.code else s1

/-- Write records to stream 3 of a die while its ring has space; what is left stays on chip (R255). -/
def State.ssFlushGo (s : State) (die : Nat) : List (BitVec 128) → State × List (BitVec 128)
  | [] => (s, [])
  | r :: rs =>
    match s.ringPut none (s.streamPa die 3 % 2 ^ 60) [16] (fun _ => recordBytes r) with
    | .ok s1 => State.ssFlushGo s1 die rs
    | _ => (s, r :: rs)
/-- The records a die holds on chip go to its ring as far as it has space. -/
def State.ssFlush (s : State) (die : Nat) : State :=
  let (s1, rest) := s.ssFlushGo die (s.dbg.ssChip.getD die [])
  { s1 with dbg := { s1.dbg with ssChip := listUpd s1.dbg.ssChip die (fun _ => rest) } }
/-- Append a record on chip, then pass on what the ring takes. -/
def State.ssAppend (s : State) (die : Nat) (r : BitVec 128) : State :=
  ({ s with dbg := { s.dbg with ssChip := listUpd s.dbg.ssChip die (fun l => l ++ [r]) } } : State).ssFlush die

/-- A die whose log stands at END runs unconstrained; when every die does, replay has ended (R257, R393). -/
def State.ssReach (s : State) (die : Nat) : State :=
  match s.dbg.ssLog.getD die [] with
  | r :: _ =>
    if recKind r = 255 && !s.dbg.ssEnd.contains die then
      let ended := die :: s.dbg.ssEnd
      let s1 : State := { s with dbg := { s.dbg with ssEnd := ended, ssHeld := s.dbg.ssHeld.filter (fun x => x.key / 65536 != die) } }
      if (List.range s.dies).all (fun d => ended.contains d) then s1.setSs .ended else s1
    else s
  | [] => s

/-- Records of these kinds follow one order: the operations that arrive at an ESU and the generations put in force there are in one log (R174),
and a record of any other kind only follows its own (R257). -/
def oneOrder (j k : Nat) : Bool := j == k || ((j == 2 || j == 3) && (k == 2 || k == 3))
/-- The record of a die's log that comes first where work of this kind arrives at a unit. -/
def State.ssHead (s : State) (die kind unit : Nat) : Option (BitVec 128) :=
  (s.dbg.ssLog.getD die []).find? (fun r => oneOrder (recKind r) kind && recUnit r == unit % 256)

/-- A point holds this work, from now if it did not yet (R257). -/
def State.ssHold (s : State) (key : Nat) (p : SsPoint) : State :=
  if s.dbg.ssHeld.any (fun x => x.key == key && x.pt == p) then s
  else { s with dbg := { s.dbg with ssHeld := s.dbg.ssHeld ++ [{ key, since := s.cycle, pt := p }] } }
/-- Work arrives at a logged point of a die: it goes on (true), having been logged or matched, or it is held back
(false). A point that holds work notes since when (R255 to R257). -/
def State.ssGate (s : State) (logged : Bool) (die : Nat) (p : SsPoint) : Bool × State :=
  let key := pointKey die p.kind p.unit
  let count := (Tab.find s.dbg.ssCount key).getD 0
  let counted (s : State) : State :=
    { s with dbg := { s.dbg with ssCount := Tab.put s.dbg.ssCount key (count + 1), ssHeld := s.dbg.ssHeld.filter (fun x => x.key != key) } }
  if !logged then (true, s)
  else
    match s.dbg.ssStatus with
    | .recording =>
      let s1 := s.ssFlush die
      if decide (4096 ≤ (s1.dbg.ssChip.getD die []).length) then (false, s1)
      else (true, (counted s1).ssAppend die (p.bytes count))
    | .replaying =>
      if s.dbg.ssEnd.contains die then (true, s)
      else
        match s.ssHead die p.kind p.unit with
        | some r =>
          if r = p.bytes count then
            let s1 := counted s
            (true, ({ s1 with dbg := { s1.dbg with ssLog := listUpd s1.dbg.ssLog die (fun l => l.erase r) } } : State).ssReach die)
          else (false, s.ssHold key p)
        | none => (false, s.ssHold key p)
    | _ => (true, s)

/-- The work would go on. -/
def State.ssOpen (s : State) (logged : Bool) (die : Nat) (p : SsPoint) : Bool := (s.ssGate logged die p).1

/-- ID of a team in records: Caddy and routine waves by their formation ordinal (R256). -/
def Team.ssId (t : Team) : BitVec 32 :=
  if t.kind = .dealt then BitVec.ofNat 32 t.ordinal else 0x80000000#32 ||| BitVec.ofNat 32 t.formOrd
/-- The point of a lane's access or estimator operation (R256, kinds 1 and 2). -/
def accPoint (kind unit : Nat) (g : Grid) (t : Team) (a : Acc) : SsPoint :=
  { kind, unit, id := t.ssId, wave := BitVec.ofNat 8 a.wave, lane := BitVec.ofNat 8 a.lane
    grid := BitVec.ofNat 16 (g.logOrd.getD 0), n := BitVec.ofNat 32 a.count }

/-- Replay diverges: a DIVERGE record, SSSTATUS, and every held work goes on (R257, R252). -/
def State.ssDiverge (s : State) (die cause unit : Nat) : State :=
  let s1 := s.streamPut die 0 (record 256 [(0, 1, 11), (1, 1, cause), (2, 2, fieldAt s.dbg.blk 8 1), (16, 8, s.time), (28, 4, unit)])
  let s2 := s1.setSs .diverged
  { s2 with dbg := { s2.dbg with ssLog := [[], [], [], []], ssEnd := [], ssHeld := [] } }

/-- What a header of stream 3 lets the device read: first index, count of records, slots, ring size. -/
def State.ssReadGo (s : State) (die slots count : Nat) : Nat → Nat → State × Nat
  | 0, rel => (s, rel)
  | n + 1, rel =>
    if s.dbg.ssStatus != .replaying then (s, rel)
    else
      let r : BitVec 128 := BitVec.ofNat 128 (s.rd (slots + 16 * (rel % count)) 16)
      if recKind r = 0 || (decide (11 ≤ recKind r) && recKind r != 255) then (s.ssDiverge die 3 (recUnit r), rel + 1)
      else
        let s1 : State := { s with dbg := { s.dbg with ssLog := listUpd s.dbg.ssLog die (fun l => l ++ [r]) } }
        if recKind r = 255 then (s1.ssReach die, rel + 1) else State.ssReadGo s1 die slots count n (rel + 1)

/-- In REPLAY the device consumes the log of a die as far as the driver has written it, and advances RELIDX (R257). -/
def State.ssRead (s : State) (die : Nat) : State :=
  let h := s.streamPa die 3 % 2 ^ 60
  if s.dbg.ssStatus != .replaying || (s.dbg.ssLog.getD die []).any (fun r => recKind r == 255) || !s.devOk h 64 then s
  else
    let hdr := ringHdr (memBytes s.mem h 64) [16] false
    let avail := (hdr.widx + 2 ^ 64 - hdr.relidx) % 2 ^ 64
    if !hdr.good || decide (hdr.count < avail) || avail = 0 then s
    else
      let (s1, rel) := s.ssReadGo die hdr.slots hdr.count avail hdr.relidx
      s1.wr (h + 8) 8 rel

/-- The log of a die holds records not yet read. -/
def State.ssUnread (s : State) (die : Nat) : Bool :=
  let h := s.streamPa die 3 % 2 ^ 60
  s.dbg.ssStatus == .replaying && !(s.dbg.ssLog.getD die []).any (fun r => recKind r == 255) && s.devOk h 64 &&
    (let hdr := ringHdr (memBytes s.mem h 64) [16] false
     hdr.good && hdr.widx != hdr.relidx && decide ((hdr.widx + 2 ^ 64 - hdr.relidx) % 2 ^ 64 ≤ hdr.count))

end Sys2Proof.Machine
end

