-- ==== Sys2Proof/Machine/MemOp.lean ====
section
/-!
DEFINITION. What memory instructions share: translation of their lanes at issue (R94, R102, R104), the checks of R320 in
their order, the access each lane makes (R144 to R151), scratchpad operands (R114), and blocking (R197).
-/

namespace Sys2Proof.Machine

/-! ## Latencies (R12, R15, R24) -/

/-- The line is held for this die by its L2 (its own lines) or its RDC (all others). -/
def State.homeHere (s : State) (die pa : Nat) : Bool := s.isLocal pa && paDie pa == die
/-- The L2 of its home serves the access: its page is cached there, and the line has been brought in (R15, R98, R110; log 6). -/
def State.l2Hit (s : State) (a : Acc) : Bool := a.type == 0 && s.l2.contains (a.addr / 128)
/-- Cycles from issue to landing of an idle access that performs at its home: the figures of R15 (log 6). -/
def State.homeCycles (s : State) (a : Acc) : Nat :=
  if a.sp.isSome then 24 + a.extra
  else if a.type = 4 || paKind a.addr = 3 then (if s.isLocal a.addr then 405 else 1080)
  else
    let near := paKind a.addr == 0
    if s.homeHere a.die a.addr then (if s.l2Hit a then 190 else if near then 432 else 702)
    else if s.isLocal a.addr then (if s.l2Hit a then 421 else if near then 663 else 933)
    else if s.l2Hit a || near then 756 else 1134
/-- A line of a cached page is in the L2 of its home from now on. -/
def State.fillLine (s : State) (type pa : Nat) : State :=
  if type != 0 || s.l2.contains (pa / 128) then s else { s with l2 := pa / 128 :: s.l2 }
def State.fillL2 (s : State) (a : Acc) : State := if a.sp.isSome then s else s.fillLine a.type a.addr
/-- When an access of memory lands at the latest: 1.5 µs after the issue of its instruction, at every clock (R12). -/
def Acc.bound (a : Acc) : Nat := if a.sp.isSome then 0 else a.born + 4050
def Acc.within (a : Acc) (due : Nat) : Nat := if a.bound = 0 then due else min due a.bound
/-- When what an access reads at its home may land: on the slower of the die that issues it and its home (R24). -/
def State.homeDue (s : State) (a : Acc) : Nat :=
  let n := s.homeCycles a
  let home := if a.sp.isNone && s.isLocal a.addr && paKind a.addr ≤ 1 then s.slow (paDie a.addr) n else 0
  a.within (a.start + max (s.slow a.die n) home)
/-- When what an access reads in its core's L1, or its die's RDC, may land (R15, R24). -/
def State.copyDue (s : State) (a : Acc) (l1 : Bool) : Nat := a.within (a.start + s.slow a.die (if l1 then 30 else 200))
/-- What an engine answers lands after an L2 hit's figure (R353, log 6). -/
def State.replyDue (s : State) (die : Nat) : Nat := s.after die 190

/-! ## Translation at issue (R94, R98 to R104) -/

/-- A wave asks for a page walk: it joins the entry of its die's miss table, or takes a free one (R102). -/
def State.askWalk (s : State) (die c page uid : Nat) : State :=
  let hit (m : Miss) : Bool := m.die == die && m.ctx == c && m.vpn == page
  if s.misses.any hit then
    { s with misses := s.misses.map (fun m => if hit m && !m.uids.contains uid then { m with uids := m.uids ++ [uid] } else m) }
  else if decide (1024 ≤ (s.misses.filter (fun m => m.die == die)).length) then s
  else { s with misses := s.misses ++ [{ die := die, ctx := c, vpn := page, uids := [uid] }] }

/-- The pages among these addresses that have neither a translation nor the result of a walk. -/
def State.unwalked (s : State) (i : Iss) (vas : List Nat) : List Nat :=
  ((vas.map (fun va => va / 65536)).eraseDups).filter (fun p =>
    (s.tlbFind i.die i.c (p * 65536)).isNone && !i.w.walkFaults.any (fun x => x.1 == p))
/-- The set waits for the page walks it still needs (R94, R102). -/
def needPages (vas : Iss → List Nat) : State → Iss → Option State := fun s i =>
  match s.unwalked i (vas i) with
  | [] => none
  | ps => some (ps.foldl (fun s p => s.askWalk i.die i.c p i.uid) s)

/-- What the checks of one lane's access answer (R320). -/
inductive Xl where
  | ok (pa : Nat) (e : Pte)
  | misaligned
  /-- Parks on a fault record of this cause (R56). -/
  | fault (cause : Nat)
  /-- Raises ACCESS with this detail (R97, R98, R17). -/
  | access (detail : Word)
deriving DecidableEq, Repr

/-- Translate n bytes at va for a lane and check the page (R98, R99, R97, R17, R20). -/
def State.laneXl (s : State) (i : Iss) (va n : Nat) (k : AccKind) : Xl :=
  match s.tlbFind i.die i.c va with
  | none => .fault (match i.w.walkFaults.find? (fun x => x.1 == va / 65536) with | some x => x.2 | none => 1)
  | some t =>
    let e : Pte := t.leaf
    let pa := t.phys va
    if k.writes && !e.write then .fault 2
    else if k = .fetch && (!e.exec || e.type != 0) then .fault 2
    else if !s.present pa || !s.holds pa n || !typeOk k e.type n then .access 0
    else if !s.reachable pa then .access 1
    else if !s.memRdy (some i.die) (e.type == 0 || e.type == 1) pa then .fault 3
    else .ok pa e

/-- The first write through a translation whose DIRTY was 0 at the fill sets it in the leaf (R100). -/
def State.setDirty (s : State) (die c va : Nat) : State :=
  match s.tlbFind die c va with
  | none => s
  | some t =>
    if t.dirty then s
    else { (s.orPte t.leafPa 0x200) with tlb := s.tlb.map (fun x => if x == t then { x with dirty := true } else x) }

/-- Lanes whose access faults, by cause and page: each group shares one record (R104). -/
def faultGroups (fs : List (Nat × Nat × Nat)) : List ((Nat × Nat) × List (Nat × Nat)) :=
  ((fs.map (fun f => (f.2.2, f.2.1 / 65536))).eraseDups).map (fun k =>
    (k, (fs.filter (fun f => (f.2.2, f.2.1 / 65536) == k)).map (fun f => (f.1, f.2.1))))

/-- A lane keeps what its instruction was issued with, beyond a fault or a claim (R105, R335, R349, R361). -/
def Lane.keep (l : Lane) (w : Wave) : Lane :=
  { l with replay := match l.replay with | some x => some x | none => some { regs := l.regs, bases := w.bases, scaleloc := w.scaleloc } }
/-- The lanes park with their destinations empty and marked; what the access was issued with is kept (R104, R105). -/
def Lane.faultMark (l : Lane) (w : Wave) (dst : Nat × Nat) : Lane := (((l.keep w).mark l.pc dst.1 dst.2).markFault dst.1 dst.2)
/-- Lanes of one instruction fault: lane, VA, cause. -/
def State.parkFaults (s : State) (i : Iss) (kind : Nat) (dst : Nat × Nat) (fs : List (Nat × Nat × Nat)) : State :=
  (faultGroups fs).foldl (fun s g =>
    let ls := g.2.map (fun x => x.1)
    let va := (g.2.headD (0, 0)).2
    let pc := (i.l (ls.headD 0)).pc
    let s1 := s.updWave i.uid (fun w => { (ls.foldl (fun w L => w.updLane L (fun l => l.faultMark w dst)) w) with
      walkFaults := w.walkFaults.filter (fun x => x.1 != va / 65536) })
    s1.parkFault i.uid ls g.1.1 kind va pc) s

/-- Perform a memory instruction for its executing lanes, each checked on its own (R320): the lanes that pass go on by
go, which is given the physical address and the leaf. dst are the destinations of a lane that parks. -/
def memBody (k : AccKind) (align n : Nat) (va : Iss → Nat → Nat) (dst : Nat × Nat)
    (go : Iss → Nat → Nat → Pte → State → State) (i : Iss) (s : State) : State × Traps :=
  let xs := i.E.map (fun L => (L, va i L, if va i L % align = 0 then s.laneXl i (va i L) n k else .misaligned))
  let s1 := xs.foldl (fun s x => match x.2.2 with
    | .ok pa e => go i x.1 pa e (if k.writes then s.setDirty i.die i.c x.2.1 else s)
    | .access d => if d = 1 then s.machineCheck i.c 0xFFFF 0 1 s.downPort else s
    | _ => s) s
  let s2 := s1.parkFaults i k.code dst (xs.filterMap (fun x => match x.2.2 with | .fault c => some (x.1, x.2.1, c) | _ => none))
  (s2, xs.filterMap (fun x => match x.2.2 with
    | .misaligned => some (x.1, ((i.l x.1).trapHere tkMISALIGN (lo32 align)).withVa x.2.1)
    | .access d => some (x.1, ((i.l x.1).trapHere tkACCESS d).withVa x.2.1)
    | _ => none))

/-- What the checks of a lane with several accesses answer: all pass, or the first that does not. -/
inductive Xls where
  | ok (ps : List (Nat × Pte))
  | bad (va : Nat) (x : Xl)
deriving DecidableEq, Repr
def State.laneXls (s : State) (i : Iss) (k : AccKind) : List (Nat × Nat) → Xls
  | [] => .ok []
  | (va, n) :: r =>
    match s.laneXl i va n k with
    | .ok pa e => (match State.laneXls s i k r with | .ok ps => .ok ((pa, e) :: ps) | x => x)
    | x => .bad va x
/-- memBody for lanes that make several accesses each: all of them pass, or the lane stops on the first that does not. -/
def memBodyN (k : AccKind) (vas : Iss → Nat → List (Nat × Nat)) (dst : Nat × Nat)
    (go : Iss → Nat → List (Nat × Pte) → State → State) (i : Iss) (s : State) : State × Traps :=
  let xs := i.E.map (fun L => (L, s.laneXls i k (vas i L)))
  let s1 := xs.foldl (fun s x => match x.2 with
    | .ok ps => go i x.1 ps (if k.writes then (vas i x.1).foldl (fun s v => s.setDirty i.die i.c v.1) s else s)
    | .bad _ (.access d) => if d = 1 then s.machineCheck i.c 0xFFFF 0 1 s.downPort else s
    | _ => s) s
  let s2 := s1.parkFaults i k.code dst (xs.filterMap (fun x => match x.2 with | .bad va (.fault c) => some (x.1, va, c) | _ => none))
  (s2, xs.filterMap (fun x => match x.2 with
    | .bad va (.access d) => some (x.1, ((i.l x.1).trapHere tkACCESS d).withVa va)
    | _ => none))

/-- The addresses of the lanes that are aligned: only these are translated (R320). -/
def alignedVas (align : Nat) (va : Iss → Nat → Nat) (i : Iss) : List Nat := (i.E.map (fun L => va i L)).filter (fun a => a % align == 0)

/-! ## The accesses lanes make -/

/-- The operation counts for records of kind 1 and 2 (R256). -/
def counts (op : AccOp) (log sp : Bool) : Bool :=
  !sp && (op.isEst || log || (match op with | .atom _ _ _ _ => true | .rrel _ => true | _ => false))

/-- The scope that XMOD gives an access: domain unless it names another (R149). -/
def scopeOf (h : HintSet) : BitVec 3 := match h.xmod with | none => 5 | some x => xmSCOPE x
/-- An access of a lane, of this scope, joins those that have still to perform (R151); the lane counts its logged operations (R256). -/
def State.addAccAt (s : State) (i : Iss) (L : Nat) (scope : BitVec 3) (a : Acc) : State :=
  let h := i.h L
  let c := match s.wave? i.uid with | some w => (w.lane L).opCount | none => 0
  let a1 : Acc := { a with
    id := s.fresh, ctx := i.c, gid := i.t.gid, tid := i.t.tid, uid := i.uid, wave := i.w.idx, lane := L, die := i.die
    core := i.core, pc := (i.l L).pc, count := c, born := s.cycle, start := s.cycle, me := (i.l L).me, home := (i.l L).home
    scope
    nol1 := match h.xmod with | none => false | some x => xmCACHE x == 2 }
  let s1 : State := { s with accs := s.accs ++ [a1], fresh := s.fresh + 1 }
  if counts a.op a.log a.sp.isSome then s1.updLane i.uid L (fun l => { l with opCount := l.opCount + 1 }) else s1

/-- An access with the scope that XMOD gives it. -/
def State.addAcc (s : State) (i : Iss) (L : Nat) (a : Acc) : State := s.addAccAt i L (scopeOf (i.h L)) a
/-- A blank access: addAcc fills in who makes it. -/
def accOf (op : AccOp) (addr n : Nat) : Acc :=
  { id := 0, op, ctx := 0, gid := 0, tid := 0, uid := 0, wave := 0, lane := 0, die := 0, core := 0, pc := 0, addr, n }

/-- Bytes that a lane reads or writes at their home as its instruction issues: lane, address, length and page. -/
structure Whole where
  lane : Nat
  pa : Nat
  n : Nat
  e : Pte
deriving DecidableEq, Repr
/-- The pieces of these lanes, where all of a lane's pass its checks. -/
def State.wholes (s : State) (i : Iss) (k : AccKind) (vas : Iss → Nat → List (Nat × Nat)) (Ls : List Nat) : List Whole :=
  Ls.flatMap (fun L => match s.laneXls i k (vas i L) with
    | .ok ps => (ps.zip (vas i L)).map (fun x => { lane := L, pa := x.1.1, n := x.2.2, e := x.1.2 })
    | .bad _ _ => [])
/-- The pieces arrive at their homes: those of LOG pages pass their logged points and count for their lanes, all of them, or from s0 on
the work is held back (R256, kind 1); their bytes have moved (R254). -/
def State.passGo (s0 s : State) (i : Iss) : List Whole → Bool × State
  | [] => (true, s)
  | x :: r =>
    if !x.e.log then State.passGo s0 (s.movedBytes i.c x.pa x.n) i r
    else
      let a : Acc := { accOf .store x.pa x.n with wave := i.w.idx, lane := x.lane, count := (s.laneNow i x.lane).opCount }
      let g := s.ssGate (i.g.logOrd.isSome && s.isLocal x.pa) (paDie x.pa) (accPoint 1 (paSlice x.pa) i.g i.t a)
      if g.1 then State.passGo s0 ((g.2.updLane i.uid x.lane (fun l => { l with opCount := l.opCount + 1 })).movedBytes i.c x.pa x.n) i r
      else (false, { s0 with dbg := { s0.dbg with ssHeld := g.2.dbg.ssHeld } })
/-- Cycles from issue until the slowest of these reads of a die's lane is there, each by the figure of R15. -/
def State.wholeCycles (s : State) (die : Nat) (ws : List Whole) : Nat :=
  (ws.map (fun x => s.homeCycles { accOf (.load 0 0) x.pa x.n with die, type := x.e.type })).foldl max 0
/-- When an answer lands that rests on these reads (R15, R353). -/
def State.wholeDue (s : State) (i : Iss) (L : Nat) (ws : List Whole) : Nat := s.after i.die (s.wholeCycles i.die (ws.filter (fun x => x.lane == L)))
/-- The state in which the pieces have passed. -/
def State.passed (s : State) (i : Iss) (ws : List Whole) : State := (s.passGo s i ws).2
/-- The lanes have read the pieces, with this order (R147, R148); the L2 of their homes hold them (R110). -/
def State.sawAll (s : State) (i : Iss) (ord : Ord) (ws : List Whole) : State :=
  ws.foldl (fun s x => (s.sawWhole (s.whoOf i.uid x.lane) none x.pa x.n ord x.e.type).fillLine x.e.type x.pa) s
/-- The access by which a lane reads or writes a piece as a whole. -/
def State.wholeAcc (s : State) (i : Iss) (op : AccOp) (ord : Ord) (x : Whole) : Acc :=
  let q := s.whoOf i.uid x.lane
  { accOf op x.pa x.n with uid := q.uid, die := q.die, me := q.me, home := q.tid, ord, type := x.e.type }
/-- The set waits while an access of a lane that is ordered before one of its pieces has still to perform (R146, R148). -/
def waitPieces (op : AccOp) (ord : Ord) (ws : State → Iss → List Whole) : State → Iss → Option State :=
  waitIf (fun s i => (ws s i).any (fun x => s.ordersPend i.uid x.lane (s.wholeAcc i op ord x)))
/-- Pieces that count as accesses of every lane of the set. -/
def Iss.eachLane (i : Iss) (ws : List Whole) : List Whole := i.E.flatMap (fun L => ws.map (fun x => { x with lane := L }))
/-- The set waits while a logged point holds one of its pieces back. -/
def waitWholes (ws : State → Iss → List Whole) : State → Iss → Option State := fun s i =>
  let g := s.passGo s i (ws s i)
  if g.1 then none else some g.2

/-- ORD of loads, of stores, and of atomics (R270, R271). -/
def ordLd (o : BitVec 2) : Ord := match o.toNat with | 0 => .sc | 1 => .wk | _ => .acq
def ordSt (o : BitVec 2) : Ord := match o.toNat with | 0 => .sc | 1 => .wk | _ => .rel
def ordAt (o : BitVec 2) : Ord := match o.toNat with | 0 => .sc | 1 => .wk | _ => .ar

/-- SUB of LD and ST: size in bytes, registers, and the bits to sign-extend from, 0 for none (R270). -/
def widthOf (r : BitVec 3) : Nat × Nat × Nat :=
  match r.toNat with
  | 0 => (1, 1, 0)
  | 1 => (2, 1, 0)
  | 2 => (4, 1, 0)
  | 3 => (8, 2, 0)
  | 4 => (16, 4, 0)
  | 5 => (1, 1, 8)
  | _ => (2, 1, 16)

/-- The lane goes on past a memory instruction, with these destinations empty (R203). -/
def State.goOn (s : State) (i : Iss) (L : Nat) (dst : Nat × Nat) : State :=
  s.updLane i.uid L (fun l => (l.mark l.pc dst.1 dst.2).adv)

/-! ## Scratchpad operands (R114, R115, R325) -/

/-- The team whose scratchpad a member number names, or none beyond CSIZE (R114). DESIGN CHOICE: nor where a short last cluster of a JOB has no
such member (log 62). -/
def State.memberOf (s : State) (t : Team) (g : Grid) (k : Nat) : Option Nat :=
  if k = 15 then some t.tid
  else
    match t.cluster with
    | none => if k = 0 then some t.tid else none
    | some cl => if g.csize ≤ k then none else ((s.teams.find? (fun u => u.gid == t.gid && u.cluster == some cl && u.cmember == k)).map Team.tid)

/-- BR of a scratchpad operand is 15 or a member number (R325). -/
def spBad (r : BitVec 4) : Bool := decide (4 ≤ r.toNat) && decide (r.toNat ≤ 14)

/-- What the checks of one lane's scratchpad access answer (R114, R320). -/
def State.spCheck (s : State) (i : Iss) (L : Nat) (r : Nat) (a n : Nat) : Except Trap Nat :=
  let l := i.l L
  match s.memberOf i.t i.g r with
  | none => .error (l.trapHere tkCLUSTERRANGE (lo32 r))
  | some tid =>
    if a % n != 0 then .error ((l.trapHere tkMISALIGN (lo32 n)).withOff a)
    else if decide (((s.team? tid).map Team.alloc).getD 0 < a + n) then .error ((l.trapHere tkACCESS 0).withOff a)
    else .ok tid

/-- The 4-byte words of an access, and the cycles that an instruction takes at the banks beyond its first (R117). -/
def spWords (n a : Nat) : List Nat := (List.range (max 1 (n / 4))).map (fun k => a / 4 + k)
def bankWait (offs : List Nat) (n : Nat) : Nat :=
  let ws := (offs.flatMap (spWords n)).eraseDups
  (ws.map (fun w => (ws.filter (fun x => x % 128 == w % 128)).length)).foldl max 1 - 1

/-- Perform a scratchpad instruction for its executing lanes in ascending order; go is given the team and the offset. What it adds, an
access or a value on its way, takes the cycles at the banks and to another member's scratchpad as well (R117). -/
def spBody (r : BitVec 4) (off : Iss → Nat → Nat) (n : Nat) (go : Iss → Nat → Nat → Nat → State → State) (i : Iss) (s : State) :
    State × Traps :=
  let xs := i.E.map (fun L => (L, s.spCheck i L r.toNat (off i L) n))
  let s1 := xs.foldl (fun s x => match x.2 with | .ok tid => go i x.1 tid (off i x.1) s | .error _ => s) s
  let more := bankWait ((xs.filter (fun x => x.2.isOk)).map (fun x => off i x.1)) n +
    (if xs.any (fun x => match x.2 with | .ok tid => tid != i.t.tid | .error _ => false) then 40 else 0)
  ({ s1 with
      accs := s.accs ++ (s1.accs.drop s.accs.length).map (fun a => { a with extra := more })
      lands := s.lands ++ (s1.lands.drop s.lands.length).map (fun x => { x with due := x.due + s.slow i.die more }) },
   xs.filterMap (fun x => match x.2 with | .ok _ => none | .error t => some (x.1, t)))

/-- The lane itself still works on a list that has one of these bytes of a team's scratchpad (R398). -/
def State.ownList (s : State) (i : Iss) (L tid a n : Nat) : Bool :=
  match s.team? tid with
  | some t => t.locks.any (fun k => k.uid == i.uid && k.lanes.getLsbD L && decide (a < k.off + k.len) && decide (k.off < a + n))
  | none => false
/-- A scratchpad access waits, eligible, for its own lane's KINIT, KINS or KMRG on a list whose bytes it names (R398). -/
def waitList (r : BitVec 4) (off : Iss → Nat → Nat) (n : Nat) : State → Iss → Option State :=
  waitIf (fun s i => i.E.any (fun L => match s.spCheck i L r.toNat (off i L) n with
    | .ok tid => s.ownList i L tid (off i L) n
    | .error _ => false))

/-! ## Granules (R116) -/

def Team.granuleFull (t : Team) (g : Nat) : Bool := !t.empties.contains g
def Team.setGranule (t : Team) (g : Nat) (full : Bool) : Team :=
  { t with empties := if full then t.empties.filter (fun x => x != g) else if t.empties.contains g then t.empties else g :: t.empties }
def State.granuleFull (s : State) (tid g : Nat) : Bool := match s.team? tid with | some t => t.granuleFull g | none => true
def State.setGranule (s : State) (tid g : Nat) (full : Bool) : State := s.updTeam tid (fun t => t.setGranule g full)
/-- Bytes of a team's scratchpad. -/
def State.spRd (s : State) (tid a n : Nat) : List Byte := match s.team? tid with | some t => bytesAt t.scratch a n | none => []
def State.spWr (s : State) (tid a : Nat) (bs : List Byte) : State :=
  (s.noteWrite (some tid) a bs.length).updTeam tid (fun t => { t with scratch := putBytes t.scratch a bs })

/-! ## Blocking (R197) -/

/-- A lane blocks at its instruction, last in order. -/
def State.block (s : State) (uid L : Nat) (wt : Wait) : State :=
  ({ s with fresh := s.fresh + 1 } : State).updLane uid L (fun l => { l with st := .blocked wt, bseq := s.fresh })
/-- Every lane that is blocked: uid, lane, order, and what it waits for. -/
def State.blocked (s : State) : List (Nat × Nat × Nat × Wait) :=
  s.waves.flatMap (fun w => (List.range w.lanes.length).filterMap (fun L =>
    match (w.lane L).st with | .blocked wt => some (w.uid, L, (w.lane L).bseq, wt) | _ => none))
/-- A blocked lane completes its instruction. -/
def State.unblock (s : State) (uid L : Nat) (f : Lane → Lane) : State :=
  (s.updLane uid L (fun l => { (f l).adv with st := .run })).stepHalt uid

/-- A value read from memory or scratchpad is on its way to registers (R203). -/
def State.landRead (s : State) (uid L d : Nat) (vals : List Word) (due : Nat) (pc : Word) (bound : Nat := 0) (src : Option (Nat × BitVec 72 × Nat) := none) : State :=
  { s with
    lands := s.lands ++ [{ id := s.fresh, uid, lane := L, d, vals, due, pc, isRead := true, bound, src }]
    fresh := s.fresh + 1 }

/-- A value that an access brings is on its way to its lane, from its home or from a copy, unless the lane has ended (R12, R17, R146, R203,
R207). -/
def State.landFor (s : State) (a : Acc) (d : Nat) (vals : List Word) (due : Nat) (home : Bool := true) : State :=
  if a.mute then s
  else s.landRead a.uid a.lane d vals due a.pc a.bound (if home && a.sp.isNone then some (a.addr, a.va, a.born) else none)

/-- The copies in a core's L1 and its die's RDC go (R155). -/
def State.dropCopies (s : State) (die core : Nat) : State :=
  { s with copies := s.copies.filter (fun c => !(c.die == die && (c.core == none || c.core == some core))) }

end Sys2Proof.Machine
end

