-- ==== Sys2Proof/Machine/Card.lean ====
section
/-!
DEFINITION. What a packet may hold: the field checks of JOB and GRID cards, of the other packets and of queue headers
(R34, R38 to R47, R79).
-/

namespace Sys2Proof.Machine

/-- Some byte from off to off + len - 1 is not zero. -/
def nonzero {w : Nat} (x : BitVec w) (off len : Nat) : Bool := fieldAt x off len != 0
/-- A 9-byte field holds a virtual address: its top 7 bits are zero (R29). -/
def vaField (v : Nat) : Bool := decide (v < 2 ^ 65)
def within (lo n hi : Nat) : Bool := decide (lo ≤ n) && decide (n ≤ hi)

abbrev Pkt := BitVec 512
def Pkt.kind (p : Pkt) : Nat := fieldAt p 0 1
def Pkt.flags (p : Pkt) : Nat := fieldAt p 1 1
def Pkt.seq (p : Pkt) : Nat := fieldAt p 2 2
def Pkt.wait (p : Pkt) : Bool := p.flags.testBit 4
def Pkt.signal (p : Pkt) : Bool := p.flags.testBit 5
def Pkt.bit6 (p : Pkt) : Bool := p.flags.testBit 6
def Pkt.waitIdx (p : Pkt) : Nat := fieldAt p 46 2
def Pkt.waitTgt (p : Pkt) : Nat := fieldAt p 48 4
def Pkt.sigIdx (p : Pkt) : Nat := fieldAt p 52 2
def Pkt.user (p : Pkt) : Nat := fieldAt p 56 8

/-- The counters that WAIT and SIGNAL name exist (R38, R49). -/
def countersOk (c : Ctx) (p : Pkt) : Bool :=
  (!p.wait || decide (p.waitIdx < c.cntcount)) && (!p.signal || decide (p.sigIdx < c.cntcount))

/-! ## JOB and GRID cards (R39 to R41) -/

/-- The records or teams of a card: none completes it at once (R39, R41). -/
def cardWork (p : Pkt) : Nat := if p.kind = 1 then fieldAt p 20 4 else fieldAt p 20 2 * fieldAt p 22 2 * fieldAt p 24 2

/-- The fields that JOB and GRID share are within their limits (R39, R40). -/
def cardCommon (c : Ctx) (p : Pkt) : Bool :=
  let waves := fieldAt p 18 2
  let csize := fieldAt p 27 1
  let regs := fieldAt p 28 2
  let slots := fieldAt p 32 1
  !p.flags.testBit 7 && vaField (fieldAt p 8 9) && within 1 waves 32 && within 1 csize 4 && (csize == 1 || p.flags.testBit 3) &&
    within 16 regs 128 && regs % 16 == 0 && decide (fieldAt p 30 2 ≤ 512) && decide (slots ≤ 32) && decide (fieldAt p 33 1 ≤ 3) &&
    (!p.bit6 || decide (fieldAt p 34 2 < c.ttcount)) && vaField (fieldAt p 36 9) && !nonzero p 45 1 && !nonzero p 54 2 &&
    countersOk c p && decide (waves * regs ≤ 3072) && decide (waves * slots ≤ 128)

/-- A JOB or GRID card has no field error (R40, R62). -/
def cardGood (c : Ctx) (p : Pkt) : Bool :=
  cardCommon c p &&
    (if p.kind = 1 then
      within 4 (fieldAt p 17 1) 10 && fieldAt p 8 9 % 2 ^ fieldAt p 17 1 == 0 && within 32 (fieldAt p 24 2) 1024 &&
        fieldAt p 24 2 % 32 == 0 && within 1 (fieldAt p 26 1) 16
    else
      !nonzero p 17 1 && !nonzero p 26 1 && fieldAt p 8 9 % 16 == 0 &&
        (!p.flags.testBit 3 || cardWork p % fieldAt p 27 1 == 0))

/-- The standing card of an ESTREQ queue (R79). -/
def templateGood (c : Ctx) (p : Pkt) : Bool :=
  p.kind == 1 && cardGood c p && fieldAt p 17 1 == 4 && fieldAt p 20 4 == 0 && fieldAt p 8 9 == 0 && fieldAt p 36 9 == 0 &&
    !p.wait && p.waitIdx == 0 && p.waitTgt == 0

/-! ## COPY (R42) -/

def Pkt.srcSp (p : Pkt) : Bool := p.flags.testBit 1 || p.flags.testBit 3
def Pkt.dstSp (p : Pkt) : Bool := p.flags.testBit 2
def Pkt.xbytes (p : Pkt) : Nat := fieldAt p 26 4
def Pkt.ycount (p : Pkt) : Nat := fieldAt p 30 2
def Pkt.zcount (p : Pkt) : Nat := fieldAt p 32 2
/-- A COPY packet has no field error: the queue's QKIND, and whether the device knows the pushing lane's team (R42). DESIGN CHOICE: the
destination of SETFULL is judged by DST and XBYTES; rows and strides count for nothing (log 136). -/
def copyGood (c : Ctx) (qkind : Nat) (pusher : Bool) (p : Pkt) : Bool :=
  let dims := fieldAt p 4 1
  let tc := fieldAt p 5 1
  let member := fieldAt p 6 1
  qkind != 0 && !p.flags.testBit 7 && within 1 dims 3 && tc / 4 % 32 == 0 && decide (member ≤ 3) && !nonzero p 7 1 &&
    (p.srcSp || vaField (fieldAt p 8 9)) && (p.dstSp || vaField (fieldAt p 17 9)) && decide (1 ≤ p.xbytes) &&
    decide (1 ≤ p.ycount) && decide (1 ≤ p.zcount) && (decide (2 ≤ dims) || p.ycount == 1) && (dims == 3 || p.zcount == 1) &&
    !nonzero p 58 2 && countersOk c p && (!(p.srcSp || p.dstSp) || (qkind == 1 && pusher)) &&
    (!p.flags.testBit 0 || (p.dstSp && fieldAt p 17 9 % 16 == 0 && p.xbytes % 16 == 0))

/-! ## The other kinds (R43 to R47) -/

/-- A packet of kind 1 to 8 has no field error (R40). -/
def packetGood (c : Ctx) (qkind : Nat) (pusher : Bool) (p : Pkt) : Bool :=
  match p.kind with
  | 1 => cardGood c p
  | 2 => cardGood c p
  | 3 => copyGood c qkind pusher p
  | 4 =>
    p.flags &&& 0x8F == 0 && !nonzero p 4 4 && fieldAt p 8 9 % 128 == 0 && vaField (fieldAt p 8 9) && !nonzero p 17 11 &&
      within 32 (fieldAt p 28 2) 128 && fieldAt p 28 2 % 16 == 0 && decide (fieldAt p 30 2 ≤ 512) && !nonzero p 32 1 &&
      decide (fieldAt p 33 1 ≤ 3) && !nonzero p 34 12 && !nonzero p 54 2 && countersOk c p
  | 5 => p.flags == 0 && decide (fieldAt p 4 2 < c.cntcount) && decide (fieldAt p 6 1 ≤ 1) && !nonzero p 7 1 && !nonzero p 16 48
  | 6 => p.flags == 0 && decide (fieldAt p 4 2 < c.cntcount) && decide (fieldAt p 6 1 ≤ 1) && !nonzero p 7 1 && !nonzero p 16 48
  | 7 =>
    p.flags == 0 && decide (fieldAt p 4 2 < c.ttcount) && !nonzero p 6 2 && vaField (fieldAt p 8 9) && !nonzero p 17 3 &&
      within 1 (fieldAt p 20 4) 65536 && !nonzero p 24 40
  | _ => p.flags &&& 0xCF == 0 && !nonzero p 4 42 && !nonzero p 54 10 && countersOk c p

/-! ## Queue headers (R33, R34) -/

abbrev QueueHdr := BitVec 512
def QueueHdr.slots (h : QueueHdr) : Nat := fieldAt h 16 9
def QueueHdr.logslots (h : QueueHdr) : Nat := fieldAt h 25 1
def QueueHdr.prio (h : QueueHdr) : Nat := fieldAt h 26 1
def QueueHdr.qkind (h : QueueHdr) : Nat := fieldAt h 27 1
def QueueHdr.affinity (h : QueueHdr) : Nat := fieldAt h 29 1
def QueueHdr.cring (h : QueueHdr) : Nat := fieldAt h 32 9
def QueueHdr.template (h : QueueHdr) : Nat := fieldAt h 48 9
/-- The header has no field error on a part of this many dies (R34). -/
def QueueHdr.good (h : QueueHdr) (dies : Nat) : Bool :=
  within 4 h.logslots 20 && decide (h.prio ≤ 3) && decide (h.qkind ≤ 3) && h.slots % 64 == 0 && vaField h.slots &&
    (match h.qkind with
     | 1 => decide (h.affinity < 12 * dies)
     | 2 => decide (h.affinity < dies)
     | _ => h.affinity == 0) &&
    (h.qkind == 3 || h.template == 0) && !nonzero h 30 2 && !nonzero h 41 7 && !nonzero h 57 7

end Sys2Proof.Machine
end

