-- ==== Sys2Proof/Machine/Queue.lean ====
section
/-!
DEFINITION. Queue monitors: the kept header (R34), halts (R37), counters (R49, R50), consumption of a slot (R36), and the
completion of packets with its rings (R48, R51 to R55).
-/

namespace Sys2Proof.Machine

/-! ## Monitors (R58) -/

/-- Die of a queue's monitor, and the monitor's number on it. -/
def State.monDie (s : State) (q : Nat) : Nat := q / 64 % s.dies
def monOf (q : Nat) : Nat := q % 64
/-- VA of a queue's header (R32). -/
def Queue.hva (q : Queue) : Nat := q.qaddr.toNat * 256
/-- The monitor serves the queue: enabled, running, its header read, its context enabled, its die ready (R21, R31, R32). -/
def State.served (s : State) (q : Nat) : Bool :=
  let x := s.queue q
  x.enable && x.status == 0 && !x.stale && (s.ctx x.ctx.toNat).enable && s.qmonRdy (s.monDie q)

/-! ## Halts (R37) -/

/-- Drop the grid of a packet that has not been dispatched (R32, R36). -/
def State.undeal (s : State) (q : Nat) : State :=
  { s with grids := s.grids.filter (fun g => !(!g.begun && (match g.src with | .packet p _ => p == q | _ => false))) }
/-- READIDX as it stands, or as the monitor last knew it where it cannot be read (R37). -/
def State.readIdx (s : State) (q : Nat) : Nat :=
  let x := s.queue q
  match s.engRd x.ctx.toNat (x.hva + 8) 8 with | .ok (bs, _) => leNat bs | _ => x.rix
/-- STATUS is written, in the monitor and, when the header can be written, in memory. -/
def State.setStatus (s : State) (q code : Nat) : State :=
  let x := s.queue q
  let s1 := s.updQueue q (fun x => { x with status := BitVec.ofNat 8 code })
  match s1.engWr x.ctx.toNat (x.hva + 28) [BitVec.ofNat 8 code] with | .ok s2 => s2 | _ => s1
/-- A queue halts with a STATUS and posts QUEUEHALT with a slot index (R37, R55). -/
def State.haltQueue (s : State) (q code slot : Nat) : State :=
  let s0 := if code = 5 then s.noteLost (s.queue q).ctx.toNat (s.queue q).hva else s
  let s1 := ((s0.undeal q).updQueue q (fun x => { x with held := none })).setStatus q code
  s1.event 3 (s.queue q).ctx.toNat q slot [(24, 1, code)]

/-! ## The header (R34, R79) -/

/-- The records that stand in an ESTREQ queue when its header is read count as present: those whose append has performed
(R79, R395; log 26). -/
def State.countPresent (s : State) (q : Nat) : State :=
  let x := s.queue q
  match s.engRd x.ctx.toNat x.hva 16 with
  | .ok (bs, _) =>
    let r := bsNat bs 8 8
    let n := min (bsNat bs 0 8 - r) (2 ^ QueueHdr.logslots x.hdr)
    let late (k : Nat) : Bool := s.appends.any (fun a => a.slot == some k && a.ctx == x.ctx.toNat && a.hdr.toNat == x.hva)
    let ks := ((List.range n).map (fun i => r + i)).filter (fun k => !late k)
    s.updQueue q (fun x => { x with present := ks.map (fun k =>
      match x.present.find? (fun y => y.1 == k) with | some y => y | none => (k, s.cycle)) })
  | _ => s
/-- The header is read and checked: the queue runs on, halts, or must wait for memory that is not ready. -/
def State.readHeader (s : State) (q : Nat) : State :=
  let x := s.queue q
  let c := x.ctx.toNat
  match s.engRd c x.hva 64 with
  | .wait => s
  | .fault _ => (s.updQueue q (fun x => { x with stale := false })).haltQueue q 5 x.rix
  | .ok (bs, s1) =>
    let h : QueueHdr := BitVec.ofNat 512 (leNat bs)
    let s2 := s1.updQueue q (fun x => { x with stale := false, hdr := h, held := none, rix := fieldAt h 8 8 })
    if !h.good s.dies then s2.haltQueue q 4 (fieldAt h 8 8)
    else if h.qkind = 3 then
      match s2.engRd c h.template 64 with
      | .wait => s
      | .fault _ => s2.haltQueue q 4 (fieldAt h 8 8)
      | .ok (cs, s3) =>
        let card : Pkt := BitVec.ofNat 512 (leNat cs)
        if templateGood (s.ctx c) card then (s3.updQueue q (fun x => { x with template := card })).countPresent q
        else s3.haltQueue q 4 (fieldAt h 8 8)
    else s2
/-- A queue's monitor can work for it: its context runs, and the monitor is ready (R19, R21). -/
def State.monWorks (s : State) (q : Nat) : Bool := (s.ctx (s.queue q).ctx.toNat).enable && s.qmonRdy (s.monDie q)
/-- The queues whose header is still to be read and can be read now (R21, R34). DESIGN CHOICE: one enabled, or with RESTART,
while its context is disabled waits for it (log 133). -/
def State.staleQueues (s : State) : List Nat :=
  (s.queues.filter (fun x => x.2.stale && s.monWorks x.1)).map (fun x => x.1)

/-! ## Slots (R36) -/

/-- VA of slot index i of a packet queue. -/
def Queue.slotVa (x : Queue) (i : Nat) : Nat := (QueueHdr.slots x.hdr + 64 * (i % 2 ^ QueueHdr.logslots x.hdr)) % 2 ^ 72

/-- What the monitor finds at the head of a queue. -/
inductive Head where
  | empty
  /-- The header or the slot cannot be read: HALT-FAULT (R37). -/
  | unreadable
  | packet (p : BitVec 512) (slot : Nat)
deriving DecidableEq, Repr

/-- The slot at READIDX, as it stands (R36, steps 1 and 2). -/
def State.head (s : State) (q : Nat) : Head :=
  let x := s.queue q
  let c := x.ctx.toNat
  match s.engRd c x.hva 16 with
  | .wait => .empty
  | .fault _ => .unreadable
  | .ok (bs, _) =>
    let w := bsNat bs 0 8
    let r := bsNat bs 8 8
    if w = r then .empty
    else
      match s.engRd c (x.slotVa r) 64 with
      | .wait => .empty
      | .fault _ => .unreadable
      | .ok (ps, _) => if bsNat ps 0 1 = 0 then .empty else .packet (BitVec.ofNat 512 (leNat ps)) r

/-- KIND := 0, then READIDX := READIDX + 1 (R36, step 6); what is known of the slot's writer goes with it. -/
def State.consume (s : State) (q slot : Nat) : Eng State :=
  let x := s.queue q
  let c := x.ctx.toNat
  match s.engXlate c (x.slotVa slot) 1 true with
  | .ok (pa, s1) =>
    match (s1.wrBytes pa [0]).engWr c (x.hva + 8) (leBytes 8 (slot + 1)) with
    | .ok s2 => .ok { (s2.updQueue q (fun x => { x with held := none, rix := slot + 1 })) with pushers := Tab.drop s2.pushers pa }
    | .fault f => .fault f
    | .wait => .wait
  | .fault f => .fault f
  | .wait => .wait

/-- A packet is dispatched: its slot is consumed, and it runs until it completes (R36). -/
def State.addOut (s : State) (q slot : Nat) (p : Pkt) (gid : Nat) (tid : Option Nat) (st : OutSt) : State :=
  { s with
    outs := s.outs ++ [{ id := s.fresh, q, slot, ctx := (s.queue q).ctx.toNat, pkt := p, st, gid, tid }]
    fresh := s.fresh + 1 }
/-- Consume and dispatch, or halt with HALT-FAULT, or wait. -/
def State.dispatch (s : State) (q slot : Nat) (p : Pkt) (gid : Nat) (tid : Option Nat) (st : OutSt) : State :=
  match s.consume q slot with
  | .ok s1 => s1.addOut q slot p gid tid st
  | .fault _ => s.haltQueue q 5 slot
  | .wait => s

/-! ## Counters (R49, R50) -/

def Ctx.counterVa (c : Ctx) (i : Nat) : Nat := (c.cntva + 8 * i) % 2 ^ 72
/-- The value of a counter. -/
def State.counter (s : State) (c i : Nat) : Eng Nat :=
  match s.engRd c ((s.ctx c).counterVa i) 8 with
  | .ok (bs, _) => .ok (leNat bs)
  | .fault f => .fault f
  | .wait => .wait
/-- An SC atomic at a counter: add, or set (R45, R48). What is done for grid gid comes before it, and what came before a write that it reads
(R147, R153, R402). -/
def State.counterOp (s : State) (c i gid : Nat) (set : Bool) (v : Nat) : Eng State :=
  match s.engXlate c ((s.ctx c).counterVa i) 8 true with
  | .ok (pa, s1) =>
    .ok ((((s1.wr pa 8 (if set then v else s1.rd pa 8 + v)).byEngine signalDom s1.writes).releaseInto (fun k => k == .grid gid) s1.writes).carry pa 8 s1.writes)
  | .fault f => .fault f
  | .wait => .wait
/-- A packet's WAIT has been met by this counter: what came before the signal that it reads comes before what the packet starts (R153, R402). -/
def State.afterWait (s : State) (c i : Nat) (k : Sync) : State :=
  match s.engXlate c ((s.ctx c).counterVa i) 8 false with
  | .ok (pa, _) => s.readInto (fun w => w.eng == some signalDom) pa 8 k
  | _ => s
def State.poisoned (s : State) (c i : Nat) : Bool := (s.ctx c).poisoned.contains i

/-! ## Completion (R48, R51 to R55) -/

/-- The completion record of a packet: as many of its bytes as a slot takes; TIME is when it completed, not when a full ring let
the record in (R52). -/
def State.complRec (s : State) (o : OutPkt) (status units : Nat) : BitVec 512 :=
  let k := Pkt.kind o.pkt
  let user := if k = 3 then fieldAt o.pkt 60 4 else if k = 1 || k = 2 || k = 4 then Pkt.user o.pkt else 0
  record 512 [(0, 6, o.slot), (6, 2, o.q % 4096 + 4096 * k), (8, 1, status), (12, 4, min units 0xFFFFFFFF), (16, 8, user), (24, 8, o.doneAt.getD s.time)]

/-- The packet has its record written when it completes: its queue has a ring, and COPY and TRAVERSE ask for it (R48). -/
def State.wantsRecord (s : State) (o : OutPkt) : Bool :=
  !o.child && QueueHdr.cring (s.queue o.q).hdr != 0 && ((Pkt.kind o.pkt != 3 && Pkt.kind o.pkt != 4) || Pkt.bit6 o.pkt)

/-- Steps 2 and 3 of R48: the signal, then the event; the packet is then complete. A skipped slot has neither (R37). -/
def State.afterRecord (s : State) (o : OutPkt) (status : BitVec 8) (units : Nat) : State :=
  let k := Pkt.kind o.pkt
  let post (s : State) : State :=
    let s1 : State := { s with outs := s.outs.filter (fun x => x.id != o.id) }
    if (k == 1 || k == 2 || k == 4) && status != 3 then
      s1.event (if status = 0 then 1 else 2) o.ctx (if o.child then 0xFFFF else o.q) o.slot
        [(24, 16, (s.complRec o status.toNat units).toNat), (40, 8, if status = 0 then 0 else o.firstFault.toNat)]
    else s1
  if Pkt.signal o.pkt && status == 0 && !(k == 5 || k == 6 || k == 7) then
    match s.counterOp o.ctx (Pkt.sigIdx o.pkt) o.gid false 1 with
    | .ok s1 => post s1
    | .wait => s.updOut o.id (fun o => { o with st := .signalBad status units })
    | .fault _ =>
      if o.child then post s
      else (s.updOut o.id (fun o => { o with st := .signalBad status units })).haltQueue o.q 5 (s.readIdx o.q)
  else post s

/-- The completion steps of a packet, from its record on (R48); what its grid has done comes before the record (R153). -/
def State.completeOut (s : State) (o : OutPkt) (status : BitVec 8) (units : Nat) : State :=
  if s.wantsRecord o || (status == 3 && QueueHdr.cring (s.queue o.q).hdr != 0) then
    match s.ringPut (some o.ctx) (QueueHdr.cring (s.queue o.q).hdr) [16, 32, 64]
        (fun n => (recordBytes (s.complRec o status.toNat units)).take n) with
    | .ok s1 => (s1.releaseInto (fun k => k == .grid o.gid) s.writes).afterRecord o status units
    | .full s1 => s1.updOut o.id (fun o => { o with st := .ringWait status units, doneAt := some (o.doneAt.getD s.time) })
    | .bad => (s.updOut o.id (fun o => { o with st := .ringBad status units, doneAt := some (o.doneAt.getD s.time) })).haltQueue o.q 5 o.slot
  else s.afterRecord o status units

/-- A batch of an ESTREQ queue has retired: READIDX advances past it (R80). -/
def State.endBatch (s : State) (o : OutPkt) : Eng State :=
  match (s.queue o.q).batch with
  | some (gid, slot, n) =>
    if gid != o.gid || o.child then .ok s
    else
      match s.engWr o.ctx ((s.queue o.q).hva + 8) (leBytes 8 (slot + n)) with
      | .ok s1 => .ok (s1.updQueue o.q (fun x => { x with batch := none, rix := slot + n, present := x.present.filter (fun y => decide (slot + n ≤ y.1)) }))
      | .fault f => .fault f
      | .wait => .wait
  | none => .ok s

/-- PACKET_COMPLETION of packet n (R48, R80). -/
def execPacketCompletion (s : State) : Out :=
  .next (match s.out? s.occ.n with
    | none => s
    | some o =>
      match o.st with
      | .done status units =>
        match s.endBatch o with
        | .ok s1 => s1.completeOut o status units
        | .fault _ => (s.updOut o.id (fun o => { o with st := .ringBad status units })).haltQueue o.q 5 o.slot
        | .wait => s
      | .signalBad status units => if o.child || (s.queue o.q).status == 0 then s.afterRecord o status units else s
      | _ => s)
/-- COMPLETION_RING_SPACE for packet n: the record, then what waited behind it (R51). -/
def execCompletionRingSpace (s : State) : Out :=
  .next (match s.out? s.occ.n with
    | none => s
    | some o =>
      match o.st with
      | .ringWait status units => s.completeOut o status units
      | _ => s)

/-- What RESTART does for the packets that wait at an unusable ring or counter: they repeat, or with SKIP their record,
signal and event are dropped (R37); a SIGNAL whose own write waits is SKIPPED then (log 123). -/
def State.restartOuts (s : State) (q : Nat) (skip : Bool) : State :=
  (s.outs.filter (fun o => o.q == q && !o.child)).foldl (fun s o =>
    match o.st with
    | .ringBad status units =>
      if skip then { s with outs := s.outs.filter (fun x => x.id != o.id) }
      else match s.endBatch o with
        | .ok s1 => s1.completeOut o status units
        | .fault _ => s.haltQueue q 5 o.slot
        | .wait => s.updOut o.id (fun o => { o with st := .done status units })
    | .signalBad status units =>
      if skip then { s with outs := s.outs.filter (fun x => x.id != o.id) } else s.afterRecord o status units
    | .opBad => s.updOut o.id (fun o => { o with st := if skip then .done 3 0 else .running })
    | _ => s) s
/-- Some packet of the queue waits at an unusable ring or counter. -/
def State.stuckOut (s : State) (q : Nat) : Bool :=
  s.outs.any (fun o => o.q == q && !o.child && (match o.st with | .ringBad _ _ => true | .signalBad _ _ => true | .opBad => true | _ => false))

/-! ## Waiting records (R54) -/

/-- A waiting record, by its place in the list: event, fault and machine-check rings (R54). -/
def State.retryAt (s : State) (k : Nat) : State :=
  match s.ringWaits[k]? with
  | none => s
  | some r =>
    match s.retryWait r with
    | .gone s1 => { s1 with ringWaits := s1.ringWaits.eraseIdx k }
    | .copied s1 => { s1 with ringWaits := listUpd s1.ringWaits k (fun r => { r with copied := true }) }
    | .stays => s
/-- EVENT_RING_SPACE for waiting record n (R54). -/
def execEventRingSpace (s : State) : Out :=
  .next (match s.ringWaits[s.occ.n]? with | some r => if r.ring = 1 then s else s.retryAt s.occ.n | none => s)
/-- FAULT_RING_SPACE for waiting record n (R54). -/
def execFaultRingSpace (s : State) : Out :=
  .next (match s.ringWaits[s.occ.n]? with | some r => if r.ring = 1 then s.retryAt s.occ.n else s | none => s)

end Sys2Proof.Machine
end

