-- ==== Sys2Proof/Machine/Grid.lean ====
section
/-!
DEFINITION. Grids and placement: new grids and their dispatch (R36, R71, R123, R125), room on cores and the choice of a
core (R64 to R68, R115), deals (R61 to R63, R69, R70, R86), the entry state of dealt teams (R202, R264).
-/

namespace Sys2Proof.Machine

/-! ## New grids -/

/-- A grid in its deal list (R60); a child that WAIT holds is not dealt yet (R71). -/
def State.addGrid (s : State) (c : Nat) (card : Pkt) (src : GridSrc) (depth prio rootQ rootSlot : Nat) (waiting : Bool) : State :=
  { s with
    grids := s.grids ++ [{ gid := s.fresh, ctx := c, card, src, depth, prio, rem := if Pkt.kind card = 1 then fieldAt card 20 4 else 0,
                           waiting, rootQ, rootSlot }]
    fresh := s.fresh + 1 }

/-- What the timetable of a grid turns out to be at its dispatch (R123, R125). -/
inductive TtLoad where
  | ok (tt : Option (List (BitVec 256)))
  | malformed
  | wait
deriving DecidableEq, Repr

/-- The entries of a timetable object. -/
def ttEntries (bs : List Byte) : Nat → List TtEnt
  | 0 => []
  | n + 1 => BitVec.ofNat 256 (leNat (bs.take 32)) :: ttEntries (bs.drop 32) n

/-- The timetable of a card: entry TTINDEX of the context's table, then the whole object, checked (R123 to R125). -/
def State.loadTt (s : State) (c : Nat) (card : Pkt) : TtLoad :=
  if !Pkt.bit6 card then .ok none
  else
    match s.engRd c ((s.ctx c).ttva + 16 * fieldAt card 34 2) 16 with
    | .wait => .wait
    | .fault _ => .malformed
    | .ok (e, _) =>
      let va := bsNat e 0 9
      let n := bsNat e 9 4
      if va = 0 then .ok none
      else if va % 32 != 0 || !vaField va || n = 0 || decide (65536 < n) then .malformed
      else
        match s.engRd c va (32 * n) with
        | .wait => .wait
        | .fault _ => .malformed
        | .ok (bs, _) =>
          let es := ttEntries bs n
          if es.all TtEnt.good then .ok (some es) else .malformed

/-! ## The Scoresheet and grids (R255, R256) -/

/-- The Scoresheet is recording or replaying. -/
def State.ssOn (s : State) : Bool := s.dbg.ssStatus == .recording || s.dbg.ssStatus == .replaying
/-- A grid that is dispatched now is logged: a LOGGED card of SSCTX, or a child of a logged grid. -/
def State.ssLogs (s : State) (g : Grid) : Bool :=
  s.ssOn && s.hasUnit 3 &&
    (match g.src with
     | .child p _ => (match s.grid? p with | some x => x.logOrd.isSome | none => false)
     | _ => g.ctx == fieldAt s.dbg.blk 8 1 && g.logged)
/-- The queue and slot a grid's dispatch is known by: 0xFFFF and 0 for a child (R382). -/
def Grid.origin (g : Grid) : Nat × Nat :=
  match g.src with
  | .packet q i => (q, i)
  | .batch q i => (q, i)
  | .walk q i => (q, i)
  | .child _ _ => (0xFFFF, 0)
/-- Die and number of the dispatching monitor. -/
def State.gridMon (s : State) (g : Grid) : Nat × Nat :=
  match g.src with
  | .child _ d => (d, 0)
  | _ => (s.monDie g.origin.1, monOf g.origin.1)
/-- The point of a dispatch (R256, kind 4). -/
def State.gridPoint (s : State) (g : Grid) : SsPoint :=
  { kind := 4, unit := (s.gridMon g).2, id := BitVec.ofNat 32 g.origin.2, wave := BitVec.ofNat 8 (g.origin.1 / 256)
    lane := BitVec.ofNat 8 g.origin.1, grid := BitVec.ofNat 16 s.dbg.ssGrids, n := 0 }

/-! ## Dispatch -/

/-- How a grid stands at its first deal. -/
inductive Began where
  /-- It cannot be dispatched now. -/
  | wait (s : State)
  /-- Its timetable is malformed, or its queue has halted: it places no team. -/
  | over (s : State)
  | ok (s : State)
deriving DecidableEq, Repr

/-- A malformed timetable: the grid places no team and retires with FAULT (R125). -/
def State.failGrid (s : State) (gid : Nat) : State := s.updGrid gid (fun g => { g with rem := 0, stopAt := some 0, faulted := true })

/-- Mark the grid as dispatched: its log ordinal, its timetable, its trace record (R123, R252, R256). -/
def State.noteBegin (s : State) (g : Grid) (tt : Option (List (BitVec 256))) : State :=
  let logged := s.ssLogs g
  let s1 := s.updGrid g.gid (fun g => { g with begun := true, tt, logOrd := if logged then some s.dbg.ssGrids else none })
  let s2 : State := if logged then { s1 with dbg := { s1.dbg with ssGrids := s1.dbg.ssGrids + 1 } } else s1
  s2.trace (s.gridMon g).1 1 g.depth g.ctx g.gid 0 0 0 (match g.src with | .child _ _ => 0xFFF | _ => g.origin.1 % 4096)

/-- The first deal dispatches a grid: its logged point, its timetable, and for a packet its slot (R36, R123, R125). -/
def State.beginGrid (s : State) (g : Grid) : Began :=
  if g.begun then .ok s
  else
    let (go, s1) := s.ssGate (s.ssLogs g) (s.gridMon g).1 (s.gridPoint g)
    if !go then .wait s1
    else
      match s.loadTt g.ctx g.card with
      | .wait => .wait s
      | .ok tt =>
        let s2 := s1.noteBegin g tt
        (match g.src with
         | .packet q slot =>
           (match s2.consume q slot with
            | .ok s3 => .ok (s3.addOut q slot g.card g.gid none .running)
            | .fault _ => .over (s.haltQueue q 5 slot)
            | .wait => .wait s)
         | .batch q slot => .ok (s2.addOut q slot g.card g.gid none .running)
         | _ => .ok s2)
      | .malformed =>
        let s2 := (s1.noteBegin g none).failGrid g.gid
        (match g.src with
         | .packet q slot =>
           (match s2.consume q slot with
            | .ok s3 => .over (s3.addOut q slot g.card g.gid none .running)
            | .fault _ => .over (s.haltQueue q 5 slot)
            | .wait => .wait s)
         | .batch q slot => .over (s2.addOut q slot g.card g.gid none .running)
         | _ => .over s2)

/-! ## Room (R64, R66, R68, R115) -/

def State.teamsOn (s : State) (d c : Nat) : List Team := s.teams.filter (fun t => t.onCore && t.die == d && t.core == c)
/-- Wave slots in use on a core. -/
def State.usedSlots (s : State) (d c : Nat) : List Nat :=
  let ts := s.teamsOn d c
  (s.waves.filter (fun w => ts.any (fun t => t.tid == w.tid))).map Wave.slot
def State.freeSlots (s : State) (d c : Nat) : List Nat :=
  let used := s.usedSlots d c
  (List.range 48).filter (fun i => !used.contains i)
def sumBy {α : Type} (f : α → Nat) (l : List α) : Nat := l.foldl (fun n x => n + f x) 0
/-- Registers per lane in use on a core. -/
def State.usedRegs (s : State) (d c : Nat) : Nat := sumBy (fun t : Team => t.nwaves * t.regs) (s.teamsOn d c)
/-- An allocation persists until every team of its cluster has exited (R115); while the cluster is saved it is saved with it and takes no
core's scratchpad (R87, R88). -/
def State.keepsScratch (s : State) (t : Team) : Bool :=
  t.onCore || (t.st == .retired && t.cluster.isSome && s.teams.any (fun u => u.gid == t.gid && u.cluster == t.cluster && u.onCore))
def State.usedScratch (s : State) (d c : Nat) : Nat :=
  sumBy Team.alloc (s.teams.filter (fun t => t.die == d && t.core == c && s.keepsScratch t))
/-- What a team takes of a core (R64). -/
structure Need where
  waves : Nat
  regs : Nat
  slots : Nat
  alloc : Nat
deriving DecidableEq, Repr
def Grid.need (g : Grid) (waves : Nat) : Need := { waves, regs := g.regs, slots := g.slots, alloc := g.alloc }
def Team.need (t : Team) : Need := { waves := t.nwaves, regs := t.regs, slots := t.slots, alloc := t.alloc }
/-- The core has room for a team (R64). -/
def State.room (s : State) (n : Need) (d c : Nat) : Bool :=
  let ts := s.teamsOn d c
  decide ((s.usedSlots d c).length + n.waves ≤ 48) && decide (s.usedRegs d c + n.waves * n.regs ≤ 3072) &&
    decide (sumBy (fun t : Team => t.nwaves * t.slots) ts + n.waves * n.slots ≤ 128) && decide (s.usedScratch d c + n.alloc ≤ 524288)
/-- Every core of the part, in ascending 48·d + core. -/
def State.allCores (s : State) : List (Nat × Nat) := (List.range s.dies).flatMap (fun d => (List.range 48).map (fun c => (d, c)))
/-- The ready cores of a die, or of every die (R21). -/
def State.readyCores (s : State) (die : Option Nat) : List (Nat × Nat) :=
  s.allCores.filter (fun x => s.clusterRdy x.1 (x.2 / 4) && (match die with | none => true | some d => x.1 == d))
/-- The team that others left their cores for is still to be placed (R85). -/
def State.awaits (s : State) (c : Claimant) : Bool :=
  match c with
  | .deal gid => (match s.grid? gid with | some g => g.undealt | none => false)
  | .form id => s.forms.any (fun f => f.id == id)
  | .saved tid => s.teams.any (fun t => t.tid == tid && t.st == .saved)
/-- A team of the grid was chosen to drain on the core, and what it drains for has not been placed (R85). -/
def State.barred (s : State) (g : Grid) (core : Nat) : Bool := g.drainCores.any (fun x => x.1 == core && s.awaits x.2)
/-- Ready cores with room on which this grid may place a team now (R64, R85). -/
def State.roomy (s : State) (g : Grid) (n : Need) (die : Option Nat) : List (Nat × Nat) :=
  (s.readyCores die).filter (fun x => s.room n x.1 x.2 && !s.barred g (coreIx x.1 x.2))
/-- The least-loaded core: fewest resident waves, then most free registers, then lowest number (R65). -/
def State.leastLoaded (s : State) (cs : List (Nat × Nat)) : Option (Nat × Nat) :=
  minBy (fun x => ((s.usedSlots x.1 x.2).length * 4096 + s.usedRegs x.1 x.2) * 256 + coreIx x.1 x.2) cs
/-- Ready core clusters none of whose cores holds a resident team (R68). -/
def State.freeClusters (s : State) (g : Grid) : List (Nat × Nat) :=
  ((List.range s.dies).flatMap (fun d => (List.range 12).map (fun k => (d, k)))).filter (fun x =>
    s.clusterRdy x.1 x.2 && (List.range 4).all (fun i =>
      s.teamsOn x.1 (4 * x.2 + i) == [] && !s.barred g (coreIx x.1 (4 * x.2 + i))))

/-- The grid may place teams: its context runs and HALTCTX holds nothing (R67, R249). -/
def State.mayPlace (s : State) (g : Grid) : Bool := (s.ctx g.ctx).enable && !s.placeHeld g.ctx && !g.retired && !g.waiting

/-! ## Deals (R61, R62, R86) -/

/-- One team of a deal: ordinal, first record, records (none for a GRID), waves. -/
structure Deal where
  ordinal : Nat
  base : Nat
  count : Nat
  waves : Nat
deriving DecidableEq, Repr

/-- Records of the next chunk of a JOB (R61). -/
def chunkOf (rem p div cmin maxw : Nat) : Nat :=
  let c0 := 32 * ceilDiv (ceilDiv rem (div * p)) 32
  let c := min (min (max c0 cmin) 1024) (32 * maxw)
  if rem ≤ c then rem else c
/-- Chunks of one step, one for each member while records remain. -/
def chunksOf (records p div cmin maxw : Nat) : Nat → Nat → Nat → List Deal
  | 0, _, _ => []
  | k + 1, rem, ord =>
    if rem = 0 then []
    else
      let c := chunkOf rem p div cmin maxw
      { ordinal := ord, base := records - rem, count := c, waves := ceilDiv c 32 } :: chunksOf records p div cmin maxw k (rem - c) (ord + 1)

/-- The cores, or whole core clusters, that could take the next team of a JOB (R61, R62). -/
def State.dealP (s : State) (g : Grid) : Nat :=
  if g.clustered then (s.freeClusters g).length
  else (s.roomy g (g.need (min (g.f 18 2) (ceilDiv g.rem 32))) none).length

/-- The chunks or indices that are dealt again together: one, or those of one cluster (R62, R86). -/
def Grid.again (g : Grid) : List Chunk :=
  if g.isJob then g.redeal.take g.csize
  else (g.redeal.take g.csize).filter (fun x => x.base / g.csize == (g.redeal.headD { base := 0, count := 0 }).base / g.csize)
/-- The teams of the next deal: chunks or indices to deal again come first (R86). -/
def State.nextDeal (s : State) (g : Grid) : List Deal :=
  let k := g.csize
  match g.redeal with
  | _ :: _ =>
    ((List.range k).zip g.again).map (fun (x : Nat × Chunk) =>
      if g.isJob then { ordinal := g.nextOrd + x.1, base := x.2.base, count := x.2.count, waves := ceilDiv x.2.count 32 }
      else { ordinal := x.2.base, base := 0, count := 0, waves := g.f 18 2 })
  | [] =>
    if g.isJob then
      let p := s.dealP g
      if p = 0 then [] else chunksOf (g.f 20 4) p (g.f 26 1) (g.f 24 2) (g.f 18 2) k g.rem g.nextOrd
    else
      ((List.range k).filter (fun m => decide (g.nextOrd + m < g.total))).map (fun m =>
        { ordinal := g.nextOrd + m, base := 0, count := 0, waves := g.f 18 2 })
/-- A team has faulted and the next ordinals are above it: they are not placed (R70). -/
def Grid.stopped (g : Grid) (ds : List Deal) : Bool := match g.stopAt with | none => false | some n => ds.any (fun d => decide (n ≤ d.ordinal))

/-- The grid with this deal taken out of its list. -/
def Grid.take (g : Grid) (ds : List Deal) : Grid :=
  let g1 := { g with blockedAt := none, askedAt := none }
  match g.redeal with
  | _ :: _ => { g1 with redeal := g.redeal.drop ds.length, nextOrd := if g.isJob then g.nextOrd + ds.length else g.nextOrd }
  | [] => { g1 with rem := g.rem - sumBy Deal.count ds, nextOrd := g.nextOrd + ds.length }

/-- Where replay puts a team: die and core of its kind-5 record (R393). -/
def State.loggedCore (s : State) (g : Grid) (d : Deal) : Option (Nat × Nat) :=
  if s.dbg.ssStatus != .replaying || g.logOrd.isNone then none
  else
    firstSome (fun die => if s.dbg.ssEnd.contains die then none
      else ((s.dbg.ssLog.getD die []).find? (fun r => recKind r == 5 && fieldAt r 4 4 == d.ordinal && fieldAt r 10 2 == g.logOrd.getD 0)).map
        (fun r => (die, recUnit r))) (List.range s.dies)

/-- Its record may stand in a part of a log that the device has not read yet: the team waits for it (R393). -/
def State.logAhead (s : State) (g : Grid) : Bool :=
  s.dbg.ssStatus == .replaying && g.logOrd.isSome &&
    (List.range s.dies).any (fun die => !s.dbg.ssEnd.contains die && !(s.dbg.ssLog.getD die []).any (fun r => recKind r == 255))
/-- The cores a deal is placed on, all or none (R62, R65, R68, R393). -/
def State.dealCores (s : State) (g : Grid) (ds : List Deal) : Option (List (Nat × Nat)) :=
  match ds with
  | [] => none
  | d :: _ =>
    let logged := s.loggedCore g d
    if logged.isNone && s.logAhead g then none
    else if g.clustered then
      let cl : Option (Nat × Nat) := match logged with
        | some (die, c) => (s.freeClusters g).find? (fun x => x.1 == die && x.2 == c / 4)
        | none => (s.freeClusters g).head?
      -- member m goes to core m; a GRID's member is its index within the cluster (R62, R68)
      cl.map (fun (x : Nat × Nat) => ((List.range ds.length).zip ds).map (fun m =>
        (x.1, 4 * x.2 + (if g.isJob then m.1 else m.2.ordinal % g.csize))))
    else
      let cs := s.roomy g (g.need d.waves) none
      match logged with
      | some x => if cs.contains x then some [x] else none
      | none => (s.leastLoaded cs).map (fun x => [x])

/-! ## Teams and waves at placement (R63, R78, R202, R264) -/

/-- A lane at its entry: registers 0 and full (R202). -/
def newLane (regs entry : Nat) : Lane := { regs := List.replicate regs {}, pc := BitVec.ofNat 32 entry }
/-- A lane that starts exited (R61, R389): it never takes part in a barrier (R342). -/
def absentLane (regs entry : Nat) : Lane := { newLane regs entry with st := .exited }
/-- A wave with these lanes; b0 as given (R264). -/
def newWave (lanes : List Lane) (slots : Nat) (b0 : BitVec 72) : Wave :=
  { uid := 0, tid := 0, idx := 0, slot := 0, lanes, bases := (List.replicate 16 (0 : BitVec 72)).set 0 b0, ops := List.replicate slots {} }
/-- Waves of a dealt team: lanes beyond its records start exited (R61, R62). -/
def Grid.dealtWaves (g : Grid) (d : Deal) : List Wave :=
  (List.range d.waves).map (fun w => newWave ((List.range 32).map (fun L =>
    if g.isJob && decide (d.count ≤ 32 * w + L) then absentLane g.regs (g.f 4 4) else newLane g.regs (g.f 4 4))) g.slots
      (BitVec.ofNat 72 (g.f 8 9)))

/-- Waves take the lowest free wave slots of the team's core (R64), in order. -/
def seatWaves (tid cycle : Nat) : Nat → Nat → List Nat → List Wave → List Wave
  | uid, i, slots, w :: ws =>
    { w with uid, tid, idx := i, slot := slots.headD 0, placedAt := cycle } :: seatWaves tid cycle (uid + 1) (i + 1) slots.tail ws
  | _, _, _, [] => []
/-- A lane that no CONT or TRAV has made is itself from here on; unless it counts as another team's, it counts as its own's (R146, R149). -/
def Wave.named (tid : Nat) (w : Wave) : Wave :=
  { w with lanes := ((List.range w.lanes.length).zip w.lanes).map (fun x =>
      { x.2 with me := if x.2.me = 0 then 32 * w.uid + x.1 else x.2.me, home := if x.2.home = 0 then tid else x.2.home }) }
/-- What has been released to the lanes of a new team: to dealt ones what starts their grid; to the lanes of routines the earlier routines of
their stack, and to those of leave routines the stacks cut at their frame as well; a resumed lane goes on as itself (R72, R146, R153, R189,
R191). -/
def State.startAfter (s : State) (t : Team) (ws : List Wave) : State :=
  match t.kind with
  | .caddy => s
  | .dealt => s.obtain (ws.flatMap (fun w => w.whos t.die)) (fun k => k == .start t.gid)
  | .routine =>
    ws.foldl (fun s w => w.lanes.foldl (fun s l =>
      match l.routine with
      | none => s
      | some r =>
        let joinAt := (s.stks.find? (fun k => k.id == r.stk)).map (fun k => k.joinAt r.level)
        s.obtain [{ me := l.me, uid := w.uid, tid := l.home, die := t.die }] (fun x =>
          x == .stack r.stk || (r.kind == 1 && (match joinAt with | some va => x == .join t.ctx va | none => false)))) s) s
/-- A team and its waves become resident (R64, R66, R252); its lanes come after what has been released to them (R72, R153, R189, R397). -/
def State.putTeam (s : State) (t : Team) (ws : List Wave) : State :=
  let tid := s.fresh
  let t1 := { t with tid, placedAt := s.cycle }
  let new := (seatWaves tid (s.dieCycle t.die) (tid + 1) 0 (s.freeSlots t.die t.core) ws).map (Wave.named tid)
  let s1 : State := { s with fresh := s.fresh + 1 + ws.length, teams := s.teams ++ [t1], waves := s.waves ++ new }
  (s1.startAfter t1 new).traceTeam 2 0 t1 t1.recbase

/-- The team of one member of a deal (R63). -/
def Grid.dealtTeam (g : Grid) (d : Deal) (die core member : Nat) (cluster : Option Nat) : Team :=
  { tid := 0, gid := g.gid, ctx := g.ctx, ordinal := d.ordinal, recbase := d.base, reccount := d.count, die, core, cmember := member
    cluster, nwaves := d.waves, regs := g.regs, slots := g.slots, alloc := g.alloc }

/-- The point of one team of a deal (R256, kind 5). -/
def dealPoint (g : Grid) (d : Deal) (core : Nat) : SsPoint :=
  { kind := 5, unit := core, id := BitVec.ofNat 32 d.ordinal, wave := 0, lane := 0, grid := BitVec.ofNat 16 (g.logOrd.getD 0)
    n := BitVec.ofNat 32 (if g.isJob then d.base else d.ordinal) }
/-- Every team of a deal passes its logged point, one after the other. -/
def State.dealGate (s : State) (g : Grid) : List (Deal × (Nat × Nat)) → Bool × State
  | [] => (true, s)
  | (d, (die, c)) :: r =>
    let (go, s1) := s.ssGate g.logOrd.isSome die (dealPoint g d c)
    if go then s1.dealGate g r else (false, s1)

/-- The team that others left their cores for is placed: their grids place teams on those cores again (R85). -/
def State.endDrain (s : State) (c : Claimant) : State :=
  { s with grids := s.grids.map (fun g => { g with drainCores := g.drainCores.filter (fun x => x.2 != c) }) }

/-- The monitor has dealt from this queue (R59, R60). -/
def State.noteDealt (s : State) (g : Grid) : State :=
  match g.src with
  | .child _ _ => s
  | _ => { s with lastDealt := Tab.put s.lastDealt (64 * (s.gridMon g).1 + (s.gridMon g).2) g.origin.1 }
/-- Where a grid stands in its monitor's deal list within a level: its queue's turn, after the queue dealt from last (R59, R60). -/
def State.dealKey (s : State) (g : Grid) : Nat :=
  let last := match Tab.find s.lastDealt (64 * (s.gridMon g).1 + (s.gridMon g).2) with | some x => x + 1 | none => 0
  (g.origin.1 + 65536 - last) % 65536
/-- Place the teams of a deal. -/
def State.putDeal (s : State) (g : Grid) (ps : List (Deal × (Nat × Nat))) : State :=
  let cluster := if g.clustered then some s.fresh else none
  let s0 : State := if g.clustered then s.next else s
  let s1 := ps.foldl (fun (s : State) x =>
    s.putTeam (g.dealtTeam x.1 x.2.1 x.2.2 (if g.clustered then x.2.2 % 4 else 0) cluster) (g.dealtWaves x.1)) s0
  ((s1.updGrid g.gid (fun g => g.take (ps.map (fun x => x.1)))).noteDealt g).endDrain (.deal g.gid)

/-- One deal of a grid: the next chunk, team or cluster is dealt and placed; the first deal dispatches the grid (R61, R62,
R36). -/
def State.deal (s : State) (gid : Nat) : State :=
  match s.grid? gid with
  | none => s
  | some g =>
    let ds := s.nextDeal g
    if !s.mayPlace g || !g.undealt || g.stopped ds then s
    else
      match s.dealCores g ds with
      | none => s
      | some cores =>
        match s.beginGrid g with
        | .wait s1 => s1
        | .over s1 => s1
        | .ok s1 =>
          match s1.grid? gid with
          | none => s1
          | some g1 =>
            -- replay names the core, once the grid has its ordinal
            match s1.dealCores g1 ds with
            | none => s1
            | some cores1 =>
              let ps := ds.zip (if g.begun then cores else cores1)
              let (go, s2) := s1.dealGate g1 ps
              if go then s2.putDeal g1 ps else { s1 with dbg := { s1.dbg with ssHeld := s2.dbg.ssHeld } }

/-- JOB_DEAL of grid n (R61). -/
def execJobDeal (s : State) : Out :=
  .next (match s.grid? s.occ.n with | some g => if g.isJob then s.deal s.occ.n else s | none => s)
/-- GRID_DEAL of grid n (R62). -/
def execGridDeal (s : State) : Out :=
  .next (match s.grid? s.occ.n with | some g => if g.isJob then s else s.deal s.occ.n | none => s)

end Sys2Proof.Machine
end

