-- ==== Sys2Proof/Machine/Sched.lean ====
section
/-!
DEFINITION. The end of teams and grids (R53, R73 to R75, R130, R214) and taking teams off their cores and back: flush,
drain, save, restore (R83 to R91, R141).
-/

namespace Sys2Proof.Machine

/-! ## Completion bitmaps (R41, R53) -/

/-- Set bits j, j + 1, … of a grid's bitmap, one after the other; how many are left when one cannot be set, and whether it
is for a fault (some) or for memory that is not ready. -/
def State.orBits (s : State) (g : Grid) (j : Nat) : Nat → State × Nat × Option Nat
  | 0 => (s, 0, none)
  | k + 1 =>
    match s.engXlate g.ctx ((g.f 36 9 + j / 8) % 2 ^ 72) 1 true with
    | .ok (pa, s1) => (s1.wr pa 1 (s1.rd pa 1 ||| 2 ^ (j % 8))).orBits g (j + 1) k
    | .wait => (s, k + 1, none)
    | .fault f => (s, k + 1, some f)
/-- Set a run of bits for a grid: where one faults, a record is written and the rest waits for its answer (R53). None: the
memory is not ready. -/
def State.setBits (s : State) (gid die j n : Nat) : Option State :=
  match s.grid? gid with
  | none => some s
  | some g =>
    match s.orBits g j n with
    | (s1, 0, _) => some s1
    | (_, _, none) => none
    | (s1, left, some _) =>
      let first := j + (n - left)
      let (seq, s2) := s1.raiseFault g.ctx 5 2 ((g.f 36 9 + first / 8) % 2 ^ 72) die 0xFF 0xFF 0 0 (g.f 36 9) (.bitmap gid)
      some (s2.updGrid gid (fun g => { g with
        bitmapWait := g.bitmapWait ++ [{ seq, first, count := left, die }], firstFault := if g.firstFault = 0 then seq else g.firstFault }))
/-- First bit and count of a dealt team: its granules, or its index. -/
def bitsOf (g : Grid) (t : Team) : Nat × Nat := if g.isJob then (t.recbase / 32, ceilDiv t.reccount 32) else (t.ordinal, 1)

/-! ## Team retirement (R74, R214) -/

/-- Every lane has exited, or in a team that has faulted, exited or parked by a trap (R74). -/
def State.teamOver (s : State) (t : Team) : Bool :=
  (s.wavesOf t.tid).all (fun w => w.lanes.all (fun l => if t.faulted then l.gone else !l.live))
def State.retirable (s : State) (t : Team) : Bool :=
  (t.st == .resident || t.st == .draining || t.st == .saving) && s.teamOver t && !s.teamPosted t.tid

/-- The stacks of a team's routine lanes do not wait for lanes that are discarded (R189). -/
def State.endRoutines (s : State) (tid : Nat) : State :=
  ((s.wavesOf tid).flatMap Wave.lanes).foldl (fun (s : State) l =>
    match l.routine with | some r => if l.live then s.routineFault r else s | none => s) s
/-- The waves of a team go, with what is still on its way to them and the records that name their lanes (R214); an ELD or ERAW is still to
perform at its ESU (R156). -/
def State.dropLanes (s : State) (tid : Nat) : State :=
  let uids := (s.wavesOf tid).map Wave.uid
  { s with
    waves := s.waves.filter (fun w => w.tid != tid)
    lands := s.lands.filter (fun x => !uids.contains x.uid)
    accs := (s.accs.map (fun a => if uids.contains a.uid then a.orphan else a)).filter (fun a =>
      (a.posted || a.op.isEst) && !a.refused || !uids.contains a.uid)
    faults := s.faults.filter (fun f => match f.who with | .lanes u _ => !uids.contains u | _ => true) }
/-- The waves of a team that retires go. -/
def State.dropWaves (s : State) (tid : Nat) : State := (s.endRoutines tid).dropLanes tid
/-- Wave slot of the team's first wave. -/
def State.firstSlot (s : State) (tid : Nat) : Nat := ((minBy (fun w : Wave => w.idx) (s.wavesOf tid)).map Wave.slot).getD 0
/-- PREEMPT event and trace record: 0 drained, 1 saved, 2 flushed (R84, R252). DEDUCED: the event's core is counted within its
die (log 29). -/
def State.preempted (s : State) (t : Team) (how : Nat) : State :=
  (s.event 6 t.ctx 0xFFFF 0 [(24, 2, t.core), (26, 2, s.firstSlot t.tid), (28, 1, how)]).traceTeam 6 how t 0
/-- SUSPENDED: ENABLE is 0 and no team remains on a core (R30, R31); the context's stacks are then written back (R194). -/
def State.noteSuspended (s : State) (c : Nat) : State :=
  if !(s.ctx c).enable && s.teams.all (fun t => t.ctx != c || !t.onCore) then
    (s.updCtx c (fun x => { x with suspended := true })).sleepStacks c
  else s

/-- A team retires: what its lanes did happens before what follows its grid's completion (R66, R70, R74, R129, R153). DEDUCED:
its lifetime counts from its placement or, where it was saved, its restoration (R84; log 66). -/
def State.retireTeam (s : State) (t : Team) : State :=
  let s1 := s.traceTeam 3 (b2n t.faulted) t 0
  let s2 := if t.st = .draining then s1.preempted t 0 else s1
  let s3 := ((s2.release (s2.teamWhos t) 5 [.grid t.gid]).dropWaves t.tid).updTeam t.tid (fun t => { t with st := .retired, locks := [], scratch := if t.cluster.isSome then t.scratch else [] })
  let s4 := s3.updGrid t.gid (fun g => { g with
    units := if t.faulted || t.kind != .dealt then g.units else g.units + (if g.isJob then t.reccount else 1)
    lifeSum := g.lifeSum + (s.cycle - t.placedAt), lifeCnt := g.lifeCnt + 1 })
  (s4.fireTt t.gid false).noteSuspended t.ctx
/-- TEAM_RETIRE of team n: tickets that waited for its writes (R153), its bitmap bits, without a fault, then it reports upward (R53, R74). -/
def execTeamRetire (s : State) : Out :=
  .next (match s.team? s.occ.n with
    | none => s
    | some t =>
      if !s.retirable t then s
      else
        let s0 := s.exitTickets t.tid
        let g := s0.gridOf t
        if t.faulted || t.kind != .dealt || g.f 36 9 = 0 then s0.retireTeam t
        else
          match s0.setBits t.gid t.die (bitsOf g t).1 (bitsOf g t).2 with
          | some s1 => s1.retireTeam t
          | none => s0)

/-! ## Grid retirement (R73, R75, R130) -/

def Grid.isWalk (g : Grid) : Bool := match g.src with | .walk _ _ => true | _ => false
def Grid.childOf (g : Grid) (gid : Nat) : Bool := match g.src with | .child p _ => p == gid | _ => false
/-- The Caddy or an engine still holds work of the grid. -/
def State.gridHeld (s : State) (gid : Nat) : Bool :=
  s.caddy.any (fun r => r.gid == gid) || s.forms.any (fun f => f.gid == gid) || s.invs.any (fun i => i.gid == gid) ||
    s.stks.any (fun k => k.gid == gid) || s.stackReqs.any (fun k => k.gid == gid)
/-- The device level declares the grid retired (R75). A TRAVERSE packet's grid goes once its packet is complete (R188). -/
def State.gridDone (s : State) (g : Grid) : Bool :=
  !g.retired && !g.waiting && (if g.isWalk then !s.outs.any (fun o => o.gid == g.gid) else (g.begun || cardWork g.card == 0) && g.allDealt) &&
    s.teams.all (fun t => t.gid != g.gid || t.st == .retired) && !s.gridHeld g.gid && !s.grids.any (fun x => x.childOf g.gid) &&
    !s.accs.any (fun a => a.gid == g.gid && a.posted && !a.refused) && g.bitmapWait == []

/-- The parent of a child that has retired: a fault passes on (R73). -/
def State.reportChild (s : State) (parent : Nat) (bad : Bool) (first : BitVec 32) : State :=
  s.updGrid parent (fun p => if bad then { p with faulted := true, firstFault := if p.firstFault = 0 then first else p.firstFault } else p)
/-- An OR of a grid's bitmap that RETRY has let go on is made again, once its memory is ready (R53, R57). -/
def State.retryBits (s : State) (g : Grid) (w : BitmapWait) : State :=
  ((s.updGrid g.gid (fun g => { g with bitmapWait := g.bitmapWait.erase w })).setBits g.gid w.die w.first w.count).getD s
/-- GRID_RETIRE of grid n (R75, R130, R73): ORs of its bitmap that are to be repeated come first (R53). -/
def execGridRetire (s : State) : Out :=
  .next (match s.grid? s.occ.n with
    | none => s
    | some g =>
      match g.bitmapWait.find? (fun w => w.seq == 0) with
      | some w => s.retryBits g w
      | none =>
      if !s.gridDone g then s
      else
        let bad := g.faulted || g.bitmapFail
        let s1 := s.fireTt g.gid true
        let s2 := s1.trace 0 4 (b2n bad) g.ctx g.gid 0 0 0 0
        let s3 : State := { s2 with grids := s2.grids.filter (fun x => x.gid != g.gid), teams := s2.teams.filter (fun t => t.gid != g.gid) }
        let s4 := if bad then s3.updCtx g.ctx (fun x => { x with faulted := true }) else s3
        match g.src with
        | .walk _ _ => s4
        | .child p _ =>
          (({ s4 with
            outs := s4.outs ++ [{ id := s4.fresh, q := 0xFFFF, slot := 0, ctx := g.ctx, pkt := g.card
                                  st := .done (if bad then 1 else 0) g.units, gid := g.gid, child := true, firstFault := g.firstFault }]
            fresh := s4.fresh + 1 } : State).reportChild p bad g.firstFault)
        | _ =>
          { s4 with outs := s4.outs.map (fun o =>
              if o.gid == g.gid && !o.child then { o with st := .done (if bad then 1 else 0) g.units, firstFault := g.firstFault } else o) })

/-! ## Choosing teams to take off their cores (R83, R84, R90) -/

/-- A lane of the team is halted or parked. -/
def State.stoppedLane (s : State) (t : Team) : Bool :=
  (s.wavesOf t.tid).any (fun w => w.lanes.any (fun l => match l.st with
    | .halted => true
    | .trapped => true
    | .faulted _ => true
    | _ => l.inHandler && l.live))
/-- The card lets the team be flushed: IDEMPOTENT, and no MARK or ORDTAKE yet (R84). -/
def State.flushable (s : State) (t : Team) : Bool := (s.gridOf t).idempotent && !t.marked
/-- The estimated remaining time in cycles, if there is an estimate (R84); a team that has been saved counts from its restoration
(log 66). -/
def State.estimate (s : State) (t : Team) : Option Nat :=
  let g := s.gridOf t
  let elapsed := s.cycle - t.placedAt
  match g.tt with
  | some es =>
    let top := (es.map TtEnt.marker).foldl max 0
    (match s.teamMarker t with
     | none => some 0
     | some 0 => none
     | some m => some (elapsed * (top - m) / m))
  | none => if g.lifeCnt = 0 then none else some (g.lifeSum / g.lifeCnt - elapsed)
def State.drainable (s : State) (t : Team) : Bool :=
  match s.estimate t with | none => false | some n => decide (n ≤ usCycles s.host.drainUs)
/-- A team with its cluster. -/
def State.clusterTeams (s : State) (t : Team) : List Team :=
  if t.cluster.isNone then [t] else s.teams.filter (fun u => u.gid == t.gid && u.cluster == t.cluster && u.onCore)
/-- How the teams of one cluster leave their cores: the first row of R84 that applies to every member. -/
def State.leaveHow (s : State) (ts : List Team) : TeamSt :=
  if ts.all s.stoppedLane then .saving
  else if ts.all s.flushable && !ts.any s.stoppedLane then .flushing
  else if ts.all s.drainable && !ts.any s.stoppedLane then .draining
  else .saving
/-- The teams of one cluster start to leave in favour of a team. -/
def State.startLeave (s : State) (ts : List Team) (c : Claimant) : State :=
  let how := s.leaveHow ts
  ts.foldl (fun s t =>
    let s1 := s.updTeam t.tid (fun t => { t with st := how, drainFor := some c })
    if how = .draining then
      s1.updGrid t.gid (fun g => { g with drainCores := (coreIx t.die t.core, c) :: g.drainCores })
    else s1) s

/-- The state as it will be when the teams that are leaving have left. -/
def State.afterLeave (s : State) : State :=
  { s with teams := s.teams.map (fun t => if t.onCore && t.st != .resident then { t with st := .saved, alloc := 0 } else t) }

/-- What a grid waits to place: a new deal, a formed wave of the Caddy, or a saved team. -/
inductive Wish where
  | deal
  | form (f : CaddyForm)
  | saved (t : Team)
deriving DecidableEq, Repr
/-- Since when it waits (R83, R90), and when teams last left for it after 20 µs. -/
def Wish.since (g : Grid) : Wish → Option Nat
  | .deal => g.blockedAt
  | .form f => f.blockedAt
  | .saved t => t.blockedAt
def Wish.asked (g : Grid) : Wish → Option Nat
  | .deal => g.askedAt
  | .form f => f.askedAt
  | .saved t => t.askedAt
def Wish.claimant (g : Grid) : Wish → Claimant
  | .deal => .deal g.gid
  | .form f => .form f.id
  | .saved t => .saved t.tid
/-- REGS of a grid's one-wave teams. -/
def Grid.waveNeed (g : Grid) : Need :=
  { waves := 1, regs := if g.isWalk then g.f 28 2 else g.regs, slots := if g.isWalk then 0 else g.slots, alloc := g.alloc }
/-- REGS of routine waves: at least 32 (R188). -/
def formNeed (g : Grid) (f : CaddyForm) : Need :=
  match f.src with
  | .recs _ => g.waveNeed
  | .invs _ => { g.waveNeed with regs := max 32 g.waveNeed.regs }
def State.wishes (s : State) (g : Grid) : List Wish :=
  if !(s.ctx g.ctx).enable || g.retired then []
  else
    ((s.teams.filter (fun t => t.gid == g.gid && t.st == .saved)).map Wish.saved) ++
      (if s.mayPlace g && g.undealt && !g.isWalk && !(g.stopped (s.nextDeal g)) then [.deal] else []) ++
      (if s.mayPlace g then (s.forms.filter (fun f => f.gid == g.gid)).map Wish.form else [])
/-- Some core, or free core cluster, takes it now (R65, R68, R88). -/
def State.grants (s : State) (g : Grid) (w : Wish) : Bool :=
  match w with
  | .deal => decide (0 < (if g.redeal = [] && g.isJob then s.dealP g else if g.clustered then (s.freeClusters g).length
      else (s.roomy g (g.need (match s.nextDeal g with | d :: _ => d.waves | [] => g.f 18 2)) none).length))
  | .form f => s.roomy g (formNeed g f) (some f.die) != []
  | .saved t =>
    if t.cluster.isSome then (s.freeClusters g).any (fun x => x.1 == t.die) else s.roomy g t.need (some t.die) != []
/-- The grid waits to place it, and cannot. -/
def State.stuck (s : State) (g : Grid) (w : Wish) : Bool := (s.wishes g).contains w && !s.grants g w
/-- Since when something waits: as it was while it cannot be placed, and none otherwise. -/
def sinceOf (now : Nat) (stuck : Bool) (old : Option Nat) : Option Nat := if stuck then some (old.getD now) else none
/-- Note of each team that waits to be placed since when it could not be: the next deal of a grid, a saved team, a formed wave (R83,
R90). -/
def State.noteBlocked (s : State) : State :=
  let gridFor (gid : Nat) (f : Grid → Bool) : Bool := match s.grid? gid with | some g => f g | none => false
  let kept (stuck : Bool) (x : Option Nat) : Option Nat := if stuck then x else none
  { s with
    grids := s.grids.map (fun g =>
      let b := s.stuck g .deal
      { g with blockedAt := sinceOf s.cycle b g.blockedAt, askedAt := kept b g.askedAt })
    teams := s.teams.map (fun t =>
      let b := gridFor t.gid (fun g => s.stuck g (.saved t))
      { t with blockedAt := sinceOf s.cycle b t.blockedAt, askedAt := kept b t.askedAt })
    forms := s.forms.map (fun f =>
      let b := gridFor f.gid (fun g => s.stuck g (.form f))
      { f with blockedAt := sinceOf s.cycle b f.blockedAt, askedAt := kept b f.askedAt }) }
/-- What the grid has waited to place for so many cycles, if there is any (R83, R90); with again, since teams last left for it too. -/
def State.dueWish (s : State) (g : Grid) (wait : Nat) (again : Bool) : Option Wish :=
  (s.wishes g).find? (fun w => !s.grants g w && (match w.since g with
    | some n => decide ((if again then max n ((w.asked g).getD 0) else n) + wait ≤ s.cycle)
    | none => false))
/-- Its time slice is counted anew: teams are leaving for it. -/
def State.waitsAnew (s : State) (g : Grid) (w : Wish) : State :=
  match w with
  | .deal => s.updGrid g.gid (fun g => { g with blockedAt := some s.cycle })
  | .form f => { s with forms := s.forms.map (fun x => if x.id == f.id then { x with blockedAt := some s.cycle } else x) }
  | .saved t => s.updTeam t.tid (fun t => { t with blockedAt := some s.cycle })
/-- Its 20 µs are counted anew. -/
def State.asksAnew (s : State) (g : Grid) (w : Wish) : State :=
  match w with
  | .deal => s.updGrid g.gid (fun g => { g with askedAt := some s.cycle })
  | .form f => { s with forms := s.forms.map (fun x => if x.id == f.id then { x with askedAt := some s.cycle } else x) }
  | .saved t => s.updTeam t.tid (fun t => { t with askedAt := some s.cycle })

/-- Teams leave in this order until what the grid waits to place fits. -/
def State.leaveUntil (s : State) (g : Grid) (w : Wish) : List Team → State
  | [] => s
  | t :: ts =>
    if s.afterLeave.grants g w then s
    else
      match s.team? t.tid with
      | some u => if u.st = .resident then (s.startLeave (s.clusterTeams u) (w.claimant g)).leaveUntil g w ts else s.leaveUntil g w ts
      | none => s.leaveUntil g w ts

/-- Insert by a key, rising. -/
def insertBy {α : Type} (key : α → Nat) (x : α) : List α → List α
  | [] => [x]
  | y :: ys => if key x ≤ key y then x :: y :: ys else y :: insertBy key x ys
def sortBy {α : Type} (key : α → Nat) : List α → List α
  | [] => []
  | x :: xs => insertBy key x (sortBy key xs)

def State.prioOf (s : State) (t : Team) : Nat := (s.gridOf t).prio
def State.residents (s : State) : List Team := s.teams.filter (fun t => t.st == .resident)
/-- Lowest priority first, most recently placed first within a level (R83). -/
def State.victims (s : State) (p : Team → Bool) : List Team :=
  let ts := s.residents.filter p
  (List.range 4).flatMap (fun k => (sortBy (fun t : Team => t.placedAt) (ts.filter (fun t => s.prioOf t == k))).reverse)

/-- PREEMPT_TIMEOUT of grid n (R83). -/
def execPreemptTimeout (s : State) : Out :=
  .next (match s.grid? s.occ.n with
    | none => s
    | some g =>
      match s.dueWish g (usCycles 20) true with
      | some w => if g.prio = 3 then (s.leaveUntil g w (s.victims (fun t => s.prioOf t != 3))).asksAnew g w else s
      | none => s)

/-- The context, other than this one, whose teams at a priority have been resident longest: that of the one team placed, or restored,
earliest. R90 does not say how residence of several teams is measured: the choice is the model's (log 68). -/
def State.longest (s : State) (c prio : Nat) : Option Nat :=
  (minBy (fun t : Team => t.placedAt) (s.residents.filter (fun t => t.ctx != c && s.prioOf t == prio))).map Team.ctx
/-- TIME_SLICE_EXPIRY for grid n (R90). -/
def execTimeSliceExpiry (s : State) : Out :=
  .next (match s.grid? s.occ.n with
    | none => s
    | some g =>
      match s.dueWish g (usCycles s.host.sliceUs) false, s.longest g.ctx g.prio with
      | some w, some c =>
        if s.residents.all (fun t => decide (s.prioOf t ≤ g.prio)) then (s.leaveUntil g w (s.victims (fun t => t.ctx == c))).waitsAnew g w else s
      | _, _ => s)

/-! ## Saving, flushing and restoring (R86 to R88, R90) -/

/-- The context holds halted lanes. -/
def State.holdsHalted (s : State) (c : Nat) : Bool :=
  s.waves.any (fun w => (s.teamOf w).ctx == c && w.lanes.any (fun l => l.st == .halted))
/-- Issue has stopped and every issued result has landed (R87). -/
def State.savable (s : State) (t : Team) : Bool := t.st == .saving && !(s.wavesOf t.tid).any (fun w => s.pending w.uid)
/-- TEAM_SAVE_COMPLETE of team n (R87, R90, R31). -/
def execTeamSaveComplete (s : State) : Out :=
  .next (match s.team? s.occ.n with
    | none => s
    | some t =>
      if !s.savable t then s
      else
        let s1 := if t.drainFor.isSome then s.preempted t 1 else s
        let s2 := s1.updTeam t.tid (fun t => { t with
          st := .saved, drainFor := none, codebook := if t.wroteCb then some (s.core (coreIx t.die t.core)).codebook else t.codebook })
        let s3 :=
          if s2.teams.any (fun u => u.ctx == t.ctx && u.onCore) then s2
          else (s2.event 7 t.ctx 0xFFFF 0 [(24, 1, b2n (s2.holdsHalted t.ctx))]).updCtx t.ctx (fun x => { x with switchedOut := true })
        s3.noteSuspended t.ctx)

/-- The posted accesses of a flushed team, with its cluster, have performed (R86). -/
def State.flushed (s : State) (t : Team) : Bool :=
  t.st == .flushing && (s.clusterTeams t).all (fun u => (u.st == .flushing || u.st == .retired) && !s.teamPosted u.tid)
/-- The formed wave that a flushed Caddy or routine wave goes back to: its records, or those of its invocations that are still
outstanding (R84, R86, R188; log 81). -/
def State.formAgain (s : State) (t : Team) : List CaddyForm :=
  match t.form with
  | none => []
  | some f =>
    match f.src with
    | .recs _ => [f]
    | .invs vs =>
      let left := vs.filter (fun v => match s.stkOf v.stk with
        | some k => (match k.st with | .routine kind _ => kind == v.kind && k.depth == v.level + 1 | _ => false)
        | none => false)
      if left = [] then [] else [{ f with src := .invs left }]
/-- One team is discarded; its chunk or index is to be dealt again, a Caddy or routine wave to be placed again (R86, R129). -/
def State.flushTeam (s : State) (t : Team) : State :=
  let s1 := s.preempted t 2
  let s2 := (s1.dropLanes t.tid).updTeam t.tid (fun t => { t with st := .retired, drainFor := none, scratch := [], cluster := none })
  if t.kind != .dealt then { s2 with forms := s2.forms ++ s.formAgain t }
  else
    s2.updGrid t.gid (fun g =>
      let g1 := ({ g with redeal := (if g.isJob then { base := t.recbase, count := t.reccount } else { base := t.ordinal, count := 0 }) :: g.redeal } : Grid).dropStopped
      -- a chunk gets a new ordinal: nothing waits for the old one's tickets
      if g.isJob && ticketed g t then g1.takeAll t.ordinal else g1)
/-- TEAM_FLUSH_COMPLETE of team n, with its cluster (R86); where a lane has been halted or parked meanwhile, they are saved instead
(R84, R91). -/
def execTeamFlushComplete (s : State) : Out :=
  .next (match s.team? s.occ.n with
    | none => s
    | some t =>
      if t.st = .flushing && (s.clusterTeams t).any s.stoppedLane then
        { s with teams := s.teams.map (fun u => if u.st == .flushing && (s.clusterTeams t).any (fun x => x.tid == u.tid) then { u with st := .saving } else u) }
      else if !s.flushed t then s
      else (((s.clusterTeams t).reverse.foldl (fun s u => s.flushTeam u) s).fireTt t.gid false).noteSuspended t.ctx)

/-- Waves take wave slots of the team's new core. -/
def reseat (tid cycle : Nat) : List Wave → List Nat → List Wave
  | [], _ => []
  | w :: ws, slots =>
    if w.tid = tid then { w with slot := slots.headD 0, placedAt := cycle } :: reseat tid cycle ws slots.tail else w :: reseat tid cycle ws slots
/-- A saved team resumes on a core of its die (R88). DEDUCED: its elapsed time counts from here (R84; log 66). -/
def State.restoreTeam (s : State) (t : Team) (core : Nat) : State :=
  let slots := s.freeSlots t.die core
  let s1 := s.updTeam t.tid (fun t => { t with st := .resident, core, placedAt := s.cycle, blockedAt := none, askedAt := none })
  let s2 : State := { s1 with waves := reseat t.tid (s.dieCycle t.die) s1.waves slots }
  let s3 := match t.codebook with | some cb => s2.updCore (coreIx t.die core) (fun x => { x with codebook := cb }) | none => s2
  let s4 :=
    if (s.ctx t.ctx).switchedOut then
      (s3.event 8 t.ctx 0xFFFF 0 [(24, 1, b2n (s3.holdsHalted t.ctx))]).updCtx t.ctx (fun x => { x with switchedOut := false })
    else s3
  s4.traceTeam 2 1 { t with core } t.recbase
/-- The scratchpads of the cluster's members that have retired go to its new cores with it (R87, R88, R115). -/
def State.moveRetired (s : State) (t : Team) (ps : List (Team × Nat)) : State :=
  match ps with
  | (_, core) :: _ =>
    { s with teams := s.teams.map (fun u =>
        if t.cluster.isSome && u.gid == t.gid && u.cluster == t.cluster && u.st == .retired then { u with core := core / 4 * 4 + u.cmember } else u) }
  | [] => s
/-- Where a saved team, or its cluster, goes: team and core (R65, R68, R88). -/
def State.restoreCores (s : State) (t : Team) : Option (List (Team × Nat)) :=
  let g := s.gridOf t
  if t.cluster.isSome then
    let ts := s.teams.filter (fun u => u.gid == t.gid && u.cluster == t.cluster && u.st != .retired)
    if ts.all (fun u => u.st == .saved) then
      ((s.freeClusters g).find? (fun x => x.1 == t.die)).map (fun (x : Nat × Nat) => ts.map (fun u => (u, 4 * x.2 + u.cmember)))
    else none
  else (s.leastLoaded (s.roomy g t.need (some t.die))).map (fun (x : Nat × Nat) => [(t, x.2)])
/-- TEAM_RESTORE of team n (R88, R90, R31). -/
def execTeamRestore (s : State) : Out :=
  .next (match s.team? s.occ.n with
    | none => s
    | some t =>
      if t.st != .saved || !(s.ctx t.ctx).enable || s.routinesWait t.tid then s
      else
        match s.restoreCores t with
        | some ps => ((ps.foldl (fun (s : State) p => s.restoreTeam p.1 p.2) s).moveRetired t ps).endDrain (.saved t.tid)
        | none => s)

end Sys2Proof.Machine
end

