-- ==== Sys2Proof/Machine/Caddy.lean ====
section
/-!
DEFINITION. CONT and the Caddy: R76 to R78, R207, R373, R389.
-/

namespace Sys2Proof.Machine

/-! ## Records (R76, R207) -/

/-- Records that the Caddy of a die holds in its SRAM. -/
def caddySram : Nat := 32768
/-- Spill slots of a context in use. -/
def State.spillUsed (s : State) (c : Nat) : List Nat :=
  s.caddy.filterMap (fun r => if (s.grid? r.gid).any (fun g => g.ctx == c) then r.spill else none)
/-- Context of a record. -/
def State.recCtx (s : State) (r : CaddyRec) : Nat := match s.grid? r.gid with | some g => g.ctx | none => 0
/-- The Caddy of a die can take k more records of a context (R20, R76): whichever way the records that have issued arrive, each finds
room in the SRAM of its die or in the spill pool of its context. -/
def State.caddyTakes (s : State) (die c k : Nat) : Bool :=
  let more (d x : Nat) : Nat := if d = die && x = c then k else 0
  let coming (d x : Nat) : Nat := (s.caddy.filter (fun r => r.die == d && !r.arrived && s.recCtx r == x)).length + more d x
  let excess (d : Nat) : Nat := (s.caddy.filter (fun r => r.die == d && r.spill.isNone)).length + more d c - caddySram
  let ctxs := (c :: (s.caddy.filter (fun r => !r.arrived)).map s.recCtx).eraseDups
  s.l2Rdy die && ctxs.all (fun x =>
    decide (((List.range s.dies).map (fun d => min (excess d) (coming d x))).foldl (· + ·) 0 ≤ (s.ctx x).spilllen - (s.spillUsed x).length))

/-- The record of lane L, with n registers saved (R207, R63). -/
def caddyRec (i : Iss) (L n resume batch id : Nat) (trav : Bool) : CaddyRec :=
  let l := i.l L
  { id, batch, die := i.die, gid := i.t.gid, tid := i.t.tid, ordinal := i.t.ordinal, recbase := i.t.recbase, reccount := i.t.reccount
    cmember := i.t.cmember, resume, key := (l.key.toNat) % 65536, n, regs := (List.range n).map l.v
    preds := (l.preds.extractLsb' 0 32) &&& 0xFFFFFFFE, trav, held := trav, uid := i.uid, wave := i.w.idx, lane := L
    me := l.me, home := l.home, opCount := l.opCount }
/-- What the lane has read, and has not yet got, is lost with its registers: its accesses still perform, in their order (R146, R156,
R207). -/
def State.forgetReads (s : State) (uid L : Nat) : State :=
  { s with
    accs := s.accs.map (fun a => if a.uid == uid && a.lane == L then a.orphan else a)
    lands := s.lands.filter (fun x => !(x.uid == uid && x.lane == L)) }
/-- The lane has ended for its team (R207). -/
def State.endLane (s : State) (i : Iss) (L : Nat) : State :=
  (s.forgetReads i.uid L).updLane i.uid L (fun l => { l with st := .exited, hints := [], stepping := false })
/-- The executing lanes write one record each and end (R76); the records arrive together. -/
def State.contLanes (s : State) (i : Iss) (n : Nat) (resume : Lane → Nat) (trav : Bool) : State :=
  let batch := s.fresh
  (i.E.foldl (fun (s : State) L =>
    ({ s with caddy := s.caddy ++ [caddyRec i L n (resume (i.l L)) batch s.fresh trav], fresh := s.fresh + 1 } : State).endLane i L)
    s.next).afterExit i

/-- Lanes in which CONT or TRAV traps: routines, and lanes that run the handler (R189, R355). -/
def contTraps (i : Iss) : Traps :=
  i.E.filterMap (fun L =>
    if (i.l L).routine.isSome then some (L, (i.l L).trapHere tkROUTINE 0)
    else if (i.l L).inHandler then some (L, (i.l L).trapHere tkILLEGAL 0) else none)
/-- The lanes that go on. -/
def contLive (i : Iss) : Iss := { i with E := i.E.filter (fun L => (i.l L).routine.isNone && !(i.l L).inHandler) }
/-- They wait for Caddy space (R76). -/
def caddyBusy : State → Iss → Option State :=
  waitIf (fun s i => (contLive i).E != [] && !s.caddyTakes i.die i.c (contLive i).E.length)

/-- CONT (R373). -/
def execCont (d : BitVec 7) (o : BitVec 18) (s : State) : Out :=
  .next (s.issue (fun _ _ => { srcs := [srcBlk 0 d.toNat], bad := !Instr.wf (.cont d o) }) caddyBusy (fun i s =>
    (if (contLive i).E = [] then s else s.contLanes (contLive i) d.toNat (fun l => (l.pc + o.signExtend 32).toNat) false, contTraps i)))

/-! ## Groups and waves (R77) -/

/-- Records of a group, by key and then by arrival. -/
def State.groupOf (s : State) (die gid resume : Nat) : List CaddyRec :=
  sortBy (fun r : CaddyRec => r.key * 2 ^ 64 + r.id)
    (s.caddy.filter (fun r => r.die == die && r.gid == gid && r.resume == resume && r.arrived && !r.held))
/-- The point of a formed wave (R256, kind 7). -/
def formPoint (g : Grid) (taken : Nat) : SsPoint :=
  { kind := 7, unit := 0, id := BitVec.ofNat 32 g.formOrd, wave := 0, lane := 0, grid := BitVec.ofNat 16 (g.logOrd.getD 0)
    n := BitVec.ofNat 32 taken }
/-- The Caddy may form waves of the grid: its context runs, and HALTCTX holds nothing (R78, R249). -/
def State.mayForm (s : State) (gid : Nat) : Bool :=
  match s.grid? gid with | some g => (s.ctx g.ctx).enable && !s.placeHeld g.ctx | none => false
/-- Form a wave of these records, unless its logged point holds it back. -/
def State.formRecs (s : State) (die gid resume : Nat) (rs : List CaddyRec) : State :=
  match s.grid? gid with
  | none => s
  | some g =>
    if rs = [] || !s.mayForm gid then s
    else
      let (go, s1) := s.ssGate g.logOrd.isSome die (formPoint g rs.length)
      if !go then s1
      else
        ({ s1 with
          caddy := s1.caddy.filter (fun r => !rs.any (fun x => x.id == r.id))
          forms := s1.forms ++ [{ id := s1.fresh, die, gid, resume, src := .recs rs, born := minNat (rs.map CaddyRec.arrivedAt)
                                  ordinal := g.formOrd }]
          fresh := s1.fresh + 1 } : State).updGrid gid (fun g => { g with formOrd := g.formOrd + 1 })
/-- A group of 32 or more records forms full waves (R77, rule 1): at most as many as it has records. -/
def State.formFullGo (s : State) (die gid resume : Nat) : Nat → State
  | 0 => s
  | k + 1 =>
    let rs := s.groupOf die gid resume
    if rs.length < 32 then s else (s.formRecs die gid resume (rs.take 32)).formFullGo die gid resume k
def State.formFull (s : State) (die gid resume : Nat) : State := s.formFullGo die gid resume ((s.groupOf die gid resume).length / 32)

/-! ## Arrival -/

/-- The 128 bytes of a record (R207). -/
def caddyBytes (r : CaddyRec) : BitVec 1024 :=
  record 1024 (((List.range r.n).zip r.regs).map (fun x => (4 * x.1, 4, x.2.toNat)) ++
    [(112, 4, r.preds.toNat), (116, 2, r.key), (118, 1, r.n), (119, 1, b2n r.trav), (120, 4, r.resume),
     (124, 4, (Config.gridTag r.gid r.tid).toNat)])
/-- The slot of a context's spill pool that a record takes: the lowest free one. R76 says only that records are appended in arrival
order: the choice is the model's (log 71). -/
def State.freeSpill (s : State) (c : Nat) : Nat :=
  let used := s.spillUsed c
  ((List.range (used.length + 1)).find? (fun k => !used.contains k)).getD 0
/-- One record arrives: in the SRAM while it has room, else in the spill pool of its context (R76). -/
def State.arriveRec (s : State) (r : CaddyRec) : State :=
  let c := match s.grid? r.gid with | some g => g.ctx | none => 0
  let inSram := (s.caddy.filter (fun x => x.die == r.die && x.arrived && x.spill.isNone)).length
  let slot := if inSram < caddySram then none else some (s.freeSpill c)
  let upd (s : State) : State :=
    { s with
      caddy := s.caddy.map (fun x => if x.id == r.id then
        { x with arrived := true, arrivedAt := s.cycle, spill := slot, id := if x.held then x.id else s.fresh } else x)
      fresh := s.fresh + 1 }
  match slot with
  | none => upd s
  | some k =>
    match s.engWr c ((s.ctx c).spillva + 128 * k) (recordBytes (caddyBytes r)) with
    | .ok s1 => upd s1
    | _ => upd s
/-- A walk releases the continuation it held: it joins its group now, with these results (R183). -/
def State.releaseCont (s : State) (id : Nat) (results : List Word) : State :=
  match s.caddy.find? (fun r => r.id == id) with
  | none => s
  | some r =>
    ({ s with
      caddy := s.caddy.map (fun x => if x.id == id then { x with held := false, results, id := s.fresh, arrivedAt := s.cycle } else x)
      fresh := s.fresh + 1 } : State).formFull r.die r.gid r.resume
/-- The point of an arrival (R256, kind 6). -/
def arrivalPoint (g : Grid) (t : Team) (rs : List CaddyRec) : SsPoint :=
  { kind := 6, unit := 0, id := t.ssId, wave := BitVec.ofNat 8 ((rs.map CaddyRec.wave).headD 0), lane := BitVec.ofNat 8 (minNat (rs.map CaddyRec.lane))
    grid := BitVec.ofNat 16 (g.logOrd.getD 0), n := BitVec.ofNat 32 rs.length }
/-- CADDY_ARRIVAL of the records of instruction n: in ascending lane order; then full waves form (R76, R77). -/
def execCaddyArrival (s : State) : Out :=
  .next (
    let rs := s.caddy.filter (fun r => r.batch == s.occ.n && !r.arrived)
    match rs with
    | [] => s
    | r :: _ =>
      match s.grid? r.gid with
      | none => s
      | some g =>
        let t := (s.team? r.tid).getD { tid := r.tid, gid := r.gid, ctx := g.ctx, ordinal := r.ordinal }
        let (go, s1) := s.ssGate g.logOrd.isSome r.die (arrivalPoint g t rs)
        if !go then s1
        else ((rs.map CaddyRec.resume).eraseDups).foldl (fun s p => s.formFull r.die r.gid p) (rs.foldl (fun s r => s.arriveRec r) s1))

/-- CADDY_PARTIAL_TIMEOUT of a group, by die n, grid m and resume address k: its oldest record has waited 2,048 cycles; a
full group that was held back forms too (R77, rule 2). -/
def execCaddyPartialTimeout (s : State) : Out :=
  .next (
    let rs := s.groupOf s.occ.n s.occ.m s.occ.k
    if 32 ≤ rs.length || rs.any (fun r => decide (2048 ≤ s.since r.die r.arrivedAt)) then
      s.formRecs s.occ.n s.occ.m s.occ.k (rs.take 32)
    else s)

/-- No lane of the grid remains that could add to a group (R77, rule 3). -/
def State.drained (s : State) (g : Grid) : Bool :=
  g.allDealt && !s.forms.any (fun f => f.gid == g.gid && (match f.src with | .recs _ => true | .invs _ => false)) &&
    !s.caddy.any (fun r => r.gid == g.gid && (r.held || !r.arrived)) &&
    s.teams.all (fun t => t.gid != g.gid || t.kind == .routine || t.st == .retired ||
      (s.wavesOf t.tid).all (fun w => w.lanes.all (fun l => if t.faulted then l.gone else !l.live)))
/-- The groups of a grid: die and resume address, oldest record first. -/
def State.groupsOf (s : State) (gid : Nat) : List (Nat × Nat) :=
  ((sortBy (fun r : CaddyRec => r.arrivedAt * 2 ^ 64 + r.id) (s.caddy.filter (fun r => r.gid == gid && r.arrived && !r.held))).map
    (fun r => (r.die, r.resume))).eraseDups
/-- CADDY_DRAIN of grid n: every group forms a wave of all its records (R77, rule 3). -/
def execCaddyDrain (s : State) : Out :=
  .next (match s.grid? s.occ.n with
    | none => s
    | some g =>
      if !s.drained g then s
      else (s.groupsOf g.gid).foldl (fun s x => s.formRecs x.1 g.gid x.2 ((s.groupOf x.1 g.gid x.2).take 32)) s)

/-! ## Placement (R78, R188, R264, R389) -/

/-- The lane of a record: its registers, predicates and results; the rest 0 and full. -/
def recLane (regs : Nat) (r : CaddyRec) : Lane :=
  let l := newLane regs r.resume
  { (l.setFrom 0 r.regs).setFrom r.n r.results with preds := r.preds.zeroExtend 128, me := r.me, home := r.home, opCount := r.opCount }
/-- The lane of an invocation (R188); it counts as a lane of the team whose lane made the stack's record, if one did (R149). -/
def invLane (regs : Nat) (st : Option Stack) (home : Nat) (v : Invocation) : Lane :=
  let l := newLane regs v.addr
  let q := match st with | some k => k.q | none => []
  let f := match st with | some k => k.frames.getD v.level { node := 0, mask := 0 } | none => { node := 0, mask := 0 }
  let h := match st with | some k => k.handle | none => v.handle
  let l1 := l.setFrom 0 [lo32 h, lo32 v.ref.toNat, hi32 v.ref.toNat, lo32 v.level]
  let l2 := (l1.setFrom 4 q).setFrom 20 [f.state0, f.state1, v.v22]
  { l2 with routine := some { stk := v.stk, level := v.level, kind := v.kind }, home }
/-- The team that the lane whose continuation the stack holds counts as: 0 for none (R149, R182). -/
def State.homeOf (s : State) (id : Nat) : Nat :=
  match (s.stkOf id).bind Stack.cont with
  | some c => (match s.caddy.find? (fun r => r.id == c) with | some r => r.home | none => 0)
  | none => 0
/-- A lane without a record or an invocation is exited from its start (R389). -/
def padLanes (regs entry : Nat) (ls : List Lane) : List Lane := ls ++ List.replicate (32 - ls.length) (absentLane regs entry)
/-- The one-wave team of a formed wave, and its wave. -/
def State.formTeam (s : State) (g : Grid) (f : CaddyForm) (core : Nat) : Team × Wave :=
  let n := formNeed g f
  let base : Team := { tid := 0, gid := g.gid, ctx := g.ctx, die := f.die, core, nwaves := 1, regs := n.regs, slots := n.slots, alloc := n.alloc
                       formOrd := f.ordinal, form := some { f with blockedAt := none, askedAt := none } }
  match f.src with
  | .recs rs =>
    let r := rs.headD { id := 0, batch := 0, die := 0, gid := 0, tid := 0, ordinal := 0, recbase := 0, reccount := 0, cmember := 0, resume := 0
                        key := 0, n := 0, regs := [], preds := 0, trav := false }
    ({ base with kind := .caddy, ordinal := r.ordinal, recbase := r.recbase, reccount := r.reccount, cmember := r.cmember },
     newWave (padLanes n.regs f.resume (rs.map (recLane n.regs))) n.slots (BitVec.ofNat 72 (g.f 8 9)))
  | .invs vs =>
    ({ base with kind := .routine },
     newWave (padLanes n.regs f.resume (vs.map (fun v => invLane n.regs (s.stkOf v.stk) (s.homeOf v.stk) v))) n.slots
       (match vs with | v :: _ => v.nlt | [] => 0))
/-- The accesses that a resumed lane made before its CONT precede its later ones (R146, R373); pieces of operand memory stay those of its old
wave. -/
def State.takeOver (s : State) (f : CaddyForm) (uid core : Nat) : State :=
  match f.src with
  | .invs _ => s
  | .recs rs =>
    { s with accs := s.accs.map (fun a =>
        match (if a.op.inSlot then none else ((List.range rs.length).zip rs).find? (fun (x : Nat × CaddyRec) => x.2.uid == a.uid && x.2.lane == a.lane)) with
        | some x => { a with uid := uid, lane := x.1, die := f.die, core := coreIx f.die core }
        | none => a) }
/-- CADDY_WAVE_PLACE of formed wave n (R78). -/
def execCaddyWavePlace (s : State) : Out :=
  .next (match s.forms.find? (fun f => f.id == s.occ.n) with
    | none => s
    | some f =>
      match s.grid? f.gid with
      | none => s
      | some g =>
        if !s.mayPlace g || s.formWaits f then s
        else
          match s.leastLoaded (s.roomy g (formNeed g f) (some f.die)) with
          | none => s
          | some (_, core) =>
            let (t, w) := s.formTeam g f core
            (({ s.takeOver f (s.fresh + 1) core with forms := s.forms.filter (fun x => x.id != f.id) } : State).putTeam t [w]).endDrain (.form f.id))

end Sys2Proof.Machine
end

