-- ==== Sys2Proof/Machine/Conv.lean ====
section
/-!
DEFINITION. Conversions: R305 to R308.
-/

namespace Sys2Proof.Machine

/-- A conversion of the CVT group (R305): the XMOD payload, FPCTL, HSEED, the lane number and vA give result and flags. -/
def cvtOp (sr : Bool) (fn : Option (BitVec 25) → Word → Word → Nat → Word → Word × FpFlags) (d a : BitVec 7) (e : BitVec 1) (g : BitVec 2) (s : State) : Out :=
  .next (s.regIssue (fRRFx sr d a e g) (fun _ x L l => l.fpDone d (fn (x.h L).xmod l.fpctl l.hseed L (l.v a.toNat))))

/-- I2F (R305). -/
def execI2f (d a : BitVec 7) (e : BitVec 1) (g : BitVec 2) (s : State) : Out := cvtOp false (fun x c _ _ v => intToF true x c v) d a e g s
/-- N2F (R305). -/
def execN2f (d a : BitVec 7) (e : BitVec 1) (g : BitVec 2) (s : State) : Out := cvtOp false (fun x c _ _ v => intToF false x c v) d a e g s
/-- F2IN (R305). -/
def execF2in (d a : BitVec 7) (e : BitVec 1) (g : BitVec 2) (s : State) : Out := cvtOp false (fun _ c _ _ v => fToInt i32Target .rne c v) d a e g s
/-- F2IZ (R305). -/
def execF2iz (d a : BitVec 7) (e : BitVec 1) (g : BitVec 2) (s : State) : Out := cvtOp false (fun _ c _ _ v => fToInt i32Target .rtz c v) d a e g s
/-- F2ID (R305). -/
def execF2id (d a : BitVec 7) (e : BitVec 1) (g : BitVec 2) (s : State) : Out := cvtOp false (fun _ c _ _ v => fToInt i32Target .rdn c v) d a e g s
/-- F2IU (R305). -/
def execF2iu (d a : BitVec 7) (e : BitVec 1) (g : BitVec 2) (s : State) : Out := cvtOp false (fun _ c _ _ v => fToInt i32Target .rup c v) d a e g s
/-- F2NN (R305). -/
def execF2nn (d a : BitVec 7) (e : BitVec 1) (g : BitVec 2) (s : State) : Out := cvtOp false (fun _ c _ _ v => fToInt n32Target .rne c v) d a e g s
/-- F2NZ (R305). -/
def execF2nz (d a : BitVec 7) (e : BitVec 1) (g : BitVec 2) (s : State) : Out := cvtOp false (fun _ c _ _ v => fToInt n32Target .rtz c v) d a e g s
/-- H2FL (R305). -/
def execH2fl (d a : BitVec 7) (e : BitVec 1) (g : BitVec 2) (s : State) : Out := cvtOp false (fun _ c _ _ v => widen fp16 0 c v) d a e g s
/-- H2FH (R305). -/
def execH2fh (d a : BitVec 7) (e : BitVec 1) (g : BitVec 2) (s : State) : Out := cvtOp false (fun _ c _ _ v => widen fp16 1 c v) d a e g s
/-- B2FL (R305). -/
def execB2fl (d a : BitVec 7) (e : BitVec 1) (g : BitVec 2) (s : State) : Out := cvtOp false (fun _ c _ _ v => widen bf16 0 c v) d a e g s
/-- B2FH (R305). -/
def execB2fh (d a : BitVec 7) (e : BitVec 1) (g : BitVec 2) (s : State) : Out := cvtOp false (fun _ c _ _ v => widen bf16 1 c v) d a e g s
/-- F2H (R305). -/
def execF2h (d a : BitVec 7) (e : BitVec 1) (g : BitVec 2) (s : State) : Out := cvtOp true (fun x c h L v => narrow1 fp16 x c h L v) d a e g s
/-- F2B (R305). -/
def execF2b (d a : BitVec 7) (e : BitVec 1) (g : BitVec 2) (s : State) : Out := cvtOp true (fun x c h L v => narrow1 bf16 x c h L v) d a e g s
/-- CVTP: two conversions packed into one word (R306). -/
def cvtpOp (fm : Fmt) (d a b : BitVec 7) (e f : BitVec 1) (g : BitVec 2) (s : State) : Out :=
  .next (s.regIssue (fRRRx true d a b e f g) (fun _ x L l =>
    l.fpDone d (cvtp fm (x.h L).xmod l.fpctl l.hseed L (l.v a.toNat) (l.v b.toNat))))
/-- CVTP.f16 (R306). -/
def execCvtpF16 (d a b : BitVec 7) (e f : BitVec 1) (g : BitVec 2) (s : State) : Out := cvtpOp fp16 d a b e f g s
/-- CVTP.bf16 (R306). -/
def execCvtpBf16 (d a b : BitVec 7) (e f : BitVec 1) (g : BitVec 2) (s : State) : Out := cvtpOp bf16 d a b e f g s
/-- FMT of the XMOD held, 0 without one (R285). -/
def fmtOf (h : HintSet) : Nat := match h.xmod with | none => 0 | some x => xmFMT x
/-- Source registers of CVTQ by format: four for 8-bit, eight for 4-bit elements (R307). -/
def cvtqSpan (fmt : Nat) : Nat := if fmt = 5 || fmt = 8 then 8 else 4
/-- Registers from n upward. -/
def Lane.vs (l : Lane) (n k : Nat) : List Word := (List.range k).map (fun j => l.v (n + j))
/-- The form of CVTQ: a format code other than 3 to 8, or no XMOD, is illegal (R307). -/
def fCVTQ (d a b : BitVec 7) (e f : BitVec 1) (g : BitVec 2) : FormF := fun h _ =>
  { g := g.toNat, xmod := true, sr := true, bad := (fmtTarget (fmtOf h)).isNone,
    srcs := [src a e (cvtqSpan (fmtOf h)), src b f], dsts := [(d.toNat, 1)] }
/-- CVTQ (R307). -/
def execCvtq (d a b : BitVec 7) (e f : BitVec 1) (g : BitVec 2) (s : State) : Out :=
  .next (s.regIssue (fCVTQ d a b e f g) (fun _ x L l =>
    l.fpDone d (cvtq ((x.h L).xmod.getD 0) l.fpctl l.hseed L (l.vs a.toNat (cvtqSpan (fmtOf (x.h L)))) (l.v b.toNat))))
/-- CVTX (R308). -/
def execCvtx (d a c : BitVec 7) (e : BitVec 1) (g : BitVec 2) (s : State) : Out :=
  .next (s.regIssue (fun h b => { fRRF d a e g h b with bad := !Instr.wf (.cvtx d a c e g) })
    (fun _ _ _ l => l.done d (cvtx c.toNat (l.v a.toNat))))

end Sys2Proof.Machine
end

