-- ==== Sys2Proof/Machine/Cross.lean ====
section
/-!
DEFINITION. Compares, predicates and cross-lane instructions: R309 to R315.
-/

namespace Sys2Proof.Machine

/-! ## Compares and predicates -/

/-- ICMP: p[PD] := the relation (R309, R272). -/
def icmpOp (ord : Word → Word → Ordering) (p a b : BitVec 7) (c : BitVec 4) (s : State) : Out :=
  .next (s.regIssue (fCMP a b (!upTo c.toNat 5))
    (fun _ _ _ l => .ok (l.setP p.toNat (ccRel c.toNat (ord (l.v a.toNat) (l.v b.toNat)))).adv))
def ordI (x y : Word) : Ordering := compare x.toInt y.toInt
def ordN (x y : Word) : Ordering := compare x.toNat y.toNat
/-- ICMP.i (R309). -/
def execIcmpI (p a b : BitVec 7) (c : BitVec 4) (s : State) : Out := icmpOp ordI p a b c s
/-- ICMP.n (R309). -/
def execIcmpN (p a b : BitVec 7) (c : BitVec 4) (s : State) : Out := icmpOp ordN p a b c s
/-- FCMP (R309). -/
def execFcmp (p a b : BitVec 7) (c : BitVec 4) (s : State) : Out :=
  .next (s.regIssue (fCMP a b (!upTo c.toNat 13))
    (fun _ _ _ l => .ok (l.setP p.toNat (fcmpRel fp32 c.toNat (ftzOf l.fpctl) (l.v a.toNat).toNat (l.v b.toNat).toNat)).adv))
/-- HCMP2: the low halves write PD, the high halves PD + 1 (R309, R272). -/
def execHcmp2 (p a b : BitVec 7) (c : BitVec 4) (s : State) : Out :=
  .next (s.regIssue (fCMP a b (!upTo c.toNat 13 || p.toNat == 127)) (fun _ _ _ l =>
    let r (i : Nat) := fcmpRel fp16 c.toNat (ftzOf l.fpctl) (elemN (l.v a.toNat) i 16) (elemN (l.v b.toNat) i 16)
    .ok ((l.setP p.toNat (r 0)).setP (p.toNat + 1) (r 1)).adv))
/-- PLOG: p[PD] := TT[2·p[PA] + p[PB]] (R310). -/
def execPlog (d a b : BitVec 7) (t : BitVec 4) (s : State) : Out :=
  .next (s.regIssue (fSYS [] []) (fun _ _ _ l =>
    .ok (l.setP d.toNat (t.getLsbD (2 * b2n (l.p a.toNat) + b2n (l.p b.toNat)))).adv))
/-- V2P: p[D] := (vA ≠ 0) (R278, R311). -/
def execV2p (d a : BitVec 7) (e : BitVec 1) (g : BitVec 2) (s : State) : Out :=
  .next (s.regIssue (fun _ _ => { g := g.toNat, srcs := [src a e] }) (fun _ _ _ l => .ok (l.setP d.toNat (l.v a.toNat != 0)).adv))
/-- P2V: vD := p[A] ? 1 : 0; the bit EA has no register to act on (R278, R311; log 20). -/
def execP2v (d a : BitVec 7) (_e : BitVec 1) (g : BitVec 2) (s : State) : Out :=
  .next (s.regIssue (fun _ _ => { g := g.toNat, dsts := [(d.toNat, 1)] }) (fun _ _ _ l => l.done d (if l.p a.toNat then 1 else 0)))
/-- PRD: vD := p1 to p31 in bits 1 to 31 (R278, R311). -/
def execPrd (d : BitVec 7) (g : BitVec 2) (s : State) : Out :=
  .next (s.regIssue (fun _ _ => { g := g.toNat, dsts := [(d.toNat, 1)] })
    (fun _ _ _ l => l.done d (l.preds.extractLsb' 0 32 &&& 0xFFFFFFFE#32)))
/-- PWR: p1 to p31 := bits 1 to 31 of vA (R278, R311). -/
def execPwr (a : BitVec 7) (e : BitVec 1) (g : BitVec 2) (s : State) : Out :=
  .next (s.regIssue (fun _ _ => { g := g.toNat, srcs := [src a e] })
    (fun _ _ _ l => .ok { l with preds := l.preds.extractLsb' 32 96 ++ (l.v a.toNat &&& 0xFFFFFFFE#32) }.adv))

/-! ## Votes, shuffles, reductions and scans -/

/-- A vote over the executing lanes: the value each of them gets (R312). -/
def voteOp (fn : Iss → Nat → (Nat → Word) → Word) (d a : BitVec 7) (e : BitVec 1) (g : BitVec 2) (s : State) : Out :=
  .next (s.regIssue (fRRF d a e g) (fun _ i L l => l.done d (fn i L (fun k => (i.l k).v a.toNat))))
/-- ALL (R312). -/
def execAll (d a : BitVec 7) (e : BitVec 1) (g : BitVec 2) (s : State) : Out := voteOp (fun i _ v => if i.E.all (fun k => v k != 0) then 1 else 0) d a e g s
/-- ANY (R312). -/
def execAny (d a : BitVec 7) (e : BitVec 1) (g : BitVec 2) (s : State) : Out := voteOp (fun i _ v => if i.E.any (fun k => v k != 0) then 1 else 0) d a e g s
/-- BALLOT (R312). -/
def execBallot (d a : BitVec 7) (e : BitVec 1) (g : BitVec 2) (s : State) : Out := voteOp (fun i _ v => lanesMask (i.E.filter (fun k => v k != 0))) d a e g s
/-- MATCH (R312). -/
def execMatchLanes (d a : BitVec 7) (e : BitVec 1) (g : BitVec 2) (s : State) : Out := voteOp (fun i L v => lanesMask (i.E.filter (fun k => v k == v L))) d a e g s
/-- LCOUNT (R312). -/
def execLcount (d : BitVec 7) (g : BitVec 2) (s : State) : Out :=
  .next (s.regIssue (fun _ _ => { g := g.toNat, dsts := [(d.toNat, 1)] }) (fun _ i _ l => l.done d (lo32 i.E.length)))
/-- A shuffle: the partner's value when it executes, else the lane's own (R313). -/
def shflOp (kind : Nat) (d a b : BitVec 7) (e f : BitVec 1) (g : BitVec 2) (s : State) : Out :=
  .next (s.regIssue (fRRR d a b e f g) (fun _ i L l =>
    let q := partner kind L (l.v b.toNat).toNat
    l.done d (if i.E.contains q then (i.l q).v a.toNat else l.v a.toNat)))
/-- SHFL.idx (R313). -/
def execShflIdx (d a b : BitVec 7) (e f : BitVec 1) (g : BitVec 2) (s : State) : Out := shflOp 0 d a b e f g s
/-- SHFL.xor (R313). -/
def execShflXor (d a b : BitVec 7) (e f : BitVec 1) (g : BitVec 2) (s : State) : Out := shflOp 1 d a b e f g s
/-- SHFL.xw (R313). -/
def execShflXw (d a b : BitVec 7) (e f : BitVec 1) (g : BitVec 2) (s : State) : Out := shflOp 2 d a b e f g s
/-- The values of the executing lanes, absent in the others (R314). -/
def laneVals (i : Iss) (a : BitVec 7) : List (Option Word) :=
  (List.range 32).map (fun L => if i.E.contains L then some ((i.l L).v a.toNat) else none)
/-- REDUCE (R314). -/
def execReduce (d a c : BitVec 7) (e : BitVec 1) (g : BitVec 2) (s : State) : Out :=
  .next (s.regIssue (fun h b => { fRRF d a e g h b with bad := !upTo c.toNat 10 })
    (fun _ i L l => l.done d (((reduceAll c.toNat (laneVals i a)).getD L none).getD 0)))
/-- The result of SCAN in lane L: inclusive, or exclusive from the lane below (R315). -/
def scanOf (c : Nat) (vals : List (Option Word)) (L : Nat) : Word :=
  if c < 16 then ((scanAll c vals).getD L none).getD 0
  else if L = 0 then scanIdentity (c - 16)
  else ((scanAll (c - 16) vals).getD (L - 1) none).getD (scanIdentity (c - 16))
/-- SCAN (R315). -/
def execScan (d a c : BitVec 7) (e : BitVec 1) (g : BitVec 2) (s : State) : Out :=
  .next (s.regIssue (fun h b => { fRRF d a e g h b with bad := !Instr.wf (.scan d a c e g) })
    (fun _ i L l => l.done d (scanOf c.toNat (laneVals i a) L)))

end Sys2Proof.Machine
end

