-- ==== Sys2Proof/Decode.lean ====
section
/-!
DEFINITION. The decoder, total on every 32-bit word and on every list of bytes, and the encoder, both written from the
encodings of R266 to R287. A word that is no instruction is refused by name (R288).
-/

namespace Sys2Proof

/-- Why a word is not an instruction (R288, checks 1 and 2). -/
inductive DecodeError where
  /-- A major listed as illegal: 0x00 and 0x78 to 0x7A (R277). -/
  | illegalMajor
  /-- A function or group code past the end of its list (R278, R279). -/
  | functionCode
  /-- A field that must be zero is not (R268, R279, R280). -/
  | zeroField
  /-- A field holds a value its instruction forbids (R270 to R273, R278 to R280). -/
  | fieldValue
  /-- The payload of a hint word holds a value no instruction takes (R281 to R286): the hint is held, and the
  instruction it precedes raises ILLEGAL. -/
  | hintPayload
  /-- Fewer than four bytes (R266). -/
  | short
deriving DecidableEq, Repr

/-- The n bits of a word from bit lo upward (R5, R267). -/
def fld (w : BitVec 32) (lo n : Nat) : BitVec n := BitVec.ofNat n (w.toNat / 2 ^ lo)


/-- The group of major 0x1b (R278, R279). -/
def dec1B (w : BitVec 32) : Except DecodeError Instr :=
  match (fld w 4 7).toNat with
  | 0 => if fld w 2 1 = 0#1 then .ok (.mov (fld w 18 7) (fld w 11 7) (fld w 3 1) (fld w 0 2)) else .error .zeroField
  | 1 => if fld w 2 1 = 0#1 then .ok (.ineg (fld w 18 7) (fld w 11 7) (fld w 3 1) (fld w 0 2)) else .error .zeroField
  | 2 => if fld w 2 1 = 0#1 then .ok (.iabs (fld w 18 7) (fld w 11 7) (fld w 3 1) (fld w 0 2)) else .error .zeroField
  | 3 => if fld w 2 1 = 0#1 then .ok (.not (fld w 18 7) (fld w 11 7) (fld w 3 1) (fld w 0 2)) else .error .zeroField
  | 4 => if fld w 2 1 = 0#1 then .ok (.popc (fld w 18 7) (fld w 11 7) (fld w 3 1) (fld w 0 2)) else .error .zeroField
  | 5 => if fld w 2 1 = 0#1 then .ok (.clz (fld w 18 7) (fld w 11 7) (fld w 3 1) (fld w 0 2)) else .error .zeroField
  | 6 => if fld w 2 1 = 0#1 then .ok (.ctz (fld w 18 7) (fld w 11 7) (fld w 3 1) (fld w 0 2)) else .error .zeroField
  | 7 => if fld w 2 1 = 0#1 then .ok (.brev (fld w 18 7) (fld w 11 7) (fld w 3 1) (fld w 0 2)) else .error .zeroField
  | 8 => if fld w 2 1 = 0#1 then .ok (.bswap (fld w 18 7) (fld w 11 7) (fld w 3 1) (fld w 0 2)) else .error .zeroField
  | 9 => if fld w 2 1 = 0#1 then .ok (.sext8 (fld w 18 7) (fld w 11 7) (fld w 3 1) (fld w 0 2)) else .error .zeroField
  | 10 => if fld w 2 1 = 0#1 then .ok (.sext16 (fld w 18 7) (fld w 11 7) (fld w 3 1) (fld w 0 2)) else .error .zeroField
  | 11 => if fld w 2 1 = 0#1 then .ok (.zext8 (fld w 18 7) (fld w 11 7) (fld w 3 1) (fld w 0 2)) else .error .zeroField
  | 12 => if fld w 2 1 = 0#1 then .ok (.zext16 (fld w 18 7) (fld w 11 7) (fld w 3 1) (fld w 0 2)) else .error .zeroField
  | _ => .error .functionCode

/-- The group of major 0x26 (R278, R279). -/
def dec26 (w : BitVec 32) : Except DecodeError Instr :=
  match (fld w 4 7).toNat with
  | 0 => if fld w 2 1 = 0#1 then .ok (.fneg (fld w 18 7) (fld w 11 7) (fld w 3 1) (fld w 0 2)) else .error .zeroField
  | 1 => if fld w 2 1 = 0#1 then .ok (.fabs (fld w 18 7) (fld w 11 7) (fld w 3 1) (fld w 0 2)) else .error .zeroField
  | 2 => if fld w 2 1 = 0#1 then .ok (.frndn (fld w 18 7) (fld w 11 7) (fld w 3 1) (fld w 0 2)) else .error .zeroField
  | 3 => if fld w 2 1 = 0#1 then .ok (.frndz (fld w 18 7) (fld w 11 7) (fld w 3 1) (fld w 0 2)) else .error .zeroField
  | 4 => if fld w 2 1 = 0#1 then .ok (.frndd (fld w 18 7) (fld w 11 7) (fld w 3 1) (fld w 0 2)) else .error .zeroField
  | 5 => if fld w 2 1 = 0#1 then .ok (.frndu (fld w 18 7) (fld w 11 7) (fld w 3 1) (fld w 0 2)) else .error .zeroField
  | 6 => if fld w 2 1 = 0#1 then .ok (.ffrac (fld w 18 7) (fld w 11 7) (fld w 3 1) (fld w 0 2)) else .error .zeroField
  | 7 => if fld w 2 1 = 0#1 then .ok (.fclass (fld w 18 7) (fld w 11 7) (fld w 3 1) (fld w 0 2)) else .error .zeroField
  | 8 => if fld w 2 1 = 0#1 then .ok (.fsat (fld w 18 7) (fld w 11 7) (fld w 3 1) (fld w 0 2)) else .error .zeroField
  | _ => .error .functionCode

/-- The group of major 0x30 (R278, R279). -/
def dec30 (w : BitVec 32) : Except DecodeError Instr :=
  match (fld w 4 7).toNat with
  | 0 => if fld w 2 1 = 0#1 then .ok (.rcp (fld w 18 7) (fld w 11 7) (fld w 3 1) (fld w 0 2)) else .error .zeroField
  | 1 => if fld w 2 1 = 0#1 then .ok (.rsq (fld w 18 7) (fld w 11 7) (fld w 3 1) (fld w 0 2)) else .error .zeroField
  | 2 => if fld w 2 1 = 0#1 then .ok (.sqrt (fld w 18 7) (fld w 11 7) (fld w 3 1) (fld w 0 2)) else .error .zeroField
  | 3 => if fld w 2 1 = 0#1 then .ok (.exp2 (fld w 18 7) (fld w 11 7) (fld w 3 1) (fld w 0 2)) else .error .zeroField
  | 4 => if fld w 2 1 = 0#1 then .ok (.log2 (fld w 18 7) (fld w 11 7) (fld w 3 1) (fld w 0 2)) else .error .zeroField
  | 5 => if fld w 2 1 = 0#1 then .ok (.sint (fld w 18 7) (fld w 11 7) (fld w 3 1) (fld w 0 2)) else .error .zeroField
  | 6 => if fld w 2 1 = 0#1 then .ok (.cost (fld w 18 7) (fld w 11 7) (fld w 3 1) (fld w 0 2)) else .error .zeroField
  | 7 => if fld w 2 1 = 0#1 then .ok (.tanh (fld w 18 7) (fld w 11 7) (fld w 3 1) (fld w 0 2)) else .error .zeroField
  | 8 => if fld w 2 1 = 0#1 then .ok (.rcph2 (fld w 18 7) (fld w 11 7) (fld w 3 1) (fld w 0 2)) else .error .zeroField
  | 9 => if fld w 2 1 = 0#1 then .ok (.exph2 (fld w 18 7) (fld w 11 7) (fld w 3 1) (fld w 0 2)) else .error .zeroField
  | _ => .error .functionCode

/-- The group of major 0x31 (R278, R279). -/
def dec31 (w : BitVec 32) : Except DecodeError Instr :=
  match (fld w 4 7).toNat with
  | 0 => if fld w 2 1 = 0#1 then .ok (.i2f (fld w 18 7) (fld w 11 7) (fld w 3 1) (fld w 0 2)) else .error .zeroField
  | 1 => if fld w 2 1 = 0#1 then .ok (.n2f (fld w 18 7) (fld w 11 7) (fld w 3 1) (fld w 0 2)) else .error .zeroField
  | 2 => if fld w 2 1 = 0#1 then .ok (.f2in (fld w 18 7) (fld w 11 7) (fld w 3 1) (fld w 0 2)) else .error .zeroField
  | 3 => if fld w 2 1 = 0#1 then .ok (.f2iz (fld w 18 7) (fld w 11 7) (fld w 3 1) (fld w 0 2)) else .error .zeroField
  | 4 => if fld w 2 1 = 0#1 then .ok (.f2id (fld w 18 7) (fld w 11 7) (fld w 3 1) (fld w 0 2)) else .error .zeroField
  | 5 => if fld w 2 1 = 0#1 then .ok (.f2iu (fld w 18 7) (fld w 11 7) (fld w 3 1) (fld w 0 2)) else .error .zeroField
  | 6 => if fld w 2 1 = 0#1 then .ok (.f2nn (fld w 18 7) (fld w 11 7) (fld w 3 1) (fld w 0 2)) else .error .zeroField
  | 7 => if fld w 2 1 = 0#1 then .ok (.f2nz (fld w 18 7) (fld w 11 7) (fld w 3 1) (fld w 0 2)) else .error .zeroField
  | 8 => if fld w 2 1 = 0#1 then .ok (.h2fl (fld w 18 7) (fld w 11 7) (fld w 3 1) (fld w 0 2)) else .error .zeroField
  | 9 => if fld w 2 1 = 0#1 then .ok (.h2fh (fld w 18 7) (fld w 11 7) (fld w 3 1) (fld w 0 2)) else .error .zeroField
  | 10 => if fld w 2 1 = 0#1 then .ok (.b2fl (fld w 18 7) (fld w 11 7) (fld w 3 1) (fld w 0 2)) else .error .zeroField
  | 11 => if fld w 2 1 = 0#1 then .ok (.b2fh (fld w 18 7) (fld w 11 7) (fld w 3 1) (fld w 0 2)) else .error .zeroField
  | 12 => if fld w 2 1 = 0#1 then .ok (.f2h (fld w 18 7) (fld w 11 7) (fld w 3 1) (fld w 0 2)) else .error .zeroField
  | 13 => if fld w 2 1 = 0#1 then .ok (.f2b (fld w 18 7) (fld w 11 7) (fld w 3 1) (fld w 0 2)) else .error .zeroField
  | _ => .error .functionCode

/-- The group of major 0x3b (R278, R279). -/
def dec3B (w : BitVec 32) : Except DecodeError Instr :=
  match (fld w 4 7).toNat with
  | 0 => if fld w 2 1 = 0#1 then .ok (.v2p (fld w 18 7) (fld w 11 7) (fld w 3 1) (fld w 0 2)) else .error .zeroField
  | 1 => if fld w 2 1 = 0#1 then .ok (.p2v (fld w 18 7) (fld w 11 7) (fld w 3 1) (fld w 0 2)) else .error .zeroField
  | 2 => if fld w 2 2 = 0#2 ∧ fld w 11 7 = 0#7 then .ok (.prd (fld w 18 7) (fld w 0 2)) else .error .zeroField
  | 3 => if fld w 18 7 = 0#7 ∧ fld w 2 1 = 0#1 then .ok (.pwr (fld w 11 7) (fld w 3 1) (fld w 0 2)) else .error .zeroField
  | _ => .error .functionCode

/-- The group of major 0x3c (R278, R279). -/
def dec3C (w : BitVec 32) : Except DecodeError Instr :=
  match (fld w 4 7).toNat with
  | 0 => if fld w 2 1 = 0#1 then .ok (.all (fld w 18 7) (fld w 11 7) (fld w 3 1) (fld w 0 2)) else .error .zeroField
  | 1 => if fld w 2 1 = 0#1 then .ok (.any (fld w 18 7) (fld w 11 7) (fld w 3 1) (fld w 0 2)) else .error .zeroField
  | 2 => if fld w 2 1 = 0#1 then .ok (.ballot (fld w 18 7) (fld w 11 7) (fld w 3 1) (fld w 0 2)) else .error .zeroField
  | 3 => if fld w 2 1 = 0#1 then .ok (.matchLanes (fld w 18 7) (fld w 11 7) (fld w 3 1) (fld w 0 2)) else .error .zeroField
  | 4 => if fld w 2 2 = 0#2 ∧ fld w 11 7 = 0#7 then .ok (.lcount (fld w 18 7) (fld w 0 2)) else .error .zeroField
  | _ => .error .functionCode

/-- The group of major 0x48 (R278, R279). -/
def dec48 (w : BitVec 32) : Except DecodeError Instr :=
  match (fld w 9 2).toNat with
  | 0 => if fld w 4 5 = 0#5 ∧ fld w 11 14 = 0#14 then .ok (.barSync (fld w 0 4)) else .error .zeroField
  | 1 => if fld w 4 5 = 0#5 ∧ fld w 11 14 = 0#14 then .ok (.barArrive (fld w 0 4)) else .error .zeroField
  | 2 => if fld w 4 5 = 0#5 ∧ fld w 11 14 = 0#14 then .ok (.barWait (fld w 0 4)) else .error .zeroField
  | 3 => if fld w 0 9 = 0#9 ∧ fld w 11 14 = 0#14 then .ok .barCsync else .error .zeroField
  | _ => .error .functionCode

/-- The group of major 0x49 (R278, R279). -/
def dec49 (w : BitVec 32) : Except DecodeError Instr :=
  match (fld w 0 2).toNat with
  | 0 => if fld w 2 23 = 0#23 then .ok .nop else .error .zeroField
  | 1 => if fld w 2 23 = 0#23 then .ok .yield else .error .zeroField
  | 2 => if fld w 18 7 = 0#7 ∧ fld w 2 9 = 0#9 then .ok (.sleep (fld w 11 7)) else .error .zeroField
  | _ => .error .functionCode

/-- The group of major 0x56 (R278, R279). -/
def dec56 (w : BitVec 32) : Except DecodeError Instr :=
  match (fld w 2 3).toNat with
  | 0 => if fld w 5 2 = 0#2 then .ok (.lock (fld w 18 7) (fld w 11 7) (fld w 7 4) (fld w 0 2)) else .error .zeroField
  | 1 => if fld w 5 2 = 0#2 then .ok (.unlock (fld w 18 7) (fld w 11 7) (fld w 7 4) (fld w 0 2)) else .error .zeroField
  | _ => .error .functionCode

/-- The group of major 0x5a (R278, R279). -/
def dec5A (w : BitVec 32) : Except DecodeError Instr :=
  match (fld w 18 7).toNat with
  | 0 => .ok (.emrg (fld w 11 7) (fld w 0 11))
  | 1 => .ok (.eclr (fld w 11 7) (fld w 0 11))
  | 2 => .ok (.esweep (fld w 11 7) (fld w 0 11))
  | 3 => if fld w 11 7 = 0#7 then .ok (.escene (fld w 0 11)) else .error .zeroField
  | 4 => .ok (.eraw (fld w 11 7) (fld w 0 11))
  | 5 => .ok (.einit (fld w 11 7) (fld w 0 11))
  | _ => .error .functionCode

/-- The group of major 0x5f (R278, R279). -/
def dec5F (w : BitVec 32) : Except DecodeError Instr :=
  match (fld w 8 3).toNat with
  | 0 => if fld w 4 4 = 0#4 ∧ fld w 11 7 = 0#7 then .ok (.ordwait (fld w 18 7) (fld w 0 4)) else .error .zeroField
  | 1 => if fld w 4 4 = 0#4 ∧ fld w 11 14 = 0#14 then .ok (.ordtake (fld w 0 4)) else .error .zeroField
  | _ => .error .functionCode

/-- The group of major 0x60 (R278, R279). -/
def dec60 (w : BitVec 32) : Except DecodeError Instr :=
  match (fld w 10 1).toNat with
  | 0 => if fld w 11 14 = 0#14 then .ok (.markImm (fld w 0 10)) else .error .zeroField
  | 1 => if fld w 18 7 = 0#7 ∧ fld w 0 10 = 0#10 then .ok (.markReg (fld w 11 7)) else .error .zeroField
  | _ => .error .functionCode

/-- The group of major 0x63 (R278, R279). -/
def dec63 (w : BitVec 32) : Except DecodeError Instr :=
  match (fld w 8 3).toNat with
  | 0 => .ok (.tnew (fld w 18 7) (fld w 11 7) (fld w 4 4) (fld w 0 4))
  | 1 => if fld w 4 4 = 0#4 then .ok (.tcut (fld w 18 7) (fld w 11 7) (fld w 0 4)) else .error .zeroField
  | 2 => if fld w 18 7 = 0#7 ∧ fld w 0 8 = 0#8 then .ok (.tret (fld w 11 7)) else .error .zeroField
  | 3 => if fld w 3 5 = 0#5 then .ok (.tfrd (fld w 18 7) (fld w 11 7) (fld w 0 3)) else .error .zeroField
  | 4 => if fld w 3 5 = 0#5 then .ok (.tfwr (fld w 18 7) (fld w 11 7) (fld w 0 3)) else .error .zeroField
  | 5 => if fld w 4 4 = 0#4 then .ok (.tstat (fld w 18 7) (fld w 11 7) (fld w 0 4)) else .error .zeroField
  | _ => .error .functionCode

/-- The group of major 0x65 (R278, R279). -/
def dec65 (w : BitVec 32) : Except DecodeError Instr :=
  match (fld w 8 3).toNat with
  | 0 => if fld w 11 7 = 0#7 then .ok (.mclaim (fld w 18 7) (fld w 5 3) (fld w 0 5)) else .error .zeroField
  | 1 => if fld w 11 14 = 0#14 then .ok (.mrel (fld w 5 3) (fld w 0 5)) else .error .zeroField
  | 2 => if fld w 11 14 = 0#14 then .ok (.mzero (fld w 5 3) (fld w 0 5)) else .error .zeroField
  | 3 => if fld w 18 7 = 0#7 ∧ fld w 5 3 = 0#3 then .ok (.mrow (fld w 11 7) (fld w 0 5)) else .error .zeroField
  | 4 => if fld w 5 3 = 0#3 ∧ fld w 11 7 = 0#7 then .ok (.mread (fld w 18 7) (fld w 0 5)) else .error .zeroField
  | _ => .error .functionCode

/-- The group of major 0x6c (R278, R279). -/
def dec6C (w : BitVec 32) : Except DecodeError Instr :=
  match (fld w 4 7).toNat with
  | 0 => if fld w 2 1 = 0#1 then .ok (.idot4 (fld w 18 7) (fld w 11 7) (fld w 3 1) (fld w 0 2)) else .error .zeroField
  | 1 => if fld w 2 1 = 0#1 then .ok (.ndot4 (fld w 18 7) (fld w 11 7) (fld w 3 1) (fld w 0 2)) else .error .zeroField
  | 2 => if fld w 2 1 = 0#1 then .ok (.idot8 (fld w 18 7) (fld w 11 7) (fld w 3 1) (fld w 0 2)) else .error .zeroField
  | 3 => if fld w 2 1 = 0#1 then .ok (.idist4 (fld w 18 7) (fld w 11 7) (fld w 3 1) (fld w 0 2)) else .error .zeroField
  | 4 => if fld w 2 1 = 0#1 then .ok (.fdot4e4 (fld w 18 7) (fld w 11 7) (fld w 3 1) (fld w 0 2)) else .error .zeroField
  | 5 => if fld w 2 1 = 0#1 then .ok (.fdot4e5 (fld w 18 7) (fld w 11 7) (fld w 3 1) (fld w 0 2)) else .error .zeroField
  | 6 => if fld w 2 1 = 0#1 then .ok (.hdot2 (fld w 18 7) (fld w 11 7) (fld w 3 1) (fld w 0 2)) else .error .zeroField
  | _ => .error .functionCode

/-- The group of major 0x6d (R278, R279). -/
def dec6D (w : BitVec 32) : Except DecodeError Instr :=
  match (fld w 9 2).toNat with
  | 0 => if fld w 18 7 = 0#7 then .ok (.kinit (fld w 11 7) (fld w 8 1) (fld w 0 8)) else .error .zeroField
  | 1 => if fld w 0 9 = 0#9 then .ok (.kins (fld w 18 7) (fld w 11 7)) else .error .zeroField
  | 2 => if fld w 0 9 = 0#9 then .ok (.kmrg (fld w 18 7) (fld w 11 7)) else .error .zeroField
  | 3 => if fld w 0 9 = 0#9 then .ok (.krd (fld w 18 7) (fld w 11 7)) else .error .zeroField
  | _ => .error .functionCode

/-- The group of major 0x70 (R278, R279). -/
def dec70 (w : BitVec 32) : Except DecodeError Instr :=
  match (fld w 0 1).toNat with
  | 0 => if fld w 18 7 = 0#7 ∧ fld w 8 3 = 0#3 ∧ fld w 1 3 = 0#3 then .ok (.trapAssert (fld w 11 7) (fld w 4 4)) else .error .zeroField
  | 1 => if fld w 18 7 = 0#7 ∧ fld w 1 10 = 0#10 then .ok (.trapUser (fld w 11 7)) else .error .zeroField
  | _ => .error .functionCode

/-- The group of major 0x73 (R278, R279). -/
def dec73 (w : BitVec 32) : Except DecodeError Instr :=
  match (fld w 8 3).toNat with
  | 0 => if fld w 18 7 = 0#7 ∧ fld w 4 4 = 0#4 then .ok (.savew (fld w 11 7) (fld w 0 4)) else .error .zeroField
  | 1 => if fld w 18 7 = 0#7 ∧ fld w 4 4 = 0#4 then .ok (.restw (fld w 11 7) (fld w 0 4)) else .error .zeroField
  | _ => .error .functionCode

/-- The group of major 0x75 (R278, R279). -/
def dec75 (w : BitVec 32) : Except DecodeError Instr :=
  match (fld w 8 3).toNat with
  | 0 => if fld w 18 7 = 0#7 ∧ fld w 4 4 = 0#4 then .ok (.bset (fld w 11 7) (fld w 0 4)) else .error .zeroField
  | 1 => if fld w 4 4 = 0#4 ∧ fld w 11 7 = 0#7 then .ok (.bget (fld w 18 7) (fld w 0 4)) else .error .zeroField
  | _ => .error .functionCode

/-- The fields of a word of major opcode n (R277), before the values of the fields are checked. -/
def decodeMajor (n : Nat) (w : BitVec 32) : Except DecodeError Instr :=
  match n with
  | 0x00 => .error .illegalMajor
  | 0x01 => .ok (.iadd (fld w 18 7) (fld w 11 7) (fld w 4 7) (fld w 3 1) (fld w 2 1) (fld w 0 2))
  | 0x02 => .ok (.isub (fld w 18 7) (fld w 11 7) (fld w 4 7) (fld w 3 1) (fld w 2 1) (fld w 0 2))
  | 0x03 => .ok (.imul (fld w 18 7) (fld w 11 7) (fld w 4 7) (fld w 3 1) (fld w 2 1) (fld w 0 2))
  | 0x04 => .ok (.imulhI (fld w 18 7) (fld w 11 7) (fld w 4 7) (fld w 3 1) (fld w 2 1) (fld w 0 2))
  | 0x05 => .ok (.imulhN (fld w 18 7) (fld w 11 7) (fld w 4 7) (fld w 3 1) (fld w 2 1) (fld w 0 2))
  | 0x06 => .ok (.iminI (fld w 18 7) (fld w 11 7) (fld w 4 7) (fld w 3 1) (fld w 2 1) (fld w 0 2))
  | 0x07 => .ok (.imaxI (fld w 18 7) (fld w 11 7) (fld w 4 7) (fld w 3 1) (fld w 2 1) (fld w 0 2))
  | 0x08 => .ok (.iminN (fld w 18 7) (fld w 11 7) (fld w 4 7) (fld w 3 1) (fld w 2 1) (fld w 0 2))
  | 0x09 => .ok (.imaxN (fld w 18 7) (fld w 11 7) (fld w 4 7) (fld w 3 1) (fld w 2 1) (fld w 0 2))
  | 0x0a => .ok (.and (fld w 18 7) (fld w 11 7) (fld w 4 7) (fld w 3 1) (fld w 2 1) (fld w 0 2))
  | 0x0b => .ok (.or (fld w 18 7) (fld w 11 7) (fld w 4 7) (fld w 3 1) (fld w 2 1) (fld w 0 2))
  | 0x0c => .ok (.xor (fld w 18 7) (fld w 11 7) (fld w 4 7) (fld w 3 1) (fld w 2 1) (fld w 0 2))
  | 0x0d => .ok (.shl (fld w 18 7) (fld w 11 7) (fld w 4 7) (fld w 3 1) (fld w 2 1) (fld w 0 2))
  | 0x0e => .ok (.shrN (fld w 18 7) (fld w 11 7) (fld w 4 7) (fld w 3 1) (fld w 2 1) (fld w 0 2))
  | 0x0f => .ok (.shrI (fld w 18 7) (fld w 11 7) (fld w 4 7) (fld w 3 1) (fld w 2 1) (fld w 0 2))
  | 0x10 => .ok (.rotl (fld w 18 7) (fld w 11 7) (fld w 4 7) (fld w 3 1) (fld w 2 1) (fld w 0 2))
  | 0x11 => .ok (.imac (fld w 18 7) (fld w 11 7) (fld w 4 7) (fld w 3 1) (fld w 2 1) (fld w 0 2))
  | 0x12 => .ok (.iaddi (fld w 18 7) (fld w 11 7) (fld w 10 1) (fld w 0 10))
  | 0x13 => .ok (.imuli (fld w 18 7) (fld w 11 7) (fld w 10 1) (fld w 0 10))
  | 0x14 => .ok (.andi (fld w 18 7) (fld w 11 7) (fld w 10 1) (fld w 0 10))
  | 0x15 => .ok (.ori (fld w 18 7) (fld w 11 7) (fld w 10 1) (fld w 0 10))
  | 0x16 => .ok (.xori (fld w 18 7) (fld w 11 7) (fld w 10 1) (fld w 0 10))
  | 0x17 => .ok (.shli (fld w 18 7) (fld w 11 7) (fld w 10 1) (fld w 0 10))
  | 0x18 => .ok (.shriN (fld w 18 7) (fld w 11 7) (fld w 10 1) (fld w 0 10))
  | 0x19 => .ok (.shriI (fld w 18 7) (fld w 11 7) (fld w 10 1) (fld w 0 10))
  | 0x1a => if fld w 10 8 = 0#8 then .ok (.movi (fld w 18 7) (fld w 0 10)) else .error .zeroField
  | 0x1b => dec1B w
  | 0x1c => .ok (.bfe (fld w 18 7) (fld w 11 7) (fld w 4 7) (fld w 3 1) (fld w 2 1) (fld w 0 2))
  | 0x1d => .ok (.bfi (fld w 18 7) (fld w 11 7) (fld w 4 7) (fld w 3 1) (fld w 2 1) (fld w 0 2))
  | 0x1e => .ok (.prmt (fld w 18 7) (fld w 11 7) (fld w 4 7) (fld w 3 1) (fld w 2 1) (fld w 0 2))
  | 0x1f => .ok (.sel (fld w 18 7) (fld w 11 7) (fld w 4 7) (fld w 3 1) (fld w 2 1) (fld w 0 2))
  | 0x20 => .ok (.fadd (fld w 18 7) (fld w 11 7) (fld w 4 7) (fld w 3 1) (fld w 2 1) (fld w 0 2))
  | 0x21 => .ok (.fsub (fld w 18 7) (fld w 11 7) (fld w 4 7) (fld w 3 1) (fld w 2 1) (fld w 0 2))
  | 0x22 => .ok (.fmul (fld w 18 7) (fld w 11 7) (fld w 4 7) (fld w 3 1) (fld w 2 1) (fld w 0 2))
  | 0x23 => .ok (.fmac (fld w 18 7) (fld w 11 7) (fld w 4 7) (fld w 3 1) (fld w 2 1) (fld w 0 2))
  | 0x24 => .ok (.fmin (fld w 18 7) (fld w 11 7) (fld w 4 7) (fld w 3 1) (fld w 2 1) (fld w 0 2))
  | 0x25 => .ok (.fmax (fld w 18 7) (fld w 11 7) (fld w 4 7) (fld w 3 1) (fld w 2 1) (fld w 0 2))
  | 0x26 => dec26 w
  | 0x27 => .ok (.fscale (fld w 18 7) (fld w 11 7) (fld w 4 7) (fld w 3 1) (fld w 2 1) (fld w 0 2))
  | 0x28 => .ok (.hadd2F16 (fld w 18 7) (fld w 11 7) (fld w 4 7) (fld w 3 1) (fld w 2 1) (fld w 0 2))
  | 0x29 => .ok (.hmul2F16 (fld w 18 7) (fld w 11 7) (fld w 4 7) (fld w 3 1) (fld w 2 1) (fld w 0 2))
  | 0x2a => .ok (.hmac2F16 (fld w 18 7) (fld w 11 7) (fld w 4 7) (fld w 3 1) (fld w 2 1) (fld w 0 2))
  | 0x2b => .ok (.hmin2F16 (fld w 18 7) (fld w 11 7) (fld w 4 7) (fld w 3 1) (fld w 2 1) (fld w 0 2))
  | 0x2c => .ok (.hmax2F16 (fld w 18 7) (fld w 11 7) (fld w 4 7) (fld w 3 1) (fld w 2 1) (fld w 0 2))
  | 0x2d => .ok (.hadd2Bf16 (fld w 18 7) (fld w 11 7) (fld w 4 7) (fld w 3 1) (fld w 2 1) (fld w 0 2))
  | 0x2e => .ok (.hmul2Bf16 (fld w 18 7) (fld w 11 7) (fld w 4 7) (fld w 3 1) (fld w 2 1) (fld w 0 2))
  | 0x2f => .ok (.hmac2Bf16 (fld w 18 7) (fld w 11 7) (fld w 4 7) (fld w 3 1) (fld w 2 1) (fld w 0 2))
  | 0x30 => dec30 w
  | 0x31 => dec31 w
  | 0x32 => .ok (.cvtpF16 (fld w 18 7) (fld w 11 7) (fld w 4 7) (fld w 3 1) (fld w 2 1) (fld w 0 2))
  | 0x33 => .ok (.cvtq (fld w 18 7) (fld w 11 7) (fld w 4 7) (fld w 3 1) (fld w 2 1) (fld w 0 2))
  | 0x34 => .ok (.cvtpBf16 (fld w 18 7) (fld w 11 7) (fld w 4 7) (fld w 3 1) (fld w 2 1) (fld w 0 2))
  | 0x35 => if fld w 2 1 = 0#1 then .ok (.cvtx (fld w 18 7) (fld w 11 7) (fld w 4 7) (fld w 3 1) (fld w 0 2)) else .error .zeroField
  | 0x36 => .ok (.icmpI (fld w 18 7) (fld w 11 7) (fld w 4 7) (fld w 0 4))
  | 0x37 => .ok (.icmpN (fld w 18 7) (fld w 11 7) (fld w 4 7) (fld w 0 4))
  | 0x38 => .ok (.fcmp (fld w 18 7) (fld w 11 7) (fld w 4 7) (fld w 0 4))
  | 0x39 => .ok (.hcmp2 (fld w 18 7) (fld w 11 7) (fld w 4 7) (fld w 0 4))
  | 0x3a => .ok (.plog (fld w 18 7) (fld w 11 7) (fld w 4 7) (fld w 0 4))
  | 0x3b => dec3B w
  | 0x3c => dec3C w
  | 0x3d => .ok (.shflIdx (fld w 18 7) (fld w 11 7) (fld w 4 7) (fld w 3 1) (fld w 2 1) (fld w 0 2))
  | 0x3e => .ok (.shflXor (fld w 18 7) (fld w 11 7) (fld w 4 7) (fld w 3 1) (fld w 2 1) (fld w 0 2))
  | 0x3f => .ok (.shflXw (fld w 18 7) (fld w 11 7) (fld w 4 7) (fld w 3 1) (fld w 2 1) (fld w 0 2))
  | 0x40 => if fld w 2 1 = 0#1 then .ok (.reduce (fld w 18 7) (fld w 11 7) (fld w 4 7) (fld w 3 1) (fld w 0 2)) else .error .zeroField
  | 0x41 => if fld w 2 1 = 0#1 then .ok (.scan (fld w 18 7) (fld w 11 7) (fld w 4 7) (fld w 3 1) (fld w 0 2)) else .error .zeroField
  | 0x42 => .ok (.bra (fld w 0 25))
  | 0x43 => .ok (.brp (fld w 18 7) (fld w 17 1) (fld w 0 17))
  | 0x44 => .ok (.call (fld w 0 25))
  | 0x45 => if fld w 18 7 = 0#7 ∧ fld w 4 7 = 0#7 ∧ fld w 2 1 = 0#1 then
      (if fld w 11 7 = 127#7 then .ok (.ret (fld w 3 1) (fld w 0 2)) else .ok (.jmpi (fld w 11 7) (fld w 3 1) (fld w 0 2))) else .error .zeroField
  | 0x46 => if fld w 0 25 = 0#25 then .ok .exit else .error .zeroField
  | 0x47 => if fld w 0 25 = 0#25 then .ok .wsync else .error .zeroField
  | 0x48 => dec48 w
  | 0x49 => dec49 w
  | 0x4a => .ok (.ld (fld w 18 7) (fld w 11 7) (fld w 7 4) (fld w 5 2) (fld w 2 3) (fld w 0 2))
  | 0x4b => .ok (.st (fld w 18 7) (fld w 11 7) (fld w 7 4) (fld w 5 2) (fld w 2 3) (fld w 0 2))
  | 0x4c => .ok (.lds (fld w 18 7) (fld w 11 7) (fld w 7 4) (fld w 5 2) (fld w 2 3) (fld w 0 2))
  | 0x4d => .ok (.sts (fld w 18 7) (fld w 11 7) (fld w 7 4) (fld w 5 2) (fld w 2 3) (fld w 0 2))
  | 0x4e => .ok (.ldfe (fld w 18 7) (fld w 11 7) (fld w 7 4) (fld w 5 2) (fld w 2 3) (fld w 0 2))
  | 0x4f => if fld w 4 1 = 0#1 then .ok (.stfe (fld w 18 7) (fld w 11 7) (fld w 7 4) (fld w 5 2) (fld w 2 2) (fld w 0 2)) else .error .zeroField
  | 0x50 => .ok (.atom (fld w 18 7) (fld w 11 7) (fld w 7 4) (fld w 5 2) (fld w 1 4) (fld w 0 1))
  | 0x51 => .ok (.red (fld w 18 7) (fld w 11 7) (fld w 7 4) (fld w 5 2) (fld w 1 4) (fld w 0 1))
  | 0x52 => .ok (.atoms (fld w 18 7) (fld w 11 7) (fld w 7 4) (fld w 5 2) (fld w 1 4) (fld w 0 1))
  | 0x53 => .ok (.cstore (fld w 18 7) (fld w 11 7) (fld w 7 4) (fld w 5 2) (fld w 2 3) (fld w 0 2))
  | 0x54 => if fld w 5 20 = 0#20 then .ok (.fence (fld w 3 2) (fld w 0 3)) else .error .zeroField
  | 0x55 => if fld w 4 21 = 0#21 then .ok (.xfence (fld w 3 1) (fld w 0 3)) else .error .zeroField
  | 0x56 => dec56 w
  | 0x57 => if fld w 5 2 = 0#2 then .ok (.pref (fld w 18 7) (fld w 11 7) (fld w 7 4) (fld w 2 3) (fld w 0 2)) else .error .zeroField
  | 0x58 => .ok (.est (fld w 18 7) (fld w 11 7) (fld w 0 11))
  | 0x59 => .ok (.eld (fld w 18 7) (fld w 11 7) (fld w 0 11))
  | 0x5a => dec5A w
  | 0x5b => if fld w 4 7 = 0#7 then .ok (.qpush (fld w 18 7) (fld w 11 7) (fld w 0 4)) else .error .zeroField
  | 0x5c => if fld w 18 7 = 0#7 ∧ fld w 4 7 = 0#7 then .ok (.rwait (fld w 11 7) (fld w 0 4)) else .error .zeroField
  | 0x5d => if fld w 18 7 = 0#7 ∧ fld w 4 7 = 0#7 then .ok (.rrel (fld w 11 7) (fld w 0 4)) else .error .zeroField
  | 0x5e => if fld w 4 7 = 0#7 then .ok (.launch (fld w 18 7) (fld w 11 7) (fld w 0 4)) else .error .zeroField
  | 0x5f => dec5F w
  | 0x60 => dec60 w
  | 0x61 => .ok (.cont (fld w 18 7) (fld w 0 18))
  | 0x62 => if fld w 4 7 = 0#7 then .ok (.trav (fld w 18 7) (fld w 11 7) (fld w 0 4)) else .error .zeroField
  | 0x63 => dec63 w
  | 0x64 => .ok (.mma (fld w 18 7) (fld w 11 7) (fld w 6 5) (fld w 1 5) (fld w 0 1))
  | 0x65 => dec65 w
  | 0x66 => if fld w 23 2 = 0#2 ∧ fld w 5 2 = 0#2 then .ok (.mld (fld w 18 5) (fld w 11 7) (fld w 7 4) (fld w 2 3) (fld w 0 2)) else .error .zeroField
  | 0x67 => if fld w 18 7 = 0#7 ∧ fld w 0 11 = 0#11 then .ok (.msets (fld w 11 7)) else .error .zeroField
  | 0x68 => .ok (.hadq (fld w 18 7) (fld w 11 7) (fld w 4 7) (fld w 3 1) (fld w 2 1) (fld w 0 2))
  | 0x69 => if fld w 18 7 = 0#7 ∧ fld w 2 5 = 0#5 then .ok (.mcbt (fld w 11 7) (fld w 7 4) (fld w 0 2)) else .error .zeroField
  | 0x6a => .ok (.march (fld w 18 7) (fld w 11 7) (fld w 4 7) (fld w 3 1) (fld w 2 1) (fld w 0 2))
  | 0x6b => .ok (.hgrid (fld w 18 7) (fld w 11 7) (fld w 4 7) (fld w 3 1) (fld w 2 1) (fld w 0 2))
  | 0x6c => dec6C w
  | 0x6d => dec6D w
  | 0x6e => if fld w 11 7 = 0#7 then .ok (.srd (fld w 18 7) (fld w 0 11)) else .error .zeroField
  | 0x6f => if fld w 18 7 = 0#7 then .ok (.swr (fld w 11 7) (fld w 0 11)) else .error .zeroField
  | 0x70 => dec70 w
  | 0x71 => if fld w 0 25 = 0#25 then .ok .bkpt else .error .zeroField
  | 0x72 => if fld w 0 25 = 0#25 then .ok .rft else .error .zeroField
  | 0x73 => dec73 w
  | 0x74 => if fld w 18 7 = 0#7 then .ok (.ipref (fld w 11 7) (fld w 0 11)) else .error .zeroField
  | 0x75 => dec75 w
  | 0x76 => .ok (.hmin2Bf16 (fld w 18 7) (fld w 11 7) (fld w 4 7) (fld w 3 1) (fld w 2 1) (fld w 0 2))
  | 0x77 => .ok (.hmax2Bf16 (fld w 18 7) (fld w 11 7) (fld w 4 7) (fld w 3 1) (fld w 2 1) (fld w 0 2))
  | 0x78 => .error .illegalMajor
  | 0x79 => .error .illegalMajor
  | 0x7a => .error .illegalMajor
  | 0x7b => if fld w 2 23 = 0#23 then .ok (.sched (fld w 0 2)) else .error .hintPayload
  | 0x7c => .ok (.ximm (fld w 0 25))
  | 0x7d => if fld w 20 3 = 0#3 then .ok (.xsrc (fld w 23 2) (fld w 0 20)) else .error .hintPayload
  | 0x7e => if fld w 19 6 = 0#6 then .ok (.xmod (fld w 18 1) (fld w 17 1) (fld w 16 1) (fld w 13 3) (fld w 11 2) (fld w 9 2) (fld w 4 5) (fld w 3 1) (fld w 0 3)) else .error .hintPayload
  | 0x7f => if fld w 0 17 = 0#17 then .ok (.pred (fld w 18 7) (fld w 17 1)) else .error .hintPayload
  | _ => .error .illegalMajor

/-- The fields of a word (R277): bits [31:25] hold the major opcode. -/
def decodeRaw (w : BitVec 32) : Except DecodeError Instr := decodeMajor (fld w 25 7).toNat w

/-- One instruction word (R266, R288): its fields, then the values they may hold. -/
def decode (w : BitVec 32) : Except DecodeError Instr :=
  match decodeRaw w with
  | .ok i => if i.wf then .ok i else if 0x7B ≤ (fld w 25 7).toNat then .error .hintPayload else .error .fieldValue
  | .error e => .error e

/-- The word of four bytes, little-endian (R266). -/
def wordOfBytes (b0 b1 b2 b3 : BitVec 8) : BitVec 32 := b3 ++ b2 ++ b1 ++ b0

/-- An instruction read from bytes, and the bytes after it (R266): every instruction is one word. -/
def decodeBytes : List (BitVec 8) → Except DecodeError (Instr × List (BitVec 8))
  | b0 :: b1 :: b2 :: b3 :: rest =>
    match decode (wordOfBytes b0 b1 b2 b3) with
    | .ok i => .ok (i, rest)
    | .error e => .error e
  | _ => .error .short

/-- The bytes of a word as memory holds it, lowest address first (R266). -/
def bytesOfWord (w : BitVec 32) : List (BitVec 8) :=
  [w.extractLsb' 0 8, w.extractLsb' 8 8, w.extractLsb' 16 8, w.extractLsb' 24 8]

/-- What the decoder reads from an instruction whose bits are w, as spec/opcode_table.json numbers them: the words lie
little-endian at the lowest address first, and every bit above nbits is 0. Rows without an encoding have nbits 0. -/
def decodeTableWord (nbits w : Nat) : Option Instr :=
  match decodeBytes (bytesOfWord (BitVec.ofNat 32 (w % 2 ^ nbits))) with
  | .ok (i, _) => some i
  | .error _ => none

/-- The word of an instruction (R267, R277 to R287): the opcode and the function code, then each field at its place (R289); an event of the device has no word and gives the all-zero word,
which is no instruction. -/
def encode : Instr → BitVec 32
  | .iadd d a b e f g => BitVec.ofNat 32 (0x02000000 + d.toNat * 0x40000 + a.toNat * 0x800 + b.toNat * 0x10 + e.toNat * 0x8 + f.toNat * 0x4 + g.toNat)
  | .isub d a b e f g => BitVec.ofNat 32 (0x04000000 + d.toNat * 0x40000 + a.toNat * 0x800 + b.toNat * 0x10 + e.toNat * 0x8 + f.toNat * 0x4 + g.toNat)
  | .imul d a b e f g => BitVec.ofNat 32 (0x06000000 + d.toNat * 0x40000 + a.toNat * 0x800 + b.toNat * 0x10 + e.toNat * 0x8 + f.toNat * 0x4 + g.toNat)
  | .imulhI d a b e f g => BitVec.ofNat 32 (0x08000000 + d.toNat * 0x40000 + a.toNat * 0x800 + b.toNat * 0x10 + e.toNat * 0x8 + f.toNat * 0x4 + g.toNat)
  | .imulhN d a b e f g => BitVec.ofNat 32 (0x0a000000 + d.toNat * 0x40000 + a.toNat * 0x800 + b.toNat * 0x10 + e.toNat * 0x8 + f.toNat * 0x4 + g.toNat)
  | .iminI d a b e f g => BitVec.ofNat 32 (0x0c000000 + d.toNat * 0x40000 + a.toNat * 0x800 + b.toNat * 0x10 + e.toNat * 0x8 + f.toNat * 0x4 + g.toNat)
  | .imaxI d a b e f g => BitVec.ofNat 32 (0x0e000000 + d.toNat * 0x40000 + a.toNat * 0x800 + b.toNat * 0x10 + e.toNat * 0x8 + f.toNat * 0x4 + g.toNat)
  | .iminN d a b e f g => BitVec.ofNat 32 (0x10000000 + d.toNat * 0x40000 + a.toNat * 0x800 + b.toNat * 0x10 + e.toNat * 0x8 + f.toNat * 0x4 + g.toNat)
  | .imaxN d a b e f g => BitVec.ofNat 32 (0x12000000 + d.toNat * 0x40000 + a.toNat * 0x800 + b.toNat * 0x10 + e.toNat * 0x8 + f.toNat * 0x4 + g.toNat)
  | .and d a b e f g => BitVec.ofNat 32 (0x14000000 + d.toNat * 0x40000 + a.toNat * 0x800 + b.toNat * 0x10 + e.toNat * 0x8 + f.toNat * 0x4 + g.toNat)
  | .or d a b e f g => BitVec.ofNat 32 (0x16000000 + d.toNat * 0x40000 + a.toNat * 0x800 + b.toNat * 0x10 + e.toNat * 0x8 + f.toNat * 0x4 + g.toNat)
  | .xor d a b e f g => BitVec.ofNat 32 (0x18000000 + d.toNat * 0x40000 + a.toNat * 0x800 + b.toNat * 0x10 + e.toNat * 0x8 + f.toNat * 0x4 + g.toNat)
  | .shl d a b e f g => BitVec.ofNat 32 (0x1a000000 + d.toNat * 0x40000 + a.toNat * 0x800 + b.toNat * 0x10 + e.toNat * 0x8 + f.toNat * 0x4 + g.toNat)
  | .shrN d a b e f g => BitVec.ofNat 32 (0x1c000000 + d.toNat * 0x40000 + a.toNat * 0x800 + b.toNat * 0x10 + e.toNat * 0x8 + f.toNat * 0x4 + g.toNat)
  | .shrI d a b e f g => BitVec.ofNat 32 (0x1e000000 + d.toNat * 0x40000 + a.toNat * 0x800 + b.toNat * 0x10 + e.toNat * 0x8 + f.toNat * 0x4 + g.toNat)
  | .rotl d a b e f g => BitVec.ofNat 32 (0x20000000 + d.toNat * 0x40000 + a.toNat * 0x800 + b.toNat * 0x10 + e.toNat * 0x8 + f.toNat * 0x4 + g.toNat)
  | .imac d a b e f g => BitVec.ofNat 32 (0x22000000 + d.toNat * 0x40000 + a.toNat * 0x800 + b.toNat * 0x10 + e.toNat * 0x8 + f.toNat * 0x4 + g.toNat)
  | .iaddi d a e i => BitVec.ofNat 32 (0x24000000 + d.toNat * 0x40000 + a.toNat * 0x800 + e.toNat * 0x400 + i.toNat)
  | .imuli d a e i => BitVec.ofNat 32 (0x26000000 + d.toNat * 0x40000 + a.toNat * 0x800 + e.toNat * 0x400 + i.toNat)
  | .andi d a e i => BitVec.ofNat 32 (0x28000000 + d.toNat * 0x40000 + a.toNat * 0x800 + e.toNat * 0x400 + i.toNat)
  | .ori d a e i => BitVec.ofNat 32 (0x2a000000 + d.toNat * 0x40000 + a.toNat * 0x800 + e.toNat * 0x400 + i.toNat)
  | .xori d a e i => BitVec.ofNat 32 (0x2c000000 + d.toNat * 0x40000 + a.toNat * 0x800 + e.toNat * 0x400 + i.toNat)
  | .shli d a e i => BitVec.ofNat 32 (0x2e000000 + d.toNat * 0x40000 + a.toNat * 0x800 + e.toNat * 0x400 + i.toNat)
  | .shriN d a e i => BitVec.ofNat 32 (0x30000000 + d.toNat * 0x40000 + a.toNat * 0x800 + e.toNat * 0x400 + i.toNat)
  | .shriI d a e i => BitVec.ofNat 32 (0x32000000 + d.toNat * 0x40000 + a.toNat * 0x800 + e.toNat * 0x400 + i.toNat)
  | .movi d i => BitVec.ofNat 32 (0x34000000 + d.toNat * 0x40000 + i.toNat)
  | .mov d a e g => BitVec.ofNat 32 (0x36000000 + d.toNat * 0x40000 + a.toNat * 0x800 + e.toNat * 0x8 + g.toNat)
  | .ineg d a e g => BitVec.ofNat 32 (0x36000010 + d.toNat * 0x40000 + a.toNat * 0x800 + e.toNat * 0x8 + g.toNat)
  | .iabs d a e g => BitVec.ofNat 32 (0x36000020 + d.toNat * 0x40000 + a.toNat * 0x800 + e.toNat * 0x8 + g.toNat)
  | .not d a e g => BitVec.ofNat 32 (0x36000030 + d.toNat * 0x40000 + a.toNat * 0x800 + e.toNat * 0x8 + g.toNat)
  | .popc d a e g => BitVec.ofNat 32 (0x36000040 + d.toNat * 0x40000 + a.toNat * 0x800 + e.toNat * 0x8 + g.toNat)
  | .clz d a e g => BitVec.ofNat 32 (0x36000050 + d.toNat * 0x40000 + a.toNat * 0x800 + e.toNat * 0x8 + g.toNat)
  | .ctz d a e g => BitVec.ofNat 32 (0x36000060 + d.toNat * 0x40000 + a.toNat * 0x800 + e.toNat * 0x8 + g.toNat)
  | .brev d a e g => BitVec.ofNat 32 (0x36000070 + d.toNat * 0x40000 + a.toNat * 0x800 + e.toNat * 0x8 + g.toNat)
  | .bswap d a e g => BitVec.ofNat 32 (0x36000080 + d.toNat * 0x40000 + a.toNat * 0x800 + e.toNat * 0x8 + g.toNat)
  | .sext8 d a e g => BitVec.ofNat 32 (0x36000090 + d.toNat * 0x40000 + a.toNat * 0x800 + e.toNat * 0x8 + g.toNat)
  | .sext16 d a e g => BitVec.ofNat 32 (0x360000a0 + d.toNat * 0x40000 + a.toNat * 0x800 + e.toNat * 0x8 + g.toNat)
  | .zext8 d a e g => BitVec.ofNat 32 (0x360000b0 + d.toNat * 0x40000 + a.toNat * 0x800 + e.toNat * 0x8 + g.toNat)
  | .zext16 d a e g => BitVec.ofNat 32 (0x360000c0 + d.toNat * 0x40000 + a.toNat * 0x800 + e.toNat * 0x8 + g.toNat)
  | .bfe d a b e f g => BitVec.ofNat 32 (0x38000000 + d.toNat * 0x40000 + a.toNat * 0x800 + b.toNat * 0x10 + e.toNat * 0x8 + f.toNat * 0x4 + g.toNat)
  | .bfi d a b e f g => BitVec.ofNat 32 (0x3a000000 + d.toNat * 0x40000 + a.toNat * 0x800 + b.toNat * 0x10 + e.toNat * 0x8 + f.toNat * 0x4 + g.toNat)
  | .prmt d a b e f g => BitVec.ofNat 32 (0x3c000000 + d.toNat * 0x40000 + a.toNat * 0x800 + b.toNat * 0x10 + e.toNat * 0x8 + f.toNat * 0x4 + g.toNat)
  | .sel d a b e f g => BitVec.ofNat 32 (0x3e000000 + d.toNat * 0x40000 + a.toNat * 0x800 + b.toNat * 0x10 + e.toNat * 0x8 + f.toNat * 0x4 + g.toNat)
  | .fadd d a b e f g => BitVec.ofNat 32 (0x40000000 + d.toNat * 0x40000 + a.toNat * 0x800 + b.toNat * 0x10 + e.toNat * 0x8 + f.toNat * 0x4 + g.toNat)
  | .fsub d a b e f g => BitVec.ofNat 32 (0x42000000 + d.toNat * 0x40000 + a.toNat * 0x800 + b.toNat * 0x10 + e.toNat * 0x8 + f.toNat * 0x4 + g.toNat)
  | .fmul d a b e f g => BitVec.ofNat 32 (0x44000000 + d.toNat * 0x40000 + a.toNat * 0x800 + b.toNat * 0x10 + e.toNat * 0x8 + f.toNat * 0x4 + g.toNat)
  | .fmac d a b e f g => BitVec.ofNat 32 (0x46000000 + d.toNat * 0x40000 + a.toNat * 0x800 + b.toNat * 0x10 + e.toNat * 0x8 + f.toNat * 0x4 + g.toNat)
  | .fmin d a b e f g => BitVec.ofNat 32 (0x48000000 + d.toNat * 0x40000 + a.toNat * 0x800 + b.toNat * 0x10 + e.toNat * 0x8 + f.toNat * 0x4 + g.toNat)
  | .fmax d a b e f g => BitVec.ofNat 32 (0x4a000000 + d.toNat * 0x40000 + a.toNat * 0x800 + b.toNat * 0x10 + e.toNat * 0x8 + f.toNat * 0x4 + g.toNat)
  | .fneg d a e g => BitVec.ofNat 32 (0x4c000000 + d.toNat * 0x40000 + a.toNat * 0x800 + e.toNat * 0x8 + g.toNat)
  | .fabs d a e g => BitVec.ofNat 32 (0x4c000010 + d.toNat * 0x40000 + a.toNat * 0x800 + e.toNat * 0x8 + g.toNat)
  | .frndn d a e g => BitVec.ofNat 32 (0x4c000020 + d.toNat * 0x40000 + a.toNat * 0x800 + e.toNat * 0x8 + g.toNat)
  | .frndz d a e g => BitVec.ofNat 32 (0x4c000030 + d.toNat * 0x40000 + a.toNat * 0x800 + e.toNat * 0x8 + g.toNat)
  | .frndd d a e g => BitVec.ofNat 32 (0x4c000040 + d.toNat * 0x40000 + a.toNat * 0x800 + e.toNat * 0x8 + g.toNat)
  | .frndu d a e g => BitVec.ofNat 32 (0x4c000050 + d.toNat * 0x40000 + a.toNat * 0x800 + e.toNat * 0x8 + g.toNat)
  | .ffrac d a e g => BitVec.ofNat 32 (0x4c000060 + d.toNat * 0x40000 + a.toNat * 0x800 + e.toNat * 0x8 + g.toNat)
  | .fclass d a e g => BitVec.ofNat 32 (0x4c000070 + d.toNat * 0x40000 + a.toNat * 0x800 + e.toNat * 0x8 + g.toNat)
  | .fsat d a e g => BitVec.ofNat 32 (0x4c000080 + d.toNat * 0x40000 + a.toNat * 0x800 + e.toNat * 0x8 + g.toNat)
  | .fscale d a b e f g => BitVec.ofNat 32 (0x4e000000 + d.toNat * 0x40000 + a.toNat * 0x800 + b.toNat * 0x10 + e.toNat * 0x8 + f.toNat * 0x4 + g.toNat)
  | .hadd2F16 d a b e f g => BitVec.ofNat 32 (0x50000000 + d.toNat * 0x40000 + a.toNat * 0x800 + b.toNat * 0x10 + e.toNat * 0x8 + f.toNat * 0x4 + g.toNat)
  | .hmul2F16 d a b e f g => BitVec.ofNat 32 (0x52000000 + d.toNat * 0x40000 + a.toNat * 0x800 + b.toNat * 0x10 + e.toNat * 0x8 + f.toNat * 0x4 + g.toNat)
  | .hmac2F16 d a b e f g => BitVec.ofNat 32 (0x54000000 + d.toNat * 0x40000 + a.toNat * 0x800 + b.toNat * 0x10 + e.toNat * 0x8 + f.toNat * 0x4 + g.toNat)
  | .hmin2F16 d a b e f g => BitVec.ofNat 32 (0x56000000 + d.toNat * 0x40000 + a.toNat * 0x800 + b.toNat * 0x10 + e.toNat * 0x8 + f.toNat * 0x4 + g.toNat)
  | .hmax2F16 d a b e f g => BitVec.ofNat 32 (0x58000000 + d.toNat * 0x40000 + a.toNat * 0x800 + b.toNat * 0x10 + e.toNat * 0x8 + f.toNat * 0x4 + g.toNat)
  | .hadd2Bf16 d a b e f g => BitVec.ofNat 32 (0x5a000000 + d.toNat * 0x40000 + a.toNat * 0x800 + b.toNat * 0x10 + e.toNat * 0x8 + f.toNat * 0x4 + g.toNat)
  | .hmul2Bf16 d a b e f g => BitVec.ofNat 32 (0x5c000000 + d.toNat * 0x40000 + a.toNat * 0x800 + b.toNat * 0x10 + e.toNat * 0x8 + f.toNat * 0x4 + g.toNat)
  | .hmac2Bf16 d a b e f g => BitVec.ofNat 32 (0x5e000000 + d.toNat * 0x40000 + a.toNat * 0x800 + b.toNat * 0x10 + e.toNat * 0x8 + f.toNat * 0x4 + g.toNat)
  | .hmin2Bf16 d a b e f g => BitVec.ofNat 32 (0xec000000 + d.toNat * 0x40000 + a.toNat * 0x800 + b.toNat * 0x10 + e.toNat * 0x8 + f.toNat * 0x4 + g.toNat)
  | .hmax2Bf16 d a b e f g => BitVec.ofNat 32 (0xee000000 + d.toNat * 0x40000 + a.toNat * 0x800 + b.toNat * 0x10 + e.toNat * 0x8 + f.toNat * 0x4 + g.toNat)
  | .rcp d a e g => BitVec.ofNat 32 (0x60000000 + d.toNat * 0x40000 + a.toNat * 0x800 + e.toNat * 0x8 + g.toNat)
  | .rsq d a e g => BitVec.ofNat 32 (0x60000010 + d.toNat * 0x40000 + a.toNat * 0x800 + e.toNat * 0x8 + g.toNat)
  | .sqrt d a e g => BitVec.ofNat 32 (0x60000020 + d.toNat * 0x40000 + a.toNat * 0x800 + e.toNat * 0x8 + g.toNat)
  | .exp2 d a e g => BitVec.ofNat 32 (0x60000030 + d.toNat * 0x40000 + a.toNat * 0x800 + e.toNat * 0x8 + g.toNat)
  | .log2 d a e g => BitVec.ofNat 32 (0x60000040 + d.toNat * 0x40000 + a.toNat * 0x800 + e.toNat * 0x8 + g.toNat)
  | .sint d a e g => BitVec.ofNat 32 (0x60000050 + d.toNat * 0x40000 + a.toNat * 0x800 + e.toNat * 0x8 + g.toNat)
  | .cost d a e g => BitVec.ofNat 32 (0x60000060 + d.toNat * 0x40000 + a.toNat * 0x800 + e.toNat * 0x8 + g.toNat)
  | .tanh d a e g => BitVec.ofNat 32 (0x60000070 + d.toNat * 0x40000 + a.toNat * 0x800 + e.toNat * 0x8 + g.toNat)
  | .rcph2 d a e g => BitVec.ofNat 32 (0x60000080 + d.toNat * 0x40000 + a.toNat * 0x800 + e.toNat * 0x8 + g.toNat)
  | .exph2 d a e g => BitVec.ofNat 32 (0x60000090 + d.toNat * 0x40000 + a.toNat * 0x800 + e.toNat * 0x8 + g.toNat)
  | .i2f d a e g => BitVec.ofNat 32 (0x62000000 + d.toNat * 0x40000 + a.toNat * 0x800 + e.toNat * 0x8 + g.toNat)
  | .n2f d a e g => BitVec.ofNat 32 (0x62000010 + d.toNat * 0x40000 + a.toNat * 0x800 + e.toNat * 0x8 + g.toNat)
  | .f2in d a e g => BitVec.ofNat 32 (0x62000020 + d.toNat * 0x40000 + a.toNat * 0x800 + e.toNat * 0x8 + g.toNat)
  | .f2iz d a e g => BitVec.ofNat 32 (0x62000030 + d.toNat * 0x40000 + a.toNat * 0x800 + e.toNat * 0x8 + g.toNat)
  | .f2id d a e g => BitVec.ofNat 32 (0x62000040 + d.toNat * 0x40000 + a.toNat * 0x800 + e.toNat * 0x8 + g.toNat)
  | .f2iu d a e g => BitVec.ofNat 32 (0x62000050 + d.toNat * 0x40000 + a.toNat * 0x800 + e.toNat * 0x8 + g.toNat)
  | .f2nn d a e g => BitVec.ofNat 32 (0x62000060 + d.toNat * 0x40000 + a.toNat * 0x800 + e.toNat * 0x8 + g.toNat)
  | .f2nz d a e g => BitVec.ofNat 32 (0x62000070 + d.toNat * 0x40000 + a.toNat * 0x800 + e.toNat * 0x8 + g.toNat)
  | .h2fl d a e g => BitVec.ofNat 32 (0x62000080 + d.toNat * 0x40000 + a.toNat * 0x800 + e.toNat * 0x8 + g.toNat)
  | .h2fh d a e g => BitVec.ofNat 32 (0x62000090 + d.toNat * 0x40000 + a.toNat * 0x800 + e.toNat * 0x8 + g.toNat)
  | .b2fl d a e g => BitVec.ofNat 32 (0x620000a0 + d.toNat * 0x40000 + a.toNat * 0x800 + e.toNat * 0x8 + g.toNat)
  | .b2fh d a e g => BitVec.ofNat 32 (0x620000b0 + d.toNat * 0x40000 + a.toNat * 0x800 + e.toNat * 0x8 + g.toNat)
  | .f2h d a e g => BitVec.ofNat 32 (0x620000c0 + d.toNat * 0x40000 + a.toNat * 0x800 + e.toNat * 0x8 + g.toNat)
  | .f2b d a e g => BitVec.ofNat 32 (0x620000d0 + d.toNat * 0x40000 + a.toNat * 0x800 + e.toNat * 0x8 + g.toNat)
  | .cvtpF16 d a b e f g => BitVec.ofNat 32 (0x64000000 + d.toNat * 0x40000 + a.toNat * 0x800 + b.toNat * 0x10 + e.toNat * 0x8 + f.toNat * 0x4 + g.toNat)
  | .cvtpBf16 d a b e f g => BitVec.ofNat 32 (0x68000000 + d.toNat * 0x40000 + a.toNat * 0x800 + b.toNat * 0x10 + e.toNat * 0x8 + f.toNat * 0x4 + g.toNat)
  | .cvtq d a b e f g => BitVec.ofNat 32 (0x66000000 + d.toNat * 0x40000 + a.toNat * 0x800 + b.toNat * 0x10 + e.toNat * 0x8 + f.toNat * 0x4 + g.toNat)
  | .cvtx d a c e g => BitVec.ofNat 32 (0x6a000000 + d.toNat * 0x40000 + a.toNat * 0x800 + c.toNat * 0x10 + e.toNat * 0x8 + g.toNat)
  | .icmpI p a b c => BitVec.ofNat 32 (0x6c000000 + p.toNat * 0x40000 + a.toNat * 0x800 + b.toNat * 0x10 + c.toNat)
  | .icmpN p a b c => BitVec.ofNat 32 (0x6e000000 + p.toNat * 0x40000 + a.toNat * 0x800 + b.toNat * 0x10 + c.toNat)
  | .fcmp p a b c => BitVec.ofNat 32 (0x70000000 + p.toNat * 0x40000 + a.toNat * 0x800 + b.toNat * 0x10 + c.toNat)
  | .hcmp2 p a b c => BitVec.ofNat 32 (0x72000000 + p.toNat * 0x40000 + a.toNat * 0x800 + b.toNat * 0x10 + c.toNat)
  | .plog d a b t => BitVec.ofNat 32 (0x74000000 + d.toNat * 0x40000 + a.toNat * 0x800 + b.toNat * 0x10 + t.toNat)
  | .v2p d a e g => BitVec.ofNat 32 (0x76000000 + d.toNat * 0x40000 + a.toNat * 0x800 + e.toNat * 0x8 + g.toNat)
  | .p2v d a e g => BitVec.ofNat 32 (0x76000010 + d.toNat * 0x40000 + a.toNat * 0x800 + e.toNat * 0x8 + g.toNat)
  | .prd d g => BitVec.ofNat 32 (0x76000020 + d.toNat * 0x40000 + g.toNat)
  | .pwr a e g => BitVec.ofNat 32 (0x76000030 + a.toNat * 0x800 + e.toNat * 0x8 + g.toNat)
  | .all d a e g => BitVec.ofNat 32 (0x78000000 + d.toNat * 0x40000 + a.toNat * 0x800 + e.toNat * 0x8 + g.toNat)
  | .any d a e g => BitVec.ofNat 32 (0x78000010 + d.toNat * 0x40000 + a.toNat * 0x800 + e.toNat * 0x8 + g.toNat)
  | .ballot d a e g => BitVec.ofNat 32 (0x78000020 + d.toNat * 0x40000 + a.toNat * 0x800 + e.toNat * 0x8 + g.toNat)
  | .matchLanes d a e g => BitVec.ofNat 32 (0x78000030 + d.toNat * 0x40000 + a.toNat * 0x800 + e.toNat * 0x8 + g.toNat)
  | .lcount d g => BitVec.ofNat 32 (0x78000040 + d.toNat * 0x40000 + g.toNat)
  | .shflIdx d a b e f g => BitVec.ofNat 32 (0x7a000000 + d.toNat * 0x40000 + a.toNat * 0x800 + b.toNat * 0x10 + e.toNat * 0x8 + f.toNat * 0x4 + g.toNat)
  | .shflXor d a b e f g => BitVec.ofNat 32 (0x7c000000 + d.toNat * 0x40000 + a.toNat * 0x800 + b.toNat * 0x10 + e.toNat * 0x8 + f.toNat * 0x4 + g.toNat)
  | .shflXw d a b e f g => BitVec.ofNat 32 (0x7e000000 + d.toNat * 0x40000 + a.toNat * 0x800 + b.toNat * 0x10 + e.toNat * 0x8 + f.toNat * 0x4 + g.toNat)
  | .reduce d a c e g => BitVec.ofNat 32 (0x80000000 + d.toNat * 0x40000 + a.toNat * 0x800 + c.toNat * 0x10 + e.toNat * 0x8 + g.toNat)
  | .scan d a c e g => BitVec.ofNat 32 (0x82000000 + d.toNat * 0x40000 + a.toNat * 0x800 + c.toNat * 0x10 + e.toNat * 0x8 + g.toNat)
  | .bra s => BitVec.ofNat 32 (0x84000000 + s.toNat)
  | .brp p n s => BitVec.ofNat 32 (0x86000000 + p.toNat * 0x40000 + n.toNat * 0x20000 + s.toNat)
  | .call s => BitVec.ofNat 32 (0x88000000 + s.toNat)
  | .jmpi a e g => BitVec.ofNat 32 (0x8a000000 + a.toNat * 0x800 + e.toNat * 0x8 + g.toNat)
  | .ret e g => BitVec.ofNat 32 (0x8a03f800 + e.toNat * 0x8 + g.toNat)
  | .exit => BitVec.ofNat 32 (0x8c000000)
  | .wsync => BitVec.ofNat 32 (0x8e000000)
  | .barSync b => BitVec.ofNat 32 (0x90000000 + b.toNat)
  | .barArrive b => BitVec.ofNat 32 (0x90000200 + b.toNat)
  | .barWait b => BitVec.ofNat 32 (0x90000400 + b.toNat)
  | .barCsync => BitVec.ofNat 32 (0x90000600)
  | .nop => BitVec.ofNat 32 (0x92000000)
  | .yield => BitVec.ofNat 32 (0x92000001)
  | .sleep a => BitVec.ofNat 32 (0x92000002 + a.toNat * 0x800)
  | .ld t a r o s g => BitVec.ofNat 32 (0x94000000 + t.toNat * 0x40000 + a.toNat * 0x800 + r.toNat * 0x80 + o.toNat * 0x20 + s.toNat * 0x4 + g.toNat)
  | .st t a r o s g => BitVec.ofNat 32 (0x96000000 + t.toNat * 0x40000 + a.toNat * 0x800 + r.toNat * 0x80 + o.toNat * 0x20 + s.toNat * 0x4 + g.toNat)
  | .lds t a r o s g => BitVec.ofNat 32 (0x98000000 + t.toNat * 0x40000 + a.toNat * 0x800 + r.toNat * 0x80 + o.toNat * 0x20 + s.toNat * 0x4 + g.toNat)
  | .sts t a r o s g => BitVec.ofNat 32 (0x9a000000 + t.toNat * 0x40000 + a.toNat * 0x800 + r.toNat * 0x80 + o.toNat * 0x20 + s.toNat * 0x4 + g.toNat)
  | .ldfe t a r o s g => BitVec.ofNat 32 (0x9c000000 + t.toNat * 0x40000 + a.toNat * 0x800 + r.toNat * 0x80 + o.toNat * 0x20 + s.toNat * 0x4 + g.toNat)
  | .stfe t a r o s g => BitVec.ofNat 32 (0x9e000000 + t.toNat * 0x40000 + a.toNat * 0x800 + r.toNat * 0x80 + o.toNat * 0x20 + s.toNat * 0x4 + g.toNat)
  | .atom t a r o c z => BitVec.ofNat 32 (0xa0000000 + t.toNat * 0x40000 + a.toNat * 0x800 + r.toNat * 0x80 + o.toNat * 0x20 + c.toNat * 0x2 + z.toNat)
  | .red t a r o c z => BitVec.ofNat 32 (0xa2000000 + t.toNat * 0x40000 + a.toNat * 0x800 + r.toNat * 0x80 + o.toNat * 0x20 + c.toNat * 0x2 + z.toNat)
  | .atoms t a r o c z => BitVec.ofNat 32 (0xa4000000 + t.toNat * 0x40000 + a.toNat * 0x800 + r.toNat * 0x80 + o.toNat * 0x20 + c.toNat * 0x2 + z.toNat)
  | .cstore t a r o s g => BitVec.ofNat 32 (0xa6000000 + t.toNat * 0x40000 + a.toNat * 0x800 + r.toNat * 0x80 + o.toNat * 0x20 + s.toNat * 0x4 + g.toNat)
  | .fence k s => BitVec.ofNat 32 (0xa8000000 + k.toNat * 0x8 + s.toNat)
  | .xfence d m => BitVec.ofNat 32 (0xaa000000 + d.toNat * 0x8 + m.toNat)
  | .lock t a r g => BitVec.ofNat 32 (0xac000000 + t.toNat * 0x40000 + a.toNat * 0x800 + r.toNat * 0x80 + g.toNat)
  | .unlock t a r g => BitVec.ofNat 32 (0xac000004 + t.toNat * 0x40000 + a.toNat * 0x800 + r.toNat * 0x80 + g.toNat)
  | .pref t a r s g => BitVec.ofNat 32 (0xae000000 + t.toNat * 0x40000 + a.toNat * 0x800 + r.toNat * 0x80 + s.toNat * 0x4 + g.toNat)
  | .est x i r => BitVec.ofNat 32 (0xb0000000 + x.toNat * 0x40000 + i.toNat * 0x800 + r.toNat)
  | .eld x i r => BitVec.ofNat 32 (0xb2000000 + x.toNat * 0x40000 + i.toNat * 0x800 + r.toNat)
  | .emrg i r => BitVec.ofNat 32 (0xb4000000 + i.toNat * 0x800 + r.toNat)
  | .eclr i r => BitVec.ofNat 32 (0xb4040000 + i.toNat * 0x800 + r.toNat)
  | .esweep i r => BitVec.ofNat 32 (0xb4080000 + i.toNat * 0x800 + r.toNat)
  | .escene r => BitVec.ofNat 32 (0xb40c0000 + r.toNat)
  | .eraw i r => BitVec.ofNat 32 (0xb4100000 + i.toNat * 0x800 + r.toNat)
  | .einit i r => BitVec.ofNat 32 (0xb4140000 + i.toNat * 0x800 + r.toNat)
  | .qpush d a n => BitVec.ofNat 32 (0xb6000000 + d.toNat * 0x40000 + a.toNat * 0x800 + n.toNat)
  | .rwait a n => BitVec.ofNat 32 (0xb8000000 + a.toNat * 0x800 + n.toNat)
  | .rrel a n => BitVec.ofNat 32 (0xba000000 + a.toNat * 0x800 + n.toNat)
  | .launch d a n => BitVec.ofNat 32 (0xbc000000 + d.toNat * 0x40000 + a.toNat * 0x800 + n.toNat)
  | .ordwait d n => BitVec.ofNat 32 (0xbe000000 + d.toNat * 0x40000 + n.toNat)
  | .ordtake n => BitVec.ofNat 32 (0xbe000100 + n.toNat)
  | .markImm k => BitVec.ofNat 32 (0xc0000000 + k.toNat)
  | .markReg a => BitVec.ofNat 32 (0xc0000400 + a.toNat * 0x800)
  | .cont d o => BitVec.ofNat 32 (0xc2000000 + d.toNat * 0x40000 + o.toNat)
  | .trav d a n => BitVec.ofNat 32 (0xc4000000 + d.toNat * 0x40000 + a.toNat * 0x800 + n.toNat)
  | .tnew d a m n => BitVec.ofNat 32 (0xc6000000 + d.toNat * 0x40000 + a.toNat * 0x800 + m.toNat * 0x10 + n.toNat)
  | .tcut d a n => BitVec.ofNat 32 (0xc6000100 + d.toNat * 0x40000 + a.toNat * 0x800 + n.toNat)
  | .tret a => BitVec.ofNat 32 (0xc6000200 + a.toNat * 0x800)
  | .tfrd d a w => BitVec.ofNat 32 (0xc6000300 + d.toNat * 0x40000 + a.toNat * 0x800 + w.toNat)
  | .tfwr d a w => BitVec.ofNat 32 (0xc6000400 + d.toNat * 0x40000 + a.toNat * 0x800 + w.toNat)
  | .tstat d a n => BitVec.ofNat 32 (0xc6000500 + d.toNat * 0x40000 + a.toNat * 0x800 + n.toNat)
  | .mma d f a b z => BitVec.ofNat 32 (0xc8000000 + d.toNat * 0x40000 + f.toNat * 0x800 + a.toNat * 0x40 + b.toNat * 0x2 + z.toNat)
  | .mclaim d n h => BitVec.ofNat 32 (0xca000000 + d.toNat * 0x40000 + n.toNat * 0x20 + h.toNat)
  | .mrel n h => BitVec.ofNat 32 (0xca000100 + n.toNat * 0x20 + h.toNat)
  | .mzero n h => BitVec.ofNat 32 (0xca000200 + n.toNat * 0x20 + h.toNat)
  | .mrow a h => BitVec.ofNat 32 (0xca000300 + a.toNat * 0x800 + h.toNat)
  | .mread d h => BitVec.ofNat 32 (0xca000400 + d.toNat * 0x40000 + h.toNat)
  | .mld h a r s g => BitVec.ofNat 32 (0xcc000000 + h.toNat * 0x40000 + a.toNat * 0x800 + r.toNat * 0x80 + s.toNat * 0x4 + g.toNat)
  | .msets a => BitVec.ofNat 32 (0xce000000 + a.toNat * 0x800)
  | .hadq d a b e f g => BitVec.ofNat 32 (0xd0000000 + d.toNat * 0x40000 + a.toNat * 0x800 + b.toNat * 0x10 + e.toNat * 0x8 + f.toNat * 0x4 + g.toNat)
  | .mcbt a r g => BitVec.ofNat 32 (0xd2000000 + a.toNat * 0x800 + r.toNat * 0x80 + g.toNat)
  | .march d a b e f g => BitVec.ofNat 32 (0xd4000000 + d.toNat * 0x40000 + a.toNat * 0x800 + b.toNat * 0x10 + e.toNat * 0x8 + f.toNat * 0x4 + g.toNat)
  | .hgrid d a b e f g => BitVec.ofNat 32 (0xd6000000 + d.toNat * 0x40000 + a.toNat * 0x800 + b.toNat * 0x10 + e.toNat * 0x8 + f.toNat * 0x4 + g.toNat)
  | .idot4 d a e g => BitVec.ofNat 32 (0xd8000000 + d.toNat * 0x40000 + a.toNat * 0x800 + e.toNat * 0x8 + g.toNat)
  | .ndot4 d a e g => BitVec.ofNat 32 (0xd8000010 + d.toNat * 0x40000 + a.toNat * 0x800 + e.toNat * 0x8 + g.toNat)
  | .idot8 d a e g => BitVec.ofNat 32 (0xd8000020 + d.toNat * 0x40000 + a.toNat * 0x800 + e.toNat * 0x8 + g.toNat)
  | .idist4 d a e g => BitVec.ofNat 32 (0xd8000030 + d.toNat * 0x40000 + a.toNat * 0x800 + e.toNat * 0x8 + g.toNat)
  | .fdot4e4 d a e g => BitVec.ofNat 32 (0xd8000040 + d.toNat * 0x40000 + a.toNat * 0x800 + e.toNat * 0x8 + g.toNat)
  | .fdot4e5 d a e g => BitVec.ofNat 32 (0xd8000050 + d.toNat * 0x40000 + a.toNat * 0x800 + e.toNat * 0x8 + g.toNat)
  | .hdot2 d a e g => BitVec.ofNat 32 (0xd8000060 + d.toNat * 0x40000 + a.toNat * 0x800 + e.toNat * 0x8 + g.toNat)
  | .kinit a y k => BitVec.ofNat 32 (0xda000000 + a.toNat * 0x800 + y.toNat * 0x100 + k.toNat)
  | .kins d a => BitVec.ofNat 32 (0xda000200 + d.toNat * 0x40000 + a.toNat * 0x800)
  | .kmrg d a => BitVec.ofNat 32 (0xda000400 + d.toNat * 0x40000 + a.toNat * 0x800)
  | .krd d a => BitVec.ofNat 32 (0xda000600 + d.toNat * 0x40000 + a.toNat * 0x800)
  | .srd d s => BitVec.ofNat 32 (0xdc000000 + d.toNat * 0x40000 + s.toNat)
  | .swr a s => BitVec.ofNat 32 (0xde000000 + a.toNat * 0x800 + s.toNat)
  | .trapAssert a n => BitVec.ofNat 32 (0xe0000000 + a.toNat * 0x800 + n.toNat * 0x10)
  | .trapUser a => BitVec.ofNat 32 (0xe0000001 + a.toNat * 0x800)
  | .bkpt => BitVec.ofNat 32 (0xe2000000)
  | .rft => BitVec.ofNat 32 (0xe4000000)
  | .savew a n => BitVec.ofNat 32 (0xe6000000 + a.toNat * 0x800 + n.toNat)
  | .restw a n => BitVec.ofNat 32 (0xe6000100 + a.toNat * 0x800 + n.toNat)
  | .ipref a c => BitVec.ofNat 32 (0xe8000000 + a.toNat * 0x800 + c.toNat)
  | .bset a n => BitVec.ofNat 32 (0xea000000 + a.toNat * 0x800 + n.toNat)
  | .bget d n => BitVec.ofNat 32 (0xea000100 + d.toNat * 0x40000 + n.toNat)
  | .sched p => BitVec.ofNat 32 (0xf6000000 + p.toNat)
  | .ximm p => BitVec.ofNat 32 (0xf8000000 + p.toNat)
  | .xsrc k v => BitVec.ofNat 32 (0xfa000000 + k.toNat * 0x800000 + v.toNat)
  | .xmod t e w s c h f a m => BitVec.ofNat 32 (0xfc000000 + t.toNat * 0x40000 + e.toNat * 0x20000 + w.toNat * 0x10000 + s.toNat * 0x2000 + c.toNat * 0x800 + h.toNat * 0x200 + f.toNat * 0x10 + a.toNat * 0x8 + m.toNat)
  | .pred p n => BitVec.ofNat 32 (0xfe000000 + p.toNat * 0x40000 + n.toNat * 0x20000)
  | _ => 0

/-- The instructions that have a word: every row of the table with an encoding. -/
def Instr.encoded : Instr → Bool
  | .reset => false
  | .functionReady => false
  | .portDown => false
  | .portUp => false
  | .tc0Demotion => false
  | .dvfsChange => false
  | .powercapWrite => false
  | .registerWrite => false
  | .ctxtabWrite => false
  | .bar2Read => false
  | .bar2Write => false
  | .bar2statWrite => false
  | .hostAtomic => false
  | .contextEnable => false
  | .contextRecheck => false
  | .contextDisable => false
  | .ctxstatWrite => false
  | .cntreinitWrite => false
  | .queueEnable => false
  | .queueDisable => false
  | .queueRestart => false
  | .queueSkip => false
  | .faultackRetry => false
  | .faultackUnresolvable => false
  | .jobPacket => false
  | .gridPacket => false
  | .copyPacket => false
  | .traversePacket => false
  | .waitcntPacket => false
  | .signalPacket => false
  | .timebindPacket => false
  | .nopPacket => false
  | .illegalPacketKind => false
  | .packetWaitMet => false
  | .packetCompletion => false
  | .completionRingSpace => false
  | .eventRingSpace => false
  | .faultRingSpace => false
  | .counterPoison => false
  | .monitorSramError => false
  | .estreqBatchCount => false
  | .estreqBatchTimeout => false
  | .jobDeal => false
  | .gridDeal => false
  | .teamRestore => false
  | .teamRetire => false
  | .gridRetire => false
  | .preemptTimeout => false
  | .timeSliceExpiry => false
  | .teamSaveComplete => false
  | .teamFlushComplete => false
  | .caddyArrival => false
  | .caddyPartialTimeout => false
  | .caddyDrain => false
  | .caddyWavePlace => false
  | .pageWalkComplete => false
  | .accessPerform => false
  | .resultLand => false
  | .shootdownPages => false
  | .shootdownContext => false
  | .shootdownAll => false
  | .shootdownComplete => false
  | .tierFetchStart => false
  | .tierFetchLand => false
  | .tierEvictStart => false
  | .tierEvictLand => false
  | .tierCopyError => false
  | .esuEst => false
  | .esuEld => false
  | .esuEmrg => false
  | .esuEclr => false
  | .esuEsweep => false
  | .esuEraw => false
  | .esuEinit => false
  | .esuGenInForce => false
  | .esuAppendResume => false
  | .stackTake => false
  | .walkStep => false
  | .nodeFetchComplete => false
  | .routineWaveForm => false
  | .routineDecision => false
  | .joinZero => false
  | .walkFinish => false
  | .quiescentPoint => false
  | .trapWindowTimeout => false
  | .handlerEntry => false
  | .wsyncRelease => false
  | .barrierPhaseComplete => false
  | .ldfeUnblock => false
  | .stfeUnblock => false
  | .ordwaitRelease => false
  | .rwaitRelease => false
  | .topkLockRelease => false
  | .sleepExpiry => false
  | .markStallEnd => false
  | .breakpointMatch => false
  | .ssmodeRecord => false
  | .ssmodeReplay => false
  | .ssmodeOff => false
  | .debugConfigUpdate => false
  | .stallSample => false
  | .energyInterval => false
  | .replayDivergeTimeout => false
  | .replayDivergeStale => false
  | .replayLogMatch => false
  | .scoresheetLogSpace => false
  | .dbgHaltCtx => false
  | .dbgResume => false
  | .dbgStep => false
  | .dbgResumeAll => false
  | .dbgDump => false
  | .dbgDumpWrite => false
  | .dbgBadCommand => false
  | .illegalInstruction => false
  | .instructionFetchFault => false
  | .matrixUnitFree => false
  | .portRetrain => false
  | .replayDivergeUnknownKind => false
  | _ => true

end Sys2Proof
end

