-- ==== Sys2Proof/Machine/EstFn.lean ====
section
/-!
DEFINITION. Estimator arithmetic as functions: the cell and its normalisation (R160, R161), the generation step (R164),
EST (R165), the statistics (R166), EMRG (R170) and the region descriptor (R162).
-/

namespace Sys2Proof.Machine

/-- A cell (R160); w in units of 1/256. -/
structure Cell where
  mean : Nat := 0
  m2 : Nat := 0
  w : Nat := 0
  gen : Nat := 0
  sat : Bool := false
  req : Bool := false
  nan : Bool := false
deriving DecidableEq, Repr

def fin32 (b : Nat) : Bool := b / 2 ^ 23 % 256 != 255
/-- The 16-byte image of a cell, and the cell of an image as an operation reads it (R160, R161). -/
def Cell.image (c : Cell) : Nat :=
  c.mean + 2 ^ 32 * c.m2 + 2 ^ 64 * c.w + 2 ^ 88 * c.gen + (if c.sat then 2 ^ 96 else 0) + (if c.req then 2 ^ 97 else 0) +
    (if c.nan then 2 ^ 98 else 0)
def Cell.ofImage (x : Nat) : Cell :=
  let mean := x % 2 ^ 32
  let m2 := x / 2 ^ 32 % 2 ^ 32
  if !fin32 mean || !fin32 m2 then { nan := true }
  else
    { mean, m2 := if m2 / 2 ^ 31 = 1 then 0 else m2, w := x / 2 ^ 64 % 2 ^ 24, gen := x / 2 ^ 88 % 256
      sat := x.testBit 96, req := x.testBit 97, nan := x.testBit 98 }

/-! ## FP32 without FPCTL: round to nearest even, denormals kept -/

def f32 (b : Nat) : Fp := fp32.decode b
def eAdd (a b : Fp) : Nat := (fp32.add .rne false a b).1
def eSub (a b : Fp) : Nat := eAdd a b.neg
def eMul (a b : Fp) : Nat := (fp32.mul .rne false a b).1
def eFma (a b c : Fp) : Nat := (fp32.fma .rne false a b c).1
/-- Quotient of a finite or infinite value and a finite one that is not zero. -/
def eDiv (a b : Fp) : Nat :=
  match a, b with
  | .fin s ma ea, .fin t mb eb =>
    if ma = 0 then fp32.signed (s != t) 0
    else
      let (m, e, st) := fpDiv ma ea mb eb
      (fp32.finish .rne false (s != t) m e st 0).1
  | .inf s, .fin t _ _ => fp32.signed (s != t) fp32.infBits
  | _, _ => fp32.nanBits
def eSqrt (a : Fp) : Nat := (fp32.sqrt false a).1
/-- The exact value of a weight (R160). -/
def eW (units : Nat) : Fp := .fin false units (-8)
/-- A sum that is negative or −0 counts as +0 (R165). -/
def clamp0 (b : Nat) : Nat := if b / 2 ^ 31 = 1 && !(f32 b == .nan) then 0 else b
def eHalf (b : Nat) : Nat := eMul (f32 b) (.fin false 1 (-1))

/-! ## Operations on cells -/

/-- Bring a cell to generation g with decay d (R164). -/
def Cell.bring (c : Cell) (g d : Nat) : Cell :=
  let k := (g + 256 - c.gen) % 256
  if k = 0 then c
  else
    let c1 : Cell :=
      if 24 ≤ d * k then {}
      else
        let w := c.w / 2 ^ (d * k)
        if w = 0 then { c with w := 0, mean := 0, m2 := 0 } else { c with w, m2 := eMul (f32 c.m2) (.fin false 1 (-(d * k : Int))) }
    { c1 with gen := g, req := false }

/-- Halve a weight and its squared deviations until w more fit (R165). -/
def halve (add : Nat) : Nat → Nat → Nat → Bool → Nat × Nat × Bool
  | 0, w, m2, sat => (w, m2, sat)
  | n + 1, w, m2, sat => if 0xFFFFFF < w + add then halve add n (w / 2) (eHalf m2) true else (w, m2, sat)

/-- EST adds sample x with weight w to a cell at its generation (R165). -/
def Cell.est (c : Cell) (x w : Nat) : Cell :=
  if !fin32 x then { c with nan := true }
  else if w = 0 then c
  else
    let (wt, st, sat) := halve w 25 c.w c.m2 c.sat
    let wn := wt + w
    let delta := eSub (f32 x) (f32 c.mean)
    let q := eDiv (eW w) (eW wn)
    let mn := eFma (f32 delta) (f32 q) (f32 c.mean)
    let d2 := eSub (f32 x) (f32 mn)
    let t := eMul (eW w) (f32 delta)
    let sn := clamp0 (eFma (f32 t) (f32 d2) (f32 st))
    if fin32 mn && fin32 sn then { c with w := wn, mean := mn, m2 := sn, sat }
    else { c with w := wt, m2 := st, sat, nan := true }

/-- Halve two weights together until their sum fits (R170). -/
def halve2 : Nat → Nat → Nat → Nat → Nat → Bool → Nat × Nat × Nat × Nat × Bool
  | 0, wa, wb, sa, sb, sat => (wa, wb, sa, sb, sat)
  | n + 1, wa, wb, sa, sb, sat =>
    if 0xFFFFFF < wa + wb then halve2 n (wa / 2) (wb / 2) (eHalf sa) (eHalf sb) true else (wa, wb, sa, sb, sat)

/-- EMRG: b merged into a, both at their generation (R170). -/
def Cell.merge (a b : Cell) : Cell :=
  let flagged (c : Cell) (sat bad : Bool) : Cell := { c with sat := a.sat || b.sat || sat, nan := a.nan || b.nan || bad }
  if b.w = 0 then flagged a false false
  else if a.w = 0 then flagged { a with mean := b.mean, m2 := b.m2, w := b.w } false false
  else
    let (wa, wb, sa, sb, sat) := halve2 2 a.w b.w a.m2 b.m2 false
    let wn := wa + wb
    let delta := eSub (f32 b.mean) (f32 a.mean)
    let q := eDiv (eW wb) (eW wn)
    let mn := eFma (f32 delta) (f32 q) (f32 a.mean)
    let t := eMul (f32 delta) (f32 delta)
    let u := eMul (eW wa) (f32 q)
    let sn := clamp0 (eFma (f32 t) (f32 u) (f32 (eAdd (f32 sa) (f32 sb))))
    if fin32 mn && fin32 sn then flagged { a with w := wn, mean := mn, m2 := sn } sat false else flagged a sat true

/-- EINIT (R167). -/
def Cell.init (mean m2 w g : Nat) : Cell :=
  if !fin32 mean || !fin32 m2 then { nan := true, gen := g }
  else { mean, m2 := if m2 / 2 ^ 31 = 1 then 0 else m2, w := w % 2 ^ 24, gen := g }

/-! ## Regions (R162) and statistics (R166) -/

/-- A region descriptor of 64 bytes. -/
structure Region where
  base : Nat
  cells : Nat
  gen : Nat
  decay : Nat
  logtile : Nat
  emptylag : Bool
  tau : Nat
  phi : Nat
  wmin : Nat
  reqq : Nat
deriving DecidableEq, Repr

/-- τ and φ are finite and at least +0 (R162). DESIGN CHOICE: −0 counts as +0, its equal (log 140). -/
def nonNeg32 (b : Nat) : Bool := fin32 b && (b / 2 ^ 31 == 0 || b == 2 ^ 31)
/-- Field of a 512-bit record. -/
def fld512 (d : BitVec 512) (off len : Nat) : Nat := d.toNat / 2 ^ (8 * off) % 2 ^ (8 * len)
/-- The region of a descriptor, none when it is malformed (R162). -/
def regionOf (d : BitVec 512) : Option Region :=
  let f := fld512 d
  let rf := f 19 1
  if rf % 2 = 1 && rf / 4 == 0 && f 0 9 % 16 == 0 && decide (f 0 9 < 2 ^ 65) && f 9 3 == 0 && f 12 4 != 0 && decide (f 17 1 ≤ 7) &&
      decide (f 18 1 ≤ 8) && nonNeg32 (f 20 4) && nonNeg32 (f 24 4) && f 31 1 == 0 && f 41 23 == 0 then
    some { base := f 0 9, cells := f 12 4, gen := f 16 1, decay := f 17 1, logtile := f 18 1, emptylag := rf.testBit 1, tau := f 20 4
           phi := f 24 4, wmin := f 28 3, reqq := f 32 9 }
  else none

/-- Standard error of a cell (R166). -/
def Cell.se (c : Cell) : Nat :=
  if c.w ≤ 256 then fp32.infBits else eSqrt (f32 (eDiv (f32 (eDiv (f32 c.m2) (eW (c.w - 256)))) (eW c.w)))
/-- The weight as FP32. -/
def Cell.wf32 (c : Cell) : Nat := eDiv (eW c.w) (.fin false 1 0)
/-- The cell lags (R166). -/
def Cell.lag (c : Cell) (r : Region) : Bool :=
  let t := eMul (f32 r.tau) (f32 (c.mean % 2 ^ 31))
  let lim := if fpLess (f32 t) (f32 r.phi) then r.phi else t
  decide (c.w < r.wmin) || fpCmp (f32 c.se) (f32 lim) == some .gt
/-- What ELD lands (R166). -/
def Cell.stats (c : Cell) (r : Region) : List Nat := [c.mean, c.se, c.wf32, if c.lag r then 1 else 0]
/-- The request check: the cell, and whether a record is due (R169). -/
def Cell.check (c : Cell) (r : Region) : Cell × Bool :=
  if c.lag r then (if c.req then (c, false) else ({ c with req := true }, true)) else ({ c with req := false }, false)
/-- A request record (R171). -/
def Cell.record (c : Cell) (ix : Nat) : BitVec 128 :=
  BitVec.ofNat 128 (ix % 2 ^ 32 + 2 ^ 32 * c.se + 2 ^ 64 * c.wf32 + 2 ^ 96 * c.mean)

end Sys2Proof.Machine
end

