-- ==== Sys2Proof/Machine/Mem.lean ====
section
/-!
DEFINITION. Loads, stores, atomics and full/empty accesses: R323 to R332.
-/

namespace Sys2Proof.Machine

/-! ## Atomics as functions (R330) -/

/-- A value of n bytes as a signed number. -/
def signedOf (n v : Nat) : Int := if v < 2 ^ (8 * n - 1) then v else (v : Int) - 2 ^ (8 * n)
/-- FP32 minimum and maximum, and the sum, of atomics (R330). -/
def fpAop (aop old x : Nat) : Nat :=
  match aop with
  | 11 => (fp32.add .rne false (fp32.decode old) (fp32.decode x)).1
  | 12 => fp32.minmax false false old x
  | _ => fp32.minmax true false old x
/-- The new value of a location of n bytes: AOP, old value, operand from T, second operand (R271, R330). -/
def aopFn (aop n old x y : Nat) : Nat :=
  match aop with
  | 0 => (old + x) % 2 ^ (8 * n)
  | 1 => if signedOf n old ≤ signedOf n x then old else x
  | 2 => if signedOf n old ≤ signedOf n x then x else old
  | 3 => min old x
  | 4 => max old x
  | 5 => old &&& x
  | 6 => old ||| x
  | 7 => old ^^^ x
  | 8 => x
  | 9 => if old = x then y else old
  | 10 => if y ≤ old then 0 else (old + 1) % 2 ^ (8 * n)
  | _ => fpAop aop old x

/-! ## Loads and stores (R323 to R325) -/

/-- The address of an M or MA access in lane L (R92). -/
def mVa (r : BitVec 4) (a : BitVec 7) (i : Iss) (L : Nat) : Nat := vaOf i.w r.toNat (i.l L) a.toNat (ximOff (i.h L))
/-- The scratchpad offset of lane L (R114). -/
def mOff (a : BitVec 7) (i : Iss) (L : Nat) : Nat := spOff (i.l L) a.toNat (ximOff (i.h L))

/-- What follows an ORD of release: the lane's earlier writes first (R151); otherwise nothing. -/
def relWait (o : BitVec 2) (a : Acc) : Bool := o.toNat == 2 && anyWrite a

/-- LD (R323). -/
def execLd (t a : BitVec 7) (r : BitVec 4) (o : BitVec 2) (z : BitVec 3) (g : BitVec 2) (s : State) : Out :=
  let (n, k, sx) := widthOf z
  .next (s.issue (fLoad t k a 2 o g (!Instr.wf (.ld t a r o z g))) (needPages (alignedVas n (mVa r a)))
    (memBody .load n n (mVa r a) (t.toNat, k) (fun i L pa e s =>
      (s.addAcc i L { accOf (.load t.toNat sx) pa n with
        va := BitVec.ofNat 72 (mVa r a i L), ord := ordLd o, type := e.type, log := e.log }).goOn i L (t.toNat, k))))

/-- The data of a store: n bytes of the registers from T (R324). -/
def stData (i : Iss) (L : Nat) (t : BitVec 7) (n k : Nat) : BitVec 128 := BitVec.ofNat 128 ((i.l L).words t.toNat k % 2 ^ (8 * n))
/-- The access of a store in lane L, to this physical address (R324). -/
def stAcc (i : Iss) (L : Nat) (t a : BitVec 7) (r : BitVec 4) (o : BitVec 2) (n k pa : Nat) (e : Pte) : Acc :=
  { accOf .store pa n with
    va := BitVec.ofNat 72 (mVa r a i L), data := stData i L t n k, ord := ordSt o, type := e.type, log := e.log, posted := true }
/-- ST (R324). -/
def execSt (t a : BitVec 7) (r : BitVec 4) (o : BitVec 2) (z : BitVec 3) (g : BitVec 2) (s : State) : Out :=
  let (n, k, _) := widthOf z
  .next (s.issueForced (fStore t k a 2 o g (!Instr.wf (.st t a r o z g))) (fun _ _ => relWait o) false
    (needPages (alignedVas n (mVa r a)))
    (memBody .store n n (mVa r a) (0, 0) (fun i L pa e s => (s.addAcc i L (stAcc i L t a r o n k pa e)).goOn i L (0, 0))))

/-- LDS (R325). -/
def execLds (t a : BitVec 7) (r : BitVec 4) (o : BitVec 2) (z : BitVec 3) (g : BitVec 2) (s : State) : Out :=
  let (n, k, sx) := widthOf z
  .next (s.issue (fLoad t k a 1 o g (!Instr.wf (.lds t a r o z g))) (waitList r (mOff a) n)
    (spBody r (mOff a) n (fun i L tid off s =>
      (s.addAcc i L { accOf (.load t.toNat sx) off n with sp := some tid, ord := ordLd o }).goOn i L (t.toNat, k))))

/-- STS (R325). -/
def execSts (t a : BitVec 7) (r : BitVec 4) (o : BitVec 2) (z : BitVec 3) (g : BitVec 2) (s : State) : Out :=
  let (n, k, _) := widthOf z
  .next (s.issueForced (fStore t k a 1 o g (!Instr.wf (.sts t a r o z g))) (fun _ _ => relWait o) false (waitList r (mOff a) n)
    (spBody r (mOff a) n (fun i L tid off s =>
      (s.addAcc i L { accOf .store off n with sp := some tid, data := stData i L t n k, ord := ordSt o, posted := true }).goOn i L
        (0, 0))))

/-! ## Full/empty accesses (R326, R327, R328) -/

/-- Bytes of an LDFE or STFE. -/
def feSize (z : Nat) : Nat := match z % 4 with | 0 => 4 | 1 => 8 | _ => 16
/-- A full/empty access of a lane as its order sees it (R146, R148). -/
def feAcc (op : AccOp) (ord : Ord) (r : BitVec 4) (a : BitVec 7) (n : Nat) (s : State) (i : Iss) (L : Nat) : Option Acc :=
  match s.spCheck i L r.toNat (mOff a i L) n with
  | .ok tid => some { accOf op (mOff a i L) n with sp := some tid, ord, scope := scopeOf (i.h L) }
  | .error _ => none

/-- Some lane is blocked in LDFE (ld) or STFE on a granule. -/
def State.feWaiter (s : State) (ld : Bool) (tid g : Nat) : Bool :=
  s.blocked.any (fun x => match x.2.2.2 with
    | .ldfe t off _ _ _ _ => ld && t == tid && off / 16 == g
    | .stfe t off _ _ _ => !ld && t == tid && off / 16 == g
    | _ => false)

/-- A lane's full/empty access performs: it is ordered as a load or store of its ORD and scope (R145, R328). -/
def State.feSaw (s : State) (uid L tid off n : Nat) (op : AccOp) (ord : Ord) (own : Option Nat) : State :=
  let q := s.whoOf uid L
  let scope := match s.wave? uid with | some w => scopeOf (hintSet (w.lane L).hints) | none => 5
  s.touch { accOf op off n with uid, me := q.me, home := q.tid, die := q.die, sp := some tid, ord, scope } own.isNone own s.writes
/-- An LDFE is served: bytes and full bit at one point (R326); its value lands after some cycles (R117). -/
def State.serveLd (s : State) (uid L : Nat) (w : Nat × Nat × Nat × Nat) (clr : Bool) (ord : Ord) (pc : Word) (cycles : Nat) : State :=
  let (tid, off, n, d) := w
  let v := leNat (s.spRd tid off n)
  let s1 := if clr then s.setGranule tid (off / 16) false else s
  let die := match s.team? tid with | some t => t.die | none => 0
  (s1.landRead uid L d (wordsOf (n / 4) v) (s.after die cycles) pc).feSaw uid L tid off n (.load d 0) ord none
/-- An STFE is served: bytes and full bit at one point (R327). -/
def State.serveSt (s : State) (uid L tid off n : Nat) (v : BitVec 128) (ord : Ord) : State :=
  ((s.spWr tid off (leBytes n v.toNat)).setGranule tid (off / 16) true).feSaw uid L tid off n .store ord (some s.writes)

/-- LDFE (R326). -/
def execLdfe (t a : BitVec 7) (r : BitVec 4) (o : BitVec 2) (z : BitVec 3) (g : BitVec 2) (s : State) : Out :=
  let n := feSize z.toNat
  let clr := z.getLsbD 2
  .next (s.issue (fLoad t (n / 4) a 1 o g (!Instr.wf (.ldfe t a r o z g))) (waitBefore (feAcc (.load t.toNat 0) (ordLd o) r a n))
    (spBody r (mOff a) n (fun i L tid off s =>
      if s.granuleFull tid (off / 16) && !s.feWaiter true tid (off / 16) then
        (s.serveLd i.uid L (tid, off, n, t.toNat) clr (ordLd o) (i.l L).pc 24).goOn i L (t.toNat, n / 4)
      else
        (s.updLane i.uid L (fun l => l.mark l.pc t.toNat (n / 4))).block i.uid L (.ldfe tid off n t.toNat clr o))))

/-- STFE: its lanes are served in ascending order, a .rel one once the earlier writes of all of them have performed (R327, R151). -/
def execStfe (t a : BitVec 7) (r : BitVec 4) (o z : BitVec 2) (g : BitVec 2) (s : State) : Out :=
  let n := feSize z.toNat
  .next (s.issueTogether (fStore t (n / 4) a 1 o g (!Instr.wf (.stfe t a r o z g))) (fun _ _ => relWait o)
    (waitBefore (feAcc .store (ordSt o) r a n))
    (spBody r (mOff a) n (fun i L tid off s =>
      let v := stData i L t n (n / 4)
      if !s.granuleFull tid (off / 16) && !s.feWaiter false tid (off / 16) then (s.serveSt i.uid L tid off n v (ordSt o)).goOn i L (0, 0)
      else s.block i.uid L (.stfe tid off n v o))))

/-- The first lane blocked in LDFE (ld) or STFE on a granule, in the order in which they blocked. -/
def State.firstFe (s : State) (ld : Bool) (tid g : Nat) : Option (Nat × Nat × Nat × Wait) :=
  minBy (fun x => x.2.2.1) (s.blocked.filter (fun x => match x.2.2.2 with
    | .ldfe t off _ _ _ _ => ld && t == tid && off / 16 == g
    | .stfe t off _ _ _ => !ld && t == tid && off / 16 == g
    | _ => false))
/-- LDFE_UNBLOCK of granule m of team n: the first lane that blocked is served (R326). -/
def execLdfeUnblock (s : State) : Out :=
  .next (if !s.granuleFull s.occ.n s.occ.m || (s.activeTeam? s.occ.n).isNone then s
    else match s.firstFe true s.occ.n s.occ.m with
      | some (uid, L, _, .ldfe tid off n d clr o) =>
        let pc := match s.wave? uid with | some w => (w.lane L).pc | none => 0
        let far := match s.wave? uid with | some w => w.tid != tid | none => false
        (s.serveLd uid L (tid, off, n, d) clr (ordLd o) pc (if far then 64 else 24)).unblock uid L (fun l => l)
      | _ => s)
/-- STFE_UNBLOCK of granule m of team n (R327). -/
def execStfeUnblock (s : State) : Out :=
  .next (if s.granuleFull s.occ.n s.occ.m || (s.activeTeam? s.occ.n).isNone then s
    else match s.firstFe false s.occ.n s.occ.m with
      | some (uid, L, _, .stfe tid off n v o) => (s.serveSt uid L tid off n v (ordSt o)).unblock uid L (fun l => l)
      | _ => s)

/-! ## Atomics (R329 to R332) -/

/-- The registers an atomic reads: from T for most, both operands for .cas, the second only for .inc (R271). -/
def atSrcs (t : BitVec 7) (c : BitVec 4) (k : Nat) : List Src :=
  match c.toNat with
  | 9 => [srcBlk t (2 * k)]
  | 10 => [{ r := t.toNat + k, n := k }]
  | _ => [srcBlk t k]
/-- Form of an atomic with pair offset registers, and destinations. -/
def fAtom (t a : BitVec 7) (c : BitVec 4) (z : BitVec 1) (o : BitVec 2) (pair : Nat) (lands bad : Bool) : FormF := fun h _ =>
  let k := 1 + z.toNat
  { xim := true, xmod := true, mfmt := true, scp := o.toNat == 2, bad
    srcs := { r := a.toNat, n := pair, trap := eaOf h } :: atSrcs t c k, dsts := if lands then [(t.toNat, k)] else [] }
/-- The access of an atomic in lane L. -/
def atAcc (i : Iss) (L : Nat) (t : BitVec 7) (c : BitVec 4) (z : BitVec 1) (o : BitVec 2) (addr : Nat) (lands : Bool) : Acc :=
  let k := 1 + z.toNat
  { accOf (.atom c.toNat (BitVec.ofNat 64 ((i.l L).words t.toNat k)) (BitVec.ofNat 64 ((i.l L).words (t.toNat + k) k))
      (if lands then some t.toNat else none)) addr (4 * k) with ord := ordAt o }

/-- The access of an atomic on memory in lane L. -/
def atMem (i : Iss) (L : Nat) (t a : BitVec 7) (r : BitVec 4) (o : BitVec 2) (c : BitVec 4) (z : BitVec 1) (pa : Nat) (e : Pte) (lands : Bool) : Acc :=
  { atAcc i L t c z o pa lands with va := BitVec.ofNat 72 (mVa r a i L), type := e.type, log := e.log, posted := !lands }
/-- An atomic on memory (R329). -/
def atomOp (lands bad : Bool) (t a : BitVec 7) (r : BitVec 4) (o : BitVec 2) (c : BitVec 4) (z : BitVec 1) (s : State) : State :=
  let k := 1 + z.toNat
  let dst := if lands then (t.toNat, k) else (0, 0)
  s.issueForced (fAtom t a c z o 2 lands bad) (fun _ _ => relWait o) false (needPages (alignedVas (4 * k) (mVa r a)))
    (memBody (.atomic c.toNat) (4 * k) (4 * k) (mVa r a) dst (fun i L pa e s =>
      (s.addAcc i L (atMem i L t a r o c z pa e lands)).goOn i L dst))
/-- ATOM (R329, R332). -/
def execAtom (t a : BitVec 7) (r : BitVec 4) (o : BitVec 2) (c : BitVec 4) (z : BitVec 1) (s : State) : Out :=
  .next (atomOp true (!Instr.wf (.atom t a r o c z)) t a r o c z s)
/-- RED (R329, R332). -/
def execRed (t a : BitVec 7) (r : BitVec 4) (o : BitVec 2) (c : BitVec 4) (z : BitVec 1) (s : State) : Out :=
  .next (atomOp false (!Instr.wf (.red t a r o c z)) t a r o c z s)
/-- ATOMS (R329, R331). -/
def execAtoms (t a : BitVec 7) (r : BitVec 4) (o : BitVec 2) (c : BitVec 4) (z : BitVec 1) (s : State) : Out :=
  let k := 1 + z.toNat
  .next (s.issueForced (fAtom t a c z o 1 true (!Instr.wf (.atoms t a r o c z))) (fun _ _ => relWait o) false
    (waitList r (mOff a) (4 * k))
    (spBody r (mOff a) (4 * k) (fun i L tid off s =>
      (s.addAcc i L { atAcc i L t c z o off true with sp := some tid }).goOn i L (t.toNat, k))))

end Sys2Proof.Machine
end

