-- ==== Sys2Proof/Machine/MemSys.lean ====
section
/-!
DEFINITION. CSTORE, LOCK, UNLOCK, the prefetches, base registers and the fences: R333 to R340, R152, R155.
-/

namespace Sys2Proof.Machine

/-! ## CSTORE (R333 to R335) -/

/-- VA of the element a lane has claimed (R333). -/
def elemVa (r : BitVec 4) (a : BitVec 7) (n : Nat) (i : Iss) (L : Nat) : Nat :=
  (mVa r a i L + 16 + ((i.l L).claim.getD 0) * n) % 2 ^ 72
/-- The lanes of the set that hold a claim of this instruction. -/
def Iss.claimed (i : Iss) : Iss := { i with E := i.E.filter (fun L => (i.l L).claim.isSome) }
/-- The executing lanes agree on the header's address (R333). -/
def oneHeader (va : Iss → Nat → Nat) (i : Iss) : Bool := i.E.all (fun L => va i L == va i (i.E.headD 0))

/-- The point of a claim at its header's home slice (R256, R334). -/
def claimPoint (s : State) (i : Iss) (pa : Nat) : SsPoint :=
  { kind := 1, unit := paSlice pa, id := i.t.ssId, wave := BitVec.ofNat 8 i.w.idx, lane := BitVec.ofNat 8 (i.E.headD 0)
    grid := BitVec.ofNat 16 (i.g.logOrd.getD 0), n := BitVec.ofNat 32 (s.laneNow i (i.E.headD 0)).opCount }
def claimLogged (s : State) (i : Iss) (pa : Nat) : Bool := i.g.logOrd.isSome && s.isLocal pa

/-- The one atomic of a claim, for each of the executing lanes, which makes write number own (R334, R349). -/
def claimAcc (i : Iss) (s : State) (L pa n : Nat) (ord : Ord) : Acc :=
  let q := s.whoOf i.uid L
  { accOf (.atom 0 0 0 (some 0)) pa n with uid := q.uid, die := q.die, me := q.me, home := q.tid, ord, scope := scopeOf (i.h L) }
/-- The lanes have made the claim, write number own: they have read and written its bytes (R147, R148). -/
def State.sawClaim (s : State) (i : Iss) (pa n : Nat) (ord : Ord) (own : Nat) : State :=
  i.E.foldl (fun s L => s.touch (claimAcc i s L pa n ord) true (some own) s.writes) s
/-- One claim for the executing lanes (R334): COUNT rises, lanes below CAP keep their index, the others are done. -/
def State.cstoreClaim (s : State) (i : Iss) (pa : Nat) (o : BitVec 2) (type : Nat) : State :=
  let base := s.rd pa 8
  let cap := s.rd (pa + 8) 4
  let s1 := (s.wr pa 8 (base + i.E.length)).movedBytes i.c pa 16
  let s2 := (s1.sawClaim i pa 16 (ordAt o) s.writes).fillLine type pa
  let s3 := s2.updLane i.uid (i.E.headD 0) (fun l => { l with opCount := l.opCount + 1 })
  ((List.range i.E.length).zip i.E).foldl (fun s x =>
    let k := (base + x.1) % 2 ^ 64
    s.updWave i.uid (fun w => w.updLane x.2 (fun l =>
      if cap = 0 || decide (k < cap) then { l.keep w with claim := some k } else l.adv))) s3

/-- The access of an element store in lane L (R335). -/
def elemAcc (i : Iss) (L : Nat) (t a : BitVec 7) (r : BitVec 4) (o : BitVec 2) (n k pa : Nat) (e : Pte) : Acc :=
  { stAcc i L t a r o n k pa e with va := BitVec.ofNat 72 (elemVa r a n i L), element := true }
/-- What the first stage of a CSTORE waits for: the header's page, a migration of it (R136), the lanes' earlier accesses that the claim
follows (R148), and its logged point. -/
def cstoreBusy (r : BitVec 4) (o : BitVec 2) (a : BitVec 7) (n : Nat) : State → Iss → Option State := fun s i =>
  if i.claimed.E != [] then needPages (fun i => i.E.map (fun L => elemVa r a n i L)) s i.claimed
  else
    let hva := mVa r a i (i.E.headD 0)
    if !oneHeader (mVa r a) i || hva % 16 != 0 then none
    else
      match needPages (fun _ => [hva]) s i with
      | some s1 => some s1
      | none =>
        match s.laneXl i hva 16 (.atomic 1) with
        | .ok pa e =>
          if s.migHeld pa || i.E.any (fun L => s.ordersPend i.uid L { accOf (.atom 1 0 0 none) pa 16 with
              ord := ordAt o, scope := scopeOf (i.h L), type := e.type }) then some s
          else
            let g := s.ssGate (claimLogged s i pa) (paDie pa) (claimPoint s i pa)
            if g.1 then none else some g.2
        | _ => none

/-- CSTORE (R333 to R335): lanes that have claimed store their elements; otherwise the executing lanes claim. -/
def execCstore (t a : BitVec 7) (r : BitVec 4) (o : BitVec 2) (z : BitVec 3) (g : BitVec 2) (s : State) : Out :=
  let (n, k, _) := widthOf z
  .next (s.issueTogether (fStore t k a 2 o g (!Instr.wf (.cstore t a r o z g))) (fun _ _ => relWait o) (cstoreBusy r o a n)
    (fun i s =>
      if i.claimed.E != [] then
        memBody .element n n (elemVa r a n) (0, 0) (fun i L pa e s => (s.addAcc i L (elemAcc i L t a r o n k pa e)).goOn i L (0, 0)) i.claimed s
      else
        let hva := mVa r a i (i.E.headD 0)
        if !oneHeader (mVa r a) i then (s, i.E.map (fun L => (L, (i.l L).trapHere tkFMTDIV 0)))
        else if hva % 16 != 0 then (s, i.E.map (fun L => (L, ((i.l L).trapHere tkMISALIGN 16).withVa hva)))
        else
          match s.laneXl i hva 16 (.atomic 1) with
          | .ok pa e =>
            (((s.ssGate (claimLogged s i pa) (paDie pa) (claimPoint s i pa)).2.setDirty i.die i.c hva).cstoreClaim i pa o e.type, [])
          | _ => memBody (.atomic 1) 16 16 (mVa r a) (0, 0) (fun _ _ _ _ s => s) i s))

/-! ## LOCK and UNLOCK (R112, R113, R336) -/

/-- The VAs of the lines a LOCK or UNLOCK names in lane L. -/
def lockLines (t : BitVec 7) (r : BitVec 4) (a : BitVec 7) (i : Iss) (L : Nat) : List (Nat × Nat) :=
  let v0 := mVa r a i L / 128 * 128
  (List.range ((i.l L).v t.toNat).toNat).map (fun k => ((v0 + 128 * k) % 2 ^ 72, 4))
/-- Twelve lines of the set that would hold the line are locked (R112; log 13). -/
def State.setFull (s : State) (die pa : Nat) : Bool :=
  decide (12 ≤ (s.locks.filter (fun k => k.die == die && s.homeHere die (128 * k.line) == s.homeHere die pa &&
    Config.lineSet die k.line == Config.lineSet die (pa / 128))).length)
/-- Lock lines in ascending order until the quota or a set stops it: how many are locked after it (R112). -/
def State.lockGo (s : State) (die c : Nat) (stopped : Bool) : List (Nat × Pte) → Nat × State
  | [] => (0, s)
  | (pa, e) :: r =>
    let mine (k : Lock) : Bool := k.ctx == c && k.die == die
    if e.type != 0 || s.locks.any (fun k => mine k && k.line == pa / 128) then
      let (n, s1) := State.lockGo s die c stopped r
      (n + 1, s1)
    else if stopped || decide ((s.ctx c).lockquota ≤ (s.locks.filter mine).length) || s.setFull die pa then State.lockGo s die c true r
    else
      let (n, s1) := State.lockGo { s with locks := s.locks ++ [{ ctx := c, die := die, line := pa / 128 }] } die c stopped r
      (n + 1, s1)
/-- Release lines: the context's locks on them on every die, and how many lines that were (R113). -/
def State.unlockGo (s : State) (c : Nat) (ps : List (Nat × Pte)) : Nat × State :=
  let hit (k : Lock) : Bool := k.ctx == c && ps.any (fun p => p.1 / 128 == k.line)
  ((((s.locks.filter hit).map Lock.line).eraseDups).length, { s with locks := s.locks.filter (fun k => !hit k) })

/-- The form of LOCK and UNLOCK (R322). -/
def fLock (t a : BitVec 7) (g : BitVec 2) (bad : Bool) : FormF := fun h _ =>
  { g := g.toNat, xim := true, xmod := true, mfmt := true, bad
    srcs := [{ r := a.toNat, n := 2, trap := eaOf h }, srcBlk t], dsts := [(t.toNat, 1)] }
/-- The form of PREF: .far names the far tier (R337, R4). -/
def fPref (t a : BitVec 7) (g : BitVec 2) (bad far : Bool) : FormF := fun h _ =>
  { g := g.toNat, xim := true, xmod := true, mfmt := true, bad, unit := if far then some 4 else none
    srcs := [{ r := a.toNat, n := 2, trap := eaOf h }, srcBlk t] }
/-- LOCK and UNLOCK share their form: a line count in vT, which also lands the answer. -/
def lockOp (bad : Bool) (f : State → Nat → Nat → List (Nat × Pte) → Nat × State) (t a : BitVec 7) (r : BitVec 4) (g : BitVec 2)
    (s : State) : State :=
  s.issue (fLock t a g bad)
    (needPages (fun i => i.E.flatMap (fun L => (lockLines t r a i L).map (fun x => x.1))))
    (memBodyN .load (lockLines t r a) (t.toNat, 1) (fun i L ps s =>
      let (n, s1) := f s i.die i.c ps
      (s1.goOn i L (t.toNat, 1)).addLand i.uid L t.toNat [lo32 n] (s.replyDue i.die) (i.l L).pc false))
/-- LOCK (R336, R112). -/
def execLock (t a : BitVec 7) (r : BitVec 4) (g : BitVec 2) (s : State) : Out :=
  .next (lockOp (!Instr.wf (.lock t a r g)) (fun s d c ps => s.lockGo d c false ps) t a r g s)
/-- UNLOCK (R336, R113). -/
def execUnlock (t a : BitVec 7) (r : BitVec 4) (g : BitVec 2) (s : State) : Out :=
  .next (lockOp (!Instr.wf (.unlock t a r g)) (fun s _ c ps => s.unlockGo c ps) t a r g s)

/-! ## Prefetches (R337, R338) -/

/-- Lines overlapping [va, va + len). -/
def linesOf (va len : Nat) : List Nat :=
  if len = 0 then [] else (List.range ((va % 128 + len + 127) / 128)).map (fun k => (va / 128 * 128 + 128 * k) % 2 ^ 72)
/-- Pages overlapping [va, va + len). -/
def pagesOf (va len : Nat) : List Nat :=
  if len = 0 then [] else (List.range ((va % 65536 + len + 65535) / 65536)).map (fun k => (va / 65536 * 65536 + 65536 * k) % 2 ^ 72)
/-- A line is brought into the L2 of its home; with rdc, the RDC of a die takes a fresh copy of one homed elsewhere (R110, R337). -/
def State.prefLine (s : State) (die c : Nat) (rdc : Bool) (va : Nat) : State :=
  match (s.walkFrom c va none).1 with
  | .leaf lvl e epa =>
    let pa := (tlbOf die c va lvl e epa).phys va
    if e.type != 0 || !s.present pa || !s.holds pa 128 || !s.reachable pa || !s.memRdy (some die) true pa then s
    else if !rdc || s.homeHere die pa then s.fillLine e.type pa
    else
      let cp : Copy := { die := die, core := none, line := pa / 128, data := BitVec.ofNat 1024 (s.rd (pa / 128 * 128) 128), asOf := s.writes }
      { s.fillLine e.type pa with copies := cp :: s.copies.filter (fun x => !(x.die == die && x.core == none && x.line == pa / 128)) }
  | _ => s
/-- A request to a tier engine for every movable page (R139). -/
def State.prefPage (s : State) (c va : Nat) (near : Bool) : State :=
  match s.movable c va with
  | some (_, _, d) => if !near && s.held c va then s else s.tierAsk d c va near false
  | none => s
/-- PREF (R337, R139). -/
def execPref (t a : BitVec 7) (r : BitVec 4) (z : BitVec 3) (g : BitVec 2) (s : State) : Out :=
  .next (s.issue (fPref t a g (!Instr.wf (.pref t a r z g)) (z.toNat == 3)) never (fun i s =>
    (i.E.foldl (fun s L =>
      let va := mVa r a i L
      let len := ((i.l L).v t.toNat).toNat
      let s1 : State := match z.toNat with
        | 0 => (linesOf va len).foldl (fun (s : State) p => s.prefLine i.die i.c false p) s
        | 1 => (linesOf va len).foldl (fun (s : State) p => s.prefLine i.die i.c true p) s
        | 2 => (pagesOf va len).foldl (fun (s : State) p => s.prefPage i.c p true) s
        | 3 => (pagesOf va len).foldl (fun (s : State) p => s.prefPage i.c p false) s
        | _ => s
      s1.updLane i.uid L Lane.adv) s, [])))
/-- IPREF brings code into the instruction cache: a word fetched is the same either way (R338). -/
def execIpref (a : BitVec 7) (c : BitVec 11) (s : State) : Out :=
  .next (s.regIssue (fun _ _ => { srcs := [srcBlk a], bad := !Instr.wf (.ipref a c) }) (fun _ _ _ l => .ok l.adv))

/-! ## Base registers (R339) -/

/-- The 72-bit value in three registers. -/
def baseVal (l : Lane) (a : BitVec 7) : BitVec 72 := BitVec.ofNat 72 (l.words a.toNat 3)
/-- BSET: the value, equal in every executing lane, becomes b[N] of the whole wave; otherwise FMTDIV (R339). -/
def execBset (a : BitVec 7) (n : BitVec 4) (s : State) : Out :=
  .next (s.issue (fSYS [srcBlk a 3] []) never (fun i s =>
    let v := baseVal (i.l (i.E.headD 0)) a
    if i.E.all (fun L => baseVal (i.l L) a == v) then
      laneBody (fun _ _ _ l => .ok l.adv) i (s.updWave i.uid (fun w => { w with bases := w.bases.set n.toNat v }))
    else (s, i.E.map (fun L => (L, (i.l L).trapHere tkFMTDIV 0)))))
/-- BGET: b[N] into three registers, at once (R339, R321). -/
def execBget (d : BitVec 7) (n : BitVec 4) (s : State) : Out :=
  .next (s.regIssue (fSYS [] [(d.toNat, 3)]) (fun _ i _ l =>
    .ok (l.setFrom d.toNat (wordsOf 3 (i.w.bases.getD n.toNat 0).toNat)).adv))

/-! ## Fences (R152, R155, R340) -/

/-- The accesses that a FENCE of this kind and scope waits for: host-window and device pages at scope system only. -/
def fenceOf (k : BitVec 2) (sc : BitVec 3) (a : Acc) : Bool :=
  (sc == 6 || !a.outside) &&
    (match k.toNat with
     | 2 => !a.op.isEst && a.op.returns
     | 3 => true
     | _ => !a.op.isEst)
/-- FENCE (R152). -/
def execFence (k : BitVec 2) (z : BitVec 3) (s : State) : Out :=
  .next (s.issueForced (fun _ _ => { bad := !Instr.wf (.fence k z) }) (fun _ _ => fenceOf k z) true never (fun i s =>
    laneBody (fun _ _ _ l => .ok l.adv) i (s.fence (i.whos s) k.toNat z.toNat)))

/-- The accesses that an XFENCE waits for: to-engine all of them, with the ESU domain also estimator operations;
from-engine the reads. -/
def xfenceOf (d : BitVec 1) (m : BitVec 3) (a : Acc) : Bool :=
  if d = 0 then !a.op.isEst || m.toNat == 3 else a.op.returns && !a.op.isEst
/-- XFENCE (R155, R340): from-engine drops the copies of the lane's core and die, and the engine's writes are ones that the lanes' later
accesses return wherever they run; to the traversal engines it orders the lane's accesses before the walks that it starts; to the ESUs it
drops the context's region descriptors. -/
def execXfence (d : BitVec 1) (m : BitVec 3) (s : State) : Out :=
  .next (s.issueForced (fun _ _ => { bad := !Instr.wf (.xfence d m) }) (fun _ _ => xfenceOf d m) true never (fun i s =>
    laneBody (fun _ _ _ l => .ok l.adv) i
      (if d = 1 then (s.dropCopies i.die i.core).fromEngine (i.whos s) m.toNat
       else if m.toNat = 1 then s.xfenceTrav (i.whos s)
       else if m.toNat = 3 then { s with esuDescs := s.esuDescs.filter (fun x => x.ctx != i.c) }
       else s)))

end Sys2Proof.Machine
end

