-- ==== Sys2Proof/Machine/Sync.lean ====
section
/-!
DEFINITION. Barriers, tickets, and the instructions that reach queues and rings: R341 to R345, R349 to R351.
-/

namespace Sys2Proof.Machine

/-! ## Barriers (R341 to R343) -/

inductive BarKind where | sync | arrive | wait
deriving DecidableEq, Repr

/-- Barrier b of a team. -/
def State.bar (s : State) (tid b : Nat) : Bar := match s.team? tid with | some t => t.bars.getD b {} | none => {}
def State.updBar (s : State) (tid b : Nat) (f : Bar → Bar) : State := s.updTeam tid (fun t => { t with bars := listUpd t.bars b f })
/-- Number of a lane within its team: 32 times its wave, plus its lane (R250). -/
def laneKey (w : Wave) (L : Nat) : Nat := 32 * w.idx + L
def Bar.has (b : Bar) (key : Nat) : Bool := b.arrived.getLsbD key
def Bar.arrive (b : Bar) (key : Nat) : Bar := { b with arrived := b.arrived ||| 1#1024 <<< key, last := Tab.put b.last key b.phase }
/-- The phase in which the lane last arrived has not completed. -/
def Bar.waits (b : Bar) (key : Nat) : Bool := Tab.find b.last key == some b.phase
def Bar.forget (b : Bar) (key : Nat) : Bar := { b with last := Tab.drop b.last key }

/-- The scope of the edges of a barrier: the team, or its cluster; a Caddy or routine wave is a team of one wave (R78, R153). -/
def barScope (t : Team) (b : Nat) : Nat := if t.kind != .dealt then 0 else if b = 16 then 2 else 1
/-- A phase of a barrier, as what it orders goes by: of the team, or for barrier 16 of its cluster (R153, R343). -/
def barKey (t : Team) (b : Nat) (phase : BitVec 32) : Sync := .bar (if b = 16 then t.cluster.getD t.tid else t.tid) b phase
/-- One lane at BAR (R342): it arrives, unless it has arrived in the open phase; then it waits for that phase. -/
def State.barLane (s : State) (i : Iss) (b : Nat) (k : BarKind) (L : Nat) : State :=
  let key := laneKey i.w L
  let bar := s.bar i.t.tid b
  if k != .wait && bar.has key then s.block i.uid L (.bar b bar.phase true (k == .sync))
  else
    let s1 := if k = .wait then s
      else (s.release [s.whoOf i.uid L] (barScope i.t b) [barKey i.t b bar.phase]).updBar i.t.tid b (fun x => x.arrive key)
    if k = .arrive then s1.updLane i.uid L Lane.adv
    else if (s1.bar i.t.tid b).waits key then s1.block i.uid L (.bar b bar.phase false true)
    else ((s1.updBar i.t.tid b (fun x => x.forget key)).obtainBar (s.whoOf i.uid L) (barKey i.t b ((Tab.find bar.last key).getD 0))).updLane i.uid L
      Lane.adv

/-- A BAR form: its lanes' earlier accesses perform first (R153); in a routine it raises ROUTINE (R189). -/
def barOp (b : Nat) (k : BarKind) (s : State) : State :=
  s.issue (fun _ _ => { prd := false }) (waitIf (fun s i => i.E.any (fun L => (i.l L).routine.isNone && s.unquiet i.uid L anyAccess))) (fun i s =>
    let (bad, ok) := i.E.partition (fun L => (i.l L).routine.isSome)
    (ok.foldl (fun s L => s.barLane i b k L) s, bad.map (fun L => (L, (i.l L).trapHere tkROUTINE 0))))
/-- BAR.sync (R341, R342). -/
def execBarSync (b : BitVec 4) (s : State) : Out := .next (barOp b.toNat .sync s)
/-- BAR.arrive (R341, R342). -/
def execBarArrive (b : BitVec 4) (s : State) : Out := .next (barOp b.toNat .arrive s)
/-- BAR.wait (R341, R342). -/
def execBarWait (b : BitVec 4) (s : State) : Out := .next (barOp b.toNat .wait s)
/-- BAR.csync: barrier 16, of the cluster (R343). -/
def execBarCsync (s : State) : Out := .next (barOp 16 .sync s)

/-- The teams whose lanes take part in barrier b of a team: for 16 the teams of its cluster (R343). -/
def State.barTeams (s : State) (t : Team) (b : Nat) : List Team :=
  if b = 16 && t.cluster.isSome then s.teams.filter (fun u => u.gid == t.gid && u.cluster == t.cluster && u.st != .retired)
  else [t]
/-- Every participant of the team has arrived, or exited (R342). -/
def State.allArrived (s : State) (b : Nat) (t : Team) : Bool :=
  (s.wavesOf t.tid).all (fun w => (List.range w.lanes.length).all (fun L => !(w.lane L).live || (t.bars.getD b {}).has (laneKey w L)))
/-- The open phase is complete. -/
def State.phaseDone (s : State) (t : Team) (b : Nat) : Bool :=
  let ts := s.barTeams t b
  ts.any (fun u => (u.bars.getD b {}).arrived != 0) && ts.all (s.allArrived b)
/-- Lanes of a team that wait at barrier b, with their waits, in the order in which they blocked. -/
def State.barWaiters (s : State) (tid b : Nat) : List (Nat × Nat × BitVec 32 × Bool × Bool) :=
  (s.wavesOf tid).flatMap (fun w => (List.range w.lanes.length).filterMap (fun L =>
    match (w.lane L).st with
    | .blocked (.bar x ph arr wt) => if x = b then some (w.uid, L, ph, arr, wt) else none
    | _ => none))
/-- After a phase of barrier b has completed, a waiting lane goes on; one that was to arrive again arrives now (R342). -/
def State.barRelease (s : State) (t : Team) (b : Nat) (x : Nat × Nat × BitVec 32 × Bool × Bool) : State :=
  let (uid, L, ph, arr, wt) := x
  match s.wave? uid with
  | none => s
  | some w =>
    let key := laneKey w L
    if arr then
      let s1 := (s.release [s.whoOf uid L] (barScope t b) [barKey t b (s.bar t.tid b).phase]).updBar t.tid b (fun x => x.arrive key)
      if wt then s1.updLane uid L (fun l => { l with st := .blocked (.bar b (s1.bar t.tid b).phase false true) })
      else s1.unblock uid L (fun l => l)
    else ((s.updBar t.tid b (fun x => x.forget key)).obtainBar (s.whoOf uid L) (barKey t b ph)).unblock uid L (fun l => l)
/-- BARRIER_PHASE_COMPLETE of barrier m of team n (R342, R343). -/
def execBarrierPhaseComplete (s : State) : Out :=
  .next (match s.activeTeam? s.occ.n with
    | none => s
    | some t =>
      let b := s.occ.m
      if !s.phaseDone t b then s
      else
        let ts := s.barTeams t b
        let s1 := ts.foldl (fun s u => s.updBar u.tid b (fun x => { x with phase := x.phase + 1, arrived := 0 })) s
        ts.foldl (fun s u => (s1.barWaiters u.tid b).foldl (fun s x => s.barRelease u b x) s) s1)

/-! ## Tickets (R70, R344, R345) -/

/-- Ticket n of every team below t: some 1 when one is poisoned, some 0 when all are taken, none while ORDWAIT blocks. -/
def ticketState (g : Grid) (t : Team) (n : Nat) : Option Word :=
  if !ticketed g t then some 0
  else
    let below := (List.range t.ordinal).map g.ticketsOf
    if below.any (fun x => x.poisoned.getLsbD n) then some 1
    else if below.all (fun x => x.taken.getLsbD n) then some 0
    else none
/-- A ticket of a lower team of the grid (R345). -/
def lowerTicket (t : Team) (n : Nat) : Sync → Bool
  | .ticket g k m => g == t.gid && decide (k < t.ordinal) && m == n
  | _ => false
/-- ORDWAIT n's result is on its way; a return of 0 orders the lane's later accesses (R153, R345). -/
def State.ordLand (s : State) (t : Team) (n uid L d : Nat) (v pc : Word) : State :=
  (if v = 0 then s.obtain [s.whoOf uid L] (lowerTicket t n) else s).addLand uid L d [v] s.cycle pc false
/-- ORDWAIT (R345). -/
def execOrdwait (d : BitVec 7) (n : BitVec 4) (s : State) : Out :=
  .next (s.issue (fSYS [] [(d.toNat, 1)]) never (fun i s =>
    (i.E.foldl (fun s L =>
      match ticketState i.g i.t n.toNat with
      | some v => (s.goOn i L (d.toNat, 1)).ordLand i.t n.toNat i.uid L d.toNat v (i.l L).pc
      | none => (s.updLane i.uid L (fun l => l.mark l.pc d.toNat 1)).block i.uid L (.ordwait n.toNat d.toNat)) s, [])))
/-- ORDWAIT_RELEASE of lane m of wave n (R345). -/
def execOrdwaitRelease (s : State) : Out :=
  .next (match s.activeWave? s.occ.n with
    | none => s
    | some w =>
      let t := s.teamOf w
      match (w.lane s.occ.m).st with
      | .blocked (.ordwait n d) =>
        match ticketState (s.gridOf t) t n with
        | some v => (s.ordLand t n w.uid s.occ.m d v (w.lane s.occ.m).pc).unblock w.uid s.occ.m (fun l => l)
        | none => s
      | _ => s)
/-- ORDTAKE: the lane's earlier accesses first, then the ticket (R345, R153). -/
def execOrdtake (n : BitVec 4) (s : State) : Out :=
  .next (s.issueForced (fSYS [] []) (fun _ _ => anyWrite) false (waitQuiet anyAccess) (fun i s =>
    let s0 := s.updTeam i.t.tid (fun t => { t with marked := true })
    let s1 := if ticketed i.g i.t then s0.release (i.whos s) 5 [.ticket i.t.gid i.t.ordinal n.toNat] else s0
    if !ticketed i.g i.t then laneBody (fun _ _ _ l => .ok l.adv) i s1
    else if ticketState i.g i.t n.toNat == some 1 then
      (s0, i.E.map (fun L => (L, (i.l L).trapHere tkTICKETPOISON (n.zeroExtend 32))))
    else
      laneBody (fun _ _ _ l => .ok l.adv) i (s1.updGrid i.t.gid (fun g => g.updTickets i.t.ordinal (fun x =>
        { x with taken := x.taken ||| 1#16 <<< n.toNat })))))

/-! ## RWAIT and RREL (R350, R351) -/

/-- b[N] of a SYS form in lane L. -/
def sysVa (n : BitVec 4) (i : Iss) (L : Nat) : Nat := baseOf i.w (i.l L) n.toNat
/-- WIDX of a ring header as it stands, its address, the page's TYPE and LOG: none where it cannot be read. -/
def State.ringIdx (s : State) (c va : Nat) : Option (Nat × Nat × Nat × Bool) :=
  match (s.walkFrom c va none).1 with
  | .leaf lvl e epa =>
    let pa := (tlbOf 0 c va lvl e epa).phys va
    if s.present pa && s.holds pa 8 && s.reachable pa && s.memRdy none true pa then some (s.rd pa 8, pa, e.type, e.log) else none
  | _ => none
/-- A lane's .acq load of WIDX, with domain scope, has performed there (R350). -/
def State.sawRing (s : State) (uid L pa type : Nat) : State := (s.sawWhole (s.whoOf uid L) none pa 8 .acq type).fillLine type pa
/-- The WIDX that each lane of an RWAIT reads. -/
def rwaitWholes (n : BitVec 4) (s : State) (i : Iss) : List Whole :=
  s.wholes i .ring (fun i L => [(sysVa n i L, 8)]) (i.E.filter (fun L => sysVa n i L % 8 == 0))
/-- The .acq load of an RWAIT in lane L, where its page lets it through (R350). -/
def rwaitAcc (n : BitVec 4) (s : State) (i : Iss) (L : Nat) : Option Acc :=
  match s.laneXl i (sysVa n i L) 8 .ring with
  | .ok pa e =>
    let q := s.whoOf i.uid L
    some { accOf (.load 0 0) pa 8 with uid := q.uid, me := q.me, home := q.tid, die := q.die, ord := .acq, type := e.type }
  | _ => none
/-- RWAIT: an .acq load of WIDX once the lane's earlier accesses that it follows have performed; the lane blocks until it is above its
index (R350). -/
def execRwait (a : BitVec 7) (n : BitVec 4) (s : State) : Out :=
  .next (s.issue (fSYSx [srcBlk a 2] []) (fun s i =>
      match needPages (alignedVas 8 (sysVa n)) s i with
      | some s1 => some s1
      | none => (match waitBefore (rwaitAcc n) s i with | some s1 => some s1 | none => waitWholes (rwaitWholes n) s i))
    (fun i s => memBody .ring 8 8 (sysVa n) (0, 0) (fun i L pa e s0 =>
      let idx := ((i.l L).pair a.toNat).toNat
      let s := s0.sawRing i.uid L pa e.type
      if decide (idx < s.rd pa 8) then s.goOn i L (0, 0)
      else s.block i.uid L (.rwait idx (sysVa n i L))) i (s.passed i (rwaitWholes n s i))))
/-- A load of WIDX by a blocked lane, at its logged point on a LOG page (R256). Only the load that lets the lane go on is one (log 147). -/
def State.ringGate (s : State) (w : Wave) (L pa : Nat) (log : Bool) : Bool × State :=
  let t := s.teamOf w
  let g := s.gridOf t
  if !log then (true, s)
  else
    let a : Acc := { accOf (.load 0 0) pa 8 with wave := w.idx, lane := L, count := (w.lane L).opCount }
    let r := s.ssGate (g.logOrd.isSome && s.isLocal pa) (paDie pa) (accPoint 1 (paSlice pa) g t a)
    if r.1 then (true, r.2.updLane w.uid L (fun l => { l with opCount := l.opCount + 1 })) else r
/-- RWAIT_RELEASE of lane m of wave n: its load of WIDX returns a value above its index (R350). -/
def execRwaitRelease (s : State) : Out :=
  .next (match s.activeWave? s.occ.n with
    | none => s
    | some w =>
      let t := s.teamOf w
      match (w.lane s.occ.m).st with
      | .blocked (.rwait idx va) =>
        match s.ringIdx t.ctx va with
        | some (x, pa, type, log) =>
          if !(idx < x) then s
          else
            let g := s.ringGate w s.occ.m pa log
            if g.1 then (g.2.sawRing w.uid s.occ.m pa type).unblock w.uid s.occ.m (fun l => l) else g.2
        | none => s
      | _ => s)
/-- The access of an RREL in lane L. -/
def rrelAcc (i : Iss) (L : Nat) (a : BitVec 7) (n : BitVec 4) (pa : Nat) (e : Pte) : Acc :=
  { accOf (.rrel ((i.l L).pair a.toNat)) pa 16 with va := BitVec.ofNat 72 (sysVa n i L), type := e.type, log := e.log, posted := true }
/-- RREL: one SC atomic on WIDX and RELIDX (R351). -/
def execRrel (a : BitVec 7) (n : BitVec 4) (s : State) : Out :=
  .next (s.issue (fSYSx [srcBlk a 2] []) (needPages (alignedVas 8 (sysVa n)))
    (memBody (.atomic 1) 8 16 (sysVa n) (0, 0) (fun i L pa e s => (s.addAcc i L (rrelAcc i L a n pa e)).goOn i L (0, 0))))

/-! ## QPUSH (R35, R349) -/

/-- The queue header as QPUSH reads it: READIDX, SLOTSVA, LOGSLOTS, QKIND (R33). -/
structure QHdr where
  readidx : Nat
  slots : Nat
  logslots : Nat
  qkind : Nat
deriving DecidableEq, Repr
def State.qhdr (s : State) (pa : Nat) : QHdr :=
  { readidx := s.rd (pa + 8) 8, slots := s.rd (pa + 16) 9, logslots := s.rd (pa + 25) 1, qkind := s.rd (pa + 27) 1 }
/-- The header takes no packets by QPUSH (R349). -/
def QHdr.bad (h : QHdr) : Bool := h.qkind == 3 || decide (h.logslots < 4) || decide (20 < h.logslots)
/-- The header of lane L's queue, aligned for its 8-byte fields, once its page is translated (R93). -/
def State.qhdrAt (s : State) (i : Iss) (n : BitVec 4) (L : Nat) : Option QHdr :=
  if sysVa n i L % 8 != 0 then none
  else
    match s.laneXl i (sysVa n i L) 32 .load with
    | .ok pa _ => some (s.qhdr pa)
    | _ => none
/-- The packet of a lane: 16 registers. -/
def pktOf (l : Lane) (a : BitVec 7) : BitVec 512 := BitVec.ofNat 512 (l.words a.toNat 16)
/-- VA of the slot a lane has claimed, by the header that it read for its claim (R349). -/
def slotVa (i : Iss) (L : Nat) : Nat := ((i.l L).ring.1 + 64 * ((i.l L).claim.getD 0 % 2 ^ (i.l L).ring.2)) % 2 ^ 72
/-- The lane's slot is free: READIDX is read anew (R35, step 2). -/
def slotFree (s : State) (n : BitVec 4) (i : Iss) (L : Nat) : Bool :=
  match s.qhdrAt i n L with
  | some h => decide (((i.l L).claim.getD 0 + 2 ^ 64 - h.readidx) % 2 ^ 64 < 2 ^ (i.l L).ring.2)
  | none => true
/-- The lanes that have claimed a slot which is free now. -/
def Iss.placed (s : State) (n : BitVec 4) (i : Iss) : Iss := { i with E := i.claimed.E.filter (fun L => slotFree s n i L) }

/-- The lanes whose packet has a KIND: these claim (R349). -/
def Iss.pushers (i : Iss) (a : BitVec 7) : Iss := { i with E := i.E.filter (fun L => (i.l L).v a.toNat &&& 0xFF != 0) }

/-- Bytes of the queue's header, from an offset, that these lanes read with SC loads (R349). Which reads are logged points is deduced (log 147). -/
def hdrWholes (n : BitVec 4) (off len : Nat) (s : State) (i : Iss) (Ls : List Nat) : List Whole :=
  Ls.flatMap (fun L =>
    if sysVa n i L % 8 != 0 then []
    else match s.laneXl i (sysVa n i L) 32 .load with
      | .ok pa e => [{ lane := L, pa := pa + off, n := len, e }]
      | _ => [])
/-- Bytes 8 to 31 of the header, read once for the lanes of an instruction before they claim. -/
def headWholes (n : BitVec 4) (s : State) (i : Iss) : List Whole := hdrWholes n 8 24 s i [i.E.headD 0]
/-- READIDX, as each lane that finds its slot free reads it. -/
def freeWholes (n : BitVec 4) (s : State) (i : Iss) : List Whole := hdrWholes n 8 8 s i (i.placed s n).E

/-- What QPUSH waits for: before a claim the header's page, a migration of it (R136), the lanes' earlier accesses that its SC accesses follow
(R148) and the logged points; after it a free slot, the slot's page, and the logged points of READIDX. -/
def qpushBusy (n : BitVec 4) (a : BitVec 7) : State → Iss → Option State := fun s i =>
  if i.claimed.E != [] then
    match needPages (fun i => i.E.map (sysVa n i)) s i.claimed with
    | some s1 => some s1
    | none =>
      if (i.placed s n).E = [] then some s
      else
        match needPages (fun i => i.E.map (slotVa i)) s (i.placed s n) with
        | some s1 => some s1
        | none => waitWholes (freeWholes n) s i
  else
    match needPages (alignedVas 8 (sysVa n)) s i with
    | some s1 => some s1
    | none =>
      match s.qhdrAt i n (i.E.headD 0), s.laneXl i (sysVa n i (i.E.headD 0)) 32 (.atomic 0) with
      | some h, .ok pa e =>
        if h.bad || (i.pushers a).E == [] then waitWholes (headWholes n) s i
        else if s.migHeld pa || (i.pushers a).E.any (fun L => s.ordersPend i.uid L { accOf (.atom 0 0 0 none) pa 32 with type := e.type }) then some s
        else
          match waitWholes (headWholes n) s i with
          | some s1 => some s1
          | none =>
            let s1 := s.passed i (headWholes n s i)
            let g := s1.ssGate (claimLogged s i pa) (paDie pa) (claimPoint s1 (i.pushers a) pa)
            if g.1 then none else some { s with dbg := { s.dbg with ssHeld := g.2.dbg.ssHeld } }
      | _, _ => waitWholes (headWholes n) s i

/-- The lanes of one QPUSH claim their slots with one atomic add, of a queue with this header (R349). -/
def State.qpushClaim (s : State) (i : Iss) (d : BitVec 7) (pa type : Nat) (h : QHdr) : State :=
  let s0 := s.rd pa 8
  let s1 := (s.wr pa 8 (s0 + i.E.length)).movedBytes i.c pa 8
  let s2 := ((s1.sawClaim i pa 8 .sc s.writes).fillLine type pa).updLane i.uid (i.E.headD 0) (fun l => { l with opCount := l.opCount + 1 })
  ((List.range i.E.length).zip i.E).foldl (fun s x =>
    s.updWave i.uid (fun w => w.updLane x.2 (fun l => { ((l.keep w).mark l.pc d.toNat 1) with
      claim := some ((s0 + x.1) % 2 ^ 64), ring := (h.slots, h.logslots) }))) s2

/-- The accesses that write a packet: bytes 1 to 63 with .wk, SEQ from the claimed index, then KIND with .rel (R349). -/
def qpushAccs (i : Iss) (L : Nat) (a : BitVec 7) (va pa : Nat) (e : Pte) : List Acc :=
  let bs := recordBytes (pktOf (i.l L) a)
  let bs1 := bs.take 2 ++ leBytes 2 ((i.l L).claim.getD 0) ++ bs.drop 4
  ([(1, 1, .wk), (2, 2, .wk), (4, 4, .wk), (8, 8, .wk), (16, 16, .wk), (32, 16, .wk), (48, 16, .wk), (0, 1, .rel)] : List (Nat × Nat × Ord)).map (fun x =>
    { accOf .store (pa + x.1) x.2.1 with
      va := BitVec.ofNat 72 (va + x.1), data := BitVec.ofNat 128 (leNat ((bs1.drop x.1).take x.2.1)), ord := x.2.2, type := e.type, log := e.log
      posted := true })
/-- A lane writes its packet, and goes on with its index on the way (R349). -/
def State.qpushStore (s : State) (i : Iss) (L : Nat) (d a : BitVec 7) (va pa : Nat) (e : Pte) : State :=
  let k := (i.l L).claim.getD 0
  let s1 := (qpushAccs i L a va pa e).foldl (fun (s : State) x => s.addAccAt i L 5 x) s
  (s1.updLane i.uid L Lane.adv).addLand i.uid L d.toNat [lo32 k] (s.replyDue i.die) (i.l L).pc false

/-- What the lanes of a QPUSH do: those that have claimed write their packets as their slots come free; otherwise the header is read, lanes
with an empty KIND trap, and the others claim (R349). -/
def qpushBody (d a : BitVec 7) (n : BitVec 4) (i : Iss) (s : State) : State × Traps :=
  if i.claimed.E != [] then
    let stuck := i.claimed.E.filter (fun L => (s.qhdrAt i n L).isNone)
    let (s1, t1) := memBody .load 8 32 (sysVa n) (d.toNat, 1) (fun _ _ _ _ s => s) { i with E := stuck } s
    let ready := (i.placed s n).E.filter (fun L => !stuck.contains L)
    let ws := freeWholes n s i
    let (s2, t2) := memBody .store 64 64 slotVa (d.toNat, 1) (fun i L pa e s1 => s1.qpushStore i L d a (slotVa i L) pa e)
      { i with E := ready } ((s1.passed i ws).sawAll i .sc ws)
    (s2, t1 ++ t2)
  else
    let hva := sysVa n i (i.E.headD 0)
    match s.qhdrAt i n (i.E.headD 0) with
    | none => memBody .load 8 32 (sysVa n) (d.toNat, 1) (fun _ _ _ _ s => s) i s
    | some h =>
      let ws := headWholes n s i
      let s := (s.passed i ws).sawAll i .sc (i.eachLane ws)
      if h.bad then
        (s, i.E.map (fun L => (L, ((i.l L).trapHere tkACCESS 0).withVa hva)))
      else
        let i1 := i.pushers a
        let bad := i.E.filter (fun L => !i1.E.contains L)
        let ts := bad.map (fun L => (L, (i.l L).trapHere tkILLEGAL 0))
        if i1.E = [] then (s, ts)
        else
          match s.laneXl i hva 32 (.atomic 0) with
          | .ok pa e =>
            (((s.ssGate (claimLogged s i pa) (paDie pa) (claimPoint s i1 pa)).2.setDirty i.die i.c hva).qpushClaim i1 d pa e.type h, ts)
          | _ =>
            let (s1, t1) := memBody (.atomic 0) 8 32 (sysVa n) (d.toNat, 1) (fun _ _ _ _ s => s) i1 s
            (s1, ts ++ t1)
/-- QPUSH: a lane that has claimed writes its packet once its earlier writes have performed (R349, R151). -/
def execQpush (d a : BitVec 7) (n : BitVec 4) (s : State) : Out :=
  let fr (s : State) (i : Iss) (L : Nat) : Force := s.force i.uid L (fun x => (i.l L).claim.isSome && anyWrite x) false
  .next (s.issue (fSYSx [srcBlk a 16] [(d.toNat, 1)]) (forcedBusy fr (qpushBusy n a)) (fun i s =>
    let r := forcedBody fr (qpushBody d a n) i s
    (r.1.unclaim i.uid r.2, r.2)))

end Sys2Proof.Machine
end

