-- ==== Sys2Proof/Machine/Est.lean ====
section
/-!
DEFINITION. Estimator instructions at issue and their operations at the home ESU: R160 to R174, R346 to R348.
-/

namespace Sys2Proof.Machine

/-! ## Descriptors (R162, R163) -/

/-- What reading a region descriptor finds. -/
inductive Desc where
  | good (r : Region)
  | bad
  | wait
deriving DecidableEq, Repr

/-- VA of a region descriptor. -/
def State.descVa (s : State) (c rg : Nat) : Nat := ((s.ctx c).ertva + 64 * rg) % 2 ^ 72
/-- A descriptor as it stands in memory. -/
def State.descRd (s : State) (c rg : Nat) : Desc :=
  match s.engRd c (s.descVa c rg) 64 with
  | .ok (bs, _) => (match regionOf (BitVec.ofNat 512 (leNat bs)) with | some r => .good r | none => .bad)
  | .fault _ => .bad
  | .wait => .wait
/-- An ESU reads a region's descriptor: the generation there is in force at it, and those made before are behind it (R168). -/
def State.behind (s : State) (die esu c rg : Nat) : State :=
  let rest (g : GenPend) : GenPend := if g.ctx == c && g.rg == rg then { g with left := g.left.filter (fun y => y != (die, esu)) } else g
  { s with gens := (s.gens.map rest).filter (fun g => g.left != []) }
/-- An ESU's descriptor: its cached copy, or the one in memory, which it then caches, dropping its oldest of 32. -/
def State.esuDesc (s : State) (die esu c rg : Nat) : Desc × State :=
  let mine (x : EsuDesc) : Bool := x.die == die && x.esu == esu
  match s.esuDescs.find? (fun x => mine x && x.ctx == c && x.rg == rg) with
  | some x => (match regionOf x.desc with | some r => (.good r, s) | none => (.bad, s))
  | none =>
    match s.engRd c (s.descVa c rg) 64 with
    | .wait => (.wait, s)
    | .fault _ => (.bad, s)
    | .ok (bs, s0) =>
      let s1 := s0.behind die esu c rg
      let d : BitVec 512 := BitVec.ofNat 512 (leNat bs)
      match regionOf d with
      | none => (.bad, s1)
      | some r =>
        let keep := if decide (32 ≤ (s1.esuDescs.filter mine).length) then (match s1.esuDescs.find? mine with | some o => s1.esuDescs.erase o | none => s1.esuDescs) else s1.esuDescs
        (.good r, { s1 with esuDescs := keep ++ [{ die := die, esu := esu, ctx := c, rg := rg, desc := d }] })

/-! ## Issue (R163, R346 to R348) -/

/-- The checks of a lane: ESTREGION with its detail, for cells from first to first + count − 1 each (R163). -/
def State.estCheck (s : State) (i : Iss) (L rg : Nat) (cells : List (Nat × Nat)) : Option Trap :=
  let bad (n : Nat) := some ((i.l L).trapHere tkESTREGION (lo32 n))
  if (s.ctx i.c).ertcount ≤ rg then bad 1
  else
    match s.descRd i.c rg with
    | .good r => if cells.any (fun x => decide (r.cells < x.1 + x.2)) then bad 3 else none
    | _ => bad 2
/-- The descriptor's memory is not ready yet. -/
def State.estWait (s : State) (i : Iss) (rg : Nat) : Bool := decide (rg < (s.ctx i.c).ertcount) && s.descRd i.c rg == .wait
/-- VA of a cell. -/
def State.cellVa (s : State) (c rg cell : Nat) : Nat :=
  match s.descRd c rg with | .good r => (r.base + 16 * cell) % 2 ^ 72 | _ => 0

/-- An estimator instruction: ranges are the cells a lane's checks cover, cells those translated at issue; go adds its
operation, given the first cell's address and the cells' physical addresses. -/
def estOp (ff : FormF) (rg : Nat) (dst : Nat × Nat) (ranges : Iss → Nat → List (Nat × Nat)) (cells : Iss → Nat → List Nat)
    (go : Iss → Nat → Nat → List (Nat × Pte) → State → State) (s : State) : State :=
  let vas (s : State) (i : Iss) (L : Nat) : List (Nat × Nat) := (cells i L).map (fun c => (s.cellVa i.c rg c, 16))
  let good (s : State) (i : Iss) : List Nat := i.E.filter (fun L => (s.estCheck i L rg (ranges i L)).isNone)
  s.issue ff (fun s i =>
    if s.estWait i rg then some s
    else needPages (fun j => (good s j).flatMap (fun L => (vas s j L).map (fun x => x.1))) s i) (fun i s =>
    let ts := i.E.filterMap (fun L => (s.estCheck i L rg (ranges i L)).map (fun t => (L, t)))
    let (s1, t1) := memBodyN .est (vas s) dst (fun j L ps s1 => go j L ((vas s j L).headD (0, 0)).1 ps s1) { i with E := good s i } s
    (s1, ts ++ t1))

/-- The operation of a lane on its cell joins those on their way to the ESUs; a second cell's address goes with it. -/
def State.addEst (s : State) (i : Iss) (L va : Nat) (op : AccOp) (ps : List (Nat × Pte)) (posted : Bool) : State :=
  let p := ps.headD (0, 0)
  s.addAcc i L { accOf op p.1 16 with
    va := BitVec.ofNat 72 va, type := 1, log := p.2.log, posted, data := BitVec.ofNat 128 ((ps.getD 1 (0, 0)).1) }

/-- The sample register of EST, with its weight register under XMOD WT (R346). -/
def fEst (x i : BitVec 7) : FormF := fun h _ =>
  let wt := match h.xmod with | some p => xmWT p | none => false
  { xmod := true, est := true, srcs := [srcBlk x (if wt then 2 else 1), srcBlk i] }
/-- The weight of an EST in units of 1/256. -/
def estW (i : Iss) (L : Nat) (x : BitVec 7) : Nat :=
  match (i.h L).xmod with
  | some p => if xmWT p then ((i.l L).v (x.toNat + 1)).toNat % 2 ^ 24 else 256
  | none => 256
/-- The cell index of a lane. -/
def cellOf (i : Iss) (L : Nat) (r : BitVec 7) : Nat := ((i.l L).v r.toNat).toNat
def cell2Of (i : Iss) (L : Nat) (r : BitVec 7) : Nat := ((i.l L).v (r.toNat + 1)).toNat
def fEop (i : BitVec 7) (n : Nat) (dsts : List (Nat × Nat)) : FormF := fun _ _ => { xmod := true, srcs := [srcBlk i n], dsts }

/-- EST (R346). -/
def execEst (x i : BitVec 7) (r : BitVec 11) (s : State) : Out :=
  .next (estOp (fEst x i) r.toNat (0, 0) (fun j L => [(cellOf j L i, 1)]) (fun j L => [cellOf j L i]) (fun j L va ps s =>
    (s.addEst j L va (.est r.toNat (cellOf j L i) ((j.l L).v x.toNat) (estW j L x)) ps true).goOn j L (0, 0)) s)
/-- ELD (R347). -/
def execEld (x i : BitVec 7) (r : BitVec 11) (s : State) : Out :=
  .next (estOp (fun _ _ => { xmod := true, srcs := [srcBlk i], dsts := [(x.toNat, 4)] }) r.toNat (x.toNat, 4)
    (fun j L => [(cellOf j L i, 1)]) (fun j L => [cellOf j L i]) (fun j L va ps s =>
      (s.addEst j L va (.eld r.toNat (cellOf j L i) x.toNat) ps false).goOn j L (x.toNat, 4)) s)
/-- EMRG (R348, R170). -/
def execEmrg (i : BitVec 7) (r : BitVec 11) (s : State) : Out :=
  .next (estOp (fEop i 2 []) r.toNat (0, 0) (fun j L => [(cellOf j L i, 1), (cell2Of j L i, 1)])
    (fun j L => [cellOf j L i, cell2Of j L i]) (fun j L va ps s =>
      (s.addEst j L va (.emrg r.toNat (cellOf j L i) (cell2Of j L i)) ps true).goOn j L (0, 0)) s)
/-- ECLR (R348). -/
def execEclr (i : BitVec 7) (r : BitVec 11) (s : State) : Out :=
  .next (estOp (fEop i 1 []) r.toNat (0, 0) (fun j L => [(cellOf j L i, 1)]) (fun j L => [cellOf j L i]) (fun j L va ps s =>
    (s.addEst j L va (.eclr r.toNat (cellOf j L i)) ps true).goOn j L (0, 0)) s)
/-- ESWEEP: a count of 0 does nothing (R348). -/
def execEsweep (i : BitVec 7) (r : BitVec 11) (s : State) : Out :=
  .next (estOp (fEop i 2 []) r.toNat (0, 0) (fun j L => [(cellOf j L i, cell2Of j L i)])
    (fun j L => if cell2Of j L i = 0 then [] else [cellOf j L i]) (fun j L va ps s =>
      (if cell2Of j L i = 0 then s
       else s.addEst j L va (.esweep r.toNat (cellOf j L i) (cell2Of j L i) none) ps true).goOn j L (0, 0)) s)
/-- ERAW (R348). -/
def execEraw (i : BitVec 7) (r : BitVec 11) (s : State) : Out :=
  .next (estOp (fEop i 1 [(i.toNat, 4)]) r.toNat (i.toNat, 4) (fun j L => [(cellOf j L i, 1)]) (fun j L => [cellOf j L i])
    (fun j L va ps s =>
      (s.addEst j L va (.eraw r.toNat (cellOf j L i) i.toNat) ps false).goOn j L (i.toNat, 4)) s)
/-- EINIT (R348). -/
def execEinit (i : BitVec 7) (r : BitVec 11) (s : State) : Out :=
  .next (estOp (fEop i 4 []) r.toNat (0, 0) (fun j L => [(cellOf j L i, 1)]) (fun j L => [cellOf j L i]) (fun j L va ps s =>
    let v (k : Nat) : Word := (j.l L).v (i.toNat + k)
    (s.addEst j L va (.einit r.toNat (cellOf j L i) (v 1) (v 2) ((v 3).toNat % 2 ^ 24)) ps true).goOn j L (0, 0)) s)

/-! ## ESCENE (R168, R348) -/

/-- The generation that lane L's ESCENE made is still to be put in force somewhere. -/
def State.sceneOpen (s : State) (uid L : Nat) : Bool := s.gens.any (fun g => g.uid == uid && g.lane == L)
/-- VA of the GEN byte of a region's descriptor (R162). -/
def State.genVa (s : State) (c rg : Nat) : Nat := (s.descVa c rg + 16) % 2 ^ 72
/-- The atomics of these lanes on GEN, each at its logged point of kind 1 (R168, R256). -/
def State.sceneWholes (s : State) (i : Iss) (rg : Nat) (Ls : List Nat) : List Whole :=
  match s.laneXl i (s.genVa i.c rg) 1 .gen with
  | .ok pa e => Ls.map (fun lane => { lane, pa, n := 1, e := e ||| 0x80 })
  | _ => []
/-- Lane L's atomic makes a new generation in memory, which it has read and written (R147, R168; log 134); the ESUs that cache the descriptor
have still to take it. -/
def State.makeScene (s : State) (i : Iss) (L rg pa : Nat) (type : Nat) : State :=
  let g := (s.rd pa 1 + 1) % 256
  let left := (s.esuDescs.filter (fun x => x.ctx == i.c && x.rg == rg)).map (fun x => (x.die, x.esu))
  let s0 := s.wr pa 1 g
  let s1 := ((s0.touch { claimAcc i s L pa 1 .wk with type } true (some s.writes) s0.writes).fillLine type pa).updLane i.uid L (fun l => { l with begun := true })
  if left = [] then s1
  else
    { s1 with
      gens := s1.gens ++ [{ id := s1.fresh, ctx := i.c, rg := rg, gen := BitVec.ofNat 8 g, uid := i.uid, lane := L, left := left }]
      fresh := s1.fresh + 1 }
/-- ESCENE: the lane waits, eligible, until its generation is in force at every ESU (R168); before that, while a migration holds back
writes to the descriptor (R136). -/
def execEscene (r : BitVec 11) (s : State) : Out :=
  let rg := r.toNat
  let fresh (i : Iss) : Iss := { i with E := i.E.filter (fun L => !(i.l L).begun) }
  let va (s : State) (i : Iss) (_ : Nat) : Nat := s.genVa i.c rg
  .next (s.issue (fun _ _ => { xmod := true }) (fun s i =>
      if i.E.all (fun L => (i.l L).begun && s.sceneOpen i.uid L) then some s
      else if (fresh i).E = [] then none
      else if s.estWait i rg then some s
      else if (s.estCheck i ((fresh i).E.headD 0) rg []).isSome then none
      else
        match needPages (fun j => [va s j 0]) s i with
        | some s1 => some s1
        | none =>
          match s.laneXl i (va s i 0) 1 .gen with
          | .ok pa e =>
            if s.migHeld pa || (fresh i).E.any (fun L => s.ordersPend i.uid L { claimAcc i s L pa 1 .wk with type := e.type }) then some s
            else waitWholes (fun s i => s.sceneWholes i rg i.E) s (fresh i)
          | _ => none) (fun i s =>
    let done := i.E.filter (fun L => (i.l L).begun && !s.sceneOpen i.uid L)
    let s1 := s.updWave i.uid (fun w => done.foldl (fun w L => w.updLane L Lane.adv) w)
    let new := fresh i
    match s1.estCheck i (new.E.headD 0) rg [] with
    | some t => (s1, new.E.map (fun L => (L, { t with pc := (i.l L).pc, stop := (i.l L).pc, keep := (i.l L).hints })))
    | none => memBody .gen 1 1 (va s) (0, 0) (fun j L pa e s => s.makeScene j L rg pa e.type) new (s1.passed new (s1.sceneWholes new rg new.E))))

/-- ESU_GEN_IN_FORCE: generation n is put in force at ESU k of die m, earlier generations of the region first (R168). -/
def execEsuGenInForce (s : State) : Out :=
  .next (match s.gens.find? (fun g => g.id == s.occ.n) with
    | none => s
    | some g =>
      let at' := (s.occ.m, s.occ.k)
      let older := s.gens.any (fun x => x.ctx == g.ctx && x.rg == g.rg && decide (x.id < g.id) && x.left.contains at')
      let grid := match s.wave? g.uid with | some w => s.gridOf (s.teamOf w) | none => { gid := 0, ctx := 0, card := 0, src := .packet 0 0 }
      let p : SsPoint := { kind := 3, unit := s.occ.k, id := BitVec.ofNat 32 g.rg, wave := 0, lane := g.gen, grid := BitVec.ofNat 16 (grid.logOrd.getD 0), n := 0 }
      if !g.left.contains at' || older then s
      else
        let (open', s1) := s.ssGate (grid.logOrd.isSome && decide (s.occ.m < 4)) s.occ.m p
        if !open' then s1
        else
          let s2 : State := { s1 with
            esuDescs := s1.esuDescs.map (fun x => if x.die == s.occ.m && x.esu == s.occ.k && x.ctx == g.ctx && x.rg == g.rg then
              { x with desc := (x.desc &&& ~~~(0xFF#512 <<< 128)) ||| ((g.gen.zeroExtend 512) <<< 128) } else x)
            gens := (s1.gens.map (fun x => if x.id == g.id then { x with left := x.left.filter (fun y => y != at') } else x)).filter (fun x => x.left != []) }
          s2)

/-! ## Appends of request records (R171, R395) -/

/-- The append waits for the answer to a fault record (R171). -/
def State.appendFault (s : State) (a : Append) (va : Nat) : State :=
  let (seq, s1) := (s.noteLost a.ctx va).raiseFault a.ctx 5 1 va (a.die % 4) 0xFF 0xFF 0 0 a.hdr.toNat (.append a.id)
  { s1 with appends := s1.appends.map (fun x => if x.id == a.id then { a with fault := some seq, full := false, reread := false } else x) }
/-- The append stays, to be tried again. -/
def State.appendStay (s : State) (a : Append) : State :=
  { s with appends := s.appends.map (fun x => if x.id == a.id then { a with full := true, fault := none } else x) }
/-- The append is over; where its slot has been written, the monitors of an enabled ESTREQ queue count it (R79). -/
def State.appendDone (s : State) (a : Append) : State :=
  let s1 : State := { s with appends := s.appends.filter (fun x => x.id != a.id) }
  match a.slot with
  | none => s1
  | some k =>
    { s1 with queues := s1.queues.map (fun q =>
        if q.2.enable && q.2.ctx.toNat == a.ctx && q.2.qaddr.toNat * 256 == a.hdr.toNat && fieldAt q.2.hdr 27 1 == 3 then
          (q.1, { q.2 with present := q.2.present ++ [(k, s.cycle)] })
        else q) }
/-- An ESU has written a record since the state in which this many writes had been made: it is an engine's (R155), and its bytes have moved
(R254). -/
def State.noteAppend (s : State) (c va n since : Nat) : State :=
  match s.engXlate c va n false with
  | .ok (pa, _) => (s.byEngine 3 since).movedBytes c pa n
  | _ => s
/-- The limits of an ESTREQ queue's header (R171). -/
def reqHdrGood (bs : List Byte) : Bool :=
  decide (4 ≤ bsNat bs 25 1) && decide (bsNat bs 25 1 ≤ 20) && bsNat bs 16 9 % 64 == 0 && bsNat bs 27 1 == 3
/-- The second half: the record into the claimed slot, once it is free (R171, R35). The slots are where the claim found them, or, after
RETRY, where the header read anew has them. -/
def State.appendWrite (s : State) (a : Append) (slot : Nat) : State :=
  match s.engRd a.ctx a.hdr.toNat 32 with
  | .wait => s.appendStay a
  | .fault _ => s.appendFault a a.hdr.toNat
  | .ok (bs, s1) =>
    if a.reread && !reqHdrGood bs then s1.appendFault a a.hdr.toNat
    else
      let a1 : Append := { a with ring := if a.reread then (bsNat bs 16 9, bsNat bs 25 1) else a.ring, reread := false }
      if decide (2 ^ a1.ring.2 ≤ (slot + 2 ^ 64 - bsNat bs 8 8) % 2 ^ 64) then s1.appendStay a1
      else
        let va := (a1.ring.1 + 16 * (slot % 2 ^ a1.ring.2)) % 2 ^ 72
        match s1.engWr a.ctx va (leBytes 16 a.bytes.toNat) with
        | .ok s2 => (s2.noteAppend a.ctx va 16 s1.writes).appendDone a1
        | .fault _ => s1.appendFault a1 va
        | .wait => s1.appendStay a1
/-- Try an append from where it stands: the claim, then the write. -/
def State.appendTry (s : State) (a : Append) : State :=
  match a.slot with
  | some k => s.appendWrite a k
  | none =>
    match s.engRd a.ctx a.hdr.toNat 32 with
    | .wait => s.appendStay a
    | .fault _ => s.appendFault a a.hdr.toNat
    | .ok (bs, s1) =>
      if !reqHdrGood bs then s1.appendFault a a.hdr.toNat
      else
        match s1.engXlate a.ctx a.hdr.toNat 8 true with
        | .wait => s1.appendStay a
        | .fault _ => s1.appendFault a a.hdr.toNat
        | .ok (pa, s2) =>
          let (open', s3) := match a.pt with
            | some p => s2.ssGate (s2.isLocal pa) (paDie pa) { p with unit := paSlice pa }
            | none => (true, s2)
          if !open' then s3.appendStay a
          else
            let k := s3.rd pa 8
            let a1 : Append := { a with slot := some k, ring := (bsNat bs 16 9, bsNat bs 25 1), full := false, fault := none, reread := false }
            let s4 := (s3.wr pa 8 (k + 1)).movedBytes a.ctx pa 8
            ({ s4 with appends := s4.appends.map (fun x => if x.id == a.id then a1 else x) } : State).appendWrite a1 k
/-- ESU_APPEND_RESUME of append n (R171, R80). -/
def execEsuAppendResume (s : State) : Out :=
  .next (match s.appends.find? (fun a => a.id == s.occ.n) with
    | some a => if a.fault.isNone then s.appendTry a else s
    | none => s)

/-! ## Operations at the home ESU (R164 to R170) -/

/-- The number of the die an ESU is on; ESUs of other devices of the domain count on. -/
def State.esuDie (s : State) (pa : Nat) : Nat := if s.isLocal pa then paDie pa else 4 + 4 * paDev pa + paDie pa
/-- An ESU has 64 appends that wait (R171). -/
def State.esuFull (s : State) (die esu : Nat) : Bool :=
  decide (64 ≤ (s.appends.filter (fun a => a.die == die && a.esu == esu)).length)
/-- A record that is due is appended (R169, R171). -/
def State.raiseReq (s : State) (a : Acc) (pa : Nat) (r : Region) (c : Cell) (ix : Nat) : State :=
  if r.reqq = 0 then s
  else
    let g := match s.grid? a.gid with | some g => g | none => { gid := 0, ctx := 0, card := 0, src := .packet 0 0 }
    let t := match s.team? a.tid with | some t => t | none => { tid := 0, gid := 0, ctx := 0 }
    let ap : Append := { id := s.fresh, die := s.esuDie pa, esu := paSlice pa, ctx := a.ctx, hdr := BitVec.ofNat 72 r.reqq, bytes := c.record ix
                         pt := if g.logOrd.isSome then some (accPoint 1 0 g t a) else none }
    ({ s with appends := s.appends ++ [ap], fresh := s.fresh + 1 } : State).appendTry ap

def State.cellAt (s : State) (pa : Nat) : Cell := Cell.ofImage (s.rd pa 16)
def State.putCell (s : State) (pa : Nat) (c : Cell) : State := s.wr pa 16 c.image

/-- The request check, and the cell written back (R169). -/
def State.checkPut (s : State) (a : Acc) (pa : Nat) (r : Region) (c : Cell) (ix : Nat) : State :=
  let (c1, due) := c.check r
  let s1 := s.putCell pa c1
  if due then s1.raiseReq a pa r c1 ix else s1

/-- The operation of an access on its cell, with the region as its ESU holds it. EMRG of a cell with itself only brings and checks it
(R348); of two cells, the second has been read by now (R170). -/
def State.estDo (s : State) (a : Acc) (r : Region) : State :=
  let c := (s.cellAt a.addr).bring r.gen r.decay
  match a.op with
  | .est _ ix x w => s.checkPut a a.addr r (c.est x.toNat w) ix
  | .eld _ _ d => (s.putCell a.addr c).landFor a d ((c.stats r).map lo32) (s.homeDue a)
  | .emrg _ ia _ =>
    s.checkPut a a.addr r (match a.mate with | some b => c.merge (Cell.ofImage b.toNat) | none => c) ia
  | .eclr _ _ => s.putCell a.addr { gen := r.gen }
  | .eraw _ _ d => (s.putCell a.addr c).landFor a d (wordsOf 4 c.image) (s.homeDue a)
  | .einit _ _ mean m2 w => s.putCell a.addr (Cell.init mean.toNat m2.toNat w r.gen)
  | _ => s
/-- What an operation that its ESU drops still lands (R163). -/
def State.estDrop (s : State) (a : Acc) : State :=
  match a.op with
  | .eld _ _ d => s.landFor a d [lo32 fp32.nanBits, lo32 fp32.nanBits, lo32 fp32.nanBits, 1] (s.homeDue a)
  | .eraw _ _ d => s.landFor a d [0, 0, 0, 0] (s.homeDue a)
  | _ => s

/-- Where a sweep's next cell lies: none when its page is skipped (R163); wait. -/
def State.sweepPa (s : State) (c va : Nat) : Eng (Nat × State) :=
  match (s.walkFrom c va none).1 with
  | .bad cause => if cause = 3 then .wait else .fault cause
  | .leaf lvl e epa =>
    let pa := (tlbOf 0 c va lvl e epa).phys va
    if !e.write || e.type != 1 || !s.present pa || !s.holds pa 16 || !s.reachable pa then .fault 2
    else if !s.memRdy none true pa || s.migHeld pa then .wait
    else .ok (pa, if e.dirty && e.accessed then s else s.orPte epa 0x600)
/-- The point of an access at an address, with its lane's team and grid. -/
def State.pointAt (s : State) (kind : Nat) (a : Acc) (pa : Nat) : Bool × SsPoint :=
  let g := match s.grid? a.gid with | some g => g | none => { gid := 0, ctx := 0, card := 0, src := .packet 0 0 }
  let t := match s.team? a.tid with | some t => t | none => { tid := 0, gid := 0, ctx := 0 }
  (g.logOrd.isSome && s.isLocal pa, accPoint kind (paSlice pa) g t a)
/-- The team and grid of an access, for its logged point. -/
def State.pointOf (s : State) (kind : Nat) (a : Acc) : Bool × SsPoint := s.pointAt kind a a.addr
/-- The point of an estimator operation that arrives at the ESU of an address (R174, R256). -/
def State.esuGate (s : State) (a : Acc) (pa : Nat) : Bool × State :=
  let p := s.pointAt 2 a pa
  s.ssGate p.1 (paDie pa) p.2
/-- What a sweep does to one of its cells: the tile that has appended (R167, R169). -/
def State.sweepDo (s : State) (a : Acc) (pa : Nat) (r : Region) (ix : Nat) (tile : Option Nat) : State × Option Nat :=
  let c := (s.cellAt pa).bring r.gen r.decay
  if c.w = 0 && !r.emptylag then (s.putCell pa c, tile)
  else
    let (c1, due) := c.check r
    let s1 := s.putCell pa c1
    let t := ix / 2 ^ r.logtile
    if due && tile != some t && r.reqq != 0 then (s1.raiseReq a pa r c1 ix, some t) else (s1, tile)
/-- One cell of a sweep, which arrives at its own ESU: none when it must wait there (R163, R174; log 127). DESIGN CHOICE: where that ESU
finds the descriptor malformed, the cell is skipped and the sweep goes on (log 141). -/
def State.sweepCell (s : State) (a : Acc) (rg ix va : Nat) (tile : Option Nat) : State × Option (Option Nat) :=
  match s.sweepPa a.ctx va with
  | .wait => (s, none)
  | .fault _ => (s, some tile)
  | .ok (pa, s1) =>
    if s1.esuFull (s1.esuDie pa) (paSlice pa) then (s, none)
    else
      let g := s1.esuGate a pa
      if !g.1 then (g.2, none)
      else
        match g.2.esuDesc (s1.esuDie pa) (paSlice pa) a.ctx rg with
        | (.wait, _) => (s, none)
        | (.bad, s2) => (s2, some tile)
        | (.good r, s2) =>
          let (s3, t) := s2.sweepDo a pa r ix tile
          (s3.movedBytes a.ctx pa 16, some t)
/-- Sweep cells in ascending order until one must wait: the next cell, the cells left, and the tile. -/
def State.sweepGo (s : State) (a : Acc) (rg : Nat) : Nat → Nat → Nat → Option Nat → State × Nat × Nat × Option Nat
  | 0, ix, _, tile => (s, ix, 0, tile)
  | n + 1, ix, va, tile =>
    match s.sweepCell a rg ix va tile with
    | (s1, none) => (s1, ix, n + 1, tile)
    | (s1, some t) => State.sweepGo s1 a rg n (ix + 1) ((va + 16) % 2 ^ 72) t

/-- A DUMP holds the write at its core until its lane runs again (R250). -/
def State.dumpHeld (s : State) (a : Acc) : Bool :=
  a.posted && (match s.wave? a.uid with | some w => (w.lane a.lane).stillDumped | none => false)
/-- The access leaves the list. -/
def State.dropAcc (s : State) (id : Nat) : State := { s with accs := s.accs.filter (fun a => a.id != id) }
/-- An EMRG of two cells that has still to read cell B (R170). -/
def Acc.mateDue (a : Acc) : Bool :=
  match a.op with
  | .emrg _ ia ib => ia != ib && a.mate.isNone
  | _ => false
/-- The cell at whose ESU an estimator operation arrives next. -/
def Acc.esuPa (a : Acc) : Nat := if a.mateDue then a.data.toNat else a.addr
/-- An estimator operation may arrive at its ESU; the cells of a sweep are asked one by one. -/
def State.esuReady (s : State) (a : Acc) : Bool :=
  s.orderFree a && !s.dumpHeld a &&
    (match a.op with
     | .esweep _ _ _ _ => true
     | _ => !s.migHeld a.esuPa && !s.esuFull (s.esuDie a.esuPa) (paSlice a.esuPa))
/-- EMRG has read cell B at B's home, the generation step included (R170). -/
def State.readMate (s : State) (a : Acc) (r : Region) : State :=
  let b := (s.cellAt a.esuPa).bring r.gen r.decay
  let s1 := s.putCell a.esuPa b
  { s1 with accs := s1.accs.map (fun x => if x.id == a.id then { x with mate := some (BitVec.ofNat 128 b.image) } else x) }
/-- An operation that has arrived at the ESU of a cell, with the region as the ESU holds it: EMRG's first cell is read, any other operation
performs. -/
def State.esuDo (s : State) (a : Acc) (r : Region) : State :=
  (if a.mateDue then s.readMate a r else (s.estDo a r).dropAcc a.id).movedBytes a.ctx a.esuPa 16
/-- An estimator operation arrives at its home ESU and performs there (R165 to R170, R172, R174). -/
def State.esuArrive (s : State) (a : Acc) : State :=
  if !s.esuReady a then s
  else
    match a.op with
    | .esweep rg ix n tile =>
      let (s2, ix1, left, t1) := s.sweepGo a rg n ix a.va.toNat tile
      if left = 0 then s2.dropAcc a.id
      else
        { s2 with accs := s2.accs.map (fun x =>
            if x.id == a.id then { x with op := .esweep rg ix1 left t1, va := a.va + BitVec.ofNat 72 (16 * (ix1 - ix)) } else x) }
    | _ =>
      let g := s.esuGate a a.esuPa
      if !g.1 then g.2
      else
        match g.2.esuDesc (s.esuDie a.esuPa) (paSlice a.esuPa) a.ctx a.op.region with
        | (.wait, _) => s
        | (.bad, s2) => (s2.estDrop a).dropAcc a.id
        | (.good r, s2) => s2.esuDo a r
/-- The step of the operation of identity n, when it is of the kind the step names. -/
def esuStep (kind : AccOp → Bool) (s : State) : State :=
  match s.accs.find? (fun a => a.id == s.occ.n && kind a.op) with
  | some a => s.esuArrive a
  | none => s
/-- ESU_EST (R165). -/
def execEsuEst (s : State) : Out := .next (esuStep (fun o => match o with | .est _ _ _ _ => true | _ => false) s)
/-- ESU_ELD (R166). -/
def execEsuEld (s : State) : Out := .next (esuStep (fun o => match o with | .eld _ _ _ => true | _ => false) s)
/-- ESU_EMRG (R170). -/
def execEsuEmrg (s : State) : Out := .next (esuStep (fun o => match o with | .emrg _ _ _ => true | _ => false) s)
/-- ESU_ECLR (R167). -/
def execEsuEclr (s : State) : Out := .next (esuStep (fun o => match o with | .eclr _ _ => true | _ => false) s)
/-- ESU_ESWEEP (R167, R169). -/
def execEsuEsweep (s : State) : Out := .next (esuStep (fun o => match o with | .esweep _ _ _ _ => true | _ => false) s)
/-- ESU_ERAW (R167). -/
def execEsuEraw (s : State) : Out := .next (esuStep (fun o => match o with | .eraw _ _ _ => true | _ => false) s)
/-- ESU_EINIT (R167). -/
def execEsuEinit (s : State) : Out := .next (esuStep (fun o => match o with | .einit _ _ _ _ _ => true | _ => false) s)

end Sys2Proof.Machine
end

