-- ==== Sys2Proof/Machine/Copy.lean ====
section
/-!
DEFINITION. The copy and bulk engines: the bytes a COPY packet names, the footprint rule, and copying up to a fault
(R42, R107, R116, R118 to R122).
-/

namespace Sys2Proof.Machine

/-! ## What a packet names (R42) -/

/-- A signed 32-bit stride. -/
def Pkt.stride (p : Pkt) (off : Nat) : Int := (BitVec.ofNat 32 (fieldAt p off 4)).toInt
/-- Source and destination of every row: ascending plane and row. -/
def Pkt.rows (p : Pkt) : List (Int × Int) :=
  (List.range p.zcount).flatMap (fun (z : Nat) => (List.range p.ycount).map (fun (y : Nat) =>
    ((fieldAt p 8 9 : Int) + (z : Int) * p.stride 42 + (y : Int) * p.stride 34, (fieldAt p 17 9 : Int) + (z : Int) * p.stride 54 + (y : Int) * p.stride 38)))
/-- An address of memory (modulo 2^72) or of a scratchpad (bits [18:0]). -/
def endAddr (sp : Bool) (a : Int) : Nat := (a % (2 ^ (if sp then 19 else 72) : Nat)).toNat
/-- A run of bytes within one page, or within a scratchpad. -/
abbrev Piece := Nat × Nat
/-- A row in pieces that each lie in one 64 KiB page. -/
def pagePieces : Nat → Nat → Nat → List Piece
  | 0, _, _ => []
  | fuel + 1, va, n =>
    if n = 0 then []
    else
      let k := min n (65536 - va % 65536)
      (va, k) :: pagePieces fuel ((va + k) % 2 ^ 72) (n - k)
def rowPieces (sp : Bool) (a n : Nat) : List Piece := if sp then [(a, n)] else pagePieces (n / 65536 + 2) a n
def Pkt.srcPieces (p : Pkt) : List Piece := p.rows.flatMap (fun r => rowPieces p.srcSp (endAddr p.srcSp r.1) p.xbytes)
def Pkt.dstPieces (p : Pkt) : List Piece := p.rows.flatMap (fun r => rowPieces p.dstSp (endAddr p.dstSp r.2) p.xbytes)
/-- What is left of a list of pieces after k bytes. -/
def dropPieces : Nat → List Piece → List Piece
  | _, [] => []
  | k, (a, n) :: r => if n ≤ k then dropPieces (k - n) r else (a + k, n - k) :: r

/-- The team whose scratchpad a source or destination names: the pushing lane's, or a member of its cluster (R42, R114). -/
def State.copyTeam (s : State) (tid : Option Nat) (p : Pkt) (src : Bool) : Option Nat :=
  match tid.bind s.team? with
  | none => none
  | some t => if src && p.flags.testBit 3 then s.memberOf t (s.gridOf t) (fieldAt p 6 1) else some t.tid
/-- A scratchpad source or destination names a member that the cluster lacks: a field error (R42; log 25). -/
def State.copyMemberBad (s : State) (tid : Option Nat) (p : Pkt) : Bool :=
  p.flags.testBit 3 && (match tid.bind s.team? with | some t => decide ((s.gridOf t).csize ≤ fieldAt p 6 1) | none => false)

/-! ## Footprints (R119) -/

/-- Two runs share a byte: in memory modulo 2^72, by virtual address, in a scratchpad by offset. R119 says only that the packets share
bytes: that two virtual addresses of one physical byte do not make packets overlap is the model's choice (log 125). -/
def runsMeet (a n b m : Nat) : Bool := decide ((b + 2 ^ 72 - a) % 2 ^ 72 < n) || decide ((a + 2 ^ 72 - b) % 2 ^ 72 < m)
/-- Runs of bytes with the scratchpad they lie in, or none for memory. -/
def State.copyRuns (s : State) (tid : Option Nat) (p : Pkt) (src : Bool) : List (Option Nat × Piece) :=
  let sp := if src then p.srcSp else p.dstSp
  p.rows.map (fun r => (if sp then s.copyTeam tid p src else none, (endAddr sp (if src then r.1 else r.2), p.xbytes)))
def runListsMeet (xs ys : List (Option Nat × Piece)) : Bool :=
  xs.any (fun x => ys.any (fun y => x.1 == y.1 && runsMeet x.2.1 x.2.2 y.2.1 y.2.2))
/-- Two packets overlap: the destination of one meets the source or destination of the other. -/
def State.copiesMeet (s : State) (tid1 : Option Nat) (p1 : Pkt) (tid2 : Option Nat) (p2 : Pkt) : Bool :=
  let s1 := s.copyRuns tid1 p1 true
  let d1 := s.copyRuns tid1 p1 false
  let s2 := s.copyRuns tid2 p2 true
  let d2 := s.copyRuns tid2 p2 false
  runListsMeet d1 s2 || runListsMeet d1 d2 || runListsMeet s1 d2

/-! ## Copying (R120) -/

/-- How far a run of pieces gets. -/
inductive Run where
  | done
  | fault (va cause : Nat)
  | wait
deriving DecidableEq, Repr

/-- Read the pieces of the source, into a buffer that grows. -/
def State.copyRead (s : State) (c : Nat) (sp : Bool) (tid : Option Nat) : List Byte → List Piece → State × List Byte × Run
  | buf, [] => (s, buf, .done)
  | buf, (a, n) :: r =>
    if sp then
      match tid.bind s.team? with
      | none => (s, buf, .fault a 5)
      | some t => if t.alloc < a + n then (s, buf, .fault a 5) else State.copyRead s c sp tid (buf ++ bytesAt t.scratch a n) r
    else
      match s.engXlate c a n false with
      | .ok (pa, s1) => State.copyRead (s1.movedBytes c pa n) c sp tid (buf ++ memBytes s.mem pa n) r
      | .fault f => (s, buf, .fault a (if f = 2 then 2 else 5))
      | .wait => (s, buf, .wait)
/-- The first k bytes of a list of pieces. -/
def takePieces : Nat → List Piece → List Piece
  | _, [] => []
  | k, (a, n) :: r => if k = 0 then [] else if n ≤ k then (a, n) :: takePieces (k - n) r else [(a, k)]
/-- Every byte of a granule lies in one of these pieces. -/
def coversGranule (ps : List Piece) (g : Nat) : Bool :=
  (List.range 16).all (fun i => ps.any (fun p => decide (p.1 ≤ 16 * g + i) && decide (16 * g + i < p.1 + p.2)))
/-- After a write of n bytes at a, with these pieces of the packet written so far: the granules it touches become full once all their
16 bytes have been written (R116). -/
def State.fillGranules (s : State) (tid a n : Nat) (past : List Piece) : State :=
  (List.range ((a + n + 15) / 16 - a / 16)).foldl (fun s k => if coversGranule past (a / 16 + k) then s.setGranule tid (a / 16 + k) true else s) s
/-- Write the pieces of the destination from the buffer: how many bytes are left to write. -/
def State.copyWrite (s : State) (c : Nat) (sp fill : Bool) (tid : Option Nat) : List Piece → List Byte → List Piece → State × Nat × Run
  | _, _, [] => (s, 0, .done)
  | past, bs, (a, n) :: r =>
    if sp then
      match tid.bind s.team? with
      | none => (s, bs.length, .fault a 5)
      | some t =>
        if t.alloc < a + n then (s, bs.length, .fault a 5)
        else
          let s1 := (s.spWr t.tid a (bs.take n)).byEngine 0 s.writes
          State.copyWrite (if fill then s1.fillGranules t.tid a n ((a, n) :: past) else s1) c sp fill tid ((a, n) :: past) (bs.drop n) r
    else
      match s.engXlate c a n true with
      | .ok (pa, s1) => State.copyWrite (((s1.wrBytes pa (bs.take n)).byEngine 0 s1.writes).movedBytes c pa n) c sp fill tid past (bs.drop n) r
      | .fault f => (s, bs.length, .fault a (if f = 2 then 2 else 5))
      | .wait => (s, bs.length, .wait)

/-- The engine of a queue's COPY packets: die and cluster, none for the die's bulk engines (R118). -/
def State.copyEngine (s : State) (q : Nat) : Nat × Option Nat :=
  let h := (s.queue q).hdr
  if fieldAt h 27 1 = 1 then (fieldAt h 29 1 / 12, some (fieldAt h 29 1 % 12)) else (fieldAt h 29 1, none)
/-- The engine is ready (R19). -/
def State.copyReady (s : State) (q : Nat) : Bool :=
  match s.copyEngine q with
  | (d, some k) => s.clusterRdy d k
  | _ => true
/-- The packet stops on a fault record (R107). -/
def State.copyFault (s : State) (o : OutPkt) (kind va cause : Nat) : State :=
  let (seq, s1) := (s.noteLost o.ctx va).raiseFault o.ctx cause kind va (s.copyEngine o.q).1 0xFF 0xFF 0 0 ((s.queue o.q).slotVa o.slot) (.packet o.id)
  s1.updOut o.id (fun o => { o with fault := some seq, firstFault := if o.firstFault = 0 then seq else o.firstFault })
/-- The point of a completion (R256, kind 10). -/
def State.copyPoint (s : State) (o : OutPkt) : SsPoint :=
  { kind := 10, unit := ((s.copyEngine o.q).2).getD 0, id := BitVec.ofNat 32 o.slot, wave := 0, lane := 0
    grid := BitVec.ofNat 16 ((((o.tid.bind s.team?).map s.gridOf).bind Grid.logOrd).getD 0), n := BitVec.ofNat 32 o.q }
/-- The packet was pushed by a lane of a logged grid. -/
def State.copyLogged (s : State) (o : OutPkt) : Bool := (((o.tid.bind s.team?).map s.gridOf).bind Grid.logOrd).isSome

/-- The engine copies as far as it can: it reads every source byte before it writes any (R120), stops at a fault (R107),
and waits for memory that is not ready (R20). -/
def State.copyGo (s : State) (o : OutPkt) : State :=
  let p : Pkt := o.pkt
  let (s1, buf, run) := s.copyRead o.ctx (Pkt.srcSp p) (s.copyTeam o.tid p true) o.buf (dropPieces o.buf.length (Pkt.srcPieces p))
  let s2 := s1.updOut o.id (fun o => { o with buf })
  match run with
  | .wait => s2
  | .fault va cause => s2.copyFault o 0 va cause
  | .done =>
    let (s3, left, run) := s2.copyWrite o.ctx (Pkt.dstSp p) (p.flags.testBit 0) (s.copyTeam o.tid p false)
      (takePieces o.copied (Pkt.dstPieces p)) (buf.drop o.copied) (dropPieces o.copied (Pkt.dstPieces p))
    let s4 := s3.updOut o.id (fun x => { x with copied := buf.length - left })
    match run with
    | .wait => s4
    | .fault va cause => s4.copyFault o 1 va cause
    | .done =>
      let (go, s5) := s4.ssGate (s.copyLogged o) (s.copyEngine o.q).1 (s.copyPoint o)
      if go then s5.updOut o.id (fun x => { x with st := .done 0 buf.length, buf := [] }) else s5
/-- The copy of packet id goes on. -/
def State.copyOn (s : State) (id : Nat) : State :=
  match s.out? id with
  | some o => if o.st == .running && Pkt.kind o.pkt == 3 && o.fault.isNone && s.copyReady o.q then s.copyGo o else s
  | none => s

end Sys2Proof.Machine
end

