-- ==== Sys2Proof/Machine/MatFn.lean ====
section
/-!
DEFINITION. Matrix arithmetic as functions: the format word and shapes (R230 to R232), C2 weights (R225), sums of
products (R233 to R236), the Hadamard quantiser (R237, R238) and top-k lists (R239, R240).
-/

namespace Sys2Proof.Machine

/-! ## Sums of products (R233, R234) -/

/-- A product, exactly. -/
def Fp.times : Fp → Fp → Fp
  | .nan, _ => .nan
  | _, .nan => .nan
  | .inf x, .inf y => .inf (x != y)
  | .inf x, .fin y m _ => if m = 0 then .nan else .inf (x != y)
  | .fin y m _, .inf x => if m = 0 then .nan else .inf (x != y)
  | .fin x m e, .fin y n f => .fin (x != y) (m * n) (e + f)

def Fp.isNan : Fp → Bool
  | .nan => true
  | _ => false
def Fp.isInf (neg : Bool) : Fp → Bool
  | .inf x => x == neg
  | _ => false
/-- A zero, or anything else that has no exponent. -/
def Fp.isZero : Fp → Bool
  | .fin _ m _ => m == 0
  | _ => false
/-- floor(log2 |v|) of a finite value that is not 0. -/
def Fp.lg : Fp → Int
  | .fin _ m e => (Nat.log2 m : Int) + e
  | _ => 0
/-- v truncated toward 0 to a multiple of 2^k, as that multiple (R233). -/
def Fp.trunc (k : Int) : Fp → Int
  | .fin neg m e =>
    let t : Nat := if k ≤ e then shlInt m (e - k) else m / 2 ^ (k - e).toNat
    if neg then -(t : Int) else t
  | _ => 0

/-- The products of a group that lie in one scale block of A and of B, with the two scales. -/
structure Blk where
  prods : List Fp
  sa : Fp := .fin false 1 0
  sb : Fp := .fin false 1 0
deriving DecidableEq, Repr

def Blk.nan (b : Blk) : Bool := b.prods.any Fp.isNan || b.sa.isNan || b.sb.isNan
def Blk.inf (neg : Bool) (b : Blk) : Bool := b.prods.any (Fp.isInf neg)
def Blk.zeroScale (b : Blk) : Bool := b.sa.isZero || b.sb.isZero
/-- The block's term of S for the window 2^k: an integer times a power of two (R233). -/
def Blk.term (k : Int) (b : Blk) : Int × Int :=
  let t := b.prods.foldl (fun n p => n + p.trunc k) 0
  match b.sa, b.sb with
  | .fin _ m e, .fin _ n f => (t * m * n, k + e + f)
  | _, _ => (0, 0)

def maxInt : List Int → Int
  | [] => 0
  | [a] => a
  | a :: r => max a (maxInt r)
def minInt : List Int → Int
  | [] => 0
  | [a] => a
  | a :: r => min a (minInt r)
/-- A sum of integers times powers of two. -/
def sumAt (ts : List (Int × Int)) (e : Int) : Int := ts.foldl (fun n t => n + t.1 * 2 ^ (t.2 - e).toNat) 0

/-- One group of products added into an accumulator of a format (R233, R234). -/
def Fmt.group (f : Fmt) (c : Nat) (bs : List Blk) : Nat :=
  let pos := bs.any (Blk.inf false)
  let neg := bs.any (Blk.inf true)
  match f.decode c with
  | .nan => f.nanBits
  | v =>
    if bs.any Blk.nan || (pos && neg) || ((pos || neg) && bs.any Blk.zeroScale) then f.nanBits
    else if pos || neg then (if v.isInf (!neg) then f.nanBits else f.signed neg f.infBits)
    else
      let ps := (bs.flatMap Blk.prods).filter (fun p => !p.isZero)
      if ps = [] then c
      else
        let ts := bs.map (Blk.term (maxInt (ps.map Fp.lg) - 39))
        let e := minInt (ts.map (fun t => t.2))
        let sum := sumAt ts e
        match v with
        | .fin neg m ec =>
          if sum = 0 then c
          else
            let e1 := min e ec
            (f.ofInt .rne false (sum * 2 ^ (e - e1).toNat + fpInt neg m ec e1) e1 false).1
        | _ => c

/-! ## The format word and the shapes (R230, R231) -/

def mmaShape (w : Word) : Nat := (w.extractLsb' 0 5).toNat
def mmaTypeA (w : Word) : Nat := (w.extractLsb' 5 4).toNat
def mmaTypeB (w : Word) : Nat := (w.extractLsb' 9 4).toNat
/-- 0 FP32, 1 FP16, 2 INT32. -/
def mmaAcc (w : Word) : Nat := (w.extractLsb' 13 2).toNat
def mmaScaleA (w : Word) : Nat := (w.extractLsb' 15 2).toNat
def mmaScaleB (w : Word) : Nat := (w.extractLsb' 17 2).toNat
def mmaTable (w : Word) : Bool := w.getLsbD 19

/-- N, K and the group size of a shape (R231). -/
def shapeOf (sh : Nat) : Nat × Nat × Nat :=
  match sh with
  | 0 => (16, 32, 16)
  | 1 => (32, 32, 16)
  | 2 => (16, 16, 16)
  | 3 => (32, 16, 16)
  | 4 => (16, 64, 32)
  | 5 => (32, 64, 32)
  | 6 => (16, 64, 32)
  | 7 => (32, 64, 32)
  | 8 => (16, 128, 64)
  | 9 => (32, 128, 64)
  | 10 => (16, 128, 64)
  | 11 => (32, 128, 64)
  | 12 => (32, 64, 32)
  | 13 => (32, 32, 32)
  | 14 => (16, 8, 8)
  | _ => (32, 8, 8)

/-- The combinations of R231. -/
def mmaTypesOk (w : Word) : Bool :=
  let a := mmaTypeA w
  let b := mmaTypeB w
  let acc := mmaAcc w
  let none' := mmaScaleA w == 0 && mmaScaleB w == 0
  let sh := mmaShape w
  if sh ≤ 3 then (a == 1 || a == 2) && b == a && (acc == 0 || (acc == 1 && a == 1)) && none'
  else if sh ≤ 5 then (a == 3 || a == 4) && (b == 3 || b == 4) && acc == 0
  else if sh ≤ 7 then (a == 6 || a == 7) && (b == 6 || b == 7) && acc == 2 && none'
  else if sh ≤ 9 then a == 5 && b == 5 && acc == 0
  else if sh ≤ 11 then a == 8 && b == 8 && acc == 2 && none'
  else if sh = 12 then (a == 3 || a == 4) && b == 9 && acc == 0
  else if sh = 13 then a == 2 && b == 9 && acc == 0 && mmaScaleA w == 0
  else decide (sh ≤ 15) && a == 0 && b == 0 && acc == 0 && none'
/-- The word is legal under R230 and R231. -/
def mmaLegal (w : Word) : Bool :=
  w.extractLsb' 20 12 == 0 && mmaScaleA w != 3 && mmaScaleB w != 3 && mmaTypesOk w && (!mmaTable w || mmaTypeB w == 9)
/-- Accumulator registers of the word (R231). -/
def mmaSpan (w : Word) : Nat := let n := (shapeOf (mmaShape w)).1; if mmaAcc w = 1 then n / 2 else n
/-- Cycles for which the word occupies the matrix unit (R365). -/
def mmaCycles (w : Word) : Nat := if (shapeOf (mmaShape w)).1 = 32 then 8 else 4

/-! ## Elements and tiles (R220, R222, R225, R227) -/

/-- Bits of an element type (R222). -/
def elemBits (code : Nat) : Nat :=
  match code with
  | 0 => 32
  | 1 => 16
  | 2 => 16
  | 5 => 4
  | 8 => 4
  | _ => 8
/-- The value of an element of a floating type. -/
def elemFp (code bits : Nat) : Fp :=
  match code with
  | 0 => fp32.decode bits
  | 1 => fp16.decode bits
  | 2 => bf16.decode bits
  | 3 => e4m3.decode bits
  | 4 => e5m2.decode bits
  | _ => e2m1.decode bits
/-- The value of an element of an integer type. -/
def elemInt (code bits : Nat) : Int :=
  match code with
  | 6 => (BitVec.ofNat 8 bits).toInt
  | 8 => (BitVec.ofNat 4 bits).toInt
  | _ => bits
/-- K elements of a line that starts at a byte offset of a slot, given as a number. -/
def lineElems (code k : Nat) (x : Nat) : List Nat := (List.range k).map (fun i => x / 2 ^ (elemBits code * i) % 2 ^ elemBits code)

/-- The eight weights of a C2 index, from the table's row (R225). -/
def c2Weights (row : Nat → Nat) (ix : Nat) : List Fp :=
  let x : BitVec 16 := BitVec.ofNat 16 ix
  let sign (i : Nat) : Bool := x.getLsbD (i + 1)
  let s7 := (List.range 7).foldl (fun b i => b != sign i) false
  (List.range 8).map (fun i => .fin (if i = 7 then s7 else sign i) (2 * row i + b2nBit (x.getLsbD 0)) (-2))
where b2nBit (b : Bool) : Nat := if b then 1 else 0
/-- A row of the ROM table (R226). -/
def c2Rom (r i : Nat) : Nat := 1 + 2 * (r / 2 ^ i % 2)

/-- The value of a scale byte: 1 E8S, 2 E4M3 (R221). -/
def scaleFp (kind byte : Nat) : Fp :=
  match kind with
  | 0 => .fin false 1 0
  | 1 => if byte = 255 then .nan else .fin false 1 ((byte : Int) - 127)
  | _ => if 127 ≤ byte then .nan else e4m3.decode byte
/-- Block size along K of a type's scales (R228). -/
def scaleBs (code : Nat) : Nat := if code = 9 then 64 else 32

/-- Parts of a list, n elements each. -/
def chunks {α : Type} (n : Nat) : Nat → List α → List (List α)
  | 0, _ => []
  | k + 1, xs => xs.take n :: chunks n k (xs.drop n)

/-- One accumulator element of a floating shape: a row of A, a column of B, and scales by k (R233). -/
def mmaFp (f : Fmt) (k g : Nat) (sc : Nat → Fp × Fp) (a b : List Fp) (c : Nat) : Nat :=
  let ps := List.zipWith Fp.times a b
  let step := min g 32
  let blks := ((List.range (k / step)).zip (chunks step (k / step) ps)).map (fun x =>
    ({ prods := x.2, sa := (sc (x.1 * step)).1, sb := (sc (x.1 * step)).2 } : Blk))
  (chunks (g / step) (k / g) blks).foldl (fun c bs => f.group c bs) c
/-- One accumulator element of an integer shape (R235). -/
def mmaInt (a b : List Int) (c : Nat) : Nat :=
  (((c : Int) + (List.zipWith (fun x y => x * y) a b).foldl (fun n x => n + x) 0) % 2 ^ 32).toNat

/-! ## Dot products (R236, R370) -/

/-- One group of n products of packed elements into an FP32 accumulator. -/
def fdot (code n : Nat) (acc a b : Word) : Word :=
  let els (x : Word) : List Fp := (lineElems code n x.toNat).map (elemFp code)
  BitVec.ofNat 32 (fp32.group acc.toNat [{ prods := List.zipWith Fp.times (els a) (els b) }])

/-! ## The keyed Hadamard quantiser (R237, R238) -/

def hadElem (xs : List Nat) (j : Nat) : Nat := xs.getD j 0
/-- One butterfly stage. -/
def hadStage (k : Nat) (xs : List Nat) : List Nat :=
  (List.range 32).map (fun j =>
    let lo := hadElem xs (if j.testBit k then j - 2 ^ k else j)
    let hi := hadElem xs (if j.testBit k then j else j + 2 ^ k)
    if j.testBit k then (fp32.add .rne false (fp32.decode lo) (fp32.decode hi).neg).1
    else (fp32.add .rne false (fp32.decode lo) (fp32.decode hi)).1)
/-- Signs, five stages, and the factor 1/√32 (R237). -/
def hadamard (hseed blk : Word) (xs : List Word) : List Nat :=
  let x0 := ((List.range 32).zip xs).map (fun p =>
    if (keyed hseed ((blk <<< 5) ||| BitVec.ofNat 32 p.1)).getLsbD 0 then (p.2 ^^^ 0x80000000#32).toNat else p.2.toNat)
  let x1 := (List.range 5).foldl (fun xs k => hadStage k xs) x0
  x1.map (fun x => (fp32.mul .rne false (fp32.decode x) (fp32.decode 0x3E3504F3)).1)

/-- The outputs and the scale byte (R238): registers from vD. -/
def hadq (fmt : Nat) (rm : Rm) (hseed blk : Word) (xs : List Word) : List Word :=
  match fmtTarget fmt with
  | none => []
  | some (t, n, emax) =>
    let ys := (hadamard hseed blk xs).map fp32.decode
    let bad := ys.any (fun y => y.isNan || y.isInf true || y.isInf false)
    let live := ys.filter (fun y => !y.isZero)
    let e := max (if live = [] then 0 else maxInt (live.map Fp.lg) - emax) (-127)
    let nan := match t with
      | .fmt f => if f.hasNan then f.nanBits else 0
      | .int _ _ => 0
    let outs := ((List.range 32).zip ys).map (fun p =>
      if bad then nan else (convert (p.2.scale (-e)) t rm true false (srWord hseed ((blk <<< 5) ||| BitVec.ofNat 32 p.1))).1)
    let packed := packElems n outs
    ((List.range n).map (fun i => BitVec.ofNat 32 (packed / 2 ^ (32 * i)))) ++
      [BitVec.ofNat 32 (if bad then 255 else (e + 127).toNat)]

/-! ## Top-k lists (R239, R240) -/

/-- A list: capacity, key type, entries in order. -/
structure KList where
  k : Nat
  int : Bool
  es : List (Word × Word)
deriving DecidableEq, Repr

/-- Order of keys: FP32 by value with NaN above all, INT32 signed (R240). -/
def keyCmp (int : Bool) (a b : Word) : Ordering :=
  if int then compare a.toInt b.toInt
  else
    match fp32.decode a.toNat, fp32.decode b.toNat with
    | .nan, .nan => .eq
    | .nan, _ => .gt
    | _, .nan => .lt
    | x, y => (fpCmp x y).getD .eq
def entCmp (int : Bool) (a b : Word × Word) : Ordering :=
  match keyCmp int a.1 b.1 with
  | .eq => compare a.2.toNat b.2.toNat
  | o => o
def entInsert (int : Bool) (c : Word × Word) : List (Word × Word) → List (Word × Word)
  | [] => [c]
  | x :: xs => if entCmp int c x == .lt then c :: x :: xs else x :: entInsert int c xs
/-- The THRESH of a list that is not full (R239). -/
def KList.empty (l : KList) : Word := if l.int then 0x7FFFFFFF else 0x7F800000
/-- THRESH (R239). -/
def KList.thresh (l : KList) : Word :=
  if l.es.length = l.k then (match l.es.getLast? with | some e => e.1 | none => l.empty) else l.empty
/-- A candidate meets the list (R240). -/
def KList.take (l : KList) (c : Word × Word) : KList :=
  if !l.int && (fp32.decode c.1.toNat).isNan then l
  else if l.es.any (fun e => entCmp l.int e c == .eq) then l
  else if decide (l.es.length < l.k) then { l with es := entInsert l.int c l.es }
  else
    match l.es.getLast? with
    | some last => if entCmp l.int c last == .lt then { l with es := entInsert l.int c l.es.dropLast } else l
    | none => l
/-- Entries that change place or enter: from the first place at which the list differs (R353; log 132). -/
def entMoved : List (Word × Word) → List (Word × Word) → Nat
  | [], ys => ys.length
  | _ :: _, [] => 0
  | x :: xs, y :: ys => if x == y then entMoved xs ys else (y :: ys).length
/-- Entries that candidates in order move. -/
def KList.moved : KList → List (Word × Word) → Nat
  | _, [] => 0
  | l, c :: cs => entMoved l.es (l.take c).es + KList.moved (l.take c) cs
/-- Candidates in order, with THRESH after each. -/
def KList.takes (l : KList) : List (Word × Word) → KList × List Word
  | [] => (l, [])
  | c :: cs =>
    let l1 := l.take c
    let (l2, ts) := KList.takes l1 cs
    (l2, l1.thresh :: ts)

end Sys2Proof.Machine
end

