-- ==== Sys2Proof/Machine/Matrix.lean ====
section
/-!
DEFINITION. Operand memory, the matrix unit, HADQ, the sampling pipe, the DOT group and top-k lists: R352 to R372.
-/

namespace Sys2Proof.Machine

/-! ## Slots (R227, R357, R360) -/

/-- The slot, within its wave's reservation, that a handle names. -/
def Wave.slotIx (w : Wave) (h : Nat) : Nat := (w.handles.getD h none).getD 0
def Wave.opSlot (w : Wave) (h : Nat) : OpSlot := w.ops.getD (w.slotIx h) {}
def Wave.updSlot (w : Wave) (ix : Nat) (f : OpSlot → OpSlot) : Wave := { w with ops := listUpd w.ops ix f }
/-- The operation writes this slot. -/
def AccOp.fills (ix : Nat) : AccOp → Bool
  | .mldData k _ => k == ix
  | .mldScale k _ => k == ix
  | _ => false
/-- An MLD fills the slot (R360). -/
def State.filling (s : State) (w : Wave) (ix : Nat) : Bool :=
  s.accs.any (fun a => a.uid == w.uid && a.op.fills ix) || w.lanes.any (fun l => l.fill == some ix)
/-- An MMA that occupies the unit reads the slot (R360). -/
def State.mmaReads (s : State) (core uid ix : Nat) : Bool :=
  let c := s.core core
  c.mmaUid == uid && decide (s.cycle < c.mmaFree) && c.mmaSlots.contains ix
/-- Handles from h, n + 1 of them. -/
def handleSpan (n : BitVec 3) (h : BitVec 5) : List Nat := (List.range (n.toNat + 1)).map (fun k => h.toNat + k)
/-- What the writing of a slot waits for (R360). -/
def slotBusy (hs : List Nat) : State → Iss → Option State :=
  waitIf (fun s i => hs.any (fun h => s.filling i.w (i.w.slotIx h) || s.mmaReads i.core i.uid (i.w.slotIx h)))

/-- MCLAIM (R357). -/
def execMclaim (d : BitVec 7) (n : BitVec 3) (h : BitVec 5) (s : State) : Out :=
  let hs := handleSpan n h
  .next (s.issue (fun _ _ => { bad := !Instr.wf (.mclaim d n h), dsts := [(d.toNat, 1)] }) never (fun i s =>
    let used := i.w.handles.filterMap id
    let free := (List.range i.t.slots).filter (fun k => !used.contains k)
    let status : Word :=
      if hs.any (fun k => (i.w.handles.getD k none).isSome) then 2 else if free.length < hs.length then 1 else 0
    let s1 :=
      if status != 0 then s
      else
        s.updWave i.uid (fun w => (hs.zip free).foldl (fun w x =>
          ({ w with handles := w.handles.set x.1 (some x.2) } : Wave).updSlot x.2 (fun _ => {})) w)
    prodBody false (fun s _ _ l => .land l d.toNat [status] s.cycle) i s1))
/-- MREL (R357). -/
def execMrel (n : BitVec 3) (h : BitVec 5) (s : State) : Out :=
  let hs := handleSpan n h
  .next (s.issue (fun _ _ => { bad := !Instr.wf (.mrel n h), handles := hs }) (slotBusy hs) (fun i s =>
    laneBody (fun _ _ _ l => .ok l.adv) i (s.updWave i.uid (fun w => { w with handles := hs.foldl (fun m k => m.set k none) w.handles }))))
/-- MZERO (R357). -/
def execMzero (n : BitVec 3) (h : BitVec 5) (s : State) : Out :=
  let hs := handleSpan n h
  .next (s.issue (fun _ _ => { bad := !Instr.wf (.mzero n h), handles := hs }) (slotBusy hs) (fun i s =>
    laneBody (fun _ _ _ l => .ok l.adv) i (s.updWave i.uid (fun w => hs.foldl (fun w k => w.updSlot (w.slotIx k) (fun _ => {})) w))))
/-- MROW: 64 bytes of each executing lane into its row (R358). -/
def execMrow (a : BitVec 7) (h : BitVec 5) (s : State) : Out :=
  .next (s.issue (fun _ _ => { srcs := [srcBlk a 16], handles := [h.toNat] }) (slotBusy [h.toNat]) (fun i s =>
    laneBody (fun _ _ _ l => .ok l.adv) i (s.updWave i.uid (fun w => i.E.foldl (fun w L =>
      w.updSlot (w.slotIx h.toNat) (fun x => { x with data := putBytes x.data (64 * L) (leBytes 64 ((i.l L).words a.toNat 16)) })) w))))
/-- MREAD: each executing lane's row into its registers, at once (R353, R358). -/
def execMread (d : BitVec 7) (h : BitVec 5) (s : State) : Out :=
  .next (s.issue (fun _ _ => { dsts := [(d.toNat, 16)], handles := [h.toNat] })
    (waitIf (fun s i => s.filling i.w (i.w.slotIx h.toNat)))
    (laneBody (fun _ i L l => .ok (l.setFrom d.toNat (wordsOf 16 (leNat (bytesAt (i.w.opSlot h.toNat).data (64 * L) 64)))).adv)))

/-! ## MLD (R359) -/

/-- LP and NB of a lane's piece, and whether the word is legal (R359). -/
def mldLegal (x : Word) : Bool :=
  decide ((x.extractLsb' 8 4).toNat ≤ 4) && x.extractLsb' 0 4 != 0 && decide ((x.extractLsb' 0 4).toNat ≤ 8) &&
    x.extractLsb' 12 4 == 0 && x.extractLsb' 4 4 == 0
/-- The scale bytes a lane brings: offset in the scale area and VA (R359, R229). -/
def mldScales (a : BitVec 7) (i : Iss) (L : Nat) : List (Nat × Nat) :=
  let l := i.l L
  let x := l.v (a.toNat + 3)
  let line0 := (l.v (a.toNat + 2)).toNat
  let kb0 := (x.extractLsb' 16 16).toNat
  let nb := (x.extractLsb' 8 4).toNat
  let lp := (x.extractLsb' 0 4).toNat
  let loc := match l.replay with | some x => x.scaleloc | none => i.w.scaleloc
  let base := baseOf i.w l (loc.extractLsb' 0 4).toNat
  (List.range lp).flatMap (fun r => (List.range nb).filterMap (fun b =>
    let o := (lp * L + r) * nb + b
    if o < 128 then
      some (o, (base + (line0 + r) * 2 ^ (loc.extractLsb' 4 5).toNat + (kb0 + b) * 2 ^ (loc.extractLsb' 9 5).toNat) % 2 ^ 72)
    else none))
/-- The accesses of a lane to memory: pieces, unless they come from scratchpad, then scale bytes. -/
def mldVas (a : BitVec 7) (r : BitVec 4) (scales : Bool) (i : Iss) (L : Nat) : List (Nat × Nat) :=
  (if r = 15 then [] else (List.range 4).map (fun k => ((mVa r a i L + 16 * k) % 2 ^ 72, 16))) ++
    (if scales then (mldScales a i L).map (fun x => (x.2, 1)) else [])
/-- The checks of a lane before translation, in the order of the entry (R288, R359). -/
def State.mldCheck (s : State) (a : BitVec 7) (r : BitVec 4) (scales : Bool) (i : Iss) (L : Nat) : Option Trap :=
  let l := i.l L
  let off := mOff a i L
  if r = 15 && off % 16 != 0 then some ((l.trapHere tkMISALIGN 16).withOff off)
  else if r != 15 && mVa r a i L % 16 != 0 then some ((l.trapHere tkMISALIGN 16).withVa (mVa r a i L))
  else if r = 15 && decide (((s.team? i.t.tid).map Team.alloc).getD 0 < off + 64) then some ((l.trapHere tkACCESS 0).withOff off)
  else if scales && !mldLegal (l.v (a.toNat + 3)) then some (l.trapHere tkILLEGAL 0)
  else none
/-- The accesses of a lane that has passed its checks (R359). -/
def State.mldIssue (s : State) (ix : Nat) (a : BitVec 7) (r : BitVec 4) (scales : Bool) (i : Iss) (L : Nat) (ps : List (Nat × Pte)) :
    State :=
  let vas := mldVas a r scales i L
  let pieces := if r = 15 then 0 else 4
  let s1 := if r = 15 then (List.range 4).foldl (fun (s : State) k =>
      s.addAcc i L { accOf (.mldData ix (64 * L + 16 * k)) (mOff a i L + 16 * k) 16 with sp := some i.t.tid, ord := .wk }) s else s
  let s2 := ((List.range ps.length).zip (ps.zip vas)).foldl (fun (s : State) x =>
    let k := x.1
    let op := if k < pieces then AccOp.mldData ix (64 * L + 16 * k) else .mldScale ix (((mldScales a i L).getD (k - pieces) (0, 0)).1)
    s.addAcc i L { accOf op x.2.1.1 x.2.2.2 with
      va := BitVec.ofNat 72 x.2.2.1, ord := .wk, type := x.2.1.2.type, log := x.2.1.2.log }) s1
  s2.updLane i.uid L Lane.adv
/-- An MLD of these lanes waits for the slot (R360): for another MLD that fills it, where a lane that is replayed goes on with
its own, and for an MMA that reads it. -/
def State.mldBusy (s : State) (i : Iss) (ix : Nat) : Bool :=
  s.accs.any (fun a => a.uid == i.uid && a.op.fills ix) || s.mmaReads i.core i.uid ix ||
    (!i.E.all (fun L => (i.l L).fill == some ix) &&
      (List.range i.w.lanes.length).any (fun L => !i.E.contains L && (i.l L).fill == some ix))
/-- MLD: its handle, the offset registers, and the scale's address pair (R268, R359). -/
def fMld (h : BitVec 5) (a : BitVec 7) (r : BitVec 4) (sc : Bool) (g : BitVec 2) (bad : Bool) : FormF := fun x _ =>
  { g := g.toNat, xim := true, xmod := true, mfmt := true, bad, handles := [h.toNat]
    srcs := { r := a.toNat, n := if r = 15 then 1 else 2, trap := eaOf x } :: (if sc then [{ r := a.toNat + 2, n := 2 }] else []) }
/-- MLD (R359, R360). -/
def execMld (h : BitVec 5) (a : BitVec 7) (r : BitVec 4) (z : BitVec 3) (g : BitVec 2) (s : State) : Out :=
  let sc := z.toNat == 1
  let ok (s : State) (i : Iss) : Iss := { i with E := i.E.filter (fun L => (s.mldCheck a r sc i L).isNone) }
  .next (s.issue (fMld h a r sc g (!Instr.wf (.mld h a r z g)))
    (fun s i =>
      if s.mldBusy i (i.w.slotIx h.toNat) then some s
      else needPages (fun j => j.E.flatMap (fun L => (mldVas a r sc j L).map (fun x => x.1))) s (ok s i))
    (fun i s =>
      let ix := i.w.slotIx h.toNat
      let (s1, ts) := memBodyN .load (mldVas a r sc) (0, 0) (fun i L ps s => s.mldIssue ix a r sc i L ps) (ok s i) s
      (s1.updWave i.uid (fun w => i.E.foldl (fun w L => w.updLane L (fun l =>
         match l.st with | .faulted _ => { l with fill := some ix } | _ => l)) w),
       ts ++ i.E.filterMap (fun L => (s.mldCheck a r sc i L).map (fun t => (L, t))))))

/-! ## MSETS and MCBT (R361, R362) -/

/-- An operand that must be the same in every executing lane (R352). -/
def uniform {α : Type} [DecidableEq α] (i : Iss) (f : Nat → α) : Bool := i.E.all (fun L => f L = f (i.E.headD 0))
/-- FMTDIV in every executing lane. -/
def fmtDiv (i : Iss) : Traps := i.E.map (fun L => (L, (i.l L).trapHere tkFMTDIV 0))
/-- ILLEGAL in every executing lane. -/
def illegalAll (i : Iss) : Traps := i.E.map (fun L => (L, (i.l L).trapHere tkILLEGAL 0))

/-- Every executing lane goes on, its registers as they stand. -/
def advAll (i : Iss) (s : State) : State := s.updWave i.uid (fun w => i.E.foldl (fun w L => w.updLane L Lane.adv) w)

/-- MSETS (R361). -/
def execMsets (a : BitVec 7) (s : State) : Out :=
  .next (s.issue (fSYS [srcBlk a] []) never (fun i s =>
    let loc (L : Nat) : BitVec 14 := ((i.l L).v a.toNat).extractLsb' 0 14
    if uniform i loc then
      laneBody (fun _ _ _ l => .ok l.adv) i (s.updWave i.uid (fun w => { w with scaleloc := loc (i.E.headD 0) }))
    else (s, fmtDiv i)))

/-- The matrix unit of a core is occupied (R365). -/
def State.mmaOn (s : State) (core : Nat) : Bool := decide (s.cycle < (s.core core).mmaFree)
/-- The pieces of the table of MCBT. -/
def mcbtVas (r : BitVec 4) (a : BitVec 7) (i : Iss) (L : Nat) : List (Nat × Nat) :=
  (List.range 16).map (fun k => ((mVa r a i L + 64 * k) % 2 ^ 72, 64))
/-- The lanes of an MCBT agree on an aligned table. -/
def mcbtOk (r : BitVec 4) (a : BitVec 7) (i : Iss) : Bool := uniform i (mVa r a i) && mVa r a i (i.E.headD 0) % 64 == 0
def mcbtWholes (r : BitVec 4) (a : BitVec 7) (s : State) (i : Iss) : List Whole :=
  if mcbtOk r a i then s.wholes i .load (mcbtVas r a) [i.E.headD 0] else []
/-- MCBT (R362, R226). -/
def execMcbt (a : BitVec 7) (r : BitVec 4) (g : BitVec 2) (s : State) : Out :=
  .next (s.issue (fun h _ =>
      { g := g.toNat, xim := true, xmod := true, mfmt := true, unit := some 1, bad := !Instr.wf (.mcbt a r g)
        srcs := [{ r := a.toNat, n := 2, trap := eaOf h }] })
    (both (waitIf (fun s i => s.mmaOn i.core))
      (both (needPages (fun i => if mcbtOk r a i then (mcbtVas r a i (i.E.headD 0)).map (fun x => x.1) else []))
        (both (waitPieces (.load 0 0) .wk (fun s i => i.eachLane (mcbtWholes r a s i))) (waitWholes (mcbtWholes r a)))))
    (fun i s =>
      let s := (s.passed i (mcbtWholes r a s i)).sawAll i .wk (i.eachLane (mcbtWholes r a s i))
      if !uniform i (mVa r a i) then (s, fmtDiv i)
      else if !mcbtOk r a i then (s, i.E.map (fun L => (L, ((i.l L).trapHere tkMISALIGN 64).withVa (mVa r a i L))))
      else
        match s.laneXls i .load (mcbtVas r a i (i.E.headD 0)) with
        | .ok ps =>
          let bs := ps.flatMap (fun p => memBytes s.mem p.1 64)
          if bs.any (fun b => b &&& 0x88 != 0) then (s, illegalAll i)
          else
            (advAll i ((s.updCore i.core (fun c => { c with codebook := putBytes [] 0 bs })).updTeam i.t.tid (fun t => { t with wroteCb := true })), [])
        | .bad _ _ => memBodyN .load (mcbtVas r a) (0, 0) (fun _ _ _ s => s) i s))

/-! ## MMA (R363 to R365) -/

/-- Line r of a tile: K elements. -/
def tileBits (x : OpSlot) (code k r : Nat) : List Nat :=
  let n := k * elemBits code / 8
  lineElems code k (leNat (bytesAt x.data (r * n) n))
/-- Line r of a floating tile; C2 lines through a table of rows (R225, R227). -/
def tileFp (x : OpSlot) (tab : Nat → Nat → Nat) (code k r : Nat) : List Fp :=
  if code = 9 then
    (lineElems 1 (k / 8) (leNat (bytesAt x.data (r * (k / 4)) (k / 4)))).flatMap (fun ix => c2Weights (tab (ix / 256)) ix)
  else (tileBits x code k r).map (elemFp code)
/-- The scale of line r at element kk (R228). -/
def tileScale (x : OpSlot) (kind code k r kk : Nat) : Fp :=
  scaleFp kind (byteAt x.scale (r * ceilDiv k (scaleBs code) + kk / scaleBs code)).toNat
/-- The programmable table: nibble i of row r (R226). -/
def codeRow (cb : Tab Byte) (r i : Nat) : Nat := (byteAt cb (4 * r + i / 2)).toNat / 16 ^ (i % 2) % 16

/-- The accumulator elements of a lane (R231). -/
def accElems (w : Word) (l : Lane) (d : Nat) : List Nat :=
  let n := (shapeOf (mmaShape w)).1
  (List.range n).map (fun j =>
    if mmaAcc w = 1 then (l.v (d + j / 2)).toNat / 65536 ^ (j % 2) % 65536 else (l.v (d + j)).toNat)
/-- The registers that hold the elements. -/
def accPack (w : Word) (es : List Nat) : List Word :=
  (List.range (mmaSpan w)).map (fun k =>
    if mmaAcc w = 1 then BitVec.ofNat 32 (es.getD (2 * k) 0 + 65536 * es.getD (2 * k + 1) 0) else BitVec.ofNat 32 (es.getD k 0))
/-- What MMA gives each executing lane (R364). -/
def mmaLanes (i : Iss) (cb : Tab Byte) (w : Word) (d : BitVec 7) (a b : BitVec 5) (z : BitVec 1) : List (Nat × List Word) :=
  let (n, k, g) := shapeOf (mmaShape w)
  let ta := mmaTypeA w
  let tb := mmaTypeB w
  let xa := i.w.opSlot a.toNat
  let xb := i.w.opSlot b.toNat
  let tab := if mmaTable w then codeRow cb else c2Rom
  let c0 (L : Nat) : List Nat := if z = 1 then List.replicate n 0 else accElems w (i.l L) d.toNat
  if mmaAcc w = 2 then
    let cols := (List.range n).map (fun j => (tileBits xb tb k j).map (elemInt tb))
    i.E.map (fun L => (L, accPack w (List.zipWith (fun col c => mmaInt ((tileBits xa ta k L).map (elemInt ta)) col c) cols (c0 L))))
  else
    let f := if mmaAcc w = 1 then fp16 else fp32
    let cols := (List.range n).map (fun j => (j, tileFp xb tab tb k j))
    i.E.map (fun L => (L, accPack w (List.zipWith (fun col c =>
      mmaFp f k g (fun kk => (tileScale xa (mmaScaleA w) ta k L kk, tileScale xb (mmaScaleB w) tb k col.1 kk))
        (tileFp xa tab ta k L) col.2 c) cols (c0 L))))

/-- The format word of the executing lanes. -/
def fmtWord (i : Iss) (f : BitVec 7) : Word := (i.l (i.E.headD 0)).v f.toNat
/-- The checks of R232 and the accumulator span: what every executing lane raises. -/
def mmaTrap (s : State) (i : Iss) (d f : BitVec 7) : Option (Nat × Word) :=
  let w := fmtWord i f
  let regs := (i.l (i.E.headD 0)).regs.length
  if !uniform i (fun L => (i.l L).v f.toNat) then some (tkFMTDIV, 0)
  else if !mmaLegal w then some (tkFMTILL, w)
  else if mmaTypeB w == 9 && !s.hasUnit 1 then some (tkUNITABSENT, 1)
  else
    match overRange regs d.toNat (mmaSpan w) with
    | some r => some (tkREGRANGE, lo32 r)
    | none => none
/-- MMA waits for the unit, for its tiles, and for its accumulators (R198, R360, R365). -/
def mmaBusy (d f : BitVec 7) (a b : BitVec 5) (s : State) (i : Iss) : Bool :=
  s.mmaOn i.core || s.filling i.w (i.w.slotIx a.toNat) || s.filling i.w (i.w.slotIx b.toNat) ||
    ((mmaTrap s i d f).isNone && i.E.any (fun L =>
      (firstEmpty (i.l L).regs Reg.full d.toNat (mmaSpan (fmtWord i f))).isSome))
/-- MMA: the word names the first accumulator; the format word says how many there are (R288, R363). -/
def fMma (d f : BitVec 7) (a b : BitVec 5) (z : BitVec 1) : FormF := fun _ _ =>
  { srcs := srcBlk f :: (if z = 0 then [srcBlk d] else []), dsts := [(d.toNat, 1)], handles := [a.toNat, b.toNat] }
/-- MMA (R363 to R365). -/
def execMma (d f : BitVec 7) (a b : BitVec 5) (z : BitVec 1) (s : State) : Out :=
  .next (s.issue (fMma d f a b z) (waitIf (mmaBusy d f a b)) (fun i s =>
    match mmaTrap s i d f with
    | some (k, x) => (s, i.E.map (fun L => (L, (i.l L).trapHere k x)))
    | none =>
      let w := fmtWord i f
      let rs := mmaLanes i (s.core i.core).codebook w d a b z
      let free := s.after i.die (mmaCycles w)
      let s1 := (s.updCore i.core (fun c => { c with
        mmaFree := free, mmaPc := (i.l (i.E.headD 0)).pc, mmaUid := i.uid, mmaBusy := true
        mmaSlots := [i.w.slotIx a.toNat, i.w.slotIx b.toNat] })).addActivity i.die i.c (512 * mmaCycles w)
      prodBody false (fun _ _ L l =>
        .land l d.toNat ((rs.find? (fun r => r.1 == L)).map (fun r => r.2) |>.getD []) (s.after i.die (mmaCycles w + 12))) i s1))
/-- MATRIX_UNIT_FREE of core m of die n: the occupation has ended (R365). -/
def execMatrixUnitFree (s : State) : Out :=
  let k := coreIx s.occ.n s.occ.m
  .next (if (s.core k).mmaBusy && !s.mmaOn k then s.updCore k (fun c => { c with mmaBusy := false }) else s)

/-! ## HADQ (R366) -/

/-- Registers HADQ writes for a format, 0 for a format it does not take. -/
def hadqRegs (fmt : Nat) : Nat := if fmt = 3 || fmt = 4 || fmt = 6 then 9 else if fmt = 5 || fmt = 8 then 5 else 0
def fmtOfHint (h : HintSet) : Nat := match h.xmod with | some x => (xmFMT x) | none => 0
/-- HADQ (R366): the quadrant's issue is taken for 5 cycles. -/
def execHadq (d a b : BitVec 7) (e f : BitVec 1) (g : BitVec 2) (s : State) : Out :=
  .next (s.issue (fun h _ =>
      { g := g.toNat, xmod := true, sr := true, bad := hadqRegs (fmtOfHint h) == 0, srcs := [src a e 32, src b f]
        dsts := [(d.toNat, hadqRegs (fmtOfHint h))] }) never (fun i s =>
    laneBody (fun _ i L l =>
      let rm := pickRm (i.h L).xmod .rne
      .ok (l.setFrom d.toNat (hadq (fmtOfHint (i.h L)) rm l.hseed (l.v b.toNat) ((List.range 32).map (fun k => l.v (a.toNat + k))))).adv) i
      (s.updCore i.core (fun c => { c with qfree := listUpd c.qfree (i.w.slot % 4) (fun _ => s.after i.die 5) }))))

/-! ## The sampling pipe (R367 to R369) -/

/-- What a lane's reads at issue answer. -/
inductive Rd (α : Type) where
  /-- A value, and what was read: address, length and page. -/
  | ok (a : α) (ps : List (Nat × Nat × Pte))
  /-- The page of this VA has first to be walked. -/
  | need (va : Nat)
  | bad (va : Nat) (x : Xl)
  | illegal
deriving DecidableEq, Repr

/-- A .wk read on a NORMAL page (R367). -/
def State.laneRd (s : State) (i : Iss) (va n : Nat) : Rd Nat :=
  if s.unwalked i [va] != [] then .need va
  else
    match s.laneXl i va n .load with
    | .ok pa e => if e.type = 0 then .ok (s.rd pa n) [(pa, n, e)] else .bad va (.access 0)
    | x => .bad va x
/-- The 32 bytes of a descriptor (R367). -/
def State.descBytes (s : State) (i : Iss) (va : Nat) : Rd Nat :=
  if va % 16 != 0 then .bad va .misaligned
  else
    match s.laneRd i va 16 with
    | .ok lo p => (match s.laneRd i ((va + 16) % 2 ^ 72) 16 with
      | .ok hi q => .ok (lo + 2 ^ 128 * hi) (p ++ q)
      | x => x)
    | x => x
/-- Field of a descriptor. -/
def dField (x off len : Nat) : Nat := x / 2 ^ (8 * off) % 2 ^ (8 * len)

/-- floor of a finite value. -/
def Fp.floor : Fp → Int
  | .fin neg m e =>
    if 0 ≤ e then (if neg then -(m * 2 ^ e.toNat : Int) else m * 2 ^ e.toNat)
    else if neg then -(((m + 2 ^ (-e).toNat - 1) / 2 ^ (-e).toNat : Nat) : Int) else ((m / 2 ^ (-e).toNat : Nat) : Int)
  | _ => 0
def fmaBits (a b c : Nat) : Nat := (fp32.fma .rne false (fp32.decode a) (fp32.decode b) (fp32.decode c)).1
def mulBits (a b : Nat) : Nat := (fp32.mul .rne false (fp32.decode a) (fp32.decode b)).1
/-- The FP32 code of a small natural number. -/
def natBits (n : Nat) : Nat := (fp32.ofInt .rne false n 0 false).1

/-- The cell of a position along one axis of r cells (R368). -/
def marchCell (p r : Nat) : Nat :=
  match fp32.decode (mulBits p (natBits r)) with
  | .inf neg => if neg then 0 else r - 1
  | v => (min (max v.floor 0) ((r : Int) - 1)).toNat
/-- Steps from k on (R368): t and k of the first occupied cell, or the miss. -/
def State.marchGo (s : State) (i : Iss) (x : Nat) (ray : Nat → Nat) (ps : List (Nat × Nat × Pte)) : Nat → Nat → Rd (List Word)
  | 0, _ => .ok [0x7F800000, 0xFFFFFFFF] ps
  | fuel + 1, k =>
    let t := fmaBits (natBits k) (ray 7) (ray 6)
    let p (a : Nat) := fmaBits t (ray (3 + a)) (ray a)
    let rx := dField x 12 2
    let ry := dField x 14 2
    let bit := marchCell (p 0) rx + rx * (marchCell (p 1) ry + ry * marchCell (p 2) (dField x 16 2))
    if (List.range 3).any (fun a => (fp32.decode (p a)).isNan) then State.marchGo s i x ray ps fuel (k + 1)
    else
      match s.laneRd i ((dField x 0 9 + bit / 8) % 2 ^ 72) 1 with
      | .ok b q => if b.testBit (bit % 8) then .ok [BitVec.ofNat 32 t, lo32 k] (ps ++ q) else State.marchGo s i x ray (ps ++ q) fuel (k + 1)
      | .need va => .need va
      | .bad va e => .bad va e
      | .illegal => .illegal
/-- MARCH in one lane (R367, R368). -/
def State.marchLane (s : State) (i : Iss) (L : Nat) (a b : BitVec 7) : Rd (List Word) :=
  let l := i.l L
  match s.descBytes i (l.words b.toNat 3 % 2 ^ 72) with
  | .ok x ps =>
    let dim (n : Nat) : Bool := decide (1 ≤ n) && decide (n ≤ 4096)
    if !dim (dField x 12 2) || !dim (dField x 14 2) || !dim (dField x 16 2) || dField x 18 1 = 0 || decide (64 < dField x 18 1) ||
        dField x 9 3 != 0 || dField x 19 13 != 0 then .illegal
    else s.marchGo i x (fun n => (l.v (a.toNat + n)).toNat) ps (dField x 18 1) 0
  | .need va => .need va
  | .bad va e => .bad va e
  | .illegal => .illegal

/-- One corner of HGRID: the running sums from the table's entry (R369). -/
def State.hgridGo (s : State) (i : Iss) (x : Nat) (ix : Nat → Word) (fr : Nat → Nat) (ps : List (Nat × Nat × Pte)) :
    List Nat → Nat → Nat → Rd (List Word)
  | [], a0, a1 => .ok [BitVec.ofNat 32 a0, BitVec.ofNat 32 a1] ps
  | q :: qs, a0, a1 =>
    let b (a : Nat) : Word := if q.testBit a then 1 else 0
    let h : Word := (ix 0 + b 0) ^^^ ((ix 1 + b 1) * 0x9E3779B1) ^^^ ((ix 2 + b 2) * 0xC2B2AE3D)
    let e := h.toNat % dField x 12 4
    let w (a : Nat) : Nat := if q.testBit a then fr a else (fp32.add .rne false (fp32.decode 0x3F800000) (fp32.decode (fr a)).neg).1
    let ww := mulBits (mulBits (w 0) (w 1)) (w 2)
    match s.laneRd i ((dField x 0 9 + 4 * e) % 2 ^ 72) 4 with
    | .ok v r =>
      let acc (c f : Nat) : Nat := (fp32.fma .rne false (fp32.decode ww) (fp16.decode f) (fp32.decode c)).1
      State.hgridGo s i x ix fr (ps ++ r) qs (acc a0 (v % 65536)) (acc a1 (v / 65536))
    | .need va => .need va
    | .bad va e => .bad va e
    | .illegal => .illegal
/-- HGRID in one lane (R367, R369). -/
def State.hgridLane (s : State) (i : Iss) (L : Nat) (a b : BitVec 7) : Rd (List Word) :=
  let l := i.l L
  match s.descBytes i (l.words b.toNat 3 % 2 ^ 72) with
  | .ok x ps =>
    let t := dField x 12 4
    let sc := dField x 16 4
    let scOk := match fp32.decode sc with | .fin neg m _ => !neg && m != 0 | _ => false
    if !isPow2 t || decide (t < 16) || decide (2 ^ 24 < t) || !scOk || dField x 0 1 % 4 != 0 || dField x 9 3 != 0 || dField x 20 12 != 0 then .illegal
    else
      let pos (n : Nat) : Nat := mulBits (l.v (a.toNat + n)).toNat sc
      let out (n : Nat) : Bool := match fp32.decode (pos n) with
        | .fin neg m e => decide (2 ^ 31 ≤ (Fp.fin neg m e).floor.natAbs)
        | _ => true
      if (List.range 3).any out then .ok [BitVec.ofNat 32 fp32.nanBits, BitVec.ofNat 32 fp32.nanBits] ps
      else
        let fl (n : Nat) : Int := (fp32.decode (pos n)).floor
        let fr (n : Nat) : Nat := (fp32.add .rne false (fp32.decode (pos n)) (fpOfInt (-(fl n)))).1
        s.hgridGo i x (fun n => BitVec.ofInt 32 (fl n)) fr ps (List.range 8) 0 0
  | .need va => .need va
  | .bad va e => .bad va e
  | .illegal => .illegal

/-- What the lanes of a sampling instruction read. -/
def rdWholes (run : State → Iss → Nat → Rd (List Word)) (s : State) (i : Iss) : List Whole :=
  i.E.flatMap (fun L => match run s i L with | .ok _ ps => ps.map (fun p => { lane := L, pa := p.1, n := p.2.1, e := p.2.2 }) | _ => [])
/-- Cycles that a lane's result takes beyond its pipe: those of its reads but the two of its descriptor (R353). -/
def State.rdCycles (s : State) (die : Nat) (ws : List Whole) (L : Nat) : Nat := s.wholeCycles die ((ws.filter (fun x => x.lane == L)).drop 2)
/-- An instruction of the sampling pipe: two results, these cycles and those of its reads after issue (R353); na registers from vA. -/
def sampleOp (na lat : Nat) (run : State → Iss → Nat → Rd (List Word)) (d a b : BitVec 7) (e f : BitVec 1) (g : BitVec 2) (s : State) :
    State :=
  s.issue (fun _ _ => { g := g.toNat, xmod := true, unit := some 0, srcs := [src a e na, src b f 3], dsts := [(d.toNat, 2)] })
    (fun s i =>
      match i.E.filterMap (fun L => match run s i L with | .need va => some va | _ => none) with
      | [] => both (waitPieces (.load 0 0) .wk (rdWholes run)) (waitWholes (rdWholes run)) s i
      | vs => some (vs.foldl (fun s va => s.askWalk i.die i.c (va / 65536) i.uid) s))
    (fun i s =>
      let ws := rdWholes run s i
      let rs := i.E.map (fun L => (L, run s i L))
      let s1 := rs.foldl (fun s r => match r.2 with
        | .ok vs _ => (s.goOn i r.1 (d.toNat, 2)).addLand i.uid r.1 d.toNat vs (s.after i.die (lat + s.rdCycles i.die ws r.1)) (i.l r.1).pc false
        | .bad _ (.access 1) => s.machineCheck i.c 0xFFFF 0 1 s.downPort
        | _ => s) ((s.passed i ws).sawAll i .wk ws)
      let s2 := s1.parkFaults i 0 (d.toNat, 2) (rs.filterMap (fun r => match r.2 with | .bad va (.fault c) => some (r.1, va, c) | _ => none))
      (s2, rs.filterMap (fun r => match r.2 with
        | .illegal => some (r.1, (i.l r.1).trapHere tkILLEGAL 0)
        | .bad va .misaligned => some (r.1, ((i.l r.1).trapHere tkMISALIGN 16).withVa va)
        | .bad va (.access x) => some (r.1, ((i.l r.1).trapHere tkACCESS x).withVa va)
        | _ => none)))
/-- MARCH (R368). -/
def execMarch (d a b : BitVec 7) (e f : BitVec 1) (g : BitVec 2) (s : State) : Out :=
  .next (sampleOp 8 40 (fun s i L => s.marchLane i L a b) d a b e f g s)
/-- HGRID (R369). -/
def execHgrid (d a b : BitVec 7) (e f : BitVec 1) (g : BitVec 2) (s : State) : Out :=
  .next (sampleOp 3 24 (fun s i L => s.hgridLane i L a b) d a b e f g s)

/-! ## The DOT group (R370) -/

/-- A DOT instruction: vD, vA and vA + 1, landing 8 cycles after issue (R353). -/
def dotOp (fn : Word → Word → Word → Word) (d a : BitVec 7) (e : BitVec 1) (g : BitVec 2) (s : State) : State :=
  s.issue (fun _ _ => { g := g.toNat, srcs := [src a e 2, srcBlk d], dsts := [(d.toNat, 1)] }) never
    (prodBody false (fun s i _ l => .land l d.toNat [fn (l.v d.toNat) (l.v a.toNat) (l.v (a.toNat + 1))] (s.after i.die 8)))
/-- IDOT4 (R370). -/
def execIdot4 (d a : BitVec 7) (e : BitVec 1) (g : BitVec 2) (s : State) : Out := .next (dotOp idot4 d a e g s)
/-- NDOT4 (R370). -/
def execNdot4 (d a : BitVec 7) (e : BitVec 1) (g : BitVec 2) (s : State) : Out := .next (dotOp ndot4 d a e g s)
/-- IDOT8 (R370). -/
def execIdot8 (d a : BitVec 7) (e : BitVec 1) (g : BitVec 2) (s : State) : Out := .next (dotOp idot8 d a e g s)
/-- IDIST4 (R370). -/
def execIdist4 (d a : BitVec 7) (e : BitVec 1) (g : BitVec 2) (s : State) : Out := .next (dotOp idist4 d a e g s)
/-- FDOT4E4 (R370, R236). -/
def execFdot4e4 (d a : BitVec 7) (e : BitVec 1) (g : BitVec 2) (s : State) : Out := .next (dotOp (fdot 3 4) d a e g s)
/-- FDOT4E5 (R370, R236). -/
def execFdot4e5 (d a : BitVec 7) (e : BitVec 1) (g : BitVec 2) (s : State) : Out := .next (dotOp (fdot 4 4) d a e g s)
/-- HDOT2 (R370, R236). -/
def execHdot2 (d a : BitVec 7) (e : BitVec 1) (g : BitVec 2) (s : State) : Out := .next (dotOp (fdot 1 2) d a e g s)

/-! ## Top-k lists (R239, R240, R371, R372) -/

/-- What a list offset names. -/
inductive KAt where
  | list (l : KList)
  | malformed
  | access
deriving DecidableEq, Repr

def State.kAt (s : State) (tid off : Nat) : KAt :=
  let t := (s.team? tid).getD { tid := tid, gid := 0, ctx := 0 }
  let n (o len : Nat) : Nat := leNat (bytesAt t.scratch (off + o) len)
  let k := n 0 2
  let c := n 2 2
  if t.alloc < off + 16 then .access
  else if k = 0 || decide (256 < k) || decide (k < c) || decide (1 < n 4 1) || n 6 2 != 0 || n 12 4 != 0 then .malformed
  else if t.alloc < off + 16 + 8 * k then .access
  else
    .list { k, int := n 4 1 == 1, es := (List.range c).map (fun j => (BitVec.ofNat 32 (n (16 + 8 * j) 4), BitVec.ofNat 32 (n (20 + 8 * j) 4))) }
/-- The device writes a list back, with its LOCK byte. -/
def State.kPut (s : State) (tid off : Nat) (l : KList) (lock : Bool) : State :=
  s.spWr tid off (leBytes 2 l.k ++ leBytes 2 l.es.length ++ [if l.int then 1 else 0, if lock then 1 else 0, 0, 0] ++
    leBytes 4 l.thresh.toNat ++ [0, 0, 0, 0] ++ l.es.flatMap (fun e => leBytes 4 e.1.toNat ++ leBytes 4 e.2.toNat))

/-- LOCK is held on the list, by the wave itself (own) or by another (R240). -/
def State.kLocked (s : State) (tid uid : Nat) (own : Bool) (off : Nat) : Bool :=
  match s.team? tid with | some t => t.locks.any (fun k => k.off == off && (k.uid == uid) == own) | none => false
/-- Bytes of a list of this capacity (R239). -/
def kLen (k : Nat) : Nat := 16 + 8 * k
/-- These lanes of the wave hold LOCK until a cycle. -/
def State.kLock (s : State) (tid uid off len : Nat) (ls : List Nat) (till : Nat) : State :=
  s.updTeam tid (fun t => { t with locks := t.locks ++ [{ off, len, uid, lanes := lanesMask ls, till }] })
/-- What a list offset register must be: uniform and aligned. -/
def kTraps (i : Iss) (r : Nat) : Option Traps :=
  let off := ((i.l (i.E.headD 0)).v r).toNat
  if !uniform i (fun L => (i.l L).v r) then some (fmtDiv i)
  else if off % 16 != 0 then some (i.E.map (fun L => (L, ((i.l L).trapHere tkMISALIGN 16).withOff off)))
  else none
def kAccess (i : Iss) (off : Nat) : Traps := i.E.map (fun L => (L, ((i.l L).trapHere tkACCESS 0).withOff off))
/-- Scratchpad accesses of the lane. -/
def inScratch (a : Acc) : Bool := a.sp.isSome
def fTopk (srcs : List Src) (dsts : List (Nat × Nat)) : FormF := fun _ _ => { unit := some 2, srcs, dsts }

/-- Registers that an operation on a list lands. -/
def KOp.dst : KOp → Nat × Nat
  | .init _ _ _ => (0, 0)
  | .ins _ d _ _ => (d, 1)
  | .mrg _ _ d => (d, 1)
/-- The candidate it brings. -/
def KOp.cand : KOp → Word × Word
  | .ins _ _ key payload => (key, payload)
  | _ => (0, 0)
/-- The lists it names. -/
def KOp.lists : KOp → List Nat
  | .init off _ _ => [off]
  | .ins off _ _ _ => [off]
  | .mrg off src _ => [off, src]

/-- What comes of a KINIT, KINS or KMRG. -/
inductive KRes where
  /-- The list is changed; the words that land in the lanes, and when they may. -/
  | done (s : State) (vals : List (Nat × Word)) (due : Nat)
  /-- The list at this offset is locked. -/
  | locked (off : Nat)
  | trap (f : Lane → Trap)

/-- KINIT, KINS or KMRG for these lanes of a wave, all of one instruction, on lists that no lock shuts out (R372, R240). The wave holds
LOCK until the results may land (R353). -/
def State.kRun (s : State) (shut : Nat → Bool) (die tid uid : Nat) (xs : List (Nat × KOp)) : KRes :=
  let access (off : Nat) : KRes := .trap (fun l => (l.trapHere tkACCESS 0).withOff off)
  let illegal : KRes := .trap (fun l => l.trapHere tkILLEGAL 0)
  let ls := xs.map (fun x => x.1)
  match xs with
  | [] => .done s [] s.cycle
  | (_, .init off k int) :: _ =>
    if ((s.team? tid).map Team.alloc).getD 0 < off + kLen k then access off
    else if shut off then .locked off
    else .done (s.kPut tid off { k, int, es := [] } false) [] s.cycle
  | (_, .ins off _ _ _) :: _ =>
    if s.kAt tid off = .access then access off
    else if shut off then .locked off
    else
      match s.kAt tid off with
      | .list l =>
        let cs := xs.map (fun x => x.2.cand)
        let due := s.after die (24 + l.moved cs)
        .done ((s.kPut tid off (l.takes cs).1 true).kLock tid uid off (kLen l.k) ls due) (ls.zip (l.takes cs).2) due
      | _ => illegal
  | (_, .mrg off src _) :: _ =>
    if s.kAt tid off = .access then access off
    else if s.kAt tid src = .access then access src
    else if off = src then illegal
    else if shut off then .locked off
    else if shut src then .locked src
    else
      match s.kAt tid off, s.kAt tid src with
      | .list l, .list m =>
        if l.int != m.int then illegal
        else
          let l1 := (l.takes m.es).1
          let due := s.after die (24 + l.moved m.es)
          .done ((((s.kPut tid off l1 true).spWr tid (src + 5) [1]).kLock tid uid off (kLen l.k) ls due).kLock tid uid src (kLen m.k) ls due)
            (ls.map (fun L => (L, l1.thresh))) due
      | _, _ => illegal

/-- The lanes block until the list is free, their destinations empty with the PC as tag (R197, R203, R353). -/
def kBlock (i : Iss) (off : Nat) (xs : List (Nat × KOp)) (s : State) : State :=
  xs.foldl (fun s' x => (s'.updLane i.uid x.1 (fun l => l.mark l.pc x.2.dst.1 x.2.dst.2)).block i.uid x.1 (.topk i.t.tid off x.2 s.fresh)) s
/-- KINIT, KINS or KMRG as it issues. -/
def kIssue (op : Lane → KOp) (i : Iss) (s : State) : State × Traps :=
  let xs := i.E.map (fun L => (L, op (i.l L)))
  match s.kRun (s.kLocked i.t.tid i.uid false) i.die i.t.tid i.uid xs with
  | .locked off => (kBlock i off xs s, [])
  | .trap f => (s, i.E.map (fun L => (L, f (i.l L))))
  | .done s1 vals due =>
    if vals = [] then laneBody (fun _ _ _ l => .ok l.adv) i s1
    else prodBody false (fun _ i L l => .land l (op (i.l L)).dst.1 [((vals.find? (fun x => x.1 == L)).map (fun x => x.2)).getD 0] due) i s1
/-- A list operation waits, eligible, for earlier scratchpad accesses of its lanes, for its own lanes' work on a list whose bytes it names
(R398), and for its own wave's on the very list (R240). -/
def kBusy (op : Lane → KOp) : State → Iss → Option State :=
  both (waitQuiet inScratch) (waitIf (fun s i =>
    let x := op (i.l (i.E.headD 0))
    let len (off : Nat) : Nat := match x with
      | .init _ k _ => kLen k
      | _ => (match s.kAt i.t.tid off with | .list l => kLen l.k | _ => 16)
    x.lists.any (fun off => s.kLocked i.t.tid i.uid true off || i.E.any (fun L => s.ownList i L i.t.tid off (len off)))))

/-- KINIT (R372). -/
def execKinit (a : BitVec 7) (y : BitVec 1) (k : BitVec 8) (s : State) : Out :=
  let op (l : Lane) : KOp := .init (l.v a.toNat).toNat (k.toNat + 1) (y == 1)
  .next (s.issue (fTopk [srcBlk a] []) (kBusy op) (fun i s =>
    match kTraps i a.toNat with
    | some ts => (s, ts)
    | none => kIssue op i s))
/-- KINS (R372, R240): the candidates of the executing lanes in ascending order. -/
def execKins (d a : BitVec 7) (s : State) : Out :=
  let op (l : Lane) : KOp := .ins (l.v a.toNat).toNat d.toNat (l.v (a.toNat + 1)) (l.v (a.toNat + 2))
  .next (s.issue (fTopk [srcBlk a 3] [(d.toNat, 1)]) (kBusy op) (fun i s =>
    match kTraps i a.toNat with
    | some ts => (s, ts)
    | none => kIssue op i s))
/-- KMRG (R372): the list at vA + 1 into the list at vA. -/
def execKmrg (d a : BitVec 7) (s : State) : Out :=
  let op (l : Lane) : KOp := .mrg (l.v a.toNat).toNat (l.v (a.toNat + 1)).toNat d.toNat
  .next (s.issue (fTopk [srcBlk a 2] [(d.toNat, 1)]) (kBusy op) (fun i s =>
    match kTraps i a.toNat, kTraps i (a.toNat + 1) with
    | some ts, _ => (s, ts)
    | none, some ts => (s, ts)
    | none, none => kIssue op i s))
/-- KRD: key and payload of one entry (R372). -/
def execKrd (d a : BitVec 7) (s : State) : Out :=
  .next (s.issue (fTopk [srcBlk a 2] [(d.toNat, 2)])
    (both (waitQuiet inScratch) (waitIf (fun s i =>
      let off := ((i.l (i.E.headD 0)).v a.toNat).toNat
      i.E.any (fun L => s.ownList i L i.t.tid off (match s.kAt i.t.tid off with | .list l => kLen l.k | _ => 16))))) (fun i s =>
    let off := ((i.l (i.E.headD 0)).v a.toNat).toNat
    match kTraps i a.toNat with
    | some ts => (s, ts)
    | none =>
      match s.kAt i.t.tid off with
      | .access => (s, kAccess i off)
      | .malformed => (s, illegalAll i)
      | .list l =>
        prodBody false (fun s _ _ r =>
          let e := l.es.getD (r.v (a.toNat + 1)).toNat (l.empty, 0xFFFFFFFF)
          .land r d.toNat [e.1, e.2] (s.after i.die 24)) i s))
/-- The lanes of one instruction that wait for a list complete it, now that the list is free (R197). -/
def State.kServe (s : State) (tid uid grp : Nat) : State :=
  match s.wave? uid, s.team? tid with
  | some w, some t =>
    let xs := (List.range w.lanes.length).filterMap (fun L => match (w.lane L).st with
      | .blocked (.topk _ _ op g) => if g = grp then some (L, op) else none
      | _ => none)
    let each (f : Lane → Lane) (s : State) : State := xs.foldl (fun s x => s.updLane uid x.1 f) s
    match s.kRun (fun off => t.locks.any (fun k => k.off == off)) t.die tid uid xs with
    | .locked off => each (fun l => match l.st with | .blocked (.topk n _ op g) => { l with st := .blocked (.topk n off op g) } | _ => l) s
    | .trap f => (each Lane.giveUp s).takeTraps uid (xs.map (fun x => (x.1, f (w.lane x.1))))
    | .done s1 vals due =>
      (each (fun l => { l.adv with st := .run }) (vals.foldl (fun s v =>
        s.addLand uid v.1 ((xs.find? (fun x => x.1 == v.1)).map (fun x => x.2.dst.1) |>.getD 0) [v.2] due (w.lane v.1).pc false) s1)).stepHalt uid
  | _, _ => s
/-- The instruction that has waited longest for a list: its wave and number. -/
def State.kFirst (s : State) (tid off : Nat) : Option (Nat × Nat) :=
  minBy (fun x => x.2) (s.blocked.filterMap (fun x => match x.2.2.2 with
    | .topk t o _ g => if t = tid && o = off then some (x.1, g) else none
    | _ => none))
/-- Those that wait for a list complete in the order in which they blocked, until one holds LOCK. -/
def State.kWake (tid off : Nat) : Nat → State → State
  | 0, s => s
  | n + 1, s =>
    if (match s.team? tid with | some t => t.locks.any (fun k => k.off == off) | none => true) then s
    else
      match s.kFirst tid off with
      | some x => State.kWake tid off n (s.kServe tid x.1 x.2)
      | none => s
/-- TOPK_LOCK_RELEASE of the list at offset m of team n: LOCK clears, and what waits for the list completes (R240, R197). -/
def execTopkLockRelease (s : State) : Out :=
  .next (match s.activeTeam? s.occ.n with
    | none => s
    | some t =>
      match t.locks.find? (fun k => k.off == s.occ.m && decide (k.till ≤ s.cycle)) with
      | none => s
      | some k =>
        let s1 := (s.updTeam t.tid (fun t => { t with locks := t.locks.erase k })).spWr t.tid (s.occ.m + 5) [0]
        s1.kWake t.tid s.occ.m s1.blocked.length)

end Sys2Proof.Machine
end

