-- ==== Sys2Proof/Machine/System.lean ====
section
/-!
DEFINITION. Special registers, TRAP, BKPT, RFT, SAVEW and RESTW (R215, R384 to R388), words that are no instruction
(R288), instruction fetch (R198), and the events of windows, handlers and comparators (R208, R209, R246, R247).
-/

namespace Sys2Proof.Machine

/-! ## SRD and SWR (R384) -/

/-- SRD (R384). -/
def execSrd (d : BitVec 7) (z : BitVec 11) (s : State) : Out :=
  .next (s.regIssue (fun _ _ => { bad := !Instr.wf (.srd d z), dsts := [(d.toNat, 1)] }) (fun s i L l =>
    let (x, l1) := srd s i L l z.toNat
    .ok (l1.set d.toNat x).adv))
/-- What SWR makes of a lane: unimplemented bits are ignored (R384). -/
def Lane.swr (l : Lane) (sel : Nat) (x : Word) : Lane :=
  match sel with
  | 21 => { l with fpctl := x &&& 0x1FFF }
  | 33 => { l with key := x &&& 0xFFFF }
  | 34 => { l with hseed := x }
  | _ => { l with resumepc := x }
/-- SWR (R384): RESUMEPC only in the handler, which the lane and not the word says (R288, check 6). -/
def execSwr (a : BitVec 7) (z : BitVec 11) (s : State) : Out :=
  .next (s.regIssue (fun _ _ => { bad := !Instr.wf (.swr a z), srcs := [srcBlk a] }) (fun _ _ _ l =>
    if z.toNat = 36 && !l.inHandler then .trap l (l.trapHere tkILLEGAL 0) else .ok (l.swr z.toNat (l.v a.toNat)).adv))

/-! ## TRAP, BKPT and RFT (R385 to R387) -/

/-- TRAP.user (R385). -/
def execTrapUser (a : BitVec 7) (s : State) : Out :=
  .next (s.regIssue (fSYS [srcBlk a] []) (fun _ _ _ l => .trap l (l.trapHere tkUSER (l.v a.toNat))))
/-- TRAP.assert (R385, R210). -/
def execTrapAssert (a : BitVec 7) (n : BitVec 4) (s : State) : Out :=
  .next (s.issue (fSYS [srcBlk a 2] []) never (fun i s =>
    let L := minNat i.E
    let msg := vaOf i.w n.toNat (i.l L) a.toNat 0
    let s1 := s.takeTraps i.uid (i.E.map (fun L => (L, (i.l L).trapHere tkASSERT 0)))
    (s1.stopCtx i.t i.w L (i.l L).pc msg, [])))
/-- BKPT (R386, R247). -/
def execBkpt (s : State) : Out :=
  .next (s.issue (fSYS [] []) never (fun i s =>
    ((advAll i s).haltLanes i.uid (i.E.map (fun L => (L, (i.l L).pc, (i.l L).pc + 1, 0xFF))), [])))
/-- RFT (R387). -/
def execRft (s : State) : Out :=
  .next (s.issue (fun _ h => { prd := false, bad := !h }) never (fun i s =>
    ((s.updWave i.uid (fun w => i.E.foldl (fun w L => w.updLane L (fun l =>
      { l with st := .returned, hints := [], stepped := l.stepping })) w)).endHandler i.uid, [])))

/-! ## The wave image (R215) -/

/-- Four bytes of each lane. -/
def laneWords (w : Wave) (f : Lane → Nat) : List Byte := (List.range 32).flatMap (fun L => leBytes 4 (f (w.lane L)))
/-- Registers per lane of a wave (R202). -/
def Wave.regs (w : Wave) : Nat := (w.lane 0).regs.length
/-- Parked by a trap, also while the handler runs, or on a fault record. -/
def Lane.parkedNow (l : Lane) : Bool :=
  match l.st with
  | .trapped => true
  | .faulted _ => true
  | _ => l.inHandler
def laneMask (w : Wave) (p : Lane → Bool) : Word := lanesMask ((List.range w.lanes.length).filter (fun L => p (w.lane L)))
def zeros (n : Nat) : List Byte := List.replicate n 0
/-- Producer tag, full and fault of a register (R215). -/
def Reg.tagWord (r : Reg) : Nat := r.tag.toNat + 2 ^ 32 * b2n r.full + 2 ^ 33 * b2n r.fault
/-- The 0xC900 bytes of a wave's image (R215). -/
def Wave.image (w : Wave) : List Byte :=
  leBytes 4 w.regs ++ leBytes 4 (laneMask w (fun l => l.st == .exited)).toNat ++ leBytes 4 (laneMask w Lane.parkedNow).toNat ++
    leBytes 4 (laneMask w (fun l => l.st == .halted)).toNat ++ zeros 48 ++
    (List.range 16).flatMap (fun n => leBytes 16 (if n = 15 then w.handlerB15.getD (w.bases.getD 15 0) else w.bases.getD n 0).toNat) ++
    (List.range 32).flatMap (fun n => leBytes 4 (match w.handles.getD n none with | some k => 2 ^ 31 + k | none => 0)) ++
    laneWords w (fun l => l.pc.toNat) ++ laneWords w (fun l => l.fpctl.toNat) ++ laneWords w (fun l => l.key.toNat) ++
    laneWords w (fun l => l.resumepc.toNat) ++
    (List.range 6).flatMap (fun k => laneWords w (fun l => (l.trapinfo.getD k 0).toNat)) ++
    (List.range 32).flatMap (fun L => leBytes 16 ((w.lane L).preds ||| 1#128).toNat) ++ zeros 64 ++
    (List.range 128).flatMap (fun n => laneWords w (fun l => if n < l.regs.length then (l.v n).toNat else 0)) ++
    (List.range 128).flatMap (fun n => (List.range 32).flatMap (fun L =>
      leBytes 8 (if n < (w.lane L).regs.length then ((w.lane L).reg n).tagWord else 0)))

/-- Slot handles of an image: none where it is illegal (R215). -/
def imageHandles (img : List Byte) (slots : Nat) : Option (List (Option Nat)) :=
  let ws := (List.range 32).map (fun n => bsNat img (0x140 + 4 * n) 4)
  let held := ws.filterMap (fun x => if 2 ^ 31 ≤ x then some (x % 128) else none)
  if ws.any (fun x => if 2 ^ 31 ≤ x then x % 2 ^ 31 / 128 != 0 else x != 0) || held.any (fun k => decide (slots ≤ k)) ||
      held.eraseDups.length != held.length then none
  else some (ws.map (fun x => if 2 ^ 31 ≤ x then some (x % 128) else none))
/-- A lane as an image restores it (R215). -/
def Lane.restore (l : Lane) (img : List Byte) (L : Nat) : Lane :=
  { l with
    fpctl := BitVec.ofNat 32 (bsNat img (0x240 + 4 * L) 4) &&& 0x1FFF
    key := BitVec.ofNat 32 (bsNat img (0x2C0 + 4 * L) 4) &&& 0xFFFF
    preds := BitVec.ofNat 128 (bsNat img (0x6C0 + 16 * L) 16) &&& ~~~1#128
    regs := (List.range l.regs.length).map (fun n =>
      let tag := bsNat img (0x4900 + 256 * n + 8 * L) 8
      { val := BitVec.ofNat 32 (bsNat img (0x900 + 128 * n + 4 * L) 4), full := tag.testBit 32, fault := tag.testBit 33
        tag := BitVec.ofNat 32 tag }) }

/-! ## SAVEW and RESTW (R388) -/

/-- The form [b15 + v0] of a handler lane, which reads no register. -/
def saveHere (h : Bool) (a : BitVec 7) (n : BitVec 4) : Bool := h && n == 15 && a == 0
/-- The address of the image in lane L. -/
def imageVa (a : BitVec 7) (n : BitVec 4) (i : Iss) (L : Nat) : Nat :=
  if saveHere (i.l L).inHandler a n then baseOf i.w (i.l L) 15 else vaOf i.w n.toNat (i.l L) a.toNat 0
def fSave (a : BitVec 7) (n : BitVec 4) : FormF := fun _ h => { xmod := true, srcs := if saveHere h a n then [] else [srcBlk a 2] }
/-- The image in 128-byte pieces. -/
def imageVas (a : BitVec 7) (n : BitVec 4) (i : Iss) (L : Nat) : List (Nat × Nat) :=
  (List.range 402).map (fun k => ((imageVa a n i L + 128 * k) % 2 ^ 72, 128))
def imageOk (a : BitVec 7) (n : BitVec 4) (i : Iss) : Bool := uniform i (imageVa a n i) && imageVa a n i (i.E.headD 0) % 128 == 0
/-- The pages of the image. -/
def imagePages (a : BitVec 7) (n : BitVec 4) : State → Iss → Option State :=
  needPages (fun i => if imageOk a n i then (imageVas a n i (i.E.headD 0)).map (fun x => x.1) else [])
def imageTraps (a : BitVec 7) (n : BitVec 4) (i : Iss) : Option Traps :=
  if !uniform i (imageVa a n i) then some (fmtDiv i)
  else if !imageOk a n i then some (i.E.map (fun L => (L, ((i.l L).trapHere tkMISALIGN 128).withVa (imageVa a n i L))))
  else none
/-- A migration holds back writes to the image. -/
def imageHeld (a : BitVec 7) (n : BitVec 4) (s : State) (i : Iss) : Bool :=
  match s.laneXls i .store (imageVas a n i (i.E.headD 0)) with | .ok ps => ps.any (fun p => s.migHeld p.1) | _ => false

/-- The pieces of the image that the lanes write or read. -/
def imageWholes (k : AccKind) (a : BitVec 7) (n : BitVec 4) (s : State) (i : Iss) : List Whole :=
  if imageOk a n i then s.wholes i k (imageVas a n) [i.E.headD 0] else []
/-- SAVEW (R388): the whole image, once the wave's results have landed. -/
def execSavew (a : BitVec 7) (n : BitVec 4) (s : State) : Out :=
  .next (s.issue (fSave a n) (both (waitIf (fun s i => s.pending i.uid)) (both (imagePages a n)
      (both (waitPieces .store .wk (fun s i => i.eachLane (imageWholes .store a n s i)))
        (both (waitIf (imageHeld a n)) (waitWholes (imageWholes .store a n))))))
    (fun i s =>
      let s := s.passed i (imageWholes .store a n s i)
      match imageTraps a n i with
      | some ts => (s, ts)
      | none =>
        let vas := imageVas a n i (i.E.headD 0)
        match s.laneXls i .store vas with
        | .ok ps =>
          let pieces := chunks 128 402 i.w.image
          let s1 := (ps.zip pieces).foldl (fun s x => s.wrSeen (i.whos s) x.1.1 x.2) s
          (advAll i (vas.foldl (fun s v => s.setDirty i.die i.c v.1) s1), [])
        | .bad _ _ => memBodyN .store (imageVas a n) (0, 0) (fun _ _ _ s => s) i s))
/-- RESTW (R388, R215). -/
def execRestw (a : BitVec 7) (n : BitVec 4) (s : State) : Out :=
  .next (s.issue (fSave a n)
    (both (waitIf (fun s i => i.E.any (fun L => s.lands.any (fun x => x.uid == i.uid && x.lane == L) ||
        s.accs.any (fun x => x.uid == i.uid && x.lane == L && x.op.lands)))) (both (imagePages a n)
      (both (waitPieces (.load 0 0) .wk (fun s i => i.eachLane (imageWholes .load a n s i))) (waitWholes (imageWholes .load a n)))))
    (fun i s =>
      let s := (s.passed i (imageWholes .load a n s i)).sawAll i .wk (i.eachLane (imageWholes .load a n s i))
      match imageTraps a n i with
      | some ts => (s, ts)
      | none =>
        match s.laneXls i .load (imageVas a n i (i.E.headD 0)) with
        | .ok ps =>
          let img := ps.flatMap (fun p => memBytes s.mem p.1 128)
          match (if bsNat img 0 2 = i.w.regs then imageHandles img i.t.slots else none) with
          | none => (s, illegalAll i)
          | some hs =>
            (s.updWave i.uid (fun w =>
              let w1 := i.E.foldl (fun w L => w.updLane L (fun l => (l.restore img L).adv)) w
              { w1 with
                handles := hs
                bases := (List.range 16).map (fun k => if k = 15 then w.bases.getD 15 0 else BitVec.ofNat 72 (bsNat img (0x40 + 16 * k) 9)) }), [])
        | .bad _ _ => memBodyN .load (imageVas a n) (0, 0) (fun _ _ _ s => s) i s))

/-! ## Words that are no instruction (R287, R288) -/

/-- Majors of the formats with a G field (R277). -/
def majorHasG (m : Nat) : Bool :=
  decide (1 ≤ m && m ≤ 0x11) || decide (0x1B ≤ m && m ≤ 0x35) || decide (0x3B ≤ m && m ≤ 0x41) || m == 0x45 ||
    decide (0x4A ≤ m && m ≤ 0x4F) || m == 0x53 || m == 0x56 || m == 0x57 || m == 0x66 || decide (0x68 ≤ m && m ≤ 0x6C) || m == 0x76 || m == 0x77
/-- M and MA majors. -/
def majorIsM (m : Nat) : Bool := decide (0x4A ≤ m && m ≤ 0x53) || m == 0x56 || m == 0x57 || m == 0x66 || m == 0x69
/-- The hints that a word of this major accepts, for a word with no instruction (R287). -/
def majorForm (w : Word) : Form :=
  let m := (w.extractLsb' 25 7).toNat
  { bad := true
    g := if majorHasG m then (w.extractLsb' 0 2).toNat else 4
    prd := m != 0x47 && m != 0x48 && m != 0x72
    xim := majorIsM m || decide (0x12 ≤ m && m ≤ 0x1A)
    xmod := majorIsM m || m == 0x26 || m == 0x31 || decide (0x58 ≤ m && m ≤ 0x5E) || m == 0x62 || m == 0x63 || m == 0x73 }
/-- ILLEGAL_INSTRUCTION: the word in ir is none. An illegal major drops the hints held; a hint with a payload that no
instruction takes is held (R281, R288). -/
def execIllegalInstruction (s : State) : Out :=
  let m := (s.ir.extractLsb' 25 7).toNat
  .next (
    if 0x7B ≤ m then hintOp m (s.ir.extractLsb' 0 25) s
    else if m = 0 || decide (0x78 ≤ m) then
      let s1 := match s.cur.bind s.wave? with
        | some w => s.updWave w.uid (fun w => w.minSet.foldl (fun w L => w.updLane L (fun l => { l with hints := [] })) w)
        | none => s
      s1.issue (fun _ _ => { bad := true }) never (fun _ s => (s, []))
    else s.issue (fun _ _ => majorForm s.ir) never (fun _ s => (s, [])))

/-! ## Instruction fetch (R198, R99) -/

/-- What a fetch for a wave finds. -/
inductive Fetch where
  | word (x : Word)
  | need (page : Nat)
  | stop (va : Nat) (x : Xl)
deriving DecidableEq, Repr

/-- The issue context of a wave's minimum-PC set. -/
def State.issOf (s : State) (w : Wave) : Iss :=
  let t := s.teamOf w
  { w := w, t := t, g := s.gridOf t, E := w.minSet }
/-- Fetch the word at the wave's minimum PC (R29, R198). DESIGN CHOICE: as memory stands, where R158 lets the grid go on with the code as it
stood at its dispatch (log 139). -/
def State.fetch (s : State) (w : Wave) : Fetch :=
  let i := s.issOf w
  let c := s.ctx i.c
  let va := (c.codeva + 4 * w.minPc) % 2 ^ 72
  if c.codewords ≤ w.minPc then .stop va (.fault 2)
  else if s.unwalked i [va] != [] then .need (va / 65536)
  else
    match s.laneXl i va 4 .fetch with
    | .ok pa _ => .word (BitVec.ofNat 32 (s.rd pa 4))
    | x => .stop va x
/-- INSTRUCTION_FETCH_FAULT of wave n: the lanes at its minimum PC park on a record, or trap with ACCESS (R198). -/
def execInstructionFetchFault (s : State) : Out :=
  .next (match s.activeWave? s.occ.n with
    | none => s
    | some w =>
      if w.minSet = [] then s
      else
        match s.fetch w with
        | .stop va (.fault cause) =>
          (s.updWave w.uid (fun w => { w with walkFaults := w.walkFaults.filter (fun x => x.1 != va / 65536) })).parkFault w.uid
            w.minSet cause 3 va (BitVec.ofNat 32 w.minPc)
        | .stop va (.access d) =>
          let s1 := if d = 1 then s.machineCheck (s.teamOf w).ctx 0xFFFF 0 1 s.downPort else s
          s1.takeTraps w.uid (w.minSet.map (fun L => (L, ((w.lane L).trapHere tkACCESS d).withVa va)))
        | _ => s)

/-! ## Windows and the handler (R208, R209) -/

/-- QUIESCENT_POINT of wave n: no lane is eligible (R208). -/
def execQuiescentPoint (s : State) : Out :=
  .next (match s.activeWave? s.occ.n with
    | some w => (match w.win with
      | some win => if !win.closed && w.eligible == [] then s.closeWindow w.uid else s
      | none => s)
    | none => s)
/-- TRAP_WINDOW_TIMEOUT of wave n: 65,536 cycles after the window opened (R208). -/
def execTrapWindowTimeout (s : State) : Out :=
  .next (match s.activeWave? s.occ.n with
    | some w => (match w.win with
      | some win => if !win.closed && decide (65536 ≤ s.since (s.teamOf w).die win.openedAt) then s.closeWindow w.uid else s
      | none => s)
    | none => s)
/-- HANDLER_ENTRY of wave n (R209). -/
def execHandlerEntry (s : State) : Out := .next (if (s.activeWave? s.occ.n).isSome then s.enterHandler s.occ.n else s)

/-! ## Comparators (R246, R247) -/

/-- Comparator entry i of the debug control block. -/
def State.comp (s : State) (i off len : Nat) : Nat := fieldAt s.dbg.blk (256 + 16 * i + off) len
/-- Comparator i matches lane L of a wave (R246). -/
def State.compHits (s : State) (t : Team) (w : Wave) (L i : Nat) : Bool :=
  (s.comp i 9 1).testBit 0 && s.comp i 9 1 / 4 == 0 && s.comp i 12 4 == 0 && s.comp i 11 1 / 16 == 0 && s.comp i 8 1 == t.ctx &&
    (s.comp i 11 1).testBit t.die && ((s.comp i 9 1).testBit 1 || s.comp i 10 1 == t.core) && (s.comp i 4 4).testBit L &&
    s.comp i 0 4 == w.minPc
/-- Something of the instruction that the lane stands at has happened: it has issued, and has still to complete (R105, R132, R168, R319, R335,
R349). -/
def Lane.midway (l : Lane) : Bool := l.claim.isSome || l.replay.isSome || l.begun || l.wake.isSome
/-- The lanes of a wave's minimum-PC set that halt, each with its comparator: before the instruction, of which nothing has happened
(R247, R249). -/
def State.breakLanes (s : State) (w : Wave) : List (Nat × Nat) :=
  let t := s.teamOf w
  w.minSet.filterMap (fun L =>
    if (w.lane L).noBreak || (w.lane L).midway then none
    else ((List.range 8).find? (fun i => s.compHits t w L i)).map (fun i => (L, i)))
/-- BREAKPOINT_MATCH in wave n: the lanes halt before the instruction (R247). -/
def execBreakpointMatch (s : State) : Out :=
  .next (match s.activeWave? s.occ.n with
    | none => s
    | some w => s.haltLanes w.uid ((s.breakLanes w).map (fun x => (x.1, (w.lane x.1).pc, (w.lane x.1).pc, BitVec.ofNat 32 x.2))))

end Sys2Proof.Machine
end

