-- ==== Sys2Proof/Machine/Task.lean ====
section
/-!
DEFINITION. LAUNCH and MARK: R71, R72, R126 to R133, R382, R383.
-/

namespace Sys2Proof.Machine

/-! ## LAUNCH (R382) -/

/-- What LAUNCH answers a lane that may launch, for this card (R382). -/
def launchStatus (c : Ctx) (g : Grid) (card : Pkt) : Nat :=
  if 10 ≤ g.depth then 1
  else if Pkt.kind card != 1 && Pkt.kind card != 2 then 2
  else if !cardGood c card then 3
  else 0
/-- The child grid joins the deal list of the parent's die (R71); without records or teams it is over at once. -/
def State.addChild (s : State) (i : Iss) (card : Pkt) : State :=
  s.addGrid i.c card (.child i.t.gid i.die) (i.g.depth + 1) (fieldAt card 33 1) i.g.rootQ i.g.rootSlot (Pkt.wait card)
/-- The lane may launch: lane 0 of wave 0 of its team. -/
def Iss.leads (i : Iss) (L : Nat) : Bool := L == 0 && i.w.idx == 0
/-- VAs a LAUNCH reads: the leader's card. -/
def launchVas (a : BitVec 7) (n : BitVec 4) (i : Iss) : List Nat := alignedVas 64 (mVa n a) { i with E := i.E.filter i.leads }

/-- The card that the leader reads. -/
def launchWholes (a : BitVec 7) (n : BitVec 4) (s : State) (i : Iss) : List Whole :=
  s.wholes i .load (fun i L => [(mVa n a i L, 64)]) (i.E.filter (fun L => (i.l L).routine.isNone && i.leads L && mVa n a i L % 64 == 0))
/-- LAUNCH: what the lane has written happens before every access of the child (R382, R189, R72). -/
def execLaunch (d a : BitVec 7) (n : BitVec 4) (s : State) : Out :=
  .next (s.issueForced (fSYSx [srcBlk a 2] [(d.toNat, 1)]) (fun _ _ => anyWrite) false
    (both (fun s i => needPages (launchVas a n) s { i with E := i.E.filter (fun L => (i.l L).routine.isNone) })
      (both (waitPieces (.load 0 0) .sc (launchWholes a n)) (waitWholes (launchWholes a n))))
    (fun i s =>
      let ws := launchWholes a n s i
      let due (L : Nat) : Nat := s.wholeDue i L ws
      let s := (s.passed i ws).sawAll i .sc ws
      let (bad, ok) := i.E.partition (fun L => (i.l L).routine.isSome)
      let (lead, rest) := ok.partition i.leads
      let mis := rest.filter (fun L => mVa n a i L % 64 != 0)
      let s1 := (rest.filter (fun L => !mis.contains L)).foldl (fun (s : State) L =>
        (s.goOn i L (d.toNat, 1)).addLand i.uid L d.toNat [4] s.cycle (i.l L).pc false) s
      let (s2, ts) := memBody .load 64 64 (mVa n a) (d.toNat, 1) (fun i L pa _ s =>
        let card : Pkt := BitVec.ofNat 512 (s.rd pa 64)
        let st := launchStatus (s.ctx i.c) i.g card
        let s1 := if st = 0 then (s.launchFrom (s.whoOf i.uid L) (.start s.fresh)).addChild i card else s
        (s1.goOn i L (d.toNat, 1)).addLand i.uid L d.toNat [lo32 st] (due L) (i.l L).pc false) { i with E := lead } s1
      (s2, bad.map (fun L => (L, (i.l L).trapHere tkROUTINE 0)) ++
        mis.map (fun L => (L, ((i.l L).trapHere tkMISALIGN 64).withVa (mVa n a i L))) ++ ts)))

/-! ## MARK (R127, R132, R383) -/

/-- A REQUIRE entry that misses: its index, the entry, and the missing pages by their index within the region. -/
structure Missed where
  entry : Nat
  e : BitVec 256
  pages : List (Nat × Nat)
deriving DecidableEq, Repr

/-- The REQUIRE entries of marker k that miss, against these base registers (R131, R132). On a part without a far tier
there are none (R143). -/
def State.missed (s : State) (g : Grid) (bases : List (BitVec 72)) (k : Nat) : List Missed :=
  if s.groups = 0 then []
  else
    let es : List TtEnt := g.tt.getD []
    ((List.range es.length).zip es).filterMap (fun x =>
      let e : TtEnt := x.2
      if e.action != 2 || e.marker != k then none
      else
        let vas := e.pageVas bases
        let ps := ((List.range vas.length).zip vas).filter (fun p => !s.nearResident g.ctx p.2)
        if ps = [] then none else some { entry := x.1, e, pages := ps })

/-- The schedule-miss record and its trace record (R133, R252). -/
def State.missRecord (s : State) (i : Iss) (k : Nat) (m : Missed) : State :=
  let e : TtEnt := m.e
  let s1 := s.event 5 i.c i.g.rootQ i.g.rootSlot [(24, 4, i.t.ordinal), (28, 2, k), (30, 2, m.entry), (32, 1, e.policy), (33, 1, i.die),
    (34, 1, i.t.core), (35, 1, i.w.slot), (36, 4, m.pages.length), (40, 9, e.region i.w.bases), (49, 1, i.g.depth),
    (52, 4, (m.pages.headD (0, 0)).1), (56, 4, e.pages)]
  s1.traceLane 8 e.policy i.t i.w (i.E.headD 0) (i.l (i.E.headD 0)).pc (k * 65536 + m.entry)

/-- The missing movable pages of the STALL entries (R132, R135). -/
def State.stallPages (s : State) (c : Nat) (ms : List Missed) : List (Nat × Nat) :=
  (ms.filter (fun m => TtEnt.policy m.e == 0)).flatMap (fun m => m.pages.filterMap (fun p =>
    match s.movable c p.2 with | some (_, _, d) => some (d, p.2) | none => none))

/-- The marker moves to k: the snapshot, the leading value, and what the entries of the timetable do (R126 to R129). -/
def State.moveMarker (s : State) (i : Iss) (k : Nat) : State :=
  let s1 := (s.updWave i.uid (fun w => { w with marker := some (BitVec.ofNat 16 k) })).updTeam i.t.tid (fun t => { t with marked := true })
  if i.t.kind != .dealt then s1
  else s1.updGrid i.t.gid (fun g => { g with
    lead := max g.lead k, snapshot := if g.snapshot.isNone && g.tt.isSome then some i.w.bases else g.snapshot })

/-- MARK k for its executing lanes (R127, R132). -/
def markBody (kOf : Iss → Nat) (i : Iss) (s : State) : State × Traps :=
  let (bad, ok) := i.E.partition (fun L => (i.l L).routine.isSome)
  let ts := bad.map (fun L => (L, (i.l L).trapHere tkROUTINE 0))
  let new := ok.filter (fun L => !(i.l L).begun)
  let on (s : State) (Ls : List Nat) : State := Ls.foldl (fun s L => s.updLane i.uid L Lane.adv) s
  let k := kOf { i with E := ok }
  if new = [] then (s, ts)
  else if (match i.w.marker with | some m => decide (k ≤ m.toNat) | none => false) then (on s new, ts)
  else
    let j : Iss := { i with E := new }
    let s1 := s.moveMarker i k
    let ms := s1.missed i.g i.w.bases k
    let s2 := ms.foldl (fun s m => s.missRecord j k m) s1
    let ps := s1.stallPages i.c ms
    let s3 := ps.foldl (fun s p => s.tierAsk p.1 i.c p.2 true true) s2
    let s4 := if i.t.kind = .dealt then s3.fireTt i.t.gid false else s3
    match ms.find? (fun m => TtEnt.policy m.e == 1) with
    | some m =>
      (s4, ts ++ new.map (fun L =>
        (L, ((i.l L).trapHere tkSCHEDMISS (lo32 (min m.pages.length 0xFFFFFFFF))).withVa (m.pages.headD (0, 0)).2)))
    | none =>
      if ps = [] then (on s4 new, ts)
      else
        let pc := (i.l (new.headD 0)).pc.toNat
        (s4.updWave i.uid (fun w => new.foldl (fun w L => w.updLane L (fun l => { l with begun := true }))
          { w with stall := w.stall ++ ps.map (fun p => (pc, p.2)), settled := w.settled.filter (fun x => x.1 != pc) }), ts)

/-- Lanes that have begun a STALL keep the wave at the MARK (R132). -/
def markBusy : State → Iss → Option State := waitIf (fun _ i => i.E.all (fun L => (i.l L).begun))
/-- MARK with an immediate (R383). -/
def execMarkImm (k : BitVec 10) (s : State) : Out := .next (s.issue (fSYS [] []) markBusy (markBody (fun _ => k.toNat)))
/-- MARK with a register, equal in every executing lane (R383). -/
def execMarkReg (a : BitVec 7) (s : State) : Out :=
  let kOf (i : Iss) : Nat := ((i.l (i.E.headD 0)).v a.toNat).toNat % 65536
  .next (s.issue (fSYS [srcBlk a] []) markBusy (fun i s =>
    let (bad, ok) := i.E.partition (fun L => (i.l L).routine.isSome)
    if ok.all (fun L => ((i.l L).v a.toNat).toNat % 65536 == kOf { i with E := ok }) then markBody kOf i s
    else (s, bad.map (fun L => (L, (i.l L).trapHere tkROUTINE 0)) ++ ok.map (fun L => (L, (i.l L).trapHere tkFMTDIV 0)))))

/-- A page a STALL waits for has landed near, or no request or migration will bring it (R132, R137, R142). -/
def State.pageSettled (s : State) (c va : Nat) : Bool :=
  s.nearResident c va ||
    (!s.tierq.any (fun r => r.ctx == c && r.vpn == va / 65536 && r.fetch) && !s.migs.any (fun m => m.ctx == c && m.vpn == va / 65536))
/-- PCs of the MARKs of a wave whose pages have all settled, now or at some time since (R141). -/
def State.stallsOver (s : State) (w : Wave) : List Nat :=
  ((w.stall.map (fun p => p.1)).eraseDups).filter (fun pc =>
    (w.stall.filter (fun p => p.1 == pc)).all (fun p => w.settled.contains p || s.pageSettled (s.teamOf w).ctx p.2))
/-- MARK_STALL_END in wave n: the MARK completes. A lane that is halted or held meanwhile has nothing more to wait for when it issues the
MARK again (R132, R127). -/
def execMarkStallEnd (s : State) : Out :=
  .next (match s.activeWave? s.occ.n with
    | none => s
    | some w =>
      let pcs := s.stallsOver w
      if pcs = [] then s
      else
        let on (l : Lane) : Lane := if l.st = .run then l.adv else { l with begun := false }
        let go := (List.range w.lanes.length).filter (fun L => (w.lane L).begun && pcs.contains (w.lane L).pc.toNat)
        (s.updWave w.uid (fun w => go.foldl (fun w L => w.updLane L on) { w with
          stall := w.stall.filter (fun p => !pcs.contains p.1), settled := w.settled.filter (fun p => !pcs.contains p.1) })).stepHalt w.uid)

end Sys2Proof.Machine
end

