-- ==== Sys2Proof/Machine/Trav.lean ====
section
/-!
DEFINITION. Traversal engines: node layout tables and nodes (R175 to R178), the walk and its tests (R184 to R186),
routines and their decisions (R187 to R189), taking and finishing stacks (R182, R183, R191 to R193), and TRAV, TNEW, TCUT,
TRET, TFRD, TFWR and TSTAT (R190, R374 to R381).
-/

namespace Sys2Proof.Machine

/-! ## Nodes (R175 to R178) -/

/-- What reading a node or a table comes to. -/
inductive NodeRd (α : Type) where
  | ok (a : α) (k : Stack) (s : State)
  /-- The stack ends with BADNODE (R178). -/
  | bad
  /-- A node-fetch fault at a VA (R178). -/
  | fault (va : Nat)
  | wait
deriving DecidableEq, Repr

/-- Read bytes for a stack. -/
def State.nodeRd (s : State) (k : Stack) (va n : Nat) : NodeRd (List Byte) :=
  match s.engRd k.ctx (va % 2 ^ 72) n with
  | .ok (bs, s1) => .ok bs k (s1.movedVa k.ctx 2 va n)
  | .fault _ => .fault (s.badVa k.ctx va n false)
  | .wait => .wait
/-- The 64-byte piece of an NLT at an offset: read and checked the first time the stack uses it as that piece of that NLT (R178;
log 21). -/
def State.nltPiece (s : State) (k : Stack) (nlt off : Nat) (good : BitVec 512 → Bool) : NodeRd (BitVec 512) :=
  match Tab.find k.nlts (2048 * nlt + off) with
  | some x => .ok x k s
  | none =>
    match s.nodeRd k (nlt + off) 64 with
    | .ok bs _ s1 =>
      let x : BitVec 512 := BitVec.ofNat 512 (leNat bs)
      if good x then .ok x { k with nlts := Tab.put k.nlts (2048 * nlt + off) x } s1 else .bad
    | .bad => .bad
    | .fault v => .fault v
    | .wait => .wait

/-- The header of an NLT is within its limits; a KINDOFF at or above 1,024 is below no NODEBYTES (R176, R177). -/
def nltGood (x : BitVec 512) : Bool := decide (fieldAt x 0 2 < 1024) && decide (fieldAt x 2 1 ≤ 4) && within 1 (fieldAt x 3 1) 16 && fieldAt x 4 60 == 0
/-- A kind entry is within its limits, in an NLT with this KINDOFF (R176, R177). -/
def kindGood (kindoff : Nat) (x : BitVec 512) : Bool :=
  let ch := fieldAt x 0 1
  let test := fieldAt x 1 1
  let nb := fieldAt x 2 2
  let bo := fieldAt x 18 2
  decide (ch ≤ 16) && decide (test ≤ 2) && within 16 nb 1024 && nb % 16 == 0 && decide (fieldAt x 16 1 < 8) && fieldAt x 17 1 == 0 &&
    fieldAt x 52 12 == 0 && decide (kindoff < nb) &&
    (List.range 16).all (fun i =>
      let o := fieldAt x (20 + 2 * i) 2
      if i < ch then o % 8 == 0 && decide (o + 8 ≤ nb) else o == 0) &&
    (if test = 0 then bo == 0 else ch == 0 || decide (bo + (if test = 1 then 24 else 8) * ch ≤ nb))

/-- Four entries of a table list are within their limits (R176). -/
def listGood (x : BitVec 512) : Bool := (List.range 4).all (fun t => fieldAt x (16 * t + 9) 7 == 0)
/-- The pieces of the table list of an NLT. -/
def State.listPieces (s : State) (k : Stack) (nlt : Nat) : List Nat → NodeRd Unit
  | [] => .ok () k s
  | off :: r =>
    match s.nltPiece k nlt off listGood with
    | .ok _ k1 s1 => State.listPieces s1 k1 nlt r
    | .bad => .bad
    | .fault v => .fault v
    | .wait => .wait
/-- The header of an NLT, checked at its first use; with it the table list of the NLT that the stack names, the only one that
is consulted (R176, R178; log 21). -/
def State.nltHead (s : State) (k : Stack) (nlt : Nat) : NodeRd (BitVec 512) :=
  if nlt % 64 != 0 then .bad
  else
    match s.nltPiece k nlt 0 nltGood with
    | .ok h k1 s1 =>
      if nlt != k.nlt.toNat then .ok h k1 s1
      else
        (match s1.listPieces k1 nlt [1088, 1152, 1216, 1280] with
         | .ok _ k2 s2 => .ok h k2 s2
         | .bad => .bad
         | .fault v => .fault v
         | .wait => .wait)
    | .bad => .bad
    | .fault v => .fault v
    | .wait => .wait

/-- VA of the NLT of a table of the stack: none when the table is absent (R176). -/
def State.tableVa (s : State) (k : Stack) (tab : Nat) : NodeRd (Option Nat) :=
  if tab = 0 then .ok (some k.nlt.toNat) k s
  else if 16 ≤ tab then .bad
  else
    match s.nltHead k k.nlt.toNat with
    | .ok _ k1 s1 =>
      (match s1.nltPiece k1 k.nlt.toNat (1088 + 16 * tab / 64 * 64) listGood with
       | .ok x k2 s2 =>
         let e := fieldAt x (16 * (tab % 4)) 9
         .ok (if e = 0 then none else some e) k2 s2
       | .bad => .bad
       | .fault v => .fault v
       | .wait => .wait)
    | .bad => .bad
    | .fault v => .fault v
    | .wait => .wait

/-- The node of a reference in an NLT: the kind byte, its entry, NODEBYTES bytes (R175 to R178). DESIGN CHOICE: the
kind byte is read first, by a read of its own, which a fault may name (log 142). -/
def State.nodeIn (s : State) (k : Stack) (nlt : Nat) (ref : BitVec 64) : NodeRd NodeBuf :=
  let addr := ((((nlt : Int) + ref.toInt) % 2 ^ 72).toNat)
  match s.nltHead k nlt with
  | .ok h k1 s1 =>
    if addr % 16 != 0 then .bad
    else
      (match s1.nodeRd k1 (addr + fieldAt h 0 2) 1 with
       | .ok b _ s2 =>
         let kind := bsNat b 0 1 / 2 ^ fieldAt h 2 1 % 16
         if fieldAt h 3 1 ≤ kind then .bad
         else
           (match s2.nltPiece k1 nlt (64 + 64 * kind) (kindGood (fieldAt h 0 2)) with
            | .ok e k2 s3 =>
              (match s3.nodeRd k2 addr (fieldAt e 2 2) with
               | .ok bs _ s4 => .ok { nlt := BitVec.ofNat 72 nlt, kind, ent := e, bytes := bs } k2 s4
               | .bad => .bad
               | .fault v => .fault v
               | .wait => .wait)
            | .bad => .bad
            | .fault v => .fault v
            | .wait => .wait)
       | .bad => .bad
       | .fault v => .fault v
       | .wait => .wait)
  | .bad => .bad
  | .fault v => .fault v
  | .wait => .wait
/-- The node of a reference in a table of the stack: an absent table is no NLT. -/
def State.nodeOf (s : State) (k : Stack) (ref : BitVec 64) (tab : Nat) : NodeRd NodeBuf :=
  match s.tableVa k tab with
  | .ok (some nlt) k1 s1 => s1.nodeIn k1 nlt ref
  | .ok none _ _ => .bad
  | .bad => .bad
  | .fault v => .fault v
  | .wait => .wait

def NodeBuf.children (b : NodeBuf) : Nat := fieldAt b.ent 0 1
def NodeBuf.test (b : NodeBuf) : Nat := fieldAt b.ent 1 1
def NodeBuf.present (b : NodeBuf) (i : Nat) : Bool := (fieldAt b.ent 16 1).testBit i
/-- Address of the enter, leave or prune routine. -/
def NodeBuf.routine (b : NodeBuf) (kind : Nat) : Nat := fieldAt b.ent (4 + 4 * kind) 4
/-- Reference of child i. -/
def NodeBuf.child (b : NodeBuf) (i : Nat) : BitVec 64 := BitVec.ofNat 64 (bsNat b.bytes (fieldAt b.ent (20 + 2 * i) 2) 8)
/-- Word j of the bounds of child i. -/
def NodeBuf.bound (b : NodeBuf) (i j : Nat) : Nat := bsNat b.bytes (fieldAt b.ent 18 2 + (if b.test = 1 then 24 else 8) * i + 4 * j) 4
/-- The children that are there (R184). -/
def NodeBuf.mask (b : NodeBuf) : BitVec 16 :=
  BitVec.ofNat 16 (((List.range 16).filter (fun i => decide (i < b.children) && b.child i != noChild)).foldl (fun m i => m + 2 ^ i) 0)

/-! ## The built-in tests (R185, R186): FP32, rounded to nearest even, independent of FPCTL -/

def f32Nan (a : Nat) : Bool := fp32.decode a == .nan
def f32Sub (a b : Nat) : Nat := (fp32.op .sub .rne false a b 0).1
def f32Mul (a b : Nat) : Nat := (fp32.op .mul .rne false a b 0).1
/-- a ≤ b, false on a NaN. -/
def f32Le (a b : Nat) : Bool :=
  match fpCmp (fp32.decode a) (fp32.decode b) with | some .lt => true | some .eq => true | _ => false
def f32Min (a b : Nat) : Nat := if f32Le a b then a else b
def f32Max (a b : Nat) : Nat := if f32Le a b then b else a
def f32Neg (a : Nat) : Nat := a ^^^ 2 ^ 31
/-- A number that orders FP32 codes that are not NaN as their values do. -/
def f32Key (a : Nat) : Nat := if 2 ^ 31 ≤ a then 2 ^ 31 - a % 2 ^ 31 else 2 ^ 31 + a

/-- near and far on one axis (R185). -/
def boxAxis (lo hi o n : Nat) : Nat × Nat :=
  let a := f32Mul (f32Sub lo o) n
  let b := f32Mul (f32Sub hi o) n
  let (t1, t2) :=
    if f32Nan a && f32Nan b then (0xFF800000, 0x7F800000)
    else if f32Nan a then (f32Neg b, b)
    else if f32Nan b then (a, f32Neg a)
    else (a, b)
  (f32Min t1 t2, f32Max t1 t2)
/-- BOX3 of child i: its entry when it passes. -/
def boxTest (q : Nat → Nat) (b : NodeBuf) (i : Nat) : Option Nat :=
  let v := b.bound i
  if (List.range 6).any (fun j => f32Nan (v j)) || (List.range 3).any (fun a => !f32Le (v a) (v (a + 3))) ||
      [0, 1, 2, 6, 7].any (fun j => f32Nan (q j)) then none
  else
    let ax := (List.range 3).map (fun a => boxAxis (v a) (v (a + 3)) (q a) (q (3 + a)))
    let entry := ax.foldl (fun x p => f32Max x p.1) (q 6)
    let exit := ax.foldl (fun x p => f32Min x p.2) (q 7)
    if f32Le entry exit then some (f32Key entry) else none
/-- RANGE of child i: its distance when it passes. -/
def rangeTest (q : Nat → Nat) (b : NodeBuf) (i : Nat) : Option Nat :=
  let lo := b.bound i 0
  let hi := b.bound i 1
  if f32Le lo (q 1) && f32Le (q 0) hi && f32Le lo hi then
    if f32Nan (q 2) then some 0
    else
      let ds := [f32Sub lo (q 2), f32Sub (q 2) hi].filter (fun d => !f32Nan d)
      some (f32Key (ds.foldl f32Max 0))
  else none
/-- The children of a mask that pass, in test order. -/
def testOrder (q : List Word) (b : NodeBuf) (mask : BitVec 16) : List Nat :=
  let qn (j : Nat) : Nat := (q.getD j 0).toNat
  let ids := (List.range 16).filter (fun i => mask.getLsbD i)
  let keyed (t : Nat → Option Nat) : List Nat :=
    (sortBy (fun (x : Nat × Nat) => x.1 * 16 + x.2) (ids.filterMap (fun i => (t i).map (fun d => (d, i))))).map (fun x => x.2)
  match b.test with
  | 1 => keyed (boxTest qn b)
  | 2 => keyed (rangeTest qn b)
  | _ => ids
def maskOf (is : List Nat) : BitVec 16 := BitVec.ofNat 16 (is.foldl (fun m i => m + 2 ^ i) 0)

/-! ## The walk (R184) -/

/-- The stack takes this form. -/
def State.setStk (s : State) (k : Stack) : State := s.updStk k.handle (fun _ => k)
/-- The walk ends with a RESULT, once every JOIN is 0 (R183). -/
def Stack.finish (k : Stack) (r : Nat) : Stack := { k with st := .finishing r, result := r }
/-- A push begins (R184). -/
def Stack.push (k : Stack) (ref : BitVec 64) (tab : Nat) (root : Bool) : Stack :=
  if k.depth = 64 then k.finish 4 else { k with st := .fetch ref tab root }
/-- The point of an invocation that joins its group, and of a cut (R256, kinds 8 and 9). -/
def State.stackPoint (s : State) (k : Stack) (kind level : Nat) : SsPoint :=
  { kind, unit := k.eng, id := BitVec.ofNat 32 k.handle, wave := 0, lane := 0
    grid := BitVec.ofNat 16 (((s.grid? k.gid).bind Grid.logOrd).getD 0), n := BitVec.ofNat 32 level }
def State.stackLogged (s : State) (k : Stack) : Bool := ((s.grid? k.gid).bind Grid.logOrd).isSome
/-- A routine of the top frame is called: its invocation joins its group, unless its logged point holds the step back
(R188, R195); s0 is the state before the step. -/
def State.call (s s0 : State) (k : Stack) (kind c : Nat) (ref : BitVec 64) (v22 : Nat) (b : NodeBuf) : State :=
  let p := s.stackPoint k 8 (k.depth - 1)
  let (go, s1) := s.ssGate (s.stackLogged k) k.die p
  if !go then (s0.ssGate (s0.stackLogged k) k.die p).2
  else
    let v : Invocation := { id := s1.fresh, die := k.die, eng := k.eng, gid := k.gid, addr := b.routine kind, nlt := b.nlt, stk := k.id, handle := k.handle,
                            level := k.depth - 1, kind, ref, v22 := lo32 v22, born := s.cycle }
    ({ s1 with invs := s1.invs ++ [v], fresh := s1.fresh + 1 } : State).setStk { k with st := .routine kind c }

/-- A frame that comes back among the top 8 is read from memory (R181; log 22); where the read faults, or must wait, the step has still to be
taken from the state before it, s0 (R107). -/
def State.refill (s s0 : State) (k : Stack) : State :=
  if k.depth < engineFrames then s.setStk k
  else
    let L := k.depth - engineFrames
    match s.engRd k.ctx (k.frameVa L) 24 with
    | .ok (bs, s1) => (s1.movedVa k.ctx 2 (k.frameVa L) 24).setStk (k.setFrame L (fun f => { frameOf bs with buf := f.buf }))
    | .fault _ => s0.wbFault k (s.badVa k.ctx (k.frameVa L) 24 false) 0
    | .wait => s0
/-- The top frame pops (R184). -/
def State.pop (s s0 : State) (k : Stack) : State :=
  let k1 := { k with frames := k.frames.dropLast, st := .step }
  if k1.depth = 0 then s.setStk (k1.finish 1) else s.refill s0 k1
/-- The children are done and JOIN is 0: the leave routine, or the pop (R184). -/
def State.leaveOrPop (s s0 : State) (k : Stack) (b : NodeBuf) : State :=
  let f := k.frame (k.depth - 1)
  if b.present 1 && !f.noleave then s.call s0 k 1 0 f.node b.kind b else s.pop s0 k

/-- JOIN of frame L, read from memory (R191). -/
def State.joinOf (s : State) (k : Stack) (L : Nat) : Eng Nat :=
  match s.engRd k.ctx (k.joinAt L) 4 with
  | .ok (bs, _) => .ok (leNat bs)
  | .fault f => .fault f
  | .wait => .wait

/-- One step on the top frame, whose node is b (R184). -/
def State.stepTop (s s0 : State) (k : Stack) (b : NodeBuf) : State :=
  let L := k.depth - 1
  let order := testOrder k.q b (k.frame L).mask
  match order with
  | c :: rest =>
    let k1 := k.setFrame L (fun f => { f with mask := maskOf rest, cursor := BitVec.ofNat 8 c })
    if b.present 2 then s.call s0 k1 2 c (b.child c) c b
    else s.setStk (k1.push (b.child c) (k.frame L).table false)
  | [] =>
    let k1 := k.setFrame L (fun f => { f with mask := 0 })
    match s.joinOf k L with
    | .ok 0 => s.leaveOrPop s0 k1 b
    | .ok _ => s.setStk { k1.setFrame L (fun f => { f with leavepend := true }) with st := .join }
    | .fault _ => s0.wbFault k (k.joinAt L) 0
    | .wait => s0

/-- WALK_STEP of stack n (R184): the root is pushed, or a step is taken on the top frame, whose node is fetched first
when the stack has been resumed; or the engine writes the stack back, its context disabled (R194). -/
def execWalkStep (s : State) : Out :=
  .next (match s.stk? s.occ.n with
    | none => s
    | some k =>
      if s.sleepDue k then s.sleepStacks k.ctx
      else if k.st != .step || !s.stackGoes k then s
      else
        match s.payHdr k with
        | (false, s1) => s1
        | (true, s1) =>
          let k := { k with hdrDue := false }
          if k.depth = 0 then s1.setStk (k.push k.root 0 false)
          else
            let f := k.frame (k.depth - 1)
            match f.buf with
            | some b => s1.stepTop s k b
            | none =>
              match s1.nodeOf k f.node f.table with
              | .ok b k1 s2 => s2.stepTop s (k1.setFrame (k.depth - 1) (fun f => { f with buf := some b })) b
              | .bad => s1.setStk (k.finish 5)
              | .fault va => s1.parkStack k va
              | .wait => s)

/-- What a push writes to memory: the frame that falls below the top 8, and the JOIN word of the new one (R181, R184). -/
def State.pushWrites (s : State) (k : Stack) : Wb :=
  match (if engineFrames ≤ k.depth then s.wbFrames k [k.depth - engineFrames] else .ok s) with
  | .ok s1 => s1.wbWrite k.ctx (k.joinAt k.depth) (List.replicate 8 0)
  | x => x
/-- The JOIN word of a frame that is pushed is used anew: the stacks cut at that place before come before the end of the walk only (R191,
R397). -/
def State.freshJoin (s : State) (k : Stack) : State :=
  let j : Sync := .join k.ctx (k.joinAt k.depth)
  (s.pass (fun x => x == j) (.walk k.id)).forget (fun x => x == j)
/-- VISITS and ACCEPTS saturate. -/
def satInc (x : Word) : Word := if x = 0xFFFFFFFF then x else x + 1
/-- NODE_FETCH_COMPLETE of stack n: the node is pushed and its enter routine called, or the stack ends or parks (R184,
R178, R192). -/
def execNodeFetchComplete (s : State) : Out :=
  .next (match s.stk? s.occ.n with
    | none => s
    | some k =>
      match k.st with
      | .fetch ref tab root =>
        if !s.stackGoes k then s
        else
          (match s.payHdr k with
           | (false, s1) => s1
           | (true, s1) =>
             let k := { k with hdrDue := false }
             (match s1.pushWrites k with
              | .wait => s
              | .fault va => s1.wbFault k va
              | .ok s2 =>
                let s2 := s2.freshJoin k
                let f : Frame := { node := ref, mask := 0, tableroot := root, table := tab }
                let pushed (k : Stack) (f : Frame) : Stack := { k with frames := k.frames ++ [f], visits := satInc k.visits }
                (match s2.nodeOf k ref tab with
                 | .wait => s
                 | .fault va => s1.parkStack k va
                 | .bad => s2.setStk ((pushed k f).finish 5)
                 | .ok b k1 s3 =>
                   let f1 := { f with mask := b.mask, buf := some b }
                   if b.present 0 then s3.call s (pushed k1 f1) 0 0 ref b.kind b
                   else s3.setStk { pushed k1 { f1 with entered := true } with st := .step })))
      | _ => s)

/-- JOIN_ZERO of stack n: the watched JOIN reads 0, and the frame's leave routine runs (R191). -/
def execJoinZero (s : State) : Out :=
  .next (match s.stk? s.occ.n with
    | none => s
    | some k =>
      if k.st != .join || !s.stackGoes k then s
      else
        let L := k.depth - 1
        match s.joinOf k L with
        | .ok 0 =>
          let k1 := k.setFrame L (fun f => { f with leavepend := false })
          (match (k.frame L).buf with
           | some b => s.leaveOrPop s k1 b
           | none => s.setStk { k1 with st := .step })
        | .ok _ => s
        | .fault _ => s.wbFault k (k.joinAt L) 0
        | .wait => s)

/-! ## Decisions (R187) -/

/-- The decision word is illegal, whatever the table it names (R187). -/
def decisionBad (k : Stack) (kind : Nat) (word : Word) (sw : Option (Nat × Word × Word)) : Bool :=
  let code := word.toNat % 8
  word.toNat / 2 ^ 10 % 64 != 0 || word.getLsbD 3 || decide (4 < code) || (code == 3 && kind != 0) || (code == 1 && kind == 1) ||
    (code == 0 && kind == 1 && word.toNat / 2 ^ 16 != 0) || (match sw with | some x => decide (k.depth ≤ x.1) | none => false)
/-- QW and SW (R187). -/
def Stack.update (k : Stack) (qw : Option (List Word)) (sw : Option (Nat × Word × Word)) : Stack :=
  let k1 := match qw with | some q => { k with q } | none => k
  match sw with
  | some (L, a, b) => k1.setFrame L (fun f => { f with state0 := a, state1 := b })
  | none => k1
/-- The frames of these levels that are not among the top 8 go to memory. -/
def State.spillFrame (s : State) (k : Stack) (L : Nat) : Wb := if k.cached.contains L then .ok s else s.wbFrames k [L]
/-- CODE takes effect (R187). -/
def Stack.decide (k : Stack) (kind c : Nat) (word : Word) (v1v2 : BitVec 64) : Option Stack :=
  let L := k.depth - 1
  match word.toNat % 8 with
  | 2 => some ({ k with accepts := satInc k.accepts }.finish 2)
  | 4 => some (k.finish 3)
  | 1 => some { k.setFrame L (fun f => if kind = 0 then { f with mask := 0, entered := true } else f) with st := .step }
  | 3 => some ((k.setFrame L (fun f => { f with mask := 0, entered := true })).push v1v2 (word.toNat / 16 % 16) true)
  | _ =>
    match kind with
    | 0 => some { k.setFrame L (fun f => { f with mask := f.mask &&& word.extractLsb' 16 16, entered := true }) with st := .step }
    | 2 => (match (k.frame L).buf with | some b => some (k.push (b.child c) (k.frame L).table false) | none => none)
    | _ => none
/-- ROUTINE_DECISION of stack n (R187). -/
def execRoutineDecision (s : State) : Out :=
  .next (match s.stk? s.occ.n with
    | none => s
    | some k =>
      match k.st with
      | .decided kind c word v1v2 qw sw =>
        if !s.stackGoes k then s
        else
          (match s.payHdr k with
           | (false, s1) => s1
           | (true, s1) =>
             let k := { k with hdrDue := false }
             if decisionBad k kind word sw then s1.setStk (k.finish 6)
             else
               let k1 := k.update qw sw
               (match (match sw with | some x => s1.spillFrame k1 x.1 | none => .ok s1) with
                | .wait => s
                | .fault va => s1.wbFault k va
                | .ok s2 =>
                  if word.toNat % 8 = 3 then
                    (match s2.tableVa k1 (word.toNat / 16 % 16) with
                     | .ok (some _) k2 s3 => (match k2.decide kind c word v1v2 with | some k3 => s3.setStk k3 | none => s3)
                     | .ok none _ _ => s1.setStk (k.finish 6)
                     | .bad => s1.setStk (k.finish 5)
                     | .fault va => s1.parkStack k va
                     | .wait => s)
                  else
                    (match k1.decide kind c word v1v2 with
                     | some k2 => s2.setStk k2
                     | none => s2.pop s k1)))
      | _ => s)

/-! ## Routine waves (R188) -/

/-- The invocations of the group of one of them, oldest first. -/
def State.invGroup (s : State) (v : Invocation) : List Invocation :=
  s.invs.filter (fun x => x.die == v.die && x.eng == v.eng && x.gid == v.gid && x.addr == v.addr && x.nlt == v.nlt)
/-- A stack of the grid in that engine can advance without a routine result. -/
def State.advances (s : State) (die eng gid : Nat) : Bool :=
  s.stackReqs.any (fun r => r.die == die && r.eng == eng && r.gid == gid && r.fault.isNone && (s.ctx r.ctx).enable) ||
    s.stks.any (fun k => k.die == die && k.eng == eng && k.gid == gid && s.stackGoes k && (match k.st with
      | .step => true
      | .fetch _ _ _ => true
      | .decided _ _ _ _ _ _ => true
      | .join => (match s.joinOf k (k.depth - 1) with | .ok 0 => true | _ => false)
      | _ => false))
/-- ROUTINE_WAVE_FORM of the group of invocation n: it is full, or its oldest has waited 2,048 cycles, or no stack of its
grid in that engine can advance without a routine result (R188, R77). -/
def execRoutineWaveForm (s : State) : Out :=
  .next (match s.invs.find? (fun v => v.id == s.occ.n) with
    | none => s
    | some v =>
      let vs := s.invGroup v
      match s.grid? v.gid with
      | none => s
      | some g =>
        if !s.mayForm g.gid || !(decide (32 ≤ vs.length) || vs.any (fun x => decide (2048 ≤ s.since x.die x.born)) || !s.advances v.die v.eng v.gid) then s
        else
          let take := vs.take 32
          let (go, s1) := s.ssGate g.logOrd.isSome v.die (formPoint g take.length)
          if !go then s1
          else
            ({ s1 with
              invs := s1.invs.filter (fun x => !take.any (fun y => y.id == x.id))
              forms := s1.forms ++ [{ id := s1.fresh, die := v.die, gid := v.gid, resume := v.addr, src := .invs take
                                      born := minNat (take.map Invocation.born), ordinal := g.formOrd }]
              fresh := s1.fresh + 1 } : State).updGrid v.gid (fun g => { g with formOrd := g.formOrd + 1 }))

/-! ## Taking a stack (R182, R43) -/

/-- The slot a new stack of an engine takes: none while 2,048 stacks are live there; that of a stack that sleeps with its context only
when no other is left (R181, R194; log 23). -/
def State.freeStackSlot (s : State) (die eng : Nat) : Option Nat :=
  let here := s.stks.filter (fun k => k.die == die && k.eng == eng && !displaced k.handle)
  let free (ks : List Stack) : Option Nat := (List.range engineSlots).find? (fun i => !ks.any (fun k => k.slot == i))
  match free here with
  | some i => some i
  | none => free (here.filter (fun k => !k.asleep))
/-- The slot is given to a new stack: a sleeping stack that it was for is displaced. -/
def State.clearSlot (s : State) (handle : Nat) : State :=
  if s.stks.any (fun k => k.handle == handle) then { s.renameStack handle (handle + 2 ^ 32 * s.fresh) with fresh := s.fresh + 1 } else s
/-- The live stacks of an engine (R43). -/
def State.liveStacks (s : State) (die eng : Nat) : Nat := (s.stks.filter (fun k => k.die == die && k.eng == eng && !k.asleep)).length
/-- Slots of an engine that neither a live stack nor a request has taken. -/
def State.engineRoom (s : State) (die eng : Nat) : Nat :=
  engineSlots - (s.liveStacks die eng +
    (s.stackReqs.filter (fun r => r.die == die && r.eng == eng)).length)

def State.dropReq (s : State) (id : Nat) : State := { s with stackReqs := s.stackReqs.filter (fun r => r.id != id) }
/-- A request ends without a walk: the continuation is released with a RESULT and no counts, or the packet completes with
a status (R182, R43). -/
def State.refuseStack (s : State) (r : StackReq) (result status : Nat) : State :=
  let s1 := s.dropReq r.id
  let s2 := match r.cont with | some c => s1.releaseCont c [lo32 result, 0, 0] | none => s1
  match r.pkt with
  | some p => s2.updOut p (fun o => { o with st := .done (BitVec.ofNat 8 status) 0 })
  | none => s2
/-- The engine cannot read the stack object, its header or a frame: a record, of cause ENGINE for the header (R43) and as R107 says for a frame,
and the request waits (log 24). -/
def State.takeFault (s : State) (r : StackReq) (va : Nat) (header : Bool) : State :=
  let (seq, s1) := (s.noteLost r.ctx va).raiseFault r.ctx (if header then 5 else s.causeAt r.ctx va false) 0 va r.die 0xFF 0xFF 0 0 r.va.toNat (.take r.id)
  let s2 : State := { s1 with stackReqs := s1.stackReqs.map (fun x => if x.id == r.id then { x with fault := some seq } else x) }
  match r.pkt with
  | some p => s2.updOut p (fun o => { o with firstFault := if o.firstFault = 0 then seq else o.firstFault })
  | none => s2
/-- The stack of a request, from its header and frames in memory. -/
def stackFrom (s : State) (r : StackReq) (slot : Nat) (h fs : List Byte) : Stack :=
  { id := r.id, handle := stackHandle s.pkg.deviceId.toNat r.die r.eng slot, die := r.die, eng := r.eng, slot, ctx := r.ctx, gid := r.gid, va := r.va
    q := (List.range 16).map (fun i => BitVec.ofNat 32 (bsNat h (4 * i) 4)), root := BitVec.ofNat 64 (bsNat h 64 8)
    nlt := BitVec.ofNat 72 (bsNat h 72 9), jlevel := bsNat h 84 1, joinva := BitVec.ofNat 72 (bsNat h 85 9), cont := r.cont, pkt := r.pkt
    visits := BitVec.ofNat 32 (bsNat h 104 4), accepts := BitVec.ofNat 32 (bsNat h 108 4)
    frames := (List.range (bsNat h 82 1)).map (fun L => frameOf ((fs.drop (32 * L)).take 32)), hdrDue := true }
/-- The record of the first fault of a TRAVERSE packet (R55). -/
def State.outFault (s : State) (p : Option Nat) (seq : BitVec 32) : State :=
  match p with
  | some id => s.updOut id (fun o => { o with firstFault := if o.firstFault = 0 then seq else o.firstFault })
  | none => s
/-- STACK_TAKE of request n (R182, R43), or by a stack that restarts under this handle (R194). -/
def execStackTake (s : State) : Out :=
  .next (match s.stackReqs.find? (fun r => r.id == s.occ.n) with
    | none => (match s.stk? s.occ.n with | some k => s.restartStack k | none => s)
    | some r =>
      if r.fault.isSome || !(s.ctx r.ctx).enable || !s.clusterRdy r.die r.eng then s
      else
        match s.engRd r.ctx r.va.toNat 128 with
        | .wait => s
        | .fault _ => s.takeFault r (s.badVa r.ctx r.va.toNat 128 false) true
        | .ok (h, s1) =>
          let depth := bsNat h 82 1
          if bsNat h 81 1 != 0 || 64 < depth then s.refuseStack r 6 4
          else
            match s1.engRd r.ctx ((r.va.toNat + 128) % 2 ^ 72) (32 * depth) with
            | .wait => s
            | .fault _ => s.takeFault r (s.badVa r.ctx ((r.va.toNat + 128) % 2 ^ 72) (32 * depth) false) false
            | .ok (fs, s2) =>
              match s2.freeStackSlot r.die r.eng with
              | none => s
              | some slot =>
                let k := stackFrom s r slot h fs
                let s2 := (s2.movedVa r.ctx 2 r.va.toNat (128 + 32 * depth)).clearSlot k.handle
                let s3 : State := { s2.dropReq r.id with stks := s2.stks ++ [k] }
                let s4 := match r.pkt with | some p => s3.updOut p (fun o => { o with taken := true }) | none => s3
                (s4.payHdr k).2)

/-! ## Finish (R183, R191, R193) -/

/-- Every JOIN word is 0: some true; some is not: some false; or a level whose word cannot be read, or memory that is not
ready. -/
def State.joinsZero (s : State) (k : Stack) : List Nat → Eng (Option Nat)
  | [] => .ok none
  | L :: r =>
    match s.joinOf k L with
    | .ok 0 => State.joinsZero s k r
    | .ok _ => .ok (some L)
    | .fault _ => if k.result = 7 then State.joinsZero s k r else .fault L
    | .wait => .wait
/-- Step 1: the stack object, with STATUS DONE, except for NODEFAULT. -/
def State.finishWrite (s : State) (k : Stack) : Wb := if k.result = 7 then .ok s else s.writeBack k 3
/-- Where the routines that worked on the walk have released what they did: those of the stack, and of each stack cut from it (R191, R397). -/
def Stack.routines (k : Stack) (x : Sync) : Bool :=
  x == .stack k.id || x == .walk k.id || (List.range 64).any (fun L => x == .join k.ctx (k.joinAt L))
/-- Step 2: JOIN of frame JLEVEL of the stack at JOINVA falls by 1, an .ar atomic: what the stack's routines did comes before the leave routine of
that frame (R190, R191). -/
def State.finishJoin (s : State) (k : Stack) : Wb :=
  if k.jlevel = 0xFF then .ok s
  else
    let va := (k.joinva.toNat + 128 + 32 * k.jlevel + 24) % 2 ^ 72
    match s.engXlate k.ctx va 4 true with
    | .ok (pa, s1) => .ok ((((s1.wr pa 4 (s1.rd pa 4 + (2 ^ 32 - 1))).byEngine 1 s.writes).movedBytes k.ctx pa 4).pass
        k.routines (.join k.ctx va))
    | .fault _ => if k.result = 7 then .ok s else .fault va
    | .wait => .wait
/-- The lane that a continuation resumes comes after the routines of the walk that releases it (R397). -/
def State.afterWalk (s : State) (k : Stack) : State :=
  match k.cont.bind (fun c => s.caddy.find? (fun r => r.id == c)) with
  | some r => s.obtain [{ me := r.me, uid := 0, tid := r.home, die := r.die }] k.routines
  | none => s
/-- Steps 3 and 4, and the slot is free. -/
def State.finishRest (s : State) (k : Stack) : State :=
  let s0 := (s.afterWalk k).forget (fun x => k.routines x)
  let s1 : State := { s0 with stks := s0.stks.filter (fun x => x.id != k.id) }
  let s2 := match k.cont with | some c => s1.releaseCont c [lo32 k.result, k.accepts, k.visits] | none => s1
  match k.pkt with
  | some p => (s2.outFault (some p) k.firstFault).updOut p (fun o => { o with st := .done (if k.result = 7 then 1 else 0) 0 })
  | none => s2
/-- WALK_FINISH of stack n (R183). -/
def execWalkFinish (s : State) : Out :=
  .next (match s.stk? s.occ.n with
    | none => s
    | some k =>
      match k.st with
      | .finishing _ =>
        if !s.stackGoes k then s
        else
          (match s.joinsZero k (List.range k.depth) with
           | .ok (some _) => s
           | .wait => s
           | .fault L => s.wbFault k (k.joinAt L) 0
           | .ok none =>
             (match s.finishWrite k with
              | .wait => s
              | .fault va => s.wbFault k va
              | .ok s1 =>
                (match s1.finishJoin k with
                 | .wait => s
                 | .fault va => s1.wbFault k va 2
                 | .ok s2 => s2.finishRest k)))
      | _ => s)

/-! ## Answers to the records of stacks (R57, R192, R193) -/

/-- RETRY of a node-fetch fault or of a write-back: the natural step repeats (R192). -/
def State.retryStack (s : State) (id : Nat) (node : Bool) : State :=
  match s.stkOf id with
  | none => s
  | some k =>
    let k1 : Stack := if node then { k with parked := false, hdrDue := true } else { k with wbFault := false }
    let s1 := s.setStk k1
    if s1.sleepDue k1 then s1.sleepStacks k.ctx else s1
/-- UNRESOLVABLE ends the walk with NODEFAULT (R192, R193). An invocation of the stack that has not joined a wave is dropped; a routine lane that
runs finds no stack of its own at its TRET. The header in memory keeps the STATUS it had (log 135). -/
def State.failStack (s : State) (id : Nat) : State :=
  let s1 := s.updStkOf id (fun k => { k.finish 7 with parked := false, wbFault := false, hdrDue := false })
  if (s.stkOf id).isSome then { s1 with invs := s1.invs.filter (fun v => v.stk != id) } else s1

/-! ## TRAV and TNEW (R374, R377) -/

def fTRAV (d a : BitVec 7) (n : BitVec 4) : FormF := fun _ _ =>
  { xmod := true, srcs := [srcBlk 0 d.toNat, srcBlk a 2], bad := !Instr.wf (.trav d a n) }
/-- Lanes of a TRAV wait for Caddy space, for slots of the engine, and for their headers' pages (R76, R182, R94). -/
def travBusy (a : BitVec 7) (n : BitVec 4) : State → Iss → Option State := fun s i =>
  match caddyBusy s i with
  | some s1 => some s1
  | none =>
    if (contLive i).E.length ≤ s.engineRoom i.die (i.t.core / 4) then needPages (alignedVas 128 (mVa n a)) s (contLive i)
    else some s
/-- One lane of a TRAV: its record, held, its request, and its end (R374); what its XFENCE.to.trav ordered comes before the walk (R191). -/
def State.travLane (s : State) (i : Iss) (batch n L va : Nat) : State :=
  let id := s.fresh
  let r : CaddyRec := caddyRec i L n ((i.l L).pc.toNat + 1) batch id true
  (({ s with
    caddy := s.caddy ++ [r]
    stackReqs := s.stackReqs ++ [{ id := id + 1, die := i.die, eng := i.t.core / 4, ctx := i.c, gid := i.t.gid, va := BitVec.ofNat 72 va
                                   cont := some id, pkt := none }]
    fresh := id + 2 } : State).pass (fun k => k == .trav (i.l L).me) (.stack (id + 1))).endLane i L
/-- TRAV (R374, R182). -/
def execTrav (d a : BitVec 7) (n : BitVec 4) (s : State) : Out :=
  .next (s.issue (fTRAV d a n) (travBusy a n) (fun i s =>
    if (contLive i).E = [] then (s, contTraps i)
    else
      let batch := s.fresh
      let (s1, ts) := memBody .load 128 128 (mVa n a) (0, 0) (fun i L _ _ s => s.travLane i batch d.toNat L (mVa n a i L)) (contLive i) s.next
      (s1.afterExit i, contTraps i ++ ts)))

/-- The accesses of a TNEW in lane L: the header of a new stack object, as .wk stores of 16 bytes. -/
def tnewAccs (i : Iss) (L : Nat) (d a : BitVec 7) (m n : BitVec 4) (pa : Nat) (e : Pte) : List Acc :=
  let l := i.l L
  let h := headerBytes ((List.range 16).map (fun j => l.v (d.toNat + j))) (l.pair (d.toNat + 16)) (BitVec.ofNat 72 (baseOf i.w l m.toNat))
    0 0 0 0xFF 0 0 0 0
  (List.range 8).map (fun j => { accOf .store (pa + 16 * j) 16 with
    va := BitVec.ofNat 72 (mVa n a i L + 16 * j), data := BitVec.ofNat 128 (bsNat h (16 * j) 16), ord := .wk, type := e.type, log := e.log
    posted := true })
/-- TNEW (R377). -/
def execTnew (d a : BitVec 7) (m n : BitVec 4) (s : State) : Out :=
  .next (s.issue (fun _ _ => { xmod := true, srcs := [srcBlk d 18, srcBlk a 2], bad := !Instr.wf (.tnew d a m n) })
    (needPages (alignedVas 128 (mVa n a)))
    (memBody .store 128 128 (mVa n a) (0, 0) (fun i L pa e s =>
      ((tnewAccs i L d a m n pa e).foldl (fun (s : State) x => s.addAcc i L x) s).goOn i L (0, 0))))

/-! ## TCUT (R190, R378) -/

/-- Bytes of a new stack object: its header, and frame 0 with JOIN 0 (R190). -/
def cutBytes (q : List Word) (nlt : BitVec 72) (old : Nat) (L : Nat) (f : Frame) : List Byte :=
  headerBytes q 0 nlt 0 1 0 L (BitVec.ofNat 72 old) 0 0 0 ++
    ({ f with cursor := 0xFF, entered := true, leavepend := false, noleave := true, tableroot := false } : Frame).bytes ++ List.replicate 8 0
/-- What TCUT finds for a lane. -/
inductive Cut where
  /-- A status lands. -/
  | land (status : Nat) (s : State)
  /-- The lane waits. -/
  | wait (s : State)
deriving DecidableEq, Repr
/-- The lane is a routine of this stack, and may cut up to its own level (R190). -/
def routineOf (l : Lane) (k : Stack) : Option Routine := match l.routine with | some r => if r.stk = k.id then some r else none | none => none
/-- The engine cuts a stack named by handle, the new object at this VA (R190, R195, R378). -/
def State.cutByHandle (s : State) (i : Iss) (l : Lane) (h level new : Nat) : Cut :=
  match s.stk? h with
  | none => .land 4 s
  | some k =>
    if k.ctx != i.c then .land 4 s
    else if !k.open && !(match routineOf l k with | some r => decide (level ≤ r.level) | none => false) then .land 1 s
    else if k.depth ≤ level then .land 2 s
    else if (k.frame level).mask = 0 then .land 3 s
    else if k.wbFault then .wait s
    else
      let (go, s0) := s.ssGate (s.stackLogged k) k.die (s.stackPoint k 9 level)
      if !go then .wait s0
      else
        let k1 := k.setFrame level (fun f => { f with mask := 0 })
        match s0.joinOf k level with
        | .wait => .wait s
        | .fault _ => .wait (s.wbFault k (k.joinAt level) 0)
        | .ok join =>
          (match s0.wbWrite k.ctx new (cutBytes k.q k.nlt k.va.toNat level (k.frame level)) with
           | .wait => .wait s
           | .fault va => .wait (s.wbFault k va)
           | .ok s1 =>
             (match (if k.open then s1.wbFrames k1 [level] else s1.spillFrame k1 level) with
              | .wait => .wait s
              | .fault va => .wait (s.wbFault k va)
              | .ok s2 =>
                (match s2.wbWrite k.ctx (k.joinAt level) (leBytes 4 (join + 1)) with
                 | .wait => .wait s
                 | .fault va => .wait (s.wbFault k va)
                 | .ok s3 => .land 0 (s3.setStk k1))))

/-- Handle, level and VA of a TCUT in lane L. -/
def cutHandle (a : BitVec 7) (i : Iss) (L : Nat) : Nat := ((i.l L).v a.toNat).toNat
def cutLevel (a : BitVec 7) (i : Iss) (L : Nat) : Nat := ((i.l L).v (a.toNat + 1)).toNat
def cutVa (a : BitVec 7) (n : BitVec 4) (i : Iss) (L : Nat) : Nat := vaOf i.w n.toNat (i.l L) (a.toNat + 2) 0
def byMemory (a : BitVec 7) (i : Iss) (L : Nat) : Bool := cutHandle a i L == 0xFFFFFFFF
/-- The lanes whose new object is aligned, by handle or by memory. -/
def cutLanes (mem : Bool) (a : BitVec 7) (n : BitVec 4) (i : Iss) : Iss :=
  { i with E := i.E.filter (fun L => byMemory a i L == mem && cutVa a n i L % 128 == 0) }
/-- What the header of an object that a lane cuts itself says: a status, or the cut goes on (R378). -/
def State.memCutStatus (s : State) (a : BitVec 7) (n : BitVec 4) (i : Iss) (L : Nat) : Option Nat :=
  match s.laneXl i (cutVa a n i L) 128 .load with
  | .ok pa _ => some (if s.rd (pa + 81) 1 != 0 then 1 else if s.rd (pa + 82) 1 ≤ cutLevel a i L then 2 else 0)
  | _ => none
/-- What such a lane writes: the old frame, then the whole new object. -/
def memCutVas (a : BitVec 7) (n : BitVec 4) (i : Iss) (L : Nat) : List (Nat × Nat) :=
  ((cutVa a n i L + 128 + 32 * cutLevel a i L) % 2 ^ 72, 32) ::
    (List.range 17).map (fun j => ((cutVa a n i L + 2176 + 128 * j) % 2 ^ 72, 128))
/-- The lanes that go on to cut. -/
def memCutGo (s : State) (a : BitVec 7) (n : BitVec 4) (i : Iss) : Iss :=
  { cutLanes true a n i with E := (cutLanes true a n i).E.filter (fun L => s.memCutStatus a n i L == some 0) }
/-- The headers that lanes which cut by memory read. -/
def memCutHeads (a : BitVec 7) (n : BitVec 4) (s : State) (i : Iss) : List Whole := s.wholes i .load (fun i L => [(cutVa a n i L, 128)]) (cutLanes true a n i).E
/-- What those that go on write: the old frame, which they read too, and the new object. -/
def memCutPuts (a : BitVec 7) (n : BitVec 4) (s : State) (i : Iss) : List Whole := s.wholes i .store (memCutVas a n) (memCutGo s a n i).E
/-- What they read. -/
def memCutReads (a : BitVec 7) (n : BitVec 4) (s : State) (i : Iss) : List Whole := memCutHeads a n s i ++ (memCutPuts a n s i).filter (fun x => x.n == 32)
/-- What lanes that cut by memory read and write: the header, and where they go on the old frame and the new object. -/
def memCutWholes (a : BitVec 7) (n : BitVec 4) (s : State) (i : Iss) : List Whole := memCutHeads a n s i ++ memCutPuts a n s i
/-- Lanes that cut by memory wait for pages, for the earlier accesses that their .wk reads and writes follow (R148, R378), and while a migration
holds back a write. -/
def memCutBusy (a : BitVec 7) (n : BitVec 4) : State → Iss → Option State :=
  both (fun s i => needPages (fun i => i.E.map (cutVa a n i)) s (cutLanes true a n i))
    (both (waitPieces (.load 0 0) .wk (memCutHeads a n))
      (both (fun s i => needPages (fun i => i.E.flatMap (fun L => (memCutVas a n i L).map (fun x => x.1))) s (memCutGo s a n i))
        (both (waitPieces (.load 0 0) .wk (memCutReads a n)) (both (waitPieces .store .wk (memCutPuts a n))
          (both (waitIf (fun s i => (memCutPuts a n s i).any (fun x => s.migHeld x.pa))) (waitWholes (memCutWholes a n)))))))
/-- The record of a cut (R252, kind 7): its AUX is to be the handle of the new stack, which no engine has taken yet and which has none: a
free value (log 129). -/
def State.traceCut (s : State) (die level c gid tid loc team : Nat) : State :=
  let (h, s1) := s.free
  s1.trace die 7 level c gid tid loc team (h.toNat % 2 ^ 32)
/-- A lane's cut of a stack by handle: the record is the lane's where it runs a routine of the stack, otherwise the engine's. -/
def State.noteCut (s : State) (i : Iss) (L h level : Nat) : State :=
  match s.stk? h with
  | none => s
  | some k =>
    if (routineOf (i.l L) k).isSome then
      s.traceCut k.die level i.c i.t.gid i.t.tid (s.laneLoc i.t i.w.slot L (i.l L).pc) i.t.ordinal
    else s.traceCut k.die level k.ctx k.gid 0 0 0
/-- A status lands in vD. -/
def State.cutLand (s : State) (i : Iss) (d : BitVec 7) (L status due : Nat) : State :=
  (s.goOn i L (d.toNat, 1)).addLand i.uid L d.toNat [lo32 status] due (i.l L).pc false
/-- One lane cuts an object in memory, with .wk reads and writes of its own (R378). -/
def State.memCut (s : State) (a d : BitVec 7) (n : BitVec 4) (i : Iss) (L due : Nat) (ps : List (Nat × Pte)) (hpa : Nat) : State :=
  let fpa := (ps.headD (0, 0)).1
  let npa := ((ps.drop 1).headD (0, 0)).1
  let f := frameOf (memBytes s.mem fpa 32)
  let put (s : State) (pa : Nat) (bs : List Byte) : State := s.wrSeen [s.whoOf i.uid L] pa bs
  if f.mask = 0 then s.cutLand i d L 3 due
  else
    let h := memBytes s.mem hpa 128
    let bs := cutBytes ((List.range 16).map (fun j => BitVec.ofNat 32 (bsNat h (4 * j) 4))) (BitVec.ofNat 72 (bsNat h 72 9)) (cutVa a n i L)
      (cutLevel a i L) f
    let s1 := put (put s npa (bs.take 128)) (((ps.drop 2).headD (0, 0)).1) (bs.drop 128)
    ((put (put s1 (fpa + 8) [0, 0]) (fpa + 24) (leBytes 4 (s1.rd (fpa + 24) 4 + 1))).traceCut i.die (cutLevel a i L) i.c i.t.gid i.t.tid
      (s.laneLoc i.t i.w.slot L (i.l L).pc) i.t.ordinal).cutLand i d L 0 due
/-- TCUT for the lanes that name a stack by handle, in ascending order; a lane that waits stays at the instruction. -/
def State.handleCuts (s : State) (a d : BitVec 7) (n : BitVec 4) (i : Iss) : State :=
  (cutLanes false a n i).E.foldl (fun s L =>
    match s.cutByHandle i (i.l L) (cutHandle a i L) (cutLevel a i L) (cutVa a n i L) with
    | .land st s1 => (if st = 0 then s1.noteCut i L (cutHandle a i L) (cutLevel a i L) else s1).cutLand i d L st (s.replyDue i.die)
    | .wait s1 => s1) s
/-- TCUT for the lanes that name an object in memory. -/
def State.memCuts (s : State) (a d : BitVec 7) (n : BitVec 4) (i : Iss) : State × Traps :=
  let ws := memCutReads a n s i
  let due (L : Nat) : Nat := s.wholeDue i L ws
  let s := (s.passed i (memCutWholes a n s i)).sawAll i .wk ws
  let j := cutLanes true a n i
  let go := memCutGo s a n i
  let rest : Iss := { j with E := j.E.filter (fun L => !go.E.contains L) }
  let (s1, t1) := memBody .load 128 128 (cutVa a n) (d.toNat, 1) (fun i L _ _ s => s.cutLand i d L ((s.memCutStatus a n i L).getD 1) (due L)) rest s
  let (s2, t2) := memBodyN .store (memCutVas a n) (d.toNat, 1) (fun i L ps s =>
    match s.laneXl i (cutVa a n i L) 128 .load with
    | .ok hpa _ => s.memCut a d n i L (due L) ps hpa
    | _ => s) go s1
  (s2, t1 ++ t2)
/-- TCUT (R378, R190). -/
def execTcut (d a : BitVec 7) (n : BitVec 4) (s : State) : Out :=
  .next (s.issue (fun _ _ => { xmod := true, srcs := [srcBlk a 4], dsts := [(d.toNat, 1)], bad := !Instr.wf (.tcut d a n) })
    (fun s i =>
      match memCutBusy a n s i with
      | some s1 => some s1
      | none =>
        let hs := (cutLanes false a n i).E
        if hs != [] && hs.length == i.E.length && hs.all (fun L =>
            match s.cutByHandle i (i.l L) (cutHandle a i L) (cutLevel a i L) (cutVa a n i L) with | .wait _ => true | _ => false) then
          some (s.handleCuts a d n i)
        else none)
    (fun i s =>
      let mis := i.E.filter (fun L => cutVa a n i L % 128 != 0)
      let (s1, ts) := (s.handleCuts a d n i).memCuts a d n i
      (s1, mis.map (fun L => (L, ((i.l L).trapHere tkMISALIGN 128).withVa (cutVa a n i L))) ++ ts)))

/-! ## TRET (R379) -/

/-- The registers that a decision word makes the engine read: v4 to v19, v3 with v20 and v21, v1 and v2 (R187). -/
def tretSpans (w : Word) : List (Nat × Nat) :=
  (if w.getLsbD 8 then [(4, 16)] else []) ++ (if w.getLsbD 9 then [(3, 1), (20, 2)] else []) ++ (if w.toNat % 8 = 3 then [(1, 2)] else [])
/-- One of them is empty. -/
def tretWaits (l : Lane) (a : BitVec 7) : Bool := (tretSpans (l.v a.toNat)).any (fun x => (firstEmpty l.regs Reg.full x.1 x.2).isSome)
/-- A routine lane hands its decision to the engine and ends; what it did comes before the later invocations of its stack, and before what
comes after the walk (R189, R191, R397). -/
def State.tretLane (s : State) (i : Iss) (a : BitVec 7) (L : Nat) : State :=
  let l := i.l L
  let w := l.v a.toNat
  match l.routine with
  | none => s
  | some r =>
    ((s.release [s.whoOf i.uid L] 5 [.stack r.stk]).routineEnds r w (l.pair 1) (if w.getLsbD 8 then some ((List.range 16).map (fun j => l.v (4 + j))) else none)
      (if w.getLsbD 9 then some ((l.v 3).toNat, l.v 20, l.v 21) else none)).endLane i L
/-- TRET (R379): the lane's earlier writes first; what it did happens before later invocations of the stack (R189, R191, R397). -/
def execTret (a : BitVec 7) (s : State) : Out :=
  .next (s.issueForced (fun _ _ => { srcs := [srcBlk a], bad := !Instr.wf (.tret a) })
    (fun i L x => (i.l L).routine.isSome && anyWrite x) false
    (waitIf (fun _ i => i.E.any (fun L => (i.l L).routine.isSome && tretWaits (i.l L) a))) (fun i s =>
      let (ok, bad) := i.E.partition (fun L => (i.l L).routine.isSome)
      let s1 := ok.foldl (fun s L => s.tretLane i a L) s
      (if ok = [] then s1 else s1.afterExit i, bad.map (fun L => (L, (i.l L).trapHere tkILLEGAL 0)))))

/-! ## TFRD and TFWR (R380) -/

/-- The stack and level that a lane may reach: its own routine's stack, or a parked one of its context (R380). -/
def State.frameFor (s : State) (i : Iss) (L : Nat) (a : BitVec 7) : Option (Stack × Nat) :=
  let h := ((i.l L).v a.toNat).toNat
  let level := ((i.l L).v (a.toNat + 1)).toNat
  match s.stk? h with
  | none => none
  | some k => if k.ctx == i.c && decide (level < k.depth) && (k.open || (routineOf (i.l L) k).isSome) then some (k, level) else none
/-- Word w of a frame: JOIN is read from memory (R191). DESIGN CHOICE: a frame below the top 8 is read from the engine's copy too (log 22). -/
def State.frameWord (s : State) (k : Stack) (level w : Nat) : Eng Nat :=
  if w = 6 then s.joinOf k level else .ok (bsNat ((k.frame level).bytes ++ List.replicate 8 0) (4 * w) 4)
/-- TFRD (R380). -/
def execTfrd (d a : BitVec 7) (w : BitVec 3) (s : State) : Out :=
  .next (s.issue (fun _ _ => { srcs := [srcBlk a 2], dsts := [(d.toNat, 1)], bad := !Instr.wf (.tfrd d a w) })
    (waitIf (fun s i => i.E.any (fun L => match s.frameFor i L a with
      | some (k, lv) => (match s.frameWord k lv w.toNat with | .wait => true | .fault _ => k.wbFault | .ok _ => false)
      | none => false))) (fun i s =>
      (i.E.foldl (fun s L => match s.frameFor i L a with
        | some (k, lv) => (match s.frameWord k lv w.toNat with
          | .ok x => (s.goOn i L (d.toNat, 1)).addLand i.uid L d.toNat [lo32 x] (s.replyDue i.die) (i.l L).pc false
          | .fault _ => if k.wbFault then s else s.wbFault k (k.joinAt lv) 0
          | .wait => s)
        | none => s) s,
       i.E.filterMap (fun L => if (s.frameFor i L a).isNone then some (L, (i.l L).trapHere tkILLEGAL 0) else none))))
/-- The frame takes the word; a parked stack's frame, and one below the top 8, in memory too (R380). -/
def State.frameWrite (s : State) (k : Stack) (level w : Nat) (x : Word) : Wb :=
  let k1 := k.setFrame level (fun f => if w = 4 then { f with state0 := x } else { f with state1 := x })
  match (if k.open then s.wbFrames k1 [level] else s.spillFrame k1 level) with
  | .ok s1 => .ok (s1.setStk k1)
  | r => r
/-- TFWR (R380): to STATE0 or STATE1. -/
def execTfwr (d a : BitVec 7) (w : BitVec 3) (s : State) : Out :=
  let ok (s : State) (i : Iss) (L : Nat) : Option (Stack × Nat) := if w.toNat = 4 || w.toNat = 5 then s.frameFor i L a else none
  .next (s.issue (fun _ _ => { srcs := [srcBlk a 2, srcBlk d], bad := !Instr.wf (.tfwr d a w) })
    (waitIf (fun s i => i.E.any (fun L => match ok s i L with
      | some (k, lv) => (match s.frameWrite k lv w.toNat 0 with | .wait => true | .fault _ => k.wbFault | .ok _ => false)
      | none => false))) (fun i s =>
      (i.E.foldl (fun s L => match ok s i L with
        | some (k, lv) => (match s.frameWrite k lv w.toNat ((i.l L).v d.toNat) with
          | .ok s1 => s1.updLane i.uid L Lane.adv
          | .fault va => if k.wbFault then s else s.wbFault k va
          | .wait => s)
        | none => s) s,
       i.E.filterMap (fun L => if (ok s i L).isNone then some (L, (i.l L).trapHere tkILLEGAL 0) else none))))

/-! ## TSTAT (R381) -/

/-- The stack at a VA that an engine of this device holds. -/
def State.heldStack (s : State) (c va : Nat) : Option Stack := s.stks.find? (fun k => k.ctx == c && k.va.toNat == va && !k.asleep)
/-- The lanes whose stack no engine holds. -/
def tstatRest (s : State) (a : BitVec 7) (n : BitVec 4) (i : Iss) : Iss :=
  { i with E := i.E.filter (fun L => mVa n a i L % 128 != 0 || (s.heldStack i.c (mVa n a i L)).isNone) }
def tstatWholes (a : BitVec 7) (n : BitVec 4) (s : State) (i : Iss) : List Whole :=
  s.wholes i .load (fun i L => [(mVa n a i L, 128)]) ((tstatRest s a n i).E.filter (fun L => mVa n a i L % 128 == 0))
/-- TSTAT (R381). -/
def execTstat (d a : BitVec 7) (n : BitVec 4) (s : State) : Out :=
  let land (s : State) (i : Iss) (L due x y : Nat) : State :=
    (s.goOn i L (d.toNat, 2)).addLand i.uid L d.toNat [lo32 x, lo32 y] due (i.l L).pc false
  .next (s.issue (fun _ _ => { xmod := true, srcs := [srcBlk a 2], dsts := [(d.toNat, 2)], bad := !Instr.wf (.tstat d a n) })
    (both (fun s i => needPages (alignedVas 128 (mVa n a)) s (tstatRest s a n i))
      (both (waitPieces (.load 0 0) .wk (tstatWholes a n)) (waitWholes (tstatWholes a n))))
    (fun i s =>
      let ws := tstatWholes a n s i
      let due (L : Nat) : Nat := s.wholeDue i L ws
      let s := (s.passed i ws).sawAll i .wk ws
      let rest := tstatRest s a n i
      let s1 := (i.E.filter (fun L => !rest.E.contains L)).foldl (fun s L =>
        match s.heldStack i.c (mVa n a i L) with
        | some k => land s i L (s.replyDue i.die) (k.status + 256 * k.depth + 65536 * k.result) k.handle
        | none => s) s
      memBody .load 128 128 (mVa n a) (d.toNat, 2) (fun i L pa _ s =>
        land s i L (due L) (s.rd (pa + 81) 1 + 256 * s.rd (pa + 82) 1 + 65536 * s.rd (pa + 83) 1) 0xFFFFFFFF) rest s1))

end Sys2Proof.Machine
end

