-- ==== Sys2Proof/Machine/Packet.lean ====
section
/-!
DEFINITION. Consumption and dispatch of packets by kind (R36, R38, R42 to R47, R59), batches of an ESTREQ queue (R79, R80),
queue control (R32, R34, R37), counters (R50) and waiting children (R71).
-/

namespace Sys2Proof.Machine

/-! ## What a packet finds -/

/-- What a wait comes to. -/
inductive WaitSt where
  | met
  | open'
  | poisoned
  /-- The counter cannot be read. -/
  | unreadable
deriving DecidableEq, Repr
/-- A comparison with a counter (R38, R44, R50). -/
def State.waitOn (s : State) (c i : Nat) (ok : Nat → Bool) : WaitSt :=
  if s.poisoned c i then .poisoned
  else
    match s.counter c i with
    | .ok v => if ok v then .met else .open'
    | .fault _ => .unreadable
    | .wait => .open'
/-- WAIT of a packet, and for WAITCNT its comparison. -/
def State.waitState (s : State) (c : Nat) (p : Pkt) : WaitSt :=
  if p.kind = 5 then s.waitOn c (fieldAt p 4 2) (fun v => if fieldAt p 6 1 = 0 then decide (fieldAt p 8 8 ≤ v) else v == fieldAt p 8 8)
  else if p.kind = 6 || p.kind = 7 || !p.wait then .met
  else s.waitOn c p.waitIdx (fun v => decide (p.waitTgt ≤ v))

/-- The team of the lane that pushed the packet in a slot of a COPY queue (R42). -/
def State.pusherOf (s : State) (q slot : Nat) : Option Nat :=
  let x := s.queue q
  match s.engXlate x.ctx.toNat (x.slotVa slot) 1 false with
  | .ok (pa, _) => Tab.find s.pushers pa
  | _ => none
/-- What the lane that pushed the packet in a slot had ordered by XFENCE comes before the engine work that the packet starts (R155, R191). -/
def State.afterPush (s : State) (q slot : Nat) (k : Sync) : State :=
  let x := s.queue q
  match s.engXlate x.ctx.toNat (x.slotVa slot) 1 false with
  | .ok (pa, _) => s.pass (fun y => y == .slot pa) k
  | _ => s
/-- The packet passes the checks of R40. -/
def State.packetOk (s : State) (q slot : Nat) (p : Pkt) : Bool :=
  let x := s.queue q
  let who := s.pusherOf q slot
  packetGood (s.ctx x.ctx.toNat) (QueueHdr.qkind x.hdr) who.isSome p && !(p.kind == 3 && s.copyMemberBad who p)

/-! ## Dispatch by kind -/

/-- The engine of a TRAVERSE packet, where it has room: die and core cluster; without a named one, the ready engine of the
monitor's die with the fewest live stacks (R43); of several, the lowest (the model's choice, log 121). -/
def State.traverseEngine (s : State) (q : Nat) : Option (Nat × Nat) :=
  let h := (s.queue q).hdr
  if fieldAt h 27 1 = 1 then
    let d := fieldAt h 29 1 / 12
    let k := fieldAt h 29 1 % 12
    if s.clusterRdy d k && decide (0 < s.engineRoom d k) then some (d, k) else none
  else
    let d := s.monDie q
    match minBy (fun k => s.liveStacks d k) ((List.range 12).filter (s.clusterRdy d)) with
    | some k => if 0 < s.engineRoom d k then some (d, k) else none
    | none => none
/-- The packet is complete at its dispatch, with this status. -/
def State.finishNow (s : State) (q slot : Nat) (p : Pkt) (status : Nat) : State :=
  s.dispatch q slot p 0 none (.done (BitVec.ofNat 8 status) 0)
/-- The packet stays at the head, read and checked (R36, step 5). -/
def State.holdPacket (s : State) (q slot : Nat) (p : Pkt) : State := s.updQueue q (fun x => { x with held := some (p, slot) })
/-- The grid of a card that has not been dispatched yet. -/
def State.cardGrid (s : State) (q slot : Nat) : Bool :=
  s.grids.any (fun g => !g.begun && (match g.src with | .packet a b => a == q && b == slot | _ => false))
/-- The WAIT of a packet of a queue, if it has one, has been met: what it orders comes before what the packet starts (R153). -/
def State.met (s : State) (q : Nat) (p : Pkt) (k : Sync) : State :=
  if Pkt.wait p then s.afterWait (s.queue q).ctx.toNat (Pkt.waitIdx p) k else s
/-- A JOB or GRID joins the deal list; its first deal dispatches it (R36, R60). -/
def State.doCard (s : State) (q slot : Nat) (p : Pkt) : State :=
  if cardWork p = 0 then s.finishNow q slot p 0
  else
    ((s.met q p (.start s.fresh)).addGrid (s.queue q).ctx.toNat p (.packet q slot) 0 (min (fieldAt p 33 1) (QueueHdr.prio (s.queue q).hdr)) q slot false).holdPacket
      q slot p
/-- A COPY goes to its engine unless it overlaps an earlier packet that still runs (R119). -/
def State.doCopy (s : State) (q slot : Nat) (p : Pkt) : State :=
  let who := s.pusherOf q slot
  if !s.copyReady q || s.outs.any (fun o => o.q == q && !o.child && Pkt.kind o.pkt == 3 && o.st == .running && s.copiesMeet o.tid o.pkt who p) then
    s.holdPacket q slot p
  else
    let id := s.fresh
    (s.dispatch q slot p 0 who .running).copyOn id
/-- A TRAVERSE goes to an engine with a free slot; its walks are a grid of their own (R43, R188). -/
def State.doTraverse (s : State) (q slot : Nat) (p : Pkt) : State :=
  match s.traverseEngine q with
  | none => s.holdPacket q slot p
  | some (d, k) =>
    match s.consume q slot with
    | .wait => s
    | .fault _ => s.haltQueue q 5 slot
    | .ok s1 =>
      let c := (s.queue q).ctx.toNat
      let gid := s1.fresh
      let s2 := (s1.addGrid c p (.walk q slot) 0 (min (fieldAt p 33 1) (QueueHdr.prio (s.queue q).hdr)) q slot false).updGrid gid
        (fun g => { g with begun := true })
      let id := s2.fresh
      let s3 := (s2.addOut q slot p gid none .running).trace (s.monDie q) 1 0 c gid 0 0 0 (q % 4096)
      (({ s3 with
        stackReqs := s3.stackReqs ++ [{ id := s3.fresh, die := d, eng := k, ctx := c, gid, va := BitVec.ofNat 72 (fieldAt p 8 9), cont := none
                                        pkt := some id }]
        fresh := s3.fresh + 1 } : State).afterPush q slot (.stack s3.fresh)).met q p (.stack s3.fresh)
/-- A SIGNAL waits for every earlier packet of its queue, then writes its counter (R45). -/
def State.doSignal (s : State) (o : OutPkt) : State :=
  if o.st != .running || s.outs.any (fun x => x.q == o.q && !x.child && decide (x.id < o.id)) then s
  else
    match s.counterOp o.ctx (fieldAt o.pkt 4 2) o.gid (fieldAt o.pkt 6 1 == 1) (fieldAt o.pkt 8 8) with
    | .ok s1 => s1.updOut o.id (fun o => { o with st := .done 0 0 })
    | .fault _ => (s.updOut o.id (fun o => { o with st := .opBad })).haltQueue o.q 5 (s.readIdx o.q)
    | .wait => s
/-- A TIMEBIND writes its table entry (R46; log 27). -/
def State.doTimebind (s : State) (q slot : Nat) (p : Pkt) : State :=
  let c := (s.queue q).ctx.toNat
  match s.engWr c (((s.ctx c).ttva + 16 * fieldAt p 4 2) % 2 ^ 72) (leBytes 9 (fieldAt p 8 9) ++ leBytes 4 (fieldAt p 20 4) ++ [0, 0, 0]) with
  | .ok s1 => s1.finishNow q slot p 0
  | .fault _ => s.haltQueue q 5 slot
  | .wait => s
/-- Dispatch a packet that has passed its checks, once its wait is met (R36, step 5; R50). -/
def State.attempt (s : State) (q slot : Nat) (p : Pkt) : State :=
  if s.cardGrid q slot then s
  else
  match s.waitState (s.queue q).ctx.toNat p with
  | .poisoned =>
    let s1 := s.finishNow q slot p 2
    if (p.kind = 1 || p.kind = 2) && s1.outs.length != s.outs.length then
      s1.updCtx (s.queue q).ctx.toNat (fun x => { x with faulted := true }) else s1
  | .unreadable => s.haltQueue q 5 slot
  | .open' => s.holdPacket q slot p
  | .met =>
    match p.kind with
    | 1 => s.doCard q slot p
    | 2 => s.doCard q slot p
    | 3 => s.doCopy q slot p
    | 4 => s.doTraverse q slot p
    | 6 =>
      let id := s.fresh
      let s1 := s.dispatch q slot p 0 none .running
      (match s1.out? id with | some o => s1.doSignal o | none => s1)
    | 7 => s.doTimebind q slot p
    | _ => s.finishNow q slot p 0
/-- The monitor has served the queue (R59). -/
def State.servedNow (s : State) (q : Nat) : State :=
  { s with lastServed := Tab.put s.lastServed (64 * s.monDie q + monOf q) q }
/-- After an attempt at the packet at its head, from state s: the queue has been served if the packet was dispatched, joined the deal list
or halted the queue; one whose packet waits is passed over and keeps its turn (R59). -/
def State.tookUp (s : State) (q : Nat) (t : State) : State :=
  if t.outs.length != s.outs.length || t.grids.length != s.grids.length || (t.queue q).status != 0 then t.servedNow q else t
/-- The monitor takes up the slot at READIDX of a packet queue, for packets of a kind, or for a slot it cannot read (R36,
R37). A packet it holds already is taken up again. -/
def State.takeUp (s : State) (q : Nat) (kind : Nat → Bool) : State :=
  let x := s.queue q
  if !s.served q || QueueHdr.qkind x.hdr = 3 then s
  else
    match x.held with
    | some (p, slot) => if kind (Pkt.kind p) && (s.waitState x.ctx.toNat p != .open') then s.tookUp q (s.attempt q slot p) else s
    | none =>
      match s.head q with
      | .empty => s
      | .unreadable => s.haltQueue q 5 (s.readIdx q)
      | .packet p slot =>
        if !kind (Pkt.kind p) then s
        else if Pkt.seq p != slot % 65536 then s.tookUp q (s.haltQueue q 2 slot)
        else if 8 < Pkt.kind p then s.tookUp q (s.haltQueue q 3 slot)
        else if !s.packetOk q slot p then s.tookUp q (s.haltQueue q 4 slot)
        else s.tookUp q (s.attempt q slot p)

/-! ## The packet events: n names the queue -/

/-- JOB_PACKET (R39). -/
def execJobPacket (s : State) : Out := .next (s.takeUp s.occ.n (fun k => k == 1))
/-- GRID_PACKET (R41). -/
def execGridPacket (s : State) : Out := .next (s.takeUp s.occ.n (fun k => k == 2))
/-- COPY_PACKET: of queue n, or with m the copy of packet m goes on (R42, R120). -/
def execCopyPacket (s : State) : Out := .next (if s.occ.m = 0 then s.takeUp s.occ.n (fun k => k == 3) else s.copyOn s.occ.m)
/-- TRAVERSE_PACKET (R43). -/
def execTraversePacket (s : State) : Out := .next (s.takeUp s.occ.n (fun k => k == 4))
/-- WAITCNT_PACKET (R44). -/
def execWaitcntPacket (s : State) : Out := .next (s.takeUp s.occ.n (fun k => k == 5))
/-- SIGNAL_PACKET: of queue n, or with m the signal of packet m performs (R45). -/
def execSignalPacket (s : State) : Out :=
  .next (if s.occ.m = 0 then s.takeUp s.occ.n (fun k => k == 6)
    else match s.out? s.occ.m with
      | some o => if Pkt.kind o.pkt == 6 && !o.child then s.doSignal o else s
      | none => s)
/-- TIMEBIND_PACKET (R46). -/
def execTimebindPacket (s : State) : Out := .next (s.takeUp s.occ.n (fun k => k == 7))
/-- NOP_PACKET (R47). -/
def execNopPacket (s : State) : Out := .next (s.takeUp s.occ.n (fun k => k == 8))
/-- ILLEGAL_PACKET_KIND (R36, step 3). -/
def execIllegalPacketKind (s : State) : Out := .next (s.takeUp s.occ.n (fun k => decide (8 < k)))

/-- A child card held under WAIT is dealt, or fails unlaunched (R71, R50). -/
def State.childWait (s : State) (g : Grid) : State :=
  match s.waitOn g.ctx (Pkt.waitIdx g.card) (fun v => decide (Pkt.waitTgt g.card ≤ v)) with
  | .met => (s.afterWait g.ctx (Pkt.waitIdx g.card) (.start g.gid)).updGrid g.gid (fun g => { g with waiting := false })
  | .poisoned =>
    let s1 : State := { s with
      grids := s.grids.filter (fun x => x.gid != g.gid)
      outs := s.outs ++ [{ id := s.fresh, q := 0xFFFF, slot := 0, ctx := g.ctx, pkt := g.card, st := .done 2 0, gid := g.gid, child := true }]
      fresh := s.fresh + 1 }
    let s1 := s1.updCtx g.ctx (fun x => { x with faulted := true })
    (match g.src with | .child p _ => s1.reportChild p true 0 | _ => s1)
  | _ => s
/-- PACKET_WAIT_MET: for the packet held at the head of queue m, or with n = 1 for child grid m (R38, R44, R71). -/
def execPacketWaitMet (s : State) : Out :=
  .next (if s.occ.n = 0 then s.takeUp s.occ.m (fun _ => (s.queue s.occ.m).held.isSome)
    else match s.grid? s.occ.m with
      | some g => if g.waiting && (s.ctx g.ctx).enable then s.childWait g else s
      | none => s)

/-! ## ESTREQ batches (R79, R80): n names the queue -/

/-- The run of present records from READIDX, cut short where the ring wraps. -/
def runFrom (present : List Nat) (log : Nat) : Nat → Nat → Nat
  | 0, _ => 0
  | fuel + 1, k => if !present.contains k then 0 else if (k + 1) % 2 ^ log = 0 then 1 else 1 + runFrom present log fuel (k + 1)
/-- The ESU appends of a batch's records come before every access of its lanes (R79, R153). -/
def State.batchAppends (s : State) (x : Queue) (r gid : Nat) : Nat → State
  | 0 => s
  | n + 1 =>
    let va := (QueueHdr.slots x.hdr + 16 * ((r + n) % 2 ^ QueueHdr.logslots x.hdr)) % 2 ^ 72
    match s.engXlate x.ctx.toNat va 16 false with
    | .ok (pa, _) => State.batchAppends (s.readInto (fun w => w.eng == some 3) pa 16 (.start gid)) x r gid n
    | _ => State.batchAppends s x r gid n
/-- A batch of this many records becomes a JOB (R80). -/
def State.formBatch (s : State) (q r n : Nat) : State :=
  let x := s.queue q
  let slot := (QueueHdr.slots x.hdr + 16 * (r % 2 ^ QueueHdr.logslots x.hdr)) % 2 ^ 72
  let card : Pkt := x.template ||| record 512 [(8, 9, slot), (20, 4, n)]
  let gid := s.fresh
  ((s.batchAppends x r gid n).addGrid x.ctx.toNat card (.batch q r) 0 (min (fieldAt card 33 1) (QueueHdr.prio x.hdr)) q r false).updQueue q
    (fun x => { x with batch := some (gid, r, n) })
/-- With no batch running, a batch forms when its condition holds for the arrival times of the present records. -/
def State.batch (s : State) (q : Nat) (due : Queue → Bool) : State :=
  let x := s.queue q
  if !s.served q || QueueHdr.qkind x.hdr != 3 || x.batch.isSome || !due x then s
  else
    match s.engRd x.ctx.toNat (x.hva + 8) 8 with
    | .wait => s
    | .fault _ => s.haltQueue q 5 (s.readIdx q)
    | .ok (bs, _) =>
      let r := leNat bs
      let n := runFrom (x.present.map (fun y => y.1)) (QueueHdr.logslots x.hdr) x.present.length r
      if n = 0 then s else (s.formBatch q r n).servedNow q
/-- ESTREQ_BATCH_COUNT (R80). -/
def execEstreqBatchCount (s : State) : Out := .next (s.batch s.occ.n (fun x => decide (fieldAt x.template 24 2 ≤ x.present.length)))
/-- ESTREQ_BATCH_TIMEOUT: 27,000 cycles (R80). -/
def execEstreqBatchTimeout (s : State) : Out := .next (s.batch s.occ.n (fun x => x.present.any (fun y => decide (y.2 + 27000 ≤ s.cycle))))

/-! ## Queue control (R32, R34, R37): n names the queue -/

/-- ENABLE of QCTL goes to 0: the monitor stops before the next packet (R32). -/
def State.disableQueue (s : State) (q : Nat) : State :=
  if (s.queue q).enable then (s.undeal q).updQueue q (fun x => { x with enable := false, held := none, stale := false }) else s
/-- The queue's header is read and checked anew, at every RESTART; a halted queue runs again, with what the RESTART asks for (R34, R37). -/
def State.runAgain (s : State) (q : Nat) (redo : Option Bool) : State :=
  let s0 := if (s.queue q).status = 0 then s.undeal q else s.setStatus q 0
  let s1 := s0.updQueue q (fun x => { x with stale := true, held := none, redo })
  if s1.monWorks q then s1.readHeader q else s1
/-- The slot at READIDX is discarded, with a SKIPPED record (R37). -/
def State.discardSlot (s : State) (q : Nat) : State :=
  let x := s.queue q
  match s.engRd x.ctx.toNat x.hva 16 with
  | .wait => s
  | .fault _ => s.haltQueue q 5 (s.readIdx q)
  | .ok (bs, _) =>
    let r := bsNat bs 8 8
    if bsNat bs 0 8 = r then s
    else
      match s.engRd x.ctx.toNat (x.slotVa r) 64 with
      | .wait => s
      | .fault _ => s.haltQueue q 5 r
      | .ok (ps, _) => s.finishNow q r (BitVec.ofNat 512 (leNat ps)) 3
/-- What a RESTART asked for is done, by the header that has been read for it: with SKIP the halted slot, or the packet that waits, is discarded;
otherwise what waited at an unusable ring or counter is repeated. A header that has halted the queue again lets no slot be consumed (R34,
R37; log 133). -/
def State.redoQueue (s : State) (q : Nat) : State :=
  let s1 := s.updQueue q (fun x => { x with redo := none })
  match (s.queue q).redo with
  | none => s
  | some skip =>
    if (s.queue q).stale || !s.monWorks q then s
    else if (s.queue q).status != 0 then s1
    else if !skip || s.stuckOut q then s1.restartOuts q skip
    else if QueueHdr.qkind (s.queue q).hdr = 3 then s1
    else s1.discardSlot q
/-- ENABLE of QCTL goes to 1, with CONTEXT as written (R32, R34). DEDUCED: STATUS stays, so a queue that was halted stays
halted until RESTART (log 57). What a RESTART asked for and has still to be done is done once the header is read (log 133). -/
def State.enableQueue (s : State) (q ctx : Nat) : State :=
  if q < 4096 && !(s.queue q).enable then
    let s1 := s.updQueue q (fun x => { x with enable := true, ctx := BitVec.ofNat 8 ctx, stale := true, present := [] })
    if s1.staleQueues.contains q then (s1.readHeader q).redoQueue q else s1
  else s
/-- RESTART with SKIP = 0 (R37). -/
def State.restartQueue (s : State) (q : Nat) : State := (s.runAgain q (some false)).redoQueue q
/-- RESTART with SKIP = 1: without a halted slot only the header is read again (R32, R37). -/
def State.skipQueue (s : State) (q : Nat) : State :=
  if (s.queue q).status = 0 then (s.runAgain q (s.queue q).redo).redoQueue q else (s.runAgain q (some true)).redoQueue q
/-- The headers that are due and can be read now are read, and what waited for them is done (R21, R34, R37). -/
def State.readHeaders (s : State) : State := s.staleQueues.foldl (fun s q => (s.readHeader q).redoQueue q) s
/-- QUEUE_ENABLE, for context m (R34). -/
def execQueueEnable (s : State) : Out := .next (if s.barwin then s.enableQueue s.occ.n s.occ.m else s)
/-- QUEUE_DISABLE (R32). -/
def execQueueDisable (s : State) : Out := .next (if s.barwin then s.disableQueue s.occ.n else s)
/-- QUEUE_RESTART (R37). -/
def execQueueRestart (s : State) : Out := .next (if s.barwin then s.restartQueue s.occ.n else s)
/-- QUEUE_SKIP (R37). -/
def execQueueSkip (s : State) : Out := .next (if s.barwin then s.skipQueue s.occ.n else s)

/-- MONITOR_SRAM_ERROR in the copy of a packet of queue n: HALT-POISON, and a machine check to the context's event ring and
to MCRING (R37). -/
def execMonitorSramError (s : State) : Out :=
  .next (
    let q := s.occ.n
    let x := s.queue q
    let hit (slot : Nat) : State :=
      let s1 := s.haltQueue q 1 slot
      (s1.event 9 x.ctx.toNat q slot [(24, 2, (Config.unitCode 2).toNat), (26, 8, slot)]).machineCheck x.ctx.toNat q slot 2 slot
    if !s.served q then s
    else
      match x.held with
      | some (_, slot) => hit slot
      | none => (match s.head q with | .packet _ slot => hit slot | _ => s))

/-! ## Counters (R50): context n, counter m -/

/-- Some packet or child waits on a counter, so that a monitor keeps a live copy of it (R49). -/
def State.watched (s : State) (c i : Nat) : Bool :=
  s.queues.any (fun q => q.2.enable && q.2.ctx.toNat == c && (match q.2.held with
    | some (p, _) => if Pkt.kind p = 5 then fieldAt p 4 2 == i else (Pkt.kind p != 6 && Pkt.kind p != 7 && Pkt.wait p && Pkt.waitIdx p == i)
    | none => false)) ||
    s.grids.any (fun g => g.waiting && g.ctx == c && Pkt.waitIdx g.card == i)
/-- COUNTER_POISON (R50). -/
def execCounterPoison (s : State) : Out :=
  .next (
    let c := s.occ.n
    let i := s.occ.m
    if !s.watched c i || s.poisoned c i then s
    else (s.updCtx c (fun x => { x with faulted := true, poisoned := i :: x.poisoned })).event 4 c 0xFFFF 0 [(24, 2, i)])
/-- A write of CNTREINIT (R30, R50). -/
def State.reinit (s : State) (c x : Nat) : State :=
  if x / 65536 != 0 then s else s.updCtx c (fun y => { y with poisoned := y.poisoned.filter (fun i => i != x) })
/-- CNTREINIT_WRITE of context n, value x (R50). -/
def execCntreinitWrite (s : State) : Out := .next (if s.barwin && s.occ.n < 256 && s.occ.x < 2 ^ 32 then s.reinit s.occ.n s.occ.x else s)

end Sys2Proof.Machine
end

