-- ==== Sys2Proof/Machine/Debug.lean ====
section
/-!
DEFINITION. The debug control block (R242), the Scoresheet's modes and its end (R255, R257), the debug command ring (R249),
dumps (R250, R251) and the energy counters (R254).
-/

namespace Sys2Proof.Machine

/-! ## The control block (R242, R255) -/

/-- The block as it stands in memory. -/
def State.dbgRead (s : State) : Option (BitVec 4096) :=
  if s.host.tabSet && s.devOk s.dbgPa 512 then some (BitVec.ofNat 4096 (s.rd s.dbgPa 512)) else none
/-- SSMODE: 3 to 255 act as OFF. -/
def blkMode (b : BitVec 4096) : Nat := if fieldAt b 9 1 ≤ 2 then fieldAt b 9 1 else 0
/-- DGEN in memory differs from the one last read. -/
def State.dgenMoved (s : State) : Option (BitVec 4096) := s.dbgRead.filter (fun b => fieldAt b 0 8 != fieldAt s.dbg.blk 0 8)

/-- Every die appends an END record, then the mode ends (R255). -/
def State.ssOff (s : State) : State :=
  let s1 := if s.dbg.ssStatus = .recording then (List.range s.dies).foldl (fun (s : State) d => s.ssAppend d ssEndRec) s else s
  let s2 := s1.setSs .idle
  { s2 with
    grids := s2.grids.map (fun g => { g with logOrd := none })
    dbg := { s2.dbg with ssMode := 0, ssLog := [[], [], [], []], ssEnd := [], ssHeld := [] } }
/-- A mode starts, or is refused: no Scoresheet, or stream 3 off on a die (R255). -/
def State.ssStart (s : State) (mode : Nat) : State :=
  if !s.hasUnit 3 || (List.range s.dies).any (fun d => s.streamPa d 3 == 0) then
    ({ s with dbg := { s.dbg with ssMode := mode } } : State).setSs .refused
  else
    let s1 : State := { s with dbg := { s.dbg with
      ssMode := mode, ssGrids := 0, ssCount := [], ssEnd := [], ssLog := [[], [], [], []], ssHeld := [] } }
    if mode = 1 then s1.setSs .recording
    else (List.range s.dies).foldl (fun (s : State) d => s.ssRead d) (s1.setSs .replaying)
/-- The device reads the block again and applies it. After ENDED, DIVERGED or REFUSED, as while a mode runs, only OFF
changes the mode (R255). -/
def State.dbgApply (s : State) (b : BitVec 4096) : State :=
  let s1 : State := { s with dbg := { s.dbg with blk := b } }
  if blkMode b = 0 then (if s.dbg.ssMode = 0 then s1 else s1.ssOff)
  else if s.dbg.ssMode = 0 then s1.ssStart (blkMode b)
  else s1
/-- A DGEN change, of the kind of mode change that p accepts. -/
def State.dgenChange (s : State) (p : Nat → Bool) : State :=
  match s.dgenMoved with
  | some b => if p (blkMode b) then s.dbgApply b else s
  | none => s
/-- SSMODE_RECORD (R255). -/
def execSsmodeRecord (s : State) : Out := .next (s.dgenChange (fun m => m == 1 && s.dbg.ssMode == 0))
/-- SSMODE_REPLAY (R257). -/
def execSsmodeReplay (s : State) : Out := .next (s.dgenChange (fun m => m == 2 && s.dbg.ssMode == 0))
/-- SSMODE_OFF (R255). -/
def execSsmodeOff (s : State) : Out := .next (s.dgenChange (fun m => m == 0 && s.dbg.ssMode != 0))
/-- DEBUG_CONFIG_UPDATE: no mode starts or ends (R242). -/
def execDebugConfigUpdate (s : State) : Out := .next (s.dgenChange (fun m => (m == 0) == (s.dbg.ssMode == 0)))

/-! ## Recording and replay (R255, R257): n names the die -/

/-- SCORESHEET_LOG_SPACE of die n (R255). -/
def execScoresheetLogSpace (s : State) : Out := .next (if s.occ.n < s.dies then s.ssFlush s.occ.n else s)
/-- The divergence timeout in cycles (R242). -/
def State.divCycles (s : State) : Nat := usCycles (if fieldAt s.dbg.blk 16 4 = 0 then 10000 else fieldAt s.dbg.blk 16 4)
/-- A lane of a logged team that a record of kind 1, 2 or 6 names. -/
def SsPoint.names (p : SsPoint) (t : Team) (w : Wave) (L : Nat) : Bool :=
  t.ssId == p.id && BitVec.ofNat 8 w.idx == p.wave && BitVec.ofNat 8 L == p.lane
/-- The work that a point holds is still there: an access, an append or a lane that is to make one; a generation; a grid; a deal; records;
a group; a stack; a packet (R256, R257). -/
def State.stillHeld (s : State) (p : SsPoint) : Bool :=
  match p.kind with
  | 3 => s.gens.any (fun g => BitVec.ofNat 32 g.rg == p.id && g.gen == p.lane)
  | 4 => s.grids.any (fun g => !g.begun && s.gridPoint g == p)
  | 5 => s.grids.any (fun g => g.logOrd == some p.grid.toNat && g.undealt)
  | 6 => s.caddy.any (fun r => !r.arrived && BitVec.ofNat 8 r.wave == p.wave && (match s.team? r.tid with | some t => t.ssId == p.id | none => false))
  | 7 => s.grids.any (fun g => g.logOrd == some p.grid.toNat && BitVec.ofNat 32 g.formOrd == p.id &&
      (s.caddy.any (fun r => r.gid == g.gid && r.arrived && !r.held) || s.invs.any (fun v => v.gid == g.gid)))
  | 8 => s.stks.any (fun k => BitVec.ofNat 32 k.handle == p.id)
  | 9 => s.stks.any (fun k => BitVec.ofNat 32 k.handle == p.id)
  | 10 => s.outs.any (fun o => BitVec.ofNat 32 o.slot == p.id && BitVec.ofNat 32 o.q == p.n && o.st == .running)
  | _ =>
    s.accs.any (fun a => BitVec.ofNat 32 a.count == p.n && BitVec.ofNat 8 a.wave == p.wave && BitVec.ofNat 8 a.lane == p.lane &&
        (match s.team? a.tid with | some t => t.ssId == p.id | none => false)) ||
      s.appends.any (fun x => match x.pt with | some q => ({ q with unit := p.unit } : SsPoint) == p | none => false) ||
      s.waves.any (fun w => (List.range w.lanes.length).any (fun L =>
        p.names (s.teamOf w) w L && (w.lane L).st == .run && BitVec.ofNat 32 (w.lane L).opCount == p.n))
/-- REPLAY_DIVERGE_TIMEOUT of the point with key n (R257, cause 1). -/
def execReplayDivergeTimeout (s : State) : Out :=
  .next (if s.dbg.ssStatus = .replaying &&
      s.dbg.ssHeld.any (fun x => x.key == s.occ.n && decide (x.since + s.divCycles ≤ s.cycle) && s.stillHeld x.pt) then
    s.ssDiverge (s.occ.n / 65536) 1 (s.occ.n % 256)
    else s)

/-- Work that a record of kind 1, 2 or 6 names is still under way: an access or a batch of records of its lane. -/
def State.recPending (s : State) (r : BitVec 128) (tid : Nat) : Bool :=
  s.accs.any (fun a => a.tid == tid && a.wave == fieldAt r 8 1 && a.lane == fieldAt r 9 1) ||
    s.caddy.any (fun x => x.tid == tid && !x.arrived && x.wave == fieldAt r 8 1 && x.lane == fieldAt r 9 1)
/-- A further stack of the grid may come to an engine: one waits to be taken, or a lane may still execute TRAV (R182, R374). -/
def State.moreStacks (s : State) (g : Grid) (die eng : Nat) : Bool :=
  s.stackReqs.any (fun r => r.gid == g.gid && r.die == die && r.eng == eng) ||
    (!g.isWalk && (!g.allDealt || s.caddy.any (fun r => r.gid == g.gid) ||
      s.forms.any (fun f => f.gid == g.gid && (match f.src with | .recs _ => true | .invs _ => false)) ||
      s.teams.any (fun t => t.gid == g.gid && t.kind != .routine && t.st != .retired && (s.wavesOf t.tid).any (fun w => w.lanes.any Lane.live))))
/-- The stack of this handle has finished, and no other of its grid can take the handle (R181, R257). -/
def State.stackOver (s : State) (g : Grid) (h : Nat) : Bool :=
  !s.stks.any (fun k => k.handle % 2 ^ 32 == h && k.gid == g.gid) && !s.moreStacks g (h / 2 ^ 15 % 4) (h / 2 ^ 11 % 16)
/-- What a record names can arrive no more: its grid or team is gone, its lane has exited, or its stack has finished (R257, cause 2). -/
def State.recStale (s : State) (r : BitVec 128) : Bool :=
  let k := recKind r
  if k = 3 || k = 4 || k = 10 || k = 255 then false
  else
    match s.grids.find? (fun g => g.logOrd == some (fieldAt r 10 2)) with
    | none => decide (fieldAt r 10 2 < s.dbg.ssGrids)
    | some g =>
      if k = 8 || k = 9 then s.stackOver g (fieldAt r 4 4)
      else
        let id := if k = 7 then 0x80000000 + fieldAt r 4 4 else fieldAt r 4 4
        match s.teams.filter (fun t => t.gid == g.gid && t.ssId.toNat == id) with
        | [] => false
        | ts =>
          if (k == 1 || k == 2 || k == 6) && ts.any (fun t => s.recPending r t.tid) then false
          else if ts.all (fun t => t.st == .retired) then !(!g.isJob && g.redeal.any (fun x => x.base == id))
          else (k == 1 || k == 2 || k == 6) && ts.all (fun t => t.st == .retired || (s.wavesOf t.tid).all (fun w =>
            w.idx != fieldAt r 8 1 || !(w.lane (fieldAt r 9 1)).live))
/-- The records at the heads of a die's points. -/
def headsOf : List (BitVec 128) → List (Nat × Nat) → List (BitVec 128)
  | [], _ => []
  | r :: rs, seen => if seen.any (fun x => oneOrder x.1 (recKind r) && x.2 == recUnit r) then headsOf rs seen else r :: headsOf rs ((recKind r, recUnit r) :: seen)
/-- REPLAY_DIVERGE_STALE of die n (R257, cause 2). -/
def execReplayDivergeStale (s : State) : Out :=
  .next (if s.dbg.ssStatus != .replaying then s
    else match (headsOf (s.dbg.ssLog.getD s.occ.n []) []).find? (fun r => s.recStale r) with
      | some r => s.ssDiverge s.occ.n 2 (recUnit r)
      | none => s)
/-- REPLAY_DIVERGE_UNKNOWN_KIND of die n: reading its log meets an unknown KIND (R257, cause 3). -/
def execReplayDivergeUnknownKind (s : State) : Out :=
  .next (if s.occ.n < s.dies && s.ssUnread s.occ.n && (s.ssRead s.occ.n).dbg.ssStatus == .diverged then s.ssRead s.occ.n else s)

/-! ## The command ring (R249) -/

/-- The next command: its index, the address of its slot, and the slot; none while the ring is empty or cannot be served. -/
structure Cmd where
  idx : Nat
  pa : Nat
  bits : BitVec 256
deriving DecidableEq, Repr
def State.cmdPa (s : State) : Nat := fieldAt s.dbg.blk 24 8 % 2 ^ 60
def State.cmd (s : State) : Option Cmd :=
  let h := s.cmdPa
  if fieldAt s.dbg.blk 24 8 = 0 || !s.devOk h 64 then none
  else
    let cw := s.rd h 8
    let cd := s.rd (h + 8) 8
    let slots := s.rd (h + 16) 8
    let log := s.rd (h + 24) 1
    let pa := slots % 2 ^ 60 + 32 * (cd % 2 ^ log)
    if cw = cd || !within 4 log 10 || slots % 32 != 0 || s.rd (h + 25) 39 != 0 || !s.devOk pa 32 then none
    else some { idx := cd, pa, bits := BitVec.ofNat 256 (s.rd pa 32) }
def Cmd.op (x : Cmd) : Nat := fieldAt x.bits 0 1
def Cmd.ctx (x : Cmd) : Nat := fieldAt x.bits 2 2
def Cmd.bad (x : Cmd) : Bool := x.op == 0 || decide (5 < x.op) || fieldAt x.bits 12 4 != 0
/-- RESULT, then CDONEIDX. -/
def State.cmdDone (s : State) (idx pa result : Nat) : State := (s.wr (pa + 1) 1 result).wr (s.cmdPa + 8) 8 (idx + 1)
/-- Serve the next command if it has this OP: f answers the state and the RESULT. -/
def State.command (s : State) (op : Nat) (f : Cmd → State × Nat) : State :=
  match s.cmd with
  | some x => if x.op == op && !x.bad then (let (s1, r) := f x; s1.cmdDone x.idx x.pa r) else s
  | none => s

/-- HALTCTX (R249). -/
def execDbgHaltCtx (s : State) : Out :=
  .next (s.command 1 (fun x => ((if x.ctx < 256 then (s.haltCtx x.ctx).updCtx x.ctx (fun c => { c with haltHold := true }) else s), 0)))

/-- A halted lane becomes eligible; where its wave waits for its handler it is held with the others (R208, R249). -/
def Lane.resume (l : Lane) (step closed : Bool) : Lane :=
  { l with st := if closed && !l.inHandler then .held else .run, noBreak := true, stepping := step, stepped := false, dumped := false }
/-- Lanes held at the close of a window that no handler follows resume with the first of its halted lanes that does; while the handler runs,
those of the handler with a lane of it (R208; log 18). -/
def State.resumeHeld (s : State) (uid : Nat) (handler : Bool) : State :=
  s.updWave uid (fun w => match w.win with
    | some win => if win.closed && (if w.handling then handler else s.deliver w == []) then (w.release w.handling).setWin none else w
    | none => w)
/-- Halted lanes of a wave resume, each with its trace record; a wave without halted lanes has no HALTID (R248, R249, R252). -/
def State.resumeLanes (s : State) (w : Wave) (mask : Word) (step : Bool) : State :=
  let ls := (List.range w.lanes.length).filter (fun L => (w.lane L).st == .halted && mask.getLsbD L)
  let closed := match w.window with | some x => x.closed | none => false
  let s1 := s.updWave w.uid (fun w =>
    let w1 := ls.foldl (fun w L => w.updLane L (fun l => l.resume step closed)) w
    { w1 with haltId := if w1.lanes.any (fun l => l.st == .halted) then w1.haltId else 0 })
  let s2 := if ls = [] then s1 else s1.resumeHeld w.uid (ls.any (fun L => (w.lane L).inHandler))
  ls.foldl (fun s L => s.traceLane 10 0 (s.teamOf w) w L (w.lane L).pc w.haltId.toNat) s2
/-- The wave of a context that holds a HALTID. -/
def State.haltWave (s : State) (x : Cmd) : Option Wave :=
  s.waves.find? (fun w => (s.teamOf w).ctx == x.ctx && w.haltId != 0 && w.haltId.toNat == fieldAt x.bits 4 4)
def State.resumeCmd (s : State) (step : Bool) (x : Cmd) : State × Nat :=
  match s.haltWave x with
  | some w => (s.resumeLanes w (BitVec.ofNat 32 (fieldAt x.bits 8 4)) step, 0)
  | none => (s, 2)
/-- RESUME (R249). -/
def execDbgResume (s : State) : Out := .next (s.command 2 (s.resumeCmd false))
/-- STEP (R249). -/
def execDbgStep (s : State) : Out := .next (s.command 3 (s.resumeCmd true))
/-- RESUMEALL (R249). -/
def execDbgResumeAll (s : State) : Out :=
  .next (s.command 4 (fun x => (((s.waves.filter (fun w => (s.teamOf w).ctx == x.ctx)).foldl (fun s w => s.resumeLanes w 0xFFFFFFFF false)
    (if x.ctx < 256 then s.updCtx x.ctx (fun c => { c with haltHold := false }) else s)), 0)))
/-- DEBUG_BAD_COMMAND (R249). -/
def execDbgBadCommand (s : State) : Out :=
  .next (match s.cmd with
    | some x => if x.bad then s.cmdDone x.idx x.pa 1 else s
    | none => s)

/-! ## Dumps (R250, R251) -/

/-- The lane is halted, parked, blocked in a waiting instruction, or has exited. -/
def Lane.stopped (l : Lane) : Bool :=
  match l.st with
  | .halted => true
  | .trapped => true
  | .faulted _ => true
  | .blocked _ => true
  | .exited => true
  | _ => false
def State.wavesIn (s : State) (c : Nat) : List Wave := s.waves.filter (fun w => (s.teamOf w).ctx == c)
/-- A posted write of a context. -/
def Acc.writeOf (a : Acc) (c : Nat) : Bool := a.ctx == c && a.posted
/-- DUMP: the posted writes of lanes that have not exited are held at their cores (R250). -/
def execDbgDump (s : State) : Out :=
  .next (match s.cmd with
    | none => s
    | some x =>
      if x.op != 5 || x.bad || s.dbg.dump.isSome then s
      else if !(s.wavesIn x.ctx).all (fun w => w.lanes.all Lane.stopped) then s.cmdDone x.idx x.pa 4
      else
        { s with
          waves := s.waves.map (fun w => if (s.teamOf w).ctx == x.ctx then { w with lanes := w.lanes.map (fun l => { l with dumped := l.live }) } else w)
          dbg := { s.dbg with dump := some (x.idx, x.ctx, x.pa) } })

/-- A pending-write entry (R251). -/
def pendEntry (loc va size kind st seq aop data : Nat) : List Byte :=
  recordBytes (record 512 [(0, 8, loc), (8, 9, va), (17, 1, size), (18, 1, kind), (19, 1, st), (20, 4, seq), (24, 2, aop), (32, 16, data)])
/-- KIND of a posted write, its AOP and its data. -/
def Acc.pendKind (a : Acc) : Nat × Nat × Nat :=
  match a.op with
  | .store => (if a.element then 5 else match a.ord with | .wk => 1 | .rel => 2 | _ => 0, 0, a.data.toNat)
  | .atom aop x y _ => (3, aop, if aop = 10 then y.toNat else x.toNat + (if aop = 9 then y.toNat * 2 ^ (8 * a.n) else 0))
  | .rrel v => (3, 0, v.toNat)
  | .est _ _ x _ => (4, 0, x.toNat)
  | _ => (4, 0, 0)
/-- The entry of a write, in this STATE and with this fault SEQNO. -/
def Acc.entry (a : Acc) (loc st seq : Nat) : List Byte :=
  let k := a.pendKind
  pendEntry loc a.va.toNat (match a.op with | .est _ _ _ _ => 4 | _ => a.n) k.1 st seq k.2.1 k.2.2
/-- The entry of a write that has been issued: HELD or REFUSED. -/
def State.accEntry (s : State) (t : Team) (w : Wave) (a : Acc) : List Byte :=
  a.entry (s.laneLoc t w.slot a.lane a.pc) (if a.refused then 2 else 0) 0
/-- The posted writes that an instruction makes for lane L once it performs: where it claims first, only after its claim (R251). -/
def State.faultAccs (s : State) (i : Iss) (L : Nat) (j : Instr) : List Acc :=
  let claimed (as' : List Acc) : List Acc := if (i.l L).claim.isSome then as' else []
  let cell (rg : BitVec 11) (ix : Nat) (op : AccOp) : List Acc := [{ accOf op 0 16 with va := BitVec.ofNat 72 (s.cellVa i.c rg.toNat ix) }]
  match j with
  | .st t a r o z _ => [stAcc i L t a r o (widthOf z).1 (widthOf z).2.1 0 0]
  | .red t a r o c z => [atMem i L t a r o c z 0 0 false]
  | .cstore t a r o z _ => claimed [elemAcc i L t a r o (widthOf z).1 (widthOf z).2.1 0 0]
  | .qpush _ a _ => claimed (qpushAccs i L a (slotVa i L) 0 0)
  | .rrel a n => [rrelAcc i L a n 0 0]
  | .tnew d a m n => tnewAccs i L d a m n 0 0
  | .est x ix rg => cell rg (cellOf i L ix) (.est rg.toNat (cellOf i L ix) ((i.l L).v x.toNat) 0)
  | .emrg ix rg => cell rg (cellOf i L ix) (.emrg rg.toNat (cellOf i L ix) (cell2Of i L ix))
  | .eclr ix rg => cell rg (cellOf i L ix) (.eclr rg.toNat (cellOf i L ix))
  | .esweep ix rg => cell rg (cellOf i L ix) (.esweep rg.toNat (cellOf i L ix) (cell2Of i L ix) none)
  | .einit ix rg => cell rg (cellOf i L ix) (.einit rg.toNat (cellOf i L ix) 0 0 0)
  | _ => []
/-- The entries of the writes of a lane that is parked on a fault record: FAULTED. -/
def State.faultEntries (s : State) (t : Team) (w : Wave) (L : Nat) (seq : Word) : List (List Byte) :=
  let l := w.lane L
  let i : Iss := { w := w.forReplay, t, g := s.gridOf t, E := [L] }
  let word : Option Word := match s.engRd t.ctx (((s.ctx t.ctx).codeva + 4 * l.pc.toNat) % 2 ^ 72) 4 with
    | .ok (bs, _) => some (BitVec.ofNat 32 (leNat bs))
    | _ => none
  match word.bind (fun x => match Sys2Proof.decode x with | .ok j => some j | .error _ => none) with
  | some j => (s.faultAccs i L j).map (fun a => a.entry (s.laneLoc t w.slot L l.pc) 1 seq.toNat)
  | none => []
/-- The entries of a wave, by lane and in program order within a lane. -/
def State.waveEntries (s : State) (c : Nat) (w : Wave) : List (List Byte) :=
  let t := s.teamOf w
  (List.range w.lanes.length).flatMap (fun L =>
    ((s.accs.filter (fun a => a.writeOf c && a.uid == w.uid && a.lane == L)).map (s.accEntry t w)) ++
      (match (w.lane L).st with | .faulted seq => s.faultEntries t w L seq | _ => []))

/-- A barrier's record: phase, participants arrived, arrived set (R250). -/
def State.barRecord (s : State) (t : Team) (b : Nat) : List Byte :=
  let x := t.bars.getD b {}
  let ones (y : BitVec 1024) : Nat := ((List.range 1024).filter (fun i => y.getLsbD i)).length
  leBytes 4 x.phase.toNat ++ leBytes 4 (sumBy (fun u : Team => ones (u.bars.getD b {}).arrived) (s.barTeams t b)) ++ zeros 8 ++
    leBytes 128 x.arrived.toNat
/-- Ticket state of a team (R250). -/
def ticketWord (g : Grid) (t : Team) : Nat :=
  if !ticketed g t then 0
  else
    let x := g.ticketsOf t.ordinal
    sumBy (fun n => (if x.poisoned.getLsbD n then 2 else if x.taken.getLsbD n then 1 else 0) * 4 ^ n) (List.range 16)
/-- Full bits of an allocation, eight granules a byte (R250). -/
def fullBits (t : Team) : List Byte :=
  (List.range (t.alloc / 128)).map (fun k => BitVec.ofNat 8 (sumBy (fun j => b2n (t.granuleFull (8 * k + j)) * 2 ^ j) (List.range 8)))
def State.teamDump (s : State) (t : Team) : List Byte :=
  let saved := t.st == .saved
  recordBytes (record 512 [(0, 4, t.ordinal), (4, 4, (Config.gridTag t.gid t.tid).toNat), (8, 1, t.die), (9, 1, if saved then 0xFF else t.core),
      (10, 1, b2n saved), (11, 1, t.cmember), (12, 4, t.alloc)]) ++
    bytesAt t.scratch 0 t.alloc ++ fullBits t ++ (List.range 17).flatMap (s.barRecord t) ++ leBytes 4 (ticketWord (s.gridOf t) t) ++ zeros 12
def State.waveDump (s : State) (w : Wave) : List Byte :=
  let t := s.teamOf w
  let held := w.handles.filterMap (fun x => x)
  recordBytes (record 512 [(0, 4, w.haltId.toNat), (4, 8, s.laneLoc t w.slot 0 (w.lane 0).pc), (12, 4, t.ordinal), (16, 1, w.idx),
      (17, 1, held.length), (18, 2, (w.marker.getD 0).toNat)]) ++
    w.image ++ held.flatMap (fun k => let o := w.ops.getD k {}; bytesAt o.data 0 2048 ++ bytesAt o.scale 0 128)
/-- The whole dump of a context (R250). -/
def State.dumpBytes (s : State) (c : Nat) : List Byte :=
  let ts := s.teams.filter (fun t => t.ctx == c && t.st != .retired)
  let ws := s.wavesIn c
  let pend := ws.flatMap (s.waveEntries c)
  let body := ts.flatMap s.teamDump ++ ws.flatMap s.waveDump ++ pend.flatten
  recordBytes (record 512 [(0, 2, 1), (2, 2, c), (4, 4, ts.length), (8, 4, ws.length), (12, 4, pend.length), (16, 8, s.time),
    (24, 8, 64 + body.length)]) ++ body

/-- DUMP_WRITE: once the writes that left their cores have performed or faulted, the dump is written (R250). -/
def execDbgDumpWrite (s : State) : Out :=
  .next (match s.dbg.dump, s.cmd with
    | some (idx, c, pa), some x =>
      if s.accs.any (fun a => a.writeOf c && !a.refused && !s.dumpHeld a) then s
      else
        let s1 : State := { s with dbg := { s.dbg with dump := none } }
        let bs := s.dumpBytes c
        let out := fieldAt x.bits 16 8 % 2 ^ 60
        if fieldAt x.bits 24 8 < bs.length || !s.present out || !s.holds out bs.length || paKind out == 2 || !s.reachable out then s1.cmdDone idx pa 3
        else if !s.memRdy none true out then s
        else (s1.wrBytes out bs).cmdDone idx pa 0
    | _, _ => s)

/-! ## Energy (R254) -/

/-- Add to a 64-bit counter of a die's energy table. -/
def State.energyAdd (s : State) (d k v : Nat) : State :=
  let pa := (fieldAt s.dbg.blk 192 8 + 2064 * d + 8 * k) % 2 ^ 60
  if v ≠ 0 && s.devOk pa 8 then s.wr pa 8 (s.rd pa 8 + v) else s
def State.activityOf (s : State) (d c : Nat) : Nat := (Tab.find s.dbg.activity (256 * d + c)).getD 0
/-- ENERGY_INTERVAL of die n: 100 µs have passed; E and its dynamic part are what the die measures (R254). -/
def execEnergyInterval (s : State) : Out :=
  .next (
    let d := s.occ.n
    if s.dies ≤ d || s.cycle < s.dbg.energyAt.getD d 0 + usCycles 100 then s
    else
      let acts := (List.range 256).map (fun c => (c, s.activityOf d c))
      let s1 : State := { s with dbg := { s.dbg with
        activity := s.dbg.activity.filter (fun x => x.1 / 256 != d), energyAt := s.dbg.energyAt.set d s.cycle } }
      if fieldAt s.dbg.blk 192 8 = 0 then s1
      else
        let (e, s2) := s1.free
        let (x, s3) := s2.free
        let dyn := x.toNat % (e.toNat + 1)
        let total := sumBy (fun (y : Nat × Nat) => y.2) acts
        let share (y : Nat × Nat) : Nat := if total = 0 then 0 else dyn * y.2 / total
        let s4 := acts.foldl (fun (s : State) y => s.energyAdd d y.1 (share y)) s3
        (s4.energyAdd d 256 (e.toNat - sumBy share acts)).energyAdd d 257 e.toNat)

end Sys2Proof.Machine
end

