-- ==== Sys2Proof/Machine/Fp.lean ====
section
/-!
DEFINITION. Floating-point instructions: R299 to R304.
-/

namespace Sys2Proof.Machine

/-- An FP32 instruction on vA and vB (R299, R300, R301). -/
def fpOp (o : FOp) (d a b : BitVec 7) (e f : BitVec 1) (g : BitVec 2) (s : State) : Out :=
  .next (s.regIssue (fRRRx false d a b e f g) (fun _ x L l =>
    l.fpDone d (f32op o (x.h L).xmod l.fpctl (l.v a.toNat) (l.v b.toNat) 0)))
/-- A packed instruction on vA and vB (R303). -/
def pkOp (fm : Fmt) (o : FOp) (d a b : BitVec 7) (e f : BitVec 1) (g : BitVec 2) (s : State) : Out :=
  .next (s.regIssue (fRRRx false d a b e f g) (fun _ x L l =>
    l.fpDone d (packedOp fm o (x.h L).xmod l.fpctl (l.v a.toNat) (l.v b.toNat) 0)))
/-- A packed multiply-accumulate, with c from vD or XSRC (R303, R284). -/
def pkMac (fm : Fmt) (d a b : BitVec 7) (e f : BitVec 1) (g : BitVec 2) (s : State) : Out :=
  .next (s.regIssue (fRRRc true d a b e f g) (fun s x L l =>
    let (c, l) := cVal true s x L l d
    l.fpDone d (packedOp fm .mac (x.h L).xmod l.fpctl (l.v a.toNat) (l.v b.toNat) c)))
/-- A member of the FUN group without flags (R302). -/
def funOp (op : Word → Word → Word) (d a : BitVec 7) (e : BitVec 1) (g : BitVec 2) (s : State) : Out :=
  .next (s.regIssue (fRRFx false d a e g) (fun _ _ _ l => l.done d (op l.fpctl (l.v a.toNat))))

/-- FADD (R299). -/
def execFadd (d a b : BitVec 7) (e f : BitVec 1) (g : BitVec 2) (s : State) : Out := fpOp .add d a b e f g s
/-- FSUB (R299). -/
def execFsub (d a b : BitVec 7) (e f : BitVec 1) (g : BitVec 2) (s : State) : Out := fpOp .sub d a b e f g s
/-- FMUL (R299). -/
def execFmul (d a b : BitVec 7) (e f : BitVec 1) (g : BitVec 2) (s : State) : Out := fpOp .mul d a b e f g s
/-- FMAC: fused, with c from vD or XSRC (R299, R284). -/
def execFmac (d a b : BitVec 7) (e f : BitVec 1) (g : BitVec 2) (s : State) : Out :=
  .next (s.regIssue (fRRRc true d a b e f g) (fun s x L l =>
    let (c, l) := cVal true s x L l d
    l.fpDone d (f32op .mac (x.h L).xmod l.fpctl (l.v a.toNat) (l.v b.toNat) c)))
/-- FMIN (R300). -/
def execFmin (d a b : BitVec 7) (e f : BitVec 1) (g : BitVec 2) (s : State) : Out := fpOp .min d a b e f g s
/-- FMAX (R300). -/
def execFmax (d a b : BitVec 7) (e f : BitVec 1) (g : BitVec 2) (s : State) : Out := fpOp .max d a b e f g s
/-- FNEG: bit 31 inverted, NaN bits kept (R302). -/
def execFneg (d a : BitVec 7) (e : BitVec 1) (g : BitVec 2) (s : State) : Out := funOp (fun _ x => x ^^^ 0x80000000#32) d a e g s
/-- FABS: bit 31 cleared, NaN bits kept (R302). -/
def execFabs (d a : BitVec 7) (e : BitVec 1) (g : BitVec 2) (s : State) : Out := funOp (fun _ x => x &&& 0x7FFFFFFF#32) d a e g s
/-- FRNDN (R302). -/
def execFrndn (d a : BitVec 7) (e : BitVec 1) (g : BitVec 2) (s : State) : Out := funOp (fun c x => frnd .rne (ftzOf c) x) d a e g s
/-- FRNDZ (R302). -/
def execFrndz (d a : BitVec 7) (e : BitVec 1) (g : BitVec 2) (s : State) : Out := funOp (fun c x => frnd .rtz (ftzOf c) x) d a e g s
/-- FRNDD (R302). -/
def execFrndd (d a : BitVec 7) (e : BitVec 1) (g : BitVec 2) (s : State) : Out := funOp (fun c x => frnd .rdn (ftzOf c) x) d a e g s
/-- FRNDU (R302). -/
def execFrndu (d a : BitVec 7) (e : BitVec 1) (g : BitVec 2) (s : State) : Out := funOp (fun c x => frnd .rup (ftzOf c) x) d a e g s
/-- FCLASS (R302). -/
def execFclass (d a : BitVec 7) (e : BitVec 1) (g : BitVec 2) (s : State) : Out := funOp (fun _ x => fclass x) d a e g s
/-- FSAT (R302). -/
def execFsat (d a : BitVec 7) (e : BitVec 1) (g : BitVec 2) (s : State) : Out := funOp fsat d a e g s
/-- FFRAC (R302). -/
def execFfrac (d a : BitVec 7) (e : BitVec 1) (g : BitVec 2) (s : State) : Out :=
  .next (s.regIssue (fRRFx false d a e g) (fun _ x L l => l.fpDone d (ffrac (x.h L).xmod l.fpctl (l.v a.toNat))))
/-- FSCALE (R299). -/
def execFscale (d a b : BitVec 7) (e f : BitVec 1) (g : BitVec 2) (s : State) : Out :=
  .next (s.regIssue (fRRRx false d a b e f g) (fun _ x L l =>
    l.fpDone d (fscale (x.h L).xmod l.fpctl (l.v a.toNat) (l.v b.toNat))))
/-- HADD2.f16 (R303). -/
def execHadd2F16 (d a b : BitVec 7) (e f : BitVec 1) (g : BitVec 2) (s : State) : Out := pkOp fp16 .add d a b e f g s
/-- HMUL2.f16 (R303). -/
def execHmul2F16 (d a b : BitVec 7) (e f : BitVec 1) (g : BitVec 2) (s : State) : Out := pkOp fp16 .mul d a b e f g s
/-- HMIN2.f16 (R303). -/
def execHmin2F16 (d a b : BitVec 7) (e f : BitVec 1) (g : BitVec 2) (s : State) : Out := pkOp fp16 .min d a b e f g s
/-- HMAX2.f16 (R303). -/
def execHmax2F16 (d a b : BitVec 7) (e f : BitVec 1) (g : BitVec 2) (s : State) : Out := pkOp fp16 .max d a b e f g s
/-- HMAC2.f16 (R303). -/
def execHmac2F16 (d a b : BitVec 7) (e f : BitVec 1) (g : BitVec 2) (s : State) : Out := pkMac fp16 d a b e f g s
/-- HADD2.bf16 (R303). -/
def execHadd2Bf16 (d a b : BitVec 7) (e f : BitVec 1) (g : BitVec 2) (s : State) : Out := pkOp bf16 .add d a b e f g s
/-- HMUL2.bf16 (R303). -/
def execHmul2Bf16 (d a b : BitVec 7) (e f : BitVec 1) (g : BitVec 2) (s : State) : Out := pkOp bf16 .mul d a b e f g s
/-- HMIN2.bf16 (R303). -/
def execHmin2Bf16 (d a b : BitVec 7) (e f : BitVec 1) (g : BitVec 2) (s : State) : Out := pkOp bf16 .min d a b e f g s
/-- HMAX2.bf16 (R303). -/
def execHmax2Bf16 (d a b : BitVec 7) (e f : BitVec 1) (g : BitVec 2) (s : State) : Out := pkOp bf16 .max d a b e f g s
/-- HMAC2.bf16 (R303). -/
def execHmac2Bf16 (d a b : BitVec 7) (e f : BitVec 1) (g : BitVec 2) (s : State) : Out := pkMac bf16 d a b e f g s

/-! ## The SFU (R206, R304) -/

/-- Instructions of a quadrant's SFU that have not all entered the pipe by a cycle (R206). -/
def sfuQueued (c : CoreSt) (q cycle : Nat) : List (Nat × Word) := (c.sfu.getD q []).filter (fun x => decide (cycle < x.1))
/-- The quadrant's queue of 8 is full (R206). -/
def sfuBusy (s : State) (i : Iss) : Bool := decide (8 ≤ (sfuQueued (s.core i.core) (i.w.slot % 4) s.cycle).length)
/-- The cycle at which a new instruction's first group enters the pipe. -/
def sfuStart (c : CoreSt) (q cycle : Nat) : Nat := (sfuQueued c q cycle).foldl (fun m x => max m x.1) cycle
/-- Position of a lane in a list. -/
def posIn (L : Nat) : List Nat → Nat
  | [] => 0
  | x :: xs => if x = L then 0 else posIn L xs + 1

/-- An SFU instruction: exceptions are decided at issue; groups of 8 executing lanes enter one a cycle, and each lane's
result lands 24 cycles after its group enters (R206, R304). -/
def sfuOp (fn : Word → Word → Word × FpFlags) (d a : BitVec 7) (e : BitVec 1) (g : BitVec 2) (s : State) : Out :=
  .next (s.issue (fRRF d a e g) (waitIf sfuBusy) (fun i s =>
    let q := i.w.slot % 4
    let start := sfuStart (s.core i.core) q s.cycle
    let s1 := s.updCore i.core (fun c => { c with
      sfu := listUpd c.sfu q (fun _ => sfuQueued c q s.cycle ++ [(start + s.slow i.die (ceilDiv i.E.length 8), (i.l (i.E.getD 0 0)).pc)]) })
    prodBody true (fun _ i L l =>
      let r := fn l.fpctl (l.v a.toNat)
      let l1 := l.flags r.2
      if l.enabled r.2 != 0 then .trap l1 (l1.trapHere tkFPX (r.2.zeroExtend 32))
      else .land l1 d.toNat [r.1] (start + s.slow i.die (posIn L i.E / 8 + 24))) i s1))
/-- RCP (R304). -/
def execRcp (d a : BitVec 7) (e : BitVec 1) (g : BitVec 2) (s : State) : Out := sfuOp (sfu32 .rcp) d a e g s
/-- RSQ (R304). -/
def execRsq (d a : BitVec 7) (e : BitVec 1) (g : BitVec 2) (s : State) : Out := sfuOp (sfu32 .rsq) d a e g s
/-- SQRT (R304). -/
def execSqrt (d a : BitVec 7) (e : BitVec 1) (g : BitVec 2) (s : State) : Out := sfuOp (sfu32 .sqrt) d a e g s
/-- EXP2 (R304). -/
def execExp2 (d a : BitVec 7) (e : BitVec 1) (g : BitVec 2) (s : State) : Out := sfuOp (sfu32 .exp2) d a e g s
/-- LOG2 (R304). -/
def execLog2 (d a : BitVec 7) (e : BitVec 1) (g : BitVec 2) (s : State) : Out := sfuOp (sfu32 .log2) d a e g s
/-- SINT (R304). -/
def execSint (d a : BitVec 7) (e : BitVec 1) (g : BitVec 2) (s : State) : Out := sfuOp (sfu32 .sint) d a e g s
/-- COST (R304). -/
def execCost (d a : BitVec 7) (e : BitVec 1) (g : BitVec 2) (s : State) : Out := sfuOp (sfu32 .cost) d a e g s
/-- TANH (R304). -/
def execTanh (d a : BitVec 7) (e : BitVec 1) (g : BitVec 2) (s : State) : Out := sfuOp (sfu32 .tanh) d a e g s
/-- RCPH2 (R304). -/
def execRcph2 (d a : BitVec 7) (e : BitVec 1) (g : BitVec 2) (s : State) : Out := sfuOp (sfuH2 .rcp) d a e g s
/-- EXPH2 (R304). -/
def execExph2 (d a : BitVec 7) (e : BitVec 1) (g : BitVec 2) (s : State) : Out := sfuOp (sfuH2 .exp2) d a e g s

end Sys2Proof.Machine
end

