-- ==== Sys2Proof/Machine/Host.lean ====
section
/-!
DEFINITION. The host's side: BAR0 and BAR2 (R25 to R32, R57), contexts (R29 to R31), readiness and ports (R16 to R20), reset
(R1, R2, R19), clocks (R23, R24, R253), PCIe atomics (R18), and the answers to fault records (R57, R105).
-/

namespace Sys2Proof.Machine

/-! ## The objects beside the context table (R89, R134, R242) -/

/-- Memory at a domain physical address exists, whether or not it is ready. -/
def State.exists' (s : State) (pa n : Nat) : Bool := s.present pa && s.holds pa n && paKind pa != 2 && s.reachable pa
/-- The scheduler parameter block (R89). -/
def State.readSched (s : State) : State :=
  let pa := s.tabPa + 0x20000
  if !s.devOk pa 64 then s
  else
    let fl := s.rd pa 1
    { s with host := { s.host with
      drainUs := if fl.testBit 0 then min 1000 (s.rd (pa + 4) 4) else 50
      sliceUs := if fl.testBit 1 then max 100 (min 100000 (s.rd (pa + 8) 4)) else 2000 } }
/-- A die's entry of the tier frame table: no frames where it fails the layout (R134). -/
def State.readPool (s : State) (d : Nat) : Pool :=
  let e := s.tabPa + 0x20080 + 16 * d
  let pa := s.rd e 8
  let n := s.rd (e + 8) 4
  if s.rd (e + 12) 4 == 0 && decide (pa < 2 ^ 60) && pa % 65536 == 0 && s.isLocal pa && paKind pa == 0 && paDie pa == d &&
      decide (n ≤ 786432) && s.holds pa (65536 * n) && decide (d < s.dies) then { framepa := pa, frames := n }
  else {}
/-- The device reads the scheduler parameter block, the tier frame table and the debug control block (R89, R134, R242), as
soon as their memory is ready. -/
def State.readTab (s : State) : State :=
  if s.devOk (s.tabPa + 0x20000) 768 then
    let s1 := s.readSched
    let s2 : State := { s1 with host := { s1.host with pools := (List.range 4).map s1.readPool, tabDue := false } }
    match s2.dbgRead with
    | some b => s2.dbgApply b
    | none => s2
  else { s with host := { s.host with tabDue := s.exists' (s.tabPa + 0x20000) 768 } }
/-- CTXTAB takes a value (R25, R89). -/
def State.setTab (s : State) (x : Nat) : State :=
  ({ s with host := { s.host with ctxtab := BitVec.ofNat 64 x, tabSet := true }, shootHdr := none } : State).readTab

/-! ## Contexts (R29 to R31) -/

/-- The checks of R31 on a descriptor. -/
def descGood (d : BitVec 4096) : Bool :=
  let va (off : Nat) : Bool := vaField (fieldAt d off 9)
  fieldAt d 0 1 == 1 && !nonzero d 1 3 && va 8 && fieldAt d 8 9 % 65536 == 0 && va 17 && fieldAt d 17 9 % 16 == 0 && !nonzero d 30 2 &&
    va 32 && fieldAt d 32 9 % 8 == 0 && decide (fieldAt d 41 3 ≤ 65536) && decide (fieldAt d 44 4 ≤ 196608) && va 48 && va 57 && va 66 &&
    fieldAt d 66 9 % 128 == 0 && va 80 && decide (fieldAt d 89 2 ≤ 2048) && va 91 && !nonzero d 102 154 && !nonzero d 384 128
/-- The descriptor of a context in memory, where it can be read. -/
def State.descOf (s : State) (c : Nat) : Option (BitVec 4096) :=
  let pa := s.tabPa + 512 * c
  if s.devOk pa 512 then some (BitVec.ofNat 4096 (s.rd pa 512)) else none
/-- The checks of R31 pass. -/
def State.descOk (s : State) (c : Nat) : Bool := match s.descOf c with | some d => descGood d | none => false
/-- ENABLE goes from 0 to 1 (R31, R89, R194, R248); ESUs read the context's region descriptors anew (R163). -/
def State.enableCtx (s : State) (c : Nat) : State :=
  if !(decide (c < 256)) || (s.ctx c).enable then s
  else
    match (s.descOf c).filter descGood with
    | none => s.updCtx c (fun x => { x with descbad := true })
    | some d =>
      let s1 := s.updCtx c (fun x => { x with
        enable := true, suspended := false, descbad := false, desc := d, haltNext := if s.holdsHalted c then x.haltNext else 1 })
      let s2 : State := { s1 with esuDescs := s1.esuDescs.filter (fun x => x.ctx != c), stks := s1.stks.map (fun k =>
        if k.ctx == c && k.asleep && !displaced k.handle then { k with asleep := false, hdrDue := true } else k) }
      s2.readSched.readHeaders
/-- ENABLE = 1 is written again: the checks alone (R31). -/
def State.recheckCtx (s : State) (c : Nat) : State :=
  if (s.ctx c).enable then s.updCtx c (fun x => { x with descbad := !s.descOk c }) else s

/-- A context disabled while its descriptor is bad: its dispatched packets complete with ABORTED, and its teams and
whatever runs for them go (R52). -/
def State.abortCtx (s : State) (c : Nat) : State :=
  let units (o : OutPkt) : Nat := if Pkt.kind o.pkt = 3 then o.copied else match s.grid? o.gid with | some g => g.units | none => 0
  let gone (gid : Nat) : Bool := match s.grid? gid with | some g => g.ctx == c | none => false
  let s1 := (s.teams.filter (fun t => t.ctx == c)).foldl (fun (s : State) t => s.dropWaves t.tid) s
  { (if s1.outs.any (fun o => o.ctx == c && o.st == .running && (Pkt.kind o.pkt == 1 || Pkt.kind o.pkt == 2)) then
      s1.updCtx c (fun x => { x with faulted := true }) else s1) with
    outs := s1.outs.map (fun o => if o.ctx == c && o.st == .running then { o with st := .done 5 (units o), fault := none, buf := [] } else o)
    grids := s1.grids.filter (fun g => g.ctx != c), teams := s1.teams.filter (fun t => t.ctx != c)
    caddy := s1.caddy.filter (fun r => !gone r.gid), forms := s1.forms.filter (fun f => !gone f.gid)
    invs := s1.invs.filter (fun i => !gone i.gid), stks := s1.stks.filter (fun k => k.ctx != c)
    stackReqs := s1.stackReqs.filter (fun r => r.ctx != c)
    queues := s1.queues.map (fun q => if q.2.ctx.toNat == c then (q.1, { q.2 with batch := none }) else q)
    faults := s1.faults.filter (fun f => f.ctx != c || (match f.who with | .append _ => true | _ => false)) }
/-- A team starts to be saved because its context has been disabled (R31); what it drained for is let go. -/
def State.saveFor (s : State) (t : Team) : State :=
  let s1 := if t.st = .draining then s.updGrid t.gid (fun g => { g with
      drainCores := g.drainCores.filter (fun x => !(x.1 == coreIx t.die t.core && t.drainFor == some x.2)) }) else s
  s1.updTeam t.tid (fun t => { t with st := .saving, drainFor := none })
/-- ENABLE goes from 1 to 0 (R31, R113, R52). -/
def State.disableCtx (s : State) (c : Nat) : State :=
  if !(s.ctx c).enable then s
  else
    let s1 := s.updCtx c (fun x => { x with enable := false })
    let s2 : State := { s1 with locks := s1.locks.filter (fun k => k.ctx != c) }
    let s3 := (s2.queues.filter (fun q => q.2.enable && q.2.ctx.toNat == c)).foldl (fun (s : State) q =>
      (s.undeal q.1).updQueue q.1 (fun x => { x with held := none })) s2
    let s4 := if (s.ctx c).descbad then s3.abortCtx c
      else (s3.teams.filter (fun t => t.ctx == c && t.active)).foldl (fun (s : State) t => s.saveFor t) s3
    s4.noteSuspended c
/-- A write of CTXCTL (R30, R31). -/
def State.ctxctl (s : State) (c x : Nat) : State :=
  if x.testBit 0 then (if (s.ctx c).enable then s.recheckCtx c else s.enableCtx c) else s.disableCtx c
/-- A write of CTXSTAT: ones clear FAULTED and ASSERTED (R30). -/
def State.ctxstat (s : State) (c x : Nat) : State :=
  s.updCtx c (fun y => { y with faulted := y.faulted && !x.testBit 1, asserted := y.asserted && !x.testBit 2 })

/-! ## Answers to fault records (R57, R105, R20) -/

def State.dropFault (s : State) (f : FaultRec) : State := { s with faults := s.faults.filter (fun x => !(x.ctx == f.ctx && x.seq == f.seq)) }
/-- Lanes parked on a record go back to their instruction, which repeats the access (R105); where their wave waits for its
handler they are held with the others. -/
def State.replayLanes (s : State) (uid : Nat) (mask seq : Word) : State :=
  s.updWave uid (fun w =>
    let closed := match w.window with | some x => x.closed | none => false
    (maskLanes mask).foldl (fun w L => w.updLane L (fun l =>
      if l.st == .faulted seq then { l with st := if closed && !l.inHandler then .held else .run } else l)) w)
/-- RETRY (R57, R53, R107, R171, R192). -/
def State.retryFault (s : State) (f : FaultRec) : State :=
  let s1 := s.dropFault f
  match f.who with
  | .lanes uid mask => s1.replayLanes uid mask f.seq
  | .packet id => s1.updOut id (fun o => { o with fault := none })
  | .bitmap gid =>
    s1.updGrid gid (fun g => { g with bitmapWait := g.bitmapWait.map (fun x => if x.seq == f.seq then { x with seq := 0 } else x) })
  | .node id => s1.retryStack id true
  | .writeback id => s1.retryStack id false
  | .take id => { s1 with stackReqs := s1.stackReqs.map (fun r => if r.id == id then { r with fault := none } else r) }
  | .append id => { s1 with appends := s1.appends.map (fun a => if a.id == id then { a with fault := none, full := true, reread := true } else a) }
/-- The PAGEFAULT trap of a lane (R105, R212). DESIGN CHOICE: every lane of a record gets the record's VA, which is that of its first lane (log
137). -/
def pageFault (l : Lane) (f : FaultRec) : Trap := ({ l.trapHere tkPAGEFAULT f.seq with issued := some f.born } : Trap).withVa f.va.toNat
/-- PAGEFAULT for every lane of a record: each access is given up (R57, R105, R335). -/
def State.failLanes (s : State) (uid : Nat) (f : FaultRec) : State :=
  match s.wave? uid with
  | none => s
  | some w =>
    let ls := (List.range w.lanes.length).filter (fun L => (w.lane L).st == .faulted f.seq)
    (s.updWave uid (fun w => ls.foldl (fun w L => w.updLane L (fun l => { l with replay := none, claim := none })) w)).takeTraps uid
      (ls.map (fun L => (L, pageFault (w.lane L) f)))
/-- UNRESOLVABLE (R57, R53, R107, R171, R192, R43). -/
def State.failFault (s : State) (f : FaultRec) : State :=
  let s1 := s.dropFault f
  match f.who with
  | .lanes uid _ => s1.failLanes uid f
  | .packet id => s1.updOut id (fun o => { o with fault := none, st := .done 1 o.copied, buf := [] })
  | .bitmap gid => s1.updGrid gid (fun g => { g with bitmapWait := g.bitmapWait.filter (fun x => x.seq != f.seq), bitmapFail := true })
  | .node id => s1.failStack id
  | .writeback id => s1.failStack id
  | .take id => (match s1.stackReqs.find? (fun r => r.id == id) with | some r => s1.refuseStack r 7 1 | none => s1)
  | .append id => (match s1.appends.find? (fun a => a.id == id) with | some a => s1.appendDone a | none => s1)
/-- The outstanding record that a FAULTACK names; records of cause NOTREADY replay by themselves. -/
def State.ackRec (s : State) (c seq : Nat) : Option FaultRec := s.faults.find? (fun f => f.ctx == c && f.seq.toNat == seq && f.cause != 3)
def State.faultack (s : State) (c seq action : Nat) : State :=
  match s.ackRec c seq with
  | some f => if action = 0 then s.retryFault f else if action = 1 then s.failFault f else s
  | none => s
/-- A 64-bit write of FAULTACK (R57). -/
def State.faultackWrite (s : State) (x : Nat) : State :=
  if x / 2 ^ 42 != 0 then s else s.faultack (x / 2 ^ 32 % 256) (x % 2 ^ 32) (x / 2 ^ 40 % 4)

/-- The memory a NOTREADY record waits for has become ready (R20). -/
def State.recReady (s : State) (f : FaultRec) : Bool :=
  match (s.walkFrom f.ctx f.va.toNat none).1 with
  | .bad c => c != 3
  | .leaf lvl e epa => s.memRdy (some f.die) (e.type == 0 || e.type == 1) ((tlbOf f.die f.ctx f.va.toNat lvl e epa).phys f.va.toNat)
/-- The device replays the accesses whose memory is ready (R20). -/
def State.replayReady (s : State) : State :=
  (s.faults.filter (fun f => f.cause == 3)).foldl (fun (s : State) f => if s.recReady f then s.retryFault f else s) s

/-! ## BAR0 (R25, R26) -/

def PortState.code : PortState → Nat
  | .down => 0
  | .training => 1
  | .up => 2
  | .degraded => 3
  | .fault => 4
/-- PORTSTAT (R16). -/
def Port.stat (p : Port) : Nat :=
  p.retrain.toNat * 2 ^ 24 + p.peerport.toNat * 2 ^ 18 + p.peerdev.toNat * 2 ^ 8 + p.lanes.toNat * 16 + p.state.code
/-- CTXSTAT (R30). -/
def Ctx.stat (c : Ctx) : Nat := b2n c.descbad + 2 * b2n c.faulted + 4 * b2n c.asserted + 8 * b2n c.suspended
/-- QCTL as read (R32). -/
def Queue.ctl (q : Queue) : Nat := q.ctx.toNat * 256 + 4 * b2n q.enable
/-- The 64-bit register at an offset, as read; FAULTACK is written only. -/
def State.reg64 (s : State) (o : Nat) : Option Nat :=
  if o = 0 then some s.ident.toNat
  else if o = 0x40 then some s.host.ctxtab.toNat
  else if o = 0x48 then some s.host.mcring.toNat
  else if o = 0x1000 then some s.pkg.ready0.toNat
  else if o = 0x1008 then some s.pkg.ready1.toNat
  else if o = 0x1300 then some s.host.bar2win.toNat
  else if 0x1100 ≤ o && o < 0x1220 && o % 16 == 8 then some (s.pkg.ports.getD ((o - 0x1100) / 16) {}).tc0over.toNat
  else if 0x20000 ≤ o && o < 0x30000 then
    (if o % 16 = 0 then some (s.queue ((o - 0x20000) / 16)).qaddr.toNat else if o % 16 = 8 then some (s.queue ((o - 0x20000) / 16)).ctl else none)
  else none
/-- The 32-bit register at an offset, as read; CNTREINIT is written only. -/
def State.reg32 (s : State) (o : Nat) : Option Nat :=
  if 0x1100 ≤ o && o < 0x1220 && o % 16 == 0 then some (s.pkg.ports.getD ((o - 0x1100) / 16) {}).stat
  else if o = 0x1280 then some s.host.powercap.toNat
  else if o = 0x1308 then some s.host.bar2stat.toNat
  else if 0x10000 ≤ o && o < 0x11000 then
    (if o % 16 = 0 then some (b2n (s.ctx ((o - 0x10000) / 16)).enable) else if o % 16 = 4 then some (s.ctx ((o - 0x10000) / 16)).stat else none)
  else none
/-- Before BARWIN only IDENT, READY0 and READY1 answer, the latter once PCIE is ready (R19, R26). -/
def State.answers (s : State) (o : Nat) : Bool :=
  if o / 8 * 8 = 0 then true else if o / 8 * 8 = 0x1000 || o / 8 * 8 = 0x1008 then s.rdy 0 else s.barwin
/-- A 32-bit read at an aligned offset. -/
def State.readWord (s : State) (o : Nat) : Nat :=
  if !s.answers o then 0
  else
    match s.reg32 o with
    | some x => x
    | none => ((s.reg64 (o / 8 * 8)).getD 0) / 2 ^ (8 * (o % 8)) % 2 ^ 32
/-- A read of n bytes of BAR0 (R25). -/
def State.barRead (s : State) (o n : Nat) : Nat :=
  if o % n != 0 then 0
  else if n = 4 then s.readWord o
  else if n = 8 then s.readWord o + 2 ^ 32 * s.readWord (o + 4)
  else 0

/-- Write QCTL (R32, R37). -/
def State.qctl (s : State) (q x : Nat) : State :=
  let on := x.testBit 2
  let s1 :=
    if (s.queue q).enable then (if on then s else s.disableQueue q)
    else if on then s.enableQueue q (x / 256 % 256)
    else s.updQueue q (fun y => { y with ctx := BitVec.ofNat 8 (x / 256) })
  if !x.testBit 3 then s1 else if x.testBit 4 then s1.skipQueue q else s1.restartQueue q
/-- Write QADDR: dropped while the queue is enabled (R32). -/
def State.setQaddr (s : State) (q x : Nat) : State :=
  if (s.queue q).enable then s else s.updQueue q (fun y => { y with qaddr := BitVec.ofNat 64 x, rix := 0 })
/-- Write a 64-bit register. -/
def State.write64 (s : State) (o x : Nat) : State :=
  if o = 0x40 then s.setTab x
  else if o = 0x48 then { s with host := { s.host with mcring := BitVec.ofNat 64 x } }
  else if o = 0x1300 then { s with host := { s.host with bar2win := BitVec.ofNat 60 x } }
  else if o = 0x1400 then s.faultackWrite x
  else if 0x20000 ≤ o && o < 0x30000 then
    (if o % 16 = 0 then s.setQaddr ((o - 0x20000) / 16) x else if o % 16 = 8 then s.qctl ((o - 0x20000) / 16) x else s)
  else s
def State.setCap (s : State) (x : Nat) : State := { s with host := { s.host with powercap := BitVec.ofNat 12 x } }
/-- WATTS in effect (R22). -/
def State.capWatts (s : State) : Nat := max 400 (min s.pkg.straps.limitW s.host.powercap.toNat)
def State.clearBar2stat (s : State) (x : Nat) : State := { s with host := { s.host with bar2stat := s.host.bar2stat &&& ~~~(BitVec.ofNat 3 x) } }
/-- Write a 32-bit register, if there is one at the offset. -/
def State.write32 (s : State) (o x : Nat) : Option State :=
  if o = 0x1280 then some (s.setCap x)
  else if o = 0x1308 then some (s.clearBar2stat x)
  else if 0x10000 ≤ o && o < 0x11000 then
    (let c := (o - 0x10000) / 16
     if o % 16 = 0 then some (s.ctxctl c x) else if o % 16 = 4 then some (s.ctxstat c x) else if o % 16 = 8 then some (s.reinit c x) else some s)
  else none
/-- A 32-bit write: to its register, or to half of a 64-bit register, but never of FAULTACK. -/
def State.writeWord (s : State) (o x : Nat) : State :=
  match s.write32 o x with
  | some s1 => s1
  | none =>
    let b := o / 8 * 8
    if b = 0x1400 then s
    else
      match s.reg64 b with
      | some v => s.write64 b (if o % 8 = 0 then v / 2 ^ 32 * 2 ^ 32 + x else v % 2 ^ 32 + x * 2 ^ 32)
      | none => s
/-- A write of n bytes of BAR0 (R25, R26). -/
def State.barWrite (s : State) (o n x : Nat) : State :=
  if !s.barwin || o % n != 0 then s
  else if n = 4 then s.writeWord o (x % 2 ^ 32)
  else if n = 8 then
    (if (s.reg64 o).isSome || o = 0x1400 then s.write64 o (x % 2 ^ 64) else (s.writeWord o (x % 2 ^ 32)).writeWord (o + 4) (x / 2 ^ 32 % 2 ^ 32))
  else s

/-- REGISTER_WRITE: the host writes x, m bytes, at BAR0 offset n; a register with a behaviour of its own has it (R25). -/
def execRegisterWrite (s : State) : Out := .next (s.barWrite s.occ.n s.occ.m s.occ.x)
/-- POWERCAP_WRITE of x (R22). -/
def execPowercapWrite (s : State) : Out := .next (if s.barwin then s.setCap s.occ.x else s)
/-- CTXTAB_WRITE of x (R25, R89). -/
def execCtxtabWrite (s : State) : Out := .next (if s.barwin then s.setTab s.occ.x else s)
/-- BAR2STAT_WRITE of x (R27). -/
def execBar2statWrite (s : State) : Out := .next (if s.barwin then s.clearBar2stat s.occ.x else s)
/-- CONTEXT_ENABLE of context n (R31). -/
def execContextEnable (s : State) : Out := .next (if s.barwin then s.enableCtx s.occ.n else s)
/-- CONTEXT_RECHECK of context n (R31). -/
def execContextRecheck (s : State) : Out := .next (if s.barwin then s.recheckCtx s.occ.n else s)
/-- CONTEXT_DISABLE of context n (R31). -/
def execContextDisable (s : State) : Out := .next (if s.barwin then s.disableCtx s.occ.n else s)
/-- CTXSTAT_WRITE of context n, value x (R30). -/
def execCtxstatWrite (s : State) : Out := .next (if s.barwin && decide (s.occ.n < 256) then s.ctxstat s.occ.n s.occ.x else s)
/-- FAULTACK_RETRY of record m of context n (R57). -/
def execFaultackRetry (s : State) : Out := .next (if s.barwin then s.faultack s.occ.n s.occ.m 0 else s)
/-- FAULTACK_UNRESOLVABLE of record m of context n (R57). -/
def execFaultackUnresolvable (s : State) : Out := .next (if s.barwin then s.faultack s.occ.n s.occ.m 1 else s)

/-! ## BAR2 (R27, R28) and PCIe atomics (R18) -/

/-- The domain physical address that an offset of the window names. -/
def State.winPa (s : State) (a : Nat) : Nat := s.host.bar2win.toNat / 2 ^ s.host.bar2log * 2 ^ s.host.bar2log + a
/-- The BAR2STAT bit that an access of n bytes sets, if it fails (R27). An MMIO or host-window kind on an absent device sets only
KIND: R27 does not say which wins, and the choice is the model's (log 102). -/
def State.winBad (s : State) (a n : Nat) : Option Nat :=
  let pa := s.winPa a
  if 2 ≤ paKind pa then some 2
  else if !s.present pa || !s.holds pa n || !s.reachable pa then some 1
  else if !s.memRdy none true pa then some 0
  else none
def State.setBar2stat (s : State) (k : Nat) : State := { s with host := { s.host with bar2stat := s.host.bar2stat ||| BitVec.ofNat 3 (2 ^ k) } }
/-- What the host reads. -/
def State.answer (s : State) (x : Nat) (ok : Bool) : State := { s with host := { s.host with reply := x, replyOk := ok } }
/-- The access lies within BAR2, and BAR2 accepts accesses: at most a PCIe payload of 4,096 bytes. -/
def State.inWin (s : State) (a n : Nat) : Bool := s.barwin && decide (a + n ≤ 2 ^ s.host.bar2log) && decide (n ≤ 4096)
/-- The host has written n bytes at pa: no lane's packet stands there any more (R42). -/
def State.hostWrote (s : State) (pa n : Nat) : State :=
  { s with pushers := s.pushers.filter (fun x => !(decide (pa ≤ x.1) && decide (x.1 < pa + n))) }
/-- The host writes bytes: the write is the host's (R28, R155). -/
def State.hostPut (s : State) (pa : Nat) (bs : List Byte) : State := ((s.wrBytes pa bs).byEngine 4 s.writes).hostWrote pa bs.length
/-- Memory with every byte of device old at the same place of device new; what was listed of new is gone. -/
def rebase (m : List Host.Cell) (old new : Nat) : List Host.Cell :=
  (m.filter (fun c => paDev c.1 == old)).foldl (fun m c => memPut m (new * 2 ^ 50 + c.1 % 2 ^ 50) [c.2])
    (m.filter (fun c => paDev c.1 != old && paDev c.1 != new))
/-- The domain forms before any context is enabled: this device has its ID, under which its memory stands from then on
(R9; log 3). A part without Svetcy Link forms a domain of one, with DEVICE 0 (R4, R9). -/
def State.formDomain (s : State) (id : BitVec 10) (members : List Nat) (switches : Tab (List Nat)) : State :=
  if !(decide (id.toNat < 640) && members.contains id.toNat && members.all (fun m => decide (m < 640))) ||
      (!s.pkg.straps.link && !(id.toNat = 0 && members.all (fun m => m == 0))) || s.ctxs.any (fun c => c.2.enable) ||
      s.accs != [] then s
  else
    { s with
      pkg := { s.pkg with deviceId := id, members, switches }
      mem := if id = s.pkg.deviceId then s.mem else rebase s.mem s.pkg.deviceId.toNat id.toNat
      tlb := [], walks := [], copies := [], l2 := [], wrote := [] }
/-- What the outside world does: the domain forms, the host sizes BAR2 from 256 MiB to 1 TiB, or it writes its own memory, which
is the host window of this device (R9, R27, R97, R144). -/
def State.outside (s : State) (x : Outside) : State :=
  match x with
  | .domain id members switches => s.formDomain id members switches
  | .window log => if 28 ≤ log ∧ log ≤ 40 then { s with host := { s.host with bar2log := log } } else s
  | .hostMem pa bs => if s.isLocal pa && paKind pa == 3 && decide (pa < 2 ^ 60) then s.hostPut pa bs else s
/-- BAR2_READ of m bytes at offset n (R27, R28). -/
def execBar2Read (s : State) : Out :=
  .next (
    let a := s.occ.n
    let n := s.occ.m
    if !s.inWin a n then s
    else
      match s.winBad a n with
      | some k => (s.setBar2stat k).answer (2 ^ (8 * n) - 1) true
      | none => s.answer (s.rd (s.winPa a) n) true)
/-- BAR2_WRITE of x, m bytes, at offset n (R27, R28). -/
def execBar2Write (s : State) : Out :=
  .next (
    let a := s.occ.n
    let n := s.occ.m
    if !s.inWin a n then s
    else
      match s.winBad a n with
      | some k => s.setBar2stat k
      | none => s.hostPut (s.winPa a) (leBytes n s.occ.x))
/-- HOST_ATOMIC on m bytes at offset k of BAR2: n = 0 FetchAdd of x, 1 Swap, 2 CAS of x to y. FetchAdd and CAS of 4 and 8
bytes complete; the others are answered with Unsupported Request (R18). -/
def execHostAtomic (s : State) : Out :=
  .next (
    let n := s.occ.m
    let a := s.occ.k
    if !s.inWin a n then s
    else if !((n == 4 || n == 8) && (s.occ.n == 0 || s.occ.n == 2)) || a % n != 0 then s.answer 0 false
    else
      match s.winBad a n with
      | some k => (s.setBar2stat k).answer (2 ^ (8 * n) - 1) true
      | none =>
        let old := s.rd (s.winPa a) n
        let m := 2 ^ (8 * n)
        let new := if s.occ.n = 0 then (old + s.occ.x) % m else if old = s.occ.x % m then s.occ.y % m else old
        ((s.hostPut (s.winPa a) (leBytes n new)).carry (s.winPa a) n s.writes).answer old true)

/-! ## Reset and readiness (R1, R2, R19 to R21) -/

/-- RESET: registers at their reset values, straps sampled; the host's own memory stays (R19, R2). -/
def execReset (s : State) : Out :=
  .next { State.resetWith s.pkg.pins (s.mem.filter (fun c => paKind c.1 == 3)) with occ := s.occ, agenda := s.agenda, freeCtr := s.freeCtr }

/-- The function of a READY0 bit (n = 0) or a READY1 bit is on the part and may report ready; ports report by PORT_UP
(R19). -/
def State.mayReport (s : State) (n m : Nat) : Bool :=
  if n = 0 then decide (m < 12 * s.dies)
  else
    m == 0 || m == 1 || (decide (2 ≤ m) && decide (m < 2 + s.dies)) || (decide (6 ≤ m) && decide (m < 14) && s.groups.getLsbD (m - 6)) ||
      (decide (14 ≤ m) && decide (m < 14 + s.dies) && s.nearRdy (m - 14)) || (decide (18 ≤ m) && decide (m < 18 + s.dies))
def State.setReady (s : State) (n m : Nat) : State :=
  let bit : BitVec 64 := 1#64 <<< m
  if n = 0 then { s with pkg := { s.pkg with ready0 := s.pkg.ready0 ||| bit } } else { s with pkg := { s.pkg with ready1 := s.pkg.ready1 ||| bit } }
/-- FUNCTION_READY of bit m of READY0 (n = 0) or READY1 (n = 1): what waited for it goes on (R19, R20, R21). -/
def execFunctionReady (s : State) : Out :=
  .next (if !(s.occ.n ≤ 1) || !s.mayReport s.occ.n s.occ.m then s
    else
      let s1 := s.setReady s.occ.n s.occ.m
      let s2 := if s1.host.tabDue then s1.readTab else s1
      s2.replayReady.readHeaders)

/-! ## Link ports (R13, R16, R17) -/

def State.updPort (s : State) (p : Nat) (f : Port → Port) : State := { s with pkg := { s.pkg with ports := listUpd s.pkg.ports p f } }
def State.port (s : State) (p : Nat) : Port := s.pkg.ports.getD p {}
def State.portBit (s : State) (p : Nat) (b : Bool) : State :=
  let bit : BitVec 64 := 1#64 <<< (22 + p)
  { s with pkg := { s.pkg with ready1 := if b then s.pkg.ready1 ||| bit else s.pkg.ready1 &&& ~~~bit } }
/-- An access that has lost its path, of a lane of a wave: its instruction, VA and cycle. -/
structure Lost where
  uid : Nat
  lane : Nat
  pc : Word
  va : BitVec 72
  born : Nat
deriving DecidableEq, Repr
/-- The trap of a lane whose access has lost its path (R17). -/
def lostTrap (l : Lane) (x : Lost) : Trap := ({ l.trapHere tkACCESS 1 with pc := x.pc, issued := some x.born } : Trap).withVa x.va.toNat
/-- The access has no path left to its home (R17). -/
def State.accLost (s : State) (a : Acc) : Bool := a.sp.isNone && !s.reachable a.addr
/-- The value has no path left from its home (R17). -/
def State.landLost (s : State) (x : Land) : Bool := match x.src with | some (pa, _, _) => !s.reachable pa | none => false
/-- The accesses that have lost their path: those still to perform, and those whose value is still on its way (R17). -/
def State.lostOnes (s : State) : List Lost :=
  (s.accs.filter (fun a => s.accLost a && !a.mute)).map (fun a => { uid := a.uid, lane := a.lane, pc := a.pc, va := a.va, born := a.born }) ++
    s.lands.filterMap (fun x => match x.src with
      | some (_, va, born) => if s.landLost x then some { uid := x.uid, lane := x.lane, pc := x.pc, va, born } else none
      | none => none)
/-- Accesses with no path left complete no more, and their lanes park with ACCESS: at once, or where a lane stands parked or halted, when it
next issues (R17; log 101). -/
def State.loseLinks (s : State) : State :=
  let s1 : State := { s with accs := s.accs.filter (fun a => !s.accLost a), lands := s.lands.filter (fun x => !s.landLost x) }
  s.waves.foldl (fun (s0 : State) w =>
    let hits := (List.range w.lanes.length).filterMap (fun L =>
      (s.lostOnes.find? (fun x => x.uid == w.uid && x.lane == L)).map (fun x => (L, x)))
    let now := hits.filter (fun x => (w.lane x.1).haltable)
    let later := hits.filter (fun x => !(w.lane x.1).haltable && (w.lane x.1).live)
    (s0.updWave w.uid (fun w => later.foldl (fun w x => w.updLane x.1 (fun l => { l with lost := some (x.2.pc, x.2.va, x.2.born) })) w)).takeTraps
      w.uid (now.map (fun x => (x.1, lostTrap (w.lane x.1) x.2)))) s1
/-- PORT_DOWN of port n, to state m (0 DOWN, 1 TRAINING, 4 FAULT): its readiness bit clears (R16, R17, R19). -/
def execPortDown (s : State) : Out :=
  .next (
    let p := s.occ.n
    if s.linkPorts ≤ p || !(s.port p).isUp then s
    else
      let state : PortState := if s.occ.m = 1 then .training else if s.occ.m = 4 then .fault else .down
      let s1 := (s.updPort p (fun x => { x with state, lanes := 0, peerport := 0, peerdev := 0x3FF })).portBit p false
      let cut := s1.accs.any s1.accLost || s1.lands.any s1.landLost
      if cut then (s1.machineCheck 0 0xFFFF 0 1 p).loseLinks else s1)
/-- The lanes of a port after training. -/
def Port.trained (p : Port) (lanes : Nat) : Port :=
  { p with lanes := BitVec.ofNat 4 lanes, state := if BitVec.ofNat 4 lanes = 0xF then .up else .degraded }
/-- PORT_UP of port n, with lanes m, PEERDEV k and PEERPORT j: its readiness bit sets (R16, R17, R19). -/
def execPortUp (s : State) : Out :=
  .next (
    let p := s.occ.n
    if s.linkPorts ≤ p || (s.port p).isUp || s.occ.m % 16 = 0 then s
    else
      (s.updPort p (fun x => { (x.trained s.occ.m) with peerdev := BitVec.ofNat 10 s.occ.k, peerport := BitVec.ofNat 5 s.occ.j, switch := s.occ.x })).portBit p true)
/-- PORT_RETRAIN of port n, with lanes m: RETRAIN counts up to 255 (R16). -/
def execPortRetrain (s : State) : Out :=
  .next (
    let p := s.occ.n
    if s.linkPorts ≤ p || !(s.port p).isUp || s.occ.m % 16 = 0 then s
    else s.updPort p (fun x => { (x.trained s.occ.m) with retrain := if x.retrain = 0xFF then x.retrain else x.retrain + 1 }))
/-- TC0_DEMOTION at port n, of m flits: TC0OVER counts them and saturates (R13, R16). -/
def execTc0Demotion (s : State) : Out :=
  .next (if s.linkPorts ≤ s.occ.n then s
    else s.updPort s.occ.n (fun x => { x with tc0over := BitVec.ofNat 64 (min (x.tc0over.toNat + s.occ.m) (2 ^ 64 - 1)) }))

/-! ## Clocks (R23, R24, R253) -/

/-- Cycles of the main clock that are left, once the clock of their die goes from this many MHz to that (R24). -/
def retimed (old new n : Nat) : Nat := ceilDiv (n * old) new
/-- What is on its way in a die takes proportionally more or less time from here on, as its clock changes from this many MHz (R24); R12's bound
stands. -/
def State.retime (s : State) (d old : Nat) : State :=
  let new := s.mhz d
  let at' (c : Nat) : Nat := if c ≤ s.cycle then c else s.cycle + retimed old new (c - s.cycle)
  let here (uid : Nat) : Bool := match s.wave? uid with | some w => (s.teamOf w).die == d | none => false
  if old = new then s
  else
    { s with
      lands := s.lands.map (fun x => if here x.uid then { x with due := if x.bound = 0 then at' x.due else min (at' x.due) (max x.due x.bound) } else x)
      accs := s.accs.map (fun a => if a.die == d then { a with start := s.cycle - retimed old new (s.cycle - a.start) } else a)
      teams := s.teams.map (fun t => if t.die == d then { t with locks := t.locks.map (fun k => { k with till := at' k.till }) } else t)
      cores := s.cores.map (fun (k, c) =>
        if k / 48 == d then (k, { c with mmaFree := at' c.mmaFree, qfree := c.qfree.map at', sfu := c.sfu.map (fun q => q.map (fun y => (at' y.1, y.2))) })
        else (k, c)) }
/-- DVFS_CHANGE of die n to m MHz, k mV and issue limit j, with cause x and temperature y: a record for each domain that
changes (R23, R253). -/
def execDvfsChange (s : State) : Out :=
  .next (
    let d := s.occ.n
    let c := s.pkg.clks.getD d {}
    let now : List (Nat × Nat × Nat) := ([(0, c.mhz.toNat, s.occ.m), (1, c.mv.toNat, s.occ.k), (2, c.limit.toNat, s.occ.j)] : List (Nat × Nat × Nat)).filter
      (fun x => x.2.1 != x.2.2 % 2 ^ 32)
    if s.dies ≤ d || 3 < s.occ.x || now = [] then s
    else
      let c1 : DieClk := { c with mhz := BitVec.ofNat 32 s.occ.m, mv := BitVec.ofNat 32 s.occ.k, limit := BitVec.ofNat 32 s.occ.j, temp := BitVec.ofNat 16 s.occ.y, seq := c.seq + 1 }
      let s1 := ({ s with pkg := { s.pkg with clks := s.pkg.clks.set d c1 } } : State).retime d (s.mhz d)
      now.foldl (fun (s : State) (x : Nat × Nat × Nat) => s.streamPut d 1 (record 256
        [(0, 8, s.time), (8, 1, d), (9, 1, x.1), (10, 1, s.occ.x), (12, 4, x.2.1), (16, 4, x.2.2), (20, 2, s.occ.y), (24, 8, c.seq + 1)])) s1)

end Sys2Proof.Machine
end

