-- ==== Sys2Proof/Machine/Int.lean ====
section
/-!
DEFINITION. Integer instructions: R294 to R298.
-/

namespace Sys2Proof.Machine

/-- A three-register instruction on words (R294). -/
def rrrOp (op : Word → Word → Word) (d a b : BitVec 7) (e f : BitVec 1) (g : BitVec 2) (s : State) : Out :=
  .next (s.regIssue (fRRR d a b e f g) (fun _ _ _ l => l.done d (op (l.v a.toNat) (l.v b.toNat))))
/-- A three-register instruction whose vD is a source too (R297). -/
def rrrdOp (op : Word → Word → Word → Word) (d a b : BitVec 7) (e f : BitVec 1) (g : BitVec 2) (s : State) : Out :=
  .next (s.regIssue (fRRRd d a b e f g) (fun _ _ _ l => l.done d (op (l.v d.toNat) (l.v a.toNat) (l.v b.toNat))))
/-- A two-register instruction on words (R296). -/
def rrfOp (op : Word → Word) (d a : BitVec 7) (e : BitVec 1) (g : BitVec 2) (s : State) : Out :=
  .next (s.regIssue (fRRF d a e g) (fun _ _ _ l => l.done d (op (l.v a.toNat))))
/-- An immediate instruction (R295). -/
def riOp (op : Word → Word → Word) (d a : BitVec 7) (e : BitVec 1) (i : BitVec 10) (s : State) : Out :=
  .next (s.regIssue (fRI d a e) (fun _ x L l => l.done d (op (l.v a.toNat) (riImm (x.h L) i))))

/-- IADD: a + b (R294). -/
def execIadd (d a b : BitVec 7) (e f : BitVec 1) (g : BitVec 2) (s : State) : Out := rrrOp (fun x y => x + y) d a b e f g s
/-- ISUB: a − b (R294). -/
def execIsub (d a b : BitVec 7) (e f : BitVec 1) (g : BitVec 2) (s : State) : Out := rrrOp (fun x y => x - y) d a b e f g s
/-- IMUL: a × b modulo 2^32 (R294). -/
def execImul (d a b : BitVec 7) (e f : BitVec 1) (g : BitVec 2) (s : State) : Out := rrrOp (fun x y => x * y) d a b e f g s
/-- IMULH.i (R294). -/
def execImulhI (d a b : BitVec 7) (e f : BitVec 1) (g : BitVec 2) (s : State) : Out := rrrOp mulhI d a b e f g s
/-- IMULH.n (R294). -/
def execImulhN (d a b : BitVec 7) (e f : BitVec 1) (g : BitVec 2) (s : State) : Out := rrrOp mulhN d a b e f g s
/-- IMIN.i (R294). -/
def execIminI (d a b : BitVec 7) (e f : BitVec 1) (g : BitVec 2) (s : State) : Out := rrrOp minI d a b e f g s
/-- IMAX.i (R294). -/
def execImaxI (d a b : BitVec 7) (e f : BitVec 1) (g : BitVec 2) (s : State) : Out := rrrOp maxI d a b e f g s
/-- IMIN.n (R294). -/
def execIminN (d a b : BitVec 7) (e f : BitVec 1) (g : BitVec 2) (s : State) : Out := rrrOp minN d a b e f g s
/-- IMAX.n (R294). -/
def execImaxN (d a b : BitVec 7) (e f : BitVec 1) (g : BitVec 2) (s : State) : Out := rrrOp maxN d a b e f g s
/-- AND (R294). -/
def execAnd (d a b : BitVec 7) (e f : BitVec 1) (g : BitVec 2) (s : State) : Out := rrrOp (fun x y => x &&& y) d a b e f g s
/-- OR (R294). -/
def execOr (d a b : BitVec 7) (e f : BitVec 1) (g : BitVec 2) (s : State) : Out := rrrOp (fun x y => x ||| y) d a b e f g s
/-- XOR (R294). -/
def execXor (d a b : BitVec 7) (e f : BitVec 1) (g : BitVec 2) (s : State) : Out := rrrOp (fun x y => x ^^^ y) d a b e f g s
/-- SHL (R294). -/
def execShl (d a b : BitVec 7) (e f : BitVec 1) (g : BitVec 2) (s : State) : Out := rrrOp shlFn d a b e f g s
/-- SHR.n (R294). -/
def execShrN (d a b : BitVec 7) (e f : BitVec 1) (g : BitVec 2) (s : State) : Out := rrrOp shrNFn d a b e f g s
/-- SHR.i (R294). -/
def execShrI (d a b : BitVec 7) (e f : BitVec 1) (g : BitVec 2) (s : State) : Out := rrrOp shrIFn d a b e f g s
/-- ROTL (R294). -/
def execRotl (d a b : BitVec 7) (e f : BitVec 1) (g : BitVec 2) (s : State) : Out := rrrOp rotlFn d a b e f g s
/-- IMAC: a × b + c, with c from vD or XSRC (R294, R284). -/
def execImac (d a b : BitVec 7) (e f : BitVec 1) (g : BitVec 2) (s : State) : Out :=
  .next (s.regIssue (fRRRc false d a b e f g) (fun s x L l =>
    let (c, l) := cVal false s x L l d
    l.done d (l.v a.toNat * l.v b.toNat + c)))
/-- IADDI (R295). -/
def execIaddi (d a : BitVec 7) (e : BitVec 1) (i : BitVec 10) (s : State) : Out := riOp (fun x y => x + y) d a e i s
/-- IMULI (R295). -/
def execImuli (d a : BitVec 7) (e : BitVec 1) (i : BitVec 10) (s : State) : Out := riOp (fun x y => x * y) d a e i s
/-- ANDI (R295). -/
def execAndi (d a : BitVec 7) (e : BitVec 1) (i : BitVec 10) (s : State) : Out := riOp (fun x y => x &&& y) d a e i s
/-- ORI (R295). -/
def execOri (d a : BitVec 7) (e : BitVec 1) (i : BitVec 10) (s : State) : Out := riOp (fun x y => x ||| y) d a e i s
/-- XORI (R295). -/
def execXori (d a : BitVec 7) (e : BitVec 1) (i : BitVec 10) (s : State) : Out := riOp (fun x y => x ^^^ y) d a e i s
/-- SHLI (R295). -/
def execShli (d a : BitVec 7) (e : BitVec 1) (i : BitVec 10) (s : State) : Out := riOp shlFn d a e i s
/-- SHRI.n (R295). -/
def execShriN (d a : BitVec 7) (e : BitVec 1) (i : BitVec 10) (s : State) : Out := riOp shrNFn d a e i s
/-- SHRI.i (R295). -/
def execShriI (d a : BitVec 7) (e : BitVec 1) (i : BitVec 10) (s : State) : Out := riOp shrIFn d a e i s
/-- MOVI: the immediate (R295). -/
def execMovi (d : BitVec 7) (i : BitVec 10) (s : State) : Out :=
  .next (s.regIssue (fun _ _ => { xim := true, ri := true, dsts := [(d.toNat, 1)] }) (fun _ x L l => l.done d (riImm (x.h L) i)))
/-- MOV (R296). -/
def execMov (d a : BitVec 7) (e : BitVec 1) (g : BitVec 2) (s : State) : Out := rrfOp (fun x => x) d a e g s
/-- INEG (R296). -/
def execIneg (d a : BitVec 7) (e : BitVec 1) (g : BitVec 2) (s : State) : Out := rrfOp (fun x => 0 - x) d a e g s
/-- IABS (R296). -/
def execIabs (d a : BitVec 7) (e : BitVec 1) (g : BitVec 2) (s : State) : Out := rrfOp iabsFn d a e g s
/-- NOT (R296). -/
def execNot (d a : BitVec 7) (e : BitVec 1) (g : BitVec 2) (s : State) : Out := rrfOp (fun x => ~~~x) d a e g s
/-- POPC (R296). -/
def execPopc (d a : BitVec 7) (e : BitVec 1) (g : BitVec 2) (s : State) : Out := rrfOp popc d a e g s
/-- CLZ (R296). -/
def execClz (d a : BitVec 7) (e : BitVec 1) (g : BitVec 2) (s : State) : Out := rrfOp clz d a e g s
/-- CTZ (R296). -/
def execCtz (d a : BitVec 7) (e : BitVec 1) (g : BitVec 2) (s : State) : Out := rrfOp ctz d a e g s
/-- BREV (R296). -/
def execBrev (d a : BitVec 7) (e : BitVec 1) (g : BitVec 2) (s : State) : Out := rrfOp brev d a e g s
/-- BSWAP (R296). -/
def execBswap (d a : BitVec 7) (e : BitVec 1) (g : BitVec 2) (s : State) : Out := rrfOp bswap d a e g s
/-- SEXT8 (R296). -/
def execSext8 (d a : BitVec 7) (e : BitVec 1) (g : BitVec 2) (s : State) : Out := rrfOp sext8 d a e g s
/-- SEXT16 (R296). -/
def execSext16 (d a : BitVec 7) (e : BitVec 1) (g : BitVec 2) (s : State) : Out := rrfOp sext16 d a e g s
/-- ZEXT8 (R296). -/
def execZext8 (d a : BitVec 7) (e : BitVec 1) (g : BitVec 2) (s : State) : Out := rrfOp zext8 d a e g s
/-- ZEXT16 (R296). -/
def execZext16 (d a : BitVec 7) (e : BitVec 1) (g : BitVec 2) (s : State) : Out := rrfOp zext16 d a e g s
/-- BFE (R297). -/
def execBfe (d a b : BitVec 7) (e f : BitVec 1) (g : BitVec 2) (s : State) : Out := rrrOp bfe d a b e f g s
/-- BFI (R297). -/
def execBfi (d a b : BitVec 7) (e f : BitVec 1) (g : BitVec 2) (s : State) : Out := rrrdOp bfi d a b e f g s
/-- PRMT (R297). -/
def execPrmt (d a b : BitVec 7) (e f : BitVec 1) (g : BitVec 2) (s : State) : Out := rrrdOp prmt d a b e f g s
/-- The selector of SEL: p1, p2, p3 or the PRED hint (R269). -/
def selHolds (g : BitVec 2) (h : HintSet) (l : Lane) : Bool :=
  match g.toNat with
  | 0 => l.p 1
  | 1 => l.p 2
  | 2 => l.p 3
  | _ => match h.prd with | none => true | some x => predHolds l x
/-- SEL executes for every lane of its set (R269, R298). -/
def execSel (d a b : BitVec 7) (e f : BitVec 1) (g : BitVec 2) (s : State) : Out :=
  .next (s.regIssue (fun _ _ => { g := g.toNat, unguarded := true, srcs := [src a e, src b f], dsts := [(d.toNat, 1)] })
    (fun _ x L l => l.done d (if selHolds g (x.h L) l then l.v a.toNat else l.v b.toNat)))

end Sys2Proof.Machine
end

