-- ==== Sys2Proof/Machine/Sample.lean ====
section
/-!
DEFINITION. Stall samples: the form of every instruction as its meaning issues it, and what a lane waits for (R244, R245).
-/

namespace Sys2Proof.Machine

/-- What an instruction reads, writes and accepts, as its meaning issues it. A step of the device has no word. -/
def formOf : Instr → FormF
  | .iadd d a b e f g => fRRR d a b e f g
  | .isub d a b e f g => fRRR d a b e f g
  | .imul d a b e f g => fRRR d a b e f g
  | .imulhI d a b e f g => fRRR d a b e f g
  | .imulhN d a b e f g => fRRR d a b e f g
  | .iminI d a b e f g => fRRR d a b e f g
  | .imaxI d a b e f g => fRRR d a b e f g
  | .iminN d a b e f g => fRRR d a b e f g
  | .imaxN d a b e f g => fRRR d a b e f g
  | .and d a b e f g => fRRR d a b e f g
  | .or d a b e f g => fRRR d a b e f g
  | .xor d a b e f g => fRRR d a b e f g
  | .shl d a b e f g => fRRR d a b e f g
  | .shrN d a b e f g => fRRR d a b e f g
  | .shrI d a b e f g => fRRR d a b e f g
  | .rotl d a b e f g => fRRR d a b e f g
  | .imac d a b e f g => fRRRc false d a b e f g
  | .iaddi d a e _ => fRI d a e
  | .imuli d a e _ => fRI d a e
  | .andi d a e _ => fRI d a e
  | .ori d a e _ => fRI d a e
  | .xori d a e _ => fRI d a e
  | .shli d a e _ => fRI d a e
  | .shriN d a e _ => fRI d a e
  | .shriI d a e _ => fRI d a e
  | .movi d _ => fun _ _ => { xim := true, ri := true, dsts := [(d.toNat, 1)] }
  | .mov d a e g => fRRF d a e g
  | .ineg d a e g => fRRF d a e g
  | .iabs d a e g => fRRF d a e g
  | .not d a e g => fRRF d a e g
  | .popc d a e g => fRRF d a e g
  | .clz d a e g => fRRF d a e g
  | .ctz d a e g => fRRF d a e g
  | .brev d a e g => fRRF d a e g
  | .bswap d a e g => fRRF d a e g
  | .sext8 d a e g => fRRF d a e g
  | .sext16 d a e g => fRRF d a e g
  | .zext8 d a e g => fRRF d a e g
  | .zext16 d a e g => fRRF d a e g
  | .bfe d a b e f g => fRRR d a b e f g
  | .bfi d a b e f g => fRRRd d a b e f g
  | .prmt d a b e f g => fRRRd d a b e f g
  | .sel d a b e f g => fun _ _ => { g := g.toNat, unguarded := true, srcs := [src a e, src b f], dsts := [(d.toNat, 1)] }
  | .fadd d a b e f g => fRRRx false d a b e f g
  | .fsub d a b e f g => fRRRx false d a b e f g
  | .fmul d a b e f g => fRRRx false d a b e f g
  | .fmac d a b e f g => fRRRc true d a b e f g
  | .fmin d a b e f g => fRRRx false d a b e f g
  | .fmax d a b e f g => fRRRx false d a b e f g
  | .fneg d a e g => fRRFx false d a e g
  | .fabs d a e g => fRRFx false d a e g
  | .frndn d a e g => fRRFx false d a e g
  | .frndz d a e g => fRRFx false d a e g
  | .frndd d a e g => fRRFx false d a e g
  | .frndu d a e g => fRRFx false d a e g
  | .ffrac d a e g => fRRFx false d a e g
  | .fclass d a e g => fRRFx false d a e g
  | .fsat d a e g => fRRFx false d a e g
  | .fscale d a b e f g => fRRRx false d a b e f g
  | .hadd2F16 d a b e f g => fRRRx false d a b e f g
  | .hmul2F16 d a b e f g => fRRRx false d a b e f g
  | .hmac2F16 d a b e f g => fRRRc true d a b e f g
  | .hmin2F16 d a b e f g => fRRRx false d a b e f g
  | .hmax2F16 d a b e f g => fRRRx false d a b e f g
  | .hadd2Bf16 d a b e f g => fRRRx false d a b e f g
  | .hmul2Bf16 d a b e f g => fRRRx false d a b e f g
  | .hmac2Bf16 d a b e f g => fRRRc true d a b e f g
  | .hmin2Bf16 d a b e f g => fRRRx false d a b e f g
  | .hmax2Bf16 d a b e f g => fRRRx false d a b e f g
  | .rcp d a e g => fRRF d a e g
  | .rsq d a e g => fRRF d a e g
  | .sqrt d a e g => fRRF d a e g
  | .exp2 d a e g => fRRF d a e g
  | .log2 d a e g => fRRF d a e g
  | .sint d a e g => fRRF d a e g
  | .cost d a e g => fRRF d a e g
  | .tanh d a e g => fRRF d a e g
  | .rcph2 d a e g => fRRF d a e g
  | .exph2 d a e g => fRRF d a e g
  | .i2f d a e g => fRRFx false d a e g
  | .n2f d a e g => fRRFx false d a e g
  | .f2in d a e g => fRRFx false d a e g
  | .f2iz d a e g => fRRFx false d a e g
  | .f2id d a e g => fRRFx false d a e g
  | .f2iu d a e g => fRRFx false d a e g
  | .f2nn d a e g => fRRFx false d a e g
  | .f2nz d a e g => fRRFx false d a e g
  | .h2fl d a e g => fRRFx false d a e g
  | .h2fh d a e g => fRRFx false d a e g
  | .b2fl d a e g => fRRFx false d a e g
  | .b2fh d a e g => fRRFx false d a e g
  | .f2h d a e g => fRRFx true d a e g
  | .f2b d a e g => fRRFx true d a e g
  | .cvtpF16 d a b e f g => fRRRx true d a b e f g
  | .cvtpBf16 d a b e f g => fRRRx true d a b e f g
  | .cvtq d a b e f g => fCVTQ d a b e f g
  | .cvtx d a c e g => fun h b => { fRRF d a e g h b with bad := !Instr.wf (.cvtx d a c e g) }
  | .icmpI _ a b c => fCMP a b (!upTo c.toNat 5)
  | .icmpN _ a b c => fCMP a b (!upTo c.toNat 5)
  | .fcmp _ a b c => fCMP a b (!upTo c.toNat 13)
  | .hcmp2 p a b c => fCMP a b (!upTo c.toNat 13 || p.toNat == 127)
  | .plog _ _ _ _ => fSYS [] []
  | .v2p _ a e g => fun _ _ => { g := g.toNat, srcs := [src a e] }
  | .p2v d _ _ g => fun _ _ => { g := g.toNat, dsts := [(d.toNat, 1)] }
  | .prd d g => fun _ _ => { g := g.toNat, dsts := [(d.toNat, 1)] }
  | .pwr a e g => fun _ _ => { g := g.toNat, srcs := [src a e] }
  | .all d a e g => fRRF d a e g
  | .any d a e g => fRRF d a e g
  | .ballot d a e g => fRRF d a e g
  | .matchLanes d a e g => fRRF d a e g
  | .lcount d g => fun _ _ => { g := g.toNat, dsts := [(d.toNat, 1)] }
  | .shflIdx d a b e f g => fRRR d a b e f g
  | .shflXor d a b e f g => fRRR d a b e f g
  | .shflXw d a b e f g => fRRR d a b e f g
  | .reduce d a c e g => fun h b => { fRRF d a e g h b with bad := !upTo c.toNat 10 }
  | .scan d a c e g => fun h b => { fRRF d a e g h b with bad := !Instr.wf (.scan d a c e g) }
  | .bra _ => fSYS [] []
  | .brp _ _ _ => fSYS [] []
  | .call _ => fSYS [] [(127, 1)]
  | .jmpi a e g => fun _ _ => { g := g.toNat, srcs := [src a e] }
  | .ret e g => fun _ _ => { g := g.toNat, srcs := [src 127 e] }
  | .exit => fSYS [] []
  | .wsync => fun _ _ => { prd := false }
  | .barSync _ => fun _ _ => { prd := false }
  | .barArrive _ => fun _ _ => { prd := false }
  | .barWait _ => fun _ _ => { prd := false }
  | .barCsync => fun _ _ => { prd := false }
  | .nop => fSYS [] []
  | .yield => fSYS [] []
  | .sleep a => fSYS [srcBlk a] []
  | .ld t a r o z g => fLoad t (widthOf z).2.1 a 2 o g (!Instr.wf (.ld t a r o z g))
  | .st t a r o z g => fStore t (widthOf z).2.1 a 2 o g (!Instr.wf (.st t a r o z g))
  | .lds t a r o z g => fLoad t (widthOf z).2.1 a 1 o g (!Instr.wf (.lds t a r o z g))
  | .sts t a r o z g => fStore t (widthOf z).2.1 a 1 o g (!Instr.wf (.sts t a r o z g))
  | .ldfe t a r o z g => fLoad t (feSize z.toNat / 4) a 1 o g (!Instr.wf (.ldfe t a r o z g))
  | .stfe t a r o z g => fStore t (feSize z.toNat / 4) a 1 o g (!Instr.wf (.stfe t a r o z g))
  | .atom t a r o c z => fAtom t a c z o 2 true (!Instr.wf (.atom t a r o c z))
  | .red t a r o c z => fAtom t a c z o 2 false (!Instr.wf (.red t a r o c z))
  | .atoms t a r o c z => fAtom t a c z o 1 true (!Instr.wf (.atoms t a r o c z))
  | .cstore t a r o z g => fStore t (widthOf z).2.1 a 2 o g (!Instr.wf (.cstore t a r o z g))
  | .fence k z => fun _ _ => { bad := !Instr.wf (.fence k z) }
  | .xfence d m => fun _ _ => { bad := !Instr.wf (.xfence d m) }
  | .lock t a r g => fLock t a g (!Instr.wf (.lock t a r g))
  | .unlock t a r g => fLock t a g (!Instr.wf (.unlock t a r g))
  | .pref t a r z g => fPref t a g (!Instr.wf (.pref t a r z g)) (z.toNat == 3)
  | .est x i _ => fEst x i
  | .eld x i _ => fun _ _ => { xmod := true, srcs := [srcBlk i], dsts := [(x.toNat, 4)] }
  | .emrg i _ => fEop i 2 []
  | .eclr i _ => fEop i 1 []
  | .esweep i _ => fEop i 2 []
  | .escene _ => fun _ _ => { xmod := true }
  | .eraw i _ => fEop i 1 [(i.toNat, 4)]
  | .einit i _ => fEop i 4 []
  | .qpush d a _ => fSYSx [srcBlk a 16] [(d.toNat, 1)]
  | .rwait a _ => fSYSx [srcBlk a 2] []
  | .rrel a _ => fSYSx [srcBlk a 2] []
  | .launch d a _ => fSYSx [srcBlk a 2] [(d.toNat, 1)]
  | .ordwait d _ => fSYS [] [(d.toNat, 1)]
  | .ordtake _ => fSYS [] []
  | .markImm _ => fSYS [] []
  | .markReg a => fSYS [srcBlk a] []
  | .cont d o => fun _ _ => { srcs := [srcBlk 0 d.toNat], bad := !Instr.wf (.cont d o) }
  | .trav d a n => fTRAV d a n
  | .tnew d a m n => fun _ _ => { xmod := true, srcs := [srcBlk d 18, srcBlk a 2], bad := !Instr.wf (.tnew d a m n) }
  | .tcut d a n => fun _ _ => { xmod := true, srcs := [srcBlk a 4], dsts := [(d.toNat, 1)], bad := !Instr.wf (.tcut d a n) }
  | .tret a => fun _ _ => { srcs := [srcBlk a], bad := !Instr.wf (.tret a) }
  | .tfrd d a w => fun _ _ => { srcs := [srcBlk a 2], dsts := [(d.toNat, 1)], bad := !Instr.wf (.tfrd d a w) }
  | .tfwr d a w => fun _ _ => { srcs := [srcBlk a 2, srcBlk d], bad := !Instr.wf (.tfwr d a w) }
  | .tstat d a n => fun _ _ => { xmod := true, srcs := [srcBlk a 2], dsts := [(d.toNat, 2)], bad := !Instr.wf (.tstat d a n) }
  | .mma d f a b z => fMma d f a b z
  | .mclaim d n h => fun _ _ => { bad := !Instr.wf (.mclaim d n h), dsts := [(d.toNat, 1)] }
  | .mrel n h => fun _ _ => { bad := (!Instr.wf (.mrel n h)), handles := handleSpan n h }
  | .mzero n h => fun _ _ => { bad := (!Instr.wf (.mzero n h)), handles := handleSpan n h }
  | .mrow a h => fun _ _ => { srcs := [srcBlk a 16], handles := [h.toNat] }
  | .mread d h => fun _ _ => { dsts := [(d.toNat, 16)], handles := [h.toNat] }
  | .mld h a r z g => fMld h a r (z.toNat == 1) g (!Instr.wf (.mld h a r z g))
  | .msets a => fSYS [srcBlk a] []
  | .hadq d a b e f g =>
    fun h _ => { g := g.toNat, xmod := true, sr := true, bad := hadqRegs (fmtOfHint h) == 0, srcs := [src a e 32, src b f], dsts := [(d.toNat, hadqRegs (fmtOfHint h))] }
  | .mcbt a r g =>
    fun h _ => { g := g.toNat, xim := true, xmod := true, mfmt := true, unit := some 1, bad := (!Instr.wf (.mcbt a r g)), srcs := [{ r := a.toNat, n := 2, trap := eaOf h }] }
  | .march d a b e f g => fun _ _ => { g := g.toNat, xmod := true, unit := some 0, srcs := [src a e 8, src b f 3], dsts := [(d.toNat, 2)] }
  | .hgrid d a b e f g => fun _ _ => { g := g.toNat, xmod := true, unit := some 0, srcs := [src a e 3, src b f 3], dsts := [(d.toNat, 2)] }
  | .idot4 d a e g => fun _ _ => { g := g.toNat, srcs := [src a e 2, srcBlk d], dsts := [(d.toNat, 1)] }
  | .ndot4 d a e g => fun _ _ => { g := g.toNat, srcs := [src a e 2, srcBlk d], dsts := [(d.toNat, 1)] }
  | .idot8 d a e g => fun _ _ => { g := g.toNat, srcs := [src a e 2, srcBlk d], dsts := [(d.toNat, 1)] }
  | .idist4 d a e g => fun _ _ => { g := g.toNat, srcs := [src a e 2, srcBlk d], dsts := [(d.toNat, 1)] }
  | .fdot4e4 d a e g => fun _ _ => { g := g.toNat, srcs := [src a e 2, srcBlk d], dsts := [(d.toNat, 1)] }
  | .fdot4e5 d a e g => fun _ _ => { g := g.toNat, srcs := [src a e 2, srcBlk d], dsts := [(d.toNat, 1)] }
  | .hdot2 d a e g => fun _ _ => { g := g.toNat, srcs := [src a e 2, srcBlk d], dsts := [(d.toNat, 1)] }
  | .kinit a _ _ => fTopk [srcBlk a] []
  | .kins d a => fTopk [srcBlk a 3] [(d.toNat, 1)]
  | .kmrg d a => fTopk [srcBlk a 2] [(d.toNat, 1)]
  | .krd d a => fTopk [srcBlk a 2] [(d.toNat, 2)]
  | .srd d z => fun _ _ => { bad := !Instr.wf (.srd d z), dsts := [(d.toNat, 1)] }
  | .swr a z => fun _ _ => { bad := !Instr.wf (.swr a z), srcs := [srcBlk a] }
  | .trapAssert a _ => fSYS [srcBlk a 2] []
  | .trapUser a => fSYS [srcBlk a] []
  | .bkpt => fSYS [] []
  | .rft => fun _ h => { prd := false, bad := !h }
  | .savew a n => fSave a n
  | .restw a n => fSave a n
  | .ipref a c => fun _ _ => { srcs := [srcBlk a], bad := !Instr.wf (.ipref a c) }
  | .bset a _ => fSYS [srcBlk a 3] []
  | .bget d _ => fSYS [] [(d.toNat, 3)]
  | .sched _ => fHINT
  | .ximm _ => fHINT
  | .xsrc _ _ => fHINT
  | .xmod _ _ _ _ _ _ _ _ _ => fHINT
  | .pred _ _ => fHINT
  | _ => fun _ _ => {}


/-! ## What a lane waits for (R245) -/

/-- REASON, REG and BLAMEPC of a record. -/
structure Stall where
  reason : Nat
  reg : Nat := 0xFF
  blame : Nat
deriving DecidableEq, Repr

/-- The instruction enters the SFU queue of its quadrant (R206). -/
def isSfu : Instr → Bool
  | .rcp _ _ _ _ => true
  | .rsq _ _ _ _ => true
  | .sqrt _ _ _ _ => true
  | .exp2 _ _ _ _ => true
  | .log2 _ _ _ _ => true
  | .sint _ _ _ _ => true
  | .cost _ _ _ _ => true
  | .tanh _ _ _ _ => true
  | .rcph2 _ _ _ _ => true
  | .exph2 _ _ _ _ => true
  | _ => false
/-- The instruction waits while the matrix unit is occupied, or reads a slot of its (R360, R365). -/
def State.unitWait (s : State) (i : Iss) (x : Instr) : Bool :=
  let slots (hs : List Nat) : Bool := hs.any (fun h => s.mmaReads i.core i.uid (i.w.slotIx h))
  match x with
  | .mma _ _ _ _ _ => s.mmaOn i.core
  | .mcbt _ _ _ => s.mmaOn i.core
  | .mrel n h => slots (handleSpan n h)
  | .mzero n h => slots (handleSpan n h)
  | .mrow _ h => slots [h.toNat]
  | .mld h _ _ _ _ => slots [h.toNat]
  | _ => false

/-- An empty register of a lane: a source (7) or a destination (8), and its producer. -/
def stallReg (l : Lane) (r : Nat) (source : Bool) : Stall :=
  let x := if source then l.srcRegs.getD r {} else l.reg r
  { reason := if source then 7 else 8, reg := r + 128 * b2n x.fault, blame := x.tag.toNat }
/-- The register that keeps lane l from issuing x; the accumulators of an MMA are sources unless it clears them, and what the decision word
of a TRET makes the engine read is a source too (R379). -/
def State.emptyReg (s : State) (i : Iss) (x : Instr) (l : Lane) : Option Stall :=
  match fate s i.w (formOf x) l with
  | .wait r b => some (stallReg l r b)
  | .run =>
    (match x with
     | .mma d f _ _ z =>
       if (mmaTrap s i d f).isSome then none
       else (firstEmpty l.regs Reg.full d.toNat (mmaSpan (fmtWord i f))).map (fun r => stallReg l r (z == 0))
     | .tret a =>
       if l.routine.isNone then none
       else (firstSome (fun x : Nat × Nat => firstEmpty l.regs Reg.full x.1 x.2) (tretSpans (l.v a.toNat))).map (fun r => stallReg l r true)
     | _ => none)
  | _ => none

/-- Oldest instruction in the SFU queue of a wave's quadrant. -/
def State.sfuOldest (s : State) (i : Iss) : Nat := ((sfuQueued (s.core i.core) (i.w.slot % 4) s.cycle).head?.map (fun (x : Nat × Word) => x.2.toNat)).getD 0
/-- PC that the wave's quadrant issued last. -/
def State.quadLast (s : State) (i : Iss) : Nat :=
  let q := quadOf i.t i.w
  match (s.waves.filter (fun w => quadOf (s.teamOf w) w == q && (s.teamOf w).onCore && w.issLanes != 0)) with
  | [] => i.w.minPc
  | w :: ws => (ws.foldl (fun (a : Wave) b => if a.lastIssue < b.lastIssue then b else a) w).issPc.toNat

/-- Why lane L of the minimum-PC set does not issue instruction x (R245). -/
def State.stallOf (s : State) (i : Iss) (x : Instr) (L : Nat) : Stall :=
  let here : Nat := i.w.minPc
  let own := s.emptyReg i x (i.l L)
  let exec : Iss := { i with E := runsOf (fatesOf s i.w (formOf x) i.E) }
  let cont : Bool := match x with | .cont _ _ => (caddyBusy s exec).isSome | .trav _ _ _ => (caddyBusy s exec).isSome | _ => false
  match (match own with | some r => some r | none => firstSome (fun M => s.emptyReg i x (i.l M)) i.E) with
  | some r => r
  | none =>
    if isSfu x && sfuBusy s i then { reason := 9, blame := s.sfuOldest i }
    else if s.unitWait i x then { reason := 10, blame := (s.core i.core).mmaPc.toNat }
    else if (match x with | .markImm _ => true | .markReg _ => true | _ => false) && (i.l L).begun then { reason := 12, blame := here }
    else if cont then { reason := 13, blame := here }
    else if s.tried.contains i.uid then { reason := 11, blame := here }
    else { reason := 14, blame := s.quadLast i }

/-- The record's reason for a lane that does not issue in this cycle (R245). -/
def State.stallLane (s : State) (i : Iss) (L : Nat) : Stall :=
  let l := i.l L
  let pc := l.pc.toNat
  let issued : Bool := i.w.issLanes != 0 && i.w.lastIssue == s.dieCycle i.die
  let low := if issued then i.w.issPc.toNat else i.w.minPc
  match l.st with
  | .trapped => { reason := 1, blame := pc }
  | .faulted _ => { reason := 1, blame := pc }
  | .halted => { reason := 2, blame := pc }
  | .blocked .wsync =>
    let others := (List.range i.w.lanes.length).filter (fun M => (i.l M).live && !((i.l M).st == .blocked .wsync && (i.l M).pc == l.pc))
    { reason := 4, blame := if others = [] then pc else minNat (others.map (fun M => (i.l M).pc.toNat)) }
  | .blocked _ => { reason := 3, blame := pc }
  | .run =>
    if !i.w.laneOn l then { reason := 5, blame := (i.w.win.map (fun x => x.pc.toNat)).getD pc }
    else if low != pc then { reason := 6, blame := low }
    else
      match s.fetch i.w with
      | .word x => (match decode x with
        | .ok ins => s.stallOf i ins L
        | .error _ => { reason := if s.tried.contains i.uid then 11 else 14, blame := if s.tried.contains i.uid then pc else s.quadLast i })
      | _ => { reason := 11, blame := pc }
  | _ => { reason := 5, blame := (i.w.win.map (fun x => x.pc.toNat)).getD pc }

/-! ## The samples (R244) -/

/-- log2 of the sample period: none where sampling is off. -/
def State.sampleLog (s : State) : Option Nat :=
  let n := fieldAt s.dbg.blk 12 1
  if within 10 n 24 then some n else none
/-- A sample of the core is due: its die's clock has entered a new period. -/
def State.sampleDue (s : State) (die core : Nat) : Bool :=
  match s.sampleLog with
  | none => false
  | some n => decide (die < s.dies) && decide (core < 48) && decide ((s.core (coreIx die core)).sampledAt / 2 ^ n < s.dieCycle die / 2 ^ n)
/-- Waves of a core that may be sampled. -/
def State.sampleable (s : State) (die core : Nat) : List Wave :=
  let c := fieldAt s.dbg.blk 14 2
  s.waves.filter (fun w =>
    let t := s.teamOf w
    t.onCore && t.die == die && t.core == core && (c == 0xFFFF || c == t.ctx))
/-- The wave in the next slot after this one. -/
def nextSlot (last : Option Nat) (ws : List Wave) : Option Wave :=
  let after := ws.filter (fun w => match last with | some k => decide (k < w.slot) | none => true)
  minBy (fun w : Wave => w.slot) (if after = [] then ws else after)
/-- The record of lane L (R244). -/
def State.sampleLane (s : State) (i : Iss) (no : Nat) (L : Nat) : State :=
  let r := s.stallLane i L
  s.streamPut i.die 2 (record 256 [(0, 8, s.laneLoc i.t i.w.slot L (i.l L).pc), (8, 8, s.time), (16, 1, r.reason), (17, 1, r.reg), (18, 2, i.c),
    (20, 4, r.blame), (24, 4, no)])
/-- STALL_SAMPLE of core m of die n (R244). -/
def execStallSample (s : State) : Out :=
  .next (
    let d := s.occ.n
    let k := coreIx d s.occ.m
    if !s.sampleDue d s.occ.m then s
    else
      let c := s.core k
      let s1 := s.updCore k (fun c => { c with sampledAt := s.dieCycle d })
      match nextSlot c.sampleSlot (s.sampleable d s.occ.m) with
      | none => s1
      | some w =>
        let i := s.issOf w
        let ls := (List.range w.lanes.length).filter (fun L => (w.lane L).live && !(w.lastIssue == s.dieCycle (s.teamOf w).die && w.issLanes.getLsbD L))
        let s2 := ls.foldl (fun (s : State) L => s.sampleLane i c.sampleNo.toNat L) s1
        s2.updCore k (fun c => { c with sampleSlot := some w.slot, sampleNo := c.sampleNo + 1 }))

end Sys2Proof.Machine
end

