-- ==== Sys2Proof/Machine/Perform.lean ====
section
/-!
DEFINITION. The device's own steps on what lanes have issued: page walks (R95, R100 to R103), accesses that perform (R144 to
R148, R330), results that land (R203, R205), and accesses that a replay log lets go on (R257).
-/

namespace Sys2Proof.Machine

/-! ## Page walks (R102) -/

/-- The TLB of a die takes an entry. -/
def State.fillTlb (s : State) (t : TlbEnt) (page : Nat) : State :=
  { s with tlb := t :: s.tlb.filter (fun x => !x.covers t.die t.ctx page) }
/-- The walk cache takes the tables that a walk entered. -/
def State.fillWalks (s : State) (die c va : Nat) (ts : List (Nat × Nat)) : State :=
  { s with walks := ts.foldl (fun ws x =>
      let w : WalkEnt := { die := die, ctx := c, level := x.1, key := va / 2 ^ (16 + 13 * (x.1 + 1)), table := x.2 }
      w :: ws.filter (fun y => !(y.die == die && y.ctx == c && y.level == w.level && y.key == w.key))) s.walks }
/-- The waves that joined a walk take its fault. -/
def State.walkFailed (s : State) (uids : List Nat) (page cause : Nat) : State :=
  { s with waves := s.waves.map (fun w =>
      if uids.contains w.uid then { w with walkFaults := (page, cause) :: w.walkFaults.filter (fun x => x.1 != page) } else w) }
/-- PAGE_WALK_COMPLETE for page k of context m on die n, one of the die's first 48 misses (R102): the TLB is filled, ACCESSED
set first (R100), or the fault goes to the waves that joined. -/
def execPageWalkComplete (s : State) : Out :=
  .next (
    let d := s.occ.n
    match ((s.misses.filter (fun x => x.die == d)).take 48).find? (fun x => x.ctx == s.occ.m && x.vpn == s.occ.k) with
    | none => s
    | some x =>
      let va := x.vpn * 65536
      let s1 : State := { s with misses := s.misses.filter (fun y => !(y.die == d && y.ctx == x.ctx && y.vpn == x.vpn)) }
      let (r, ts) := s.walkFrom x.ctx va (s.walkStart d x.ctx va)
      let s2 := s1.fillWalks d x.ctx va ts
      match r with
      | .bad cause => s2.walkFailed x.uids x.vpn cause
      | .leaf lvl e epa => (if e.accessed then s2 else s2.orPte epa 0x400).fillTlb (tlbOf d x.ctx va lvl e epa) x.vpn)

/-! ## Accesses that perform (R144 to R148) -/

/-- The access reads, or may write, a location through the copies of a core and die (R110): one of NORMAL memory. -/
def Acc.cached (a : Acc) : Bool := a.sp.isNone && a.type == 0
/-- A copy that a load may use: no write that it does not show happens before the load (R110, R147, R150; log 10). -/
def State.copyFor (s : State) (a : Acc) : Option Copy :=
  match a.op with
  | .load _ _ =>
    if a.cached then
      s.copies.find? (fun c => c.die == a.die && (c.core == none || c.core == some a.core) && c.line == a.addr / 128 &&
        !s.wrote.any (fun w => decide (c.asOf ≤ w.id) && w.meets none a.addr a.n && s.mustSee a w))
    else none
  | _ => none
/-- Bytes of a copy from an address, as a number. -/
def Copy.bytes (c : Copy) (addr n : Nat) : Nat := c.data.toNat / 2 ^ (8 * (addr % 128)) % 2 ^ (8 * n)
/-- A read leaves a copy of the line in its core's L1, unless its policy is NOL1, and in its die's RDC when the line has its
home elsewhere (R110, R111). -/
def State.keepCopy (s : State) (a : Acc) (data : BitVec 1024) (asOf : Nat) (rdc : Bool) : State :=
  let line := a.addr / 128
  let old (k : Copy) : Bool := k.die == a.die && k.line == line && (k.core == some a.core || (rdc && k.core == none))
  let l1 : Copy := { die := a.die, core := some a.core, line := line, data := data, asOf := asOf }
  { s with copies := (if a.nol1 then [] else [l1]) ++ (if rdc && !s.homeHere a.die a.addr then [{ l1 with core := none }] else []) ++
      s.copies.filter (fun k => !old k) }
/-- What an access reads at its home, and the state after it: scratchpad, memory, or a device register. -/
def State.homeRead (s : State) (a : Acc) : Nat × State :=
  match a.sp with
  | some tid => (leNat (s.spRd tid a.addr a.n), s)
  | none =>
    if a.type = 4 then
      (if s.isLocal a.addr then (s.barRead (paOff a.addr) a.n, s)
       else
         let (x, s1) := s.free
         (x.toNat % 2 ^ (8 * a.n), s1))
    else (s.rd a.addr a.n, s)
/-- The bytes among those an access writes that may stand at KIND of a slot: slots are 64-byte aligned (R33, R42). -/
def kindBytes (a : Acc) : List Nat := (List.range a.n).filter (fun j => (a.addr + j) % 64 == 0)
/-- Whose lane last wrote those bytes (R42), and which of its accesses an XFENCE has ordered before the walk that a packet there asks for (R155,
R191). -/
def State.notePusher (s : State) (a : Acc) : State :=
  let s1 := s.hostWrote a.addr a.n
  let s2 : State := { s1 with pushers := (kindBytes a).foldl (fun p j => Tab.put p (a.addr + j) a.tid) s1.pushers }
  (kindBytes a).foldl (fun s j => (s.forget (fun k => k == .slot (a.addr + j))).pass (fun k => k == .trav a.me) (.slot (a.addr + j))) s2
/-- An access writes n bytes at its home. -/
def State.homeWrite (s : State) (a : Acc) (x : Nat) : State :=
  match a.sp with
  | some tid => s.spWr tid a.addr (leBytes a.n x)
  | none =>
    if a.type = 4 then (if s.isLocal a.addr then s.barWrite (paOff a.addr) a.n x else s)
    else (s.wr a.addr a.n x).notePusher a
/-- The registers a load lands: sign-extended from sx bits (R323). -/
def loadWords (n sx x : Nat) : List Word :=
  if sx = 0 then wordsOf (max 1 (n / 4)) x else [(BitVec.ofNat sx x).signExtend 32]
/-- What RREL makes of a ring header: WIDX and RELIDX (R351). -/
def rrelFn (old : Nat) (v : Nat) : Nat :=
  let w := old % 2 ^ 64
  let r := old / 2 ^ 64
  w + max r (min v w) * 2 ^ 64
/-- A read value arrives where its access put it: registers or operand memory (R203, R359). -/
def State.readDone (s : State) (a : Acc) (x due : Nat) (home : Bool := true) : State :=
  match a.op with
  | .load d sx => s.landFor a d (loadWords a.n sx x) due home
  | .mldData ix off => if a.mute then s else s.updWave a.uid (fun w => w.updSlot ix (fun o => { o with data := putBytes o.data off (leBytes a.n x) }))
  | .mldScale ix off => if a.mute then s else s.updWave a.uid (fun w => w.updSlot ix (fun o => { o with scale := putBytes o.scale off (leBytes a.n x) }))
  | _ => s
/-- The access performs at its home (R144 to R148, R330, R351). -/
def State.homeDo (s : State) (a : Acc) : State :=
  match a.op with
  | .store => s.homeWrite a a.data.toNat
  | .atom aop x y d =>
    let (old, s1) := s.homeRead a
    let s2 := s1.homeWrite a (aopFn aop a.n old x.toNat y.toNat)
    (match d with
     | some d => s2.landFor a d (wordsOf (a.n / 4) old) (s.homeDue a)
     | none => s2)
  | .rrel v =>
    let (old, s1) := s.homeRead a
    s1.homeWrite a (rrelFn old v.toNat)
  | _ =>
    let (x, s1) := s.homeRead a
    let s2 := s1.readDone a x (s.homeDue a)
    if a.cached then s2.keepCopy a (BitVec.ofNat 1024 (s.rd (a.addr / 128 * 128) 128)) s2.writes true else s2
/-- What happens before the access, and after it, once it has performed at its home (R147, R148): its own write, of memory or scratchpad, is the
first since the state in which it stood. -/
def State.settle (s : State) (a : Acc) (since : Nat) : State :=
  s.touch a (a.op != .store) (if a.op.isWrite && !(a.sp.isNone && a.type == 4) then some since else none) s.writes
/-- The access performs on a copy, in its core's L1 or its die's RDC (R12, R15, R24): the core's L1 holds it then. -/
def State.copyDo (s : State) (a : Acc) (c : Copy) : State :=
  ((s.readDone a (c.bytes a.addr a.n) (s.copyDue a c.core.isSome) false).keepCopy a c.data c.asOf false).touch
    a true none c.asOf

/-- Nothing holds the access back: the order of its lane, a DUMP, a migration of the page it writes, a shootdown. -/
def State.accFree (s : State) (a : Acc) : Bool :=
  !a.op.isEst && !a.refused && s.orderFree a && !s.dumpHeld a && !(a.sp.isNone && a.op.isWrite && s.migHeld a.addr)
/-- The access is logged when it arrives at its home (R256, kind 1). -/
def State.accLogged (s : State) (a : Acc) : Bool := (s.pointOf 1 a).1 && a.sp.isNone && counts a.op a.log false
/-- Bytes moved at a home on a die count for the context (R254). -/
def State.movedAt (s : State) (a : Acc) : State := if a.sp.isNone then s.movedBytes a.ctx a.addr a.n else s
/-- An access performs: at its home, once its logged point lets it through, or for a load on a copy. -/
def State.perform (s : State) (a : Acc) (useCopy : Bool) : State :=
  if !s.accFree a then s
  else if useCopy then
    (match s.copyFor a with
     | some c => if s.accLogged a then s else (s.dropAcc a.id).copyDo a c
     | none => s)
  else
    let g := s.ssGate (s.accLogged a) (paDie a.addr) (s.pointOf 1 a).2
    if !g.1 then g.2
    else
      ((((g.2.dropAcc a.id).homeDo a).fillL2 a).movedAt a).settle a g.2.writes
/-- ACCESS_PERFORM of access n; m = 1 for a load that uses a copy (R144 to R148, R330). -/
def execAccessPerform (s : State) : Out :=
  .next (match s.accs.find? (fun a => a.id == s.occ.n) with
    | some a => s.perform a (s.occ.m == 1)
    | none => s)

/-- REPLAY_LOG_MATCH on die n: the die's log is read as far as it is written, and access m goes on if it is the next of its
point (R257, R393). -/
def execReplayLogMatch (s : State) : Out :=
  .next (
    let d := s.occ.n
    if s.dbg.ssStatus != .replaying || s.dies ≤ d then s
    else
      let s1 := s.ssRead d
      let s2 := if s1.dbg.ssStatus = .diverged then s else s1
      match s2.accs.find? (fun a => a.id == s.occ.m) with
      | some a => if a.op.isEst then s2.esuArrive a else s2.perform a false
      | none => s2)

/-! ## Results that land (R203, R205) -/

/-- RESULT_LAND of result n, once it is due: its registers hold it and are full (R203). -/
def execResultLand (s : State) : Out :=
  .next (match s.lands.find? (fun x => x.id == s.occ.n) with
    | none => s
    | some x =>
      if s.cycle < x.due then s
      else ({ s with lands := s.lands.filter (fun y => y.id != x.id) } : State).updLane x.uid x.lane (fun l => l.setFrom x.d x.vals))

end Sys2Proof.Machine
end

