-- ==== Sys2Proof/Machine/Shoot.lean ====
section
/-!
DEFINITION. The translation maintenance ring and shootdowns (R108, R109).
-/

namespace Sys2Proof.Machine

/-- What a slot asks for: some pages of a context, all of it, or every context. -/
inductive ShootOp where
  | pages (c vpn n : Nat)
  | context (c : Nat)
  | all
deriving DecidableEq, Repr
def ringPa (s : State) : Nat := s.tabPa + 0x20040
/-- The ring header as it stands, once it can be read (R108). -/
def State.shootRead (s : State) : Option ShootHdr :=
  if s.barwin && s.devOk (ringPa s) 64 then some { mwidx := s.rd (ringPa s) 8, slots := s.rd (ringPa s + 16) 8, log := s.rd (ringPa s + 24) 1 } else none
/-- MWIDX has changed since the header was read (R108). -/
def State.ringMoved (s : State) : Bool :=
  match s.shootRead, s.shootHdr with
  | some h, some k => h.mwidx != k.mwidx
  | some _, none => true
  | none, _ => false
/-- The header is read again at a change of MWIDX, and only then (R108). -/
def State.ringLook (s : State) : State := if s.ringMoved then { s with shootHdr := s.shootRead } else s
/-- The next slot: its index and its bits; none where the ring is empty or cannot be served (R108). -/
def State.shootSlot (s : State) : Option (Nat × BitVec 256) :=
  match s.shootRead, s.shootHdr with
  | some _, some h =>
    let idx := s.rd (ringPa s + 8) 8
    let pa := h.slots + 32 * (idx % 2 ^ h.log)
    if h.mwidx = idx || !within 4 h.log 12 || h.slots % 32 != 0 || decide (2 ^ 60 ≤ h.slots) || !s.devOk pa 32 then none
    else some (idx, BitVec.ofNat 256 (s.rd pa 32))
  | _, _ => none
/-- A faulty slot is treated as ALL (R108). -/
def shootOp (x : BitVec 256) : ShootOp :=
  let op := fieldAt x 0 1
  let c := fieldAt x 2 2
  if nonzero x 1 1 || nonzero x 17 15 || 255 < c then .all
  else if op = 1 && nonzero x 4 4 then .pages c (fieldAt x 8 9 / 65536) (fieldAt x 4 4)
  else if op = 2 then .context c
  else .all

/-- Some page of 2^lg pages from vpn of a context is named. -/
def ShootOp.names (o : ShootOp) (c vpn lg : Nat) : Bool :=
  match o with
  | .pages x p n => c == x && decide (vpn < p + n) && decide (p < vpn + 2 ^ lg)
  | .context x => c == x
  | .all => true
/-- Its context, for the walk cache. -/
def ShootOp.ctx (o : ShootOp) (c : Nat) : Bool := match o with | .pages x _ _ => c == x | .context x => c == x | .all => true
/-- An access to a named page. -/
def ShootOp.acc (o : ShootOp) (a : Acc) : Bool := a.sp.isNone && a.vas.any (fun va => o.names a.ctx (va / 65536) 0)
/-- An access that was translated through an entry that the request drops: one for a named page, or a larger one that covers such a
page (R109, step 3). -/
def State.shootAcc (s : State) (o : ShootOp) (a : Acc) : Bool :=
  o.acc a || (a.sp.isNone && a.vas.any (fun va => s.tlb.any (fun t => o.names t.ctx t.vpn t.lg && t.covers a.die a.ctx (va / 65536))))

/-- Drop the translations that a request names, on every die (R109, step 2). -/
def State.dropTlb (s : State) (o : ShootOp) : State :=
  { s with tlb := s.tlb.filter (fun t => !o.names t.ctx t.vpn t.lg), walks := s.walks.filter (fun w => !o.ctx w.ctx) }
/-- Under the new entries a store may not perform at its page (R109). -/
def State.storeBad (s : State) (a : Acc) : Bool :=
  match (s.walkFrom a.ctx a.va.toNat none).1 with
  | .leaf _ e _ => !e.write
  | .bad c => c != 3
/-- A store that has not left its core is refused where its page no longer allows it (R109, R213). -/
def State.refuseStores (s : State) (o : ShootOp) : State :=
  { s with accs := s.accs.map (fun a => if o.acc a && a.posted && a.op.isWrite && s.storeBad a then { a with refused := true } else a) }
/-- Begin to serve the next slot if it asks for a request of this kind. -/
def State.shootdown (s0 : State) (p : ShootOp → Bool) : State :=
  if s0.shoot.isSome then s0
  else
    let s := s0.ringLook
    match s.shootSlot with
    | none => s
    | some (idx, x) =>
      let o := shootOp x
      if !p o then s
      else
        let s1 := (s.dropTlb o).refuseStores o
        { s1 with shoot := some { idx, accs := (s1.accs.filter (fun a => s.shootAcc o a && !a.refused)).map Acc.id } }
/-- SHOOTDOWN_PAGES (R109). -/
def execShootdownPages (s : State) : Out := .next (s.shootdown (fun o => match o with | .pages _ _ _ => true | _ => false))
/-- SHOOTDOWN_CONTEXT (R109). -/
def execShootdownContext (s : State) : Out := .next (s.shootdown (fun o => match o with | .context _ => true | _ => false))
/-- SHOOTDOWN_ALL (R108, R109). -/
def execShootdownAll (s : State) : Out := .next (s.shootdown (fun o => match o with | .all => true | _ => false))
/-- SHOOTDOWN_COMPLETE: every such access has performed or faulted (R109, steps 3 and 4). -/
def execShootdownComplete (s : State) : Out :=
  .next (match s.shoot with
    | none => s
    | some x =>
      if s.accs.any (fun a => x.accs.contains a.id && !a.refused) || !s.devOk (ringPa s) 64 then s
      else { (s.wr (ringPa s + 8) 8 (x.idx + 1)) with shoot := none })

end Sys2Proof.Machine
end

