-- ==== Sys2Proof/Machine/Tier.lean ====
section
/-!
DEFINITION. The tier engines: frames, and migrations between far and near memory (R134 to R138, R142, R143, R113).
-/

namespace Sys2Proof.Machine

/-! ## Requests and frames (R134, R137, R138) -/

/-- The engine of a die works on one page at a time. -/
def State.tierIdle (s : State) (d : Nat) : Bool := s.l2Rdy d && !s.migs.any (fun m => m.die == d)
/-- The request of a die's queue that is served next: from the head, the earliest request for the page of each, since requests for one
page perform in arrival order (R138). An eviction of a held page that is near waits for its last hold, and later requests for that page wait
behind it (R129, R137). -/
def State.tierHead (s : State) (d : Nat) : Option TierReq :=
  let q := s.tierq.filter (fun r => r.die == d && !r.waiting)
  let stuck (r : TierReq) : Bool := !r.fetch && s.held r.ctx (65536 * r.vpn) && s.pages.any (fun p => p.ctx == r.ctx && p.vpn == r.vpn && p.die == d)
  firstSome (fun r => (minBy TierReq.id (q.filter (fun x => x.ctx == r.ctx && x.vpn == r.vpn))).bind (fun x => if stuck x then none else some x)) q
/-- The free frame of a die's pool that a fetch takes (R134). DESIGN CHOICE: the lowest (log 138). -/
def State.freeFrame (s : State) (d : Nat) : Option Nat :=
  let p := s.host.pools.getD d {}
  let used := s.pages.map PoolPage.frame ++ s.badFrames ++ s.migs.flatMap (fun m => [m.src, m.dst])
  ((List.range (min p.frames (used.length + 1))).find? (fun k => !used.contains (p.framepa + 65536 * k))).map (fun k => p.framepa + 65536 * k)
/-- The page that makes room: under no HOLD, clean before written, the earliest landed first (R137). -/
def State.victim (s : State) (d : Nat) : Option PoolPage :=
  minBy (fun p => b2n p.written * 2 ^ 64 + p.landedAt) (s.pages.filter (fun p => p.die == d && !s.held p.ctx (65536 * p.vpn)))
/-- A page has landed, or nothing that was asked for will bring it: a STALL waits for it no more, in a saved team neither (R132, R141, R142). -/
def State.settlePage (s : State) (c vpn : Nat) : State :=
  { s with waves := s.waves.map (fun w =>
      if (s.teamOf w).ctx == c then { w with settled := w.settled ++ w.stall.filter (fun p => p.2 / 65536 == vpn && !w.settled.contains p) } else w) }
/-- A fetch is dropped: for a STALL its page is unfetchable (R137). -/
def State.dropFetch (s : State) (r : TierReq) : State := if r.stall then (s.tierDrop r).settlePage r.ctx r.vpn else s.tierDrop r
/-- Start to move a page: its writes are held back from now on (R136, step 1). -/
def State.migrate (s : State) (d c vpn leafPa : Nat) (leaf : Pte) (src dst : Nat) (fetch : Bool) : State :=
  { s with migs := s.migs ++ [{ id := s.fresh, die := d, ctx := c, vpn, leafPa, leaf, src, dst, fetch }], fresh := s.fresh + 1 }
/-- The leaf of a page of the pool still names its frame. -/
def State.leafNames (s : State) (leafPa frame : Nat) : Bool :=
  let leaf : Pte := BitVec.ofNat 64 (s.rd leafPa 8)
  leaf.valid && leaf.pa == frame
/-- Start to evict a page of the pool; a frame that its leaf no longer names is free at once (R136). -/
def State.evictPage (s : State) (p : PoolPage) : State :=
  if s.leafNames p.leafPa p.frame then s.migrate p.die p.ctx p.vpn p.leafPa (BitVec.ofNat 64 (s.rd p.leafPa 8)) p.frame p.back false
  else { s with pages := s.pages.filter (fun x => x.frame != p.frame) }
/-- Both ends of a move are ready (R20). -/
def State.moveReady (s : State) (src dst : Nat) : Bool := s.memRdy none false src && s.memRdy none false dst

/-- TIER_FETCH_START on die n: the next request is a fetch; it moves, is dropped, or first makes room (R136, R137). -/
def execTierFetchStart (s : State) : Out :=
  .next (
    let d := s.occ.n
    match s.tierHead d with
    | none => s
    | some r =>
      if !s.tierIdle d || !r.fetch then s
      else
        match s.movable r.ctx (65536 * r.vpn) with
        | none => s.dropFetch r
        | some (leaf, epa, die) =>
          if paKind leaf.pa = 0 || die != d || !s.tierWorks d then s.dropFetch r
          else
            match s.freeFrame d with
            | some f => if s.moveReady leaf.pa f then (s.tierDrop r).migrate d r.ctx r.vpn epa leaf leaf.pa f true else s
            | none =>
              match s.victim d with
              | some p => if s.moveReady p.frame p.back then s.evictPage p else s
              | none => s.dropFetch r)
/-- TIER_EVICT_START on die n: the next request is an eviction (R136). -/
def execTierEvictStart (s : State) : Out :=
  .next (
    let d := s.occ.n
    match s.tierHead d with
    | none => s
    | some r =>
      if !s.tierIdle d || r.fetch then s
      else
        match s.pages.find? (fun p => p.ctx == r.ctx && p.vpn == r.vpn && p.die == d) with
        | none => s.tierDrop r
        | some p => if s.moveReady p.frame p.back then (s.tierDrop r).evictPage p else s)

/-! ## Landing (R136, R113) -/

/-- 64 KiB of memory at dst become those at src. -/
def copyPage (m : List Host.Cell) (src dst : Nat) : List Host.Cell :=
  let from' := m.filter (fun c => decide (src ≤ c.1) && decide (c.1 < src + 65536))
  from'.foldl (fun m c => putByte m (dst + (c.1 - src)) c.2) (m.filter (fun c => !(decide (dst ≤ c.1) && decide (c.1 < dst + 65536))))
/-- An address within the page that moves goes with it. -/
def moved (src dst a : Nat) : Nat := if a / 65536 = src / 65536 then dst + a % 65536 else a
/-- An access that has still to perform follows its page; an estimator operation with its second cell. -/
def Acc.follow (a : Acc) (src dst : Nat) : Acc :=
  if a.sp.isSome then a
  else { a with addr := moved src dst a.addr, data := if a.op.isEst then BitVec.ofNat 128 (moved src dst a.data.toNat) else a.data }
/-- What a write happens before follows the page too, and the write itself. -/
def Reach.follow (x : Reach) (src dst : Nat) : Reach :=
  match x with
  | .made a => .made (a.follow src dst)
  | .here me pa n => .here me (moved src dst pa) n
  | .sync (.slot pa) => .sync (.slot (moved src dst pa))
  | x => x
def Unshown.follow (w : Unshown) (src dst : Nat) : Unshown :=
  if w.sp.isSome then { w with facts := w.facts.map (fun f => { f with reach := f.reach.follow src dst }) }
  else { w with addr := moved src dst w.addr, facts := w.facts.map (fun f => { f with reach := f.reach.follow src dst }) }
/-- The leaf still holds what the engine read: it names the new home, the page's translations go, its locks are
released, and what was held back goes on there (R136, steps 3 and 4). -/
def State.remap (s : State) (m : Migration) : State :=
  let page (line : Nat) (pa : Nat) : Bool := 128 * line / 65536 == pa / 65536
  let s1 := s.wr m.leafPa 8 ((m.leaf &&& ~~~(0xFFFFFFFFFFF#64 <<< 16)) ||| BitVec.ofNat 64 (m.dst / 65536 * 65536)).toNat
  let s2 := (s1.byEngine 2 s.writes).dropTlb (.pages m.ctx m.vpn 1)
  { s2 with
    locks := s2.locks.filter (fun k => !page k.line m.src)
    copies := s2.copies.filter (fun k => !page k.line m.src && !page k.line m.dst)
    l2 := s2.l2.filter (fun x => !page x m.src && !page x m.dst)
    pushers := s2.pushers.foldl (fun t x => Tab.put t (moved m.src m.dst x.1) x.2) []
    wrote := s2.wrote.map (fun w => w.follow m.src m.dst)
    accs := s2.accs.map (fun a => a.follow m.src m.dst) }
/-- The migration ends. -/
def State.endMig (s : State) (m : Migration) : State := { s with migs := s.migs.filter (fun x => x.id != m.id) }
/-- The leaf still holds the value read at step 1. -/
def State.leafKept (s : State) (m : Migration) : Bool := s.rd m.leafPa 8 == m.leaf.toNat
/-- The migration is abandoned (R136, R142). -/
def State.dropMig (s : State) (m : Migration) : State := (s.endMig m).settlePage m.ctx m.vpn
/-- TIER_FETCH_LAND of migration n (R136). -/
def execTierFetchLand (s : State) : Out :=
  .next (match s.migs.find? (fun m => m.id == s.occ.n) with
    | none => s
    | some m =>
      if !m.fetch then s
      else if !s.leafKept m then s.dropMig m
      else
        let s1 := (({ s with mem := copyPage s.mem m.src m.dst } : State).remap m).endMig m
        ({ s1 with pages := s1.pages ++ [{ die := m.die, frame := m.dst, back := m.src, ctx := m.ctx, vpn := m.vpn, leafPa := m.leafPa, landedAt := s.cycle }] } : State).settlePage
          m.ctx m.vpn)
/-- TIER_EVICT_LAND of migration n: a clean frame is not copied, and the frame is free; one that is abandoned leaves the page where its leaf still
names it (R136). -/
def execTierEvictLand (s : State) : Out :=
  .next (match s.migs.find? (fun m => m.id == s.occ.n) with
    | none => s
    | some m =>
      if m.fetch then s
      else
        let written := s.pages.any (fun p => p.frame == m.src && p.written)
        let s1 : State := if !s.leafKept m then s.dropMig m
          else (({ s with mem := if written then copyPage s.mem m.src m.dst else s.mem } : State).remap m).endMig m
        if !s.leafKept m && s.leafNames m.leafPa m.src then s1
        else { s1 with pages := s1.pages.filter (fun p => p.frame != m.src) })
/-- TIER_COPY_ERROR in migration n: it is abandoned, its frame is not used again, and a machine check names it (R142). -/
def execTierCopyError (s : State) : Out :=
  .next (match s.migs.find? (fun m => m.id == s.occ.n) with
    | none => s
    | some m =>
      let frame := if m.fetch then m.dst else m.src
      ({ (s.dropMig m) with badFrames := frame :: s.badFrames } : State).machineCheck m.ctx 0xFFFF 0 3 frame)

end Sys2Proof.Machine
end

