-- ==== Sys2Proof/Machine/Dispatch.lean ====
section
/-!
DEFINITION. What each instruction and each step of the device means: one arm to a constructor.
-/

namespace Sys2Proof.Machine

def exec (i : Instr) (s : State) : Host.Outcome State Fault Refusal :=
  match i with
  | .iadd d a b e f g => Sys2Proof.Machine.execIadd d a b e f g s
  | .isub d a b e f g => Sys2Proof.Machine.execIsub d a b e f g s
  | .imul d a b e f g => Sys2Proof.Machine.execImul d a b e f g s
  | .imulhI d a b e f g => Sys2Proof.Machine.execImulhI d a b e f g s
  | .imulhN d a b e f g => Sys2Proof.Machine.execImulhN d a b e f g s
  | .iminI d a b e f g => Sys2Proof.Machine.execIminI d a b e f g s
  | .imaxI d a b e f g => Sys2Proof.Machine.execImaxI d a b e f g s
  | .iminN d a b e f g => Sys2Proof.Machine.execIminN d a b e f g s
  | .imaxN d a b e f g => Sys2Proof.Machine.execImaxN d a b e f g s
  | .and d a b e f g => Sys2Proof.Machine.execAnd d a b e f g s
  | .or d a b e f g => Sys2Proof.Machine.execOr d a b e f g s
  | .xor d a b e f g => Sys2Proof.Machine.execXor d a b e f g s
  | .shl d a b e f g => Sys2Proof.Machine.execShl d a b e f g s
  | .shrN d a b e f g => Sys2Proof.Machine.execShrN d a b e f g s
  | .shrI d a b e f g => Sys2Proof.Machine.execShrI d a b e f g s
  | .rotl d a b e f g => Sys2Proof.Machine.execRotl d a b e f g s
  | .imac d a b e f g => Sys2Proof.Machine.execImac d a b e f g s
  | .iaddi d a e imm => Sys2Proof.Machine.execIaddi d a e imm s
  | .imuli d a e imm => Sys2Proof.Machine.execImuli d a e imm s
  | .andi d a e imm => Sys2Proof.Machine.execAndi d a e imm s
  | .ori d a e imm => Sys2Proof.Machine.execOri d a e imm s
  | .xori d a e imm => Sys2Proof.Machine.execXori d a e imm s
  | .shli d a e imm => Sys2Proof.Machine.execShli d a e imm s
  | .shriN d a e imm => Sys2Proof.Machine.execShriN d a e imm s
  | .shriI d a e imm => Sys2Proof.Machine.execShriI d a e imm s
  | .movi d imm => Sys2Proof.Machine.execMovi d imm s
  | .mov d a e g => Sys2Proof.Machine.execMov d a e g s
  | .ineg d a e g => Sys2Proof.Machine.execIneg d a e g s
  | .iabs d a e g => Sys2Proof.Machine.execIabs d a e g s
  | .not d a e g => Sys2Proof.Machine.execNot d a e g s
  | .popc d a e g => Sys2Proof.Machine.execPopc d a e g s
  | .clz d a e g => Sys2Proof.Machine.execClz d a e g s
  | .ctz d a e g => Sys2Proof.Machine.execCtz d a e g s
  | .brev d a e g => Sys2Proof.Machine.execBrev d a e g s
  | .bswap d a e g => Sys2Proof.Machine.execBswap d a e g s
  | .sext8 d a e g => Sys2Proof.Machine.execSext8 d a e g s
  | .sext16 d a e g => Sys2Proof.Machine.execSext16 d a e g s
  | .zext8 d a e g => Sys2Proof.Machine.execZext8 d a e g s
  | .zext16 d a e g => Sys2Proof.Machine.execZext16 d a e g s
  | .bfe d a b e f g => Sys2Proof.Machine.execBfe d a b e f g s
  | .bfi d a b e f g => Sys2Proof.Machine.execBfi d a b e f g s
  | .prmt d a b e f g => Sys2Proof.Machine.execPrmt d a b e f g s
  | .sel d a b e f g => Sys2Proof.Machine.execSel d a b e f g s
  | .fadd d a b e f g => Sys2Proof.Machine.execFadd d a b e f g s
  | .fsub d a b e f g => Sys2Proof.Machine.execFsub d a b e f g s
  | .fmul d a b e f g => Sys2Proof.Machine.execFmul d a b e f g s
  | .fmac d a b e f g => Sys2Proof.Machine.execFmac d a b e f g s
  | .fmin d a b e f g => Sys2Proof.Machine.execFmin d a b e f g s
  | .fmax d a b e f g => Sys2Proof.Machine.execFmax d a b e f g s
  | .fneg d a e g => Sys2Proof.Machine.execFneg d a e g s
  | .fabs d a e g => Sys2Proof.Machine.execFabs d a e g s
  | .frndn d a e g => Sys2Proof.Machine.execFrndn d a e g s
  | .frndz d a e g => Sys2Proof.Machine.execFrndz d a e g s
  | .frndd d a e g => Sys2Proof.Machine.execFrndd d a e g s
  | .frndu d a e g => Sys2Proof.Machine.execFrndu d a e g s
  | .ffrac d a e g => Sys2Proof.Machine.execFfrac d a e g s
  | .fclass d a e g => Sys2Proof.Machine.execFclass d a e g s
  | .fsat d a e g => Sys2Proof.Machine.execFsat d a e g s
  | .fscale d a b e f g => Sys2Proof.Machine.execFscale d a b e f g s
  | .hadd2F16 d a b e f g => Sys2Proof.Machine.execHadd2F16 d a b e f g s
  | .hmul2F16 d a b e f g => Sys2Proof.Machine.execHmul2F16 d a b e f g s
  | .hmac2F16 d a b e f g => Sys2Proof.Machine.execHmac2F16 d a b e f g s
  | .hmin2F16 d a b e f g => Sys2Proof.Machine.execHmin2F16 d a b e f g s
  | .hmax2F16 d a b e f g => Sys2Proof.Machine.execHmax2F16 d a b e f g s
  | .hadd2Bf16 d a b e f g => Sys2Proof.Machine.execHadd2Bf16 d a b e f g s
  | .hmul2Bf16 d a b e f g => Sys2Proof.Machine.execHmul2Bf16 d a b e f g s
  | .hmac2Bf16 d a b e f g => Sys2Proof.Machine.execHmac2Bf16 d a b e f g s
  | .hmin2Bf16 d a b e f g => Sys2Proof.Machine.execHmin2Bf16 d a b e f g s
  | .hmax2Bf16 d a b e f g => Sys2Proof.Machine.execHmax2Bf16 d a b e f g s
  | .rcp d a e g => Sys2Proof.Machine.execRcp d a e g s
  | .rsq d a e g => Sys2Proof.Machine.execRsq d a e g s
  | .sqrt d a e g => Sys2Proof.Machine.execSqrt d a e g s
  | .exp2 d a e g => Sys2Proof.Machine.execExp2 d a e g s
  | .log2 d a e g => Sys2Proof.Machine.execLog2 d a e g s
  | .sint d a e g => Sys2Proof.Machine.execSint d a e g s
  | .cost d a e g => Sys2Proof.Machine.execCost d a e g s
  | .tanh d a e g => Sys2Proof.Machine.execTanh d a e g s
  | .rcph2 d a e g => Sys2Proof.Machine.execRcph2 d a e g s
  | .exph2 d a e g => Sys2Proof.Machine.execExph2 d a e g s
  | .i2f d a e g => Sys2Proof.Machine.execI2f d a e g s
  | .n2f d a e g => Sys2Proof.Machine.execN2f d a e g s
  | .f2in d a e g => Sys2Proof.Machine.execF2in d a e g s
  | .f2iz d a e g => Sys2Proof.Machine.execF2iz d a e g s
  | .f2id d a e g => Sys2Proof.Machine.execF2id d a e g s
  | .f2iu d a e g => Sys2Proof.Machine.execF2iu d a e g s
  | .f2nn d a e g => Sys2Proof.Machine.execF2nn d a e g s
  | .f2nz d a e g => Sys2Proof.Machine.execF2nz d a e g s
  | .h2fl d a e g => Sys2Proof.Machine.execH2fl d a e g s
  | .h2fh d a e g => Sys2Proof.Machine.execH2fh d a e g s
  | .b2fl d a e g => Sys2Proof.Machine.execB2fl d a e g s
  | .b2fh d a e g => Sys2Proof.Machine.execB2fh d a e g s
  | .f2h d a e g => Sys2Proof.Machine.execF2h d a e g s
  | .f2b d a e g => Sys2Proof.Machine.execF2b d a e g s
  | .cvtpF16 d a b e f g => Sys2Proof.Machine.execCvtpF16 d a b e f g s
  | .cvtpBf16 d a b e f g => Sys2Proof.Machine.execCvtpBf16 d a b e f g s
  | .cvtq d a b e f g => Sys2Proof.Machine.execCvtq d a b e f g s
  | .cvtx d a c e g => Sys2Proof.Machine.execCvtx d a c e g s
  | .icmpI p a b c => Sys2Proof.Machine.execIcmpI p a b c s
  | .icmpN p a b c => Sys2Proof.Machine.execIcmpN p a b c s
  | .fcmp p a b c => Sys2Proof.Machine.execFcmp p a b c s
  | .hcmp2 p a b c => Sys2Proof.Machine.execHcmp2 p a b c s
  | .plog d a b t => Sys2Proof.Machine.execPlog d a b t s
  | .v2p d a e g => Sys2Proof.Machine.execV2p d a e g s
  | .p2v d a e g => Sys2Proof.Machine.execP2v d a e g s
  | .prd d g => Sys2Proof.Machine.execPrd d g s
  | .pwr a e g => Sys2Proof.Machine.execPwr a e g s
  | .all d a e g => Sys2Proof.Machine.execAll d a e g s
  | .any d a e g => Sys2Proof.Machine.execAny d a e g s
  | .ballot d a e g => Sys2Proof.Machine.execBallot d a e g s
  | .matchLanes d a e g => Sys2Proof.Machine.execMatchLanes d a e g s
  | .lcount d g => Sys2Proof.Machine.execLcount d g s
  | .shflIdx d a b e f g => Sys2Proof.Machine.execShflIdx d a b e f g s
  | .shflXor d a b e f g => Sys2Proof.Machine.execShflXor d a b e f g s
  | .shflXw d a b e f g => Sys2Proof.Machine.execShflXw d a b e f g s
  | .reduce d a c e g => Sys2Proof.Machine.execReduce d a c e g s
  | .scan d a c e g => Sys2Proof.Machine.execScan d a c e g s
  | .bra z => Sys2Proof.Machine.execBra z s
  | .brp p n z => Sys2Proof.Machine.execBrp p n z s
  | .call z => Sys2Proof.Machine.execCall z s
  | .jmpi a e g => Sys2Proof.Machine.execJmpi a e g s
  | .ret e g => Sys2Proof.Machine.execRet e g s
  | .exit => Sys2Proof.Machine.execExit s
  | .wsync => Sys2Proof.Machine.execWsync s
  | .barSync b => Sys2Proof.Machine.execBarSync b s
  | .barArrive b => Sys2Proof.Machine.execBarArrive b s
  | .barWait b => Sys2Proof.Machine.execBarWait b s
  | .barCsync => Sys2Proof.Machine.execBarCsync s
  | .nop => Sys2Proof.Machine.execNop s
  | .yield => Sys2Proof.Machine.execYield s
  | .sleep a => Sys2Proof.Machine.execSleep a s
  | .ld t a r o z g => Sys2Proof.Machine.execLd t a r o z g s
  | .st t a r o z g => Sys2Proof.Machine.execSt t a r o z g s
  | .lds t a r o z g => Sys2Proof.Machine.execLds t a r o z g s
  | .sts t a r o z g => Sys2Proof.Machine.execSts t a r o z g s
  | .ldfe t a r o z g => Sys2Proof.Machine.execLdfe t a r o z g s
  | .stfe t a r o z g => Sys2Proof.Machine.execStfe t a r o z g s
  | .atom t a r o c z => Sys2Proof.Machine.execAtom t a r o c z s
  | .red t a r o c z => Sys2Proof.Machine.execRed t a r o c z s
  | .atoms t a r o c z => Sys2Proof.Machine.execAtoms t a r o c z s
  | .cstore t a r o z g => Sys2Proof.Machine.execCstore t a r o z g s
  | .fence k z => Sys2Proof.Machine.execFence k z s
  | .xfence d m => Sys2Proof.Machine.execXfence d m s
  | .lock t a r g => Sys2Proof.Machine.execLock t a r g s
  | .unlock t a r g => Sys2Proof.Machine.execUnlock t a r g s
  | .pref t a r z g => Sys2Proof.Machine.execPref t a r z g s
  | .est x imm r => Sys2Proof.Machine.execEst x imm r s
  | .eld x imm r => Sys2Proof.Machine.execEld x imm r s
  | .emrg imm r => Sys2Proof.Machine.execEmrg imm r s
  | .eclr imm r => Sys2Proof.Machine.execEclr imm r s
  | .esweep imm r => Sys2Proof.Machine.execEsweep imm r s
  | .escene r => Sys2Proof.Machine.execEscene r s
  | .eraw imm r => Sys2Proof.Machine.execEraw imm r s
  | .einit imm r => Sys2Proof.Machine.execEinit imm r s
  | .qpush d a n => Sys2Proof.Machine.execQpush d a n s
  | .rwait a n => Sys2Proof.Machine.execRwait a n s
  | .rrel a n => Sys2Proof.Machine.execRrel a n s
  | .launch d a n => Sys2Proof.Machine.execLaunch d a n s
  | .ordwait d n => Sys2Proof.Machine.execOrdwait d n s
  | .ordtake n => Sys2Proof.Machine.execOrdtake n s
  | .markImm k => Sys2Proof.Machine.execMarkImm k s
  | .markReg a => Sys2Proof.Machine.execMarkReg a s
  | .cont d o => Sys2Proof.Machine.execCont d o s
  | .trav d a n => Sys2Proof.Machine.execTrav d a n s
  | .tnew d a m n => Sys2Proof.Machine.execTnew d a m n s
  | .tcut d a n => Sys2Proof.Machine.execTcut d a n s
  | .tret a => Sys2Proof.Machine.execTret a s
  | .tfrd d a w => Sys2Proof.Machine.execTfrd d a w s
  | .tfwr d a w => Sys2Proof.Machine.execTfwr d a w s
  | .tstat d a n => Sys2Proof.Machine.execTstat d a n s
  | .mma d f a b z => Sys2Proof.Machine.execMma d f a b z s
  | .mclaim d n h => Sys2Proof.Machine.execMclaim d n h s
  | .mrel n h => Sys2Proof.Machine.execMrel n h s
  | .mzero n h => Sys2Proof.Machine.execMzero n h s
  | .mrow a h => Sys2Proof.Machine.execMrow a h s
  | .mread d h => Sys2Proof.Machine.execMread d h s
  | .mld h a r z g => Sys2Proof.Machine.execMld h a r z g s
  | .msets a => Sys2Proof.Machine.execMsets a s
  | .hadq d a b e f g => Sys2Proof.Machine.execHadq d a b e f g s
  | .mcbt a r g => Sys2Proof.Machine.execMcbt a r g s
  | .march d a b e f g => Sys2Proof.Machine.execMarch d a b e f g s
  | .hgrid d a b e f g => Sys2Proof.Machine.execHgrid d a b e f g s
  | .idot4 d a e g => Sys2Proof.Machine.execIdot4 d a e g s
  | .ndot4 d a e g => Sys2Proof.Machine.execNdot4 d a e g s
  | .idot8 d a e g => Sys2Proof.Machine.execIdot8 d a e g s
  | .idist4 d a e g => Sys2Proof.Machine.execIdist4 d a e g s
  | .fdot4e4 d a e g => Sys2Proof.Machine.execFdot4e4 d a e g s
  | .fdot4e5 d a e g => Sys2Proof.Machine.execFdot4e5 d a e g s
  | .hdot2 d a e g => Sys2Proof.Machine.execHdot2 d a e g s
  | .kinit a y k => Sys2Proof.Machine.execKinit a y k s
  | .kins d a => Sys2Proof.Machine.execKins d a s
  | .kmrg d a => Sys2Proof.Machine.execKmrg d a s
  | .krd d a => Sys2Proof.Machine.execKrd d a s
  | .srd d z => Sys2Proof.Machine.execSrd d z s
  | .swr a z => Sys2Proof.Machine.execSwr a z s
  | .trapAssert a n => Sys2Proof.Machine.execTrapAssert a n s
  | .trapUser a => Sys2Proof.Machine.execTrapUser a s
  | .bkpt => Sys2Proof.Machine.execBkpt s
  | .rft => Sys2Proof.Machine.execRft s
  | .savew a n => Sys2Proof.Machine.execSavew a n s
  | .restw a n => Sys2Proof.Machine.execRestw a n s
  | .ipref a c => Sys2Proof.Machine.execIpref a c s
  | .bset a n => Sys2Proof.Machine.execBset a n s
  | .bget d n => Sys2Proof.Machine.execBget d n s
  | .sched p => Sys2Proof.Machine.execSched p s
  | .ximm p => Sys2Proof.Machine.execXimm p s
  | .xsrc k v => Sys2Proof.Machine.execXsrc k v s
  | .xmod t e w z c h f a m => Sys2Proof.Machine.execXmod t e w z c h f a m s
  | .pred p n => Sys2Proof.Machine.execPred p n s
  | .reset => Sys2Proof.Machine.execReset s
  | .functionReady => Sys2Proof.Machine.execFunctionReady s
  | .portDown => Sys2Proof.Machine.execPortDown s
  | .portUp => Sys2Proof.Machine.execPortUp s
  | .tc0Demotion => Sys2Proof.Machine.execTc0Demotion s
  | .dvfsChange => Sys2Proof.Machine.execDvfsChange s
  | .powercapWrite => Sys2Proof.Machine.execPowercapWrite s
  | .registerWrite => Sys2Proof.Machine.execRegisterWrite s
  | .ctxtabWrite => Sys2Proof.Machine.execCtxtabWrite s
  | .bar2Read => Sys2Proof.Machine.execBar2Read s
  | .bar2Write => Sys2Proof.Machine.execBar2Write s
  | .bar2statWrite => Sys2Proof.Machine.execBar2statWrite s
  | .hostAtomic => Sys2Proof.Machine.execHostAtomic s
  | .contextEnable => Sys2Proof.Machine.execContextEnable s
  | .contextRecheck => Sys2Proof.Machine.execContextRecheck s
  | .contextDisable => Sys2Proof.Machine.execContextDisable s
  | .ctxstatWrite => Sys2Proof.Machine.execCtxstatWrite s
  | .cntreinitWrite => Sys2Proof.Machine.execCntreinitWrite s
  | .queueEnable => Sys2Proof.Machine.execQueueEnable s
  | .queueDisable => Sys2Proof.Machine.execQueueDisable s
  | .queueRestart => Sys2Proof.Machine.execQueueRestart s
  | .queueSkip => Sys2Proof.Machine.execQueueSkip s
  | .faultackRetry => Sys2Proof.Machine.execFaultackRetry s
  | .faultackUnresolvable => Sys2Proof.Machine.execFaultackUnresolvable s
  | .jobPacket => Sys2Proof.Machine.execJobPacket s
  | .gridPacket => Sys2Proof.Machine.execGridPacket s
  | .copyPacket => Sys2Proof.Machine.execCopyPacket s
  | .traversePacket => Sys2Proof.Machine.execTraversePacket s
  | .waitcntPacket => Sys2Proof.Machine.execWaitcntPacket s
  | .signalPacket => Sys2Proof.Machine.execSignalPacket s
  | .timebindPacket => Sys2Proof.Machine.execTimebindPacket s
  | .nopPacket => Sys2Proof.Machine.execNopPacket s
  | .illegalPacketKind => Sys2Proof.Machine.execIllegalPacketKind s
  | .packetWaitMet => Sys2Proof.Machine.execPacketWaitMet s
  | .packetCompletion => Sys2Proof.Machine.execPacketCompletion s
  | .completionRingSpace => Sys2Proof.Machine.execCompletionRingSpace s
  | .eventRingSpace => Sys2Proof.Machine.execEventRingSpace s
  | .faultRingSpace => Sys2Proof.Machine.execFaultRingSpace s
  | .counterPoison => Sys2Proof.Machine.execCounterPoison s
  | .monitorSramError => Sys2Proof.Machine.execMonitorSramError s
  | .estreqBatchCount => Sys2Proof.Machine.execEstreqBatchCount s
  | .estreqBatchTimeout => Sys2Proof.Machine.execEstreqBatchTimeout s
  | .jobDeal => Sys2Proof.Machine.execJobDeal s
  | .gridDeal => Sys2Proof.Machine.execGridDeal s
  | .teamRestore => Sys2Proof.Machine.execTeamRestore s
  | .teamRetire => Sys2Proof.Machine.execTeamRetire s
  | .gridRetire => Sys2Proof.Machine.execGridRetire s
  | .preemptTimeout => Sys2Proof.Machine.execPreemptTimeout s
  | .timeSliceExpiry => Sys2Proof.Machine.execTimeSliceExpiry s
  | .teamSaveComplete => Sys2Proof.Machine.execTeamSaveComplete s
  | .teamFlushComplete => Sys2Proof.Machine.execTeamFlushComplete s
  | .caddyArrival => Sys2Proof.Machine.execCaddyArrival s
  | .caddyPartialTimeout => Sys2Proof.Machine.execCaddyPartialTimeout s
  | .caddyDrain => Sys2Proof.Machine.execCaddyDrain s
  | .caddyWavePlace => Sys2Proof.Machine.execCaddyWavePlace s
  | .pageWalkComplete => Sys2Proof.Machine.execPageWalkComplete s
  | .accessPerform => Sys2Proof.Machine.execAccessPerform s
  | .resultLand => Sys2Proof.Machine.execResultLand s
  | .shootdownPages => Sys2Proof.Machine.execShootdownPages s
  | .shootdownContext => Sys2Proof.Machine.execShootdownContext s
  | .shootdownAll => Sys2Proof.Machine.execShootdownAll s
  | .shootdownComplete => Sys2Proof.Machine.execShootdownComplete s
  | .tierFetchStart => Sys2Proof.Machine.execTierFetchStart s
  | .tierFetchLand => Sys2Proof.Machine.execTierFetchLand s
  | .tierEvictStart => Sys2Proof.Machine.execTierEvictStart s
  | .tierEvictLand => Sys2Proof.Machine.execTierEvictLand s
  | .tierCopyError => Sys2Proof.Machine.execTierCopyError s
  | .esuEst => Sys2Proof.Machine.execEsuEst s
  | .esuEld => Sys2Proof.Machine.execEsuEld s
  | .esuEmrg => Sys2Proof.Machine.execEsuEmrg s
  | .esuEclr => Sys2Proof.Machine.execEsuEclr s
  | .esuEsweep => Sys2Proof.Machine.execEsuEsweep s
  | .esuEraw => Sys2Proof.Machine.execEsuEraw s
  | .esuEinit => Sys2Proof.Machine.execEsuEinit s
  | .esuGenInForce => Sys2Proof.Machine.execEsuGenInForce s
  | .esuAppendResume => Sys2Proof.Machine.execEsuAppendResume s
  | .stackTake => Sys2Proof.Machine.execStackTake s
  | .walkStep => Sys2Proof.Machine.execWalkStep s
  | .nodeFetchComplete => Sys2Proof.Machine.execNodeFetchComplete s
  | .routineWaveForm => Sys2Proof.Machine.execRoutineWaveForm s
  | .routineDecision => Sys2Proof.Machine.execRoutineDecision s
  | .joinZero => Sys2Proof.Machine.execJoinZero s
  | .walkFinish => Sys2Proof.Machine.execWalkFinish s
  | .quiescentPoint => Sys2Proof.Machine.execQuiescentPoint s
  | .trapWindowTimeout => Sys2Proof.Machine.execTrapWindowTimeout s
  | .handlerEntry => Sys2Proof.Machine.execHandlerEntry s
  | .wsyncRelease => Sys2Proof.Machine.execWsyncRelease s
  | .barrierPhaseComplete => Sys2Proof.Machine.execBarrierPhaseComplete s
  | .ldfeUnblock => Sys2Proof.Machine.execLdfeUnblock s
  | .stfeUnblock => Sys2Proof.Machine.execStfeUnblock s
  | .ordwaitRelease => Sys2Proof.Machine.execOrdwaitRelease s
  | .rwaitRelease => Sys2Proof.Machine.execRwaitRelease s
  | .topkLockRelease => Sys2Proof.Machine.execTopkLockRelease s
  | .sleepExpiry => Sys2Proof.Machine.execSleepExpiry s
  | .markStallEnd => Sys2Proof.Machine.execMarkStallEnd s
  | .breakpointMatch => Sys2Proof.Machine.execBreakpointMatch s
  | .ssmodeRecord => Sys2Proof.Machine.execSsmodeRecord s
  | .ssmodeReplay => Sys2Proof.Machine.execSsmodeReplay s
  | .ssmodeOff => Sys2Proof.Machine.execSsmodeOff s
  | .debugConfigUpdate => Sys2Proof.Machine.execDebugConfigUpdate s
  | .stallSample => Sys2Proof.Machine.execStallSample s
  | .energyInterval => Sys2Proof.Machine.execEnergyInterval s
  | .replayDivergeTimeout => Sys2Proof.Machine.execReplayDivergeTimeout s
  | .replayDivergeStale => Sys2Proof.Machine.execReplayDivergeStale s
  | .replayLogMatch => Sys2Proof.Machine.execReplayLogMatch s
  | .scoresheetLogSpace => Sys2Proof.Machine.execScoresheetLogSpace s
  | .dbgHaltCtx => Sys2Proof.Machine.execDbgHaltCtx s
  | .dbgResume => Sys2Proof.Machine.execDbgResume s
  | .dbgStep => Sys2Proof.Machine.execDbgStep s
  | .dbgResumeAll => Sys2Proof.Machine.execDbgResumeAll s
  | .dbgDump => Sys2Proof.Machine.execDbgDump s
  | .dbgDumpWrite => Sys2Proof.Machine.execDbgDumpWrite s
  | .dbgBadCommand => Sys2Proof.Machine.execDbgBadCommand s
  | .illegalInstruction => Sys2Proof.Machine.execIllegalInstruction s
  | .instructionFetchFault => Sys2Proof.Machine.execInstructionFetchFault s
  | .matrixUnitFree => Sys2Proof.Machine.execMatrixUnitFree s
  | .portRetrain => Sys2Proof.Machine.execPortRetrain s
  | .replayDivergeUnknownKind => Sys2Proof.Machine.execReplayDivergeUnknownKind s

end Sys2Proof.Machine
end

