-- ==== Sys2Proof/Machine/Sequence.lean ====
section
/-!
DEFINITION. Which step the device makes next: the issue of one wave (R81, R198), the order in which the device's own events
come where the manual leaves it open (log 7), and the clock (R5, R23, R217).
-/

namespace Sys2Proof.Machine

/-! ## Issue (R81, R198, R246) -/

/-- What a wave does when its quadrant turns to it: its comparators first, then the fetch, then the instruction. -/
inductive Turn where
  /-- This step is made, for these occurrence numbers. -/
  | event (i : Instr) (o : Occ)
  /-- This word issues. -/
  | word (w : Word)
  /-- The wave waits for this page of code. -/
  | walk (page : Nat)
  /-- Nothing of the wave can issue. -/
  | none
deriving DecidableEq, Repr
def State.turn (s : State) (uid : Nat) : Turn :=
  match s.activeWave? uid with
  | Option.none => .none
  | some w =>
    if w.minSet = [] then .none
    else if s.breakLanes w != [] then .event .breakpointMatch { n := uid }
    else
      match s.fetch w with
      | .word x => .word x
      | .need page => .walk page
      | .stop _ _ => .event .instructionFetchFault { n := uid }
/-- The instruction that a word is, or the step for a word that is none (R288). -/
def instrOf (x : Word) : Instr := match decode x with | .ok i => i | .error _ => .illegalInstruction
/-- The wave and the word that issue. -/
def State.issuing (s : State) (uid : Nat) (x : Word) : State := { s with cur := some uid, ir := x }
/-- A wave that did not issue is not asked again in this cycle. -/
def State.giveTurn (s : State) (uid : Nat) : State := { s with tried := if s.tried.contains uid then s.tried else uid :: s.tried }
/-- The turn of a wave. -/
def State.issueWave (s : State) (uid : Nat) : Out :=
  match s.turn uid with
  | .word x => exec (instrOf x) (s.issuing uid x)
  | .event i o => exec i { (s.giveTurn uid) with occ := o }
  | .walk page =>
    match s.wave? uid with
    | some w => .next ((s.askWalk (s.teamOf w).die (s.teamOf w).ctx page uid).giveTurn uid)
    | none => .next (s.giveTurn uid)
  | .none => .next (s.giveTurn uid)

/-- Idle count of a wave: the cycles of its die in which it has not issued since its last issue (R81). -/
def State.idle (s : State) (w : Wave) : Nat := s.dieCycle (s.teamOf w).die - (if w.issLanes = 0 then w.placedAt else w.lastIssue + 1)
/-- Where a wave stands in its quadrant's choice: waves idle for 32 cycles first, then the one told once more, then the others,
last one that yields; among these the one placed earliest, then the lowest slot (R81, R286). -/
def State.choiceKey (s : State) (w : Wave) : Nat :=
  let fresh := w.schedAt + 1 == s.dieCycle (s.teamOf w).die
  let rank := if 32 ≤ s.idle w then 0 else if fresh && w.sched == 2 then 1 else if fresh && w.sched == 1 then 3 else 2
  (rank * 2 ^ 64 + w.placedAt) * 64 + w.slot
/-- The quadrant of a wave may issue in this cycle: its die's clock makes a cycle, and it is free (R24, R196, R366). -/
def State.quadFree (s : State) (w : Wave) : Bool :=
  let t := s.teamOf w
  (s.pkg.clks.getD t.die {}).ticked && !s.issued.contains (quadOf t w) && decide ((s.core (coreIx t.die t.core)).qfree.getD (w.slot % 4) 0 ≤ s.cycle)
/-- The wave may be asked. -/
def State.askable (s : State) (w : Wave) : Bool := !s.tried.contains w.uid && w.minSet != [] && (s.teamOf w).active && s.quadFree w
/-- The wave whose turn comes next: the first choice of the first quadrant that has one. -/
def State.nextWave (s : State) : Option Nat :=
  match s.waves.filter s.askable with
  | [] => none
  | w :: ws =>
    let q (w : Wave) : Nat := quadOf (s.teamOf w) w
    (minBy s.choiceKey ((w :: ws).filter (fun x => q x == minNat ((w :: ws).map q)))).map Wave.uid

/-! ## The device's own events -/

abbrev Cand := Instr × Occ
/-- A step with the numbers that tell its occurrence. -/
def cand (i : Instr) (n m k : Nat := 0) : Cand := (i, { n, m, k })
/-- A step makes a difference: the state it leaves. A step whose condition does not hold changes nothing (log 8). -/
def State.attempt? (s : State) (c : Cand) : Option State :=
  let s1 : State := { s with occ := c.2 }
  match exec c.1 s1 with
  | .next t => if t = s1 then none else some t
  | _ => none

/-- Debug, Scoresheet and translation maintenance. -/
def candDebug (s : State) : List Cand :=
  (match s.dgenMoved with
   | some _ => [(cand .ssmodeRecord), (cand .ssmodeReplay), (cand .ssmodeOff), (cand .debugConfigUpdate)]
   | none => []) ++
  (match s.cmd with
   | some _ => [(cand .dbgHaltCtx), (cand .dbgResume), (cand .dbgStep), (cand .dbgResumeAll), (cand .dbgDump), (cand .dbgBadCommand)]
   | none => []) ++
  (if s.dbg.dump.isSome then [(cand .dbgDumpWrite)] else []) ++
  (if s.dbg.ssStatus = .recording || s.dbg.ssStatus = .replaying || s.dbg.ssChip.any (fun l => l != []) then
    (List.range s.dies).flatMap (fun d =>
      [(cand .scoresheetLogSpace (n := d)), (cand .replayDivergeUnknownKind (n := d)), (cand .replayLogMatch (n := d)), (cand .replayDivergeStale (n := d))]) ++
      s.dbg.ssHeld.map (fun x => (cand .replayDivergeTimeout (n := x.key)))
   else []) ++
  (if s.shoot.isSome then [(cand .shootdownComplete)]
   else if s.ringMoved || s.shootSlot.isSome then [(cand .shootdownPages), (cand .shootdownContext), (cand .shootdownAll)] else [])
/-- Results, walks and accesses. -/
def candResults (s : State) : List Cand :=
  (s.lands.filter (fun x => decide (x.due ≤ s.cycle))).map (fun x => (cand .resultLand (n := x.id)))
def candWalks (s : State) : List Cand :=
  (List.range s.dies).flatMap (fun d =>
    ((s.misses.filter (fun x => x.die == d)).take 48).map (fun x => (cand .pageWalkComplete (n := d) (m := x.ctx) (k := x.vpn))))
/-- The step of an estimator operation at its ESU; of another access, its performing. -/
def accStep (a : Acc) : Cand :=
  cand (match a.op with
   | .est _ _ _ _ => .esuEst
   | .eld _ _ _ => .esuEld
   | .emrg _ _ _ => .esuEmrg
   | .eclr _ _ => .esuEclr
   | .esweep _ _ _ _ => .esuEsweep
   | .eraw _ _ _ => .esuEraw
   | .einit _ _ _ _ _ => .esuEinit
   | _ => .accessPerform) (n := a.id)
def candAccs (s : State) : List Cand := (s.accs.filter (fun a => if a.op.isEst then s.esuReady a else s.accFree a)).map accStep
def candEsu (s : State) : List Cand :=
  s.gens.flatMap (fun g => g.left.map (fun x => (cand .esuGenInForce (n := g.id) (m := x.1) (k := x.2)))) ++
    (s.appends.filter (fun a => a.fault.isNone)).map (fun a => (cand .esuAppendResume (n := a.id)))
/-- Lanes and waves that wait. -/
def candWaits (s : State) : List Cand :=
  (s.blocked.map (fun x => match x.2.2.2 with
    | .ldfe tid off _ _ _ _ => (cand .ldfeUnblock (n := tid) (m := off / 16))
    | .stfe tid off _ _ _ => (cand .stfeUnblock (n := tid) (m := off / 16))
    | .ordwait _ _ => (cand .ordwaitRelease (n := x.1) (m := x.2.1))
    | .rwait _ _ => (cand .rwaitRelease (n := x.1) (m := x.2.1))
    | .bar b _ _ _ => (cand .barrierPhaseComplete (n := match s.wave? x.1 with | some w => w.tid | none => 0) (m := b))
    | .topk tid off _ _ => (cand .topkLockRelease (n := tid) (m := off))
    | .wsync => (cand .wsyncRelease (n := x.1)))) ++
  s.teams.flatMap (fun t =>
    ((List.range 17).filter (fun b => (t.bars.getD b {}).arrived != 0)).map (fun b => (cand .barrierPhaseComplete (n := t.tid) (m := b))) ++
      t.locks.map (fun k => (cand .topkLockRelease (n := t.tid) (m := k.off)))) ++
  (s.waves.filter (fun w => w.lanes.any (fun l => l.wake.isSome))).map (fun w => (cand .sleepExpiry (n := w.uid))) ++
  (s.waves.filter (fun w => w.stall != [])).map (fun w => (cand .markStallEnd (n := w.uid))) ++
  (s.cores.filter (fun c => c.2.mmaBusy)).map (fun (c : Nat × CoreSt) => (cand .matrixUnitFree (n := c.1 / 48) (m := c.1 % 48)))
/-- Windows. -/
def candWindows (s : State) : List Cand :=
  (s.waves.filter (fun w => w.window.isSome || w.next.isSome)).flatMap (fun w =>
    [(cand .quiescentPoint (n := w.uid)), (cand .trapWindowTimeout (n := w.uid)), (cand .handlerEntry (n := w.uid))])
/-- Traversal engines. -/
def candStacks (s : State) : List Cand :=
  s.stackReqs.map (fun r => (cand .stackTake (n := r.id))) ++
    s.stks.map (fun k => cand (if k.asleep then .stackTake else if s.sleepDue k then .walkStep else match k.st with
      | .step => .walkStep
      | .fetch _ _ _ => .nodeFetchComplete
      | .routine _ _ => .walkStep
      | .decided _ _ _ _ _ _ => .routineDecision
      | .join => .joinZero
      | .finishing _ => .walkFinish) (n := k.handle)) ++
    s.invs.map (fun v => (cand .routineWaveForm (n := v.id)))
/-- Caddies. -/
def candCaddy (s : State) : List Cand :=
  (((s.caddy.filter (fun r => !r.arrived)).map CaddyRec.batch).eraseDups).map (fun b => (cand .caddyArrival (n := b))) ++
    (((s.caddy.map CaddyRec.gid).eraseDups).flatMap (fun g =>
      (s.groupsOf g).map (fun (x : Nat × Nat) => (cand .caddyPartialTimeout (n := x.1) (m := g) (k := x.2))) ++ [(cand .caddyDrain (n := g))]))
/-- The end of teams and grids, and teams that leave their cores. -/
def candEnds (s : State) : List Cand :=
  s.teams.flatMap (fun t =>
    if t.st = .retired || t.st = .saved then []
    else [(cand .teamRetire (n := t.tid))] ++ (if t.st = .saving then [(cand .teamSaveComplete (n := t.tid))] else []) ++
      (if t.st = .flushing then [(cand .teamFlushComplete (n := t.tid))] else [])) ++
  s.grids.flatMap (fun g => [(cand .gridRetire (n := g.gid))] ++
    (if (s.wishes g).any (fun w => (w.since g).isSome) then [(cand .preemptTimeout (n := g.gid)), (cand .timeSliceExpiry (n := g.gid))] else []))
/-- Deals of some grids, in the order of the deal list (R60). -/
def dealsOf (gs : List Grid) : List Cand :=
  (gs.filter (fun g => g.undealt && !g.isWalk)).map (fun g => cand (if g.isJob then .jobDeal else .gridDeal) (n := g.gid))
/-- Placement: by priority, and within one the ordered grids, saved teams, formed waves, children, then packets; children come before
packets, and packets by the turns of their queues (R59, R60, R69, R71, R78, R88). -/
def candPlace (s : State) : List Cand :=
  [3, 2, 1, 0].flatMap (fun p =>
    let gs := s.grids.filter (fun g => g.prio == p)
    let child (g : Grid) : Bool := match g.src with | .child _ _ => true | _ => false
    let packets (l : List Grid) : List Grid := sortBy s.dealKey (l.filter (fun g => !child g))
    dealsOf (gs.filter (fun g => g.ordered && child g)) ++ dealsOf (packets (gs.filter Grid.ordered)) ++
      (s.teams.filter (fun t => t.st == .saved && s.prioOf t == p)).map (fun t => (cand .teamRestore (n := t.tid))) ++
      (sortBy (fun f : CaddyForm => f.born) (s.forms.filter (fun f => gs.any (fun g => g.gid == f.gid)))).map (fun f => (cand .caddyWavePlace (n := f.id))) ++
      dealsOf (gs.filter (fun g => !g.ordered && child g)) ++ dealsOf (packets (gs.filter (fun g => !g.ordered))))
/-- Packets under way, records that wait for their rings, children that wait. -/
def candPackets (s : State) : List Cand :=
  (s.outs.filter (fun o => o.st != .opBad)).map (fun o => (match o.st with
    | .ringWait _ _ => (cand .completionRingSpace (n := o.id))
    | .running => if Pkt.kind o.pkt = 3 then (cand .copyPacket (n := o.q) (m := o.id)) else (cand .signalPacket (n := o.q) (m := o.id))
    | _ => (cand .packetCompletion (n := o.id)))) ++
  ((List.range s.ringWaits.length).zip s.ringWaits).map (fun (x : Nat × RingWait) =>
    cand (if x.2.ring = 1 then .faultRingSpace else .eventRingSpace) (n := x.1)) ++
  (s.grids.filter (fun g => g.waiting)).map (fun g => (cand .packetWaitMet (n := 1) (m := g.gid)))
/-- The step for the packet at the head of a queue, by its KIND. -/
def packetStep (kind : Nat) : Instr :=
  match kind with
  | 1 => .jobPacket
  | 2 => .gridPacket
  | 3 => .copyPacket
  | 4 => .traversePacket
  | 5 => .waitcntPacket
  | 6 => .signalPacket
  | 7 => .timebindPacket
  | 8 => .nopPacket
  | _ => .illegalPacketKind
/-- Queues in the order their monitors serve them: by priority, then in turn after the queue served last (R59). -/
def State.turnKey (s : State) (q : Nat) : Nat :=
  let last := match Tab.find s.lastServed (64 * s.monDie q + monOf q) with | some x => x + 1 | none => 0
  (3 - QueueHdr.prio (s.queue q).hdr) * 65536 + (q + 65536 - last) % 65536
def candQueues (s : State) : List Cand :=
  (sortBy s.turnKey ((s.queues.map (fun x => x.1)).filter s.served)).flatMap (fun q =>
    let x := s.queue q
    if QueueHdr.qkind x.hdr = 3 then [(cand .estreqBatchCount (n := q)), (cand .estreqBatchTimeout (n := q))]
    else if x.held.isSome then [(cand .packetWaitMet (m := q))]
    else
      match s.head q with
      | .empty => []
      | .unreadable => [(cand .illegalPacketKind (n := q))]
      | .packet p _ => [cand (packetStep (Pkt.kind p)) (n := q)])
/-- Tier engines and energy. -/
def candTier (s : State) : List Cand :=
  s.migs.map (fun m => cand (if m.fetch then .tierFetchLand else .tierEvictLand) (n := m.id)) ++
    (if s.tierq = [] then [] else (List.range s.dies).flatMap (fun d => [(cand .tierFetchStart (n := d)), (cand .tierEvictStart (n := d))])) ++
    ((List.range s.dies).filter (fun d => decide (s.dbg.energyAt.getD d 0 + usCycles 100 ≤ s.cycle))).map (fun d => (cand .energyInterval (n := d)))

/-- Where the device's next event is looked for, in order (log 7). -/
def sources : List (State → List Cand) :=
  [candDebug, candResults, candWalks, candAccs, candEsu, candWaits, candWindows, candStacks, candCaddy, candEnds, candPackets, candPlace, candQueues,
   candTier]
/-- The first step among these that makes a difference. -/
def State.firstOf (s : State) (fs : List (State → List Cand)) : Option State := firstSome (fun (f : State → List Cand) => firstSome s.attempt? (f s)) fs
/-- The device's next event. -/
def State.nextEvent (s : State) : Option State := s.firstOf sources
/-- The wave was not asked in this cycle, and would wait for a unit if it were (R245, row 11). -/
def State.wouldWait (s : State) (w : Wave) : Bool :=
  !s.tried.contains w.uid &&
    (match s.turn w.uid with
     | .word x => (match exec (instrOf x) (s.issuing w.uid x) with | .next t => t.tried.contains w.uid | _ => false)
     | _ => false)
/-- With the waves of cores that take a sample now that would wait. -/
def State.probed (s : State) : State :=
  { s with tried := ((s.waves.filter (fun w =>
      s.sampleDue (s.teamOf w).die (s.teamOf w).core && s.wouldWait w)).map Wave.uid) ++ s.tried }
/-- Stall samples, at the end of a cycle (R244). -/
def candSamples (s : State) : List Cand :=
  if s.sampleLog.isNone then []
  else (s.allCores.filter (fun x => s.sampleDue x.1 x.2)).map (fun (x : Nat × Nat) => (cand .stallSample (n := x.1) (m := x.2)))

/-! ## The clock (R5, R23, R217) -/

/-- One cycle of the main clock on a die's clock. -/
def DieClk.tick (c : DieClk) : DieClk :=
  let f := c.frac + c.mhz.toNat
  { c with cycles := c.cycles + f / 2700, frac := f % 2700, ticked := f / 2700 != 0 }
/-- One cycle less to the next move of the agenda. -/
def Move.closer : Move → Move
  | .event w i o => .event (w - 1) i o
  | .issue w uid => .issue (w - 1) uid
  | .outside w x => .outside (w - 1) x
/-- A cycle of the main clock passes. -/
def State.tick (s : State) : State :=
  { s.noteBlocked with
    cycle := s.cycle + 1, issued := [], tried := [], pkg := { s.pkg with clks := s.pkg.clks.map DieClk.tick }
    agenda := match s.agenda with | [] => [] | m :: ms => m.closer :: ms }

/-- What is left of the agenda once its first move is made. -/
def State.popped (s : State) : State := { s with agenda := s.agenda.tail }
/-- A move that is due is made: an event, the turn of a wave whose quadrant may issue, or an act of the outside world. -/
def Move.make (m : Move) (s : State) : Out :=
  match m with
  | .event _ i o => exec i { s with occ := o }
  | .issue _ uid =>
    match s.activeWave? uid with
    | some w => if s.quadFree w then s.issueWave uid else .next s
    | none => .next s
  | .outside _ x => .next (s.outside x)
/-- The move at the head of the agenda is due now. -/
def Move.due : Move → Bool
  | .event w _ _ => w == 0
  | .issue w _ => w == 0
  | .outside w _ => w == 0

/-- What the device does by itself: an event, the issue of a wave, a sample, or the next cycle. -/
def State.runOn (s : State) : Out :=
  match s.nextEvent with
  | some t => .next t
  | none =>
    match s.nextWave with
    | some uid => s.issueWave uid
    | none =>
      match s.probed.firstOf [candSamples] with
      | some t => .next t
      | none => .next s.tick

/-! ## The place of the next instruction -/

/-- A context with code at page 1 of its space, in which everything else is at its least (R29). -/
def bareCtx : Ctx := { enable := true, desc := record 4096 [(0, 1, 1), (8, 9, 65536)] }
/-- A grid of one team whose lanes start at address 0 (R41). -/
def bareCard : BitVec 512 := record 512 [(0, 1, 2), (18, 2, 1), (20, 2, 1), (22, 2, 1), (24, 2, 1), (27, 1, 1), (28, 2, 128), (30, 2, 4)]
/-- The page of code: executable and NORMAL, at near offset 0 of this device (R96). -/
def bareTlb (dev : Nat) : TlbEnt :=
  { die := 0, ctx := 0, vpn := 1, lg := 0, leaf := 0x60F, leafPa := 0, pa := dev * 2 ^ 50, dirty := true }
/-- One team of one wave on core 0 of die 0, in grid 1; its lanes stand at address 0. -/
def bareTeam : Team := { tid := 2, gid := 1, ctx := 0, nwaves := 1, regs := 128, alloc := 4096 }
def bareWave : Wave := { newWave (List.replicate 32 (newLane 128 0)) 0 0 with uid := 3, tid := 2 }

end Sys2Proof.Machine
end

