-- ==== Sys2Proof/Machine/Step.lean ====
section
/-!
DEFINITION. One step of the machine: what the agenda brings, or what the device does by itself.
-/

namespace Sys2Proof.Machine

/-- One step (log 7). -/
def step (s : State) : Host.Outcome State Fault Refusal :=
  match s.agenda with
  | [] => s.runOn
  | m :: _ => if m.due then m.make s.popped else s.runOn

/-- s with an instruction of nbits bits where the next step fetches: a ready die, an enabled context with a page of code that
holds the instruction at address 0, one team of one wave that stands there, and its turn at the head of the agenda. -/
def State.withFetchWord (s : State) (nbits w : Nat) : State :=
  let pa := s.pkg.deviceId.toNat * 2 ^ 50
  { s with
    pkg := { s.pkg with ready1 := s.pkg.ready1 ||| 0x4004, clks := listUpd s.pkg.clks 0 (fun c => { c with ticked := true }) }
    ctxs := Tab.put s.ctxs 0 bareCtx
    grids := { gid := 1, ctx := 0, card := bareCard, src := .packet 0 0, begun := true, nextOrd := 1 } :: s.grids.filter (fun g => g.gid != 1)
    teams := bareTeam :: s.teams.filter (fun t => t.tid != 2)
    waves := bareWave :: s.waves.filter (fun w => w.uid != 3)
    mem := memPut s.mem pa (leBytes 4 (w % 2 ^ nbits))
    tlb := bareTlb s.pkg.deviceId.toNat :: s.tlb
    cores := Tab.put s.cores 0 { (s.core 0) with qfree := (s.core 0).qfree.set 0 0 }
    dbg := { s.dbg with blk := BitVec.ofNat 4096 (s.dbg.blk.toNat % 2 ^ 2048) }
    issued := s.issued.filter (fun q => q != 0)
    fresh := max s.fresh 16
    agenda := .issue 0 3 :: s.agenda }

end Sys2Proof.Machine
end

