-- ==== Sys2Proof/Safety.lean ====
section
/-!
DEFINITION. What a safe run is, the invariants of the machine, and the terms in which the statements say what issuing an
instruction changes and what it leaves as it was.
-/

namespace Sys2Proof

open Machine

/-- The step that comes next answers a state. -/
def Safe (s : Machine.State) : Prop := ∃ t, step s = .next t

/-- Memory lists its bytes in canonical form (R144). -/
def MemoryOk (s : Machine.State) : Prop := Memory.wf s.mem = true

end Sys2Proof

namespace Sys2Proof.Machine

/-! ## The wave that issues (R81, R198) -/

/-- Wave w is current, has a minimum-PC set, and no lane of it is being stepped by a debugger. -/
structure Issuing (s : State) (w : Wave) : Prop where
  cur : s.cur = some w.uid
  found : s.wave? w.uid = some w
  nonempty : w.minSet ≠ []
  unstepped : ∀ l ∈ w.lanes, l.stepping = false ∧ l.stepped = false

/-- No lane of the minimum-PC set waits or traps: each executes, or only advances because its guard fails. -/
def Ready (s : State) (w : Wave) (ff : FormF) : Prop :=
  ∀ L ∈ w.minSet, fate s w ff (w.lane L) = .run ∨ fate s w ff (w.lane L) = .skip

/-- The executing lanes. -/
def executing (s : State) (w : Wave) (ff : FormF) : List Nat := w.minSet.filter (fun L => fate s w ff (w.lane L) == .run)

/-- What the instruction is given: the wave, its team and grid, and the executing lanes. -/
def issueOf (s : State) (w : Wave) (ff : FormF) : Iss :=
  { w := w.forReplay, t := s.teamOf w, g := s.gridOf (s.teamOf w), E := executing s w ff }

/-! ## What is left as it was -/

/-- The machine without its waves and without the bookkeeping of an issue (which quadrants have issued, activity). -/
def State.less (s : State) : State := { s with waves := [], issued := [], dbg := { s.dbg with activity := [] } }
/-- The same without results on their way. -/
def State.lessLands (s : State) : State := { s.less with lands := [], fresh := 0 }
/-- The same without accesses on their way. -/
def State.lessAccs (s : State) : State := { s.less with accs := [], fresh := 0 }
/-- A wave without its lanes and without the bookkeeping of an issue. -/
def Wave.less (w : Wave) : Wave := { w with lanes := [], lastIssue := 0, issPc := 0, issLanes := 0, sched := 0, schedAt := 0 }
/-- A lane without its registers, its place, its hints, and what it keeps of an instruction it has begun. -/
def Lane.less (l : Lane) : Lane :=
  { l with
    regs := [], pc := 0, hints := [], replay := none, claim := none, fill := none, begun := false, wake := none
    stepped := false, noBreak := false, ran := false, dumped := false }

/-- What every issue leaves as it was, and what it notes: wave w is w' afterwards; every other wave, and every lane out of the
minimum-PC set, is as before; a lane whose guard fails only advances; the quadrant has issued. -/
structure Issued (s t : State) (w w' : Wave) (ff : FormF) : Prop where
  found : t.wave? w.uid = some w'
  size : w'.lanes.length = w.lanes.length
  count : t.waves.length = s.waves.length
  others : ∀ (k : Nat) (v : Wave), s.waves[k]? = some v → v.uid ≠ w.uid → t.waves[k]? = some v
  out : ∀ L, L ∉ w.minSet → w'.lane L = w.lane L
  skips : ∀ L ∈ w.minSet, fate s w ff (w.lane L) = .skip → w'.lane L = (w.lane L).adv.noted
  noted : w'.lastIssue = s.dieCycle (s.teamOf w).die ∧ quadOf (s.teamOf w) w ∈ t.issued

/-- Instruction i, of form ff, issues for every state and wave that meet pre and leaves what post says: the machine's other
parts, as rest names them, are as before. -/
def Issues (i : Instr) (ff : FormF) (pre : State → Iss → Prop) (rest : State → State)
    (post : State → Iss → Wave → State → Wave → Prop) : Prop :=
  ∀ (s : State) (w : Wave), Issuing s w → Ready s w ff → pre s (issueOf s w ff) →
    ∃ (t : State) (w' : Wave), exec i s = .next t ∧ Issued s t w w' ff ∧ rest t = rest s ∧ post s (issueOf s w ff) w t w'

/-- The same of an instruction that only changes its executing lanes: post relates a lane to what it is afterwards. -/
def LaneIssues (i : Instr) (ff : FormF) (pre : State → Iss → Nat → Lane → Prop) (post : State → Iss → Nat → Lane → Lane → Prop) : Prop :=
  Issues i ff (fun s x => ∀ L ∈ x.E, pre s x L (s.laneNow x L)) State.less
    (fun s x w _ w' => w'.less = w.less ∧ ∀ L ∈ x.E, post s x L (w.lane L) (w'.lane L))

/-- The collection window that a lane of the wave joins as it parks or halts: the next one while the handler runs (R208). -/
def Wave.openWindow (w : Wave) : Option Window := if w.handling then w.next else w.window
/-- That window, if there is one, opened before this cycle, and its parked and halted lanes name its primary lane (R211). -/
def WindowSteady (s : State) (w : Wave) : Prop :=
  ∀ v, w.openWindow = some v → v.issued < s.cycle ∧ ∀ M, v.lanes.getLsbD M = true → (w.lane M).underPrimary v.primary = w.lane M

/-- No condition on a lane. -/
def anyLane : State → Iss → Nat → Lane → Prop := fun _ _ _ _ => True

/-! ## What becomes of an executing lane -/

/-- The lane goes on at the next word, its hints used; its flags, predicates and special registers are as before. -/
structure Passed (l l' : Lane) : Prop where
  regs : l'.regs = l.regs
  next : l'.pc = l.pc + 1 ∧ l'.hints = []
  rest : l'.less = l.less

/-- The lane has x in register d, full; every other register, and all else, is as before; it goes on at the next word. -/
structure Wrote (l l' : Lane) (d : Nat) (x : Word) : Prop where
  value : l'.v d = x ∧ (l'.reg d).full = true ∧ (l'.reg d).fault = false
  others : ∀ r, r ≠ d → l'.reg r = l.reg r
  next : l'.pc = l.pc + 1 ∧ l'.hints = []
  rest : l'.less = l.less

/-- The lane has x in register d, full, and every other register as before; apart from registers and place it is as m. -/
structure WroteOver (l m l' : Lane) (d : Nat) (x : Word) : Prop where
  value : l'.v d = x ∧ (l'.reg d).full = true ∧ (l'.reg d).fault = false
  others : ∀ r, r ≠ d → l'.reg r = l.reg r
  next : l'.pc = l.pc + 1 ∧ l'.hints = []
  rest : l'.less = m.less

/-- No exception that is raised is enabled (R216). -/
def NoTrap (l : Lane) (fl : FpFlags) : Prop := fl &&& l.fpctl.extractLsb' 5 5 = 0

/-- The same with sticky exception flags added to FPCTL, and no other bit of it changed. -/
structure WroteFlags (l m l' : Lane) (d : Nat) (r : Word × FpFlags) : Prop where
  value : l'.v d = r.1 ∧ (l'.reg d).full = true ∧ (l'.reg d).fault = false
  others : ∀ k, k ≠ d → l'.reg k = l.reg k
  next : l'.pc = l.pc + 1 ∧ l'.hints = []
  flags : l'.fpctl = l.fpctl ||| r.2.zeroExtend 32
  rest : { l'.less with fpctl := 0 } = { m.less with fpctl := 0 }

/-- An instruction with one result and flags: without an enabled exception the result is written and the flags added. -/
def FlagIssues (i : Instr) (ff : FormF) (d : BitVec 7) (val : Iss → Nat → Lane → Word × FpFlags) : Prop :=
  LaneIssues i ff (fun _ x L l => NoTrap l (val x L l).2) (fun _ x L l l' => WroteFlags l l l' d.toNat (val x L l))

/-- The lane is parked with FPX (R212, R216): the flags it raised are added and named, nothing is written, and it stands at the
instruction with its hints. -/
structure FpxParked (l l' : Lane) (fl : FpFlags) : Prop where
  parked : l'.st = .trapped ∧ l'.trapKind = 8 ∧ l'.trapinfo.getD 1 0 = l.pc ∧ l'.trapinfo.getD 4 0 = fl.zeroExtend 32
  place : l'.pc = l.pc ∧ l'.hints = l.hints
  regs : l'.regs = l.regs ∧ l'.preds = l.preds
  flags : l'.fpctl = l.fpctl ||| fl.zeroExtend 32

/-- An instruction with one result and flags, outside the handler: a lane without an enabled exception has its result, and each
lane with one is parked. -/
def FlagTraps (i : Instr) (ff : FormF) (d : BitVec 7) (val : State → Iss → Nat → Lane → Word × FpFlags) : Prop :=
  ∀ (s : State) (w : Wave), Issuing s w → Ready s w ff → w.lanes.length ≤ 32 → (∀ l ∈ w.lanes, l.inHandler = false) →
    ∃ (t : State) (w' : Wave), exec i s = .next t ∧ t.wave? w.uid = some w' ∧ ∀ L ∈ executing s w ff,
      let l := w.lane L
      let r := val s (issueOf s w ff) L l
      (NoTrap l r.2 → w'.lane L = { (({ l with fpctl := l.fpctl ||| r.2.zeroExtend 32 } : Lane).set d.toNat r.1).adv.noted with
        clockHi := (w'.lane L).clockHi, timeHi := (w'.lane L).timeHi }) ∧
      (¬ NoTrap l r.2 → FpxParked l (w'.lane L) r.2)

/-- The lane has xs in the registers from d upward, full; all else is as before; it goes on at the next word. -/
structure WroteSpan (l l' : Lane) (d : Nat) (xs : List Word) : Prop where
  value : ∀ k, k < xs.length → l'.v (d + k) = xs.getD k 0 ∧ (l'.reg (d + k)).full = true
  others : ∀ r, r < d ∨ d + xs.length ≤ r → l'.reg r = l.reg r
  next : l'.pc = l.pc + 1 ∧ l'.hints = []
  rest : l'.less = l.less

/-- Registers d to d + n − 1 of the lane are empty, with the lane's PC as producer; all else is as before; it goes on at the
next word. -/
structure Emptied (l l' : Lane) (d n : Nat) : Prop where
  marks : ∀ k, k < n → (l'.reg (d + k)).full = false ∧ (l'.reg (d + k)).fault = false ∧ (l'.reg (d + k)).tag = l.pc
  others : ∀ r, r < d ∨ d + n ≤ r → l'.reg r = l.reg r
  next : l'.pc = l.pc + 1 ∧ l'.hints = []
  rest : { l'.less with opCount := 0 } = { l.less with opCount := 0 }

/-- Results on their way: one for each executing lane in ascending order, the k-th due at due k. -/
def landsOf (s : State) (x : Iss) (d : Nat) (vals : Nat → List Word) (due : Nat → Nat) (sfu : Bool) : List Land :=
  x.E.zipIdx.map (fun p => { id := s.fresh + p.2, uid := x.uid, lane := p.1, d, vals := vals p.1, due := due p.2, pc := (x.l p.1).pc, sfu })

/-- An access that a lane makes at this cycle, with what a says of it. -/
def State.madeBy (s : State) (x : Iss) (L id : Nat) (a : Acc) : Acc :=
  { a with
    id := id, ctx := x.c, gid := x.t.gid, tid := x.t.tid, uid := x.uid, wave := x.w.idx, lane := L, die := x.die
    core := x.core, pc := (x.l L).pc, count := (x.l L).opCount, born := s.cycle, start := s.cycle, me := (x.l L).me, home := (x.l L).home
    scope := scopeOf (x.h L)
    nol1 := match (x.h L).xmod with | none => false | some m => xmCACHE m == 2 }
/-- Accesses on their way: one for each executing lane in ascending order. -/
def accsOf (s : State) (x : Iss) (a : Nat → Acc) : List Acc := x.E.zipIdx.map (fun p => s.madeBy x p.1 (s.fresh + p.2) (a p.1))
/-- Where an access of a lane goes: the physical address and the leaf that the checks found. -/
def State.paOf (s : State) (x : Iss) (va n : Nat) (k : AccKind) : Nat := match s.laneXl x va n k with | .ok pa _ => pa | _ => 0
def State.pteOf (s : State) (x : Iss) (va n : Nat) (k : AccKind) : Pte := match s.laneXl x va n k with | .ok _ e => e | _ => 0
/-- A lane's access is aligned and passes its checks (R320). -/
def State.passes (s : State) (x : Iss) (va n align : Nat) (k : AccKind) : Prop := va % align = 0 ∧ ∃ pa e, s.laneXl x va n k = .ok pa e
/-- The lane's scratchpad access passes its checks, at this team's scratchpad. -/
def State.spPasses (s : State) (x : Iss) (L r off n : Nat) : Prop := ∃ tid, s.spCheck x L r off n = .ok tid
def State.spTeam (s : State) (x : Iss) (L r off n : Nat) : Nat := match s.spCheck x L r off n with | .ok tid => tid | _ => 0
/-- Every byte of memory reads as before. -/
def SameMemory (s t : State) : Prop := ∀ a, memByte t.mem a = memByte s.mem a
/-- Every byte of memory outside n bytes at pa reads as before. -/
def SameOutside (s t : State) (pa n : Nat) : Prop := ∀ a, a < pa ∨ pa + n ≤ a → memByte t.mem a = memByte s.mem a
/-- The page-table entry that translates a lane's address. -/
def State.leafAt (s : State) (x : Iss) (va : Nat) : Nat := match s.tlbFind x.die x.c va with | some e => e.leafPa | none => 0
/-- Memory, in its canonical form (MemoryOk), reads as before but for the DIRTY bits of the page-table entries that translate the executing
lanes' addresses, each as before or set (bit 9 of its entry), and the translations are as before but for noting that (R100): each lane has
the addresses vas of it. -/
structure OnlyDirtyAt (s t : State) (x : Iss) (vas : Nat → List Nat) : Prop where
  memory : Memory.wf s.mem = true → ∀ a, memByte t.mem a = memByte s.mem a ∨
    ((∃ L ∈ x.E, ∃ v ∈ vas L, a = s.leafAt x v + 1) ∧ (memByte t.mem a).toNat = (memByte s.mem a).toNat ||| 2)
  tlb : t.tlb.map (fun e => { e with dirty := true }) = s.tlb.map (fun e => { e with dirty := true })
/-- The same of lanes with one address each. -/
def OnlyDirty (s t : State) (x : Iss) (va : Nat → Nat) : Prop := OnlyDirtyAt s t x (fun L => [va L])
/-- The machine without accesses on their way and without what marking a page dirty touches. -/
def State.lessStores (s : State) : State := { s.lessAccs with mem := [], wrote := [], writes := 0, pages := [], tlb := [] }
/-- The machine without its teams. -/
def State.lessTeams (s : State) : State := { s.less with teams := [] }
/-- The machine without its teams and without what a write to a scratchpad notes. -/
def State.lessScratch (s : State) : State := { s.lessTeams with wrote := [], writes := 0 }
/-- No earlier access that is ordered before one of these whole reads or writes of a lane has still to perform (R146, R148). -/
def State.inOrder (s : State) (x : Iss) (op : AccOp) (ord : Ord) (ws : List Whole) : Prop :=
  ∀ p ∈ ws, s.ordersPend x.uid p.lane (s.wholeAcc x op ord p) = false
/-- A byte of a team's scratchpad. -/
def State.spByte (s : State) (tid a : Nat) : Byte := match s.team? tid with | some u => byteAt u.scratch a | none => 0

/-- The lane has claimed index k of its instruction (R333, R349): it stands at the instruction, keeps the registers it began with, and all
else but its count of operations, and what a QPUSH keeps of the queue header, is as before. -/
structure Claimed (l l' : Lane) (k : Nat) : Prop where
  claim : l'.claim = some k ∧ (l'.replay.map Snap.regs) = some l.srcRegs
  regs : l'.regs = l.regs
  place : l'.pc = l.pc ∧ l'.hints = l.hints
  rest : { l'.less with opCount := 0, ring := (0, 0) } = { l.less with opCount := 0, ring := (0, 0) }

/-- The lane stands blocked at its instruction; all else but its count of operations is as before. -/
structure Blocked (l l' : Lane) (wt : Wait) : Prop where
  wait : l'.st = .blocked wt
  regs : l'.regs = l.regs
  place : l'.pc = l.pc ∧ l'.hints = l.hints
  rest : { l'.less with st := .run, bseq := 0, opCount := 0 } = { l.less with st := .run, bseq := 0, opCount := 0 }

/-- The executing lanes have ended for their team (R207, R146): their results on the way are dropped; their accesses stay, to perform in their
order, but nobody gets what these return; the accesses of every other lane are as before. -/
structure ForgetsReads (s t : State) (x : Iss) : Prop where
  accs : t.accs = s.accs.map (fun a => if a.uid == x.uid && x.E.contains a.lane then a.orphan else a)
  lands : t.lands = s.lands.filter (fun y => !(y.uid == x.uid && x.E.contains y.lane))

/-- The lane is parked with a trap of this kind and detail (R208, R211, R212): nothing of the instruction has happened to it. -/
structure TrapParked (l l' : Lane) (kind : Nat) (info4 : Word) : Prop where
  parked : l'.st = .trapped ∧ l'.trapKind = kind ∧ l'.trapinfo.getD 1 0 = l.pc ∧ l'.trapinfo.getD 4 0 = info4
  place : l'.pc = l.pc ∧ l'.hints = l.hints
  regs : l'.regs = l.regs ∧ l'.preds = l.preds
/-- TRAPINFO0, 2 and 3 name a virtual address; or TRAPINFO2 and 3 a scratchpad offset (R211). -/
def NamesVa (l' : Lane) (va : Nat) : Prop :=
  (l'.trapinfo.getD 0 0).toNat / 256 % 256 = va / 2 ^ 64 % 256 ∧ l'.trapinfo.getD 2 0 = BitVec.ofNat 32 va ∧
    l'.trapinfo.getD 3 0 = BitVec.ofNat 32 (va / 2 ^ 32)
def NamesOff (l' : Lane) (off : Nat) : Prop := l'.trapinfo.getD 2 0 = BitVec.ofNat 32 off ∧ l'.trapinfo.getD 3 0 = 0xFFFFFFFF
/-- Lane L is parked on a fault record of this cause, access kind and page (R104): registers d to d + n − 1 are empty and marked, and it stands at
its instruction. -/
structure FaultParked (t : State) (x : Iss) (L : Nat) (l l' : Lane) (cause kind va d n : Nat) : Prop where
  record : ∃ f ∈ t.faults, l'.st = .faulted f.seq ∧ f.ctx = x.c ∧ f.cause = cause ∧ f.kind = kind ∧ f.va.toNat / 65536 = va / 65536 ∧ f.pc = l.pc ∧
    ∃ m : BitVec 32, f.who = .lanes x.uid m ∧ m.getLsbD L = true
  place : l'.pc = l.pc ∧ l'.hints = l.hints
  marks : ∀ k, k < n → (l'.reg (d + k)).full = false ∧ (l'.reg (d + k)).fault = true
  others : ∀ r, r < d ∨ d + n ≤ r → l'.reg r = l.reg r

/-- A memory instruction of lanes outside the handler, each with one access of n bytes, of kind k, at va, its pages walked: a lane whose access is
misaligned parks with MISALIGN (R93), one whose page, type or path does not let it through with ACCESS (R97, R98, R17), one whose page
faults on a record (R104); a lane that passes goes on. dst are its destinations. -/
def AccessStops (i : Instr) (ff : FormF) (k : AccKind) (va : Iss → Nat → Nat) (n : Nat) (dst : Nat × Nat) (pre : State → Iss → Prop) : Prop :=
  ∀ (s : State) (w : Wave), Issuing s w → Ready s w ff → w.lanes.length ≤ 32 → (∀ l ∈ w.lanes, l.inHandler = false) →
    let x := issueOf s w ff
    pre s x → s.unwalked x (alignedVas n va x) = [] →
    ∃ (t : State) (w' : Wave), exec i s = .next t ∧ t.wave? w.uid = some w' ∧ ∀ L ∈ x.E,
      let l := w.lane L
      let l' := w'.lane L
      let v := va x L
      (v % n ≠ 0 → TrapParked l l' 5 (BitVec.ofNat 32 n) ∧ NamesVa l' v) ∧
      (v % n = 0 → (∀ d, s.laneXl x v n k = .access d → TrapParked l l' 7 d ∧ NamesVa l' v) ∧
        (∀ c, s.laneXl x v n k = .fault c → FaultParked t x L l l' c k.code v dst.1 dst.2) ∧
        (∀ pa e, s.laneXl x v n k = .ok pa e → l'.st = .run ∧ l'.pc = l.pc + 1 ∧ l'.hints = []))
/-- The same of a scratchpad instruction, where each lane names n bytes at an offset of a member's scratchpad (R93, R114, R325). -/
def ScratchStops (i : Instr) (ff : FormF) (r : BitVec 4) (off : Iss → Nat → Nat) (n : Nat) (pre : State → Iss → Prop) : Prop :=
  ∀ (s : State) (w : Wave), Issuing s w → Ready s w ff → w.lanes.length ≤ 32 → (∀ l ∈ w.lanes, l.inHandler = false) →
    let x := issueOf s w ff
    pre s x →
    ∃ (t : State) (w' : Wave), exec i s = .next t ∧ t.wave? w.uid = some w' ∧ ∀ L ∈ x.E,
      let l := w.lane L
      let l' := w'.lane L
      let a := off x L
      (s.memberOf x.t x.g r.toNat = none → TrapParked l l' 18 (BitVec.ofNat 32 r.toNat)) ∧
      ∀ tid, s.memberOf x.t x.g r.toNat = some tid → let len := ((s.team? tid).map Team.alloc).getD 0
        (a % n ≠ 0 → TrapParked l l' 5 (BitVec.ofNat 32 n) ∧ NamesOff l' a) ∧
        (a % n = 0 → len < a + n → TrapParked l l' 7 0 ∧ NamesOff l' a) ∧
        (a % n = 0 → a + n ≤ len → l'.st = .run ∧ l'.pc = l.pc + 1 ∧ l'.hints = [])

/-- The lines that a lane's checks found. -/
def State.linesAt (s : State) (x : Iss) (vas : List (Nat × Nat)) : List (Nat × Pte) := match s.laneXls x .load vas with | .ok ps => ps | _ => []
/-- An operation with an answer, made lane by lane: the answers, and the state after all of them. -/
def lockSeq (f : State → Nat → Nat × State) (s : State) : List Nat → List Nat × State
  | [] => ([], s)
  | L :: r => let q := f s L; let p := lockSeq f q.2 r; (q.1 :: p.1, p.2)

/-- Predicate n is b, unless it is p0, which ignores writes; every other predicate and all else is as before. -/
structure WrotePred (l l' : Lane) (n : Nat) (b : Bool) : Prop where
  value : l'.p n = (n == 0 || b)
  others : ∀ k, k ≠ n → l'.p k = l.p k
  regs : l'.regs = l.regs
  next : l'.pc = l.pc + 1 ∧ l'.hints = []
  rest : { l'.less with preds := 0 } = { l.less with preds := 0 }

/-- The lane goes to a target; its registers are as before. -/
structure Jumped (l l' : Lane) (target : Word) : Prop where
  regs : l'.regs = l.regs
  next : l'.pc = target ∧ l'.hints = []
  rest : l'.less = l.less

/-- A step answers a state that meets p. -/
def Ends (i : Instr) (s : State) (p : State → Prop) : Prop := ∃ t, exec i s = .next t ∧ p t

end Sys2Proof.Machine
end

