-- ==== Sys2Proof/Certificates/Slice0/Obligations.lean ====
section
/-!
DEFINITION. What the model claims, for the provers: one Prop for each obligation of OBLIGATIONS.json.
-/

open Sys2Proof Sys2Proof.Machine

/-! ## Integer instructions (R294 to R298) -/

/-- R294 but for IMAC, and R295: what each three-register and each immediate integer instruction writes, and its frame. The operands are
read as unsigned numbers or, where the table says so, as signed ones; shift counts are whole unsigned words. The 10-bit immediate is
sign-extended, or has the XIMM hint's bits [21:0] above it. -/
def Obligations.IntegerResults : Prop :=
  (
    let is (ctor : BitVec 7 → BitVec 7 → BitVec 7 → BitVec 1 → BitVec 1 → BitVec 2 → Instr) (op : Word → Word → Word) : Prop :=
      ∀ d a b e f g, LaneIssues (ctor d a b e f g) (fRRR d a b e f g) anyLane
        (fun _ _ _ l l' => Wrote l l' d.toNat (op (l.v a.toNat) (l.v b.toNat)))
    is .iadd (fun a b => a + b) ∧
    is .isub (fun a b => a - b) ∧
    is .imul (fun a b => BitVec.ofNat 32 (a.toNat * b.toNat)) ∧
    is .imulhI (fun a b => BitVec.ofInt 32 (a.toInt * b.toInt / 2 ^ 32)) ∧
    is .imulhN (fun a b => BitVec.ofNat 32 (a.toNat * b.toNat / 2 ^ 32)) ∧
    is .iminI (fun a b => BitVec.ofInt 32 (min a.toInt b.toInt)) ∧
    is .imaxI (fun a b => BitVec.ofInt 32 (max a.toInt b.toInt)) ∧
    is .iminN (fun a b => BitVec.ofNat 32 (min a.toNat b.toNat)) ∧
    is .imaxN (fun a b => BitVec.ofNat 32 (max a.toNat b.toNat)) ∧
    is .and (fun a b => a &&& b) ∧
    is .or (fun a b => a ||| b) ∧
    is .xor (fun a b => a ^^^ b) ∧
    is .shl (fun a b => BitVec.ofNat 32 (a.toNat * 2 ^ b.toNat)) ∧
    is .shrN (fun a b => BitVec.ofNat 32 (a.toNat / 2 ^ b.toNat)) ∧
    is .shrI (fun a b => BitVec.ofInt 32 (a.toInt / 2 ^ b.toNat)) ∧
    is .rotl (fun a b => a <<< (b.toNat % 32) ||| a >>> ((32 - b.toNat % 32) % 32))) ∧
  (
    let imm (x : Iss) (L : Nat) (i : BitVec 10) : Word :=
      match (x.h L).xim with
      | none => i.signExtend 32
      | some p => p.extractLsb' 0 22 ++ i
    let is (ctor : BitVec 7 → BitVec 7 → BitVec 1 → BitVec 10 → Instr) (op : Word → Word → Word) : Prop :=
      ∀ d a e i, LaneIssues (ctor d a e i) (fRI d a e) anyLane (fun _ x L l l' => Wrote l l' d.toNat (op (l.v a.toNat) (imm x L i)))
    is .iaddi (fun a b => a + b) ∧
    is .imuli (fun a b => BitVec.ofNat 32 (a.toNat * b.toNat)) ∧
    is .andi (fun a b => a &&& b) ∧
    is .ori (fun a b => a ||| b) ∧
    is .xori (fun a b => a ^^^ b) ∧
    is .shli (fun a b => BitVec.ofNat 32 (a.toNat * 2 ^ b.toNat)) ∧
    is .shriN (fun a b => BitVec.ofNat 32 (a.toNat / 2 ^ b.toNat)) ∧
    is .shriI (fun a b => BitVec.ofInt 32 (a.toInt / 2 ^ b.toNat)) ∧
    (∀ d i, LaneIssues (.movi d i) (fun _ _ => { xim := true, ri := true, dsts := [(d.toNat, 1)] }) anyLane
      (fun _ x L l l' => Wrote l l' d.toNat (imm x L i))))

/-- R294, R296, R297, R298, R284: POPC counts 1 bits, CLZ and CTZ count leading and trailing 0 bits (32 for 0), BREV reverses the
bits and BSWAP the bytes. Bit fields have position vB [4:0], length min(vB [13:8], 32) and sign flag vB [15]; byte permutation works over
the pool of vA, then vD; the select goes by G or the PRED hint; and a × b + c has c from vD or operand C. Operand C is vD without an XSRC hint;
with one it is a register, the special register that SRD reads at that selector, or a constant, sign-extended for IMAC and placed in bits [31:12]
for the floating-point forms. Only reading a special register can change the lane, as SRD does. -/
def Obligations.IntegerFields : Prop :=
  (
    (
      let is (ctor : BitVec 7 → BitVec 7 → BitVec 1 → BitVec 2 → Instr) (rel : Word → Word → Prop) : Prop :=
        ∀ d a e g, LaneIssues (ctor d a e g) (fRRF d a e g) anyLane (fun _ _ _ l l' => ∃ y, rel (l.v a.toNat) y ∧ Wrote l l' d.toNat y)
      is .mov (fun x y => y = x) ∧
      is .ineg (fun x y => y = BitVec.ofNat 32 (2 ^ 32 - x.toNat)) ∧
      is .iabs (fun x y => y = BitVec.ofNat 32 x.toInt.natAbs) ∧
      is .not (fun x y => ∀ k, k < 32 → y.getLsbD k = !x.getLsbD k) ∧
      is .popc (fun x y => y.toNat = (List.range 32).countP (fun k => x.getLsbD k)) ∧
      is .clz (fun x y => y.toNat = if x = 0 then 32 else 31 - Nat.log2 x.toNat) ∧
      is .ctz (fun x y => y.toNat = (List.range 32).findIdx (fun k => x.getLsbD k)) ∧
      is .brev (fun x y => ∀ k, k < 32 → y.getLsbD k = x.getLsbD (31 - k)) ∧
      is .bswap (fun x y => ∀ k, k < 4 → y.extractLsb' (8 * k) 8 = x.extractLsb' (8 * (3 - k)) 8) ∧
      is .sext8 (fun x y => y = (x.extractLsb' 0 8).signExtend 32) ∧
      is .sext16 (fun x y => y = (x.extractLsb' 0 16).signExtend 32) ∧
      is .zext8 (fun x y => y.toNat = x.toNat % 2 ^ 8) ∧
      is .zext16 (fun x y => y.toNat = x.toNat % 2 ^ 16)) ∧
    (
      let pos (b : Word) : Nat := b.toNat % 32
      let len (b : Word) : Nat := min (b.toNat / 256 % 64) 32
      (∀ d a b e f g, LaneIssues (.bfe d a b e f g) (fRRR d a b e f g) anyLane (fun _ _ _ l l' =>
        let x := l.v a.toNat
        let c := l.v b.toNat
        let field := x.extractLsb' (pos c) (min (len c) (32 - pos c))
        Wrote l l' d.toNat (if c.getLsbD 15 then field.signExtend 32 else field.zeroExtend 32))) ∧
      (∀ d a b e f g, LaneIssues (.bfi d a b e f g) (fRRRd d a b e f g) anyLane (fun _ _ _ l l' =>
        let c := l.v b.toNat
        ∃ y : Word, Wrote l l' d.toNat y ∧ ∀ k, k < 32 →
          y.getLsbD k = if pos c ≤ k ∧ k < pos c + len c then (l.v a.toNat).getLsbD (k - pos c) else (l.v d.toNat).getLsbD k)) ∧
      (∀ d a b e f g, LaneIssues (.prmt d a b e f g) (fRRRd d a b e f g) anyLane (fun _ _ _ l l' =>
        ∃ y : Word, Wrote l l' d.toNat y ∧ ∀ k, k < 4 →
          let n := (l.v b.toNat).toNat / 16 ^ k % 16
          let p := (l.v d.toNat ++ l.v a.toNat).extractLsb' (8 * (n % 8)) 8
          y.extractLsb' (8 * k) 8 = if n < 8 then p else if p.msb then 0xFF else 0)) ∧
      (∀ d a b e f g, LaneIssues (.sel d a b e f g)
        (fun _ _ => { g := g.toNat, unguarded := true, srcs := [src a e, src b f], dsts := [(d.toNat, 1)] }) anyLane (fun _ x L l l' =>
        let pick : Bool := match g.toNat with
          | 3 => (match (x.h L).prd with | some p => l.p (p.toNat / 2 ^ 18) != p.getLsbD 17 | none => true)
          | n => l.p (n + 1)
        Wrote l l' d.toNat (if pick then l.v a.toNat else l.v b.toNat))) ∧
    (∀ d a b e f g, (encode (.sel d a b e f g)).extractLsb' 25 7 = 0x1F) ∧ decode 0x3E202861 = .ok (.sel 8 5 6 0 0 1) ∧
      (∀ d a b e f g, LaneIssues (.imac d a b e f g) (fRRRc false d a b e f g) anyLane (fun s x L l l' =>
        let c := cVal false s x L l d
        WroteOver l c.2 l' d.toNat (BitVec.ofNat 32 ((l.v a.toNat).toNat * (l.v b.toNat).toNat + c.1.toNat)))))) ∧
  (
    ∀ (fp : Bool) (s : State) (x : Iss) (L : Nat) (l : Lane) (d : BitVec 7),
      ((x.h L).xsrc = none → cVal fp s x L l d = (l.v d.toNat, l)) ∧
      (∀ (p : BitVec 25), (x.h L).xsrc = some p →
        (p.toNat / 2 ^ 23 = 0 → p.toNat % 2 ^ 20 < 128 → cVal fp s x L l d = (l.v (p.toNat % 2 ^ 20), l)) ∧
        (p.toNat / 2 ^ 23 = 1 → cVal fp s x L l d = srd s x L l (p.toNat % 2 ^ 20)) ∧
        (p.toNat / 2 ^ 23 = 2 → (cVal fp s x L l d).2 = l ∧
          (cVal fp s x L l d).1 = if fp then BitVec.ofNat 32 (p.toNat % 2 ^ 20 * 2 ^ 12) else (BitVec.ofNat 20 p.toNat).signExtend 32)))


/-! ## Floating point (R290, R299 to R308) -/

/-- R299 to R302, without an enabled exception: the FP32 instructions write the result of their operation, rounded and clamped as XMOD
and FPCTL say, and add their flags; nothing else changes. In the FUN group FNEG and FABS change the sign bit alone, FCLASS is one-hot by
sign, exponent and fraction, and none but FFRAC raises a flag. -/
def Obligations.FloatScalar : Prop :=
  (
    let is (ctor : BitVec 7 → BitVec 7 → BitVec 7 → BitVec 1 → BitVec 1 → BitVec 2 → Instr)
        (val : Option (BitVec 25) → Word → Word → Word → Word × FpFlags) : Prop :=
      ∀ d a b e f g, FlagIssues (ctor d a b e f g) (fRRRx false d a b e f g) d (fun x L l => val (x.h L).xmod l.fpctl (l.v a.toNat) (l.v b.toNat))
    is .fadd (fun m c a b => f32op .add m c a b 0) ∧
    is .fsub (fun m c a b => f32op .sub m c a b 0) ∧
    is .fmul (fun m c a b => f32op .mul m c a b 0) ∧
    is .fmin (fun m c a b => f32op .min m c a b 0) ∧
    is .fmax (fun m c a b => f32op .max m c a b 0) ∧
    is .fscale (fun m c a b => fscale m c a b) ∧
    (∀ d a b e f g, LaneIssues (.fmac d a b e f g) (fRRRc true d a b e f g)
      (fun s x L l => NoTrap l (f32op .mac (x.h L).xmod l.fpctl (l.v a.toNat) (l.v b.toNat) (cVal true s x L l d).1).2)
      (fun s x L l l' => WroteFlags l (cVal true s x L l d).2 l' d.toNat
        (f32op .mac (x.h L).xmod l.fpctl (l.v a.toNat) (l.v b.toNat) (cVal true s x L l d).1)))) ∧
  (
    let is (ctor : BitVec 7 → BitVec 7 → BitVec 1 → BitVec 2 → Instr) (val : Word → Word → Word) : Prop :=
      ∀ d a e g, LaneIssues (ctor d a e g) (fRRFx false d a e g) anyLane (fun _ _ _ l l' => Wrote l l' d.toNat (val l.fpctl (l.v a.toNat)))
    let kind (x : Word) : Nat :=
      let e := x.toNat / 2 ^ 23 % 256
      let m := x.toNat % 2 ^ 23
      if e = 255 then (if m ≠ 0 then 8 else if x.msb then 0 else 7)
      else if e = 0 then (if m = 0 then (if x.msb then 3 else 4) else if x.msb then 2 else 5)
      else if x.msb then 1 else 6
    is .fneg (fun _ x => x ^^^ 0x80000000) ∧
    is .fabs (fun _ x => BitVec.ofNat 32 (x.toNat % 2 ^ 31)) ∧
    is .frndn (fun c x => frnd .rne (c.getLsbD 12) x) ∧
    is .frndz (fun c x => frnd .rtz (c.getLsbD 12) x) ∧
    is .frndd (fun c x => frnd .rdn (c.getLsbD 12) x) ∧
    is .frndu (fun c x => frnd .rup (c.getLsbD 12) x) ∧
    is .fclass (fun _ x => BitVec.ofNat 32 (2 ^ kind x)) ∧
    is .fsat fsat ∧
    (∀ d a e g, FlagIssues (.ffrac d a e g) (fRRFx false d a e g) d (fun x L l => ffrac (x.h L).xmod l.fpctl (l.v a.toNat))))

/-- R303, without an enabled exception: each packed instruction computes its two elements and adds the flags of both. -/
def Obligations.FloatPacked : Prop :=
  let is (ctor : BitVec 7 → BitVec 7 → BitVec 7 → BitVec 1 → BitVec 1 → BitVec 2 → Instr) (fm : Fmt) (o : FOp) : Prop :=
    ∀ d a b e f g, FlagIssues (ctor d a b e f g) (fRRRx false d a b e f g) d
      (fun x L l => packedOp fm o (x.h L).xmod l.fpctl (l.v a.toNat) (l.v b.toNat) 0)
  let mac (ctor : BitVec 7 → BitVec 7 → BitVec 7 → BitVec 1 → BitVec 1 → BitVec 2 → Instr) (fm : Fmt) : Prop :=
    ∀ d a b e f g, LaneIssues (ctor d a b e f g) (fRRRc true d a b e f g)
      (fun s x L l => NoTrap l (packedOp fm .mac (x.h L).xmod l.fpctl (l.v a.toNat) (l.v b.toNat) (cVal true s x L l d).1).2)
      (fun s x L l l' => WroteFlags l (cVal true s x L l d).2 l' d.toNat
        (packedOp fm .mac (x.h L).xmod l.fpctl (l.v a.toNat) (l.v b.toNat) (cVal true s x L l d).1))
  is .hadd2F16 fp16 .add ∧ is .hmul2F16 fp16 .mul ∧ is .hmin2F16 fp16 .min ∧ is .hmax2F16 fp16 .max ∧ mac .hmac2F16 fp16 ∧
  is .hadd2Bf16 bf16 .add ∧ is .hmul2Bf16 bf16 .mul ∧ is .hmin2Bf16 bf16 .min ∧ is .hmax2Bf16 bf16 .max ∧ mac .hmac2Bf16 bf16

/-- R305 to R308, without an enabled exception: the conversions. The stochastic ones use HSEED and an element index of eight for
each lane; CVTQ takes its format from XMOD FMT; CVTX raises no flag. -/
def Obligations.Conversions : Prop :=
  let is (ctor : BitVec 7 → BitVec 7 → BitVec 1 → BitVec 2 → Instr) (sr : Bool)
      (val : Option (BitVec 25) → Word → Word → Nat → Word → Word × FpFlags) : Prop :=
    ∀ d a e g, FlagIssues (ctor d a e g) (fRRFx sr d a e g) d (fun x L l => val (x.h L).xmod l.fpctl l.hseed L (l.v a.toNat))
  is .i2f false (fun m c _ _ v => intToF true m c v) ∧
  is .n2f false (fun m c _ _ v => intToF false m c v) ∧
  is .f2in false (fun _ c _ _ v => fToInt i32Target .rne c v) ∧
  is .f2iz false (fun _ c _ _ v => fToInt i32Target .rtz c v) ∧
  is .f2id false (fun _ c _ _ v => fToInt i32Target .rdn c v) ∧
  is .f2iu false (fun _ c _ _ v => fToInt i32Target .rup c v) ∧
  is .f2nn false (fun _ c _ _ v => fToInt n32Target .rne c v) ∧
  is .f2nz false (fun _ c _ _ v => fToInt n32Target .rtz c v) ∧
  is .h2fl false (fun _ c _ _ v => widen fp16 0 c v) ∧
  is .h2fh false (fun _ c _ _ v => widen fp16 1 c v) ∧
  is .b2fl false (fun _ c _ _ v => widen bf16 0 c v) ∧
  is .b2fh false (fun _ c _ _ v => widen bf16 1 c v) ∧
  is .f2h true (fun m c h L v => narrow1 fp16 m c h L v) ∧
  is .f2b true (fun m c h L v => narrow1 bf16 m c h L v) ∧
  (∀ d a b e f g, FlagIssues (.cvtpF16 d a b e f g) (fRRRx true d a b e f g) d
    (fun x L l => cvtp fp16 (x.h L).xmod l.fpctl l.hseed L (l.v a.toNat) (l.v b.toNat))) ∧
  (∀ d a b e f g, FlagIssues (.cvtpBf16 d a b e f g) (fRRRx true d a b e f g) d
    (fun x L l => cvtp bf16 (x.h L).xmod l.fpctl l.hseed L (l.v a.toNat) (l.v b.toNat))) ∧
  (∀ d a b e f g, FlagIssues (.cvtq d a b e f g) (fCVTQ d a b e f g) d (fun x L l =>
    let m := (x.h L).xmod.getD 0
    let n := if xmFMT m = 5 ∨ xmFMT m = 8 then 8 else 4
    cvtq m l.fpctl l.hseed L ((List.range n).map (fun k => l.v (a.toNat + k))) (l.v b.toNat))) ∧
  (∀ d a c e g, LaneIssues (.cvtx d a c e g) (fun h b => { fRRF d a e g h b with bad := !Instr.wf (.cvtx d a c e g) }) anyLane
    (fun _ _ _ l l' => Wrote l l' d.toNat (cvtx c.toNat (l.v a.toNat))))

/-- R216 and R290: an enabled exception parks its lane with FPX. The flags are set, the destination is not written, and
TRAPINFO4 names the flags raised; the other lanes have their results, those of the SFU on their way. It is so of every instruction that adds
flags to FPCTL: FADD, FSUB, FMUL, FMAC, FMIN, FMAX, FSCALE and FFRAC, the packed forms, the conversions but CVTX, and the SFU's. -/
def Obligations.EnabledExceptionsTrap : Prop :=
  let rrr (ctor : BitVec 7 → BitVec 7 → BitVec 7 → BitVec 1 → BitVec 1 → BitVec 2 → Instr) (val : Option (BitVec 25) → Word → Word → Word → Word × FpFlags) : Prop :=
    ∀ d a b e f g, FlagTraps (ctor d a b e f g) (fRRRx false d a b e f g) d (fun _ x L l => val (x.h L).xmod l.fpctl (l.v a.toNat) (l.v b.toNat))
  let mac (ctor : BitVec 7 → BitVec 7 → BitVec 7 → BitVec 1 → BitVec 1 → BitVec 2 → Instr)
      (val : Option (BitVec 25) → Word → Word → Word → Word → Word × FpFlags) : Prop :=
    ∀ d a b e f g, FlagTraps (ctor d a b e f g) (fRRRc true d a b e f g) d
      (fun s x L l => val (x.h L).xmod l.fpctl (l.v a.toNat) (l.v b.toNat) (cVal true s x L l d).1)
  let cvt (ctor : BitVec 7 → BitVec 7 → BitVec 1 → BitVec 2 → Instr) (sr : Bool)
      (val : Option (BitVec 25) → Word → Word → Nat → Word → Word × FpFlags) : Prop :=
    ∀ d a e g, FlagTraps (ctor d a e g) (fRRFx sr d a e g) d (fun _ x L l => val (x.h L).xmod l.fpctl l.hseed L (l.v a.toNat))
  let sfu (ctor : BitVec 7 → BitVec 7 → BitVec 1 → BitVec 2 → Instr) (fn : Word → Word → Word × FpFlags) : Prop :=
    ∀ d a e g (s : State) (w : Wave), let ff := fRRF d a e g
      Issuing s w → Ready s w ff → w.lanes.length ≤ 32 → (∀ l ∈ w.lanes, l.inHandler = false) → sfuBusy s (issueOf s w ff) = false →
      ∃ (t : State) (w' : Wave), exec (ctor d a e g) s = .next t ∧ t.wave? w.uid = some w' ∧ ∀ L ∈ executing s w ff,
        let l := w.lane L
        let r := fn l.fpctl (l.v a.toNat)
        (NoTrap l r.2 → Emptied { l with fpctl := (w'.lane L).fpctl } (w'.lane L) d.toNat 1 ∧ (w'.lane L).fpctl = l.fpctl ||| r.2.zeroExtend 32) ∧
        (¬ NoTrap l r.2 → FpxParked l (w'.lane L) r.2)
  (rrr .fadd (fun m c a b => f32op .add m c a b 0) ∧ rrr .fsub (fun m c a b => f32op .sub m c a b 0) ∧ rrr .fmul (fun m c a b => f32op .mul m c a b 0) ∧
    rrr .fmin (fun m c a b => f32op .min m c a b 0) ∧ rrr .fmax (fun m c a b => f32op .max m c a b 0) ∧ rrr .fscale (fun m c a b => fscale m c a b) ∧
    mac .fmac (fun m c a b x => f32op .mac m c a b x) ∧ cvt .ffrac false (fun m c _ _ v => ffrac m c v)) ∧
  (rrr .hadd2F16 (fun m c a b => packedOp fp16 .add m c a b 0) ∧ rrr .hmul2F16 (fun m c a b => packedOp fp16 .mul m c a b 0) ∧
    rrr .hmin2F16 (fun m c a b => packedOp fp16 .min m c a b 0) ∧ rrr .hmax2F16 (fun m c a b => packedOp fp16 .max m c a b 0) ∧
    mac .hmac2F16 (fun m c a b x => packedOp fp16 .mac m c a b x) ∧
    rrr .hadd2Bf16 (fun m c a b => packedOp bf16 .add m c a b 0) ∧ rrr .hmul2Bf16 (fun m c a b => packedOp bf16 .mul m c a b 0) ∧
    rrr .hmin2Bf16 (fun m c a b => packedOp bf16 .min m c a b 0) ∧ rrr .hmax2Bf16 (fun m c a b => packedOp bf16 .max m c a b 0) ∧
    mac .hmac2Bf16 (fun m c a b x => packedOp bf16 .mac m c a b x)) ∧
  (cvt .i2f false (fun m c _ _ v => intToF true m c v) ∧ cvt .n2f false (fun m c _ _ v => intToF false m c v) ∧
    cvt .f2in false (fun _ c _ _ v => fToInt i32Target .rne c v) ∧ cvt .f2iz false (fun _ c _ _ v => fToInt i32Target .rtz c v) ∧
    cvt .f2id false (fun _ c _ _ v => fToInt i32Target .rdn c v) ∧ cvt .f2iu false (fun _ c _ _ v => fToInt i32Target .rup c v) ∧
    cvt .f2nn false (fun _ c _ _ v => fToInt n32Target .rne c v) ∧ cvt .f2nz false (fun _ c _ _ v => fToInt n32Target .rtz c v) ∧
    cvt .h2fl false (fun _ c _ _ v => widen fp16 0 c v) ∧ cvt .h2fh false (fun _ c _ _ v => widen fp16 1 c v) ∧
    cvt .b2fl false (fun _ c _ _ v => widen bf16 0 c v) ∧ cvt .b2fh false (fun _ c _ _ v => widen bf16 1 c v) ∧
    cvt .f2h true (fun m c h L v => narrow1 fp16 m c h L v) ∧ cvt .f2b true (fun m c h L v => narrow1 bf16 m c h L v) ∧
    (∀ d a b e f g,
      FlagTraps (.cvtpF16 d a b e f g) (fRRRx true d a b e f g) d (fun _ x L l => cvtp fp16 (x.h L).xmod l.fpctl l.hseed L (l.v a.toNat) (l.v b.toNat)) ∧
      FlagTraps (.cvtpBf16 d a b e f g) (fRRRx true d a b e f g) d (fun _ x L l => cvtp bf16 (x.h L).xmod l.fpctl l.hseed L (l.v a.toNat) (l.v b.toNat)) ∧
      FlagTraps (.cvtq d a b e f g) (fCVTQ d a b e f g) d (fun _ x L l =>
        let m := (x.h L).xmod.getD 0
        let n := if xmFMT m = 5 ∨ xmFMT m = 8 then 8 else 4
        cvtq m l.fpctl l.hseed L ((List.range n).map (fun k => l.v (a.toNat + k))) (l.v b.toNat)))) ∧
  (sfu .rcp (sfu32 .rcp) ∧ sfu .rsq (sfu32 .rsq) ∧ sfu .sqrt (sfu32 .sqrt) ∧ sfu .exp2 (sfu32 .exp2) ∧ sfu .log2 (sfu32 .log2) ∧
    sfu .sint (sfu32 .sint) ∧ sfu .cost (sfu32 .cost) ∧ sfu .tanh (sfu32 .tanh) ∧ sfu .rcph2 (sfuH2 .rcp) ∧ sfu .exph2 (sfuH2 .exp2))

/-- R290 and R299: with RM and FTZ 0 and no XMOD, FADD and FSUB of finite operands round the exact result to nearest. No finite
FP32 value is nearer, and when another is as near, the last bit of the result is 0. -/
def Obligations.SumsRoundToNearest : Prop :=
  let finite (x : Word) : Prop := x.toNat / 2 ^ 23 % 256 ≠ 255
  let units (x : Word) : Int :=
    let e := x.toNat / 2 ^ 23 % 256
    let m := x.toNat % 2 ^ 23
    let v : Nat := if e = 0 then m else (m + 2 ^ 23) * 2 ^ (e - 1)
    if x.msb then -(v : Int) else v
  let nearest (r : Word) (exact : Int) : Prop := ∀ c, finite c →
    (units r - exact).natAbs ≤ (units c - exact).natAbs ∧
    ((units r - exact).natAbs = (units c - exact).natAbs → units c ≠ units r → r.getLsbD 0 = false)
  ∀ (a b c : Word), finite a → finite b → (c.toNat / 2 ^ 10) % 8 = 0 →
    (finite (f32op .add none c a b 0).1 → nearest (f32op .add none c a b 0).1 (units a + units b)) ∧
    (finite (f32op .sub none c a b 0).1 → nearest (f32op .sub none c a b 0).1 (units a - units b))

/-- R206, R304: the SFU. Without an enabled exception a lane's flags are set and its destination goes empty at issue; the k-th
executing lane's result may land 24 cycles of its die after its group of eight has entered, the first group entering at once when the
quadrant's queue is empty.
The rounding of the functions is the model's (log 14). -/
def Obligations.SpecialFunctions : Prop :=
  let is (ctor : BitVec 7 → BitVec 7 → BitVec 1 → BitVec 2 → Instr) (fn : Word → Word → Word × FpFlags) : Prop :=
    ∀ d a e g, Issues (ctor d a e g) (fRRF d a e g)
      (fun s x => sfuBusy s x = false ∧ ∀ L ∈ x.E, NoTrap (s.laneNow x L) (fn (s.laneNow x L).fpctl ((s.laneNow x L).v a.toNat)).2)
      (fun s => { s.lessLands with cores := [] })
      (fun s x w t w' => w'.less = w.less ∧ t.fresh = s.fresh + x.E.length ∧
        (∀ k, k ≠ x.core → t.core k = s.core k) ∧ { t.core x.core with sfu := [] } = { s.core x.core with sfu := [] } ∧
        (∃ start, s.cycle ≤ start ∧ (sfuQueued (s.core x.core) (x.w.slot % 4) s.cycle = [] → start = s.cycle) ∧
          t.lands = s.lands ++ landsOf s x d.toNat (fun L => [(fn (w.lane L).fpctl ((w.lane L).v a.toNat)).1]) (fun k => start + s.slow x.die (k / 8 + 24)) true) ∧
        ∀ L ∈ x.E, Emptied { w.lane L with fpctl := (w'.lane L).fpctl } (w'.lane L) d.toNat 1 ∧
          (w'.lane L).fpctl = (w.lane L).fpctl ||| (fn (w.lane L).fpctl ((w.lane L).v a.toNat)).2.zeroExtend 32)
  is .rcp (sfu32 .rcp) ∧ is .rsq (sfu32 .rsq) ∧ is .sqrt (sfu32 .sqrt) ∧ is .exp2 (sfu32 .exp2) ∧ is .log2 (sfu32 .log2) ∧
  is .sint (sfu32 .sint) ∧ is .cost (sfu32 .cost) ∧ is .tanh (sfu32 .tanh) ∧ is .rcph2 (sfuH2 .rcp) ∧ is .exph2 (sfuH2 .exp2)

/-! ## Compares, predicates and cross-lane instructions (R309 to R315) -/

/-- R309 to R311, R272: the compares write predicate PD, HCMP2 also PD + 1 from the high halves, and nothing else; p0 ignores it. PLOG
takes bit 2·p[PA] + p[PB] of its table; V2P and P2V move one predicate; PRD and PWR move p1 to p31. That P2V with bit 14 set is the same
instruction is the model's choice (log 20). -/
def Obligations.ComparesAndPredicates : Prop :=
  (
    let icmp (ctor : BitVec 7 → BitVec 7 → BitVec 7 → BitVec 4 → Instr) (num : Word → Int) : Prop :=
      ∀ p a b c, LaneIssues (ctor p a b c) (fCMP a b (!upTo c.toNat 5)) anyLane (fun _ _ _ l l' =>
        let x := num (l.v a.toNat)
        let y := num (l.v b.toNat)
        WrotePred l l' p.toNat (match c.toNat with
          | 0 => decide (x = y) | 1 => decide (x ≠ y) | 2 => decide (x < y) | 3 => decide (x ≤ y) | 4 => decide (y < x) | _ => decide (y ≤ x)))
    icmp .icmpI BitVec.toInt ∧
    icmp .icmpN (fun x => (x.toNat : Int)) ∧
    (∀ p a b c, LaneIssues (.fcmp p a b c) (fCMP a b (!upTo c.toNat 13)) anyLane (fun _ _ _ l l' =>
      WrotePred l l' p.toNat (fcmpRel fp32 c.toNat (l.fpctl.getLsbD 12) (l.v a.toNat).toNat (l.v b.toNat).toNat))) ∧
    (∀ p a b c, LaneIssues (.hcmp2 p a b c) (fCMP a b (!upTo c.toNat 13 || p.toNat == 127)) anyLane (fun _ _ _ l l' =>
      let r (k : Nat) := fcmpRel fp16 c.toNat (l.fpctl.getLsbD 12) ((l.v a.toNat).toNat / 2 ^ (16 * k) % 2 ^ 16) ((l.v b.toNat).toNat / 2 ^ (16 * k) % 2 ^ 16)
      l'.p p.toNat = (p.toNat == 0 || r 0) ∧ l'.p (p.toNat + 1) = r 1 ∧
        (∀ k, k ≠ p.toNat → k ≠ p.toNat + 1 → l'.p k = l.p k) ∧
        l'.regs = l.regs ∧ l'.pc = l.pc + 1 ∧ l'.hints = [] ∧ { l'.less with preds := 0 } = { l.less with preds := 0 }))) ∧
  (
    (∀ d a b t, LaneIssues (.plog d a b t) (fSYS [] []) anyLane (fun _ _ _ l l' =>
      WrotePred l l' d.toNat (t.getLsbD ((if l.p a.toNat then 2 else 0) + (if l.p b.toNat then 1 else 0))))) ∧
    (∀ d a b t, (encode (.plog d a b t)).extractLsb' 25 7 = 0x3A) ∧ decode 0x74141848 = .ok (.plog 5 3 4 8) ∧
    (∀ d a e g, LaneIssues (.v2p d a e g) (fun _ _ => { g := g.toNat, srcs := [src a e] }) anyLane (fun _ _ _ l l' =>
      WrotePred l l' d.toNat (decide (l.v a.toNat ≠ 0)))) ∧
    (∀ d a e g, LaneIssues (.p2v d a e g) (fun _ _ => { g := g.toNat, dsts := [(d.toNat, 1)] }) anyLane (fun _ _ _ l l' =>
      Wrote l l' d.toNat (if l.p a.toNat then 1 else 0))) ∧
    (∀ d g, LaneIssues (.prd d g) (fun _ _ => { g := g.toNat, dsts := [(d.toNat, 1)] }) anyLane (fun _ _ _ l l' =>
      ∃ y : Word, Wrote l l' d.toNat y ∧ y.getLsbD 0 = false ∧ ∀ k, 1 ≤ k → k < 32 → y.getLsbD k = l.p k)) ∧
    (∀ a e g, LaneIssues (.pwr a e g) (fun _ _ => { g := g.toNat, srcs := [src a e] }) anyLane (fun _ _ _ l l' =>
      (∀ k, 1 ≤ k → k < 32 → l'.p k = (l.v a.toNat).getLsbD k) ∧ (∀ k, k = 0 ∨ 32 ≤ k → l'.p k = l.p k) ∧
        l'.regs = l.regs ∧ l'.pc = l.pc + 1 ∧ l'.hints = [] ∧ { l'.less with preds := 0 } = { l.less with preds := 0 })))

/-- R312 to R315: votes, shuffles, reductions and scans combine the executing lanes only, and write each of them. -/
def Obligations.CrossLane : Prop :=
  let vote (ctor : BitVec 7 → BitVec 7 → BitVec 1 → BitVec 2 → Instr) (rel : List Nat → (Nat → Word) → Nat → Word → Prop) : Prop :=
    ∀ d a e g, LaneIssues (ctor d a e g) (fRRF d a e g) anyLane (fun _ x L l l' =>
      ∃ y, rel x.E (fun k => (x.l k).v a.toNat) L y ∧ Wrote l l' d.toNat y)
  let shfl (ctor : BitVec 7 → BitVec 7 → BitVec 7 → BitVec 1 → BitVec 1 → BitVec 2 → Instr) (from' : Nat → Nat → Nat) : Prop :=
    ∀ d a b e f g, LaneIssues (ctor d a b e f g) (fRRR d a b e f g) anyLane (fun _ x L l l' =>
      let q := from' L (l.v b.toNat).toNat
      Wrote l l' d.toNat (if q ∈ x.E then (x.l q).v a.toNat else l.v a.toNat))
  vote .all (fun E v _ y => y = if ∀ k ∈ E, v k ≠ 0 then 1 else 0) ∧
  vote .any (fun E v _ y => y = if ∃ k ∈ E, v k ≠ 0 then 1 else 0) ∧
  vote .ballot (fun E v _ y => ∀ k, k < 32 → y.getLsbD k = decide (k ∈ E ∧ v k ≠ 0)) ∧
  vote .matchLanes (fun E v L y => ∀ k, k < 32 → y.getLsbD k = decide (k ∈ E ∧ v k = v L)) ∧
  (∀ d g, LaneIssues (.lcount d g) (fun _ _ => { g := g.toNat, dsts := [(d.toNat, 1)] }) anyLane (fun _ x _ l l' =>
    Wrote l l' d.toNat (BitVec.ofNat 32 x.E.length))) ∧
  shfl .shflIdx (fun _ n => n % 32) ∧
  shfl .shflXor (fun L n => L ^^^ (n % 32)) ∧
  shfl .shflXw (fun L n => L ^^^ (32 / 2 ^ n % 32)) ∧
  (∀ d a c e g, LaneIssues (.reduce d a c e g) (fun h b => { fRRF d a e g h b with bad := !upTo c.toNat 10 }) anyLane (fun _ x L l l' =>
    Wrote l l' d.toNat (((reduceAll c.toNat (laneVals x a)).getD L none).getD 0))) ∧
  (∀ d a c e g, LaneIssues (.scan d a c e g) (fun h b => { fRRF d a e g h b with bad := !Instr.wf (.scan d a c e g) }) anyLane (fun _ x L l l' =>
    Wrote l l' d.toNat (scanOf c.toNat (laneVals x a) L)))

/-! ## Control (R281 to R286, R316 to R319) -/

/-- R274, R316: branches are relative to the instruction's own address; CALL leaves the next address in v127. -/
def Obligations.ControlTransfer : Prop :=
  (∀ o, LaneIssues (.bra o) (fSYS [] []) anyLane (fun _ _ _ l l' => Jumped l l' (l.pc + o.signExtend 32))) ∧
  (∀ p n o, LaneIssues (.brp p n o) (fSYS [] []) anyLane (fun _ _ _ l l' =>
    Jumped l l' (if l.p p.toNat = (n == 0) then l.pc + o.signExtend 32 else l.pc + 1))) ∧
  (∀ o, LaneIssues (.call o) (fSYS [] [(127, 1)]) anyLane (fun _ _ _ l l' =>
    l'.v 127 = l.pc + 1 ∧ (∀ r, r ≠ 127 → l'.reg r = l.reg r) ∧ l'.pc = l.pc + o.signExtend 32 ∧ l'.hints = [] ∧ l'.less = l.less)) ∧
  (∀ a e g, LaneIssues (.jmpi a e g) (fun _ _ => { g := g.toNat, srcs := [src a e] }) anyLane (fun _ _ _ l l' => Jumped l l' (l.v a.toNat))) ∧
  (∀ e g, LaneIssues (.ret e g) (fun _ _ => { g := g.toNat, srcs := [src 127 e] }) anyLane (fun _ _ _ l l' => Jumped l l' (l.v 127)))

/-- R281 to R286, R199: a hint goes to what the lane holds, behind the hints before it, with its payload as in its word; the lane goes on
and keeps it. R319, R318, R338: NOP and IPREF only go on. YIELD also has its wave stand back at the next choice. SLEEP keeps its lanes
where they are until as many cycles of the die's clock have passed as the largest of their registers says, at most 1,048,575. WSYNC
has lanes outside routines wait where they are. -/
def Obligations.HintsIdleAndWait : Prop :=
  (
    let is (i : Instr) (major : BitVec 7) (pay : BitVec 25) : Prop :=
      LaneIssues i (fun _ _ => { unguarded := true, isHint := true }) (fun _ _ _ l => l.hints.length < 3 ∧ ∀ h ∈ l.hints, h.major ≠ major)
        (fun _ _ _ l l' => l'.hints = l.hints ++ [{ major, pay, pc := l.pc }] ∧ l'.pc = l.pc + 1 ∧ l'.regs = l.regs ∧ l'.less = l.less)
    (∀ p, is (.sched p) 0x7B (BitVec.ofNat 25 p.toNat)) ∧
    (∀ p, is (.ximm p) 0x7C p) ∧
    (∀ k v, is (.xsrc k v) 0x7D (BitVec.ofNat 25 (k.toNat * 2 ^ 23 + v.toNat))) ∧
    (∀ t e w sc c h f a m, is (.xmod t e w sc c h f a m) 0x7E (BitVec.ofNat 25 (m.toNat + 2 ^ 3 * a.toNat + 2 ^ 4 * f.toNat + 2 ^ 9 * h.toNat +
      2 ^ 11 * c.toNat + 2 ^ 13 * sc.toNat + 2 ^ 16 * w.toNat + 2 ^ 17 * e.toNat + 2 ^ 18 * t.toNat))) ∧
    (∀ p n, is (.pred p n) 0x7F (BitVec.ofNat 25 (p.toNat * 2 ^ 18 + n.toNat * 2 ^ 17)))) ∧
  (
    LaneIssues .nop (fSYS [] []) anyLane (fun _ _ _ l l' => Passed l l') ∧
    (∀ a c, LaneIssues (.ipref a c) (fun _ _ => { srcs := [srcBlk a], bad := !Instr.wf (.ipref a c) }) anyLane (fun _ _ _ l l' => Passed l l')) ∧
    Issues .yield (fSYS [] []) (fun _ _ => True) State.less (fun s x w _ w' =>
      w'.less = w.less ∧ (∀ L ∈ x.E, Passed (w.lane L) (w'.lane L)) ∧
      (x.E ≠ [] → (∀ L ∈ w.minSet, (w.lane L).hints = []) → w'.sched = 1 ∧ w'.schedAt = s.dieCycle x.die)) ∧
    (∀ a, Issues (.sleep a) (fSYS [srcBlk a] []) (fun s x => ∀ L ∈ x.E, (s.laneNow x L).wake = none) State.less (fun s x w _ w' =>
      w'.less = w.less ∧ ∀ L ∈ x.E, ∃ n : Nat, w'.lane L = ({ w.lane L with wake := some (s.dieCycle x.die + n) } : Lane).noted ∧
        n ≤ 1048575 ∧ (∀ K ∈ x.E, min 1048575 ((x.l K).v a.toNat).toNat ≤ n) ∧ ∃ K ∈ x.E, n = min 1048575 ((x.l K).v a.toNat).toNat)) ∧
    LaneIssues .wsync (fun _ _ => { prd := false }) (fun _ _ _ l => l.routine = none) (fun _ _ _ l l' =>
      l' = ({ l with st := .blocked .wsync } : Lane).noted))

/-- R317, R70: EXIT, once its lanes' writes have performed, of lanes outside a routine and outside the handler: they have exited,
and when every lane of an ordered grid's dealt team has exited, the team's posted writes have performed and it has not faulted, each of
its tickets that is not poisoned is taken. -/
def Obligations.ExitEndsLanes : Prop :=
  Issues .exit (fSYS [] []) (fun s x => x.w.handlerB15 = none ∧ ∀ L ∈ x.E,
      s.lanePend x.uid L anyWrite = [] ∧ (s.laneNow x L).inHandler = false ∧ (s.laneNow x L).routine = none)
    (fun s => { s.less with teams := [], grids := [], tierq := [], wrote := [], fresh := 0 })
    (fun s x w t w' => w'.less = w.less ∧
      (∀ L ∈ x.E, w'.lane L = ({ w.lane L with st := .exited, hints := [], stepping := false } : Lane).noted) ∧
      (∀ u ∈ s.teams, u.tid ≠ x.t.tid → u ∈ t.teams) ∧ (∀ u ∈ s.grids, u.gid ≠ x.t.gid → u ∈ t.grids) ∧
      (x.E ≠ [] → s.teamPosted x.t.tid = false → s.team? w.tid = some x.t → s.grid? x.t.gid = some x.g → t.allExited x.t.tid = true → x.t.faulted = false → ticketed x.g x.t = true →
        ∃ g', t.grid? x.t.gid = some g' ∧ (g'.ticketsOf x.t.ordinal).taken = ~~~(x.g.ticketsOf x.t.ordinal).poisoned))

/-! ## Loads, stores and atomics (R320 to R332) -/

/-- R323, R325: loads whose lanes all pass their checks and, from scratchpad, work on no list with these bytes (R398). Each executing lane's access is on its way to the address its base,
offset and hint give, its destination is empty, and it goes on; memory and scratchpads are as they were. Where lanes do not pass, each is checked on its own: it parks with MISALIGN, ACCESS or,
for another member's scratchpad that is not there, CLUSTERRANGE, or on a record of its page's fault with its destinations marked; the others go on (R93, R97, R98, R104, R114). -/
def Obligations.LoadsIssue : Prop :=
  let unlisted (s : State) (x : Iss) (r : BitVec 4) (off : Iss → Nat → Nat) (n L : Nat) : Prop :=
    s.ownList x L (s.spTeam x L r.toNat (off x L) n) (off x L) n = false
  (∀ t a r o z g, Issues (.ld t a r o z g) (fLoad t (widthOf z).2.1 a 2 o g (!Instr.wf (.ld t a r o z g)))
    (fun s x => ∀ L ∈ x.E, s.passes x (mVa r a x L) (widthOf z).1 (widthOf z).1 .load) State.lessAccs
    (fun s x w s' w' => w'.less = w.less ∧ s'.fresh = s.fresh + x.E.length ∧
      s'.accs = s.accs ++ accsOf s x (fun L =>
        let va := mVa r a x L
        let n := (widthOf z).1
        { accOf (.load t.toNat (widthOf z).2.2) (s.paOf x va n .load) n with
          va := BitVec.ofNat 72 va, ord := ordLd o, type := (s.pteOf x va n .load).type, log := (s.pteOf x va n .load).log }) ∧
      ∀ L ∈ x.E, Emptied (w.lane L) (w'.lane L) t.toNat (widthOf z).2.1)) ∧
  (∀ t a r o z g, Issues (.lds t a r o z g) (fLoad t (widthOf z).2.1 a 1 o g (!Instr.wf (.lds t a r o z g)))
    (fun s x => ∀ L ∈ x.E, s.spPasses x L r.toNat (mOff a x L) (widthOf z).1 ∧ unlisted s x r (mOff a) (widthOf z).1 L) State.lessAccs
    (fun s x w s' w' => w'.less = w.less ∧ s'.fresh = s.fresh + x.E.length ∧
      (∃ wait, s'.accs = s.accs ++ accsOf s x (fun L =>
        let n := (widthOf z).1
        { accOf (.load t.toNat (widthOf z).2.2) (mOff a x L) n with
          sp := some (s.spTeam x L r.toNat (mOff a x L) n), ord := ordLd o, extra := wait })) ∧
      ∀ L ∈ x.E, Emptied (w.lane L) (w'.lane L) t.toNat (widthOf z).2.1)) ∧
  (∀ t a r o z g, AccessStops (.ld t a r o z g) (fLoad t (widthOf z).2.1 a 2 o g (!Instr.wf (.ld t a r o z g))) .load (mVa r a) (widthOf z).1
    (t.toNat, (widthOf z).2.1) (fun _ _ => True)) ∧
  (∀ t a r o z g, ScratchStops (.lds t a r o z g) (fLoad t (widthOf z).2.1 a 1 o g (!Instr.wf (.lds t a r o z g))) r (mOff a) (widthOf z).1
    (fun s x => ∀ L ∈ x.E, ∀ tid, s.spCheck x L r.toNat (mOff a x L) (widthOf z).1 = .ok tid → s.ownList x L tid (mOff a x L) (widthOf z).1 = false))

/-- R324, R325, R100: stores whose lanes all pass their checks and, for .rel, have no earlier write on its way; those to scratchpad work on
no list with these bytes (R398). Each executing lane's
access carries the low bytes of its data registers to the address its base, offset and hint give; the lane keeps its registers and goes
on. Of memory only the DIRTY bits of the entries that translate the addresses may change, and those only from clear to set: the bytes are
stored when the access performs. Where lanes do not pass, each parks as the lanes of a load do. -/
def Obligations.StoresIssue : Prop :=
  let unlisted (s : State) (x : Iss) (r : BitVec 4) (off : Iss → Nat → Nat) (n L : Nat) : Prop :=
    s.ownList x L (s.spTeam x L r.toNat (off x L) n) (off x L) n = false
  (∀ t a r o z g, Issues (.st t a r o z g) (fStore t (widthOf z).2.1 a 2 o g (!Instr.wf (.st t a r o z g)))
    (fun s x => ∀ L ∈ x.E, s.lanePend x.uid L (relWait o) = [] ∧ s.passes x (mVa r a x L) (widthOf z).1 (widthOf z).1 .store) State.lessStores
    (fun s x w s' w' => w'.less = w.less ∧ s'.fresh = s.fresh + x.E.length ∧ OnlyDirty s s' x (mVa r a x) ∧
      s'.accs = s.accs ++ accsOf s x (fun L =>
        let va := mVa r a x L
        let n := (widthOf z).1
        { accOf .store (s.paOf x va n .store) n with
          va := BitVec.ofNat 72 va, data := BitVec.ofNat 128 ((x.l L).words t.toNat (widthOf z).2.1 % 2 ^ (8 * n)), ord := ordSt o
          type := (s.pteOf x va n .store).type, log := (s.pteOf x va n .store).log, posted := true }) ∧
      ∀ L ∈ x.E, Emptied (w.lane L) (w'.lane L) 0 0)) ∧
  (∀ t a r o z g, Issues (.sts t a r o z g) (fStore t (widthOf z).2.1 a 1 o g (!Instr.wf (.sts t a r o z g)))
    (fun s x => ∀ L ∈ x.E, s.lanePend x.uid L (relWait o) = [] ∧ s.spPasses x L r.toNat (mOff a x L) (widthOf z).1 ∧
      unlisted s x r (mOff a) (widthOf z).1 L) State.lessAccs
    (fun s x w s' w' => w'.less = w.less ∧ s'.fresh = s.fresh + x.E.length ∧
      (∃ wait, s'.accs = s.accs ++ accsOf s x (fun L =>
        let n := (widthOf z).1
        { accOf .store (mOff a x L) n with
          sp := some (s.spTeam x L r.toNat (mOff a x L) n), ord := ordSt o, extra := wait, posted := true
          data := BitVec.ofNat 128 ((x.l L).words t.toNat (widthOf z).2.1 % 2 ^ (8 * n)) })) ∧
      ∀ L ∈ x.E, Emptied (w.lane L) (w'.lane L) 0 0)) ∧
  (∀ t a r o z g, AccessStops (.st t a r o z g) (fStore t (widthOf z).2.1 a 2 o g (!Instr.wf (.st t a r o z g))) .store (mVa r a) (widthOf z).1 (0, 0)
    (fun s x => ∀ L ∈ x.E, s.lanePend x.uid L (relWait o) = [])) ∧
  (∀ t a r o z g, ScratchStops (.sts t a r o z g) (fStore t (widthOf z).2.1 a 1 o g (!Instr.wf (.sts t a r o z g))) r (mOff a) (widthOf z).1
    (fun s x => ∀ L ∈ x.E, s.lanePend x.uid L (relWait o) = [] ∧
      ∀ tid, s.spCheck x L r.toNat (mOff a x L) (widthOf z).1 = .ok tid → s.ownList x L tid (mOff a x L) (widthOf z).1 = false))

/-- R329, R332: atomics whose lanes all pass their checks and, for .ar, have no earlier write on its way; those on scratchpad work on no list
with these bytes (R398). Each executing lane's
access carries the operation and its operands: registers T and T + 1 (register pairs for .w64). ATOM and ATOMS leave T empty; RED
leaves every register. Where lanes do not pass, each parks as the lanes of a load do. -/
def Obligations.AtomicsIssue : Prop :=
  let op (x : Iss) (L : Nat) (t : BitVec 7) (c : BitVec 4) (z : BitVec 1) (d : Option Nat) : AccOp :=
    let k := 1 + z.toNat
    .atom c.toNat (BitVec.ofNat 64 ((x.l L).words t.toNat k)) (BitVec.ofNat 64 ((x.l L).words (t.toNat + k) k)) d
  let mem (i : Instr) (lands : Bool) (t a : BitVec 7) (r : BitVec 4) (o : BitVec 2) (c : BitVec 4) (z : BitVec 1) : Prop :=
    let n := 4 * (1 + z.toNat)
    Issues i (fAtom t a c z o 2 lands (!Instr.wf i))
      (fun s x => ∀ L ∈ x.E, s.lanePend x.uid L (relWait o) = [] ∧ s.passes x (mVa r a x L) n n (.atomic c.toNat)) State.lessStores
      (fun s x w s' w' => w'.less = w.less ∧ s'.fresh = s.fresh + x.E.length ∧ OnlyDirty s s' x (mVa r a x) ∧
        s'.accs = s.accs ++ accsOf s x (fun L =>
          let va := mVa r a x L
          { accOf (op x L t c z (if lands then some t.toNat else none)) (s.paOf x va n (.atomic c.toNat)) n with
            va := BitVec.ofNat 72 va, ord := ordAt o, type := (s.pteOf x va n (.atomic c.toNat)).type
            log := (s.pteOf x va n (.atomic c.toNat)).log, posted := !lands }) ∧
        ∀ L ∈ x.E, if lands then Emptied (w.lane L) (w'.lane L) t.toNat (1 + z.toNat) else Emptied (w.lane L) (w'.lane L) 0 0)
  (∀ t a r o c z, mem (.atom t a r o c z) true t a r o c z) ∧
  (∀ t a r o c z, mem (.red t a r o c z) false t a r o c z) ∧
  (∀ t a r o c z, Issues (.atoms t a r o c z) (fAtom t a c z o 1 true (!Instr.wf (.atoms t a r o c z)))
    (fun s x => ∀ L ∈ x.E, s.lanePend x.uid L (relWait o) = [] ∧ s.spPasses x L r.toNat (mOff a x L) (4 * (1 + z.toNat)) ∧
      s.ownList x L (s.spTeam x L r.toNat (mOff a x L) (4 * (1 + z.toNat))) (mOff a x L) (4 * (1 + z.toNat)) = false) State.lessAccs
    (fun s x w s' w' => w'.less = w.less ∧ s'.fresh = s.fresh + x.E.length ∧
      (∃ wait, s'.accs = s.accs ++ accsOf s x (fun L =>
        let n := 4 * (1 + z.toNat)
        { accOf (op x L t c z (some t.toNat)) (mOff a x L) n with
          sp := some (s.spTeam x L r.toNat (mOff a x L) n), ord := ordAt o, extra := wait })) ∧
      ∀ L ∈ x.E, Emptied (w.lane L) (w'.lane L) t.toNat (1 + z.toNat))) ∧
  (∀ t a r o c z, let n := 4 * (1 + z.toNat)
    let ready (s : State) (x : Iss) : Prop := ∀ L ∈ x.E, s.lanePend x.uid L (relWait o) = []
    AccessStops (.atom t a r o c z) (fAtom t a c z o 2 true (!Instr.wf (.atom t a r o c z))) (.atomic c.toNat) (mVa r a) n (t.toNat, 1 + z.toNat) ready ∧
    AccessStops (.red t a r o c z) (fAtom t a c z o 2 false (!Instr.wf (.red t a r o c z))) (.atomic c.toNat) (mVa r a) n (0, 0) ready ∧
    ScratchStops (.atoms t a r o c z) (fAtom t a c z o 1 true (!Instr.wf (.atoms t a r o c z))) r (mOff a) n
      (fun s x => ready s x ∧ ∀ L ∈ x.E, ∀ tid, s.spCheck x L r.toNat (mOff a x L) n = .ok tid → s.ownList x L tid (mOff a x L) n = false))

/-- R323, R324, R330, R144, R351, R359: ACCESS_PERFORM of a free access that no log holds back, and RESULT_LAND. A store to memory that is not a
device register leaves its bytes at its address and every other byte as before; one to a team's scratchpad does the same there, and memory
is as before. A load without a copy, from memory or scratchpad, leaves both as before, and its result on its way: the bytes at its address,
sign- or zero-extended. A piece of an MLD leaves its bytes in the operand slot it fills, at its offset, and nothing else. RREL raises RELIDX
to its value, no further than WIDX, and changes no other byte. The access is no longer on its way. A result that is due is written to its
registers. An atomic leaves the value of its operation, which AOP chooses (.cas compares with the operand of T and stores that of T + 1; .inc
compares with the operand of T + 1; .fadd is the FP32 sum to nearest even; .fmin and .fmax order −0 below +0, prefer a number to a NaN and
make the canonical NaN of two), sends the old value to its destination if it has one, and changes no other byte, of memory or of scratchpad.
When a result is due is the model's choice (log 6). -/
def Obligations.AccessesPerform : Prop :=
  (
    let free (s : State) (a : Acc) : Prop := s.accs.find? (fun b => b.id == s.occ.n) = some a ∧ s.accFree a = true ∧ s.accLogged a = false ∧ s.occ.m = 0
    let gone (s t : State) (a : Acc) : Prop := t.accs = s.accs.filter (fun b => b.id != a.id)
    let scratch (s : State) (tid : Nat) : Prop := ∃ u, s.team? tid = some u ∧ bytesWf u.scratch = true
    let value (s : State) (a : Acc) : Nat := match a.sp with | some tid => leNat (s.spRd tid a.addr a.n) | none => s.rd a.addr a.n
    (∀ s a, free s a → a.op = .store → a.sp = none → a.type ≠ 4 → Memory.wf s.mem = true →
      ∃ t, exec .accessPerform s = .next t ∧ gone s t a ∧ t.rd a.addr a.n = a.data.toNat % 256 ^ a.n ∧ SameOutside s t a.addr a.n ∧
        t.waves = s.waves ∧ t.teams = s.teams ∧ t.lands = s.lands) ∧
    (∀ s a tid, free s a → a.op = .store → a.sp = some tid → scratch s tid →
      ∃ t, exec .accessPerform s = .next t ∧ gone s t a ∧ leNat (t.spRd tid a.addr a.n) = a.data.toNat % 256 ^ a.n ∧
        (∀ u k, u ≠ tid ∨ k < a.addr ∨ a.addr + a.n ≤ k → t.spByte u k = s.spByte u k) ∧
        (t.teams.map (fun u => { u with scratch := [] })) = s.teams.map (fun u => { u with scratch := [] }) ∧
        t.mem = s.mem ∧ t.waves = s.waves ∧ t.lands = s.lands) ∧
    (∀ s a d sx, free s a → a.op = .load d sx → a.mute = false → a.sp.isSome ∨ a.type ≠ 4 →
      ∃ t, exec .accessPerform s = .next t ∧ gone s t a ∧ SameMemory s t ∧ t.waves = s.waves ∧ t.teams = s.teams ∧
        ∃ x, t.lands = s.lands ++ [x] ∧ x.uid = a.uid ∧ x.lane = a.lane ∧ x.d = d ∧ x.due = s.homeDue a ∧
          x.vals = if sx = 0 then wordsOf (max 1 (a.n / 4)) (value s a) else [(BitVec.ofNat sx (value s a)).signExtend 32]) ∧
    (∀ s a w ix off, free s a → a.op = .mldData ix off ∨ a.op = .mldScale ix off → a.mute = false → a.sp.isSome ∨ a.type ≠ 4 →
        s.wave? a.uid = some w → ix < w.ops.length → bytesWf (w.ops.getD ix {}).data = true → bytesWf (w.ops.getD ix {}).scale = true →
      let piece (op : AccOp) (o o' : Tab Byte) : Prop :=
        if a.op = op then (∀ k, byteAt o' k = if off ≤ k ∧ k < off + a.n then BitVec.ofNat 8 (value s a / 256 ^ (k - off)) else byteAt o k) else o' = o
      ∃ t w', exec .accessPerform s = .next t ∧ gone s t a ∧ SameMemory s t ∧ t.teams = s.teams ∧ t.lands = s.lands ∧ t.wave? a.uid = some w' ∧
        piece (.mldData ix off) (w.ops.getD ix {}).data (w'.ops.getD ix {}).data ∧
        piece (.mldScale ix off) (w.ops.getD ix {}).scale (w'.ops.getD ix {}).scale ∧
        { w'.ops.getD ix {} with data := [], scale := [] } = { w.ops.getD ix {} with data := [], scale := [] } ∧
        (∀ k, k ≠ ix → w'.ops[k]? = w.ops[k]?) ∧ { w' with ops := [] } = { w with ops := [] } ∧
        t.waves.filter (fun v => v.uid != a.uid) = s.waves.filter (fun v => v.uid != a.uid)) ∧
    (∀ s a v, free s a → a.op = .rrel v → a.n = 16 → a.sp = none → a.type ≠ 4 → Memory.wf s.mem = true →
      ∃ t, exec .accessPerform s = .next t ∧ gone s t a ∧ t.rd a.addr 8 = s.rd a.addr 8 ∧
        t.rd (a.addr + 8) 8 = max (s.rd (a.addr + 8) 8) (min v.toNat (s.rd a.addr 8)) ∧ SameOutside s t (a.addr + 8) 8 ∧
        t.waves = s.waves ∧ t.teams = s.teams ∧ t.lands = s.lands) ∧
    (∀ s w x, s.lands.find? (fun y => y.id == s.occ.n) = some x → x.due ≤ s.cycle → s.wave? x.uid = some w → x.lane < w.lanes.length →
        x.d + x.vals.length ≤ (w.lane x.lane).regs.length →
      ∃ t w', exec .resultLand s = .next t ∧ t.wave? x.uid = some w' ∧ t.lands = s.lands.filter (fun y => y.id != x.id) ∧
        (∀ k, k < x.vals.length → (w'.lane x.lane).v (x.d + k) = x.vals.getD k 0 ∧ ((w'.lane x.lane).reg (x.d + k)).full = true) ∧
        (∀ r, r < x.d ∨ x.d + x.vals.length ≤ r → (w'.lane x.lane).reg r = (w.lane x.lane).reg r) ∧
        (∀ K, K ≠ x.lane → w'.lane K = w.lane K) ∧ { t with waves := [], lands := [] } = { s with waves := [], lands := [] })) ∧
  (
    (∀ n old x y, n = 4 ∨ n = 8 → old < 2 ^ (8 * n) → x < 2 ^ (8 * n) → y < 2 ^ (8 * n) →
      let sg (v : Nat) : Int := (BitVec.ofNat (8 * n) v).toInt
      aopFn 0 n old x y = (old + x) % 2 ^ (8 * n) ∧
      sg (aopFn 1 n old x y) = min (sg old) (sg x) ∧ sg (aopFn 2 n old x y) = max (sg old) (sg x) ∧
      aopFn 3 n old x y = min old x ∧ aopFn 4 n old x y = max old x ∧
      aopFn 5 n old x y = old &&& x ∧ aopFn 6 n old x y = old ||| x ∧ aopFn 7 n old x y = old ^^^ x ∧
      aopFn 8 n old x y = x ∧ aopFn 9 n old x y = (if old = x then y else old) ∧
      aopFn 10 n old x y = (if y ≤ old then 0 else old + 1)) ∧
    (∀ old x y, old < 2 ^ 32 → x < 2 ^ 32 →
      let nan (v : Nat) : Prop := 0x7F800000 < v % 2 ^ 31
      let key (v : Nat) : Int := if v < 2 ^ 31 then v else -1 - ((v : Int) - 2 ^ 31)
      aopFn 11 4 old x y = (fp32.add .rne false (fp32.decode old) (fp32.decode x)).1 ∧
      (nan old ∧ nan x → aopFn 12 4 old x y = 0x7FC00000 ∧ aopFn 13 4 old x y = 0x7FC00000) ∧
      (nan old ∧ ¬ nan x → aopFn 12 4 old x y = x ∧ aopFn 13 4 old x y = x) ∧
      (¬ nan old ∧ nan x → aopFn 12 4 old x y = old ∧ aopFn 13 4 old x y = old) ∧
      (¬ nan old ∧ ¬ nan x → key (aopFn 12 4 old x y) = min (key old) (key x) ∧ key (aopFn 13 4 old x y) = max (key old) (key x))) ∧
    (∀ s a c x y d, s.accs.find? (fun b => b.id == s.occ.n) = some a → s.accFree a = true → s.accLogged a = false → s.occ.m = 0 →
      a.op = .atom c x y d → (d.isSome → a.mute = false) →
      let sent (t : State) (old : Nat) : Prop :=
        match d with
        | none => t.lands = s.lands
        | some d => ∃ z, t.lands = s.lands ++ [z] ∧ z.uid = a.uid ∧ z.lane = a.lane ∧ z.d = d ∧ z.vals = wordsOf (a.n / 4) old
      (a.sp = none → a.type ≠ 4 → Memory.wf s.mem = true →
        ∃ t, exec .accessPerform s = .next t ∧ t.accs = s.accs.filter (fun b => b.id != a.id) ∧
          t.rd a.addr a.n = aopFn c a.n (s.rd a.addr a.n) x.toNat y.toNat % 256 ^ a.n ∧ SameOutside s t a.addr a.n ∧ t.waves = s.waves ∧
          t.teams = s.teams ∧ sent t (s.rd a.addr a.n)) ∧
      ∀ tid u, a.sp = some tid → s.team? tid = some u → bytesWf u.scratch = true →
        let old := leNat (s.spRd tid a.addr a.n)
        ∃ t, exec .accessPerform s = .next t ∧ t.accs = s.accs.filter (fun b => b.id != a.id) ∧
          leNat (t.spRd tid a.addr a.n) = aopFn c a.n old x.toNat y.toNat % 256 ^ a.n ∧
          (∀ v k, v ≠ tid ∨ k < a.addr ∨ a.addr + a.n ≤ k → t.spByte v k = s.spByte v k) ∧
          (t.teams.map (fun u => { u with scratch := [] })) = s.teams.map (fun u => { u with scratch := [] }) ∧
          t.mem = s.mem ∧ t.waves = s.waves ∧ sent t old))

/-! ## Full and empty granules (R326 to R328) -/

/-- R326, R327, for executing lanes that name different granules, that pass their checks, and whose earlier accesses that perform first have
performed (R148). LDFE of full granules with no lane waiting to
load: each lane's bytes are on their way, its granule is empty afterwards exactly if .clr, and no byte changes. LDFE of empty granules: each lane blocks with its
destination empty. STFE of empty granules with no lane waiting to store: each lane's bytes are in the scratchpad and its granule is full.
STFE of full granules: each lane blocks.
When a result is due is the model's choice (log 6). -/
def Obligations.FullEmptyAccesses : Prop :=
  let at' (s : State) (x : Iss) (r : BitVec 4) (a : BitVec 7) (n L : Nat) : Nat × Nat := (s.spTeam x L r.toNat (mOff a x L) n, mOff a x L / 16)
  let pre (s : State) (x : Iss) (r : BitVec 4) (a : BitVec 7) (op : AccOp) (ord : Ord) (n : Nat) : Prop :=
    (∀ L ∈ x.E, (∀ b, feAcc op ord r a n s x L = some b → s.ordersPend x.uid L b = false) ∧ s.spPasses x L r.toNat (mOff a x L) n) ∧
    (∀ L ∈ x.E, ∀ K ∈ x.E, L ≠ K → at' s x r a n L ≠ at' s x r a n K)
  let plain (s : State) : State := { s.lessLands with teams := [], wrote := [] }
  (∀ t a r o z g, let n := feSize z.toNat
    Issues (.ldfe t a r o z g) (fLoad t (n / 4) a 1 o g (!Instr.wf (.ldfe t a r o z g)))
      (fun s x => pre s x r a (.load t.toNat 0) (ordLd o) n ∧ ∀ L ∈ x.E,
        s.granuleFull (at' s x r a n L).1 (at' s x r a n L).2 = true ∧ s.feWaiter true (at' s x r a n L).1 (at' s x r a n L).2 = false)
      plain (fun s x w s' w' => w'.less = w.less ∧ (∀ tid k, s'.spByte tid k = s.spByte tid k) ∧
        (∃ due, (∀ k, s.cycle ≤ due k) ∧ s'.lands = s.lands ++ (landsOf s x t.toNat
          (fun L => wordsOf (n / 4) (leNat (s.spRd (at' s x r a n L).1 (mOff a x L) n))) due false).map (fun y => { y with isRead := true })) ∧
        (∀ L ∈ x.E, s'.granuleFull (at' s x r a n L).1 (at' s x r a n L).2 = !z.getLsbD 2) ∧
        (∀ tid k, (∀ L ∈ x.E, (tid, k) ≠ at' s x r a n L) → s'.granuleFull tid k = s.granuleFull tid k) ∧
        ∀ L ∈ x.E, Emptied (w.lane L) (w'.lane L) t.toNat (n / 4))) ∧
  (∀ t a r o z g, let n := feSize z.toNat
    Issues (.ldfe t a r o z g) (fLoad t (n / 4) a 1 o g (!Instr.wf (.ldfe t a r o z g)))
      (fun s x => pre s x r a (.load t.toNat 0) (ordLd o) n ∧ ∀ L ∈ x.E, s.granuleFull (at' s x r a n L).1 (at' s x r a n L).2 = false)
      (fun s => { s.less with fresh := 0 }) (fun s x w _ w' => w'.less = w.less ∧
        ∀ L ∈ x.E, (w'.lane L).st = .blocked (.ldfe (at' s x r a n L).1 (mOff a x L) n t.toNat (z.getLsbD 2) o) ∧
          (w'.lane L).pc = (w.lane L).pc ∧ ∀ k, k < n / 4 → ((w'.lane L).reg (t.toNat + k)).full = false)) ∧
  (∀ t a r o z g, let n := feSize z.toNat
    Issues (.stfe t a r o z g) (fStore t (n / 4) a 1 o g (!Instr.wf (.stfe t a r o z g)))
      (fun s x => pre s x r a .store (ordSt o) n ∧ (∀ u ∈ s.teams, bytesWf u.scratch = true) ∧ ∀ L ∈ x.E, s.lanePend x.uid L (relWait o) = [] ∧
        s.granuleFull (at' s x r a n L).1 (at' s x r a n L).2 = false ∧ s.feWaiter false (at' s x r a n L).1 (at' s x r a n L).2 = false)
      State.lessScratch (fun s x w s' w' => w'.less = w.less ∧
        (∀ L ∈ x.E, leNat (s'.spRd (at' s x r a n L).1 (mOff a x L) n) = (x.l L).words t.toNat (n / 4) % 256 ^ n) ∧
        (∀ tid k, (∀ L ∈ x.E, tid = (at' s x r a n L).1 → k < mOff a x L ∨ mOff a x L + n ≤ k) → s'.spByte tid k = s.spByte tid k) ∧
        (∀ L ∈ x.E, s'.granuleFull (at' s x r a n L).1 (at' s x r a n L).2 = true) ∧
        (∀ tid k, (∀ L ∈ x.E, (tid, k) ≠ at' s x r a n L) → s'.granuleFull tid k = s.granuleFull tid k) ∧
        ∀ L ∈ x.E, Passed (w.lane L) (w'.lane L))) ∧
  (∀ t a r o z g, let n := feSize z.toNat
    Issues (.stfe t a r o z g) (fStore t (n / 4) a 1 o g (!Instr.wf (.stfe t a r o z g)))
      (fun s x => pre s x r a .store (ordSt o) n ∧ ∀ L ∈ x.E, s.lanePend x.uid L (relWait o) = [] ∧
        s.granuleFull (at' s x r a n L).1 (at' s x r a n L).2 = true)
      (fun s => { s.less with fresh := 0, wrote := [] }) (fun s x w _ w' => w'.less = w.less ∧
        ∀ L ∈ x.E, (w'.lane L).st = .blocked (.stfe (at' s x r a n L).1 (mOff a x L) n (stData x L t n (n / 4)) o) ∧
          (w'.lane L).pc = (w.lane L).pc ∧ (w'.lane L).regs = (w.lane L).regs))

/-! ## Memory-system instructions (R333 to R340, R112, R113, R152, R155) -/

/-- R333, R334, R335: CSTORE in two stages. Executing lanes that hold no claim, name one aligned header on a page that is not in migration, are
not logged, and whose earlier accesses that perform before the claim have performed, add their number to its COUNT with one atomic; each keeps the index it was given if CAP is 0 or the index is below it, and goes on otherwise. Lanes that hold a claim send
their elements to the slots of their indexes and go on. -/
def Obligations.CountedStore : Prop :=
  (∀ t a r o z g, Issues (.cstore t a r o z g) (fStore t (widthOf z).2.1 a 2 o g (!Instr.wf (.cstore t a r o z g)))
    (fun s x => x.E ≠ [] ∧ Memory.wf s.mem = true ∧ x.g.logOrd = none ∧ mVa r a x (x.E.headD 0) % 16 = 0 ∧
      (∃ pa e, s.laneXl x (mVa r a x (x.E.headD 0)) 16 (.atomic 1) = .ok pa e ∧ s.migHeld pa = false ∧ ∀ L ∈ x.E,
        s.ordersPend x.uid L { accOf (.atom 1 0 0 none) pa 16 with ord := ordAt o, scope := scopeOf (x.h L), type := e.type } = false) ∧
      ∀ L ∈ x.E, (x.l L).claim = none ∧ mVa r a x L = mVa r a x (x.E.headD 0) ∧ s.lanePend x.uid L (relWait o) = [])
    (fun s => { s.lessStores with l2 := [] })
    (fun s x w s' w' =>
      let hva := mVa r a x (x.E.headD 0)
      let pa := s.paOf x hva 16 (.atomic 1)
      let s1 := s.setDirty x.die x.c hva
      w'.less = w.less ∧ s'.accs = s.accs ∧ s'.fresh = s.fresh ∧ s'.tlb = s1.tlb ∧
      s'.rd pa 8 = (s1.rd pa 8 + x.E.length) % 2 ^ 64 ∧ SameOutside s1 s' pa 8 ∧
      ∀ p ∈ x.E.zipIdx,
        let k := (s1.rd pa 8 + p.2) % 2 ^ 64
        if s1.rd (pa + 8) 4 = 0 ∨ k < s1.rd (pa + 8) 4 then Claimed (w.lane p.1) (w'.lane p.1) k else Emptied (w.lane p.1) (w'.lane p.1) 0 0)) ∧
  (∀ t a r o z g, Issues (.cstore t a r o z g) (fStore t (widthOf z).2.1 a 2 o g (!Instr.wf (.cstore t a r o z g)))
    (fun s x => x.claimed.E ≠ [] ∧ (∀ L ∈ x.E, s.lanePend x.uid L (relWait o) = []) ∧
      ∀ L ∈ x.claimed.E, s.passes x (elemVa r a (widthOf z).1 x L) (widthOf z).1 (widthOf z).1 .store)
    State.lessStores
    (fun s x w s' w' => w'.less = w.less ∧ s'.fresh = s.fresh + x.claimed.E.length ∧ OnlyDirty s s' x.claimed (elemVa r a (widthOf z).1 x) ∧
      s'.accs = s.accs ++ accsOf s x.claimed (fun L =>
        let n := (widthOf z).1
        let va := elemVa r a n x L
        { accOf .store (s.paOf x va n .store) n with
          va := BitVec.ofNat 72 va, data := BitVec.ofNat 128 ((x.l L).words t.toNat (widthOf z).2.1 % 2 ^ (8 * n)), ord := ordSt o
          type := (s.pteOf x va n .store).type, log := (s.pteOf x va n .store).log, posted := true, element := true }) ∧
      (∀ L ∈ x.claimed.E, Emptied (w.lane L) (w'.lane L) 0 0) ∧
      ∀ L ∈ x.E, L ∉ x.claimed.E → w'.lane L = (w.lane L).noted))

/-- R112, R113, R336: LOCK and UNLOCK of lines that all pass their checks run lane by lane, and each lane's count is on its way to its vT.
Locking adds locks of this context and die on named lines, counts a named line exactly if it is then locked or is not local memory, and never
passes the quota; unlocking drops exactly this context's locks on named lines, on every die, and counts the lines that were locked.
When the answer is due is the model's choice (log 6). -/
def Obligations.LineLocks : Prop :=
  let op (i : Instr) (t a : BitVec 7) (r : BitVec 4) (g : BitVec 2) (f : State → Nat → Nat → List (Nat × Pte) → Nat × State) : Prop :=
    Issues i (fLock t a g (!Instr.wf i)) (fun s x => ∀ L ∈ x.E, ∃ ps, s.laneXls x .load (lockLines t r a x L) = .ok ps)
      (fun s => { s.lessLands with locks := [] })
      (fun s x w s' w' =>
        let q := lockSeq (fun s L => f s x.die x.c (s.linesAt x (lockLines t r a x L))) s x.E
        w'.less = w.less ∧ s'.locks = q.2.locks ∧ s'.fresh = s.fresh + x.E.length ∧
        s'.lands = s.lands ++ (x.E.zip q.1).zipIdx.map (fun p =>
          { id := s.fresh + p.2, uid := x.uid, lane := p.1.1, d := t.toNat, vals := [lo32 p.1.2], due := s.replyDue x.die, pc := (x.l p.1.1).pc }) ∧
        ∀ L ∈ x.E, Emptied (w.lane L) (w'.lane L) t.toNat 1)
  (∀ t a r g, op (.lock t a r g) t a r g (fun s d c ps => s.lockGo d c false ps)) ∧
  (∀ t a r g, op (.unlock t a r g) t a r g (fun s _ c ps => s.unlockGo c ps)) ∧
  (∀ (s : State) (die c : Nat) (ps : List (Nat × Pte)),
    let q := s.lockGo die c false ps
    let held (k : State) (line : Nat) : Bool := k.locks.any (fun x => x.ctx == c && x.die == die && x.line == line)
    let mine (k : State) : Nat := (k.locks.filter (fun x => x.ctx == c && x.die == die)).length
    q.2 = { s with locks := q.2.locks } ∧
    (∃ new, q.2.locks = s.locks ++ new ∧ ∀ k ∈ new, k.ctx = c ∧ k.die = die ∧ ∃ p ∈ ps, p.1 / 128 = k.line ∧ p.2.type = 0) ∧
    q.1 = (ps.filter (fun p => p.2.type != 0 || held q.2 (p.1 / 128))).length ∧
    mine q.2 ≤ max (mine s) (s.ctx c).lockquota) ∧
  (∀ (s : State) (c : Nat) (ps : List (Nat × Pte)),
    let q := s.unlockGo c ps
    let named (k : Lock) : Prop := k.ctx = c ∧ ∃ p ∈ ps, p.1 / 128 = k.line
    q.2 = { s with locks := q.2.locks } ∧ (∀ k, k ∈ q.2.locks ↔ k ∈ s.locks ∧ ¬ named k) ∧
    ∃ lines : List Nat, lines.Nodup ∧ q.1 = lines.length ∧ ∀ n, n ∈ lines ↔ ∃ k ∈ s.locks, named k ∧ k.line = n)

/-- R337, R338, R339, R340, R152, R155. PREF writes no register and no byte of memory; its lanes go on, and .l2 and .rdc bring each named line of
NORMAL memory that is there into the L2 of its home.
BSET of a value that is equal in every executing lane writes that base register of the whole wave; BGET reads one into three registers. FENCE and
XFENCE of lanes with nothing left to wait for go on. A FENCE of a lane adds one link, of its scope, to each chain by which a write that some copy
does not show happens before an access that the lane has made (of .acq, one that returned a value; host and device pages at scope system only), and
the chain leads on to every later access of the lane, with .rel to its later writes, and to no more; an XFENCE
from an engine drops all copies of the core and its die, and one to the ESUs drops the context's region descriptors.
How the model keeps what a write happens before, and which copies a core drops, is its own (log 10). -/
def Obligations.PrefetchBasesAndFences : Prop :=
  (
    (∀ t a r z g, Issues (.pref t a r z g) (fPref t a g (!Instr.wf (.pref t a r z g)) (z.toNat == 3)) (fun _ _ => True)
      (fun s => if z = 0 then { s.less with l2 := [] } else { s.less with copies := [], tierq := [], fresh := 0, l2 := [] })
      (fun s x w s' w' => w'.less = w.less ∧ (∀ L ∈ x.E, Passed (w.lane L) (w'.lane L)) ∧
        (z.toNat ≤ 1 → ∀ L ∈ x.E, ∀ va ∈ linesOf (mVa r a x L) ((x.l L).v t.toNat).toNat, ∀ lvl e epa, (s.walkFrom x.c va none).1 = .leaf lvl e epa →
          let pa := (tlbOf x.die x.c va lvl e epa).phys va
          e.type = 0 → s.present pa = true → s.holds pa 128 = true → s.reachable pa = true → s.memRdy (some x.die) true pa = true →
            pa / 128 ∈ s'.l2))) ∧
    (∀ a n, Issues (.bset a n) (fSYS [srcBlk a 3] []) (fun _ x => ∀ L ∈ x.E, baseVal (x.l L) a = baseVal (x.l (x.E.headD 0)) a) State.less
      (fun _ x w _ w' => { w'.less with bases := [] } = { w.less with bases := [] } ∧
        w'.bases = (if x.E = [] then w.bases else w.bases.set n.toNat (baseVal (x.l (x.E.headD 0)) a)) ∧
        ∀ L ∈ x.E, Passed (w.lane L) (w'.lane L))) ∧
    (∀ d n, LaneIssues (.bget d n) (fSYS [] [(d.toNat, 3)]) anyLane (fun _ x _ l l' =>
      WroteSpan l l' d.toNat (wordsOf 3 (x.w.bases.getD n.toNat 0).toNat)))) ∧
  (
    let mine (x : Iss) (c : Copy) : Bool := c.die == x.die && (c.core == none || c.core == some x.core)
    (∀ k z, Issues (.fence k z) (fun _ _ => { bad := !Instr.wf (.fence k z) })
      (fun s x => ∀ L ∈ x.E, s.lanePend x.uid L (fenceOf k z) = [] ∧ s.readsPend x.uid L = false)
      (fun s => { s.less with wrote := [] })
      (fun s x w s' w' => w'.less = w.less ∧ (∀ L ∈ x.E, Passed (w.lane L) (w'.lane L)) ∧ s'.wrote.length = s.wrote.length ∧
        ∀ (n : Nat) (v : Unshown), s.wrote[n]? = some v → ∃ v', s'.wrote[n]? = some v' ∧ { v' with facts := [] } = { v with facts := [] } ∧
          ∀ g, g ∈ v'.facts ↔ g ∈ v.facts ∨ ∃ f ∈ v.facts, ∃ a q, f.reach = .made a ∧ (x.whos s).find? (fun q => q.me == a.me) = some q ∧
            (a.outside = true → z = 6) ∧ (k = 2 → a.op.returns = true) ∧ g.via = linked f.via { scope := z.toNat, who := q } ∧
            g.reach = if k = 1 then .writes q.me (z == 6) else .lane q.me (z == 6))) ∧
    (∀ d m, Issues (.xfence d m) (fun _ _ => { bad := !Instr.wf (.xfence d m) })
      (fun s x => ∀ L ∈ x.E, s.lanePend x.uid L (xfenceOf d m) = [] ∧ s.readsPend x.uid L = false)
      (fun s => { s.less with copies := [], esuDescs := [], wrote := [] })
      (fun s x w s' w' => w'.less = w.less ∧ (∀ L ∈ x.E, Passed (w.lane L) (w'.lane L)) ∧
        s'.wrote = (if d = 1 then s.fromEngine (x.whos s) m.toNat else if m = 1 then s.xfenceTrav (x.whos s) else s).wrote ∧
        s'.copies = (if d = 1 ∧ x.E ≠ [] then s.copies.filter (fun c => !mine x c) else s.copies) ∧
        s'.esuDescs = if d = 0 ∧ m = 3 ∧ x.E ≠ [] then s.esuDescs.filter (fun e => e.ctx != x.c) else s.esuDescs)))

/-! ## Barriers, tickets, queues and rings (R341 to R351) -/

/-- R341 to R343, for lanes outside routines with no earlier access left that a barrier orders. BAR.sync and BAR.csync arrive, and every
lane blocks until a phase completes; BAR.arrive arrives and goes on, but a lane that has arrived in this phase already blocks; BAR.wait goes on, unless the phase
in which the lane last arrived is still open. Only barrier b of the team changes. R345, R70: ORDWAIT answers 1 once ticket N of a lower team is poisoned,
0 once all are taken, and blocks until then; outside ordered grids it answers 0. ORDTAKE of quiet lanes takes the team's own ticket, unless a lower one is
poisoned, and marks the team; outside ordered grids it only marks it.
That ORDWAIT's answer may land at once is the model's choice (log 6). -/
def Obligations.BarriersAndTickets : Prop :=
  (
    let key (x : Iss) (L : Nat) : Nat := 32 * x.w.idx + L
    let bar (x : Iss) (b : Nat) : Bar := x.t.bars.getD b {}
    let op (i : Instr) (b : Nat) (arrives blocks : Bool) : Prop :=
      Issues i (fun _ _ => { prd := false })
        (fun s x => s.team? x.w.tid = some x.t ∧ x.t.bars.length = 17 ∧
          ∀ L ∈ x.E, (x.l L).routine = none ∧ s.unquiet x.uid L anyAccess = false)
        (fun s => { s.lessTeams with wrote := [], fresh := 0 })
        (fun s x w s' w' => w'.less = w.less ∧
          (∃ y, s'.team? x.t.tid = some { x.t with bars := listUpd x.t.bars b (fun _ => y) } ∧ y.phase = (bar x b).phase ∧
            ∀ k, k < 1024 → y.arrived.getLsbD k = ((bar x b).arrived.getLsbD k || (arrives && x.E.any (fun L => key x L == k)))) ∧
          (∀ u, u ≠ x.t.tid → s'.team? u = s.team? u) ∧
          ∀ L ∈ x.E,
            let again := arrives && (bar x b).has (key x L)
            if again then Blocked (w.lane L) (w'.lane L) (.bar b (bar x b).phase true blocks)
            else if blocks && (arrives || (bar x b).waits (key x L)) then Blocked (w.lane L) (w'.lane L) (.bar b (bar x b).phase false true)
            else Passed (w.lane L) (w'.lane L))
    (∀ b, op (.barSync b) b.toNat true true) ∧
    (∀ b, op (.barArrive b) b.toNat true false) ∧
    (∀ b, op (.barWait b) b.toNat false true) ∧
    op .barCsync 16 true true) ∧
  (
    (∀ d n v, Issues (.ordwait d n) (fSYS [] [(d.toNat, 1)]) (fun _ x => ticketState x.g x.t n.toNat = some v)
      (fun s => { s.lessLands with wrote := [] }) (fun s x w s' w' => w'.less = w.less ∧ s'.fresh = s.fresh + x.E.length ∧
        s'.lands = s.lands ++ landsOf s x d.toNat (fun _ => [v]) (fun _ => s.cycle) false ∧
        (∀ L ∈ x.E, Emptied (w.lane L) (w'.lane L) d.toNat 1))) ∧
    (∀ d n, Issues (.ordwait d n) (fSYS [] [(d.toNat, 1)]) (fun _ x => ticketState x.g x.t n.toNat = none)
      (fun s => { s.less with fresh := 0 }) (fun _ x w _ w' => w'.less = w.less ∧
        ∀ L ∈ x.E, (w'.lane L).st = .blocked (.ordwait n.toNat d.toNat) ∧ (w'.lane L).pc = (w.lane L).pc ∧ ((w'.lane L).reg d.toNat).full = false ∧
          ∀ r, r ≠ d.toNat → (w'.lane L).reg r = (w.lane L).reg r)) ∧
    (∀ (g : Grid) (t : Team) (n : Nat), g.ordered = true → t.kind = .dealt →
      let below (p : Tickets → Bool) : Prop := ∃ k, k < t.ordinal ∧ p (g.ticketsOf k) = true
      (ticketState g t n = some 1 ↔ below (fun x => x.poisoned.getLsbD n)) ∧
      (ticketState g t n = some 0 ↔ ¬ below (fun x => x.poisoned.getLsbD n || !x.taken.getLsbD n))) ∧
    (∀ n, Issues (.ordtake n) (fSYS [] [])
      (fun s x => s.team? x.w.tid = some x.t ∧ s.grid? x.t.gid = some x.g ∧ (ticketed x.g x.t = true → ticketState x.g x.t n.toNat ≠ some 1) ∧
        ∀ L ∈ x.E, s.lanePend x.uid L anyWrite = [] ∧ s.unquiet x.uid L anyAccess = false)
      (fun s => { s.lessTeams with grids := [], wrote := [] }) (fun s x w s' w' => w'.less = w.less ∧
        (∀ L ∈ x.E, Passed (w.lane L) (w'.lane L)) ∧
        (x.E ≠ [] → s'.team? x.t.tid = some { x.t with marked := true } ∧
          ∃ g', s'.grid? x.t.gid = some g' ∧ (g'.ticketsOf x.t.ordinal).poisoned = (x.g.ticketsOf x.t.ordinal).poisoned ∧
            (∀ k, k ≠ x.t.ordinal → g'.ticketsOf k = x.g.ticketsOf k) ∧ { g' with tickets := [] } = { x.g with tickets := [] } ∧
            ∀ k, k < 16 → (g'.ticketsOf x.t.ordinal).taken.getLsbD k =
              ((x.g.ticketsOf x.t.ordinal).taken.getLsbD k || (ticketed x.g x.t && k == n.toNat))) ∧
        (∀ u, u ≠ x.t.tid → s'.team? u = s.team? u) ∧ ∀ u, u ≠ x.t.gid → s'.grid? u = s.grid? u)))

/-- R350, R351: RWAIT of lanes that are not logged, whose headers pass their checks and whose earlier accesses that the .acq load follows have performed: a lane goes on if its index is below WIDX and blocks otherwise. RREL sends, for each lane, one
16-byte access with the lane's value to its ring header.
That WIDX is read at issue, and an alignment of 8, are deduced (logs 37, 38). -/
def Obligations.RingWaits : Prop :=
  (∀ a n, Issues (.rwait a n) (fSYSx [srcBlk a 2] [])
    (fun s x => x.g.logOrd = none ∧ ∀ L ∈ x.E, s.passes x (sysVa n x L) 8 8 .ring ∧
      ∀ b, rwaitAcc n s x L = some b → s.ordersPend x.uid L b = false)
    (fun s => { s.less with wrote := [], l2 := [], fresh := 0 }) (fun s x w _ w' => w'.less = w.less ∧
      ∀ L ∈ x.E, let idx := ((x.l L).pair a.toNat).toNat
        if idx < s.rd (s.paOf x (sysVa n x L) 8 .ring) 8 then Emptied (w.lane L) (w'.lane L) 0 0
        else Blocked (w.lane L) (w'.lane L) (.rwait idx (sysVa n x L)))) ∧
  (∀ a n, Issues (.rrel a n) (fSYSx [srcBlk a 2] []) (fun s x => ∀ L ∈ x.E, s.passes x (sysVa n x L) 16 8 (.atomic 1)) State.lessStores
    (fun s x w s' w' => w'.less = w.less ∧ s'.fresh = s.fresh + x.E.length ∧ OnlyDirty s s' x (sysVa n x) ∧
      s'.accs = s.accs ++ accsOf s x (fun L =>
        let va := sysVa n x L
        { accOf (.rrel ((x.l L).pair a.toNat)) (s.paOf x va 16 (.atomic 1)) 16 with
          va := BitVec.ofNat 72 va, type := (s.pteOf x va 16 (.atomic 1)).type, log := (s.pteOf x va 16 (.atomic 1)).log, posted := true }) ∧
      ∀ L ∈ x.E, Emptied (w.lane L) (w'.lane L) 0 0))

/-- R349, R35: QPUSH in two stages. Lanes without a claim, with a nonzero KIND, not logged, whose earlier accesses that perform before the claim
have performed, at one queue that takes packets and whose page is not in migration, add their number to WRITEIDX with one atomic; each keeps its
index and what the header says of the slots, and leaves vD empty. Lanes that have claimed, not logged, whose earlier writes have performed, and whose slot is free, send their packets there, with the index as SEQ, KIND last and .rel of domain scope, have the
index on its way to vD, and go on; claimed lanes whose slot is not free stay.
The split of the slot's store is deduced (log 42), and when the index is due is the model's choice (log 6). -/
def Obligations.QueuePush : Prop :=
  (∀ d a n, Issues (.qpush d a n) (fSYSx [srcBlk a 16] [(d.toNat, 1)])
    (fun s x => x.E ≠ [] ∧ Memory.wf s.mem = true ∧ x.g.logOrd = none ∧
      (∃ h, s.qhdrAt x n (x.E.headD 0) = some h ∧ h.qkind ≠ 3 ∧ 4 ≤ h.logslots ∧ h.logslots ≤ 20) ∧
      (∃ pa e, s.laneXl x (sysVa n x (x.E.headD 0)) 32 (.atomic 0) = .ok pa e ∧ s.migHeld pa = false ∧
        ∀ L ∈ x.E, s.ordersPend x.uid L { accOf (.atom 0 0 0 none) pa 32 with type := e.type } = false) ∧
      ∀ L ∈ x.E, (x.l L).claim = none ∧ (x.l L).v a.toNat &&& 0xFF ≠ 0 ∧ sysVa n x L = sysVa n x (x.E.headD 0))
    (fun s => { s.lessStores with l2 := [] })
    (fun s x w s' w' =>
      let hva := sysVa n x (x.E.headD 0)
      let pa := s.paOf x hva 32 (.atomic 0)
      let s1 := s.setDirty x.die x.c hva
      w'.less = w.less ∧ s'.accs = s.accs ∧ s'.fresh = s.fresh ∧ s'.tlb = s1.tlb ∧
      s'.rd pa 8 = (s1.rd pa 8 + x.E.length) % 2 ^ 64 ∧ SameOutside s1 s' pa 8 ∧
      ∀ p ∈ x.E.zipIdx, let l' := w'.lane p.1
        Claimed (w.lane p.1) { l' with regs := (w.lane p.1).regs } ((s1.rd pa 8 + p.2) % 2 ^ 64) ∧
        (∃ h, s.qhdrAt x n (x.E.headD 0) = some h ∧ l'.ring = (h.slots, h.logslots)) ∧
        (l'.reg d.toNat).full = false ∧ ∀ r, r ≠ d.toNat → l'.reg r = (w.lane p.1).reg r)) ∧
  (∀ d a n, Issues (.qpush d a n) (fSYSx [srcBlk a 16] [(d.toNat, 1)])
    (fun s x => x.g.logOrd = none ∧ (x.placed s n).E ≠ [] ∧ (∀ L ∈ x.claimed.E, (s.qhdrAt x n L).isSome = true ∧ s.lanePend x.uid L anyWrite = []) ∧
      ∀ L ∈ (x.placed s n).E, s.passes x (slotVa x L) 64 64 .store)
    (fun s => { s.lessStores with lands := [], l2 := [] })
    (fun s x w s' w' =>
      let E := (x.placed s n).E
      let idx (L : Nat) : Nat := (x.l L).claim.getD 0
      w'.less = w.less ∧ s'.fresh = s.fresh + 9 * E.length ∧ OnlyDirty s s' { x with E := E } (slotVa x) ∧
      s'.accs = s.accs ++ E.zipIdx.flatMap (fun p =>
        let L := p.1
        let va := slotVa x L
        let e := s.pteOf x va 64 .store
        let v := (x.l L).words a.toNat 16
        let v1 := v % 2 ^ 16 + 2 ^ 16 * (idx L % 2 ^ 16) + 2 ^ 32 * (v / 2 ^ 32)
        [(1, 1, Ord.wk), (2, 2, .wk), (4, 4, .wk), (8, 8, .wk), (16, 16, .wk), (32, 16, .wk), (48, 16, .wk), (0, 1, .rel)].zipIdx.map (fun q =>
          { s.madeBy x L (s.fresh + 9 * p.2 + q.2) { accOf .store (s.paOf x va 64 .store + q.1.1) q.1.2.1 with
              va := BitVec.ofNat 72 (va + q.1.1), data := BitVec.ofNat 128 (v1 / 256 ^ q.1.1 % 256 ^ q.1.2.1), ord := q.1.2.2
              type := e.type, log := e.log, posted := true } with
            scope := 5
            count := (x.l L).opCount + (if (s.pteOf x (sysVa n x L) 32 .load).log then 1 else 0) + (if e.log then q.2 else 0) })) ∧
      s'.lands = s.lands ++ E.zipIdx.map (fun p => (
        { id := s.fresh + 9 * p.2 + 8, uid := x.uid, lane := p.1, d := d.toNat, vals := [lo32 (idx p.1)], due := s.replyDue x.die
          pc := (x.l p.1).pc } : Land)) ∧
      (∀ L ∈ E, Emptied (w.lane L) (w'.lane L) 0 0) ∧ ∀ L ∈ x.E, L ∉ E → w'.lane L = (w.lane L).noted))

/-! ## Estimators (R163, R165 to R172, R346 to R348) -/

/-- R346, R347, R348: estimator instructions whose lanes name cells of a valid region that pass their checks. Each executing lane's operation
is on its way to the ESUs with its operands: EST its sample and weight (256 without XMOD WT), EINIT its mean, M2 and weight, ESWEEP its run of cells,
of which a count of 0 sends nothing. ELD and ERAW leave their destinations empty; the others leave every register. ESCENE has two stages (R168):
each lane that begins it, not logged and with nothing to perform first that orders before its atomic, adds 1 to G of the region's descriptor, modulo 256, and the ESUs that hold the descriptor have still to take the new
generation; the lane stands where it is. A lane that has begun it, and whose generation is in force everywhere, goes on.
The check of the GEN byte's page is deduced (log 43), and how the atomic is ordered is the model's choice (log 134). -/
def Obligations.EstimatorsIssue : Prop :=
  (
    let cell (x : Iss) (r : BitVec 7) (L : Nat) : Nat := ((x.l L).v r.toNat).toNat
    let second (x : Iss) (r : BitVec 7) (L : Nat) : Nat := ((x.l L).v (r.toNat + 1)).toNat
    let op (i : Instr) (ff : FormF) (rg : BitVec 11) (d n : Nat) (ranges : Iss → Nat → List (Nat × Nat)) (cells : Iss → Nat → List Nat)
        (what : Iss → Nat → AccOp) : Prop :=
      let vas (s : State) (x : Iss) (L : Nat) : List (Nat × Nat) := (cells x L).map (fun c => (s.cellVa x.c rg.toNat c, 16))
      Issues i ff (fun s x => ∀ L ∈ x.E, s.estCheck x L rg.toNat (ranges x L) = none ∧ ∃ ps, s.laneXls x .est (vas s x L) = .ok ps) State.lessStores
        (fun s x w s' w' =>
          let E := x.E.filter (fun L => cells x L != [])
          w'.less = w.less ∧ s'.fresh = s.fresh + E.length ∧
          OnlyDirtyAt s s' x (fun L => (vas s x L).map (fun v => v.1)) ∧
          s'.accs = s.accs ++ accsOf s { x with E := E } (fun L =>
            let ps := match s.laneXls x .est (vas s x L) with | .ok ps => ps | _ => []
            { accOf (what x L) (ps.headD (0, 0)).1 16 with
              va := BitVec.ofNat 72 (s.cellVa x.c rg.toNat ((cells x L).headD 0)), type := 1, log := (ps.headD (0, 0)).2.log, posted := n == 0
              data := BitVec.ofNat 128 (ps.getD 1 (0, 0)).1 }) ∧
          ∀ L ∈ x.E, Emptied (w.lane L) (w'.lane L) d n)
    let one (r : BitVec 7) (x : Iss) (L : Nat) : List Nat := [cell x r L]
    let upto (f : Iss → Nat → List Nat) (x : Iss) (L : Nat) : List (Nat × Nat) := (f x L).map (fun c => (c, 1))
    (∀ a i r, op (.est a i r) (fEst a i) r 0 0 (upto (one i)) (one i) (fun x L =>
      .est r.toNat (cell x i L) ((x.l L).v a.toNat) (match (x.h L).xmod with
        | some p => if xmWT p then ((x.l L).v (a.toNat + 1)).toNat % 2 ^ 24 else 256
        | none => 256))) ∧
    (∀ d i r, op (.eld d i r) (fun _ _ => { xmod := true, srcs := [srcBlk i], dsts := [(d.toNat, 4)] }) r d.toNat 4 (upto (one i)) (one i)
      (fun x L => .eld r.toNat (cell x i L) d.toNat)) ∧
    (∀ i r, op (.emrg i r) (fEop i 2 []) r 0 0 (upto (fun x L => [cell x i L, second x i L])) (fun x L => [cell x i L, second x i L])
      (fun x L => .emrg r.toNat (cell x i L) (second x i L))) ∧
    (∀ i r, op (.eclr i r) (fEop i 1 []) r 0 0 (upto (one i)) (one i) (fun x L => .eclr r.toNat (cell x i L))) ∧
    (∀ i r, op (.esweep i r) (fEop i 2 []) r 0 0 (fun x L => [(cell x i L, second x i L)])
      (fun x L => if second x i L = 0 then [] else [cell x i L]) (fun x L => .esweep r.toNat (cell x i L) (second x i L) none)) ∧
    (∀ i r, op (.eraw i r) (fEop i 1 [(i.toNat, 4)]) r i.toNat 4 (upto (one i)) (one i) (fun x L => .eraw r.toNat (cell x i L) i.toNat)) ∧
    (∀ i r, op (.einit i r) (fEop i 4 []) r 0 0 (upto (one i)) (one i) (fun x L =>
      .einit r.toNat (cell x i L) ((x.l L).v (i.toNat + 1)) ((x.l L).v (i.toNat + 2)) (((x.l L).v (i.toNat + 3)).toNat % 2 ^ 24)))) ∧
  (
    (∀ r, Issues (.escene r) (fun _ _ => { xmod := true })
      (fun s x => let va := (s.descVa x.c r.toNat + 16) % 2 ^ 72
        x.E ≠ [] ∧ x.g.logOrd = none ∧ Memory.wf s.mem = true ∧ s.estCheck x (x.E.headD 0) r.toNat [] = none ∧ s.passes x va 1 1 .gen ∧
        s.migHeld (s.paOf x va 1 .gen) = false ∧
        ∀ L ∈ x.E, (x.l L).begun = false ∧ s.ordersPend x.uid L { claimAcc x s L (s.paOf x va 1 .gen) 1 .wk with
          type := (s.pteOf x va 1 .gen).type } = false)
      (fun s => { s.lessStores with gens := [], l2 := [] })
      (fun s x w s' w' =>
        let va := (s.descVa x.c r.toNat + 16) % 2 ^ 72
        let pa := s.paOf x va 1 .gen
        let s1 := s.setDirty x.die x.c va
        let left := (s.esuDescs.filter (fun e => e.ctx == x.c && e.rg == r.toNat)).map (fun e => (e.die, e.esu))
        w'.less = w.less ∧ s'.accs = s.accs ∧ s'.tlb = s1.tlb ∧
        s'.rd pa 1 = (s1.rd pa 1 + x.E.length) % 256 ∧ SameOutside s1 s' pa 1 ∧
        s'.gens = s.gens ++ (if left = [] then [] else x.E.zipIdx.map (fun p => (
          { id := s.fresh + p.2, ctx := x.c, rg := r.toNat, gen := BitVec.ofNat 8 (s1.rd pa 1 + p.2 + 1), uid := x.uid, lane := p.1, left } : GenPend))) ∧
        ∀ L ∈ x.E, (w'.lane L).begun = true ∧ (w'.lane L).regs = (w.lane L).regs ∧ (w'.lane L).pc = (w.lane L).pc ∧
          (w'.lane L).hints = (w.lane L).hints ∧ { (w'.lane L).less with opCount := 0 } = { (w.lane L).less with opCount := 0 })) ∧
    (∀ r, Issues (.escene r) (fun _ _ => { xmod := true })
      (fun s x => ∀ L ∈ x.E, (x.l L).begun = true ∧ s.sceneOpen x.uid L = false) State.less
      (fun _ x w _ w' => w'.less = w.less ∧ ∀ L ∈ x.E, Passed (w.lane L) (w'.lane L))))

/-- R165 to R170, R172: an estimator operation that may arrive, is not logged and whose region is valid reads its cell, brings it into the current
generation, and leaves what the operation makes of it; ELD and ERAW send their words to the lane, if it still wants them. EMRG of two cells first reads cell B, brought into
its generation, at B's home, and then merges what it read into cell A at A's; of one cell it only brings and checks it. ESWEEP of one cell does so
at that cell. Of a region without a request queue no record is appended. -/
def Obligations.EstimatorsPerform : Prop :=
  let here (s : State) (a : Acc) : Prop := s.accs.find? (fun b => b.id == s.occ.n) = some a ∧ s.esuReady a = true ∧ (s.pointAt 2 a a.esuPa).1 = false
  let arrives (s : State) (a : Acc) (rg : Nat) (r : Region) (s1 : State) : Prop :=
    here s a ∧ s.esuDesc (s.esuDie a.esuPa) (paSlice a.esuPa) a.ctx rg = (.good r, s1) ∧ Memory.wf s1.mem = true
  let now (s : State) (pa : Nat) (r : Region) : Cell := (s.cellAt pa).bring r.gen r.decay
  let gone (s t : State) (a : Acc) : Prop := t.accs = s.accs.filter (fun b => b.id != a.id) ∧ t.waves = s.waves
  let leaves (s t : State) (pa : Nat) (c : Cell) : Prop := t.rd pa 16 = c.image % 256 ^ 16 ∧ SameOutside s t pa 16
  let lands (s t : State) (a : Acc) (d : Nat) (vals : List Word) : Prop :=
    ∃ y, t.lands = s.lands ++ [y] ∧ y.uid = a.uid ∧ y.lane = a.lane ∧ y.d = d ∧ y.vals = vals
  (∀ s a rg ix x w r s1, arrives s a rg r s1 → a.op = .est rg ix x w → r.reqq = 0 → ∃ t, exec .esuEst s = .next t ∧ gone s t a ∧
    leaves s1 t a.addr (((now s1 a.addr r).est x.toNat w).check r).1 ∧ t.lands = s.lands) ∧
  (∀ s a rg ix d r s1, arrives s a rg r s1 → a.op = .eld rg ix d → a.mute = false → ∃ t, exec .esuEld s = .next t ∧ gone s t a ∧
    leaves s1 t a.addr (now s1 a.addr r) ∧ lands s t a d (((now s1 a.addr r).stats r).map lo32)) ∧
  (∀ s a rg ia ib r s1, arrives s a rg r s1 → a.op = .emrg rg ia ib →
    (ia ≠ ib → a.mate = none → ∃ t, exec .esuEmrg s = .next t ∧ t.waves = s.waves ∧ t.lands = s.lands ∧
      leaves s1 t a.data.toNat (now s1 a.data.toNat r) ∧
      t.accs = s.accs.map (fun x => if x.id = a.id then { x with mate := some (BitVec.ofNat 128 (now s1 a.data.toNat r).image) } else x)) ∧
    (∀ b, ia ≠ ib → a.mate = some b → r.reqq = 0 → ∃ t, exec .esuEmrg s = .next t ∧ gone s t a ∧ t.lands = s.lands ∧
      leaves s1 t a.addr (((now s1 a.addr r).merge (Cell.ofImage b.toNat)).check r).1) ∧
    (ia = ib → a.mate = none → r.reqq = 0 → ∃ t, exec .esuEmrg s = .next t ∧ gone s t a ∧ t.lands = s.lands ∧
      leaves s1 t a.addr ((now s1 a.addr r).check r).1)) ∧
  (∀ s a rg ix r s1, arrives s a rg r s1 → a.op = .eclr rg ix → ∃ t, exec .esuEclr s = .next t ∧ gone s t a ∧
    leaves s1 t a.addr { gen := r.gen } ∧ t.lands = s.lands) ∧
  (∀ s a rg ix d r s1, arrives s a rg r s1 → a.op = .eraw rg ix d → a.mute = false → ∃ t, exec .esuEraw s = .next t ∧ gone s t a ∧
    leaves s1 t a.addr (now s1 a.addr r) ∧ lands s t a d (wordsOf 4 (now s1 a.addr r).image)) ∧
  (∀ s a rg ix mean m2 w r s1, arrives s a rg r s1 → a.op = .einit rg ix mean m2 w → ∃ t, exec .esuEinit s = .next t ∧ gone s t a ∧
    leaves s1 t a.addr (Cell.init mean.toNat m2.toNat w r.gen) ∧ t.lands = s.lands) ∧
  (∀ s a rg ix tile r pa s1 s2, s.accs.find? (fun b => b.id == s.occ.n) = some a → s.esuReady a = true → a.op = .esweep rg ix 1 tile →
      s.sweepPa a.ctx a.va.toNat = .ok (pa, s1) → s1.esuFull (s1.esuDie pa) (paSlice pa) = false → (s1.pointAt 2 a pa).1 = false →
      s1.esuDesc (s1.esuDie pa) (paSlice pa) a.ctx rg = (.good r, s2) → Memory.wf s2.mem = true → r.reqq = 0 →
    ∃ t, exec .esuEsweep s = .next t ∧ gone s t a ∧ t.lands = s.lands ∧
      leaves s2 t pa (if (now s2 pa r).w = 0 ∧ r.emptylag = false then now s2 pa r else ((now s2 pa r).check r).1))

/-! ## Operand memory, matrix unit, quantiser, sampling, dot products and lists (R227 to R240, R352 to R372) -/

/-- R357, R358: the handle and row instructions. MCLAIM answers 2 when a named handle is held, 1 when too few slots are free, and otherwise 0: each
named handle then holds a cleared slot of its own that no handle held. MREL lets named handles go; MZERO clears their slots; MROW writes the executing lanes' rows
and no other byte; MREAD reads them into 16 registers.
That MCLAIM's answer may land at once is the model's choice (log 6). -/
def Obligations.OperandMemory : Prop :=
  let other (w w' : Wave) (hs : List Nat) : Prop := ∀ k, k ∉ hs → w'.handles.getD k none = w.handles.getD k none
  let quiet (hs : List Nat) (s : State) (x : Iss) : Prop := ∀ h ∈ hs, s.filling x.w (x.w.slotIx h) = false ∧ s.mmaReads x.core x.uid (x.w.slotIx h) = false
  let lessOps (w : Wave) : Wave := { w.less with handles := [], ops := [] }
  (∀ d n h, Issues (.mclaim d n h) (formOf (.mclaim d n h)) (fun _ x => x.w.handles.length = 32) State.lessLands (fun s x w s' w' =>
    let hs := handleSpan n h
    let used (k : Nat) : Bool := w.handles.any (fun y => y == some k)
    let status : Word := if ∃ k ∈ hs, (w.handles.getD k none).isSome = true then 2
      else if ((List.range x.t.slots).filter (fun k => !used k)).length < hs.length then 1 else 0
    lessOps w' = lessOps w ∧ other w w' hs ∧ s'.fresh = s.fresh + x.E.length ∧
    s'.lands = s.lands ++ landsOf s x d.toNat (fun _ => [status]) (fun _ => s.cycle) false ∧
    (∀ L ∈ x.E, Emptied (w.lane L) (w'.lane L) d.toNat 1) ∧
    if status ≠ 0 ∨ x.E = [] then w'.handles = w.handles ∧ w'.ops = w.ops
    else (∀ k ∈ hs, ∃ y, w'.handles.getD k none = some y ∧ y < x.t.slots ∧ used y = false ∧ w'.opSlot k = {} ∧
        ∀ j ∈ hs, j ≠ k → w'.handles.getD j none ≠ some y) ∧
      ∀ k, used k = true → w'.ops.getD k {} = w.ops.getD k {})) ∧
  (∀ n h, Issues (.mrel n h) (formOf (.mrel n h)) (quiet (handleSpan n h)) State.less (fun _ x w _ w' =>
    lessOps w' = lessOps w ∧ other w w' (handleSpan n h) ∧ w'.ops = w.ops ∧ (x.E ≠ [] → ∀ k ∈ handleSpan n h, w'.handles.getD k none = none) ∧
    ∀ L ∈ x.E, Passed (w.lane L) (w'.lane L))) ∧
  (∀ n h, Issues (.mzero n h) (formOf (.mzero n h)) (quiet (handleSpan n h)) State.less (fun _ x w _ w' =>
    lessOps w' = lessOps w ∧ w'.handles = w.handles ∧ (x.E ≠ [] → ∀ k ∈ handleSpan n h, w'.opSlot k = {}) ∧
    (∀ k, (∀ j ∈ handleSpan n h, w.slotIx j ≠ k) → w'.ops.getD k {} = w.ops.getD k {}) ∧
    ∀ L ∈ x.E, Passed (w.lane L) (w'.lane L))) ∧
  (∀ a h, Issues (.mrow a h) (formOf (.mrow a h))
    (fun s x => quiet [h.toNat] s x ∧ x.w.slotIx h.toNat < x.w.ops.length ∧ bytesWf (x.w.opSlot h.toNat).data = true) State.less (fun _ x w _ w' =>
      lessOps w' = lessOps w ∧ w'.handles = w.handles ∧ (∀ k, k ≠ w.slotIx h.toNat → w'.ops.getD k {} = w.ops.getD k {}) ∧
      (w'.opSlot h.toNat).scale = (w.opSlot h.toNat).scale ∧
      (∀ L ∈ x.E, leNat (bytesAt (w'.opSlot h.toNat).data (64 * L) 64) = (x.l L).words a.toNat 16) ∧
      (∀ b, b / 64 ∉ x.E → byteAt (w'.opSlot h.toNat).data b = byteAt (w.opSlot h.toNat).data b) ∧
      ∀ L ∈ x.E, Passed (w.lane L) (w'.lane L))) ∧
  (∀ d h, Issues (.mread d h) (formOf (.mread d h)) (fun s x => s.filling x.w (x.w.slotIx h.toNat) = false) State.less (fun _ x w _ w' =>
    w'.less = w.less ∧ ∀ L ∈ x.E, WroteSpan (w.lane L) (w'.lane L) d.toNat (wordsOf 16 (leNat (bytesAt (w.opSlot h.toNat).data (64 * L) 64)))))

/-- R359 to R362, R226, R229: MLD of lanes that pass their checks, into a slot nothing else fills or reads: each lane goes on, with its four 16-byte
pieces and, for SUB 1, its scale bytes on their way to its row and scale area. MSETS of a word whose bits [13:0] are uniform sets the wave's scale locator. MCBT of a uniform aligned address and
legal bytes, in a wave that is not logged and with nothing to perform before its reads, makes the 1,024 bytes there the core's codebook.
That MCBT reads at issue is the model's choice (log 39), and the scale blocks of SUB 1 are deduced (log 49). -/
def Obligations.OperandLoads : Prop :=
  (∀ h a r z g, Issues (.mld h a r z g) (formOf (.mld h a r z g))
    (fun s x => s.mldBusy x (x.w.slotIx h.toNat) = false ∧ ∀ L ∈ x.E, s.mldCheck a r (z.toNat == 1) x L = none ∧
      ∃ ps, s.laneXls x .load (mldVas a r (z.toNat == 1) x L) = .ok ps)
    State.lessAccs (fun s x w s' w' =>
      let ix := x.w.slotIx h.toNat
      let plain (L : Nat) (b : Acc) : Acc := { s.madeBy x L 0 b with count := 0 }
      w'.less = w.less ∧ s'.accs.take s.accs.length = s.accs ∧ s'.fresh + s.accs.length = s.fresh + s'.accs.length ∧
      (∀ b ∈ s'.accs.drop s.accs.length, s.fresh ≤ b.id ∧ b.id < s'.fresh) ∧
      (s'.accs.drop s.accs.length).map (fun b => { b with id := 0, count := 0 }) = x.E.flatMap (fun L =>
        let vas := mldVas a r (z.toNat == 1) x L
        let ps := match s.laneXls x .load vas with | .ok ps => ps | _ => []
        let acc (op : AccOp) (p : (Nat × Pte) × (Nat × Nat)) : Acc :=
          plain L { accOf op p.1.1 p.2.2 with va := BitVec.ofNat 72 p.2.1, ord := .wk, type := p.1.2.type, log := p.1.2.log }
        let n := if r = 15 then 0 else 4
        (if r = 15 then (List.range 4).map (fun k =>
          plain L { accOf (.mldData ix (64 * L + 16 * k)) (mOff a x L + 16 * k) 16 with sp := some x.t.tid, ord := .wk }) else []) ++
        (((ps.zip vas).take n).zipIdx.map (fun q => acc (.mldData ix (64 * L + 16 * q.2)) q.1)) ++
        (((ps.zip vas).drop n).zip (mldScales a x L)).map (fun q => acc (.mldScale ix q.2.1) q.1)) ∧
      ∀ L ∈ x.E, Emptied (w.lane L) (w'.lane L) 0 0)) ∧
  (∀ a, Issues (.msets a) (formOf (.msets a)) (fun _ x => ∀ L ∈ x.E, ((x.l L).v a.toNat).extractLsb' 0 14 = ((x.l (x.E.headD 0)).v a.toNat).extractLsb' 0 14) State.less
    (fun _ x w _ w' => { w'.less with scaleloc := 0 } = { w.less with scaleloc := 0 } ∧
      w'.scaleloc = (if x.E = [] then w.scaleloc else ((x.l (x.E.headD 0)).v a.toNat).extractLsb' 0 14) ∧ ∀ L ∈ x.E, Passed (w.lane L) (w'.lane L))) ∧
  (∀ a r g, Issues (.mcbt a r g) (formOf (.mcbt a r g))
    (fun s x => let va := mVa r a x (x.E.headD 0)
      x.g.logOrd = none ∧ s.team? x.w.tid = some x.t ∧ s.mmaOn x.core = false ∧ va % 64 = 0 ∧ (∀ L ∈ x.E, mVa r a x L = va) ∧
        s.inOrder x (.load 0 0) .wk (x.eachLane (mcbtWholes r a s x)) ∧
      ∃ ps, s.laneXls x .load (mcbtVas r a x (x.E.headD 0)) = .ok ps ∧ ∀ p ∈ ps, ∀ b ∈ memBytes s.mem p.1 64, b &&& 0x88 = 0)
    (fun s => { s.lessTeams with cores := [], wrote := [], l2 := [] }) (fun s x w s' w' => w'.less = w.less ∧ (∀ L ∈ x.E, Emptied (w.lane L) (w'.lane L) 0 0) ∧
      (∀ k, k ≠ x.core → s'.core k = s.core k) ∧ (∀ u, u ≠ x.t.tid → s'.team? u = s.team? u) ∧
      (x.E ≠ [] → s'.team? x.t.tid = some { x.t with wroteCb := true } ∧
        s'.core x.core = { s.core x.core with codebook := (s'.core x.core).codebook } ∧
        ∀ p ∈ (s.linesAt x (mcbtVas r a x (x.E.headD 0))).zipIdx, bytesAt (s'.core x.core).codebook (64 * p.2) 64 = memBytes s.mem p.1.1 64)))

/-- R230 to R235, R363 to R366: MMA of a legal uniform format word, with unit, tiles and accumulators ready: element j of a lane's result is its accumulator, or 0 with Z, plus
row L of A times column j of B, exactly modulo 2^32 for INT32 and in groups otherwise; it may land 12 cycles after the unit, occupied 4 or 8 cycles of its die, is free. HADQ writes the packed
outputs and the scale byte at once and holds its quadrant for 5 cycles. -/
def Obligations.MatrixMultiply : Prop :=
  (∀ d f a b z, Issues (.mma d f a b z) (formOf (.mma d f a b z))
    (fun s x => x.E ≠ [] → mmaBusy d f a b s x = false ∧ mmaTrap s x d f = none) (fun s => { s.lessLands with cores := [] })
    (fun s x w s' w' =>
      let y := fmtWord x f
      let n := (shapeOf (mmaShape y)).1
      let k := (shapeOf (mmaShape y)).2.1
      let A := x.w.opSlot a.toNat
      let B := x.w.opSlot b.toNat
      let tab := if mmaTable y then codeRow (s.core x.core).codebook else c2Rom
      let acc (L j : Nat) : Nat := if z = 1 then 0 else (accElems y (x.l L) d.toNat).getD j 0
      let elem (L j : Nat) : Nat :=
        if mmaAcc y = 2 then
          (((acc L j : Int) + (List.zipWith (fun p q => p * q) ((tileBits A (mmaTypeA y) k L).map (elemInt (mmaTypeA y)))
            ((tileBits B (mmaTypeB y) k j).map (elemInt (mmaTypeB y)))).sum) % 2 ^ 32).toNat
        else
          mmaFp (if mmaAcc y = 1 then fp16 else fp32) k (shapeOf (mmaShape y)).2.2
            (fun i => (tileScale A (mmaScaleA y) (mmaTypeA y) k L i, tileScale B (mmaScaleB y) (mmaTypeB y) k j i))
            (tileFp A tab (mmaTypeA y) k L) (tileFp B tab (mmaTypeB y) k j) (acc L j)
      w'.less = w.less ∧ s'.fresh = s.fresh + x.E.length ∧
      s'.lands = s.lands ++ landsOf s x d.toNat (fun L => accPack y ((List.range n).map (elem L)))
        (fun _ => s.after x.die ((if n = 32 then 8 else 4) + 12)) false ∧
      (∀ L ∈ x.E, Emptied (w.lane L) (w'.lane L) d.toNat (mmaSpan y)) ∧
      (∀ c, c ≠ x.core → s'.core c = s.core c) ∧
      (x.E ≠ [] → (s'.core x.core).mmaFree = s.after x.die (if n = 32 then 8 else 4) ∧ (s'.core x.core).codebook = (s.core x.core).codebook))) ∧
  (∀ d a b e f g, Issues (.hadq d a b e f g) (formOf (.hadq d a b e f g)) (fun s x => (s.core x.core).qfree.length = 4)
    (fun s => { s.less with cores := [] }) (fun s x w s' w' => w'.less = w.less ∧
      (∀ c, c ≠ x.core → s'.core c = s.core c) ∧ (x.E ≠ [] → (s'.core x.core).qfree.getD (x.w.slot % 4) 0 = s.after x.die 5) ∧
      ∀ L ∈ x.E, WroteSpan (w.lane L) (w'.lane L) d.toNat (hadq (fmtOfHint (x.h L)) (pickRm (x.h L).xmod .rne) (w.lane L).hseed
        ((w.lane L).v b.toNat) ((List.range 32).map (fun k => (w.lane L).v (a.toNat + k))))))

/-- R367 to R369, R353: MARCH and HGRID of lanes that are not logged, whose reads all pass and have nothing to perform before them, have two results on their way, 40 and 24 cycles of the die
after issue and those of the slowest read but the descriptor's. MARCH finds the
first of at most 64 steps whose cell is occupied, or answers +infinity and −1.
That the reads are made at issue is the model's choice (log 39), as is how long one takes (log 6). -/
def Obligations.SamplingPipe : Prop :=
  let op (i : Instr) (d : BitVec 7) (lat : Nat) (run : State → Iss → Nat → Rd (List Word)) : Prop :=
    Issues i (formOf i) (fun s x => x.g.logOrd = none ∧ s.inOrder x (.load 0 0) .wk (rdWholes run s x) ∧ ∀ L ∈ x.E, ∃ p q ps, run s x L = .ok [p, q] ps)
      (fun s => { s.lessLands with wrote := [], l2 := [] })
      (fun s x w s' w' => w'.less = w.less ∧ s'.fresh = s.fresh + x.E.length ∧
        s'.lands = s.lands ++ landsOf s x d.toNat (fun L => match run s x L with | .ok v _ => v | _ => [])
          (fun k => s.after x.die (lat + s.rdCycles x.die (rdWholes run s x) (x.E.getD k 0))) false ∧
        ∀ L ∈ x.E, Emptied (w.lane L) (w'.lane L) d.toNat 2)
  (∀ d a b e f g, op (.march d a b e f g) d 40 (fun s x L => s.marchLane x L a b)) ∧
  (∀ d a b e f g, op (.hgrid d a b e f g) d 24 (fun s x L => s.hgridLane x L a b)) ∧
  (∀ (s : State) (x : Iss) (desc : Nat) (ray : Nat → Nat) (ps qs : List (Nat × Nat × Pte)) (n : Nat) (ws : List Word), s.marchGo x desc ray ps n 0 = .ok ws qs →
    let t (k : Nat) : Nat := fmaBits (natBits k) (ray 7) (ray 6)
    let p (k a : Nat) : Nat := fmaBits (t k) (ray (3 + a)) (ray a)
    let nan (k : Nat) : Prop := ∃ a, a < 3 ∧ (fp32.decode (p k a)).isNan = true
    let bit (k : Nat) : Nat := let rx := dField desc 12 2; let ry := dField desc 14 2
      marchCell (p k 0) rx + rx * (marchCell (p k 1) ry + ry * marchCell (p k 2) (dField desc 16 2))
    let occ (k : Nat) : Prop := ¬ nan k ∧ ∃ b q, s.laneRd x ((dField desc 0 9 + bit k / 8) % 2 ^ 72) 1 = .ok b q ∧ b.testBit (bit k % 8) = true
    (∃ k, k < n ∧ occ k ∧ ws = [BitVec.ofNat 32 (t k), lo32 k] ∧ ∀ j, j < k → ¬ occ j) ∨
    (ws = [0x7F800000, 0xFFFFFFFF] ∧ ∀ j, j < n → ¬ occ j))

/-- R370, R236: the DOT group adds packed products to vD, landing 8 cycles of the die after issue: signed or unsigned bytes, signed nibbles, squared differences of
signed bytes, modulo 2^32; and one group of E4M3, E5M2 or FP16 products in FP32. -/
def Obligations.DotProducts : Prop :=
  let op (i : Instr) (d a : BitVec 7) (fn : Word → Word → Word → Word) : Prop :=
    Issues i (formOf i) (fun _ _ => True) State.lessLands (fun s x w s' w' => w'.less = w.less ∧ s'.fresh = s.fresh + x.E.length ∧
      s'.lands = s.lands ++ landsOf s x d.toNat (fun L => [fn ((w.lane L).v d.toNat) ((w.lane L).v a.toNat) ((w.lane L).v (a.toNat + 1))])
        (fun _ => s.after x.die 8) false ∧
      ∀ L ∈ x.E, Emptied (w.lane L) (w'.lane L) d.toNat 1)
  let I (n : Nat) (v : Word) (k : Nat) : Int := (v.extractLsb' (n * k) n).toInt
  let N (v : Word) (k : Nat) : Int := (v.extractLsb' (8 * k) 8).toNat
  let total (c : Word) (t : Nat → Int) (n : Nat) : Word := BitVec.ofInt 32 (c.toInt + ((List.range n).map t).sum)
  (∀ d a e g, op (.idot4 d a e g) d a (fun c p q => total c (fun k => I 8 p k * I 8 q k) 4)) ∧
  (∀ d a e g, op (.ndot4 d a e g) d a (fun c p q => total c (fun k => N p k * N q k) 4)) ∧
  (∀ d a e g, op (.idot8 d a e g) d a (fun c p q => total c (fun k => I 4 p k * I 4 q k) 8)) ∧
  (∀ d a e g, op (.idist4 d a e g) d a (fun c p q => total c (fun k => (I 8 p k - I 8 q k) * (I 8 p k - I 8 q k)) 4)) ∧
  (∀ d a e g, op (.fdot4e4 d a e g) d a (fdot 3 4)) ∧
  (∀ d a e g, op (.fdot4e5 d a e g) d a (fdot 4 4)) ∧
  (∀ d a e g, op (.hdot2 d a e g) d a (fdot 1 2))

/-- R239, R240, R371, R372, for quiet lanes that name one aligned list on which no lock is held. KINIT leaves an empty list; KINS offers the lanes' candidates in
ascending lane order and answers THRESH after each; KMRG offers the entries of a second list; KRD answers one entry. Bytes outside the lists stay.
KINS and KMRG hold LOCK on their lists until their results may land, 24 cycles and one for each entry moved after issue.
How long a list stays locked is deduced (log 48), and how entries moved are counted is the model's choice (log 132). -/
def Obligations.TopKLists : Prop :=
  let off (x : Iss) (r : Nat) : Nat := ((x.l (x.E.headD 0)).v r).toNat
  let ready (s : State) (x : Iss) (r : Nat) : Prop :=
    s.team? x.w.tid = some x.t ∧ bytesWf x.t.scratch = true ∧ kTraps x r = none ∧ ∀ L ∈ x.E, s.unquiet x.uid L inScratch = false
  let free (s : State) (x : Iss) (o len : Nat) : Prop :=
    (∀ own, s.kLocked x.t.tid x.uid own o = false) ∧ ∀ L ∈ x.E, s.ownList x L x.t.tid o len = false
  let lock (x : Iss) (o len due : Nat) : ListLock := { off := o, len, uid := x.uid, lanes := lanesMask x.E, till := due }
  let held (s' : State) (x : Iss) (ks : List ListLock) : Prop := (s'.team? x.t.tid).map Team.locks = some (x.t.locks ++ ks)
  let outside (s s' : State) (x : Iss) (o n : Nat) (but : Nat → Prop) : Prop :=
    ∀ tid a, (tid = x.t.tid → (a < o ∨ o + n ≤ a) ∧ ¬ but a) → s'.spByte tid a = s.spByte tid a
  let left (s s' : State) (x : Iss) : Prop := ∀ u, u ≠ x.t.tid → s'.team? u = s.team? u
  let lands (s s' : State) (x : Iss) (w w' : Wave) (d : BitVec 7) (n : Nat) (vals : Nat → List Word) (due : Nat) : Prop :=
    w'.less = w.less ∧ s'.fresh = s.fresh + x.E.length ∧ s'.lands = s.lands ++ landsOf s x d.toNat vals (fun _ => due) false ∧
    ∀ L ∈ x.E, Emptied (w.lane L) (w'.lane L) d.toNat n
  let both (s : State) : State := { s.lessLands with teams := [], wrote := [], writes := 0 }
  (∀ a y k, Issues (.kinit a y k) (formOf (.kinit a y k))
    (fun s x => x.E ≠ [] ∧ ready s x a.toNat ∧ free s x (off x a.toNat) (kLen (k.toNat + 1)) ∧ off x a.toNat + kLen (k.toNat + 1) ≤ x.t.alloc) State.lessScratch
    (fun s x w s' w' => w'.less = w.less ∧ (∀ L ∈ x.E, Passed (w.lane L) (w'.lane L)) ∧ left s s' x ∧ held s' x [] ∧
      s'.kAt x.t.tid (off x a.toNat) = .list { k := k.toNat + 1, int := y == 1, es := [] } ∧ outside s s' x (off x a.toNat) 16 (fun _ => False))) ∧
  (∀ d a l, Issues (.kins d a) (formOf (.kins d a)) (fun s x => x.E ≠ [] ∧ ready s x a.toNat ∧ free s x (off x a.toNat) (kLen l.k) ∧ s.kAt x.t.tid (off x a.toNat) = .list l) both
    (fun s x w s' w' =>
      let cs := x.E.map (fun L => ((x.l L).v (a.toNat + 1), (x.l L).v (a.toNat + 2)))
      let q := l.takes cs
      let due := s.after x.die (24 + l.moved cs)
      lands s s' x w w' d 1 (fun L => [((x.E.zip q.2).find? (fun p => p.1 == L)).map (fun p => p.2) |>.getD 0]) due ∧
      left s s' x ∧ held s' x [lock x (off x a.toNat) (kLen l.k) due] ∧ s'.kAt x.t.tid (off x a.toNat) = .list q.1 ∧ s'.spByte x.t.tid (off x a.toNat + 5) = 1 ∧
      outside s s' x (off x a.toNat) (16 + 8 * l.k) (fun _ => False))) ∧
  (∀ d a l m, Issues (.kmrg d a) (formOf (.kmrg d a))
    (fun s x => let o2 := off x (a.toNat + 1)
      x.E ≠ [] ∧ ready s x a.toNat ∧ kTraps x (a.toNat + 1) = none ∧ free s x (off x a.toNat) (kLen l.k) ∧ free s x o2 (kLen m.k) ∧
      s.kAt x.t.tid (off x a.toNat) = .list l ∧ s.kAt x.t.tid o2 = .list m ∧ l.int = m.int ∧
      (off x a.toNat + 16 + 8 * l.k ≤ o2 ∨ o2 + 16 + 8 * m.k ≤ off x a.toNat)) both
    (fun s x w s' w' =>
      let due := s.after x.die (24 + l.moved m.es)
      lands s s' x w w' d 1 (fun _ => [(l.takes m.es).1.thresh]) due ∧ left s s' x ∧
      held s' x [lock x (off x a.toNat) (kLen l.k) due, lock x (off x (a.toNat + 1)) (kLen m.k) due] ∧ s'.kAt x.t.tid (off x a.toNat) = .list (l.takes m.es).1 ∧ s'.kAt x.t.tid (off x (a.toNat + 1)) = .list m ∧
      outside s s' x (off x a.toNat) (16 + 8 * l.k) (fun b => b = off x (a.toNat + 1) + 5))) ∧
  (∀ d a l, Issues (.krd d a) (formOf (.krd d a))
    (fun s x => x.E ≠ [] ∧ (∀ L ∈ x.E, s.unquiet x.uid L inScratch = false ∧ s.ownList x L x.t.tid (off x a.toNat) (kLen l.k) = false) ∧ kTraps x a.toNat = none ∧ s.kAt x.t.tid (off x a.toNat) = .list l)
    State.lessLands (fun s x w s' w' => lands s s' x w w' d 2 (fun L =>
      let e := l.es.getD ((w.lane L).v (a.toNat + 1)).toNat (l.empty, 0xFFFFFFFF)
      [e.1, e.2]) (s.after x.die 24))) ∧
  (∀ (l : KList) (cs : List (Word × Word)), l.es.length ≤ l.k → (l.takes cs).1.es.length ≤ l.k ∧ (l.takes cs).1.k = l.k ∧ (l.takes cs).1.int = l.int ∧
    (l.takes cs).2.length = cs.length ∧ ∀ e ∈ (l.takes cs).1.es, e ∈ l.es ∨ e ∈ cs)

/-! ## Tasks, markers and continuations (R71, R76, R126 to R133, R207, R373, R382, R383) -/

/-- R382, R71: LAUNCH of quiet lanes outside routines, in a wave that is not logged. Lane 0 of wave 0 reads its card and answers 0, 1 for too deep, 2 for a kind other than JOB and GRID, or 3
for a bad card; with 0 a child grid of the card joins. Every other executing lane answers 4.
That lanes which do not lead answer 4 without a translation is deduced (log 75); when answers are due is the model's choice (log 6). -/
def Obligations.LaunchChildren : Prop :=
  ∀ d a n, Issues (.launch d a n) (formOf (.launch d a n))
    (fun s x => x.g.logOrd = none ∧ s.inOrder x (.load 0 0) .sc (launchWholes a n s x) ∧ ∀ L ∈ x.E, (x.l L).routine = none ∧ s.lanePend x.uid L anyWrite = [] ∧
      (if x.leads L = true then s.passes x (mVa n a x L) 64 64 .load else mVa n a x L % 64 = 0))
    (fun s => { s.lessLands with grids := [], wrote := [], l2 := [] })
    (fun s x w s' w' =>
      let rest := x.E.filter (fun L => !x.leads L)
      let leader := x.w.idx = 0 ∧ 0 ∈ x.E
      let card : Pkt := BitVec.ofNat 512 (s.rd (s.paOf x (mVa n a x 0) 64 .load) 64)
      let st : Nat := if 10 ≤ x.g.depth then 1 else if Pkt.kind card ≠ 1 ∧ Pkt.kind card ≠ 2 then 2 else if cardGood (s.ctx x.c) card then 0 else 3
      let made : Nat := if leader ∧ st = 0 then 1 else 0
      w'.less = w.less ∧
      s'.lands = s.lands ++ landsOf s { x with E := rest } d.toNat (fun _ => [4]) (fun _ => s.cycle) false ++
        (if leader then [{ id := s.fresh + rest.length + made, uid := x.uid, lane := 0, d := d.toNat, vals := [lo32 st], due := s.wholeDue x 0 (launchWholes a n s x)
                           pc := (x.l 0).pc }] else []) ∧
      s'.grids = s.grids ++ (if made = 1 then [{ gid := s.fresh + rest.length, ctx := x.c, card, src := .child x.t.gid x.die, depth := x.g.depth + 1
                                                 prio := fieldAt card 33 1, rem := if Pkt.kind card = 1 then fieldAt card 20 4 else 0
                                                 waiting := Pkt.wait card, rootQ := x.g.rootQ, rootSlot := x.g.rootSlot }] else []) ∧
      ∀ L ∈ x.E, Emptied (w.lane L) (w'.lane L) d.toNat 1)

/-- R127, R128, R132, R383: MARK of lanes outside routines that have not begun it, with a uniform marker K. A wave at or above K goes on unchanged. Otherwise, where no REQUIRE
entry misses, the wave's marker becomes K, its team is marked, the grid of a dealt team leads by at least K and keeps the wave's base registers as its snapshot if it has a timetable and none yet,
and the lanes go on. Where an entry with POLICY TRAP misses, lanes outside the handler park with SCHEDMISS.
Which wave gives the snapshot is deduced (log 51). -/
def Obligations.MarkersMove : Prop :=
  let op (i : Instr) (kOf : Iss → Nat) : Prop :=
    let pre (x : Iss) : Prop := ∀ L ∈ x.E, (x.l L).routine = none ∧ (x.l L).begun = false ∧ kOf { x with E := [L] } = kOf x
    Issues i (formOf i) (fun _ x => pre x ∧ ∃ m, x.w.marker = some m ∧ kOf x ≤ m.toNat) State.less
      (fun _ x w _ w' => w'.less = w.less ∧ ∀ L ∈ x.E, Passed (w.lane L) (w'.lane L)) ∧
    Issues i (formOf i) (fun s x => x.E ≠ [] ∧ pre x ∧ (∀ m, x.w.marker = some m → m.toNat < kOf x) ∧ s.missed x.g x.w.bases (kOf x) = [] ∧
        s.team? x.w.tid = some x.t ∧ s.grid? x.t.gid = some x.g)
      (fun s => { s.lessTeams with grids := [], tierq := [], fresh := 0 })
      (fun s x w s' w' => { w'.less with marker := none } = { w.less with marker := none } ∧ w'.marker = some (BitVec.ofNat 16 (kOf x)) ∧
        (∀ L ∈ x.E, Passed (w.lane L) (w'.lane L)) ∧ s'.team? x.t.tid = some { x.t with marked := true } ∧
        (∀ u, u ≠ x.t.tid → s'.team? u = s.team? u) ∧ (∀ u, u ≠ x.t.gid → s'.grid? u = s.grid? u) ∧
        ∃ g', s'.grid? x.t.gid = some g' ∧ { g' with lead := 0, snapshot := none, fired := [] } = { x.g with lead := 0, snapshot := none, fired := [] } ∧
          g'.lead = (if x.t.kind = .dealt then max x.g.lead (kOf x) else x.g.lead) ∧
          g'.snapshot = (if x.t.kind = .dealt ∧ x.g.snapshot = none ∧ x.g.tt.isSome = true then some x.w.bases else x.g.snapshot)) ∧
    ∀ (s : State) (w : Wave), Issuing s w → Ready s w (formOf i) → executing s w (formOf i) ≠ [] → w.lanes.length ≤ 32 →
        (∀ l ∈ w.lanes, l.inHandler = false) →
      let x := issueOf s w (formOf i)
      pre x → (∀ m, w.marker = some m → m.toNat < kOf x) → (∃ m ∈ s.missed x.g w.bases (kOf x), TtEnt.policy m.e = 1) →
      ∃ t w', exec i s = .next t ∧ t.wave? w.uid = some w' ∧ ∀ L ∈ x.E,
        (w'.lane L).st = .trapped ∧ (w'.lane L).trapKind = 11 ∧ (w'.lane L).pc = (w.lane L).pc ∧ (w'.lane L).regs = (w.lane L).regs
  (∀ k, op (.markImm k) (fun _ => k.toNat)) ∧
  (∀ a, op (.markReg a) (fun x => ((x.l (x.E.headD 0)).v a.toNat).toNat % 65536))

/-- R76, R207, R373, R374, R182: CONT and TRAV of lanes outside routines and the handler, with room in the Caddy: each executing lane ends, leaving one record with its first
registers, p1 to p31, its key and where it resumes, and the lane's identity. Its accesses stay on their way, but what they bring is dropped. TRAV, with room in the engine and headers that pass their checks, leaves the record held and a request to the cluster's engine.
When TRAV finds room is deduced (log 73). -/
def Obligations.Continuations : Prop :=
  let rec' (x : Iss) (n resume batch id : Nat) (trav : Bool) (L : Nat) : CaddyRec :=
    { id, batch, die := x.die, gid := x.t.gid, tid := x.t.tid, ordinal := x.t.ordinal, recbase := x.t.recbase, reccount := x.t.reccount
      cmember := x.t.cmember, resume, key := (x.l L).key.toNat % 65536, n, regs := (List.range n).map (fun k => (x.l L).v k)
      preds := ((x.l L).preds.setWidth 32) &&& 0xFFFFFFFE, trav, held := trav, uid := x.uid, wave := x.w.idx, lane := L
      me := (x.l L).me, home := (x.l L).home, opCount := (x.l L).opCount }
  let pre (s : State) (x : Iss) : Prop := x.w.handlerB15 = none ∧ s.caddyTakes x.die x.c x.E.length = true ∧
    ∀ L ∈ x.E, (x.l L).routine = none ∧ (x.l L).inHandler = false
  let ends (s s' : State) (x : Iss) (w w' : Wave) : Prop := w'.less = w.less ∧
    (∀ L ∈ x.E, w'.lane L = ({ w.lane L with st := .exited, hints := [], stepping := false } : Lane).noted) ∧ ForgetsReads s s' x
  (∀ d o, Issues (.cont d o) (formOf (.cont d o)) pre
    (fun s => { s.lessLands with teams := [], grids := [], tierq := [], caddy := [], accs := [], wrote := [] })
    (fun s x w s' w' => ends s s' x w w' ∧
      s'.caddy = s.caddy ++ x.E.zipIdx.map (fun p =>
        rec' x d.toNat ((x.l p.1).pc + o.signExtend 32).toNat s.fresh (s.fresh + 1 + p.2) false p.1))) ∧
  (∀ d a n, Issues (.trav d a n) (formOf (.trav d a n))
    (fun s x => pre s x ∧ x.E.length ≤ s.engineRoom x.die (x.t.core / 4) ∧ ∀ L ∈ x.E, s.passes x (mVa n a x L) 128 128 .load)
    (fun s => { s.lessLands with teams := [], grids := [], tierq := [], caddy := [], stackReqs := [], accs := [], wrote := [] })
    (fun s x w s' w' => ends s s' x w w' ∧
      s'.caddy = s.caddy ++ x.E.zipIdx.map (fun p => rec' x d.toNat ((x.l p.1).pc.toNat + 1) s.fresh (s.fresh + 1 + 2 * p.2) true p.1) ∧
      s'.stackReqs = s.stackReqs ++ x.E.zipIdx.map (fun p => (
        { id := s.fresh + 2 + 2 * p.2, die := x.die, eng := x.t.core / 4, ctx := x.c, gid := x.t.gid, va := BitVec.ofNat 72 (mVa n a x p.1)
          cont := some (s.fresh + 1 + 2 * p.2), pkt := none } : StackReq))))

/-! ## Traversal instructions (R179, R187, R190, R377 to R381) -/

/-- R377, R379, R380, R381: TNEW stores the 128 bytes of a new header; TRET hands the routine's decision, with the query and state words it names, to its stack and ends the
lane; TFRD answers a word of a frame; TFWR writes STATE0 or STATE1 of a frame the engine keeps; TSTAT answers from the engine for a stack it holds and from memory otherwise.
That TSTAT reads at issue and when answers are due are the model's choice (logs 6, 39); which registers TRET reads is deduced (log 84). -/
def Obligations.TraversalInstructions : Prop :=
  (∀ d a m n, Issues (.tnew d a m n) (formOf (.tnew d a m n)) (fun s x => ∀ L ∈ x.E, s.passes x (mVa n a x L) 128 128 .store) State.lessStores
    (fun s x w s' w' =>
      let bytes (L : Nat) : Nat := Lane.words (x.l L) d.toNat 18 + 2 ^ 576 * baseOf x.w (x.l L) m.toNat + 2 ^ 672 * 255
      w'.less = w.less ∧ OnlyDirty s s' x (mVa n a x) ∧ s'.fresh = s.fresh + 8 * x.E.length ∧ s'.accs.take s.accs.length = s.accs ∧
      (s'.accs.drop s.accs.length).map (fun b => { b with id := 0, count := 0 }) = x.E.flatMap (fun L => (List.range 8).map (fun j =>
        let e := s.pteOf x (mVa n a x L) 128 .store
        { s.madeBy x L 0 { accOf .store (s.paOf x (mVa n a x L) 128 .store + 16 * j) 16 with
              va := BitVec.ofNat 72 (mVa n a x L + 16 * j), data := BitVec.ofNat 128 (bytes L / 2 ^ (128 * j)), ord := .wk, type := e.type
              log := e.log, posted := true } with
          count := 0 })) ∧
      ∀ L ∈ x.E, Emptied (w.lane L) (w'.lane L) 0 0)) ∧
  (∀ a, Issues (.tret a) (formOf (.tret a))
    (fun s x => x.w.handlerB15 = none ∧
      (∀ L ∈ x.E, (x.l L).routine.isSome = true ∧ tretWaits (x.l L) a = false ∧ s.lanePend x.uid L anyWrite = []) ∧
      ∀ L ∈ x.E, ∀ K ∈ x.E, L ≠ K → ((x.l L).routine.map Routine.stk) ≠ ((x.l K).routine.map Routine.stk))
    (fun s => { s.lessLands with teams := [], grids := [], tierq := [], stks := [], accs := [], wrote := [] })
    (fun s x w s' w' => w'.less = w.less ∧ ForgetsReads s s' x ∧
      (∀ L ∈ x.E, w'.lane L = ({ w.lane L with st := .exited, hints := [], stepping := false } : Lane).noted) ∧
      (∀ h, (∀ L ∈ x.E, (x.l L).routine.map Routine.stk ≠ some h) → s'.stkOf h = s.stkOf h) ∧
      ∀ L ∈ x.E, ∀ r k kind c, (x.l L).routine = some r → s.stkOf r.stk = some k → k.st = .routine kind c →
        let l := x.l L
        let y := l.v a.toNat
        let qw := if y.getLsbD 8 then some ((List.range 16).map (fun j => l.v (4 + j))) else none
        let sw := if y.getLsbD 9 then some ((l.v 3).toNat, l.v 20, l.v 21) else none
        s'.stkOf r.stk = some { k with st := .decided kind c y (l.pair 1) qw sw })) ∧
  (∀ d a z, Issues (.tfrd d a z) (formOf (.tfrd d a z))
    (fun s x => ∀ L ∈ x.E, ∃ k lv v, s.frameFor x L a = some (k, lv) ∧ s.frameWord k lv z.toNat = .ok v) State.lessLands
    (fun s x w s' w' => w'.less = w.less ∧ s'.fresh = s.fresh + x.E.length ∧
      s'.lands = s.lands ++ landsOf s x d.toNat (fun L => match s.frameFor x L a with
        | some (k, lv) => (match s.frameWord k lv z.toNat with | .ok v => [lo32 v] | _ => [])
        | none => []) (fun _ => s.replyDue x.die) false ∧
      ∀ L ∈ x.E, Emptied (w.lane L) (w'.lane L) d.toNat 1)) ∧
  (∀ d a z, z.toNat = 4 ∨ z.toNat = 5 → Issues (.tfwr d a z) (formOf (.tfwr d a z))
    (fun s x => (s.stks.map Stack.handle).Nodup ∧ ∀ L ∈ x.E, ∃ k lv, s.frameFor x L a = some (k, lv) ∧ k.open = false ∧ k.cached.contains lv = true)
    (fun s => { s.less with stks := [] })
    (fun s x w s' w' => w'.less = w.less ∧ (∀ L ∈ x.E, Passed (w.lane L) (w'.lane L)) ∧
      s'.stks = x.E.foldl (fun (ks : List Stack) L => ks.map (fun k =>
        if k.handle = ((x.l L).v a.toNat).toNat then
          k.setFrame ((x.l L).v (a.toNat + 1)).toNat (fun f => if z.toNat = 4 then { f with state0 := (x.l L).v d.toNat } else { f with state1 := (x.l L).v d.toNat })
        else k)) s.stks)) ∧
  (∀ d a n, Issues (.tstat d a n) (formOf (.tstat d a n))
    (fun s x => x.g.logOrd = none ∧ s.inOrder x (.load 0 0) .wk (tstatWholes a n s x) ∧
      ∀ L ∈ (tstatRest s a n x).E, s.passes x (mVa n a x L) 128 128 .load)
    (fun s => { s.lessLands with wrote := [], l2 := [] })
    (fun s x w s' w' =>
      let rest := (tstatRest s a n x).E
      let all := x.E.filter (fun L => !rest.contains L) ++ rest
      w'.less = w.less ∧ s'.fresh = s.fresh + x.E.length ∧
      s'.lands = s.lands ++ landsOf s { x with E := all } d.toNat (fun L =>
        match (if rest.contains L then none else s.heldStack x.c (mVa n a x L)) with
        | some k => [lo32 (k.status + 256 * k.depth + 65536 * k.result), lo32 k.handle]
        | none => let pa := s.paOf x (mVa n a x L) 128 .load
          [lo32 (s.rd (pa + 81) 1 + 256 * s.rd (pa + 82) 1 + 65536 * s.rd (pa + 83) 1), 0xFFFFFFFF])
        (fun k => if rest.contains (all.getD k 0) then s.wholeDue x (all.getD k 0) (tstatWholes a n s x) else s.replyDue x.die) false ∧
      ∀ L ∈ x.E, Emptied (w.lane L) (w'.lane L) d.toNat 2))

/-- R190, R252, R378: TCUT, stated for a set of one lane of a wave that is not logged. By handle it answers 4 without such a stack of the context, 1 where the stack is not
PARKED-FAULT and the lane is no routine of this very stack at or above the level, 2 at or above DEPTH, 3 for an empty MASK, each of which changes nothing, and otherwise 0, with the frame's MASK cleared,
and the cut is traced. By memory it answers from the header, or, here with event trace off, cuts: the new object is written, MASK cleared, JOIN raised by 1.
That a cut reads and writes memory at one point is the model's choice (log 39), as are when answers are due (log 6) and the AUX of the trace record (log 129). -/
def Obligations.CutsLand : Prop :=
  let lands (s s' : State) (x : Iss) (w w' : Wave) (d : BitVec 7) (L st due : Nat) : Prop :=
    w'.less = w.less ∧ Emptied (w.lane L) (w'.lane L) d.toNat 1 ∧ s'.lands = s.lands ++ landsOf s x d.toNat (fun _ => [lo32 st]) (fun _ => due) false
  let plain (s : State) : State := { s.lessLands with mem := [], pages := [], stks := [], dbg := {}, wrote := [], writes := 0, tlb := [], freeCtr := 0 }
  let read (s : State) (x : Iss) (a : BitVec 7) (n : BitVec 4) (L : Nat) : Nat := s.wholeDue x L (memCutReads a n s x)
  (∀ d a n st t L, Issues (.tcut d a n) (formOf (.tcut d a n))
    (fun s x => x.w.minSet = [L] ∧ x.E = [L] ∧ cutVa a n x L % 128 = 0 ∧ byMemory a x L = false ∧
      s.cutByHandle x (x.l L) (cutHandle a x L) (cutLevel a x L) (cutVa a n x L) = .land st t) plain
    (fun s x w s' w' => lands s s' x w w' d L st (s.replyDue x.die) ∧ s'.stks = t.stks ∧
      s'.mem = (if st = 0 then (t.noteCut x L (cutHandle a x L) (cutLevel a x L)).mem else t.mem))) ∧
  (∀ (s : State) (x : Iss) (l : Lane) (h level new st : Nat) (t : State), s.cutByHandle x l h level new = .land st t →
    let may (k : Stack) : Prop := k.open = true ∨ ∃ r, l.routine = some r ∧ r.stk = k.id ∧ level ≤ r.level
    (st = 4 ∧ t = s ∧ ∀ k, s.stk? h = some k → k.ctx ≠ x.c) ∨ ∃ k, s.stk? h = some k ∧ k.ctx = x.c ∧
      ((st = 1 ∧ t = s ∧ ¬ may k) ∨ (st = 2 ∧ t = s ∧ may k ∧ k.depth ≤ level) ∨ (st = 3 ∧ t = s ∧ may k ∧ level < k.depth ∧ (k.frame level).mask = 0) ∨
        (st = 0 ∧ may k ∧ level < k.depth ∧ (k.frame level).mask ≠ 0 ∧
          ∃ k', t.stk? h = some k' ∧ (k'.frame level).mask = 0 ∧ (∀ j, j ≠ level → k'.frame j = k.frame j)))) ∧
  (∀ d a n st L, st ≠ 0 → Issues (.tcut d a n) (formOf (.tcut d a n))
    (fun s x => x.w.minSet = [L] ∧ x.E = [L] ∧ x.g.logOrd = none ∧ byMemory a x L = true ∧ s.passes x (cutVa a n x L) 128 128 .load ∧
      s.inOrder x (.load 0 0) .wk (memCutHeads a n s x) ∧ s.memCutStatus a n x L = some st) (fun s => { s.lessLands with wrote := [], l2 := [] })
    (fun s x w s' w' => lands s s' x w w' d L st (read s x a n L))) ∧
  (∀ d a n L ps, Issues (.tcut d a n) (formOf (.tcut d a n))
    (fun s x => x.w.minSet = [L] ∧ x.E = [L] ∧ x.g.logOrd = none ∧ byMemory a x L = true ∧ s.passes x (cutVa a n x L) 128 128 .load ∧
      s.inOrder x (.load 0 0) .wk (memCutReads a n s x) ∧ s.inOrder x .store .wk (memCutPuts a n s x) ∧ s.streamPa x.die 0 = 0 ∧
      s.memCutStatus a n x L = some 0 ∧ s.laneXls x .store (memCutVas a n x L) = .ok ps ∧ (∀ p ∈ ps, s.migHeld p.1 = false) ∧
      (∀ v ∈ memCutVas a n x L, s.setDirty x.die x.c v.1 = s) ∧ Memory.wf s.mem = true ∧
      let at' (i : Nat) : Nat := (ps.getD i (0, 0)).1
      (at' 0 + 32 ≤ at' 1 ∨ at' 1 + 128 ≤ at' 0) ∧ (at' 0 + 32 ≤ at' 2 ∨ at' 2 + 32 ≤ at' 0) ∧ (at' 1 + 128 ≤ at' 2 ∨ at' 2 + 32 ≤ at' 1)) (fun s => { plain s with l2 := [] })
    (fun s x w s' w' =>
      let at' (i : Nat) : Nat := (ps.getD i (0, 0)).1
      let hpa := s.paOf x (cutVa a n x L) 128 .load
      let bs := cutBytes ((List.range 16).map (fun j => BitVec.ofNat 32 (s.rd (hpa + 4 * j) 4))) (BitVec.ofNat 72 (s.rd (hpa + 72) 9))
        (cutVa a n x L) (cutLevel a x L) (frameOf (memBytes s.mem (at' 0) 32))
      if s.rd (at' 0 + 8) 2 = 0 then lands s s' x w w' d L 3 (read s x a n L) ∧ SameMemory s s'
      else lands s s' x w w' d L 0 (read s x a n L) ∧
        memBytes s'.mem (at' 1) 128 = bs.take 128 ∧ memBytes s'.mem (at' 2) 32 = bs.drop 128 ∧
        s'.rd (at' 0 + 8) 2 = 0 ∧ s'.rd (at' 0 + 24) 4 = (s.rd (at' 0 + 24) 4 + 1) % 2 ^ 32 ∧
        ∀ b, (b < at' 0 ∨ at' 0 + 32 ≤ b) → (b < at' 1 ∨ at' 1 + 128 ≤ b) → (b < at' 2 ∨ at' 2 + 32 ≤ b) → memByte s'.mem b = memByte s.mem b))

/-! ## Special registers, traps, the handler and the wave image (R208 to R217, R384 to R388) -/

/-- R384, R217: SRD writes what its selector names and latches the high halves of CLOCK and TIME; SWR writes the implemented bits of FPCTL, KEY, HSEED or, in the handler,
RESUMEPC, and no register; SWR of RESUMEPC outside the handler raises ILLEGAL. -/
def Obligations.SpecialRegisters : Prop :=
  (∀ d z, LaneIssues (.srd d z) (formOf (.srd d z)) anyLane (fun s x L l l' => WroteOver l (srd s x L l z.toNat).2 l' d.toNat (srd s x L l z.toNat).1)) ∧
  (∀ (s : State) (x : Iss) (L : Nat) (l : Lane), (srd s x L l 0).1 = lo32 L ∧ (srd s x L l 2).1 = lo32 x.w.idx ∧ (srd s x L l 4).1 = lo32 x.t.ordinal ∧ (srd s x L l 16).1 = l.pc ∧
    (srd s x L l 17).2.clockHi = hi32 (s.dieCycle x.t.die) ∧ (srd s x L l 18).1 = l.clockHi ∧ (srd s x L l 19).2.timeHi = hi32 s.time ∧
    (srd s x L l 20).1 = l.timeHi ∧ (srd s x L l 21).1 = l.fpctl ∧ (srd s x L l 22).1 = s.features ∧ (srd s x L l 33).1 = l.key ∧ (srd s x L l 34).1 = l.hseed ∧
    (srd s x L l 36).1 = l.resumepc ∧ ∀ k, k < 6 → (srd s x L l (26 + k)).1 = l.trapinfo.getD k 0) ∧
  (∀ a z, LaneIssues (.swr a z) (formOf (.swr a z)) (fun _ _ _ l => z.toNat = 36 → l.inHandler = true) (fun _ _ _ l l' =>
    let v := l.v a.toNat
    l'.regs = l.regs ∧ l'.pc = l.pc + 1 ∧ l'.hints = [] ∧
    l'.fpctl = (if z.toNat = 21 then v &&& 0x1FFF else l.fpctl) ∧ l'.key = (if z.toNat = 33 then v &&& 0xFFFF else l.key) ∧
    l'.hseed = (if z.toNat = 34 then v else l.hseed) ∧ l'.resumepc = (if z.toNat = 36 then v else l.resumepc) ∧
    { l'.less with fpctl := 0, key := 0, hseed := 0, resumepc := 0 } = { l.less with fpctl := 0, key := 0, hseed := 0, resumepc := 0 })) ∧
  (∀ a (s : State) (w : Wave), Issuing s w → Ready s w (formOf (.swr a 36)) → w.lanes.length ≤ 32 → (∀ l ∈ w.lanes, l.inHandler = false) →
    ∃ t w', exec (.swr a 36) s = .next t ∧ t.wave? w.uid = some w' ∧ ∀ L ∈ executing s w (formOf (.swr a 36)),
      (w'.lane L).st = .trapped ∧ (w'.lane L).trapKind = 1 ∧ (w'.lane L).pc = (w.lane L).pc ∧ (w'.lane L).regs = (w.lane L).regs ∧
      (w'.lane L).resumepc = (w.lane L).resumepc)

/-- R385, R386, R210, R211, R247: TRAP.user parks its executing lanes with USER and the register as detail, outside the handler, and opens the collection window or joins it, the next one while the handler runs; BKPT halts them
after the instruction; TRAP.assert parks them with ASSERT, stops every lane of its context, marks the context asserted and faults its teams.
That a lane which traps or halts while the handler runs opens or joins the next window, and which lane is the primary one, is deduced (log 18). -/
def Obligations.TrapsAndBreaks : Prop :=
  let plain (s : State) : State := { s.less with mem := [], pages := [], wrote := [], writes := 0, teams := [], grids := [], ctxs := [] }
  let noWin (w : Wave) : Wave := { w.less with window := none, next := none, haltId := 0 }
  let opens (s : State) (x : Iss) (w w' : Wave) : Prop := x.E ≠ [] →
    (if w.handling then w'.window = w.window else w'.next = w.next) ∧
    w'.openWindow = match w.openWindow with
      | none => some { openedAt := s.cycle, pc := (w.lane (x.E.headD 0)).pc, primary := x.E.headD 0, issued := s.cycle, lanes := lanesMask x.E }
      | some v => some { v with lanes := v.lanes ||| lanesMask x.E }
  (∀ a, Issues (.trapUser a) (formOf (.trapUser a)) (fun s x => x.w.lanes.length ≤ 32 ∧ WindowSteady s x.w ∧ ∀ L ∈ x.E, (x.w.lane L).inHandler = false) plain (fun s x w _ w' =>
    noWin w' = noWin w ∧ opens s x w w' ∧ ∀ L ∈ x.E,
      (w'.lane L).st = .trapped ∧ (w'.lane L).trapKind = 20 ∧ (w'.lane L).trapinfo.getD 1 0 = (w.lane L).pc ∧
      (w'.lane L).trapinfo.getD 4 0 = (w.lane L).v a.toNat ∧ (w'.lane L).pc = (w.lane L).pc ∧ (w'.lane L).hints = (w.lane L).hints ∧
      (w'.lane L).regs = (w.lane L).regs ∧ (w'.lane L).preds = (w.lane L).preds)) ∧
  encode .bkpt = 0xE2000000 ∧ decode 0xE2000000 = .ok .bkpt ∧
  Issues .bkpt (formOf .bkpt) (fun s x => WindowSteady s x.w) plain (fun s x w _ w' =>
    noWin w' = noWin w ∧ opens s x w w' ∧ (x.E ≠ [] → w'.haltId = if w.haltId = 0 then (s.ctx x.c).haltNext else w.haltId) ∧ ∀ L ∈ x.E,
      (w'.lane L).st = .halted ∧ (w'.lane L).trapKind = 13 ∧ (w'.lane L).trapinfo.getD 1 0 = (w.lane L).pc ∧
      (w'.lane L).trapinfo.getD 4 0 = 0xFF ∧ (w'.lane L).pc = (w.lane L).pc + 1 ∧ (w'.lane L).regs = (w.lane L).regs ∧ (w'.lane L).preds = (w.lane L).preds) ∧
  (∀ a n (s : State) (w : Wave), Issuing s w → Ready s w (formOf (.trapAssert a n)) → executing s w (formOf (.trapAssert a n)) ≠ [] →
    (s.waves.map Wave.uid).Nodup → (s.teams.map Team.tid).Nodup →
    ∃ t w', exec (.trapAssert a n) s = .next t ∧ t.wave? w.uid = some w' ∧ (t.ctx (s.teamOf w).ctx).asserted = true ∧
      (∀ u ∈ t.teams, u.ctx = (s.teamOf w).ctx → u.st ≠ .retired → u.faulted = true) ∧
      (∀ v ∈ t.waves, (t.teamOf v).ctx = (s.teamOf w).ctx → ∀ l ∈ v.lanes, l.haltable = false) ∧
      ∀ L ∈ executing s w (formOf (.trapAssert a n)), (w'.lane L).st = .trapped ∧ (w'.lane L).trapKind = 12)

/-- R209, R387, R199: HANDLER_ENTRY of a closed window with nothing pending starts every deliverable lane at the handler, with its place in RESUMEPC, and gives the wave its
handler area in b15. RFT leaves its lanes returned while others run the handler; the last one ends it: each returned lane goes on at RESUMEPC, held lanes go on, b15 is restored, and its window
gives way to that of the lanes which trapped or halted meanwhile, if there are any (log 18). -/
def Obligations.HandlerEntryAndReturn : Prop :=
  (∀ (s : State) (w : Wave) (win : Window), s.activeWave? s.occ.n = some w → w.window = some win → win.closed = true → s.deliver w ≠ [] →
      w.handlerB15 = none → s.pending w.uid = false → w.bases.length = 16 →
    let c := s.ctx (s.teamOf w).ctx
    ∃ t w', exec .handlerEntry s = .next t ∧ t.wave? w.uid = some w' ∧ { t with waves := [] } = { s with waves := [] } ∧
      w'.handlerB15 = some (w.bases.getD 15 0) ∧ (∀ n, n < 15 → w'.bases.getD n 0 = w.bases.getD n 0) ∧
      w'.bases.getD 15 0 = BitVec.ofNat 72 (c.hstackva + 65536 * (48 * (48 * (s.teamOf w).die + (s.teamOf w).core) + w.slot)) ∧
      (∀ L ∈ s.deliver w, w'.lane L = { w.lane L with
        st := .run, resumepc := (w.lane L).pc, entryPc := (w.lane L).pc, pc := BitVec.ofNat 32 c.handler, aside := (w.lane L).hints, hints := [], inHandler := true }) ∧
      ∀ L, L ∉ s.deliver w → w'.lane L = w.lane L) ∧
  (∀ (s : State) (w : Wave), Issuing s w → Ready s w (formOf .rft) → (∃ L, L < w.lanes.length ∧ L ∉ executing s w (formOf .rft) ∧
      (w.lane L).inHandler = true ∧ (w.lane L).st ≠ .returned ∧ (w.lane L).st ≠ .exited) →
    ∃ t w', exec .rft s = .next t ∧ Issued s t w w' (formOf .rft) ∧ t.less = s.less ∧ w'.less = w.less ∧
      ∀ L ∈ executing s w (formOf .rft), w'.lane L = ({ w.lane L with st := .returned, hints := [], stepped := false } : Lane).noted) ∧
  (∀ (s : State) (w : Wave) (b15 : BitVec 72), Issuing s w → Ready s w (formOf .rft) → w.handlerB15 = some b15 → w.bases.length = 16 →
      executing s w (formOf .rft) ≠ [] →
      (∀ L, L < w.lanes.length → L ∉ executing s w (formOf .rft) →
        (w.lane L).inHandler = false ∨ (w.lane L).st = .returned ∨ (w.lane L).st = .exited) →
    ∃ t w', exec .rft s = .next t ∧ t.wave? w.uid = some w' ∧ t.less = s.less ∧ w'.handlerB15 = none ∧ w'.window = w.nextWindow s.cycle ∧ w'.next = none ∧
      w'.bases.getD 15 0 = b15 ∧ (∀ n, n < 15 → w'.bases.getD n 0 = w.bases.getD n 0) ∧
      (∀ L, L < w.lanes.length → (w'.lane L).regs = (w.lane L).regs ∧ (w'.lane L).inHandler = false ∧
        if L ∈ executing s w (formOf .rft) ∨ (w.lane L).st = .returned then
          (w'.lane L).st = .run ∧ (w'.lane L).pc = (w.lane L).resumepc ∧
          (w'.lane L).hints = if (w.lane L).resumepc = (w.lane L).entryPc then (w.lane L).aside else []
        else (w'.lane L).st = (if (w.lane L).st = .held then .run else (w.lane L).st) ∧ (w'.lane L).pc = (w.lane L).pc))

/-- R215, R388, for waves that are not logged: SAVEW of a uniform aligned address, once nothing of the wave is pending, writes the wave's image there; RESTW of an image that fits brings back handles, b0 to b14, and the
executing lanes' registers, predicates, FPCTL and KEY.
That an image is written and read at one point is the model's choice (log 39); its parked mask, p0 and handle words are deduced (logs 45 to 47). -/
def Obligations.WaveImages : Prop :=
  (∀ a n ps, Issues (.savew a n) (formOf (.savew a n))
    (fun s x => let vas := imageVas a n x (x.E.headD 0)
      x.E ≠ [] ∧ x.g.logOrd = none ∧ s.pending x.uid = false ∧ imageTraps a n x = none ∧ s.laneXls x .store vas = .ok ps ∧ (∀ p ∈ ps, s.migHeld p.1 = false) ∧
      Memory.wf s.mem = true ∧ s.inOrder x .store .wk (x.eachLane (imageWholes .store a n s x)) ∧
      (∀ i j, i < j → j < ps.length → (ps.getD i (0, 0)).1 + 128 ≤ (ps.getD j (0, 0)).1 ∨ (ps.getD j (0, 0)).1 + 128 ≤ (ps.getD i (0, 0)).1) ∧
      ∀ v ∈ vas, ∀ p ∈ ps, s.leafAt x v.1 + 8 ≤ p.1 ∨ p.1 + 128 ≤ s.leafAt x v.1)
    (fun s => { s.less with mem := [], pages := [], wrote := [], writes := 0, tlb := [] }) (fun s x w s' w' =>
      w'.less = w.less ∧ (∀ L ∈ x.E, Emptied (w.lane L) (w'.lane L) 0 0) ∧
      (∀ k, k < 402 → memBytes s'.mem (ps.getD k (0, 0)).1 128 = (x.w.image.drop (128 * k)).take 128) ∧
      ∀ b, (∀ p ∈ ps, b < p.1 ∨ p.1 + 128 ≤ b) →
        (∀ v ∈ imageVas a n x (x.E.headD 0), b < s.leafAt x v.1 ∨ s.leafAt x v.1 + 8 ≤ b) → memByte s'.mem b = memByte s.mem b)) ∧
  (∀ a n ps hs, Issues (.restw a n) (formOf (.restw a n))
    (fun s x => let img := ps.flatMap (fun p => memBytes s.mem p.1 128)
      x.E ≠ [] ∧ x.g.logOrd = none ∧ imageTraps a n x = none ∧ s.laneXls x .load (imageVas a n x (x.E.headD 0)) = .ok ps ∧
      bsNat img 0 2 = x.w.regs ∧ imageHandles img x.t.slots = some hs ∧ s.inOrder x (.load 0 0) .wk (x.eachLane (imageWholes .load a n s x)) ∧ ∀ L ∈ x.E,
        (∀ y ∈ s.lands, y.uid = x.uid → y.lane ≠ L) ∧ ∀ b ∈ s.accs, b.uid = x.uid → b.lane = L → b.op.lands = false)
    (fun s => { s.less with wrote := [], l2 := [] }) (fun s x w _ w' =>
      let img := ps.flatMap (fun p => memBytes s.mem p.1 128)
      { w'.less with handles := [], bases := [] } = { w.less with handles := [], bases := [] } ∧ w'.handles = hs ∧
      (∀ k, k < 15 → w'.bases.getD k 0 = BitVec.ofNat 72 (bsNat img (0x40 + 16 * k) 9)) ∧ w'.bases.getD 15 0 = w.bases.getD 15 0 ∧
      ∀ L ∈ x.E, let l' := w'.lane L
        l'.pc = (w.lane L).pc + 1 ∧ l'.regs.length = (w.lane L).regs.length ∧
        (∀ k, k < (w.lane L).regs.length → l'.v k = BitVec.ofNat 32 (bsNat img (0x900 + 128 * k + 4 * L) 4) ∧
          (l'.reg k).full = (bsNat img (0x4900 + 256 * k + 8 * L) 8).testBit 32 ∧ (l'.reg k).fault = (bsNat img (0x4900 + 256 * k + 8 * L) 8).testBit 33) ∧
        (∀ k, 1 ≤ k → k < 128 → l'.p k = (bsNat img (0x6C0 + 16 * L) 16).testBit k) ∧
        l'.fpctl = BitVec.ofNat 32 (bsNat img (0x240 + 4 * L) 4) &&& 0x1FFF ∧ l'.key = BitVec.ofNat 32 (bsNat img (0x2C0 + 4 * L) 4) &&& 0xFFFF))

/-! ## Words, fetch and the checks before an instruction executes (R198, R266 to R288) -/

/-- R266 to R289: decoding and encoding agree. Every well-formed instruction that has a word is read back from it with every operand as it was; every
word that decodes is the word of the instruction it decodes to, which is well formed; and the majors 0x00 and 0x78 to 0x7A are no instruction. -/
def Obligations.DecodeEncode : Prop :=
  (∀ (i : Instr), i.encoded = true → i.WellFormed → decode (encode i) = .ok i) ∧
  (∀ (x : Word) (i : Instr), decode x = .ok i → i.encoded = true ∧ i.WellFormed ∧ encode i = x) ∧
  (∀ (x : Word) (i : Instr), (x.toNat / 2 ^ 25 = 0 ∨ (0x78 ≤ x.toNat / 2 ^ 25 ∧ x.toNat / 2 ^ 25 ≤ 0x7A)) → decode x ≠ .ok i)

/-- R267, R277 to R286: words written out from the manual's encodings decode to the instructions they stand for. -/
def Obligations.WordsDecode : Prop :=
  decode 0x02102020 = .ok (.iadd 4 4 2 0 0 0) ∧
  decode 0x22200820 = .ok (.imac 8 1 2 0 0 0) ∧
  decode 0x240C1BFF = .ok (.iaddi 3 3 0 0x3FF) ∧
  decode 0xF8048D15 = .ok (.ximm 0x48D15) ∧
  decode 0x3E202861 = .ok (.sel 8 5 6 0 0 1) ∧
  decode 0x94503190 = .ok (.ld 20 6 3 0 4 0) ∧
  decode 0x9668C2C0 = .ok (.st 26 24 5 2 0 0) ∧
  decode 0x980C1798 = .ok (.lds 3 2 15 0 6 0) ∧
  decode 0x9C241F90 = .ok (.ldfe 9 3 15 0 4 0) ∧
  decode 0xA0203094 = .ok (.atom 8 6 1 0 10 0) ∧
  decode 0xA2243116 = .ok (.red 9 6 2 0 11 0) ∧
  decode 0xA4301792 = .ok (.atoms 12 2 15 0 9 0) ∧
  decode 0xB8002006 = .ok (.rwait 4 6) ∧
  decode 0xB6094004 = .ok (.qpush 2 40 4)

/-- R198, R266, R278: a step runs the instruction that the bytes at the wave's minimum PC decode to. It does so when the wave's turn is due
on the agenda, its team is on its core, no comparator stops it, its quadrant may issue, and the fetch of the word is translated and passes its
checks: the step is what exec answers, with the agenda one move shorter and the wave and its word noted. A word that is no instruction is run as
the step for one.
The agenda is the model's (log 7). -/
def Obligations.StepRunsDecoded : Prop :=
  ∀ (s : State) (w : Wave) (pa : Nat) (e : Pte),
    let p := s.popped
    let va := ((p.ctx (p.issOf w).c).codeva + 4 * w.minPc) % 2 ^ 72
    s.agenda.head? = some (.issue 0 w.uid) → p.activeWave? w.uid = some w → w.minSet ≠ [] → p.breakLanes w = [] → p.quadFree w = true →
    w.minPc < (p.ctx (p.issOf w).c).codewords → p.unwalked (p.issOf w) [va] = [] → p.laneXl (p.issOf w) va 4 .fetch = .ok pa e →
    let x := BitVec.ofNat 32 (leNat (memBytes p.mem pa 4))
    (∀ i, decode x = .ok i → step s = exec i { p with cur := some w.uid, ir := x }) ∧
    (∀ er, decode x = .error er → step s = exec .illegalInstruction { p with cur := some w.uid, ir := x })

/-- R288, R198, R204, R212: the checks before an instruction executes, in their order, where all lanes of the minimum-PC set meet the same one. A hint that
the instruction does not accept traps with ILLHINT at the hint; a word-level value with ILLEGAL; lanes whose guard fails only advance; then an absent
unit traps with UNITABSENT, a register beyond the lane's with REGRANGE, a handle that is not held with SLOTHANDLE; and an empty source with its E bit
with EMPTYREG, once all other registers are ready. A lane that traps keeps its registers and predicates. While no lane traps and some lane waits for an empty register the set stays as it is.
A lane that has claimed its index, or is replayed, does not wait for its own destination. Which hints a lane keeps is deduced (log 30), and so is that (log 112). -/
def Obligations.ChecksInOrder : Prop :=
  let f (i : Instr) (l : Lane) : Form := formOf i (hintSet l.hints) l.inHandler
  let parked (l l' : Lane) (kind : Nat) (pc info4 : Word) : Prop :=
    l'.st = .trapped ∧ l'.trapKind = kind ∧ l'.trapinfo.getD 1 0 = pc ∧ l'.trapinfo.getD 4 0 = info4 ∧ l'.pc = pc ∧ l'.regs = l.regs ∧ l'.preds = l.preds
  let hintsOk (i : Instr) (l : Lane) : Prop := (f i l).isHint = true ∨ ∀ h ∈ l.hints, (f i l).accepts h.major.toNat = true
  let wordBad (i : Instr) (l : Lane) : Prop :=
    (f i l).bad = true ∨ hintsBad (f i l) (hintSet l.hints) = true ∨ ((f i l).g = 3 ∧ (hintSet l.hints).prd = none)
  let wordOk (i : Instr) (l : Lane) : Prop := hintsOk i l ∧ ((f i l).isHint = true ∨ ¬ wordBad i l)
  let guard (i : Instr) (l : Lane) : Bool := guardPass (f i l) (hintSet l.hints) l
  let unitOk (i : Instr) (s : State) (l : Lane) : Prop := ∀ u, (f i l).unit = some u → s.hasUnit u = true
  let named (i : Instr) (l : Lane) (r : Nat) : Prop :=
    (∃ x ∈ (f i l).srcs, x.r ≤ r ∧ r < x.r + x.n) ∨ ∃ x ∈ (f i l).dsts, x.1 ≤ r ∧ r < x.1 + x.2
  let regsOk (i : Instr) (l : Lane) : Prop := ∀ r, named i l r → r < l.regs.length
  let unheld (i : Instr) (w : Wave) (l : Lane) (h : Nat) : Prop := h ∈ (f i l).handles ∧ w.handles.getD h none = none
  let empty (i : Instr) (l : Lane) (trap : Bool) (r : Nat) : Prop :=
    ∃ x ∈ (f i l).srcs, x.trap = trap ∧ x.r ≤ r ∧ r < x.r + x.n ∧ (l.srcRegs.getD r {}).full = false
  let dstBusy (i : Instr) (l : Lane) : Prop :=
    ∃ x ∈ (f i l).dsts, ∃ r, x.1 ≤ r ∧ r < x.1 + x.2 ∧ (l.reg r).full = false
  let waits (l : Lane) : Prop := l.claim = none ∧ l.replay = none
  let each (pre : Instr → State → Wave → Lane → Prop) (post : Instr → State → Wave → Lane → Lane → Prop) : Prop :=
    ∀ (i : Instr) (s : State) (w : Wave), i.encoded = true → Issuing s w → w.lanes.length ≤ 32 → WindowSteady s w →
      (∀ L ∈ w.minSet, (w.lane L).inHandler = false ∧ (w.lane L).lost = none ∧ pre i s w (w.lane L)) →
      ∃ (t : State) (w' : Wave), exec i s = .next t ∧ t.wave? w.uid = some w' ∧ (∀ L ∈ w.minSet, post i s w (w.lane L) (w'.lane L)) ∧
        ∀ L, L ∉ w.minSet → w'.lane L = w.lane L
  each (fun i _ _ l => ¬ hintsOk i l)
    (fun i _ _ l l' => ∃ h ∈ l.hints, (f i l).accepts h.major.toNat = false ∧ parked l l' 2 h.pc (BitVec.ofNat 32 h.major.toNat)) ∧
  each (fun i _ _ l => hintsOk i l ∧ (f i l).isHint = false ∧ wordBad i l) (fun _ _ _ l l' => parked l l' 1 l.pc 0) ∧
  each (fun i _ _ l => wordOk i l ∧ guard i l = false)
    (fun _ _ _ l l' => l' = l.adv.noted ∧ l'.pc = l.pc + 1 ∧ l'.regs = l.regs) ∧
  each (fun i s _ l => wordOk i l ∧ guard i l = true ∧ ¬ unitOk i s l)
    (fun i s _ l l' => ∃ u, (f i l).unit = some u ∧ s.hasUnit u = false ∧ parked l l' 15 l.pc (BitVec.ofNat 32 u)) ∧
  each (fun i s _ l => wordOk i l ∧ guard i l = true ∧ unitOk i s l ∧ ¬ regsOk i l)
    (fun i _ _ l l' => ∃ r, named i l r ∧ l.regs.length ≤ r ∧ parked l l' 4 l.pc (BitVec.ofNat 32 r)) ∧
  each (fun i s w l => wordOk i l ∧ guard i l = true ∧ unitOk i s l ∧ regsOk i l ∧ ∃ h, unheld i w l h)
    (fun i _ w l l' => ∃ h, unheld i w l h ∧ parked l l' 17 l.pc (BitVec.ofNat 32 h)) ∧
  each (fun i s w l => wordOk i l ∧ guard i l = true ∧ unitOk i s l ∧ regsOk i l ∧ (∀ h, ¬ unheld i w l h) ∧ (∀ r, ¬ empty i l false r) ∧
      (waits l → ¬ dstBusy i l) ∧ ∃ r, empty i l true r)
    (fun i _ _ l l' => ∃ r, empty i l true r ∧ l'.trapinfo.getD 2 0 = (l.srcRegs.getD r {}).tag ∧
      parked l l' 3 l.pc (BitVec.ofNat 32 (r + if (l.srcRegs.getD r {}).fault then 128 else 0))) ∧
  (∀ (i : Instr) (s : State) (w : Wave), i.encoded = true → Issuing s w → (∀ L ∈ w.minSet, ∀ t, fate s w (formOf i) (w.lane L) ≠ .trap t) →
    (∃ L ∈ w.minSet, wordOk i (w.lane L) ∧ guard i (w.lane L) = true ∧ ((∃ r, empty i (w.lane L) false r) ∨ (waits (w.lane L) ∧ dstBusy i (w.lane L)))) →
    exec i s = .next { s with tried := w.uid :: s.tried })

/-! ## Reset and memory (R2, R19, R27, R30, R32, R144) -/

/-- R144: memory keeps its canonical form, which lists no byte twice and none that reads as an unlisted one, through every step.
That an unlisted byte reads 0 is the model's choice (log 1). -/
def Obligations.StepKeepsMemory : Prop := ∀ (s t : State), MemoryOk s → step s = .next t → MemoryOk t

/-! ## Events of the device: host, links, contexts (R16 to R31, R56, R57, R253, R254) -/

/-- R2, R16, R19, R22, R25, R26, R27, R30, R32: RESET samples the straps and leaves nothing ready, every port down, every context and queue disabled and
nothing in flight, and the host's own memory as it was; only IDENT then reads as more than 0.
What has no reset value in the manual is the model's choice (logs 2 to 5), and so is what RESET keeps (log 117). -/
def Obligations.ResetLeaves : Prop :=
  (∀ s, Ends .reset s (fun t =>
    t.pkg.straps = s.pkg.pins ∧ t.pkg.ready0 = 0 ∧ t.pkg.ready1 = 0 ∧
    (∀ p, p < 18 → (t.port p).state = .down ∧ (t.port p).lanes = 0) ∧
    t.host.powercap = BitVec.ofNat 12 s.pkg.pins.limitW ∧ t.host.bar2stat = 0 ∧ t.host.ctxtab = 0 ∧ t.host.mcring = 0 ∧
    (∀ c, (t.ctx c).enable = false ∧ (t.ctx c).stat = 0) ∧ (∀ q, (t.queue q).enable = false) ∧
    t.grids = [] ∧ t.teams = [] ∧ t.waves = [] ∧ t.outs = [] ∧ t.accs = [] ∧ t.lands = [] ∧ t.tlb = [] ∧ t.copies = [] ∧ t.locks = [] ∧
    t.faults = [] ∧ t.caddy = [] ∧ t.stks = [] ∧ t.cycle = 0 ∧
    (∀ a, paKind a = 3 → memByte t.mem a = memByte s.mem a) ∧
    t.barRead 0 8 = t.ident.toNat ∧ ∀ o n, n = 4 ∨ n = 8 → 8 ≤ o → t.barRead o n = 0)) ∧
  Ends .reset State.reset (fun t => t = State.reset) ∧ MemoryOk State.reset

/-- R18 to R22, R25 to R28: host accesses once BARWIN is ready, and FUNCTION_READY. A register of BAR0 takes a write of its width, or of half of it, at its aligned
offset; other offsets and widths leave all as it was. A read or write through BAR2 reaches the bytes at BAR2WIN, its bits below the window's size
ignored; one that fails returns ones or is dropped, and sets its bit of BAR2STAT. FetchAdd and CAS of 4 and 8 bytes are done; other atomics are answered with Unsupported Request.
Corners of atomics and of BAR2 are deduced (log 102). -/
def Obligations.HostAccesses : Prop :=
  let pa (s : State) (a : Nat) : Nat := s.host.bar2win.toNat / 2 ^ s.host.bar2log * 2 ^ s.host.bar2log + a
  let inside (s : State) (a n : Nat) : Prop := s.barwin = true ∧ a + n ≤ 2 ^ s.host.bar2log ∧ n ≤ 4096
  let exists' (s : State) (a n : Nat) : Prop :=
    paKind (pa s a) < 2 ∧ s.present (pa s a) = true ∧ s.holds (pa s a) n = true ∧ s.reachable (pa s a) = true
  let good (s : State) (a n : Nat) : Prop := inside s a n ∧ exists' s a n ∧ s.memRdy none true (pa s a) = true
  let fails (s : State) (a n bit : Nat) : Prop :=
    inside s a n ∧ ((bit = 2 ∧ 2 ≤ paKind (pa s a)) ∨
      (bit = 1 ∧ paKind (pa s a) < 2 ∧ (s.present (pa s a) = false ∨ s.holds (pa s a) n = false ∨ s.reachable (pa s a) = false)) ∨
      (bit = 0 ∧ exists' s a n ∧ s.memRdy none true (pa s a) = false))
  let flagged (s : State) (bit : Nat) (h : HostRegs) : HostRegs := { h with bar2stat := s.host.bar2stat ||| BitVec.ofNat 3 (2 ^ bit) }
  let answer (x : Nat) (ok : Bool) (h : HostRegs) : HostRegs := { h with reply := x, replyOk := ok }
  let host (s : State) (f : HostRegs → HostRegs) : State := { s with host := f s.host }
  let sameBut (s t : State) : Prop := { t with mem := [], pages := [], wrote := [], writes := 0, pushers := [], host := s.host } = { s with mem := [], pages := [], wrote := [], writes := 0, pushers := [] }
  (∀ s, s.barwin = true → Ends .powercapWrite s (fun t => t = host s (fun h => { h with powercap := BitVec.ofNat 12 s.occ.x }))) ∧
  (∀ s, s.barwin = true → Ends .bar2statWrite s (fun t => t = host s (fun h => { h with bar2stat := h.bar2stat &&& ~~~(BitVec.ofNat 3 s.occ.x) }))) ∧
  (∀ s, s.barwin = true → s.occ.n = 0x48 → s.occ.m = 8 →
    Ends .registerWrite s (fun t => t = host s (fun h => { h with mcring := BitVec.ofNat 64 s.occ.x }))) ∧
  (∀ s, s.barwin = true → s.occ.n = 0x4C → s.occ.m = 4 →
    Ends .registerWrite s (fun t => t = host s (fun h => { h with mcring := BitVec.ofNat 32 s.occ.x ++ h.mcring.extractLsb' 0 32 }))) ∧
  (∀ s, s.barwin = true → s.occ.n = 0x1300 → s.occ.m = 8 →
    Ends .registerWrite s (fun t => t = host s (fun h => { h with bar2win := BitVec.ofNat 60 s.occ.x }))) ∧
  (∀ s, s.barwin = false ∨ s.occ.n % s.occ.m ≠ 0 ∨ (s.occ.m ≠ 4 ∧ s.occ.m ≠ 8) ∨ s.occ.n / 8 = 0 → Ends .registerWrite s (fun t => t = s)) ∧
  (∀ s, s.barwin = true →
    let s1 := host s (fun h => { h with ctxtab := BitVec.ofNat 64 s.occ.x, tabSet := true })
    let p := s1.tabPa + 0x20000
    Ends .ctxtabWrite s (fun t => t.host.ctxtab = s1.host.ctxtab ∧
      (s1.devOk p 768 = true → s1.devOk p 64 = true →
        t.host.drainUs = (if (s.rd p 1).testBit 0 then min 1000 (s.rd (p + 4) 4) else 50) ∧
        t.host.sliceUs = (if (s.rd p 1).testBit 1 then max 100 (min 100000 (s.rd (p + 8) 4)) else 2000)))) ∧
  (∀ s, good s s.occ.n s.occ.m → Ends .bar2Read s (fun t => t = host s (answer (s.rd (pa s s.occ.n) s.occ.m) true))) ∧
  (∀ s bit, fails s s.occ.n s.occ.m bit → Ends .bar2Read s (fun t => t = host s (fun h => answer (2 ^ (8 * s.occ.m) - 1) true (flagged s bit h)))) ∧
  (∀ s, good s s.occ.n s.occ.m → MemoryOk s → Ends .bar2Write s (fun t =>
    t.rd (pa s s.occ.n) s.occ.m = s.occ.x % 256 ^ s.occ.m ∧ SameOutside s t (pa s s.occ.n) s.occ.m ∧ t.host = s.host ∧ sameBut s t)) ∧
  (∀ s bit, fails s s.occ.n s.occ.m bit → Ends .bar2Write s (fun t => t = host s (flagged s bit))) ∧
  (∀ s, good s s.occ.k s.occ.m → MemoryOk s → s.occ.m = 4 ∨ s.occ.m = 8 → s.occ.n = 0 ∨ s.occ.n = 2 → s.occ.k % s.occ.m = 0 →
    let old := s.rd (pa s s.occ.k) s.occ.m
    Ends .hostAtomic s (fun t =>
      t.rd (pa s s.occ.k) s.occ.m = (if s.occ.n = 0 then (old + s.occ.x) % 256 ^ s.occ.m
        else if old = s.occ.x % 256 ^ s.occ.m then s.occ.y % 256 ^ s.occ.m else old) ∧
      SameOutside s t (pa s s.occ.k) s.occ.m ∧ t.host = answer old true s.host ∧ sameBut s t)) ∧
  (∀ s, inside s s.occ.k s.occ.m → (s.occ.m ≠ 4 ∧ s.occ.m ≠ 8) ∨ s.occ.n = 1 → Ends .hostAtomic s (fun t => t = host s (answer 0 false))) ∧
  (∀ s, s.occ.n ≤ 1 → s.mayReport s.occ.n s.occ.m = true → s.host.tabDue = false → s.faults = [] → (∀ x ∈ s.queues, x.2.stale = false) →
    Ends .functionReady s (fun t => t = { s with pkg := t.pkg } ∧
      t.pkg = if s.occ.n = 0 then { s.pkg with ready0 := s.pkg.ready0 ||| 1#64 <<< s.occ.m } else { s.pkg with ready1 := s.pkg.ready1 ||| 1#64 <<< s.occ.m }))

/-- R13, R16, R17, R19, R23, R253, R254: a port that goes down or comes up or trains anew has its state, its lanes and its partner, and READY1 follows; TC0OVER counts demoted
flits. DVFS_CHANGE sets a die's clock, voltage and limit, and what is on its way in the die takes proportionally more or less time from then on. ENERGY_INTERVAL clears the activity it has shared out, and adds to the contexts' counters and to
the idle one what together it adds to the total.
What a port that is down holds is deduced (log 100), and how a change of clock stretches what is on its way (log 145); the energies are free values (log 53), and their interval (log 98) and SEQ (log 103) are the model's choice. -/
def Obligations.LinksAndClocks : Prop :=
  let fitted (s : State) : Prop := s.occ.n < s.linkPorts ∧ s.occ.n < s.pkg.ports.length
  let others (s t : State) : Prop := { t with pkg := s.pkg } = s ∧ (∀ k, k ≠ s.occ.n → t.port k = s.port k) ∧ t.pkg.clks = s.pkg.clks ∧
    t.pkg.ready0 = s.pkg.ready0
  let ready (s t : State) (up : Bool) : Prop := t.rdy (22 + s.occ.n) = up ∧ ∀ k, k ≠ 22 + s.occ.n → t.rdy k = s.rdy k
  (∀ s, fitted s → (s.port s.occ.n).isUp = true → (∀ a ∈ s.accs, a.sp = none → s.isLocal a.addr = true) →
      (∀ x ∈ s.lands, ∀ p, x.src = some p → s.isLocal p.1 = true) → Ends .portDown s (fun t =>
    others s t ∧ ready s t false ∧ t.port s.occ.n = { s.port s.occ.n with
      state := (if s.occ.m = 1 then .training else if s.occ.m = 4 then .fault else .down), lanes := 0, peerport := 0, peerdev := 0x3FF })) ∧
  (∀ s, fitted s → (s.port s.occ.n).isUp = false → 0 < s.occ.m → s.occ.m < 16 → Ends .portUp s (fun t =>
    others s t ∧ ready s t true ∧ t.port s.occ.n = { s.port s.occ.n with
      state := (if s.occ.m = 15 then .up else .degraded), lanes := BitVec.ofNat 4 s.occ.m, peerdev := BitVec.ofNat 10 s.occ.k
      peerport := BitVec.ofNat 5 s.occ.j, switch := s.occ.x })) ∧
  (∀ s, fitted s → (s.port s.occ.n).isUp = true → 0 < s.occ.m → s.occ.m < 16 → Ends .portRetrain s (fun t =>
    others s t ∧ t.pkg.ready1 = s.pkg.ready1 ∧ t.port s.occ.n = { s.port s.occ.n with
      state := (if s.occ.m = 15 then .up else .degraded), lanes := BitVec.ofNat 4 s.occ.m
      retrain := BitVec.ofNat 8 (min 255 ((s.port s.occ.n).retrain.toNat + 1)) })) ∧
  (∀ s, fitted s → Ends .tc0Demotion s (fun t => others s t ∧ t.pkg.ready1 = s.pkg.ready1 ∧
    t.port s.occ.n = { s.port s.occ.n with tc0over := BitVec.ofNat 64 (min ((s.port s.occ.n).tc0over.toNat + s.occ.m) (2 ^ 64 - 1)) })) ∧
  (∀ (s : State), s.occ.n < s.dies → s.occ.n < s.pkg.clks.length → s.occ.x ≤ 3 → s.streamPa s.occ.n 1 = 0 →
    (let c := s.pkg.clks.getD s.occ.n {}; c.mhz ≠ BitVec.ofNat 32 s.occ.m ∨ c.mv ≠ BitVec.ofNat 32 s.occ.k ∨ c.limit ≠ BitVec.ofNat 32 s.occ.j) →
    Ends .dvfsChange s (fun (t : State) => { t with pkg := s.pkg, lands := s.lands, accs := s.accs, teams := s.teams, cores := s.cores } = s ∧
      { t.pkg with clks := s.pkg.clks } = s.pkg ∧
      (∀ (n : Nat) (x : Land), s.lands[n]? = some x → ∃ y : Land, t.lands[n]? = some y ∧ { y with due := x.due } = x ∧ (x.due ≤ s.cycle → y = x) ∧
        (∀ w, s.wave? x.uid = some w → (s.teamOf w).die ≠ s.occ.n → y = x) ∧
        (∀ w, s.wave? x.uid = some w → (s.teamOf w).die = s.occ.n → x.bound = 0 → s.cycle < x.due →
          y.due = s.cycle + ceilDiv ((x.due - s.cycle) * s.mhz s.occ.n) (t.mhz s.occ.n))) ∧
      ∀ d, t.pkg.clks.getD d {} = if d = s.occ.n
        then { s.pkg.clks.getD d {} with
          mhz := BitVec.ofNat 32 s.occ.m, mv := BitVec.ofNat 32 s.occ.k, limit := BitVec.ofNat 32 s.occ.j, temp := BitVec.ofNat 16 s.occ.y
          seq := (s.pkg.clks.getD d {}).seq + 1 }
        else s.pkg.clks.getD d {})) ∧
  (∀ s, s.occ.n < s.dies → s.occ.n < s.dbg.energyAt.length → s.dbg.energyAt.getD s.occ.n 0 + 270000 ≤ s.cycle →
    let tab := fieldAt s.dbg.blk 192 8
    let cell (k : Nat) : Nat := tab + 2064 * s.occ.n + 8 * k
    Ends .energyInterval s (fun t =>
      (∀ c, c < 256 → t.activityOf s.occ.n c = 0) ∧ (∀ d c, c < 256 → d ≠ s.occ.n → t.activityOf d c = s.activityOf d c) ∧
      t.dbg.energyAt = s.dbg.energyAt.set s.occ.n s.cycle ∧ t.waves = s.waves ∧ t.teams = s.teams ∧
      (tab = 0 → t.mem = s.mem) ∧
      (tab ≠ 0 → cell 258 ≤ 2 ^ 60 → MemoryOk s → (∀ k, k < 258 → s.devOk (cell k) 8 = true) →
        ∃ v : Nat → Nat, (∀ k, k < 258 → t.rd (cell k) 8 = (s.rd (cell k) 8 + v k) % 2 ^ 64) ∧ ((List.range 257).map v).sum = v 257)))

/-- R29 to R31, R50, R52, R57, R105, R113, R194: the host's control of contexts. Enabling keeps a descriptor that passes the checks and marks one that does not; writing ENABLE = 1 again
only repeats the checks; disabling drops the context's locks and has its resident teams saved. Ones written to CTXSTAT clear FAULTED and ASSERTED. COUNTER_POISON of a counter that is waited on
marks it and its context, and CNTREINIT clears the mark. RETRY lets the lanes of an outstanding fault record repeat their instruction, and UNRESOLVABLE has them trap with PAGEFAULT, naming the record and
the address.
When HALTID begins again is deduced (log 92), and which counters can be poisoned (log 86); that a descriptor which cannot be read sets DESCBAD is the model's
choice (log 91). -/
def Obligations.ContextsAndFaults : Prop :=
  let others (s t : State) (c : Nat) : Prop := ∀ k, k ≠ c → t.ctx k = s.ctx k
  let quiet (s : State) : Prop := ∀ x ∈ s.queues, x.2.stale = false
  (∀ s d, s.barwin = true → s.occ.n < 256 → (s.ctx s.occ.n).enable = false → s.descOf s.occ.n = some d → descGood d = true → quiet s →
    Ends .contextEnable s (fun t => others s t s.occ.n ∧ (t.ctx s.occ.n).enable = true ∧ (t.ctx s.occ.n).suspended = false ∧
      (t.ctx s.occ.n).descbad = false ∧ (t.ctx s.occ.n).desc = d ∧ t.mem = s.mem ∧ t.waves = s.waves ∧ t.teams = s.teams)) ∧
  (∀ s, s.barwin = true → s.occ.n < 256 → (s.ctx s.occ.n).enable = false → (∀ d, s.descOf s.occ.n = some d → descGood d = false) →
    Ends .contextEnable s (fun t => { t with ctxs := s.ctxs } = s ∧ others s t s.occ.n ∧ t.ctx s.occ.n = { s.ctx s.occ.n with descbad := true })) ∧
  (∀ s, s.barwin = true → (s.ctx s.occ.n).enable = true →
    Ends .contextRecheck s (fun t => { t with ctxs := s.ctxs } = s ∧ others s t s.occ.n ∧
      t.ctx s.occ.n = { s.ctx s.occ.n with descbad := !s.descOk s.occ.n })) ∧
  (∀ s, s.barwin = true → (s.ctx s.occ.n).enable = true → (s.ctx s.occ.n).descbad = false → (∀ q ∈ s.queues, q.2.ctx.toNat ≠ s.occ.n) →
      (∀ u ∈ s.teams, u.st ≠ .draining) → (s.teams.map Team.tid).Nodup →
    Ends .contextDisable s (fun t => others s t s.occ.n ∧ (t.ctx s.occ.n).enable = false ∧ t.locks = s.locks.filter (fun k => k.ctx != s.occ.n) ∧
      t.teams = s.teams.map (fun u => if u.ctx = s.occ.n ∧ u.st = .resident then { u with st := .saving, drainFor := none } else u) ∧
      t.waves = s.waves ∧ (s.stks = [] → t.mem = s.mem))) ∧
  (∀ s, s.barwin = true → s.occ.n < 256 → Ends .ctxstatWrite s (fun t => { t with ctxs := s.ctxs } = s ∧ others s t s.occ.n ∧
    t.ctx s.occ.n = { s.ctx s.occ.n with
      faulted := (s.ctx s.occ.n).faulted && !s.occ.x.testBit 1, asserted := (s.ctx s.occ.n).asserted && !s.occ.x.testBit 2 })) ∧
  (∀ s, s.watched s.occ.n s.occ.m = true → s.poisoned s.occ.n s.occ.m = false → Ends .counterPoison s (fun t => others s t s.occ.n ∧
    (t.ctx s.occ.n).faulted = true ∧ (∀ i, t.poisoned s.occ.n i = true ↔ i = s.occ.m ∨ s.poisoned s.occ.n i = true) ∧ t.waves = s.waves)) ∧
  (∀ s, s.barwin = true → s.occ.n < 256 → s.occ.x < 65536 → Ends .cntreinitWrite s (fun t => { t with ctxs := s.ctxs } = s ∧ others s t s.occ.n ∧
    ∀ i, t.poisoned s.occ.n i = true ↔ i ≠ s.occ.x ∧ s.poisoned s.occ.n i = true)) ∧
  (∀ s f uid mask w, s.barwin = true → s.faults.find? (fun f => f.ctx == s.occ.n && f.seq.toNat == s.occ.m && f.cause != 3) = some f →
      f.who = .lanes uid mask → s.wave? uid = some w →
    Ends .faultackRetry s (fun t => ∃ w', t.wave? uid = some w' ∧ t.faults = s.faults.filter (fun x => !(x.ctx == f.ctx && x.seq == f.seq)) ∧
      { t with faults := s.faults, waves := s.waves } = s ∧ { w' with lanes := w.lanes } = w ∧
      ∀ L, L < w.lanes.length → w'.lane L =
        if mask.getLsbD L = true ∧ (w.lane L).st = .faulted f.seq
        then { w.lane L with st := if (w.window.any (fun x => x.closed) && !(w.lane L).inHandler) = true then .held else .run }
        else w.lane L)) ∧
  (∀ s f uid mask w, s.barwin = true → s.faults.find? (fun f => f.ctx == s.occ.n && f.seq.toNat == s.occ.m && f.cause != 3) = some f →
      f.who = .lanes uid mask → s.wave? uid = some w → (∀ l ∈ w.lanes, l.inHandler = false) →
    Ends .faultackUnresolvable s (fun t => ∃ w', t.wave? uid = some w' ∧ t.faults = s.faults.filter (fun x => !(x.ctx == f.ctx && x.seq == f.seq)) ∧
      ∀ L, L < w.lanes.length →
        ((w.lane L).st = .faulted f.seq → (w'.lane L).st = .trapped ∧ (w'.lane L).trapKind = 6 ∧ (w'.lane L).trapinfo.getD 4 0 = f.seq ∧
          (w'.lane L).trapinfo.getD 2 0 = f.va.extractLsb' 0 32 ∧ (w'.lane L).trapinfo.getD 3 0 = f.va.extractLsb' 32 32 ∧
          (w'.lane L).pc = (w.lane L).pc ∧ (w'.lane L).regs = (w.lane L).regs) ∧
        ((w.lane L).st ≠ .faulted f.seq → { w'.lane L with trapinfo := (w.lane L).trapinfo } = w.lane L)))

/-! ## Events of queues and packets (R32 to R54, R59, R71, R79, R80, R119, R120) -/

/-- R32, R34, R37, R79, R80: a queue that is enabled while its context is not keeps its header to be read; once it can be read, a packet queue's header that passes the checks is kept, and one that
does not halts the queue with 4. Disabling drops what the monitor holds and has not dispatched. RESTART has the header read again; a halted queue then runs again with what it had dispatched, and a running one takes up anew what it
had not. SKIP of a halted queue then discards the slot at READIDX as a packet with status SKIPPED. A monitor's error halts with 1. An ESTREQ batch that is due becomes a JOB of the records that stand from READIDX.
What SKIP and a monitor's error name is deduced (logs 60, 87), and that STATUS outlives a disable is the model's choice (log 57). So is what becomes
of a queue whose context is disabled: enabling it, RESTART and SKIP only ask for the header to be read, and what RESTART or SKIP asks for is done
after that reading (log 133). -/
def Obligations.QueueControl : Prop :=
  let others (s t : State) : Prop := ∀ q, q ≠ s.occ.n → t.queue q = s.queue q
  let held (s : State) : Prop := (s.ctx (s.queue s.occ.n).ctx.toNat).enable = false
  (∀ s, Tab.risingFrom s.queues 0 = true → s.barwin = true → s.occ.n < 4096 → (s.queue s.occ.n).enable = false → (s.ctx (s.occ.m % 256)).enable = false → Ends .queueEnable s (fun t =>
    { t with queues := s.queues } = s ∧ others s t ∧
    t.queue s.occ.n = { s.queue s.occ.n with enable := true, ctx := BitVec.ofNat 8 s.occ.m, stale := true, present := [] })) ∧
  (∀ s, s.barwin = true → s.occ.n < 4096 → (s.queue s.occ.n).enable = false → (s.ctx (s.occ.m % 256)).enable = true → s.qmonRdy (s.monDie s.occ.n) = true →
    (s.queue s.occ.n).redo = none →
    let s1 := s.updQueue s.occ.n (fun x => { x with enable := true, ctx := BitVec.ofNat 8 s.occ.m, stale := true, present := [] })
    ∀ bs s2, s1.engRd (s.occ.m % 256) ((s.queue s.occ.n).qaddr.toNat * 256) 64 = .ok (bs, s2) →
      let h : QueueHdr := BitVec.ofNat 512 (leNat bs)
      (h.good s.dies = true → QueueHdr.qkind h ≠ 3 → Ends .queueEnable s (fun t => others s t ∧
        t.queue s.occ.n = { s1.queue s.occ.n with stale := false, hdr := h, held := none, rix := fieldAt h 8 8 } ∧ t.outs = s.outs ∧ t.grids = s.grids)) ∧
      (h.good s.dies = false → Ends .queueEnable s (fun t => others s t ∧ (t.queue s.occ.n).status = 4 ∧ (t.queue s.occ.n).enable = true))) ∧
  (∀ s, s.barwin = true → (s.queue s.occ.n).enable = true → Ends .queueDisable s (fun t =>
    { t with queues := s.queues, grids := s.grids } = s ∧ others s t ∧
    t.queue s.occ.n = { s.queue s.occ.n with enable := false, held := none, stale := false } ∧
    t.grids = s.grids.filter (fun g => !(!g.begun && (match g.src with | .packet p _ => p == s.occ.n | _ => false))))) ∧
  (∀ (i : Instr) s skip, (i, skip) ∈ [(.queueRestart, false), (.queueSkip, true)] → Tab.risingFrom s.queues 0 = true → s.barwin = true →
    (s.queue s.occ.n).status ≠ 0 → held s → Ends i s (fun t => others s t ∧
    t.queue s.occ.n = { s.queue s.occ.n with status := 0, stale := true, held := none, redo := some skip } ∧ t.outs = s.outs ∧ t.grids = s.grids)) ∧
  (∀ (i : Instr) s, i = .queueRestart ∨ i = .queueSkip → Tab.risingFrom s.queues 0 = true → s.barwin = true → s.occ.n < 4096 → (s.queue s.occ.n).status = 0 →
    held s → Ends i s (fun t => { t with queues := s.queues, grids := s.grids } = s ∧ others s t ∧
    t.queue s.occ.n = { s.queue s.occ.n with stale := true, held := none, redo := if i = .queueRestart then some false else (s.queue s.occ.n).redo } ∧
    t.grids = s.grids.filter (fun g => !(!g.begun && (match g.src with | .packet p _ => p == s.occ.n | _ => false))))) ∧
  (∀ s, s.barwin = true → (s.queue s.occ.n).status ≠ 0 → s.stuckOut s.occ.n = false →
    let s1 := (s.runAgain s.occ.n (some true)).updQueue s.occ.n (fun x => { x with redo := none })
    let x := s1.queue s.occ.n
    s1.monWorks s.occ.n = true → x.stale = false → x.status = 0 → QueueHdr.qkind x.hdr ≠ 3 →
    ∀ bs ps k1 k2 s2, s1.engRd x.ctx.toNat x.hva 16 = .ok (bs, k1) → bsNat bs 0 8 ≠ bsNat bs 8 8 →
      s1.engRd x.ctx.toNat (x.slotVa (bsNat bs 8 8)) 64 = .ok (ps, k2) → s1.consume s.occ.n (bsNat bs 8 8) = .ok s2 →
      Ends .queueSkip s (fun t => t.fresh = s2.fresh + 1 ∧ t.outs = s2.outs ++ [
        { id := s2.fresh, q := s.occ.n, slot := bsNat bs 8 8, ctx := (s2.queue s.occ.n).ctx.toNat, pkt := BitVec.ofNat 512 (leNat ps)
          st := .done 3 0 }])) ∧
  (∀ s p slot, s.served s.occ.n = true → (s.queue s.occ.n).held = some (p, slot) → Ends .monitorSramError s (fun t => others s t ∧
    (t.queue s.occ.n).status = 1 ∧ (t.queue s.occ.n).held = none ∧ t.outs = s.outs)) ∧
  (∀ (i : Instr) s bs k1, let x := s.queue s.occ.n
    (i = .estreqBatchCount ∧ fieldAt x.template 24 2 ≤ x.present.length) ∨ (i = .estreqBatchTimeout ∧ ∃ y ∈ x.present, y.2 + 27000 ≤ s.cycle) →
    s.served s.occ.n = true → QueueHdr.qkind x.hdr = 3 → x.batch = none → s.engRd x.ctx.toNat (x.hva + 8) 8 = .ok (bs, k1) →
    x.present.any (fun y => y.1 == leNat bs) = true →
    Ends i s (fun t => ∃ n g, 0 < n ∧ (∀ k, k < n → x.present.any (fun y => y.1 == leNat bs + k) = true) ∧
      leNat bs % 2 ^ QueueHdr.logslots x.hdr + n ≤ 2 ^ QueueHdr.logslots x.hdr ∧
      (t.queue s.occ.n).batch = some (s.fresh, leNat bs, n) ∧ t.grids = s.grids ++ [g] ∧ g.gid = s.fresh ∧ g.ctx = x.ctx.toNat ∧ g.src = .batch s.occ.n (leNat bs) ∧
      g.card = x.template ||| record 512
        [(8, 9, (QueueHdr.slots x.hdr + 16 * (leNat bs % 2 ^ QueueHdr.logslots x.hdr)) % 2 ^ 72), (20, 4, n)]))

/-- R36 to R47, R71, R119, R120: what becomes of the packet at the head of a queue that its monitor serves and that passes the checks, once its wait is met. A JOB or GRID with work joins the deal list and stays
until its first deal; one without, and WAITCNT, TIMEBIND and NOP, complete at once; SIGNAL writes its counter; TRAVERSE goes to its engine; COPY copies the bytes. A packet whose wait is open is held, and PACKET_WAIT_MET takes it up; one whose counter is
poisoned completes with 2. A KIND above 8 halts the queue with 3, and a wrong SEQ with 2. A child grid that waits is dealt once its counter is met.
Which engine serves a TRAVERSE is the model's choice (log 121); that COPY copies in no time is deduced (log 78). -/
def Obligations.Packets : Prop :=
  let at' (s : State) (p : BitVec 512) (slot kind : Nat) : Prop :=
    let x := s.queue s.occ.n
    s.served s.occ.n = true ∧ QueueHdr.qkind x.hdr ≠ 3 ∧ x.held = none ∧ s.head s.occ.n = .packet p slot ∧ Pkt.seq p = slot % 65536 ∧
      Pkt.kind p = kind ∧ s.packetOk s.occ.n slot p = true ∧ s.cardGrid s.occ.n slot = false
  let ctx (s : State) : Nat := (s.queue s.occ.n).ctx.toNat
  let met (s : State) (p : BitVec 512) : Prop := s.waitState (ctx s) p = .met
  let out (s1 : State) (q slot : Nat) (p : BitVec 512) (st : OutSt) : OutPkt :=
    { id := s1.fresh, q, slot, ctx := (s1.queue q).ctx.toNat, pkt := p, st }
  (∀ (i : Instr) s p slot kind, (i = .jobPacket ∧ kind = 1) ∨ (i = .gridPacket ∧ kind = 2) → at' s p slot kind → met s p → cardWork p ≠ 0 →
    Ends i s (fun t => ∃ g, t.grids = s.grids ++ [g] ∧ g.gid = s.fresh ∧ g.ctx = ctx s ∧ g.card = p ∧ g.src = .packet s.occ.n slot ∧ g.begun = false ∧
      (kind = 1 → g.rem = fieldAt p 20 4) ∧ (t.queue s.occ.n).held = some (p, slot) ∧ t.outs = s.outs ∧ t.mem = s.mem)) ∧
  (∀ (i : Instr) s p slot kind s1,
    (i = .jobPacket ∧ kind = 1 ∧ cardWork p = 0) ∨ (i = .gridPacket ∧ kind = 2 ∧ cardWork p = 0) ∨ (i = .waitcntPacket ∧ kind = 5) ∨ (i = .nopPacket ∧ kind = 8) →
    at' s p slot kind → met s p → s.consume s.occ.n slot = .ok s1 →
    Ends i s (fun t => t.outs = s1.outs ++ [out s1 s.occ.n slot p (.done 0 0)] ∧ t.grids = s1.grids ∧ t.mem = s1.mem)) ∧
  (∀ (i : Instr) s p slot kind s1, (i, kind) ∈ [(.jobPacket, 1), (.gridPacket, 2), (.copyPacket, 3), (.traversePacket, 4), (.waitcntPacket, 5), (.nopPacket, 8)] →
    s.occ.m = 0 → at' s p slot kind → s.waitState (ctx s) p = .poisoned → s.consume s.occ.n slot = .ok s1 →
    Ends i s (fun t => t.outs = s1.outs ++ [out s1 s.occ.n slot p (.done 2 0)] ∧ t.grids = s1.grids ∧ t.mem = s1.mem)) ∧
  (∀ (i : Instr) s p slot kind, (i, kind) ∈ [(.jobPacket, 1), (.gridPacket, 2), (.copyPacket, 3), (.traversePacket, 4), (.waitcntPacket, 5), (.nopPacket, 8)] →
    s.occ.m = 0 → at' s p slot kind → s.waitState (ctx s) p = .open' →
    Ends i s (fun t => (t.queue s.occ.n).held = some (p, slot) ∧ t.outs = s.outs ∧ t.grids = s.grids ∧ t.mem = s.mem)) ∧
  (∀ s p slot d k s1, at' s p slot 4 → met s p → s.traverseEngine s.occ.n = some (d, k) → s.consume s.occ.n slot = .ok s1 → (∀ g ∈ s1.grids, g.gid ≠ s1.fresh) →
    Ends .traversePacket s (fun t => ∃ o r g, t.outs = s1.outs ++ [o] ∧ t.stackReqs = s1.stackReqs ++ [r] ∧ t.grids = s1.grids ++ [g] ∧
      o.pkt = p ∧ o.slot = slot ∧ o.st = .running ∧ o.gid = g.gid ∧ g.begun = true ∧ g.src = .walk s.occ.n slot ∧
      r.die = d ∧ r.eng = k ∧ r.ctx = ctx s ∧ r.va = BitVec.ofNat 72 (fieldAt p 8 9) ∧ r.pkt = some o.id)) ∧
  (∀ s p slot s1 s2, at' s p slot 7 → (s.engWr (ctx s) (((s.ctx (ctx s)).ttva + 16 * fieldAt p 4 2) % 2 ^ 72)
      (leBytes 9 (fieldAt p 8 9) ++ leBytes 4 (fieldAt p 20 4) ++ [0, 0, 0])) = .ok s1 → s1.consume s.occ.n slot = .ok s2 →
    Ends .timebindPacket s (fun t => t.outs = s2.outs ++ [out s2 s.occ.n slot p (.done 0 0)] ∧ t.mem = s2.mem)) ∧
  (∀ s o pa s1, s.occ.m = o.id → s.out? o.id = some o → o.st = .running → o.child = false → Pkt.kind o.pkt = 6 → o.id ≠ 0 →
      (∀ x ∈ s.outs, x.q = o.q → x.child = false → o.id ≤ x.id) → s.engXlate o.ctx ((s.ctx o.ctx).counterVa (fieldAt o.pkt 4 2)) 8 true = .ok (pa, s1) →
      MemoryOk s1 →
    Ends .signalPacket s (fun t => t.rd pa 8 = ((if fieldAt o.pkt 6 1 = 1 then 0 else s1.rd pa 8) + fieldAt o.pkt 8 8) % 2 ^ 64 ∧ SameOutside s1 t pa 8 ∧
      t.out? o.id = some { o with st := .done 0 0 } ∧ t.grids = s.grids ∧ t.waves = s.waves)) ∧
  (∀ s p slot s1, at' s p slot 6 → s.occ.m = 0 → s.consume s.occ.n slot = .ok s1 → (∃ x ∈ s1.outs, x.q = s.occ.n ∧ x.child = false ∧ x.id < s1.fresh) → s1.out? s.fresh = none →
      s1.fresh = s.fresh →
    Ends .signalPacket s (fun t => t.outs = s1.outs ++ [out s1 s.occ.n slot p .running] ∧ t.mem = s1.mem)) ∧
  (∀ s o a b pa pb s1 s3, let n := Pkt.xbytes o.pkt
    s.occ.m = o.id → o.id ≠ 0 → s.out? o.id = some o → o.st = .running → Pkt.kind o.pkt = 3 → o.fault = none → s.copyReady o.q = true → o.buf = [] → o.copied = 0 →
    Pkt.rows o.pkt = [(a, b)] → Pkt.srcSp o.pkt = false → Pkt.dstSp o.pkt = false → 0 < n → endAddr false a % 65536 + n ≤ 65536 → endAddr false b % 65536 + n ≤ 65536 →
    s.engXlate o.ctx (endAddr false a) n false = .ok (pa, s1) →
    ((s1.movedBytes o.ctx pa n).updOut o.id (fun o => { o with buf := memBytes s.mem pa n })).engXlate o.ctx (endAddr false b) n true = .ok (pb, s3) →
    s.copyLogged o = false → MemoryOk s3 → Ends .copyPacket s (fun t =>
      memBytes t.mem pb n = memBytes s.mem pa n ∧ SameOutside s3 t pb n ∧ (t.out? o.id).map OutPkt.st = some (.done 0 n) ∧ t.waves = s.waves ∧ t.grids = s.grids)) ∧
  (∀ s p slot, s.served s.occ.n = true → QueueHdr.qkind (s.queue s.occ.n).hdr ≠ 3 → (s.queue s.occ.n).held = none → s.head s.occ.n = .packet p slot →
      Pkt.seq p = slot % 65536 → 8 < Pkt.kind p →
    Ends .illegalPacketKind s (fun t => (t.queue s.occ.n).status = 3 ∧ t.outs = s.outs)) ∧
  (∀ s p slot, s.served s.occ.n = true → QueueHdr.qkind (s.queue s.occ.n).hdr ≠ 3 → (s.queue s.occ.n).held = none → s.head s.occ.n = .packet p slot →
      Pkt.seq p ≠ slot % 65536 → Pkt.kind p = 8 →
    Ends .nopPacket s (fun t => (t.queue s.occ.n).status = 2 ∧ t.outs = s.outs)) ∧
  (∀ s p slot s1, s.occ.n = 0 → s.served s.occ.m = true → QueueHdr.qkind (s.queue s.occ.m).hdr ≠ 3 → (s.queue s.occ.m).held = some (p, slot) → s.cardGrid s.occ.m slot = false →
      Pkt.kind p = 5 → s.waitState (s.queue s.occ.m).ctx.toNat p = .met → s.consume s.occ.m slot = .ok s1 →
    Ends .packetWaitMet s (fun t => t.outs = s1.outs ++ [out s1 s.occ.m slot p (.done 0 0)] ∧ t.mem = s1.mem)) ∧
  (∀ s g, s.occ.n = 1 → s.grid? s.occ.m = some g → g.waiting = true → (s.ctx g.ctx).enable = true →
      s.waitOn g.ctx (Pkt.waitIdx g.card) (fun v => decide (Pkt.waitTgt g.card ≤ v)) = .met →
    Ends .packetWaitMet s (fun t => t.grid? s.occ.m = some { g with waiting := false } ∧ { t with grids := s.grids, wrote := s.wrote } = s))

/-- R48 to R55: completion. A packet that is complete has its record written where it asks for one and its queue has a ring, then adds 1 to its signal's counter, then is gone; while its ring is full it waits, and repeats once
there is space. Records of events and faults that wait are written once there is space. A record goes to slot WIDX mod COUNT of a ring that is not full, and WIDX then counts up. -/
def Obligations.CompletionsAndRings : Prop :=
  let gone (s t : State) (id : Nat) : Prop := t.outs = s.outs.filter (fun x => x.id != id)
  let quiet (o : OutPkt) : Prop := Pkt.kind o.pkt ≠ 1 ∧ Pkt.kind o.pkt ≠ 2 ∧ Pkt.kind o.pkt ≠ 4
  let alone (s : State) (o : OutPkt) : Prop := s.out? s.occ.n = some o ∧ (s.queue o.q).batch = none
  let put (s : State) (o : OutPkt) (status : BitVec 8) (units : Nat) : Put :=
    s.ringPut (some o.ctx) (QueueHdr.cring (s.queue o.q).hdr) [16, 32, 64] (fun n => (recordBytes (s.complRec o status.toNat units)).take n)
  (∀ s o status units, alone s o → o.st = .done status units → quiet o → s.wantsRecord o = false → status ≠ 3 → Pkt.signal o.pkt = false →
    Ends .packetCompletion s (fun t => gone s t o.id ∧ { t with outs := s.outs } = s)) ∧
  (∀ s o status units s1, alone s o → o.st = .done status units → quiet o → s.wantsRecord o = true → Pkt.signal o.pkt = false → put s o status units = .ok s1 →
    Ends .packetCompletion s (fun t => gone s1 t o.id ∧ { t with outs := s1.outs, wrote := s1.wrote } = s1)) ∧
  (∀ s o status units s1, alone s o → o.st = .done status units → s.wantsRecord o = true → put s o status units = .full s1 →
    Ends .packetCompletion s (fun t => t = s1.updOut o.id (fun o => { o with st := .ringWait status units, doneAt := some (o.doneAt.getD s.time) }))) ∧
  (∀ s o status units, alone s o → o.st = .done status units → s.wantsRecord o = true → put s o status units = .bad →
    Ends .packetCompletion s (fun t => (t.queue o.q).status = 5 ∧ (t.out? s.occ.n).map OutPkt.st = some (.ringBad status units))) ∧
  (∀ s o units pa s1, alone s o → o.st = .done 0 units → Pkt.kind o.pkt = 3 → s.wantsRecord o = false → Pkt.signal o.pkt = true →
      s.engXlate o.ctx ((s.ctx o.ctx).counterVa (Pkt.sigIdx o.pkt)) 8 true = .ok (pa, s1) → MemoryOk s1 →
    Ends .packetCompletion s (fun t => gone s t o.id ∧ t.rd pa 8 = (s1.rd pa 8 + 1) % 2 ^ 64 ∧ SameOutside s1 t pa 8)) ∧
  (∀ s o status units s1, s.out? s.occ.n = some o → o.st = .ringWait status units → quiet o → s.wantsRecord o = true → Pkt.signal o.pkt = false → put s o status units = .ok s1 →
    Ends .completionRingSpace s (fun t => gone s1 t o.id ∧ { t with outs := s1.outs, wrote := s1.wrote } = s1)) ∧
  (∀ s r s1, s.ringWaits[s.occ.n]? = some r → r.ring = 0 → s.ringPut (some r.ctx) (s.ctx r.ctx).evring [64] (fun _ => recordBytes r.bytes) = .ok s1 →
    Ends .eventRingSpace s (fun t => t.ringWaits = s1.ringWaits.eraseIdx s.occ.n ∧ { t with ringWaits := s1.ringWaits } = s1)) ∧
  (∀ s r s1, s.ringWaits[s.occ.n]? = some r → r.ring = 1 → s.ringPut (some r.ctx) (s.ctx r.ctx).flring [64] (fun _ => recordBytes r.bytes) = .ok s1 →
    Ends .faultRingSpace s (fun t => t.ringWaits = s1.ringWaits.eraseIdx s.occ.n ∧ { t with ringWaits := s1.ringWaits } = s1)) ∧
  (∀ (s : State) hdr sizes f, let h := ringHdr (memBytes s.mem hdr 64) sizes false
    let slot := h.slots + h.size * (h.widx % h.count)
    s.devOk hdr 64 = true → h.good = true → (h.widx + 2 ^ 64 - h.relidx) % 2 ^ 64 < h.count → s.devOk slot h.size = true → (f h.size).length = h.size →
      MemoryOk s → (slot + h.size ≤ hdr ∨ hdr + 64 ≤ slot) → s.devOk hdr 8 = true →
    ∃ t, s.ringPut none hdr sizes f = .ok t ∧ memBytes t.mem slot h.size = f h.size ∧ t.rd hdr 8 = (h.widx + 1) % 2 ^ 64 ∧
      ∀ a, (a < slot ∨ slot + h.size ≤ a) → (a < hdr ∨ hdr + 8 ≤ a) → memByte t.mem a = memByte s.mem a) ∧
  (∀ (s : State) hdr sizes f, let h := ringHdr (memBytes s.mem hdr 64) sizes false
    s.devOk hdr 64 = true → h.good = true → h.count ≤ (h.widx + 2 ^ 64 - h.relidx) % 2 ^ 64 → s.ringPut none hdr sizes f = .full s)

/-! ## Events of grids and teams (R36, R53, R60 to R66, R70, R73 to R91) -/

/-- R60 to R65, R36, R202: deals. A grid that may place teams has its next chunk or index placed on the least-loaded core with room, in waves whose lanes stand at the entry with registers 0 and full, those beyond the records exited;
the chunk is ⌈⌈REM / (DIV · P)⌉ / 32⌉ · 32 records, within the card's least, 1024, and its waves. Cores that teams drained for this deal take
teams again (R85). The first deal of a packet's card consumes its slot.
Among equal cores the lowest is the model's choice (log 61). -/
def Obligations.Deals : Prop :=
  let up (n k : Nat) : Nat := (n + k - 1) / k
  let plain (s : State) (g : Grid) : Prop :=
    s.grid? s.occ.n = some g ∧ g.clustered = false ∧ g.redeal = [] ∧ g.logOrd = none ∧ s.mayPlace g = true ∧ g.undealt = true ∧ g.stopAt = none
  let dealt (g : Grid) (rem : Nat) : Grid :=
    { g with rem, nextOrd := g.nextOrd + 1, blockedAt := none, askedAt := none, drainCores := g.drainCores.filter (fun x => x.2 != .deal g.gid) }
  let placed (s t : State) (g : Grid) (d c ord base count waves : Nat) : Prop :=
    ∃ u ws, t.teams = s.teams ++ [u] ∧ t.waves = s.waves ++ ws ∧ u.gid = g.gid ∧ u.ctx = g.ctx ∧ u.ordinal = ord ∧ u.recbase = base ∧ u.reccount = count ∧
      u.die = d ∧ u.core = c ∧ u.nwaves = waves ∧ u.regs = g.regs ∧ u.st = .resident ∧ u.placedAt = s.cycle ∧ ws.length = waves ∧
      ∀ k, k < waves → let w := ws.getD k bareWave
        w.tid = u.tid ∧ w.idx = k ∧ w.bases.getD 0 0 = BitVec.ofNat 72 (g.f 8 9) ∧ w.lanes.length = 32 ∧
        ∀ L, L < 32 → (w.lane L).pc = BitVec.ofNat 32 (g.f 4 4) ∧ (w.lane L).regs = List.replicate g.regs {} ∧
          ((w.lane L).st = if g.isJob = true ∧ count ≤ 32 * k + L then .exited else .run)
  (∀ s g d c, plain s g → g.begun = true → g.isJob = true → 0 < g.rem → 0 < s.dealP g →
    let most := min (min (max (32 * up (up g.rem (g.f 26 1 * s.dealP g)) 32) (g.f 24 2)) 1024) (32 * g.f 18 2)
    let size := min g.rem most
    0 < size → 0 < g.f 26 1 → s.leastLoaded (s.roomy g (g.need (up size 32)) none) = some (d, c) →
    Ends .jobDeal s (fun t => placed s t g d c g.nextOrd (g.f 20 4 - g.rem) size (up size 32) ∧ t.outs = s.outs ∧
      t.grid? s.occ.n = some (dealt g (g.rem - size)))) ∧
  (∀ s g d c, plain s g → g.begun = true → g.isJob = false → g.nextOrd < g.total → s.leastLoaded (s.roomy g (g.need (g.f 18 2)) none) = some (d, c) →
    Ends .gridDeal s (fun t => placed s t g d c g.nextOrd 0 0 (g.f 18 2) ∧ t.outs = s.outs ∧
      t.grid? s.occ.n = some (dealt g g.rem))) ∧
  (∀ s g d c q slot s3, plain s g → g.begun = false → g.isJob = false → g.src = .packet q slot → s.ssLogs g = false → Pkt.bit6 g.card = false → g.nextOrd < g.total →
      s.leastLoaded (s.roomy g (g.need (g.f 18 2)) none) = some (d, c) → (s.noteBegin g none).consume q slot = .ok s3 →
    Ends .gridDeal s (fun t => ∃ o, t.outs = s3.outs ++ [o] ∧ o.gid = g.gid ∧ o.q = q ∧ o.slot = slot ∧ o.pkt = g.card ∧ o.st = .running))

/-- R66, R73 to R75, R83 to R91: the end of teams and grids, and teams that leave their cores and come back. A team all of whose lanes are over and whose writes have performed retires; a grid all of whose teams have retired retires, and its packet is done
with FAULT if it or a team has faulted. A grid of priority 3 with a team to place that could not be placed for 20 µs, nor since teams last left for it, or any grid for a time slice, has resident teams leave for that team: saved if a lane is stopped, else flushed if the card lets it, else drained if little is left, else saved. A saved team keeps its lanes, and a restored one
resumes with them on a core of its die; a flushed one is dealt again, and a flushed Caddy wave goes back to the waves that wait to be placed. A
team in which a lane is halted or parked while it leaves is saved.
Which lanes count as stopped is deduced (log 70), and so is when bitmap bits are set (log 65); what a flushed Caddy wave comes to is the
model's choice (log 81), and so are the context a time slice chooses (log 68) and the cycle from which a restored team counts (log 66). -/
def Obligations.TeamsEndAndMove : Prop :=
  let plain (s : State) (u : Team) : Prop :=
    s.team? s.occ.n = some u ∧ u.cluster = none ∧ (∀ w ∈ s.waves, w.tid = u.tid → ∀ l ∈ w.lanes, l.routine = none) ∧ (s.ctx u.ctx).enable = true ∧
      (∀ g ∈ s.grids, g.tt = none) ∧ (s.teams.map Team.tid).Nodup
  let others (s t : State) (tid : Nat) : Prop := ∀ k, k ≠ tid → t.team? k = s.team? k
  let leaves (s t : State) (g : Grid) (u : Team) : Prop :=
    let plain (x : Team) : Team := { x with blockedAt := none, askedAt := none }
    (∀ k, k ≠ u.tid → (t.team? k).map plain = (s.team? k).map plain) ∧ t.waves = s.waves ∧
    ∃ v ∈ s.wishes g, t.team? u.tid = some { u with
      st := (if s.stoppedLane u = true then .saving else if s.flushable u = true then .flushing else if s.drainable u = true then .draining else .saving)
      drainFor := some (v.claimant g) }
  (∀ s u g, plain s u → u.st = .resident → (∀ w ∈ s.waves, w.tid = u.tid → ∀ l ∈ w.lanes, (if u.faulted then l.st = .exited ∨ l.st = .trapped else l.st = .exited)) →
      (∀ a ∈ s.accs, a.tid = u.tid → a.posted = true → a.refused = true) → s.grid? u.gid = some g → g.f 36 9 = 0 →
    Ends .teamRetire s (fun t => others s t u.tid ∧ t.team? u.tid = some { u with st := .retired, locks := [], scratch := [] } ∧
      t.waves = s.waves.filter (fun w => w.tid != u.tid) ∧
      (t.grid? u.gid).map Grid.units = some (if u.faulted = true ∨ u.kind ≠ .dealt then g.units else g.units + (if g.isJob then u.reccount else 1)))) ∧
  (∀ s g q slot, s.grid? s.occ.n = some g → s.gridDone g = true → g.src = .packet q slot → g.tt = none →
    let bad := g.faulted || g.bitmapFail
    Ends .gridRetire s (fun t => t.grids = s.grids.filter (fun x => x.gid != g.gid) ∧ t.teams = s.teams.filter (fun u => u.gid != g.gid) ∧
      t.outs = s.outs.map (fun o => if o.gid == g.gid && !o.child then { o with st := .done (if bad then 1 else 0) g.units, firstFault := g.firstFault } else o) ∧
      (t.ctx g.ctx).faulted = ((s.ctx g.ctx).faulted || bad))) ∧
  (∀ s g u w since, s.grid? s.occ.n = some g → g.prio = 3 → w ∈ s.wishes g → s.grants g w = false → w.since g = some since → since + 54000 ≤ s.cycle →
      (∀ n, w.asked g = some n → n + 54000 ≤ s.cycle) → (s.wishes g).any (s.afterLeave.grants g) = false → (s.teams.map Team.tid).Nodup → s.victims (fun t => s.prioOf t != 3) = [u] → s.team? u.tid = some u → u.st = .resident → u.cluster = none →
    Ends .preemptTimeout s (fun t => leaves s t g u)) ∧
  (∀ s g u c w since, s.grid? s.occ.n = some g → w ∈ s.wishes g → s.grants g w = false → w.since g = some since → s.longest g.ctx g.prio = some c →
      since + usCycles s.host.sliceUs ≤ s.cycle → (∀ u ∈ s.residents, s.prioOf u ≤ g.prio) → (s.wishes g).any (s.afterLeave.grants g) = false →
      (s.teams.map Team.tid).Nodup → s.victims (fun t => t.ctx == c) = [u] →
      s.team? u.tid = some u → u.st = .resident → u.cluster = none →
    Ends .timeSliceExpiry s (fun t => leaves s t g u)) ∧
  (∀ s u, s.team? s.occ.n = some u → u.st = .saving → (∀ w ∈ s.waves, w.tid = u.tid → s.pending w.uid = false) → (s.ctx u.ctx).enable = true →
    Ends .teamSaveComplete s (fun t => others s t u.tid ∧ t.waves = s.waves ∧
      t.team? u.tid = some { u with
        st := .saved, drainFor := none, codebook := (if u.wroteCb then some (s.core (coreIx u.die u.core)).codebook else u.codebook) })) ∧
  (∀ s u, s.team? s.occ.n = some u → u.cluster = none → u.st = .flushing → s.stoppedLane u = true → (s.teams.map Team.tid).Nodup →
    Ends .teamFlushComplete s (fun t => others s t u.tid ∧ t.team? u.tid = some { u with st := .saving } ∧ { t with teams := s.teams } = s)) ∧
  (∀ s u g f rs, plain s u → u.st = .flushing → s.stoppedLane u = false → (∀ a ∈ s.accs, a.tid = u.tid → a.posted = true → a.refused = true) →
      s.grid? u.gid = some g → u.kind = .caddy → u.form = some f → f.src = .recs rs →
    Ends .teamFlushComplete s (fun t => others s t u.tid ∧ t.waves = s.waves.filter (fun w => w.tid != u.tid) ∧
      (t.team? u.tid).map Team.st = some .retired ∧ t.forms = s.forms ++ [f] ∧ (t.grid? u.gid).map Grid.redeal = some g.redeal)) ∧
  (∀ s u g, plain s u → u.st = .flushing → s.stoppedLane u = false → (∀ a ∈ s.accs, a.tid = u.tid → a.posted = true → a.refused = true) →
      s.grid? u.gid = some g → u.kind = .dealt → g.stopAt = none →
    Ends .teamFlushComplete s (fun t => others s t u.tid ∧ t.waves = s.waves.filter (fun w => w.tid != u.tid) ∧
      (t.team? u.tid).map Team.st = some .retired ∧
      (t.grid? u.gid).map Grid.redeal = some ((if g.isJob then { base := u.recbase, count := u.reccount } else { base := u.ordinal, count := 0 }) :: g.redeal))) ∧
  (∀ s u d c, plain s u → u.st = .saved → s.leastLoaded (s.roomy (s.gridOf u) u.need (some u.die)) = some (d, c) →
    Ends .teamRestore s (fun t => others s t u.tid ∧ t.team? u.tid = some { u with st := .resident, core := c, placedAt := s.cycle, blockedAt := none, askedAt := none } ∧
      t.waves.map Wave.lanes = s.waves.map Wave.lanes ∧ t.waves.map Wave.uid = s.waves.map Wave.uid))

/-- R76 to R78, R183, R207, R389: the Caddy. Records arrive and join their groups; a group of 32, a group whose oldest record has waited 2,048 cycles, and every group of a grid that is drained form a wave of up to 32 records; a formed wave becomes a
team of one wave on the least-loaded core of its die, whose lanes have their records' registers, results and predicates, and stand at the resume address. -/
def Obligations.CaddyForms : Prop :=
  let good (s : State) (gid : Nat) (g : Grid) : Prop := s.grid? gid = some g ∧ s.mayForm gid = true ∧ g.logOrd = none
  let formed (s t : State) (die gid resume : Nat) (rs : List CaddyRec) : Prop :=
    t.caddy = s.caddy.filter (fun r => !rs.any (fun x => x.id == r.id)) ∧ t.waves = s.waves ∧ t.teams = s.teams ∧
    ∃ f, t.forms = s.forms ++ [f] ∧ f.die = die ∧ f.gid = gid ∧ f.resume = resume ∧ f.src = .recs rs
  let bare (r : CaddyRec) : CaddyRec := { r with id := 0, arrivedAt := 0 }
  (∀ s g, (∃ r ∈ s.caddy, r.batch = s.occ.n ∧ r.arrived = false) → (∀ r ∈ s.caddy, s.grid? r.gid = some g) → g.logOrd = none → s.caddy.length < 32 →
      (s.caddy.map CaddyRec.id).Nodup → (∀ r ∈ s.caddy, r.id < s.fresh) →
    Ends .caddyArrival s (fun t => t.forms = s.forms ∧ t.waves = s.waves ∧ t.mem = s.mem ∧
      t.caddy.map bare = s.caddy.map (fun r => bare (if r.batch = s.occ.n ∧ r.arrived = false then { r with arrived := true, spill := none } else r)))) ∧
  (∀ s g, good s s.occ.m g → (let rs := s.groupOf s.occ.n s.occ.m s.occ.k; ∃ r ∈ rs, 32 ≤ rs.length ∨ 2048 ≤ s.since r.die r.arrivedAt) →
    Ends .caddyPartialTimeout s (fun t => formed s t s.occ.n s.occ.m s.occ.k ((s.groupOf s.occ.n s.occ.m s.occ.k).take 32))) ∧
  (∀ s g die resume, good s s.occ.n g → s.drained g = true → s.groupsOf s.occ.n = [(die, resume)] →
    Ends .caddyDrain s (fun t => formed s t die s.occ.n resume ((s.groupOf die s.occ.n resume).take 32))) ∧
  (∀ s g f rs d c, s.forms.find? (fun f => f.id == s.occ.n) = some f → s.grid? f.gid = some g → s.mayPlace g = true → f.src = .recs rs → rs.length ≤ 32 →
      s.leastLoaded (s.roomy g g.waveNeed (some f.die)) = some (d, c) →
    Ends .caddyWavePlace s (fun t => t.forms = s.forms.filter (fun x => x.id != f.id) ∧ ∃ u w, t.teams = s.teams ++ [u] ∧ t.waves = s.waves ++ [w] ∧
      u.gid = f.gid ∧ u.kind = .caddy ∧ u.die = f.die ∧ u.core = c ∧ u.nwaves = 1 ∧ u.st = .resident ∧ w.tid = u.tid ∧ w.lanes.length = 32 ∧
      (∀ k, k < rs.length → ∀ r, rs[k]? = some r → (w.lane k).pc = BitVec.ofNat 32 r.resume ∧ (w.lane k).st = .run ∧ (w.lane k).preds = r.preds.zeroExtend 128 ∧
        (r.regs.length = r.n → r.n + r.results.length ≤ u.regs →
          (∀ j, j < r.n → (w.lane k).v j = r.regs.getD j 0) ∧ (∀ j, j < r.results.length → (w.lane k).v (r.n + j) = r.results.getD j 0) ∧
          (∀ j, r.n + r.results.length ≤ j → (w.lane k).v j = 0))) ∧
      ∀ k, rs.length ≤ k → k < 32 → (w.lane k).st = .exited))

/-! ## Events of the traversal engines (R178 to R195) -/

/-- R178, R180 to R189, R191 to R193: the walk, step by step. A request whose object is in CUT-WAIT becomes a live stack with the object's query, root, table and frames; another is refused. A step pushes the root, or takes the next child that passes its
test (calling the prune routine if there is one), or pops a frame whose children are done and whose JOIN is 0 (calling the leave routine if there is one), or waits at JOIN. A node that is fetched is pushed and its enter routine called; a bad one ends the walk with
BADNODE. Decisions continue, skip, accept or end the walk, and an illegal one ends it with BADDECISION. A finished walk writes its object back with STATUS DONE, releases its continuation with RESULT, ACCEPTS and VISITS or completes its packet, and leaves its slot. Invocations form waves of up to 32.
When the pieces of an NLT are read is the model's choice (log 21); an object with DEPTH above 64 is refused by deduction (log 79). -/
def Obligations.Walks : Prop :=
  let live (s : State) (k : Stack) : Prop := s.stk? s.occ.n = some k ∧ s.stackGoes k = true ∧ k.hdrDue = false
  let top (k : Stack) : Frame := k.frame (k.depth - 1)
  let onTop (k : Stack) (f : Frame → Frame) : Stack := k.setFrame (k.depth - 1) f
  let becomes (s t : State) (k' : Stack) : Prop := t.stk? s.occ.n = some k' ∧ (∀ h, h ≠ s.occ.n → t.stk? h = s.stk? h) ∧ t.waves = s.waves
  let finishing (k : Stack) (r : Nat) : Stack := { k with st := .finishing r, result := r }
  let called (s t : State) (k : Stack) (b : NodeBuf) (kind c : Nat) (ref : BitVec 64) (v22 : Nat) : Prop :=
    becomes s t { k with st := .routine kind c } ∧ ∃ v, t.invs = s.invs ++ [v] ∧ v.stk = k.id ∧ v.handle = k.handle ∧ v.level = k.depth - 1 ∧ v.kind = kind ∧ v.ref = ref ∧
      v.v22 = BitVec.ofNat 32 v22 ∧ v.addr = fieldAt b.ent (4 + 4 * kind) 4 ∧ v.nlt = b.nlt ∧ v.die = k.die ∧ v.eng = k.eng ∧ v.gid = k.gid
  let popped (k : Stack) : Stack :=
    if k.depth = 1 then finishing { k with frames := [] } 1 else { k with frames := k.frames.dropLast, st := .step }
  (∀ s r h fs s1 s2 slot, let depth := bsNat h 82 1
    let handle := stackHandle s.pkg.deviceId.toNat r.die r.eng slot
    s.stackReqs.find? (fun r => r.id == s.occ.n) = some r → r.fault = none → (s.ctx r.ctx).enable = true → s.clusterRdy r.die r.eng = true →
    s.engRd r.ctx r.va.toNat 128 = .ok (h, s1) → bsNat h 81 1 = 0 → depth ≤ 64 → s1.engRd r.ctx ((r.va.toNat + 128) % 2 ^ 72) (32 * depth) = .ok (fs, s2) →
    s2.freeStackSlot r.die r.eng = some slot → (∀ k ∈ s.stks, k.handle ≠ handle) →
    Ends .stackTake s (fun t => t.stackReqs = s.stackReqs.filter (fun x => x.id != r.id) ∧ ∃ k, t.stk? handle = some k ∧ k.ctx = r.ctx ∧ k.va = r.va ∧ k.gid = r.gid ∧
      k.cont = r.cont ∧ k.pkt = r.pkt ∧ k.st = .step ∧ k.depth = depth ∧ k.root = BitVec.ofNat 64 (bsNat h 64 8) ∧ k.nlt = BitVec.ofNat 72 (bsNat h 72 9) ∧
      ∀ i, i < 16 → k.q.getD i 0 = BitVec.ofNat 32 (bsNat h (4 * i) 4))) ∧
  (∀ s r h s1 p, s.stackReqs.find? (fun r => r.id == s.occ.n) = some r → r.fault = none → (s.ctx r.ctx).enable = true → s.clusterRdy r.die r.eng = true →
    s.engRd r.ctx r.va.toNat 128 = .ok (h, s1) → bsNat h 81 1 ≠ 0 ∨ 64 < bsNat h 82 1 → r.cont = none → r.pkt = some p →
    Ends .stackTake s (fun t => t.stackReqs = s.stackReqs.filter (fun x => x.id != r.id) ∧ t.stks = s.stks ∧
      t.outs = s.outs.map (fun o => if o.id = p then { o with st := .done 4 0 } else o))) ∧
  (∀ s k, live s k → k.st = .step → k.depth = 0 → Ends .walkStep s (fun t => becomes s t { k with st := .fetch k.root 0 false })) ∧
  (∀ s k b c rest, live s k → k.st = .step → 0 < k.depth → (top k).buf = some b → testOrder k.q b (top k).mask = c :: rest →
    let k1 := onTop k (fun f => { f with mask := maskOf rest, cursor := BitVec.ofNat 8 c })
    (b.present 2 = false → k.depth < 64 → Ends .walkStep s (fun t => becomes s t { k1 with st := .fetch (b.child c) (top k).table false })) ∧
    (b.present 2 = false → k.depth = 64 → Ends .walkStep s (fun t => becomes s t (finishing k1 4))) ∧
    (b.present 2 = true → s.stackLogged k = false → Ends .walkStep s (fun t => called s t k1 b 2 c (b.child c) c))) ∧
  (∀ s k b, live s k → k.st = .step → 0 < k.depth → (top k).buf = some b → testOrder k.q b (top k).mask = [] →
    let k1 := onTop k (fun f => { f with mask := 0 })
    (∀ j, s.joinOf k (k.depth - 1) = .ok (j + 1) →
      Ends .walkStep s (fun t => becomes s t { (onTop k (fun f => { f with mask := 0, leavepend := true })) with st := .join })) ∧
    (s.joinOf k (k.depth - 1) = .ok 0 → b.present 1 = true → (top k).noleave = false → s.stackLogged k = false →
      Ends .walkStep s (fun t => called s t k1 b 1 0 (top k).node b.kind)) ∧
    (s.joinOf k (k.depth - 1) = .ok 0 → b.present 1 = false ∨ (top k).noleave = true → k.depth ≤ 8 → Ends .walkStep s (fun t => becomes s t (popped k)))) ∧
  (∀ q b mask, b.test = 0 → testOrder q b mask = (List.range 16).filter (fun i => mask.getLsbD i)) ∧
  (∀ s k ref tab root s2, live s k → k.st = .fetch ref tab root → s.pushWrites k = .ok s2 →
    let f : Frame := { node := ref, mask := 0, tableroot := root, table := tab }
    let pushed (k : Stack) (f : Frame) : Stack :=
      { k with frames := k.frames ++ [f], visits := (if k.visits = 0xFFFFFFFF then k.visits else k.visits + 1) }
    (∀ b k1 s3, (s2.freshJoin k).nodeOf k ref tab = .ok b k1 s3 → b.present 0 = false → Ends .nodeFetchComplete s (fun t =>
      becomes s t { pushed k1 { f with mask := b.mask, buf := some b, entered := true } with st := .step })) ∧
    (∀ b k1 s3, (s2.freshJoin k).nodeOf k ref tab = .ok b k1 s3 → b.present 0 = true → s.stackLogged k = false → Ends .nodeFetchComplete s (fun t =>
      called s t (pushed k1 { f with mask := b.mask, buf := some b }) b 0 0 ref b.kind)) ∧
    ((s2.freshJoin k).nodeOf k ref tab = .bad → Ends .nodeFetchComplete s (fun t => becomes s t (finishing (pushed k f) 5)))) ∧
  (∀ s k b, live s k → k.st = .join → 0 < k.depth → (top k).buf = some b → s.joinOf k (k.depth - 1) = .ok 0 →
    (b.present 1 = true → (top k).noleave = false → s.stackLogged k = false →
      Ends .joinZero s (fun t => called s t (onTop k (fun f => { f with leavepend := false })) b 1 0 (top k).node b.kind)) ∧
    (b.present 1 = false → k.depth ≤ 8 → Ends .joinZero s (fun t => becomes s t (popped k)))) ∧
  (∀ s k kind c word v1v2 qw, live s k → k.st = .decided kind c word v1v2 qw none → word.toNat / 2 ^ 10 % 64 = 0 → word.getLsbD 3 = false →
    let k1 := match qw with | some q => { k with q } | none => k
    (word.toNat % 8 = 2 → Ends .routineDecision s (fun t => becomes s t
      (finishing { k1 with accepts := (if k.accepts = 0xFFFFFFFF then k.accepts else k.accepts + 1) } 2))) ∧
    (word.toNat % 8 = 4 → Ends .routineDecision s (fun t => becomes s t (finishing k1 3))) ∧
    (word.toNat % 8 = 1 → kind = 0 → Ends .routineDecision s (fun t => becomes s t
      { onTop k1 (fun f => { f with mask := 0, entered := true }) with st := .step })) ∧
    (word.toNat % 8 = 0 → kind = 0 → Ends .routineDecision s (fun t => becomes s t
      { onTop k1 (fun f => { f with mask := f.mask &&& word.extractLsb' 16 16, entered := true }) with st := .step })) ∧
    (4 < word.toNat % 8 → Ends .routineDecision s (fun t => becomes s t (finishing k 6)))) ∧
  (∀ s v g, let vs := s.invs.filter (fun x => x.die == v.die && x.eng == v.eng && x.gid == v.gid && x.addr == v.addr && x.nlt == v.nlt)
    s.invs.find? (fun v => v.id == s.occ.n) = some v → s.grid? v.gid = some g → s.mayForm g.gid = true → g.logOrd = none →
    32 ≤ vs.length ∨ (∃ x ∈ vs, 2048 ≤ s.since x.die x.born) ∨ s.advances v.die v.eng v.gid = false →
    Ends .routineWaveForm s (fun t => t.invs = s.invs.filter (fun x => !(vs.take 32).any (fun y => y.id == x.id)) ∧ t.stks = s.stks ∧ t.waves = s.waves ∧
      ∃ f, t.forms = s.forms ++ [f] ∧ f.die = v.die ∧ f.gid = v.gid ∧ f.resume = v.addr ∧ f.src = .invs (vs.take 32))) ∧
  (∀ s k r s1, s.stk? s.occ.n = some k → s.stackGoes k = true → k.st = .finishing r → k.result ≠ 7 → s.joinsZero k (List.range k.depth) = .ok none → k.jlevel = 0xFF →
      s.writeBack k 3 = .ok s1 →
    (∀ p, k.cont = none → k.pkt = some p → Ends .walkFinish s (fun t => t.stks = s.stks.filter (fun x => x.id != k.id) ∧ t.mem = s1.mem ∧
      t.outs.map OutPkt.st = s.outs.map (fun o => if o.id = p then .done 0 0 else o.st))) ∧
    (∀ c x, k.cont = some c → k.pkt = none → s.caddy.find? (fun r => r.id == c) = some x → s.caddy.length < 32 → Ends .walkFinish s (fun t =>
      t.stks = s.stks.filter (fun x => x.id != k.id) ∧ t.mem = s1.mem ∧ ∃ y ∈ t.caddy, y.held = false ∧ y.lane = x.lane ∧ y.regs = x.regs ∧
        y.results = [BitVec.ofNat 32 k.result, k.accepts, k.visits])))

/-! ## Page walks, shootdowns, tier engines, and the ESUs' own events (R100 to R102, R108, R109, R134 to R142, R168, R171) -/

/-- R100 to R102, R108, R109, R136, R137, R142, R168, R171. A page walk that ends at a leaf fills its die's TLB and sets ACCESSED; one that ends at a bad entry gives its
cause to the waves that joined. A shootdown drops on every die the translations it names, refuses stores that the new entries no longer allow, and completes, advancing
its ring, when the accesses it named are over. A tier engine starts on a page that may move and has a frame, or first evicts a victim; when the leaf still holds what was
read, the page's bytes go along and the leaf names the new home; when it does not, nothing moves, and a page that its leaf still places in the pool stays there; on a copy error the frame is not used again. A STALL
waits no more for a page that has landed or whose migration is abandoned. A generation comes
into force at an ESU after earlier ones of its region; an append whose slot is free writes its record there, in the ring that its claim read or, after RETRY, that the header names now, and
stays while its ring is full. A STALL request that waited for space takes the place of one that leaves the queue.
Which stores a shootdown refuses and what follows a page are deduced (logs 105, 107). -/
def Obligations.MemorySystemMoves : Prop :=
  (∀ (s : State) (x : Miss), let va := x.vpn * 65536
    ((s.misses.filter (fun y => y.die == s.occ.n)).take 48).find? (fun y => y.ctx == s.occ.m && y.vpn == s.occ.k) = some x → MemoryOk s →
    let left (t : State) : Prop := t.misses = s.misses.filter (fun y => !(y.die == x.die && y.ctx == x.ctx && y.vpn == x.vpn))
    (∀ cause, (s.walkFrom x.ctx va (s.walkStart x.die x.ctx va)).1 = .bad cause → Ends .pageWalkComplete s (fun t => left t ∧ t.mem = s.mem ∧ t.tlb = s.tlb ∧
      t.waves = s.waves.map (fun w =>
        if x.uids.contains w.uid then { w with walkFaults := (x.vpn, cause) :: w.walkFaults.filter (fun y => y.1 != x.vpn) } else w))) ∧
    (∀ lvl e epa, (s.walkFrom x.ctx va (s.walkStart x.die x.ctx va)).1 = .leaf lvl e epa → Ends .pageWalkComplete s (fun t => left t ∧ t.waves = s.waves ∧
      t.tlbFind x.die x.ctx va = some (tlbOf x.die x.ctx va lvl e epa) ∧ (∀ y ∈ t.tlb, y ∈ s.tlb ∨ y = tlbOf x.die x.ctx va lvl e epa) ∧
      SameOutside s t epa 8 ∧ t.rd epa 8 = if e.accessed then s.rd epa 8 else s.rd epa 8 ||| 0x400))) ∧
  (
    let takes (i : Instr) (o : ShootOp) : Prop := ∀ (s : State) (idx : Nat) (y : BitVec 256), s.shoot = none → s.ringLook.shootSlot = some (idx, y) → shootOp y = o →
      Ends i s (fun t => t.mem = s.mem ∧ t.tlb = s.tlb.filter (fun e => !o.names e.ctx e.vpn e.lg) ∧ t.walks = s.walks.filter (fun e => !o.ctx e.ctx) ∧
        t.shoot = some { idx := idx, accs := (t.accs.filter (fun a => s.shootAcc o a && !a.refused)).map Acc.id } ∧
        t.accs = s.accs.map (fun a => if o.acc a && a.posted && a.op.isWrite && s.storeBad a then { a with refused := true } else a))
    (∀ c vpn n, takes .shootdownPages (.pages c vpn n)) ∧ (∀ c, takes .shootdownContext (.context c)) ∧ takes .shootdownAll .all ∧
    (∀ y : BitVec 256, fieldAt y 1 1 = 0 → fieldAt y 2 2 ≤ 255 → fieldAt y 17 15 = 0 →
      shootOp y = if fieldAt y 0 1 = 1 ∧ fieldAt y 4 4 ≠ 0 then .pages (fieldAt y 2 2) (fieldAt y 8 9 / 65536) (fieldAt y 4 4)
        else if fieldAt y 0 1 = 2 then .context (fieldAt y 2 2) else .all) ∧
    (∀ y : BitVec 256, fieldAt y 1 1 ≠ 0 ∨ 255 < fieldAt y 2 2 ∨ fieldAt y 17 15 ≠ 0 → shootOp y = .all) ∧
    (∀ s x, MemoryOk s → s.shoot = some x → (∀ a ∈ s.accs, a.id ∈ x.accs → a.refused = true) → s.devOk (ringPa s) 64 = true →
      Ends .shootdownComplete s (fun t => t.shoot = none ∧ t.rd (ringPa s + 8) 8 = (x.idx + 1) % 2 ^ 64 ∧ SameOutside s t (ringPa s + 8) 8))) ∧
  (
    (∀ (s : State) (r : TierReq), let q := s.tierq.erase r
      (∀ x ∈ q, x.die = r.die → x.waiting = false) → (s.tierDrop r).tierq = q) ∧
    (∀ (s : State) (r x : TierReq), let q := s.tierq.erase r
      q.find? (fun y => y.die == r.die && y.waiting) = some x → (∀ y ∈ q.erase x, y.stall = false) → (s.tierDrop r).tierq = { x with waiting := false } :: q.erase x) ∧
    (∀ (s : State) (r : TierReq) (leaf : Pte) (epa : Nat), let d := s.occ.n
      s.tierHead d = some r → s.tierIdle d = true → r.fetch = true → s.movable r.ctx (65536 * r.vpn) = some (leaf, epa, d) → paKind leaf.pa ≠ 0 → s.tierWorks d = true →
      (∀ f, s.freeFrame d = some f → s.moveReady leaf.pa f = true → Ends .tierFetchStart s (fun t => t.tierq = (s.tierDrop r).tierq ∧ t.mem = s.mem ∧ t.tlb = s.tlb ∧
        t.migs = s.migs ++ [{ id := s.fresh, die := d, ctx := r.ctx, vpn := r.vpn, leafPa := epa, leaf := leaf, src := leaf.pa, dst := f, fetch := true }])) ∧
      (∀ p, let e : Pte := BitVec.ofNat 64 (s.rd p.leafPa 8)
        s.freeFrame d = none → s.victim d = some p → s.moveReady p.frame p.back = true → e.valid = true → e.pa = p.frame →
        Ends .tierFetchStart s (fun t => t.tierq = s.tierq ∧ t.mem = s.mem ∧ t.tlb = s.tlb ∧ t.migs = s.migs ++
          [{ id := s.fresh, die := p.die, ctx := p.ctx, vpn := p.vpn, leafPa := p.leafPa, leaf := e, src := p.frame, dst := p.back, fetch := false }])) ∧
      (s.freeFrame d = none → s.victim d = none → Ends .tierFetchStart s (fun t => t.tierq = (s.tierDrop r).tierq ∧ t.migs = s.migs ∧ t.mem = s.mem))) ∧
    (∀ (s : State) (r : TierReq) (p : PoolPage), let d := s.occ.n
      let e : Pte := BitVec.ofNat 64 (s.rd p.leafPa 8)
      s.tierHead d = some r → s.tierIdle d = true → r.fetch = false → s.pages.find? (fun p => p.ctx == r.ctx && p.vpn == r.vpn && p.die == d) = some p →
      s.moveReady p.frame p.back = true → e.valid = true → e.pa = p.frame →
      Ends .tierEvictStart s (fun t => t.tierq = (s.tierDrop r).tierq ∧ t.mem = s.mem ∧ t.tlb = s.tlb ∧ t.migs = s.migs ++
        [{ id := s.fresh, die := p.die, ctx := p.ctx, vpn := p.vpn, leafPa := p.leafPa, leaf := e, src := p.frame, dst := p.back, fetch := false }])) ∧
    (∀ (s : State) (m : Migration), s.migs.find? (fun m => m.id == s.occ.n) = some m →
      let gone (t : State) : Prop := t.migs = s.migs.filter (fun x => x.id != m.id)
      let settled (t : State) : Prop := ∀ w ∈ t.waves, (t.teamOf w).ctx = m.ctx → ∀ p ∈ w.stall, p.2 / 65536 = m.vpn → p ∈ w.settled
      let moves (t : State) (copied : Bool) : Prop :=
        t.tlb = s.tlb.filter (fun e => !ShootOp.names (.pages m.ctx m.vpn 1) e.ctx e.vpn e.lg) ∧
        t.locks = s.locks.filter (fun k => 128 * k.line / 65536 != m.src / 65536) ∧ t.accs = s.accs.map (fun a => a.follow m.src m.dst) ∧
        (MemoryOk s → (∀ a, a < m.leafPa ∨ m.leafPa + 8 ≤ a →
          memByte t.mem a = if copied ∧ m.dst ≤ a ∧ a < m.dst + 65536 then memByte s.mem (m.src + (a - m.dst)) else memByte s.mem a) ∧
          let e : Pte := BitVec.ofNat 64 (t.rd m.leafPa 8)
          (m.dst % 65536 = 0 → m.dst < 2 ^ 60 → e.pa = m.dst ∧ ∀ k, k < 16 ∨ 60 ≤ k → e.getLsbD k = m.leaf.getLsbD k))
      (m.fetch = true → s.leafKept m = true → Ends .tierFetchLand s (fun t => gone t ∧ moves t true ∧ settled t ∧ ∃ ps, ps.length = s.pages.length ∧ t.pages = ps ++
        [{ die := m.die, frame := m.dst, back := m.src, ctx := m.ctx, vpn := m.vpn, leafPa := m.leafPa, landedAt := s.cycle }])) ∧
      (m.fetch = true → s.leafKept m = false → Ends .tierFetchLand s (fun t => gone t ∧ settled t ∧ t.mem = s.mem ∧ t.tlb = s.tlb ∧ t.pages = s.pages)) ∧
      (m.fetch = false → s.leafKept m = true → Ends .tierEvictLand s (fun t => gone t ∧ moves t (s.pages.any (fun p => p.frame == m.src && p.written)) ∧
        (∀ p ∈ t.pages, p.frame ≠ m.src) ∧ ∀ p ∈ s.pages, p.frame ≠ m.src → ∃ q ∈ t.pages, { q with written := p.written } = p)) ∧
      (m.fetch = false → s.leafKept m = false → Ends .tierEvictLand s (fun t => gone t ∧ t.mem = s.mem ∧ t.tlb = s.tlb ∧
        t.pages = if s.leafNames m.leafPa m.src = true then s.pages else s.pages.filter (fun p => p.frame != m.src))) ∧
      Ends .tierCopyError s (fun t => gone t ∧ settled t ∧ t.tlb = s.tlb ∧ t.badFrames = (if m.fetch then m.dst else m.src) :: s.badFrames))) ∧
  (∀ (s : State) (g : GenPend), let at' := (s.occ.m, s.occ.k)
    s.gens.find? (fun g => g.id == s.occ.n) = some g → at' ∈ g.left → (∀ x ∈ s.gens, x.ctx = g.ctx → x.rg = g.rg → x.id < g.id → at' ∉ x.left) →
    (∀ w, s.wave? g.uid = some w → (s.gridOf (s.teamOf w)).logOrd = none) → Ends .esuGenInForce s (fun t => t.mem = s.mem ∧
      (let mine (x : EsuDesc) : Prop := x.die = s.occ.m ∧ x.esu = s.occ.k ∧ x.ctx = g.ctx ∧ x.rg = g.rg
       (∀ x ∈ t.esuDescs, mine x → fieldAt x.desc 16 1 = g.gen.toNat) ∧ ∀ x ∈ s.esuDescs, ¬ mine x → x ∈ t.esuDescs) ∧
      (∀ x ∈ t.gens, x.id = g.id → at' ∉ x.left) ∧ ∀ x ∈ s.gens, x.id ≠ g.id → x.left ≠ [] → x ∈ t.gens)) ∧
  (∀ (s : State) (a : Append) (k : Nat) (bs : List Byte) (s1 : State),
    s.appends.find? (fun a => a.id == s.occ.n) = some a → a.fault = none → a.slot = some k → s.engRd a.ctx a.hdr.toNat 32 = .ok (bs, s1) →
    (a.reread = true → 4 ≤ bsNat bs 25 1 ∧ bsNat bs 25 1 ≤ 20 ∧ bsNat bs 16 9 % 64 = 0 ∧ bsNat bs 27 1 = 3) →
    let ring := if a.reread = true then (bsNat bs 16 9, bsNat bs 25 1) else a.ring
    let slots := 2 ^ ring.2
    let ahead := (k + 2 ^ 64 - bsNat bs 8 8) % 2 ^ 64
    (∀ s2, ahead < slots → s1.engWr a.ctx ((ring.1 + 16 * (k % slots)) % 2 ^ 72) (leBytes 16 a.bytes.toNat) = .ok s2 →
      Ends .esuAppendResume s (fun t => t.mem = s2.mem ∧ t.appends = s.appends.filter (fun x => x.id != a.id))) ∧
    (slots ≤ ahead → Ends .esuAppendResume s (fun t => t.mem = s1.mem ∧
      t.appends = s.appends.map (fun x => if x.id = a.id then { a with ring := ring, reread := false, full := true, fault := none } else x))))

/-! ## Waits that end, windows that close, words and fetches that fail (R132, R198, R200, R208, R240, R247, R288, R318, R319, R326, R327, R341 to R345, R350, R365) -/

/-- R132, R198, R200, R208, R240, R247, R288, R318, R319, R326, R327, R342, R345, R350, R365, for waves of which no lane is being stepped. Each waiting instruction completes as its rule says: its
lane goes on at the next word, and every other lane and wave stays as it is. WSYNC releases the lanes at the lowest address when none is elsewhere, in a handler once
every lane of it stands there, and never while a window drains or the handler is about to start; a barrier phase completes when every
live lane of the team has arrived. A window closes at once when no lane is eligible, and after 65,536 cycles: eligible lanes are held for the handler and for halted lanes, or held
lanes go on when nobody is there to wait for; while the handler runs, that is so of its own lanes and the window that they opened. A list that is unlocked serves the lane that waits for it. A comparator halts lanes before their instruction; a word that is no instruction traps with ILLEGAL; a fetch that faults parks the set on one record of kind 3,
or traps it with ACCESS.
What a window with nobody to wait for does is deduced (log 18), and so are what completes a lane that waits for a list (log 132) and how RWAIT and ORDWAIT poll (log 38);
the cycles after which answers land (log 6) and the hints that a word which is no instruction accepts (log 52) are the model's choice. -/
def Obligations.WaitsEnd : Prop :=
  let unstepped (w : Wave) : Prop := ∀ l ∈ w.lanes, l.stepping = false ∧ l.stepped = false
  let becomes (s t : State) (w : Wave) (f : Nat → Lane → Lane → Prop) : Prop :=
    (∃ w', t.wave? w.uid = some w' ∧ w'.lanes.length = w.lanes.length ∧ ∀ L, L < w.lanes.length → f L (w.lane L) (w'.lane L)) ∧
    ∀ v ∈ s.waves, v.uid ≠ w.uid → v ∈ t.waves
  let kept (l l' : Lane) : Prop := { l' with trapinfo := l.trapinfo } = l ∧ (l.st ≠ .trapped → l.st ≠ .halted → l' = l)
  let resumes (s t : State) (w : Wave) (go : Nat → Lane → Prop) : Prop :=
    becomes s t w (fun L l l' => (go L l → l' = { l.adv with st := .run }) ∧ (¬ go L l → l' = l))
  (
    let closes (s t : State) (w : Wave) (win : Window) : Prop := ∃ w', t.wave? w.uid = some w' ∧ w'.lanes.length = w.lanes.length ∧
      w'.handling = w.handling ∧ (if w.handling then w'.window = w.window else w'.next = w.next) ∧
      (s.nobodyWaits w = true → w'.win = none ∧ ∀ L, L < w.lanes.length →
        w'.lane L = if (w.lane L).st = .held ∧ (w.lane L).inHandler = w.handling then { w.lane L with st := .run } else w.lane L) ∧
      (s.nobodyWaits w = false → w'.win = some { win with closed := true } ∧ ∀ L, L < w.lanes.length →
        w'.lane L = if (w.lane L).st = .run ∧ (w.handling = true → (w.lane L).inHandler = true) then { w.lane L with st := .held } else w.lane L)
    (∀ (s : State) (w : Wave), s.nobodyWaits w = true ↔
      (w.handling = true ∨ s.deliver w = []) ∧ ∀ l ∈ w.lanes, l.st = .halted → l.inHandler ≠ w.handling) ∧
    (∀ (s : State) (w : Wave) (win : Window), s.activeWave? s.occ.n = some w → w.win = some win → win.closed = false →
      (w.eligible = [] → Ends .quiescentPoint s (fun t => closes s t w win)) ∧
      (65536 ≤ s.since (s.teamOf w).die win.openedAt → Ends .trapWindowTimeout s (fun t => closes s t w win)))) ∧
  (∀ (s : State) (w : Wave), s.activeWave? s.occ.n = some w → unstepped w → w.handling = false → (∀ v, w.window = some v → v.closed = true ∧ s.deliver w = []) →
    let waits (l : Lane) : Prop := l.st = .blocked .wsync ∧ l.inHandler = false
    (∀ l ∈ w.lanes, l.counts = true → l.inHandler = false → l.st = .blocked .wsync) → (∃ l ∈ w.lanes, waits l) →
    Ends .wsyncRelease s (fun t => resumes s t w (fun _ l => waits l ∧ ∀ k ∈ w.lanes, waits k → l.pc.toNat ≤ k.pc.toNat))) ∧
  (∀ (s : State) (w : Wave) (pc : Word), s.activeWave? s.occ.n = some w → unstepped w → w.handling = true → (∀ v, w.next = some v → v.closed = true) →
    let waits (l : Lane) : Prop := l.st = .blocked .wsync ∧ l.inHandler = true
    (∀ l ∈ w.lanes, l.st ≠ .exited → l.inHandler = true → l.st = .blocked .wsync ∧ l.pc = pc) → (∃ l ∈ w.lanes, waits l) →
    Ends .wsyncRelease s (fun t => resumes s t w (fun _ l => waits l))) ∧
  (∀ (s : State) (w : Wave) (v : Window), s.activeWave? s.occ.n = some w → w.win = some v → v.closed = false ∨ (w.handling = false ∧ s.deliver w ≠ []) → exec .wsyncRelease s = .next s) ∧
  (∀ (s : State) (u : Team), s.activeTeam? s.occ.n = some u → (s.waves.map Wave.uid).Nodup → (∀ w ∈ s.waves, w.tid = u.tid → unstepped w) →
    let b := s.occ.m
    let arriving (w : Wave) (L : Nat) : Prop := ∃ ph k, (w.lane L).st = .blocked (.bar b ph true k)
    b < u.bars.length → (b = 16 → u.cluster = none) → (u.bars.getD b {}).arrived ≠ 0 →
    (∀ w ∈ s.waves, w.tid = u.tid → ∀ L, L < w.lanes.length → (w.lane L).st ≠ .exited → (u.bars.getD b {}).has (32 * w.idx + L) = true) →
    Ends .barrierPhaseComplete s (fun t =>
      (∃ u', t.team? u.tid = some u' ∧ (u'.bars.getD b {}).phase = (u.bars.getD b {}).phase + 1 ∧
        (∀ k, k < 1024 → ((u'.bars.getD b {}).arrived.getLsbD k = true ↔
          ∃ w ∈ s.waves, w.tid = u.tid ∧ ∃ L, L < w.lanes.length ∧ 32 * w.idx + L = k ∧ arriving w L)) ∧
        (∀ k, k ≠ b → u'.bars.getD k {} = u.bars.getD k {}) ∧ { u' with bars := [] } = { u with bars := [] }) ∧
      ∀ w ∈ s.waves, w.tid = u.tid → ∃ w', t.wave? w.uid = some w' ∧ ∀ L, L < w.lanes.length →
        (∀ ph a k, (w.lane L).st = .blocked (.bar b ph a k) →
          (a = true ∧ k = true → w'.lane L = { w.lane L with st := .blocked (.bar b ((u.bars.getD b {}).phase + 1) false true) }) ∧
          (¬ (a = true ∧ k = true) → w'.lane L = { (w.lane L).adv with st := .run })) ∧
        ((∀ ph a k, (w.lane L).st ≠ .blocked (.bar b ph a k)) → w'.lane L = w.lane L))) ∧
  (
    let first (s : State) (w : Wave) (L : Nat) (on : Wait → Prop) : Prop := ∀ x ∈ s.blocked, on x.2.2.2 → (x.1 = w.uid ∧ x.2.1 = L) ∨ (w.lane L).bseq < x.2.2.1
    (∀ (s : State) (u : Team) (w : Wave) (L off n d : Nat) (clr : Bool) (o : BitVec 2), s.activeTeam? s.occ.n = some u → s.granuleFull u.tid s.occ.m = true →
      w ∈ s.waves → (s.waves.map Wave.uid).Nodup → unstepped w → L < w.lanes.length → (w.lane L).st = .blocked (.ldfe u.tid off n d clr o) → off / 16 = s.occ.m →
      first s w L (fun x => ∃ f k e c q, x = .ldfe u.tid f k e c q ∧ f / 16 = s.occ.m) →
      Ends .ldfeUnblock s (fun t => resumes s t w (fun K _ => K = L) ∧ t.granuleFull u.tid s.occ.m = !clr ∧ (∀ a, t.spByte u.tid a = s.spByte u.tid a) ∧
        t.lands = s.lands ++ [{ id := s.fresh, uid := w.uid, lane := L, d := d, vals := wordsOf (n / 4) (leNat (s.spRd u.tid off n)), due := s.after u.die (if w.tid = u.tid then 24 else 64)
                                pc := (w.lane L).pc, isRead := true }])) ∧
    (∀ (s : State) (u : Team) (w : Wave) (L off n : Nat) (v : BitVec 128) (o : BitVec 2), s.activeTeam? s.occ.n = some u → s.granuleFull u.tid s.occ.m = false →
      w ∈ s.waves → (s.waves.map Wave.uid).Nodup → unstepped w → L < w.lanes.length → (w.lane L).st = .blocked (.stfe u.tid off n v o) → off / 16 = s.occ.m →
      bytesWf u.scratch = true → first s w L (fun x => ∃ f k e q, x = .stfe u.tid f k e q ∧ f / 16 = s.occ.m) →
      Ends .stfeUnblock s (fun t => resumes s t w (fun K _ => K = L) ∧ t.granuleFull u.tid s.occ.m = true ∧ t.lands = s.lands ∧
        leNat (t.spRd u.tid off n) = v.toNat % 256 ^ n ∧ ∀ a, a < off ∨ off + n ≤ a → t.spByte u.tid a = s.spByte u.tid a))) ∧
  (∀ (s : State) (w : Wave), s.activeWave? s.occ.n = some w → unstepped w → s.occ.m < w.lanes.length →
    (∀ k d, (w.lane s.occ.m).st = .blocked (.ordwait k d) → let u := s.teamOf w
      (∀ v, ticketState (s.gridOf u) u k = some v → Ends .ordwaitRelease s (fun t => resumes s t w (fun K _ => K = s.occ.m) ∧
        t.lands = s.lands ++ [{ id := s.fresh, uid := w.uid, lane := s.occ.m, d := d, vals := [v], due := s.cycle, pc := (w.lane s.occ.m).pc }])) ∧
      (ticketState (s.gridOf u) u k = none → exec .ordwaitRelease s = .next s)) ∧
    (∀ idx va, (w.lane s.occ.m).st = .blocked (.rwait idx va) → let c := (s.teamOf w).ctx
      (∀ x pa ty log, s.ringIdx c va = some (x, pa, ty, log) → idx < x → (log = true → (s.gridOf (s.teamOf w)).logOrd = none) →
        Ends .rwaitRelease s (fun t => becomes s t w (fun K l l' =>
          (K = s.occ.m → l' = { l.adv with st := .run, opCount := l.opCount + (if log = true then 1 else 0) }) ∧ (K ≠ s.occ.m → l' = l)))) ∧
      ((∀ x p, s.ringIdx c va = some (x, p) → x ≤ idx) → exec .rwaitRelease s = .next s))) ∧
  (∀ (s : State) (u : Team) (k : ListLock), let off := s.occ.m
    let s1 := (s.updTeam u.tid (fun x => { x with locks := x.locks.erase k })).spWr u.tid (off + 5) [0]
    s.activeTeam? s.occ.n = some u → bytesWf u.scratch = true → u.locks.find? (fun k => k.off == off && decide (k.till ≤ s.cycle)) = some k →
    (∀ x ∈ u.locks.erase k, x.off ≠ off) →
    ((∀ x ∈ s.blocked, ∀ op g, x.2.2.2 ≠ .topk u.tid off op g) →
      Ends .topkLockRelease s (fun t => t.spByte u.tid (off + 5) = 0 ∧ (∀ a, a ≠ off + 5 → t.spByte u.tid a = s.spByte u.tid a) ∧
        (∃ u', t.team? u.tid = some u' ∧ u'.locks = u.locks.erase k) ∧ t.waves = s.waves ∧ t.lands = s.lands)) ∧
    (∀ (w : Wave) (L grp due : Nat) (op : KOp) (vals : List (Nat × Word)) (s2 : State), w ∈ s.waves → (s.waves.map Wave.uid).Nodup → unstepped w → L < w.lanes.length →
      s.blocked = [(w.uid, L, (w.lane L).bseq, .topk u.tid off op grp)] →
      s1.kRun (fun o => (u.locks.erase k).any (fun x => x.off == o)) u.die u.tid w.uid [(L, op)] = .done s2 vals due →
      Ends .topkLockRelease s (fun t => resumes s t w (fun K _ => K = L) ∧ (∀ a, t.spByte u.tid a = s2.spByte u.tid a) ∧
        ∃ ls, t.lands = s.lands ++ ls ∧ ls.map (fun x => (x.uid, x.lane, x.d, x.vals, x.due)) = vals.map (fun v => (w.uid, L, op.dst.1, [v.2], due))))) ∧
  (∀ (s : State) (w : Wave), s.activeWave? s.occ.n = some w → unstepped w →
    Ends .sleepExpiry s (fun t => resumes s t w (fun L l => L ∈ w.minSet ∧ ∃ n, l.wake = some n ∧ n ≤ s.dieCycle (s.teamOf w).die)) ∧
    Ends .markStallEnd s (fun t => becomes s t w (fun _ l l' =>
      let settled : Prop := l.begun = true ∧ (∃ p ∈ w.stall, p.1 = l.pc.toNat) ∧ ∀ p ∈ w.stall, p.1 = l.pc.toNat → p ∈ w.settled ∨ s.pageSettled (s.teamOf w).ctx p.2 = true
      (settled → l.st = .run → l' = l.adv) ∧ (settled → l.st ≠ .run → l' = { l with begun := false }) ∧ (¬ settled → l' = l))) ∧
    Ends .breakpointMatch s (fun t => becomes s t w (fun L l l' =>
      let hits (i : Nat) : Prop := L ∈ w.minSet ∧ l.noBreak = false ∧ l.midway = false ∧ i < 8 ∧ s.compHits (s.teamOf w) w L i = true
      (∀ i, hits i → (∀ j, j < i → ¬ hits j) → l'.st = .halted ∧ l'.pc = l.pc ∧ l'.regs = l.regs ∧ l'.trapKind = 13 ∧ l'.trapinfo.getD 1 0 = l.pc ∧
        l'.trapinfo.getD 4 0 = BitVec.ofNat 32 i) ∧
      ((∀ i, ¬ hits i) → kept l l')))) ∧
  (
    let parked (l l' : Lane) (kind : Nat) : Prop :=
      l'.st = .trapped ∧ l'.trapKind = kind ∧ l'.trapinfo.getD 1 0 = l.pc ∧ l'.pc = l.pc ∧ l'.regs = l.regs ∧ l'.preds = l.preds
    (∀ (s : State) (w : Wave), let m := (s.ir.extractLsb' 25 7).toNat
      Issuing s w → w.lanes.length ≤ 32 → (∀ L ∈ w.minSet, (w.lane L).inHandler = false ∧ (w.lane L).lost = none) →
      (m < 0x7B ∧ ∀ L ∈ w.minSet, (w.lane L).hints = []) ∨ m = 0 ∨ (0x78 ≤ m ∧ m < 0x7B) → Ends .illegalInstruction s (fun t => ∃ w', t.wave? w.uid = some w' ∧
        ∀ L ∈ w.minSet, parked (w.lane L) (w'.lane L) 1 ∧ (w'.lane L).hints = [])) ∧
    (∀ (s : State) (w : Wave) (va : Nat), s.activeWave? s.occ.n = some w → w.minSet ≠ [] → let c := (s.teamOf w).ctx
      (∀ cause, s.fetch w = .stop va (.fault cause) → Ends .instructionFetchFault s (fun t =>
        becomes s t w (fun L l l' => l' = if L ∈ w.minSet then { l with st := .faulted (s.ctx c).faultSeq, dumped := l.stillDumped } else l) ∧
        ∃ f, t.faults = s.faults ++ [f] ∧ f.ctx = c ∧ f.seq = (s.ctx c).faultSeq ∧ f.cause = cause ∧ f.kind = 3 ∧ f.va = BitVec.ofNat 72 va ∧
          f.pc = BitVec.ofNat 32 w.minPc ∧ f.who = .lanes w.uid (lanesMask w.minSet))) ∧
      (∀ d, s.fetch w = .stop va (.access d) → (∀ L ∈ w.minSet, (w.lane L).inHandler = false) → Ends .instructionFetchFault s (fun t =>
        becomes s t w (fun L l l' => (L ∈ w.minSet → parked l l' 7) ∧ (L ∉ w.minSet → kept l l')))))) ∧
  (∀ (s : State), let k := coreIx s.occ.n s.occ.m
    (s.core k).mmaBusy = true → (s.core k).mmaFree ≤ s.cycle → Ends .matrixUnitFree s (fun t => t.core k = { s.core k with mmaBusy := false } ∧
      (∀ j, j ≠ k → t.core j = s.core j) ∧ t.waves = s.waves ∧ t.mem = s.mem))

/-! ## Debug, sampling and replay (R242, R244, R249 to R251, R255 to R257) -/

/-- R242, R244, R249, R250, R255, R257. A new DGEN makes the device read its control block: SSMODE starts recording or replay, or is refused without a Scoresheet or with a stream 3 off; OFF ends
the mode; other settings just apply. Records go from chip to ring while it has space. In replay an access goes on if it is the next of its point, and stays otherwise; a timeout, a record that nothing can
match, or an unknown KIND makes it diverge. HALTCTX halts the lanes of a context, RESUME and STEP let the halted lanes of a HALTID go on, RESUMEALL those of the context; DUMP fails while
a lane is not stopped, holds back posted writes until their lane resumes, and is written once the others are over; a bad command is answered with 1. Each command has its RESULT written, then CDONEIDX advanced. A lane
that STEP has released halts after its next instruction, here NOP and IADD, and a lane beside it goes on. A stall
sample takes the next slot of its core.
Which lanes a closed window holds, which records are stale and which writes a dump holds are deduced (logs 18, 94, 95, 97), and so is what a change of
SSMODE to OFF ends, and that a change between RECORD and REPLAY only takes the settings (log 89). -/
def Obligations.DebugUnits : Prop :=
  let closed (w : Option Window) : Bool := match w with | some x => x.closed | none => false
  let done (s t : State) (c : Cmd) (result : Nat) : Prop := MemoryOk s → t.rd (s.cmdPa + 8) 8 = (c.idx + 1) % 2 ^ 64 ∧
    (c.pa + 1 < s.cmdPa + 8 ∨ s.cmdPa + 16 ≤ c.pa + 1 → t.rd (c.pa + 1) 1 = result)
  (∀ (s : State) (b : BitVec 4096), s.dgenMoved = some b →
    let ready : Prop := s.hasUnit 3 = true ∧ ∀ d, d < s.dies → fieldAt b (64 + 32 * d + 24) 8 ≠ 0
    (blkMode b = 1 → s.dbg.ssMode = 0 → (ready → Ends .ssmodeRecord s (fun t => t.dbg.blk = b ∧ t.dbg.ssMode = 1 ∧ t.dbg.ssStatus = .recording ∧
        t.dbg.ssGrids = 0 ∧ t.dbg.ssCount = [] ∧ (MemoryOk s → s.devOk (s.dbgPa + 10) 1 = true → t.rd (s.dbgPa + 10) 1 = 1))) ∧
      (¬ ready → Ends .ssmodeRecord s (fun t => t.dbg.blk = b ∧ t.dbg.ssMode = 1 ∧ t.dbg.ssStatus = .refused ∧
        (MemoryOk s → s.devOk (s.dbgPa + 10) 1 = true → t.rd (s.dbgPa + 10) 1 = 3)))) ∧
    (blkMode b = 2 → s.dbg.ssMode = 0 → (ready → Ends .ssmodeReplay s (fun t => t.dbg.blk = b ∧ t.dbg.ssMode = 2 ∧
        (t.dbg.ssStatus = .replaying ∨ t.dbg.ssStatus = .ended ∨ t.dbg.ssStatus = .diverged))) ∧
      (¬ ready → Ends .ssmodeReplay s (fun t => t.dbg.blk = b ∧ t.dbg.ssMode = 2 ∧ t.dbg.ssStatus = .refused))) ∧
    (blkMode b = 0 → s.dbg.ssMode ≠ 0 → Ends .ssmodeOff s (fun t => t.dbg.blk = b ∧ t.dbg.ssMode = 0 ∧ t.dbg.ssStatus = .idle ∧
      (∀ g ∈ t.grids, g.logOrd = none) ∧ t.waves = s.waves)) ∧
    ((blkMode b = 0 ↔ s.dbg.ssMode = 0) → exec .debugConfigUpdate s = .next { s with dbg := { s.dbg with blk := b } })) ∧
  (∀ (s : State), s.occ.n < s.dies → Ends .scoresheetLogSpace s (fun t => (∃ out, s.dbg.ssChip.getD s.occ.n [] = out ++ t.dbg.ssChip.getD s.occ.n []) ∧
    (∀ d, d ≠ s.occ.n → t.dbg.ssChip.getD d [] = s.dbg.ssChip.getD d []) ∧ t.waves = s.waves ∧
    ∀ r rest, s.occ.n < s.dbg.ssChip.length → t.dbg.ssChip.getD s.occ.n [] = r :: rest →
      ∀ u, t.ringPut none (t.streamPa s.occ.n 3 % 2 ^ 60) [16] (fun _ => recordBytes r) ≠ .ok u)) ∧
  (
    let diverged (t : State) : Prop := t.dbg.ssStatus = .diverged ∧ t.dbg.ssHeld = [] ∧ ∀ d, t.dbg.ssLog.getD d [] = []
    (∀ (s : State) (x : SsHeld), s.dbg.ssStatus = .replaying → x ∈ s.dbg.ssHeld → x.key = s.occ.n → x.since + s.divCycles ≤ s.cycle → s.stillHeld x.pt = true →
      Ends .replayDivergeTimeout s diverged) ∧
    (∀ (s : State) (r : BitVec 128) (rest : List (BitVec 128)), s.dbg.ssStatus = .replaying → s.dbg.ssLog.getD s.occ.n [] = r :: rest → s.recStale r = true →
      Ends .replayDivergeStale s diverged) ∧
    (∀ (s : State), s.occ.n < s.dies → s.ssUnread s.occ.n = true →
      let hdr := ringHdr (memBytes s.mem (s.streamPa s.occ.n 3 % 2 ^ 60) 64) [16] false
      let kind := s.rd (hdr.slots + 16 * (hdr.relidx % hdr.count)) 16 % 256
      kind = 0 ∨ (11 ≤ kind ∧ kind ≠ 255) → Ends .replayDivergeUnknownKind s diverged) ∧
    (∀ (s : State) (a : Acc), let die := paDie a.addr
      let p := (s.pointOf 1 a).2
      let count := (Tab.find s.dbg.ssCount (pointKey die p.kind p.unit)).getD 0
      s.dbg.ssStatus = .replaying → s.occ.n < s.dies → s.ssUnread s.occ.n = false → s.accs.find? (fun b => b.id == s.occ.m) = some a → a.op = .store → a.sp = none →
      a.type ≠ 4 → s.accFree a = true → s.accLogged a = true → s.dbg.ssEnd.contains die = false →
      (s.ssHead die p.kind p.unit = some (p.bytes count) → Ends .replayLogMatch s (fun t => t.accs = s.accs.filter (fun b => b.id != a.id) ∧
        (MemoryOk s → t.rd a.addr a.n = a.data.toNat % 256 ^ a.n) ∧
        (die < s.dbg.ssLog.length → t.dbg.ssLog.getD die [] = (s.dbg.ssLog.getD die []).erase (p.bytes count)))) ∧
      (s.ssHead die p.kind p.unit ≠ some (p.bytes count) → Ends .replayLogMatch s (fun t => t.accs = s.accs ∧ t.mem = s.mem ∧ t.waves = s.waves)))) ∧
  (
    let each (s t : State) (p : Wave → Prop) (f : Wave → Nat → Lane → Lane → Prop) : Prop :=
      ∀ w ∈ s.waves, (p w → ∃ w', t.wave? w.uid = some w' ∧ w'.lanes.length = w.lanes.length ∧ ∀ L, L < w.lanes.length → f w L (w.lane L) (w'.lane L)) ∧
        (¬ p w → t.wave? w.uid = some w)
    let inCtx (s : State) (c : Cmd) (w : Wave) : Prop := (s.teamOf w).ctx = c.ctx
    let resumes (s : State) (mask : Word) (step : Bool) (w : Wave) (L : Nat) (l l' : Lane) : Prop :=
      let goes (L : Nat) (l : Lane) : Prop := l.st = .halted ∧ mask.getLsbD L = true
      let opens : Prop := closed w.win = true ∧ (w.handling = true ∨ s.deliver w = []) ∧
        ∃ K, K < w.lanes.length ∧ goes K (w.lane K) ∧ (w.handling = true → (w.lane K).inHandler = true)
      (goes L l → l' = { l with
        st := if closed w.window = true ∧ l.inHandler = false ∧ ¬ (opens ∧ w.handling = false) then .held else .run
        noBreak := true, stepping := step, stepped := false, dumped := false }) ∧
      (¬ goes L l → l' = if opens ∧ l.st = .held ∧ l.inHandler = w.handling then { l with st := .run } else l)
    ∀ (s : State) (c : Cmd), s.cmd = some c → (s.waves.map Wave.uid).Nodup →
      (c.bad = false → c.op = 1 → c.ctx < 256 → Ends .dbgHaltCtx s (fun t => done s t c 0 ∧ (t.ctx c.ctx).haltHold = true ∧ each s t (inCtx s c) (fun _ _ l l' =>
        if l.haltable = true then l'.st = .halted ∧ l'.pc = l.pc ∧ l'.trapKind = 13 ∧ l'.trapinfo.getD 1 0 = l.pc ∧ l'.trapinfo.getD 4 0 = 0xFE else { l' with trapinfo := l.trapinfo } = l))) ∧
      (c.bad = false → c.op = 2 ∨ c.op = 3 → let i : Instr := if c.op = 2 then .dbgResume else .dbgStep
        (∀ w, s.haltWave c = some w → Ends i s (fun t => done s t c 0 ∧
          each s t (fun v => v.uid = w.uid) (resumes s (BitVec.ofNat 32 (fieldAt c.bits 8 4)) (c.op == 3)))) ∧
        (s.haltWave c = none → Ends i s (fun t => done s t c 2 ∧ t.waves = s.waves))) ∧
      (c.bad = false → c.op = 4 → c.ctx < 256 → Ends .dbgResumeAll s (fun t => done s t c 0 ∧ (t.ctx c.ctx).haltHold = false ∧
        each s t (inCtx s c) (fun w L l l' => L < 32 → resumes s 0xFFFFFFFF false w L l l'))) ∧
      (c.bad = true → Ends .dbgBadCommand s (fun t => done s t c 1 ∧ t.waves = s.waves)) ∧
      (c.bad = false → c.op = 5 → s.dbg.dump = none →
        let stopped : Prop := ∀ w ∈ s.waves, inCtx s c w → ∀ l ∈ w.lanes, l.stopped = true
        (¬ stopped → Ends .dbgDump s (fun t => done s t c 4 ∧ t.dbg = s.dbg ∧ t.accs = s.accs)) ∧
        (stopped → Ends .dbgDump s (fun t => t.mem = s.mem ∧ t.accs = s.accs ∧ t.dbg.dump = some (c.idx, c.ctx, c.pa) ∧
          each s t (inCtx s c) (fun _ _ l l' => l' = { l with dumped := l.live }) ∧
          ∀ a ∈ s.accs, ∀ w ∈ s.waves, w.uid = a.uid → inCtx s c w → a.posted = true → a.lane < w.lanes.length → (w.lane a.lane).st ≠ .exited → t.dumpHeld a = true))) ∧
      (∀ idx k pa, s.dbg.dump = some (idx, k, pa) → (∀ a ∈ s.accs, a.ctx = k → a.posted = true → a.refused = true ∨ s.dumpHeld a = true) →
        let bs := s.dumpBytes k
        let out := fieldAt c.bits 16 8 % 2 ^ 60
        let d : Cmd := { idx := idx, pa := pa, bits := 0 }
        (fieldAt c.bits 24 8 < bs.length → Ends .dbgDumpWrite s (fun t => done s t d 3 ∧ t.dbg.dump = none ∧ t.waves = s.waves)) ∧
        (bs.length ≤ fieldAt c.bits 24 8 → s.devOk out bs.length = true → Ends .dbgDumpWrite s (fun t => done s t d 0 ∧ t.dbg.dump = none ∧ t.waves = s.waves ∧
          (MemoryOk s → ∀ j, j < bs.length → out + j ≠ pa + 1 → (out + j < s.cmdPa + 8 ∨ s.cmdPa + 16 ≤ out + j) → memByte t.mem (out + j) = bs.getD j 0))))) ∧
  (
    let steps (i : Instr) (ff : FormF) (does : Lane → Lane → Prop) : Prop := ∀ (s : State) (w : Wave), s.cur = some w.uid → s.wave? w.uid = some w → w.minSet ≠ [] →
      (∀ l ∈ w.lanes, l.stepped = false) → Ready s w ff →
      ∃ t w', exec i s = .next t ∧ t.wave? w.uid = some w' ∧ ∀ L ∈ executing s w ff, let l := w.lane L
        let l' := w'.lane L
        l'.pc = l.pc + 1 ∧ l'.hints = [] ∧ does l l' ∧ (l.stepping = false → l'.st = .run) ∧
        (l.stepping = true → l'.st = .halted ∧ l'.stepping = false ∧ l'.trapKind = 13 ∧ l'.trapinfo.getD 1 0 = l.pc + 1 ∧ l'.trapinfo.getD 4 0 = 0xFD)
    steps .nop (fSYS [] []) (fun l l' => l'.regs = l.regs) ∧
    (∀ d a b e f g, steps (.iadd d a b e f g) (fRRR d a b e f g)
      (fun l l' => l'.v d.toNat = l.v a.toNat + l.v b.toNat ∧ ∀ k, k ≠ d.toNat → l'.reg k = l.reg k))) ∧
  (∀ (s : State), let k := coreIx s.occ.n s.occ.m
    s.sampleDue s.occ.n s.occ.m = true →
    (∀ w, nextSlot (s.core k).sampleSlot (s.sampleable s.occ.n s.occ.m) = some w → Ends .stallSample s (fun t => t.waves = s.waves ∧ (∀ j, j ≠ k → t.core j = s.core j) ∧
      t.core k = { s.core k with sampledAt := s.dieCycle s.occ.n, sampleSlot := some w.slot, sampleNo := (s.core k).sampleNo + 1 })) ∧
    (s.sampleable s.occ.n s.occ.m = [] → Ends .stallSample s (fun t => t.waves = s.waves ∧ t.mem = s.mem ∧
      t.core k = { s.core k with sampledAt := s.dieCycle s.occ.n })))
end

