-- ==== Sys2Proof/Laws/Forms.lean ====
section
/-!
SUPPORT. Every instruction that has a word is issued with the form that formOf gives it: so the checks of R288, which lanes
execute, and the waiting are the same operation for all of them.
-/

namespace Sys2Proof.Machine

/-- The instruction's meaning issues its form for the minimum-PC set of the current wave. -/
def IssuesAs (i : Instr) : Prop :=
  ∃ (busy : State → Iss → Option State) (body : Iss → State → State × Traps), ∀ s, exec i s = .next (s.issue (formOf i) busy body)

theorem issuesAs_plain {i : Instr} {ff : FormF} {b bd} (h : ∀ s, exec i s = .next (s.issue ff b bd)) (hf : ff = formOf i) : IssuesAs i := by
  subst hf; exact ⟨_, _, h⟩
theorem issuesAs_forced {i : Instr} {ff : FormF} {p r b bd} (h : ∀ s, exec i s = .next (s.issueForced ff p r b bd)) (hf : ff = formOf i) :
    IssuesAs i := by
  subst hf; unfold State.issueForced at h; exact ⟨_, _, h⟩
theorem issuesAs_together {i : Instr} {ff : FormF} {p b bd} (h : ∀ s, exec i s = .next (s.issueTogether ff p b bd)) (hf : ff = formOf i) :
    IssuesAs i := by
  subst hf; unfold State.issueTogether at h; exact ⟨_, _, h⟩
theorem issuesAs_estOp {i : Instr} {ff : FormF} {a b c d e} (h : ∀ s, exec i s = .next (estOp ff a b c d e s)) (hf : ff = formOf i) :
    IssuesAs i := by
  subst hf; unfold estOp at h; exact ⟨_, _, h⟩
theorem atomOp_issues (l bad : Bool) (t a : BitVec 7) (r : BitVec 4) (o : BitVec 2) (c : BitVec 4) (z : BitVec 1) :
    ∃ (busy : State → Iss → Option State) (body : Iss → State → State × Traps),
      ∀ s, atomOp l bad t a r o c z s = s.issue (fAtom t a c z o 2 l bad) busy body := by
  unfold atomOp State.issueForced; exact ⟨_, _, fun _ => rfl⟩
theorem issuesAs_atom (t a r o c z) : IssuesAs (.atom t a r o c z) := by
  obtain ⟨b, d, h⟩ := atomOp_issues true (!Instr.wf (.atom t a r o c z)) t a r o c z
  exact ⟨b, d, fun s => congrArg _ (h s)⟩
theorem issuesAs_red (t a r o c z) : IssuesAs (.red t a r o c z) := by
  obtain ⟨b, d, h⟩ := atomOp_issues false (!Instr.wf (.red t a r o c z)) t a r o c z
  exact ⟨b, d, fun s => congrArg _ (h s)⟩

theorem issuesAs_iadd (a b c d e f) : IssuesAs (.iadd a b c d e f) := ⟨_, _, fun _ => rfl⟩
theorem issuesAs_isub (a b c d e f) : IssuesAs (.isub a b c d e f) := ⟨_, _, fun _ => rfl⟩
theorem issuesAs_imul (a b c d e f) : IssuesAs (.imul a b c d e f) := ⟨_, _, fun _ => rfl⟩
theorem issuesAs_imulhI (a b c d e f) : IssuesAs (.imulhI a b c d e f) := ⟨_, _, fun _ => rfl⟩
theorem issuesAs_imulhN (a b c d e f) : IssuesAs (.imulhN a b c d e f) := ⟨_, _, fun _ => rfl⟩
theorem issuesAs_iminI (a b c d e f) : IssuesAs (.iminI a b c d e f) := ⟨_, _, fun _ => rfl⟩
theorem issuesAs_imaxI (a b c d e f) : IssuesAs (.imaxI a b c d e f) := ⟨_, _, fun _ => rfl⟩
theorem issuesAs_iminN (a b c d e f) : IssuesAs (.iminN a b c d e f) := ⟨_, _, fun _ => rfl⟩
theorem issuesAs_imaxN (a b c d e f) : IssuesAs (.imaxN a b c d e f) := ⟨_, _, fun _ => rfl⟩
theorem issuesAs_and (a b c d e f) : IssuesAs (.and a b c d e f) := ⟨_, _, fun _ => rfl⟩
theorem issuesAs_or (a b c d e f) : IssuesAs (.or a b c d e f) := ⟨_, _, fun _ => rfl⟩
theorem issuesAs_xor (a b c d e f) : IssuesAs (.xor a b c d e f) := ⟨_, _, fun _ => rfl⟩
theorem issuesAs_shl (a b c d e f) : IssuesAs (.shl a b c d e f) := ⟨_, _, fun _ => rfl⟩
theorem issuesAs_shrN (a b c d e f) : IssuesAs (.shrN a b c d e f) := ⟨_, _, fun _ => rfl⟩
theorem issuesAs_shrI (a b c d e f) : IssuesAs (.shrI a b c d e f) := ⟨_, _, fun _ => rfl⟩
theorem issuesAs_rotl (a b c d e f) : IssuesAs (.rotl a b c d e f) := ⟨_, _, fun _ => rfl⟩
theorem issuesAs_imac (a b c d e f) : IssuesAs (.imac a b c d e f) := ⟨_, _, fun _ => rfl⟩
theorem issuesAs_iaddi (a b c d) : IssuesAs (.iaddi a b c d) := ⟨_, _, fun _ => rfl⟩
theorem issuesAs_imuli (a b c d) : IssuesAs (.imuli a b c d) := ⟨_, _, fun _ => rfl⟩
theorem issuesAs_andi (a b c d) : IssuesAs (.andi a b c d) := ⟨_, _, fun _ => rfl⟩
theorem issuesAs_ori (a b c d) : IssuesAs (.ori a b c d) := ⟨_, _, fun _ => rfl⟩
theorem issuesAs_xori (a b c d) : IssuesAs (.xori a b c d) := ⟨_, _, fun _ => rfl⟩
theorem issuesAs_shli (a b c d) : IssuesAs (.shli a b c d) := ⟨_, _, fun _ => rfl⟩
theorem issuesAs_shriN (a b c d) : IssuesAs (.shriN a b c d) := ⟨_, _, fun _ => rfl⟩
theorem issuesAs_shriI (a b c d) : IssuesAs (.shriI a b c d) := ⟨_, _, fun _ => rfl⟩
theorem issuesAs_movi (a b) : IssuesAs (.movi a b) := ⟨_, _, fun _ => rfl⟩
theorem issuesAs_mov (a b c d) : IssuesAs (.mov a b c d) := ⟨_, _, fun _ => rfl⟩
theorem issuesAs_ineg (a b c d) : IssuesAs (.ineg a b c d) := ⟨_, _, fun _ => rfl⟩
theorem issuesAs_iabs (a b c d) : IssuesAs (.iabs a b c d) := ⟨_, _, fun _ => rfl⟩
theorem issuesAs_not (a b c d) : IssuesAs (.not a b c d) := ⟨_, _, fun _ => rfl⟩
theorem issuesAs_popc (a b c d) : IssuesAs (.popc a b c d) := ⟨_, _, fun _ => rfl⟩
theorem issuesAs_clz (a b c d) : IssuesAs (.clz a b c d) := ⟨_, _, fun _ => rfl⟩
theorem issuesAs_ctz (a b c d) : IssuesAs (.ctz a b c d) := ⟨_, _, fun _ => rfl⟩
theorem issuesAs_brev (a b c d) : IssuesAs (.brev a b c d) := ⟨_, _, fun _ => rfl⟩
theorem issuesAs_bswap (a b c d) : IssuesAs (.bswap a b c d) := ⟨_, _, fun _ => rfl⟩
theorem issuesAs_sext8 (a b c d) : IssuesAs (.sext8 a b c d) := ⟨_, _, fun _ => rfl⟩
theorem issuesAs_sext16 (a b c d) : IssuesAs (.sext16 a b c d) := ⟨_, _, fun _ => rfl⟩
theorem issuesAs_zext8 (a b c d) : IssuesAs (.zext8 a b c d) := ⟨_, _, fun _ => rfl⟩
theorem issuesAs_zext16 (a b c d) : IssuesAs (.zext16 a b c d) := ⟨_, _, fun _ => rfl⟩
theorem issuesAs_bfe (a b c d e f) : IssuesAs (.bfe a b c d e f) := ⟨_, _, fun _ => rfl⟩
theorem issuesAs_bfi (a b c d e f) : IssuesAs (.bfi a b c d e f) := ⟨_, _, fun _ => rfl⟩
theorem issuesAs_prmt (a b c d e f) : IssuesAs (.prmt a b c d e f) := ⟨_, _, fun _ => rfl⟩
theorem issuesAs_sel (a b c d e f) : IssuesAs (.sel a b c d e f) := ⟨_, _, fun _ => rfl⟩
theorem issuesAs_fadd (a b c d e f) : IssuesAs (.fadd a b c d e f) := ⟨_, _, fun _ => rfl⟩
theorem issuesAs_fsub (a b c d e f) : IssuesAs (.fsub a b c d e f) := ⟨_, _, fun _ => rfl⟩
theorem issuesAs_fmul (a b c d e f) : IssuesAs (.fmul a b c d e f) := ⟨_, _, fun _ => rfl⟩
theorem issuesAs_fmac (a b c d e f) : IssuesAs (.fmac a b c d e f) := ⟨_, _, fun _ => rfl⟩
theorem issuesAs_fmin (a b c d e f) : IssuesAs (.fmin a b c d e f) := ⟨_, _, fun _ => rfl⟩
theorem issuesAs_fmax (a b c d e f) : IssuesAs (.fmax a b c d e f) := ⟨_, _, fun _ => rfl⟩
theorem issuesAs_fneg (a b c d) : IssuesAs (.fneg a b c d) := ⟨_, _, fun _ => rfl⟩
theorem issuesAs_fabs (a b c d) : IssuesAs (.fabs a b c d) := ⟨_, _, fun _ => rfl⟩
theorem issuesAs_frndn (a b c d) : IssuesAs (.frndn a b c d) := ⟨_, _, fun _ => rfl⟩
theorem issuesAs_frndz (a b c d) : IssuesAs (.frndz a b c d) := ⟨_, _, fun _ => rfl⟩
theorem issuesAs_frndd (a b c d) : IssuesAs (.frndd a b c d) := ⟨_, _, fun _ => rfl⟩
theorem issuesAs_frndu (a b c d) : IssuesAs (.frndu a b c d) := ⟨_, _, fun _ => rfl⟩
theorem issuesAs_ffrac (a b c d) : IssuesAs (.ffrac a b c d) := ⟨_, _, fun _ => rfl⟩
theorem issuesAs_fclass (a b c d) : IssuesAs (.fclass a b c d) := ⟨_, _, fun _ => rfl⟩
theorem issuesAs_fsat (a b c d) : IssuesAs (.fsat a b c d) := ⟨_, _, fun _ => rfl⟩
theorem issuesAs_fscale (a b c d e f) : IssuesAs (.fscale a b c d e f) := ⟨_, _, fun _ => rfl⟩
theorem issuesAs_hadd2F16 (a b c d e f) : IssuesAs (.hadd2F16 a b c d e f) := ⟨_, _, fun _ => rfl⟩
theorem issuesAs_hmul2F16 (a b c d e f) : IssuesAs (.hmul2F16 a b c d e f) := ⟨_, _, fun _ => rfl⟩
theorem issuesAs_hmac2F16 (a b c d e f) : IssuesAs (.hmac2F16 a b c d e f) := ⟨_, _, fun _ => rfl⟩
theorem issuesAs_hmin2F16 (a b c d e f) : IssuesAs (.hmin2F16 a b c d e f) := ⟨_, _, fun _ => rfl⟩
theorem issuesAs_hmax2F16 (a b c d e f) : IssuesAs (.hmax2F16 a b c d e f) := ⟨_, _, fun _ => rfl⟩
theorem issuesAs_hadd2Bf16 (a b c d e f) : IssuesAs (.hadd2Bf16 a b c d e f) := ⟨_, _, fun _ => rfl⟩
theorem issuesAs_hmul2Bf16 (a b c d e f) : IssuesAs (.hmul2Bf16 a b c d e f) := ⟨_, _, fun _ => rfl⟩
theorem issuesAs_hmac2Bf16 (a b c d e f) : IssuesAs (.hmac2Bf16 a b c d e f) := ⟨_, _, fun _ => rfl⟩
theorem issuesAs_hmin2Bf16 (a b c d e f) : IssuesAs (.hmin2Bf16 a b c d e f) := ⟨_, _, fun _ => rfl⟩
theorem issuesAs_hmax2Bf16 (a b c d e f) : IssuesAs (.hmax2Bf16 a b c d e f) := ⟨_, _, fun _ => rfl⟩
theorem issuesAs_rcp (a b c d) : IssuesAs (.rcp a b c d) := ⟨_, _, fun _ => rfl⟩
theorem issuesAs_rsq (a b c d) : IssuesAs (.rsq a b c d) := ⟨_, _, fun _ => rfl⟩
theorem issuesAs_sqrt (a b c d) : IssuesAs (.sqrt a b c d) := ⟨_, _, fun _ => rfl⟩
theorem issuesAs_exp2 (a b c d) : IssuesAs (.exp2 a b c d) := ⟨_, _, fun _ => rfl⟩
theorem issuesAs_log2 (a b c d) : IssuesAs (.log2 a b c d) := ⟨_, _, fun _ => rfl⟩
theorem issuesAs_sint (a b c d) : IssuesAs (.sint a b c d) := ⟨_, _, fun _ => rfl⟩
theorem issuesAs_cost (a b c d) : IssuesAs (.cost a b c d) := ⟨_, _, fun _ => rfl⟩
theorem issuesAs_tanh (a b c d) : IssuesAs (.tanh a b c d) := ⟨_, _, fun _ => rfl⟩
theorem issuesAs_rcph2 (a b c d) : IssuesAs (.rcph2 a b c d) := ⟨_, _, fun _ => rfl⟩
theorem issuesAs_exph2 (a b c d) : IssuesAs (.exph2 a b c d) := ⟨_, _, fun _ => rfl⟩
theorem issuesAs_i2f (a b c d) : IssuesAs (.i2f a b c d) := ⟨_, _, fun _ => rfl⟩
theorem issuesAs_n2f (a b c d) : IssuesAs (.n2f a b c d) := ⟨_, _, fun _ => rfl⟩
theorem issuesAs_f2in (a b c d) : IssuesAs (.f2in a b c d) := ⟨_, _, fun _ => rfl⟩
theorem issuesAs_f2iz (a b c d) : IssuesAs (.f2iz a b c d) := ⟨_, _, fun _ => rfl⟩
theorem issuesAs_f2id (a b c d) : IssuesAs (.f2id a b c d) := ⟨_, _, fun _ => rfl⟩
theorem issuesAs_f2iu (a b c d) : IssuesAs (.f2iu a b c d) := ⟨_, _, fun _ => rfl⟩
theorem issuesAs_f2nn (a b c d) : IssuesAs (.f2nn a b c d) := ⟨_, _, fun _ => rfl⟩
theorem issuesAs_f2nz (a b c d) : IssuesAs (.f2nz a b c d) := ⟨_, _, fun _ => rfl⟩
theorem issuesAs_h2fl (a b c d) : IssuesAs (.h2fl a b c d) := ⟨_, _, fun _ => rfl⟩
theorem issuesAs_h2fh (a b c d) : IssuesAs (.h2fh a b c d) := ⟨_, _, fun _ => rfl⟩
theorem issuesAs_b2fl (a b c d) : IssuesAs (.b2fl a b c d) := ⟨_, _, fun _ => rfl⟩
theorem issuesAs_b2fh (a b c d) : IssuesAs (.b2fh a b c d) := ⟨_, _, fun _ => rfl⟩
theorem issuesAs_f2h (a b c d) : IssuesAs (.f2h a b c d) := ⟨_, _, fun _ => rfl⟩
theorem issuesAs_f2b (a b c d) : IssuesAs (.f2b a b c d) := ⟨_, _, fun _ => rfl⟩
theorem issuesAs_cvtpF16 (a b c d e f) : IssuesAs (.cvtpF16 a b c d e f) := ⟨_, _, fun _ => rfl⟩
theorem issuesAs_cvtpBf16 (a b c d e f) : IssuesAs (.cvtpBf16 a b c d e f) := ⟨_, _, fun _ => rfl⟩
theorem issuesAs_cvtq (a b c d e f) : IssuesAs (.cvtq a b c d e f) := ⟨_, _, fun _ => rfl⟩
theorem issuesAs_cvtx (a b c d e) : IssuesAs (.cvtx a b c d e) := ⟨_, _, fun _ => rfl⟩
theorem issuesAs_icmpI (a b c d) : IssuesAs (.icmpI a b c d) := ⟨_, _, fun _ => rfl⟩
theorem issuesAs_icmpN (a b c d) : IssuesAs (.icmpN a b c d) := ⟨_, _, fun _ => rfl⟩
theorem issuesAs_fcmp (a b c d) : IssuesAs (.fcmp a b c d) := ⟨_, _, fun _ => rfl⟩
theorem issuesAs_hcmp2 (a b c d) : IssuesAs (.hcmp2 a b c d) := ⟨_, _, fun _ => rfl⟩
theorem issuesAs_plog (a b c d) : IssuesAs (.plog a b c d) := ⟨_, _, fun _ => rfl⟩
theorem issuesAs_v2p (a b c d) : IssuesAs (.v2p a b c d) := ⟨_, _, fun _ => rfl⟩
theorem issuesAs_p2v (a b c d) : IssuesAs (.p2v a b c d) := ⟨_, _, fun _ => rfl⟩
theorem issuesAs_prd (a b) : IssuesAs (.prd a b) := ⟨_, _, fun _ => rfl⟩
theorem issuesAs_pwr (a b c) : IssuesAs (.pwr a b c) := ⟨_, _, fun _ => rfl⟩
theorem issuesAs_all (a b c d) : IssuesAs (.all a b c d) := ⟨_, _, fun _ => rfl⟩
theorem issuesAs_any (a b c d) : IssuesAs (.any a b c d) := ⟨_, _, fun _ => rfl⟩
theorem issuesAs_ballot (a b c d) : IssuesAs (.ballot a b c d) := ⟨_, _, fun _ => rfl⟩
theorem issuesAs_matchLanes (a b c d) : IssuesAs (.matchLanes a b c d) := ⟨_, _, fun _ => rfl⟩
theorem issuesAs_lcount (a b) : IssuesAs (.lcount a b) := ⟨_, _, fun _ => rfl⟩
theorem issuesAs_shflIdx (a b c d e f) : IssuesAs (.shflIdx a b c d e f) := ⟨_, _, fun _ => rfl⟩
theorem issuesAs_shflXor (a b c d e f) : IssuesAs (.shflXor a b c d e f) := ⟨_, _, fun _ => rfl⟩
theorem issuesAs_shflXw (a b c d e f) : IssuesAs (.shflXw a b c d e f) := ⟨_, _, fun _ => rfl⟩
theorem issuesAs_reduce (a b c d e) : IssuesAs (.reduce a b c d e) := ⟨_, _, fun _ => rfl⟩
theorem issuesAs_scan (a b c d e) : IssuesAs (.scan a b c d e) := ⟨_, _, fun _ => rfl⟩
theorem issuesAs_bra (a) : IssuesAs (.bra a) := ⟨_, _, fun _ => rfl⟩
theorem issuesAs_brp (a b c) : IssuesAs (.brp a b c) := ⟨_, _, fun _ => rfl⟩
theorem issuesAs_call (a) : IssuesAs (.call a) := ⟨_, _, fun _ => rfl⟩
theorem issuesAs_jmpi (a b c) : IssuesAs (.jmpi a b c) := ⟨_, _, fun _ => rfl⟩
theorem issuesAs_ret (a b) : IssuesAs (.ret a b) := ⟨_, _, fun _ => rfl⟩
theorem issuesAs_exit : IssuesAs (.exit) := issuesAs_forced (fun _ => rfl) rfl
theorem issuesAs_wsync : IssuesAs (.wsync) := ⟨_, _, fun _ => rfl⟩
theorem issuesAs_barSync (a) : IssuesAs (.barSync a) := ⟨_, _, fun _ => rfl⟩
theorem issuesAs_barArrive (a) : IssuesAs (.barArrive a) := ⟨_, _, fun _ => rfl⟩
theorem issuesAs_barWait (a) : IssuesAs (.barWait a) := ⟨_, _, fun _ => rfl⟩
theorem issuesAs_barCsync : IssuesAs (.barCsync) := ⟨_, _, fun _ => rfl⟩
theorem issuesAs_nop : IssuesAs (.nop) := ⟨_, _, fun _ => rfl⟩
theorem issuesAs_yield : IssuesAs (.yield) := ⟨_, _, fun _ => rfl⟩
theorem issuesAs_sleep (a) : IssuesAs (.sleep a) := ⟨_, _, fun _ => rfl⟩
theorem issuesAs_ld (a b c d e f) : IssuesAs (.ld a b c d e f) := ⟨_, _, fun _ => rfl⟩
theorem issuesAs_st (a b c d e f) : IssuesAs (.st a b c d e f) := issuesAs_forced (fun _ => rfl) rfl
theorem issuesAs_lds (a b c d e f) : IssuesAs (.lds a b c d e f) := ⟨_, _, fun _ => rfl⟩
theorem issuesAs_sts (a b c d e f) : IssuesAs (.sts a b c d e f) := issuesAs_forced (fun _ => rfl) rfl
theorem issuesAs_ldfe (a b c d e f) : IssuesAs (.ldfe a b c d e f) := ⟨_, _, fun _ => rfl⟩
theorem issuesAs_stfe (a b c d e f) : IssuesAs (.stfe a b c d e f) := issuesAs_together (fun _ => rfl) rfl
theorem issuesAs_atoms (a b c d e f) : IssuesAs (.atoms a b c d e f) := issuesAs_forced (fun _ => rfl) rfl
theorem issuesAs_cstore (a b c d e f) : IssuesAs (.cstore a b c d e f) := issuesAs_together (fun _ => rfl) rfl
theorem issuesAs_fence (a b) : IssuesAs (.fence a b) := issuesAs_forced (fun _ => rfl) rfl
theorem issuesAs_xfence (a b) : IssuesAs (.xfence a b) := issuesAs_forced (fun _ => rfl) rfl
theorem issuesAs_lock (a b c d) : IssuesAs (.lock a b c d) := ⟨_, _, fun _ => rfl⟩
theorem issuesAs_unlock (a b c d) : IssuesAs (.unlock a b c d) := ⟨_, _, fun _ => rfl⟩
theorem issuesAs_pref (a b c d e) : IssuesAs (.pref a b c d e) := ⟨_, _, fun _ => rfl⟩
theorem issuesAs_est (a b c) : IssuesAs (.est a b c) := issuesAs_estOp (fun _ => rfl) rfl
theorem issuesAs_eld (a b c) : IssuesAs (.eld a b c) := issuesAs_estOp (fun _ => rfl) rfl
theorem issuesAs_emrg (a b) : IssuesAs (.emrg a b) := issuesAs_estOp (fun _ => rfl) rfl
theorem issuesAs_eclr (a b) : IssuesAs (.eclr a b) := issuesAs_estOp (fun _ => rfl) rfl
theorem issuesAs_esweep (a b) : IssuesAs (.esweep a b) := issuesAs_estOp (fun _ => rfl) rfl
theorem issuesAs_escene (a) : IssuesAs (.escene a) := ⟨_, _, fun _ => rfl⟩
theorem issuesAs_eraw (a b) : IssuesAs (.eraw a b) := issuesAs_estOp (fun _ => rfl) rfl
theorem issuesAs_einit (a b) : IssuesAs (.einit a b) := issuesAs_estOp (fun _ => rfl) rfl
theorem issuesAs_qpush (a b c) : IssuesAs (.qpush a b c) := ⟨_, _, fun _ => rfl⟩
theorem issuesAs_rwait (a b) : IssuesAs (.rwait a b) := ⟨_, _, fun _ => rfl⟩
theorem issuesAs_rrel (a b) : IssuesAs (.rrel a b) := ⟨_, _, fun _ => rfl⟩
theorem issuesAs_launch (a b c) : IssuesAs (.launch a b c) := issuesAs_forced (fun _ => rfl) rfl
theorem issuesAs_ordwait (a b) : IssuesAs (.ordwait a b) := ⟨_, _, fun _ => rfl⟩
theorem issuesAs_ordtake (a) : IssuesAs (.ordtake a) := issuesAs_forced (fun _ => rfl) rfl
theorem issuesAs_markImm (a) : IssuesAs (.markImm a) := ⟨_, _, fun _ => rfl⟩
theorem issuesAs_markReg (a) : IssuesAs (.markReg a) := ⟨_, _, fun _ => rfl⟩
theorem issuesAs_cont (a b) : IssuesAs (.cont a b) := ⟨_, _, fun _ => rfl⟩
theorem issuesAs_trav (a b c) : IssuesAs (.trav a b c) := ⟨_, _, fun _ => rfl⟩
theorem issuesAs_tnew (a b c d) : IssuesAs (.tnew a b c d) := ⟨_, _, fun _ => rfl⟩
theorem issuesAs_tcut (a b c) : IssuesAs (.tcut a b c) := ⟨_, _, fun _ => rfl⟩
theorem issuesAs_tret (a) : IssuesAs (.tret a) := issuesAs_forced (fun _ => rfl) rfl
theorem issuesAs_tfrd (a b c) : IssuesAs (.tfrd a b c) := ⟨_, _, fun _ => rfl⟩
theorem issuesAs_tfwr (a b c) : IssuesAs (.tfwr a b c) := ⟨_, _, fun _ => rfl⟩
theorem issuesAs_tstat (a b c) : IssuesAs (.tstat a b c) := ⟨_, _, fun _ => rfl⟩
theorem issuesAs_mma (a b c d e) : IssuesAs (.mma a b c d e) := ⟨_, _, fun _ => rfl⟩
theorem issuesAs_mclaim (a b c) : IssuesAs (.mclaim a b c) := ⟨_, _, fun _ => rfl⟩
theorem issuesAs_mrel (a b) : IssuesAs (.mrel a b) := ⟨_, _, fun _ => rfl⟩
theorem issuesAs_mzero (a b) : IssuesAs (.mzero a b) := ⟨_, _, fun _ => rfl⟩
theorem issuesAs_mrow (a b) : IssuesAs (.mrow a b) := ⟨_, _, fun _ => rfl⟩
theorem issuesAs_mread (a b) : IssuesAs (.mread a b) := ⟨_, _, fun _ => rfl⟩
theorem issuesAs_mld (a b c d e) : IssuesAs (.mld a b c d e) := ⟨_, _, fun _ => rfl⟩
theorem issuesAs_msets (a) : IssuesAs (.msets a) := ⟨_, _, fun _ => rfl⟩
theorem issuesAs_hadq (a b c d e f) : IssuesAs (.hadq a b c d e f) := ⟨_, _, fun _ => rfl⟩
theorem issuesAs_mcbt (a b c) : IssuesAs (.mcbt a b c) := ⟨_, _, fun _ => rfl⟩
theorem issuesAs_march (a b c d e f) : IssuesAs (.march a b c d e f) := ⟨_, _, fun _ => rfl⟩
theorem issuesAs_hgrid (a b c d e f) : IssuesAs (.hgrid a b c d e f) := ⟨_, _, fun _ => rfl⟩
theorem issuesAs_idot4 (a b c d) : IssuesAs (.idot4 a b c d) := ⟨_, _, fun _ => rfl⟩
theorem issuesAs_ndot4 (a b c d) : IssuesAs (.ndot4 a b c d) := ⟨_, _, fun _ => rfl⟩
theorem issuesAs_idot8 (a b c d) : IssuesAs (.idot8 a b c d) := ⟨_, _, fun _ => rfl⟩
theorem issuesAs_idist4 (a b c d) : IssuesAs (.idist4 a b c d) := ⟨_, _, fun _ => rfl⟩
theorem issuesAs_fdot4e4 (a b c d) : IssuesAs (.fdot4e4 a b c d) := ⟨_, _, fun _ => rfl⟩
theorem issuesAs_fdot4e5 (a b c d) : IssuesAs (.fdot4e5 a b c d) := ⟨_, _, fun _ => rfl⟩
theorem issuesAs_hdot2 (a b c d) : IssuesAs (.hdot2 a b c d) := ⟨_, _, fun _ => rfl⟩
theorem issuesAs_kinit (a b c) : IssuesAs (.kinit a b c) := ⟨_, _, fun _ => rfl⟩
theorem issuesAs_kins (a b) : IssuesAs (.kins a b) := ⟨_, _, fun _ => rfl⟩
theorem issuesAs_kmrg (a b) : IssuesAs (.kmrg a b) := ⟨_, _, fun _ => rfl⟩
theorem issuesAs_krd (a b) : IssuesAs (.krd a b) := ⟨_, _, fun _ => rfl⟩
theorem issuesAs_srd (a b) : IssuesAs (.srd a b) := ⟨_, _, fun _ => rfl⟩
theorem issuesAs_swr (a b) : IssuesAs (.swr a b) := ⟨_, _, fun _ => rfl⟩
theorem issuesAs_trapAssert (a b) : IssuesAs (.trapAssert a b) := ⟨_, _, fun _ => rfl⟩
theorem issuesAs_trapUser (a) : IssuesAs (.trapUser a) := ⟨_, _, fun _ => rfl⟩
theorem issuesAs_bkpt : IssuesAs (.bkpt) := ⟨_, _, fun _ => rfl⟩
theorem issuesAs_rft : IssuesAs (.rft) := ⟨_, _, fun _ => rfl⟩
theorem issuesAs_savew (a b) : IssuesAs (.savew a b) := ⟨_, _, fun _ => rfl⟩
theorem issuesAs_restw (a b) : IssuesAs (.restw a b) := ⟨_, _, fun _ => rfl⟩
theorem issuesAs_ipref (a b) : IssuesAs (.ipref a b) := ⟨_, _, fun _ => rfl⟩
theorem issuesAs_bset (a b) : IssuesAs (.bset a b) := ⟨_, _, fun _ => rfl⟩
theorem issuesAs_bget (a b) : IssuesAs (.bget a b) := ⟨_, _, fun _ => rfl⟩
theorem issuesAs_sched (a) : IssuesAs (.sched a) := ⟨_, _, fun _ => rfl⟩
theorem issuesAs_ximm (a) : IssuesAs (.ximm a) := ⟨_, _, fun _ => rfl⟩
theorem issuesAs_xsrc (a b) : IssuesAs (.xsrc a b) := ⟨_, _, fun _ => rfl⟩
theorem issuesAs_xmod (a b c d e f g h i) : IssuesAs (.xmod a b c d e f g h i) := ⟨_, _, fun _ => rfl⟩
theorem issuesAs_pred (a b) : IssuesAs (.pred a b) := ⟨_, _, fun _ => rfl⟩

/-- Every encoded instruction is issued as its form says. -/
theorem encoded_issues (i : Instr) (enc : i.encoded = true) : IssuesAs i := by
  cases i with
  | iadd a b c d e f => exact issuesAs_iadd a b c d e f
  | isub a b c d e f => exact issuesAs_isub a b c d e f
  | imul a b c d e f => exact issuesAs_imul a b c d e f
  | imulhI a b c d e f => exact issuesAs_imulhI a b c d e f
  | imulhN a b c d e f => exact issuesAs_imulhN a b c d e f
  | iminI a b c d e f => exact issuesAs_iminI a b c d e f
  | imaxI a b c d e f => exact issuesAs_imaxI a b c d e f
  | iminN a b c d e f => exact issuesAs_iminN a b c d e f
  | imaxN a b c d e f => exact issuesAs_imaxN a b c d e f
  | and a b c d e f => exact issuesAs_and a b c d e f
  | or a b c d e f => exact issuesAs_or a b c d e f
  | xor a b c d e f => exact issuesAs_xor a b c d e f
  | shl a b c d e f => exact issuesAs_shl a b c d e f
  | shrN a b c d e f => exact issuesAs_shrN a b c d e f
  | shrI a b c d e f => exact issuesAs_shrI a b c d e f
  | rotl a b c d e f => exact issuesAs_rotl a b c d e f
  | imac a b c d e f => exact issuesAs_imac a b c d e f
  | iaddi a b c d => exact issuesAs_iaddi a b c d
  | imuli a b c d => exact issuesAs_imuli a b c d
  | andi a b c d => exact issuesAs_andi a b c d
  | ori a b c d => exact issuesAs_ori a b c d
  | xori a b c d => exact issuesAs_xori a b c d
  | shli a b c d => exact issuesAs_shli a b c d
  | shriN a b c d => exact issuesAs_shriN a b c d
  | shriI a b c d => exact issuesAs_shriI a b c d
  | movi a b => exact issuesAs_movi a b
  | mov a b c d => exact issuesAs_mov a b c d
  | ineg a b c d => exact issuesAs_ineg a b c d
  | iabs a b c d => exact issuesAs_iabs a b c d
  | not a b c d => exact issuesAs_not a b c d
  | popc a b c d => exact issuesAs_popc a b c d
  | clz a b c d => exact issuesAs_clz a b c d
  | ctz a b c d => exact issuesAs_ctz a b c d
  | brev a b c d => exact issuesAs_brev a b c d
  | bswap a b c d => exact issuesAs_bswap a b c d
  | sext8 a b c d => exact issuesAs_sext8 a b c d
  | sext16 a b c d => exact issuesAs_sext16 a b c d
  | zext8 a b c d => exact issuesAs_zext8 a b c d
  | zext16 a b c d => exact issuesAs_zext16 a b c d
  | bfe a b c d e f => exact issuesAs_bfe a b c d e f
  | bfi a b c d e f => exact issuesAs_bfi a b c d e f
  | prmt a b c d e f => exact issuesAs_prmt a b c d e f
  | sel a b c d e f => exact issuesAs_sel a b c d e f
  | fadd a b c d e f => exact issuesAs_fadd a b c d e f
  | fsub a b c d e f => exact issuesAs_fsub a b c d e f
  | fmul a b c d e f => exact issuesAs_fmul a b c d e f
  | fmac a b c d e f => exact issuesAs_fmac a b c d e f
  | fmin a b c d e f => exact issuesAs_fmin a b c d e f
  | fmax a b c d e f => exact issuesAs_fmax a b c d e f
  | fneg a b c d => exact issuesAs_fneg a b c d
  | fabs a b c d => exact issuesAs_fabs a b c d
  | frndn a b c d => exact issuesAs_frndn a b c d
  | frndz a b c d => exact issuesAs_frndz a b c d
  | frndd a b c d => exact issuesAs_frndd a b c d
  | frndu a b c d => exact issuesAs_frndu a b c d
  | ffrac a b c d => exact issuesAs_ffrac a b c d
  | fclass a b c d => exact issuesAs_fclass a b c d
  | fsat a b c d => exact issuesAs_fsat a b c d
  | fscale a b c d e f => exact issuesAs_fscale a b c d e f
  | hadd2F16 a b c d e f => exact issuesAs_hadd2F16 a b c d e f
  | hmul2F16 a b c d e f => exact issuesAs_hmul2F16 a b c d e f
  | hmac2F16 a b c d e f => exact issuesAs_hmac2F16 a b c d e f
  | hmin2F16 a b c d e f => exact issuesAs_hmin2F16 a b c d e f
  | hmax2F16 a b c d e f => exact issuesAs_hmax2F16 a b c d e f
  | hadd2Bf16 a b c d e f => exact issuesAs_hadd2Bf16 a b c d e f
  | hmul2Bf16 a b c d e f => exact issuesAs_hmul2Bf16 a b c d e f
  | hmac2Bf16 a b c d e f => exact issuesAs_hmac2Bf16 a b c d e f
  | hmin2Bf16 a b c d e f => exact issuesAs_hmin2Bf16 a b c d e f
  | hmax2Bf16 a b c d e f => exact issuesAs_hmax2Bf16 a b c d e f
  | rcp a b c d => exact issuesAs_rcp a b c d
  | rsq a b c d => exact issuesAs_rsq a b c d
  | sqrt a b c d => exact issuesAs_sqrt a b c d
  | exp2 a b c d => exact issuesAs_exp2 a b c d
  | log2 a b c d => exact issuesAs_log2 a b c d
  | sint a b c d => exact issuesAs_sint a b c d
  | cost a b c d => exact issuesAs_cost a b c d
  | tanh a b c d => exact issuesAs_tanh a b c d
  | rcph2 a b c d => exact issuesAs_rcph2 a b c d
  | exph2 a b c d => exact issuesAs_exph2 a b c d
  | i2f a b c d => exact issuesAs_i2f a b c d
  | n2f a b c d => exact issuesAs_n2f a b c d
  | f2in a b c d => exact issuesAs_f2in a b c d
  | f2iz a b c d => exact issuesAs_f2iz a b c d
  | f2id a b c d => exact issuesAs_f2id a b c d
  | f2iu a b c d => exact issuesAs_f2iu a b c d
  | f2nn a b c d => exact issuesAs_f2nn a b c d
  | f2nz a b c d => exact issuesAs_f2nz a b c d
  | h2fl a b c d => exact issuesAs_h2fl a b c d
  | h2fh a b c d => exact issuesAs_h2fh a b c d
  | b2fl a b c d => exact issuesAs_b2fl a b c d
  | b2fh a b c d => exact issuesAs_b2fh a b c d
  | f2h a b c d => exact issuesAs_f2h a b c d
  | f2b a b c d => exact issuesAs_f2b a b c d
  | cvtpF16 a b c d e f => exact issuesAs_cvtpF16 a b c d e f
  | cvtpBf16 a b c d e f => exact issuesAs_cvtpBf16 a b c d e f
  | cvtq a b c d e f => exact issuesAs_cvtq a b c d e f
  | cvtx a b c d e => exact issuesAs_cvtx a b c d e
  | icmpI a b c d => exact issuesAs_icmpI a b c d
  | icmpN a b c d => exact issuesAs_icmpN a b c d
  | fcmp a b c d => exact issuesAs_fcmp a b c d
  | hcmp2 a b c d => exact issuesAs_hcmp2 a b c d
  | plog a b c d => exact issuesAs_plog a b c d
  | v2p a b c d => exact issuesAs_v2p a b c d
  | p2v a b c d => exact issuesAs_p2v a b c d
  | prd a b => exact issuesAs_prd a b
  | pwr a b c => exact issuesAs_pwr a b c
  | all a b c d => exact issuesAs_all a b c d
  | any a b c d => exact issuesAs_any a b c d
  | ballot a b c d => exact issuesAs_ballot a b c d
  | matchLanes a b c d => exact issuesAs_matchLanes a b c d
  | lcount a b => exact issuesAs_lcount a b
  | shflIdx a b c d e f => exact issuesAs_shflIdx a b c d e f
  | shflXor a b c d e f => exact issuesAs_shflXor a b c d e f
  | shflXw a b c d e f => exact issuesAs_shflXw a b c d e f
  | reduce a b c d e => exact issuesAs_reduce a b c d e
  | scan a b c d e => exact issuesAs_scan a b c d e
  | bra a => exact issuesAs_bra a
  | brp a b c => exact issuesAs_brp a b c
  | call a => exact issuesAs_call a
  | jmpi a b c => exact issuesAs_jmpi a b c
  | ret a b => exact issuesAs_ret a b
  | exit => exact issuesAs_exit
  | wsync => exact issuesAs_wsync
  | barSync a => exact issuesAs_barSync a
  | barArrive a => exact issuesAs_barArrive a
  | barWait a => exact issuesAs_barWait a
  | barCsync => exact issuesAs_barCsync
  | nop => exact issuesAs_nop
  | yield => exact issuesAs_yield
  | sleep a => exact issuesAs_sleep a
  | ld a b c d e f => exact issuesAs_ld a b c d e f
  | st a b c d e f => exact issuesAs_st a b c d e f
  | lds a b c d e f => exact issuesAs_lds a b c d e f
  | sts a b c d e f => exact issuesAs_sts a b c d e f
  | ldfe a b c d e f => exact issuesAs_ldfe a b c d e f
  | stfe a b c d e f => exact issuesAs_stfe a b c d e f
  | atom a b c d e f => exact issuesAs_atom a b c d e f
  | red a b c d e f => exact issuesAs_red a b c d e f
  | atoms a b c d e f => exact issuesAs_atoms a b c d e f
  | cstore a b c d e f => exact issuesAs_cstore a b c d e f
  | fence a b => exact issuesAs_fence a b
  | xfence a b => exact issuesAs_xfence a b
  | lock a b c d => exact issuesAs_lock a b c d
  | unlock a b c d => exact issuesAs_unlock a b c d
  | pref a b c d e => exact issuesAs_pref a b c d e
  | est a b c => exact issuesAs_est a b c
  | eld a b c => exact issuesAs_eld a b c
  | emrg a b => exact issuesAs_emrg a b
  | eclr a b => exact issuesAs_eclr a b
  | esweep a b => exact issuesAs_esweep a b
  | escene a => exact issuesAs_escene a
  | eraw a b => exact issuesAs_eraw a b
  | einit a b => exact issuesAs_einit a b
  | qpush a b c => exact issuesAs_qpush a b c
  | rwait a b => exact issuesAs_rwait a b
  | rrel a b => exact issuesAs_rrel a b
  | launch a b c => exact issuesAs_launch a b c
  | ordwait a b => exact issuesAs_ordwait a b
  | ordtake a => exact issuesAs_ordtake a
  | markImm a => exact issuesAs_markImm a
  | markReg a => exact issuesAs_markReg a
  | cont a b => exact issuesAs_cont a b
  | trav a b c => exact issuesAs_trav a b c
  | tnew a b c d => exact issuesAs_tnew a b c d
  | tcut a b c => exact issuesAs_tcut a b c
  | tret a => exact issuesAs_tret a
  | tfrd a b c => exact issuesAs_tfrd a b c
  | tfwr a b c => exact issuesAs_tfwr a b c
  | tstat a b c => exact issuesAs_tstat a b c
  | mma a b c d e => exact issuesAs_mma a b c d e
  | mclaim a b c => exact issuesAs_mclaim a b c
  | mrel a b => exact issuesAs_mrel a b
  | mzero a b => exact issuesAs_mzero a b
  | mrow a b => exact issuesAs_mrow a b
  | mread a b => exact issuesAs_mread a b
  | mld a b c d e => exact issuesAs_mld a b c d e
  | msets a => exact issuesAs_msets a
  | hadq a b c d e f => exact issuesAs_hadq a b c d e f
  | mcbt a b c => exact issuesAs_mcbt a b c
  | march a b c d e f => exact issuesAs_march a b c d e f
  | hgrid a b c d e f => exact issuesAs_hgrid a b c d e f
  | idot4 a b c d => exact issuesAs_idot4 a b c d
  | ndot4 a b c d => exact issuesAs_ndot4 a b c d
  | idot8 a b c d => exact issuesAs_idot8 a b c d
  | idist4 a b c d => exact issuesAs_idist4 a b c d
  | fdot4e4 a b c d => exact issuesAs_fdot4e4 a b c d
  | fdot4e5 a b c d => exact issuesAs_fdot4e5 a b c d
  | hdot2 a b c d => exact issuesAs_hdot2 a b c d
  | kinit a b c => exact issuesAs_kinit a b c
  | kins a b => exact issuesAs_kins a b
  | kmrg a b => exact issuesAs_kmrg a b
  | krd a b => exact issuesAs_krd a b
  | srd a b => exact issuesAs_srd a b
  | swr a b => exact issuesAs_swr a b
  | trapAssert a b => exact issuesAs_trapAssert a b
  | trapUser a => exact issuesAs_trapUser a
  | bkpt => exact issuesAs_bkpt
  | rft => exact issuesAs_rft
  | savew a b => exact issuesAs_savew a b
  | restw a b => exact issuesAs_restw a b
  | ipref a b => exact issuesAs_ipref a b
  | bset a b => exact issuesAs_bset a b
  | bget a b => exact issuesAs_bget a b
  | sched a => exact issuesAs_sched a
  | ximm a => exact issuesAs_ximm a
  | xsrc a b => exact issuesAs_xsrc a b
  | xmod a b c d e f g h i => exact issuesAs_xmod a b c d e f g h i
  | pred a b => exact issuesAs_pred a b
  | _ => cases enc

end Sys2Proof.Machine
end

