-- ==== Sys2Proof/Laws/Lanes.lean ====
section
/-!
SUPPORT. Laws of lanes, waves and tables of the state: reading what an update has written, and what it leaves.
-/

namespace Sys2Proof.Machine

/-! ## Lists -/

theorem length_listUpd {α : Type} (f : α → α) : ∀ (xs : List α) (i : Nat), (listUpd xs i f).length = xs.length
  | [], _ => rfl
  | _ :: _, 0 => rfl
  | _ :: xs, i + 1 => by simp [listUpd, length_listUpd f xs i]

theorem getD_listUpd {α : Type} (f : α → α) (z : α) : ∀ (xs : List α) (i k : Nat),
    (listUpd xs i f).getD k z = if k = i ∧ i < xs.length then f (xs.getD k z) else xs.getD k z
  | [], i, k => by simp [listUpd]
  | x :: xs, 0, 0 => by simp [listUpd]
  | x :: xs, 0, k + 1 => by simp [listUpd]
  | x :: xs, i + 1, 0 => by simp [listUpd]
  | x :: xs, i + 1, k + 1 => by simpa [listUpd] using getD_listUpd f z xs i k

/-! ## Registers and predicates of a lane -/

theorem reg_set (l : Lane) (n k : Nat) (x : Word) :
    (l.set n x).reg k = if k = n ∧ n < l.regs.length then { l.reg k with val := x, full := true, fault := false } else l.reg k :=
  getD_listUpd _ _ l.regs n k

@[simp] theorem reg_adv (l : Lane) (k : Nat) : l.adv.reg k = l.reg k := rfl
@[simp] theorem length_set (l : Lane) (n : Nat) (x : Word) : (l.set n x).regs.length = l.regs.length := length_listUpd _ _ _

theorem reg_set_other (l : Lane) {n k : Nat} (x : Word) (h : k ≠ n) : (l.set n x).reg k = l.reg k := by
  rw [reg_set, if_neg (fun e => h e.1)]

theorem reg_set_same (l : Lane) {n : Nat} (x : Word) (h : n < l.regs.length) :
    (l.set n x).reg n = { l.reg n with val := x, full := true, fault := false } := by rw [reg_set, if_pos ⟨rfl, h⟩]

/-- Writing a predicate (R202). -/
theorem p_setP (l : Lane) (n k : Nat) (b : Bool) (hn : n < 128) : (l.setP n b).p k = if k = n then (n == 0 || b) else l.p k := by
  unfold Lane.setP Lane.p
  by_cases h0 : n = 0
  · subst h0
    by_cases hk : k = 0 <;> simp [hk]
  · simp only [h0, if_false]
    by_cases hk : k = n
    · subst hk
      cases b <;> simp [hn]
    · have hk' : ¬ n = k := fun e => hk e.symm
      cases b
      · simp only [Bool.false_eq_true, if_false, hk]
        by_cases hk1 : k < 128
        · simp only [BitVec.getLsbD_and, BitVec.getLsbD_not, BitVec.getLsbD_shiftLeft, BitVec.getLsbD_one, hk1]
          by_cases hl : k < n
          · simp [hl]
          · have : ¬ (k - n = 0) := by omega
            simp [hl, this]
        · simp [BitVec.getLsbD_of_ge, Nat.le_of_not_lt hk1]
      · simp only [if_true, hk]
        by_cases hk1 : k < 128
        · simp only [BitVec.getLsbD_or, BitVec.getLsbD_shiftLeft, BitVec.getLsbD_one, hk1]
          by_cases hl : k < n
          · simp [hl]
          · have : ¬ (k - n = 0) := by omega
            simp [hl, this]
        · simp [BitVec.getLsbD_of_ge, Nat.le_of_not_lt hk1]

theorem reg_mark (l : Lane) (pc : Word) : ∀ (n k r : Nat), n + k ≤ l.regs.length →
    (l.mark pc n k).reg r = if n ≤ r ∧ r < n + k then { l.reg r with full := false, fault := false, tag := pc } else l.reg r
  | n, 0, r, _ => by rw [Lane.mark, if_neg (by omega)]
  | n, k + 1, r, h => by
    let l1 : Lane := { l with regs := listUpd l.regs n (fun r => { r with full := false, fault := false, tag := pc }) }
    have hlen : l1.regs.length = l.regs.length := length_listUpd _ _ _
    have h1 : l1.reg r = if r = n ∧ n < l.regs.length then { l.reg r with full := false, fault := false, tag := pc } else l.reg r :=
      getD_listUpd _ _ l.regs n r
    have ih := reg_mark l1 pc (n + 1) k r (by rw [hlen]; omega)
    show (l1.mark pc (n + 1) k).reg r = _
    by_cases hr : r = n
    · subst hr
      have a : ¬ (r + 1 ≤ r ∧ r < r + 1 + k) := by omega
      have b : r ≤ r ∧ r < r + (k + 1) := by omega
      have c : r = r ∧ r < l.regs.length := ⟨rfl, by omega⟩
      rw [ih, if_neg a, h1, if_pos c, if_pos b]
    · have c : ¬ (r = n ∧ n < l.regs.length) := fun e => hr e.1
      rw [if_neg c] at h1
      rw [h1] at ih
      rw [ih]
      by_cases h2 : n + 1 ≤ r ∧ r < n + 1 + k
      · have b : n ≤ r ∧ r < n + (k + 1) := by omega
        rw [if_pos h2, if_pos b]
      · have b : ¬ (n ≤ r ∧ r < n + (k + 1)) := by omega
        rw [if_neg h2, if_neg b]

/-! ## Lanes of a wave -/

@[simp] theorem length_updLane (w : Wave) (L : Nat) (f : Lane → Lane) : (w.updLane L f).lanes.length = w.lanes.length :=
  length_listUpd f w.lanes L
@[simp] theorem uid_updLane (w : Wave) (L : Nat) (f : Lane → Lane) : (w.updLane L f).uid = w.uid := rfl

theorem lane_updLane (w : Wave) (L K : Nat) (f : Lane → Lane) :
    (w.updLane L f).lane K = if K = L ∧ L < w.lanes.length then f (w.lane K) else w.lane K :=
  getD_listUpd f {} w.lanes L K

theorem length_foldUpd {α : Type} (key : α → Nat) (g : α → Lane → Lane) : ∀ (rs : List α) (w : Wave),
    (rs.foldl (fun w r => w.updLane (key r) (g r)) w).lanes.length = w.lanes.length
  | [], _ => rfl
  | r :: rs, w => by rw [List.foldl_cons, length_foldUpd key g rs]; exact length_updLane _ _ _

theorem lane_foldUpd_out {α : Type} (key : α → Nat) (g : α → Lane → Lane) (K : Nat) : ∀ (rs : List α) (w : Wave),
    K ∉ rs.map key → (rs.foldl (fun w r => w.updLane (key r) (g r)) w).lane K = w.lane K
  | [], _, _ => rfl
  | r :: rs, w, h => by
    simp only [List.map_cons, List.mem_cons, not_or] at h
    rw [List.foldl_cons, lane_foldUpd_out key g K rs _ h.2, lane_updLane, if_neg (fun e => h.1 e.1)]

theorem lane_foldUpd_in {α : Type} (key : α → Nat) (g : α → Lane → Lane) {r : α} : ∀ (rs : List α) (w : Wave),
    r ∈ rs → (rs.map key).Nodup → key r < w.lanes.length →
    (rs.foldl (fun w r => w.updLane (key r) (g r)) w).lane (key r) = g r (w.lane (key r))
  | [], _, h, _, _ => by cases h
  | x :: rs, w, h, hn, hl => by
    rw [List.map_cons, List.nodup_cons] at hn
    rw [List.foldl_cons]
    rcases List.mem_cons.mp h with e | e
    · subst e
      rw [lane_foldUpd_out key g (key r) rs _ hn.1, lane_updLane, if_pos ⟨rfl, hl⟩]
    · have hne : key r ≠ key x := fun e' => hn.1 (e' ▸ List.mem_map_of_mem e)
      rw [lane_foldUpd_in key g rs _ e hn.2 (by simpa using hl), lane_updLane, if_neg (fun e => hne e.1)]

/-- An update that keeps the wave but for its lanes keeps it whole but for them. -/
theorem foldUpd_eq {α : Type} (key : α → Nat) (g : α → Lane → Lane) : ∀ (rs : List α) (w : Wave),
    ∃ ls, rs.foldl (fun w r => w.updLane (key r) (g r)) w = { w with lanes := ls }
  | [], w => ⟨w.lanes, rfl⟩
  | r :: rs, w => by
    obtain ⟨ls, h⟩ := foldUpd_eq key g rs (w.updLane (key r) (g r))
    exact ⟨ls, by rw [List.foldl_cons, h]; rfl⟩

/-! ## The minimum-PC set (R198) -/

theorem mem_eligible_lt {w : Wave} {L : Nat} (h : L ∈ w.eligible) : L < w.lanes.length :=
  List.mem_range.mp (List.mem_of_mem_filter h)
theorem mem_minSet_lt {w : Wave} {L : Nat} (h : L ∈ w.minSet) : L < w.lanes.length := mem_eligible_lt (List.mem_of_mem_filter h)
theorem minSet_nodup (w : Wave) : w.minSet.Nodup := (List.nodup_range.filter _).filter _
theorem mem_minSet_run {w : Wave} {L : Nat} (h : L ∈ w.minSet) : (w.lane L).st = .run := by
  have h1 := (List.mem_filter.mp (List.mem_of_mem_filter h)).2
  simp only [Wave.laneOn, Bool.and_eq_true, beq_iff_eq] at h1
  exact h1.1

/-! ## Waves of the state -/

theorem find_map_key {α : Type} (key : α → Nat) (f : α → α) (hf : ∀ a, key (f a) = key a) (n : Nat) : ∀ (xs : List α),
    (xs.map (fun a => if key a == n then f a else a)).find? (fun a => key a == n) = (xs.find? (fun a => key a == n)).map f
  | [] => rfl
  | x :: xs => by
    by_cases h : key x = n
    · have h' : key (f x) = n := (hf x).trans h
      simp [h, h']
    · simpa [h] using find_map_key key f hf n xs

theorem find_map_other {α : Type} (key : α → Nat) (f : α → α) (hf : ∀ a, key (f a) = key a) {n m : Nat} (hm : m ≠ n) : ∀ (xs : List α),
    (xs.map (fun a => if key a == n then f a else a)).find? (fun a => key a == m) = xs.find? (fun a => key a == m)
  | [] => rfl
  | x :: xs => by
    have ih := find_map_other key f hf hm xs
    by_cases h : key x = n
    · have h1 : ¬ key x = m := fun e => hm (e.symm.trans h)
      have h2 : ¬ key (f x) = m := by rw [hf]; exact h1
      simpa [h, h1, h2, hm.symm] using ih
    · by_cases h1 : key x = m
      · simp [h1, hm]
      · simpa [h, h1] using ih

theorem wave_updWave (s : State) (uid : Nat) (f : Wave → Wave) (hf : ∀ w, (f w).uid = w.uid) :
    (s.updWave uid f).wave? uid = (s.wave? uid).map f := find_map_key Wave.uid f hf uid s.waves
theorem wave_updWave_other (s : State) {uid v : Nat} (f : Wave → Wave) (hf : ∀ w, (f w).uid = w.uid) (h : v ≠ uid) :
    (s.updWave uid f).wave? v = s.wave? v := find_map_other Wave.uid f hf h s.waves
theorem team_updTeam (s : State) (tid : Nat) (f : Team → Team) (hf : ∀ t, (f t).tid = t.tid) :
    (s.updTeam tid f).team? tid = (s.team? tid).map f := find_map_key Team.tid f hf tid s.teams
theorem team_updTeam_other (s : State) {tid v : Nat} (f : Team → Team) (hf : ∀ t, (f t).tid = t.tid) (h : v ≠ tid) :
    (s.updTeam tid f).team? v = s.team? v := find_map_other Team.tid f hf h s.teams
theorem grid_updGrid (s : State) (gid : Nat) (f : Grid → Grid) (hf : ∀ g, (f g).gid = g.gid) :
    (s.updGrid gid f).grid? gid = (s.grid? gid).map f := find_map_key Grid.gid f hf gid s.grids
theorem grid_updGrid_other (s : State) {gid v : Nat} (f : Grid → Grid) (hf : ∀ g, (f g).gid = g.gid) (h : v ≠ gid) :
    (s.updGrid gid f).grid? v = s.grid? v := find_map_other Grid.gid f hf h s.grids
theorem stk_updStk (s : State) (n : Nat) (f : Stack → Stack) (hf : ∀ k, (f k).handle = k.handle) :
    (s.updStk n f).stk? n = (s.stk? n).map f := find_map_key Stack.handle f hf n s.stks
theorem out_updOut (s : State) (n : Nat) (f : OutPkt → OutPkt) (hf : ∀ o, (f o).id = o.id) :
    (s.updOut n f).out? n = (s.out? n).map f := find_map_key OutPkt.id f hf n s.outs

theorem wave_uid {s : State} {uid : Nat} {w : Wave} (h : s.wave? uid = some w) : w.uid = uid := by
  have := List.find?_some h
  simpa using this

/-- Two updates of one wave are one. -/
theorem updWave_updWave (s : State) (uid : Nat) (f g : Wave → Wave) (hf : ∀ w, (f w).uid = w.uid) :
    (s.updWave uid f).updWave uid g = s.updWave uid (fun w => g (f w)) := by
  unfold State.updWave
  congr 1
  rw [List.map_map]
  apply List.map_congr_left
  intro w _
  by_cases h : w.uid = uid <;> simp [Function.comp, h, hf]

end Sys2Proof.Machine
end

