-- ==== Sys2Proof/Laws/Issue.lean ====
section
/-!
SUPPORT. What issuing an instruction does, said once: the state it leaves when no lane waits or traps, and what every such
issue leaves as it was.
-/

namespace Sys2Proof.Machine

/-! ## The fates of a set (R288) -/

theorem runsOf_eq (s : State) (w : Wave) (ff : FormF) (set : List Nat) :
    runsOf (fatesOf s w ff set) = set.filter (fun L => fate s w ff (w.lane L) == .run) := by
  induction set with
  | nil => rfl
  | cons L r ih =>
    simp only [fatesOf, List.map_cons, runsOf, List.filterMap_cons, List.filter_cons] at ih ⊢
    cases h : fate s w ff (w.lane L) <;> simp [ih]

theorem skipsOf_eq (s : State) (w : Wave) (ff : FormF) (set : List Nat) :
    skipsOf (fatesOf s w ff set) = set.filter (fun L => fate s w ff (w.lane L) == .skip) := by
  induction set with
  | nil => rfl
  | cons L r ih =>
    simp only [fatesOf, List.map_cons, skipsOf, List.filterMap_cons, List.filter_cons] at ih ⊢
    cases h : fate s w ff (w.lane L) <;> simp [ih]

theorem anyWait_ready {s : State} {w : Wave} {ff : FormF} (h : Ready s w ff) : anyWait (fatesOf s w ff w.minSet) = false := by
  rw [anyWait, List.any_eq_false]
  intro x hx
  obtain ⟨L, hL, rfl⟩ := List.mem_map.mp hx
  rcases h L hL with e | e <;> simp [e]

theorem trapsOf_ready {s : State} {w : Wave} {ff : FormF} (h : Ready s w ff) (b : Bool) : trapsOf (fatesOf s w ff w.minSet) b = [] := by
  rw [trapsOf, List.filterMap_eq_nil_iff]
  intro x hx
  obtain ⟨L, hL, rfl⟩ := List.mem_map.mp hx
  rcases h L hL with e | e <;> simp [e]

/-- The lanes that only advance. -/
def skipping (s : State) (w : Wave) (ff : FormF) : List Nat := w.minSet.filter (fun L => fate s w ff (w.lane L) == .skip)
/-- The state in which the executing lanes perform: those whose guard fails have advanced. -/
def State.skipped (s : State) (w : Wave) (ff : FormF) : State :=
  s.updWave w.uid (fun v => (skipping s w ff).foldl (fun v L => v.updLane L Lane.adv) v)

theorem mem_executing {s : State} {w : Wave} {ff : FormF} {L : Nat} :
    L ∈ executing s w ff ↔ L ∈ w.minSet ∧ fate s w ff (w.lane L) = .run := by
  simp [executing, List.mem_filter]
theorem mem_skipping {s : State} {w : Wave} {ff : FormF} {L : Nat} :
    L ∈ skipping s w ff ↔ L ∈ w.minSet ∧ fate s w ff (w.lane L) = .skip := by
  simp [skipping, List.mem_filter]
theorem executing_nodup (s : State) (w : Wave) (ff : FormF) : (executing s w ff).Nodup := (minSet_nodup w).filter _
theorem skipping_nodup (s : State) (w : Wave) (ff : FormF) : (skipping s w ff).Nodup := (minSet_nodup w).filter _
theorem skipping_not_executing {s : State} {w : Wave} {ff : FormF} {L : Nat} (h : L ∈ executing s w ff) : L ∉ skipping s w ff := by
  intro e
  have h1 := (mem_executing.mp h).2
  rw [(mem_skipping.mp e).2] at h1
  cases h1

/-- What issuing an instruction leaves when no lane of its set waits or traps before it executes, and no unit makes it wait:
the executing lanes perform, the traps they raise are taken, and the issue is noted. -/
theorem issue_ready {s : State} {w : Wave} {ff : FormF} {busy : State → Iss → Option State} {body : Iss → State → State × Traps}
    (hi : Issuing s w) (hr : Ready s w ff) (hb : executing s w ff = [] ∨ busy s (issueOf s w ff) = none) :
    s.issue ff busy body =
      let r := if executing s w ff = [] then (s.skipped w ff, []) else body (issueOf s w ff) (s.skipped w ff)
      ((r.1.takeTraps w.uid (orderTraps r.2)).noteIssue w (s.teamOf w) w.minSet (ff {} false).isHint).stepHalt w.uid := by
  unfold State.issue
  simp only [hi.cur, hi.found, if_neg hi.nonempty, anyWait_ready hr, trapsOf_ready hr, List.nil_append, runsOf_eq, skipsOf_eq, Bool.false_eq_true, if_false]
  have hbusy : (if executing s w ff = [] then none else busy s (issueOf s w ff)) = none := by
    split
    · rfl
    · rename_i h; exact hb.resolve_left h
  unfold executing issueOf at hbusy
  unfold executing at hbusy
  simp only [hbusy]
  rfl

/-! ## Noting an issue -/

theorem takeTraps_nil (s : State) (uid : Nat) : s.takeTraps uid (orderTraps []) = s := by
  unfold State.takeTraps orderTraps
  simp only [List.filter_nil, List.flatMap_eq_nil_iff.mpr (fun _ _ => rfl)]
  split
  · rename_i h; cases h
  · rfl

/-- The lanes of the set have issued. -/
def Wave.clearBreaks (w : Wave) (set : List Nat) : Wave := set.foldl (fun w L => w.updLane L Lane.noted) w

theorem clearBreaks_lanes (w : Wave) (set : List Nat) :
    set.foldl (fun ls L => listUpd ls L Lane.noted) w.lanes = (w.clearBreaks set).lanes := by
  unfold Wave.clearBreaks
  induction set generalizing w with
  | nil => rfl
  | cons L r ih => exact ih (w.updLane L _)

theorem stepHalt_none {s : State} {uid : Nat} {w : Wave} (hw : s.wave? uid = some w) (h : ∀ l ∈ w.lanes, l.stepped = false) :
    s.stepHalt uid = s := by
  unfold State.stepHalt
  rw [hw]
  have hnil : (List.range w.lanes.length).filter (fun L => (w.lane L).stepped && (w.lane L).st == .run) = [] := by
    rw [List.filter_eq_nil_iff]
    intro L hL
    have hlt : L < w.lanes.length := List.mem_range.mp hL
    have : (w.lane L).stepped = false := by
      unfold Wave.lane
      rw [List.getD_eq_getElem _ _ hlt]
      exact h _ (List.getElem_mem hlt)
    simp [this]
  simp only [hnil, List.map_nil]
  unfold State.haltLanes
  split
  · rename_i h; cases h
  · rfl

/-- The wave after its issue has been noted. -/
def Wave.noted (x : Wave) (cycle : Nat) (hint : Bool) (w : Wave) : Wave :=
  let eff := if hint then 0 else (w.minSet.map (fun L => schedOf (w.lane L).hints)).foldl max 0
  { x with
    lastIssue := cycle, issPc := (w.lane (w.minSet.headD 0)).pc, issLanes := lanesMask w.minSet
    sched := if eff = 0 && x.schedAt == cycle then x.sched else eff, schedAt := cycle
    lanes := (x.clearBreaks w.minSet).lanes }

theorem noteIssue_eq (s : State) (w : Wave) (t : Team) (hint : Bool) :
    s.noteIssue w t w.minSet hint =
      { (s.updWave w.uid (fun x => x.noted (s.dieCycle t.die) hint w)) with
        issued := quadOf t w :: s.issued
        dbg := (({ s with issued := quadOf t w :: s.issued } : State).addActivity t.die t.ctx 32).dbg } := by
  unfold State.noteIssue Wave.noted State.addActivity
  simp only [clearBreaks_lanes]
  rfl

theorem lane_clearBreaks_in {w : Wave} {set : List Nat} {L : Nat} (h : L ∈ set) (hn : set.Nodup) (hl : L < w.lanes.length) :
    (w.clearBreaks set).lane L = (w.lane L).noted :=
  lane_foldUpd_in (fun L => L) (fun _ => Lane.noted) set w h (by simpa using hn) hl
theorem lane_clearBreaks_out {w : Wave} {set : List Nat} {L : Nat} (h : L ∉ set) : (w.clearBreaks set).lane L = w.lane L :=
  lane_foldUpd_out (fun L => L) (fun _ => Lane.noted) L set w (by simpa using h)
@[simp] theorem length_clearBreaks (w : Wave) (set : List Nat) : (w.clearBreaks set).lanes.length = w.lanes.length :=
  length_foldUpd (fun L => L) (fun _ => Lane.noted) set w

theorem lane_noted_in {x w : Wave} {c L : Nat} {b : Bool} (h : L ∈ w.minSet) (hl : L < x.lanes.length) :
    (x.noted c b w).lane L = (x.lane L).noted := lane_clearBreaks_in h (minSet_nodup w) hl
theorem lane_noted_out {x w : Wave} {c L : Nat} {b : Bool} (h : L ∉ w.minSet) : (x.noted c b w).lane L = x.lane L := lane_clearBreaks_out h
@[simp] theorem length_noted (x w : Wave) (c : Nat) (b : Bool) : (x.noted c b w).lanes.length = x.lanes.length := length_clearBreaks x w.minSet
@[simp] theorem less_noted (x w : Wave) (c : Nat) (b : Bool) : (x.noted c b w).less = x.less := rfl
@[simp] theorem less_updWave (s : State) (uid : Nat) (f : Wave → Wave) : (s.updWave uid f).less = s.less := rfl
@[simp] theorem less_noteIssue (s : State) (w : Wave) (t : Team) (hint : Bool) : (s.noteIssue w t w.minSet hint).less = s.less := by
  rw [noteIssue_eq]; rfl

/-! ## The waves other than the issuing one -/

theorem waves_updWave_other {s : State} {uid k : Nat} {v : Wave} (f : Wave → Wave) (h : s.waves[k]? = some v) (hv : v.uid ≠ uid) :
    (s.updWave uid f).waves[k]? = some v := by
  simp only [State.updWave, List.getElem?_map, h, Option.map_some]
  simp [hv]

theorem length_updWave (s : State) (uid : Nat) (f : Wave → Wave) : (s.updWave uid f).waves.length = s.waves.length := List.length_map _

/-! ## An instruction that performs without traps -/

/-- s2 is what the body of an instruction made of s: wave w is x there, its lanes out of the set are as before, and lanes whose
guard failed have advanced; no lane is stepped. -/
structure Performed (s s2 : State) (w x : Wave) (ff : FormF) : Prop where
  found : s2.wave? w.uid = some x
  size : x.lanes.length = w.lanes.length
  count : s2.waves.length = s.waves.length
  others : ∀ (k : Nat) (v : Wave), s.waves[k]? = some v → v.uid ≠ w.uid → s2.waves[k]? = some v
  out : ∀ L, L ∉ w.minSet → x.lane L = w.lane L
  skips : ∀ L ∈ w.minSet, fate s w ff (w.lane L) = .skip → x.lane L = (w.lane L).adv
  unstepped : ∀ L ∈ executing s w ff, (x.lane L).stepped = false
  clock : s2.pkg = s.pkg

theorem lane_mem {w : Wave} {L : Nat} (h : L < w.lanes.length) : w.lane L ∈ w.lanes := by
  unfold Wave.lane; rw [List.getD_eq_getElem _ _ h]; exact List.getElem_mem h

/-- The issue that follows such a body leaves what every issue leaves, with the executing lanes as the body made them. -/
theorem issued_of_performed {s s2 : State} {w x : Wave} {ff : FormF} {hint : Bool} (hi : Issuing s w) (hr : Ready s w ff)
    (hp : Performed s s2 w x ff) :
    let t := (s2.noteIssue w (s.teamOf w) w.minSet hint).stepHalt w.uid
    let w' := x.noted (s2.dieCycle (s.teamOf w).die) hint w
    t = s2.noteIssue w (s.teamOf w) w.minSet hint ∧ Issued s t w w' ff ∧ w'.less = x.less ∧
      ∀ L ∈ executing s w ff, w'.lane L = (x.lane L).noted := by
  intro t w'
  have hx : x.uid = w.uid := wave_uid hp.found
  have hlane : ∀ L ∈ w.minSet, w'.lane L = (x.lane L).noted := fun L h =>
    lane_noted_in h (by rw [hp.size]; exact mem_minSet_lt h)
  have hout : ∀ L, L ∉ w.minSet → w'.lane L = w.lane L := fun L h => (lane_noted_out h).trans (hp.out L h)
  have hfound : (s2.noteIssue w (s.teamOf w) w.minSet hint).wave? w.uid = some w' := by
    rw [noteIssue_eq]
    exact (wave_updWave s2 w.uid (fun y => y.noted (s2.dieCycle (s.teamOf w).die) hint w) (fun _ => rfl)).trans (by rw [hp.found]; rfl)
  have hst : t = s2.noteIssue w (s.teamOf w) w.minSet hint := by
    apply stepHalt_none hfound
    intro l hl
    obtain ⟨L, hL, rfl⟩ := List.getElem_of_mem hl
    have e : w'.lane L = w'.lanes[L] := by unfold Wave.lane; rw [List.getD_eq_getElem _ _ hL]
    rw [← e]
    have hlw : L < w.lanes.length := by
      have : w'.lanes.length = w.lanes.length := (length_noted x w _ hint).trans hp.size
      omega
    by_cases hm : L ∈ w.minSet
    · rw [hlane L hm]
      show (x.lane L).stepped = false
      rcases hr L hm with h | h
      · exact hp.unstepped L (mem_executing.mpr ⟨hm, h⟩)
      · rw [hp.skips L hm h]; exact (hi.unstepped _ (lane_mem hlw)).1
    · rw [hout L hm]; exact (hi.unstepped _ (lane_mem hlw)).2
  refine ⟨hst, ?_, rfl, fun L h => hlane L (mem_executing.mp h).1⟩
  rw [hst]
  refine ⟨hfound, ?_, ?_, ?_, hout, ?_, ?_, ?_⟩
  · exact (length_noted x w _ hint).trans hp.size
  · rw [noteIssue_eq]; exact (length_updWave s2 _ _).trans hp.count
  · intro k v hk hv
    rw [noteIssue_eq]
    exact waves_updWave_other _ (hp.others k v hk hv) hv
  · intro L hL hs
    rw [hlane L hL, hp.skips L hL hs]
  · show s2.dieCycle _ = s.dieCycle _
    unfold State.dieCycle; rw [hp.clock]
  · rw [noteIssue_eq]; exact List.mem_cons_self

/-! ## Bodies that change the wave -/

theorem uid_foldAdv (Ls : List Nat) (w : Wave) : (Ls.foldl (fun w L => w.updLane L Lane.adv) w).uid = w.uid := by
  obtain ⟨ls, h⟩ := foldUpd_eq (fun L => L) (fun _ => Lane.adv) Ls w
  rw [h]

/-- Wave w once the lanes whose guard fails have advanced. -/
def Wave.skipped (w : Wave) (s : State) (ff : FormF) : Wave := (skipping s w ff).foldl (fun v L => v.updLane L Lane.adv) w

theorem lane_skipped_out {s : State} {w : Wave} {ff : FormF} {L : Nat} (h : L ∉ skipping s w ff) : (w.skipped s ff).lane L = w.lane L :=
  lane_foldUpd_out (fun L => L) (fun _ => Lane.adv) L _ w (by simpa using h)
theorem lane_skipped_in {s : State} {w : Wave} {ff : FormF} {L : Nat} (h : L ∈ skipping s w ff) : (w.skipped s ff).lane L = (w.lane L).adv :=
  lane_foldUpd_in (fun L => L) (fun _ => Lane.adv) _ w h (by simpa using skipping_nodup s w ff) (mem_minSet_lt (mem_skipping.mp h).1)
@[simp] theorem length_skipped (s : State) (w : Wave) (ff : FormF) : (w.skipped s ff).lanes.length = w.lanes.length :=
  length_foldUpd (fun L => L) (fun _ => Lane.adv) _ w
theorem less_skipped (s : State) (w : Wave) (ff : FormF) : (w.skipped s ff).less = w.less := by
  obtain ⟨ls, h⟩ := foldUpd_eq (fun L => L) (fun _ => Lane.adv) (skipping s w ff) w
  unfold Wave.skipped; rw [h]; rfl

theorem wave_skipped {s : State} {w : Wave} (ff : FormF) (h : s.wave? w.uid = some w) :
    (s.skipped w ff).wave? w.uid = some (w.skipped s ff) := by
  unfold State.skipped
  rw [wave_updWave s w.uid _ (fun v => uid_foldAdv _ v), h]
  rfl

theorem laneNow_skipped {s : State} {w : Wave} {ff : FormF} {L : Nat} (hw : s.wave? w.uid = some w) (h : L ∈ executing s w ff) :
    (s.skipped w ff).laneNow (issueOf s w ff) L = w.lane L := by
  have e := wave_skipped ff hw
  unfold State.laneNow
  show (match (s.skipped w ff).wave? w.uid with | some v => v.lane L | none => _) = _
  rw [e]
  exact lane_skipped_out (skipping_not_executing h)

/-- The wave after a body that changes only executing lanes: lane L becomes g L of it. -/
theorem performed_lanes {s s2 : State} {w : Wave} {ff : FormF} {α : Type} (key : α → Nat) (g : α → Lane → Lane) (rs : List α)
    (h0 : Wave → Wave) (hl : ∀ v, (h0 v).lanes = v.lanes) (hu : ∀ v, (h0 v).uid = v.uid)
    (hi : Issuing s w) (hkeys : rs.map key = executing s w ff) (hst : ∀ r ∈ rs, (g r (w.lane (key r))).stepped = false)
    (h2w : s2.waves = ((s.skipped w ff).updWave w.uid (fun v => rs.foldl (fun v r => v.updLane (key r) (g r)) (h0 v))).waves)
    (h2c : s2.pkg = s.pkg) :
    ∃ x : Wave, Performed s s2 w x ff ∧ x.less = (h0 (w.skipped s ff)).less ∧ ∀ r ∈ rs, x.lane (key r) = g r (w.lane (key r)) := by
  have hlane : ∀ v L, (h0 v).lane L = v.lane L := fun v L => by unfold Wave.lane; rw [hl]
  let x := rs.foldl (fun v r => v.updLane (key r) (g r)) (h0 (w.skipped s ff))
  have hnd : (rs.map key).Nodup := hkeys ▸ executing_nodup s w ff
  have hin : ∀ r ∈ rs, x.lane (key r) = g r (w.lane (key r)) := by
    intro r hr
    have hex : key r ∈ executing s w ff := hkeys ▸ List.mem_map_of_mem hr
    have hlt : key r < (h0 (w.skipped s ff)).lanes.length := by
      rw [hl, length_skipped]; exact mem_minSet_lt (mem_executing.mp hex).1
    have := lane_foldUpd_in key g rs (h0 (w.skipped s ff)) hr hnd hlt
    rw [hlane, lane_skipped_out (skipping_not_executing hex)] at this
    exact this
  have hout : ∀ L, L ∉ executing s w ff → x.lane L = (w.skipped s ff).lane L := by
    intro L h
    have := lane_foldUpd_out key g L rs (h0 (w.skipped s ff)) (by rw [hkeys]; exact h)
    rw [hlane] at this
    exact this
  have huid : ∀ v, (rs.foldl (fun v r => v.updLane (key r) (g r)) (h0 v)).uid = v.uid := by
    intro v
    obtain ⟨ls, e⟩ := foldUpd_eq key g rs (h0 v)
    rw [e]; exact hu v
  refine ⟨x, ⟨?_, ?_, ?_, ?_, ?_, ?_, ?_, h2c⟩, ?_, hin⟩
  · have e : s2.wave? w.uid = ((s.skipped w ff).updWave w.uid (fun v => rs.foldl (fun v r => v.updLane (key r) (g r)) (h0 v))).wave? w.uid := by
      unfold State.wave?; rw [h2w]
    rw [e, wave_updWave _ _ _ huid, wave_skipped ff hi.found]
    rfl
  · show (rs.foldl (fun v r => v.updLane (key r) (g r)) (h0 (w.skipped s ff))).lanes.length = _
    rw [length_foldUpd, hl, length_skipped]
  · rw [h2w, length_updWave]; exact length_updWave s _ _
  · intro k v hk hv
    rw [h2w]
    exact waves_updWave_other _ (waves_updWave_other _ hk hv) hv
  · intro L h
    rw [hout L (fun e => h (mem_executing.mp e).1), lane_skipped_out (fun e => h (mem_skipping.mp e).1)]
  · intro L h hs
    have hsk : L ∈ skipping s w ff := mem_skipping.mpr ⟨h, hs⟩
    rw [hout L (fun e => skipping_not_executing e hsk), lane_skipped_in hsk]
  · intro L h
    rw [← hkeys] at h
    obtain ⟨r, hr, rfl⟩ := List.mem_map.mp h
    rw [hin r hr]; exact hst r hr
  · obtain ⟨ls, e⟩ := foldUpd_eq key g rs (h0 (w.skipped s ff))
    show (rs.foldl (fun v r => v.updLane (key r) (g r)) (h0 (w.skipped s ff))).less = _
    rw [e]; rfl

/-! ## Register instructions (R289) -/

theorem less_skipped_state (s : State) (w : Wave) (ff : FormF) : (s.skipped w ff).less = s.less := rfl

/-- A register instruction whose executing lanes all go on: lane L becomes g L, and nothing else is touched. -/
theorem regIssue_lanes {s : State} {w : Wave} {ff : FormF} {f : State → Iss → Nat → Lane → LRes} (g : Nat → Lane)
    (hi : Issuing s w) (hr : Ready s w ff)
    (hf : ∀ L ∈ executing s w ff, f (s.skipped w ff) (issueOf s w ff) L (w.lane L) = .ok (g L) ∧ (g L).stepped = false) :
    ∃ w', Issued s (s.regIssue ff f) w w' ff ∧ (s.regIssue ff f).less = s.less ∧ w'.less = w.less ∧
      ∀ L ∈ executing s w ff, w'.lane L = (g L).noted := by
  let E := executing s w ff
  let b := laneBody f (issueOf s w ff) (s.skipped w ff)
  let s2 : State := if E = [] then s.skipped w ff else b.1
  have hrs : ∀ L ∈ E, f (s.skipped w ff) (issueOf s w ff) L ((s.skipped w ff).laneNow (issueOf s w ff) L) = .ok (g L) := by
    intro L h; rw [laneNow_skipped hi.found h]; exact (hf L h).1
  have htraps : b.2 = [] := by
    show List.filterMap _ (E.map _) = []
    rw [List.filterMap_eq_nil_iff]
    intro r hr'
    obtain ⟨L, hL, rfl⟩ := List.mem_map.mp hr'
    simp only [hrs L hL]
  have hst : b.1 = (s.skipped w ff).updWave w.uid (fun v => (E.map (fun L => (L, g L))).foldl (fun v (r : Nat × Lane) => v.updLane r.1 (fun _ => r.2)) v) := by
    show (s.skipped w ff).updWave w.uid _ = _
    congr 1
    funext v
    have : E.map (fun L => (L, f (s.skipped w ff) (issueOf s w ff) L ((s.skipped w ff).laneNow (issueOf s w ff) L))) = E.map (fun L => (L, LRes.ok (g L))) :=
      List.map_congr_left (fun L hL => by rw [hrs L hL])
    show List.foldl _ v (E.map _) = _
    rw [this, List.foldl_map, List.foldl_map]
  have hs2 : s2.waves = ((s.skipped w ff).updWave w.uid (fun v => (E.map (fun L => (L, g L))).foldl (fun v (r : Nat × Lane) => v.updLane r.1 (fun _ => r.2)) (id v))).waves := by
    show (if E = [] then s.skipped w ff else b.1).waves = _
    split
    · rename_i h
      rw [h]
      simp [State.updWave]
    · rw [hst]; rfl
  have hs2c : s2.pkg = s.pkg := by
    show (if E = [] then s.skipped w ff else b.1).pkg = _
    split
    · rfl
    · rw [hst]; rfl
  have hless : s2.less = s.less := by
    show (if E = [] then s.skipped w ff else b.1).less = _
    split
    · rfl
    · rw [hst]; rfl
  obtain ⟨x, hp, hxl, hx⟩ := performed_lanes (fun r : Nat × Lane => r.1) (fun r _ => r.2) (E.map (fun L => (L, g L))) id (fun _ => rfl) (fun _ => rfl) hi
    (by rw [List.map_map]; exact List.map_id _)
    (by
      intro r hr'
      obtain ⟨L, hL, rfl⟩ := List.mem_map.mp hr'
      exact (hf L hL).2) hs2 hs2c
  obtain ⟨ht, hiss, hwl, hwx⟩ := issued_of_performed hi hr hp
  have heq : s.regIssue ff f = (s2.noteIssue w (s.teamOf w) w.minSet (ff {} false).isHint).stepHalt w.uid := by
    unfold State.regIssue
    rw [issue_ready hi hr (Or.inr rfl)]
    have h1 : (if executing s w ff = [] then (s.skipped w ff, []) else b).1 = s2 := by
      show _ = if E = [] then _ else _
      split <;> rfl
    have h2 : (if executing s w ff = [] then (s.skipped w ff, ([] : Traps)) else b).2 = [] := by
      split
      · rfl
      · exact htraps
    show (((if executing s w ff = [] then (s.skipped w ff, []) else b).1.takeTraps w.uid
      (orderTraps (if executing s w ff = [] then (s.skipped w ff, ([] : Traps)) else b).2)).noteIssue w (s.teamOf w) w.minSet (ff {} false).isHint).stepHalt w.uid = _
    rw [h1, h2, takeTraps_nil]
  refine ⟨x.noted (s2.dieCycle (s.teamOf w).die) (ff {} false).isHint w, heq ▸ hiss, ?_, ?_, ?_⟩
  · rw [heq, ht, less_noteIssue, hless]
  · rw [hwl, hxl]; exact less_skipped s w ff
  · intro L hL
    rw [hwx L hL, hx (L, g L) (List.mem_map.mpr ⟨L, hL, rfl⟩)]

/-! ## What an executing lane may rely on (R288) -/

/-- An executing lane's destinations lie within its registers. -/
theorem run_dsts {s : State} {w : Wave} {ff : FormF} {l : Lane} (h : fate s w ff l = .run) {d : Nat × Nat}
    (hd : d ∈ (ff (hintSet l.hints) l.inHandler).dsts) (hn : d.2 ≠ 0) : d.1 + d.2 ≤ l.regs.length := by
  have hname : nameTrap s w (ff (hintSet l.hints) l.inHandler) l = none := by
    unfold fate at h
    dsimp only at h
    split at h
    · cases h
    · split at h
      · cases h
      · split at h
        · cases h
        · assumption
  unfold nameTrap at hname
  split at hname
  · cases hname
  · split at hname
    · cases hname
    · rename_i hout
      by_contra hlt
      have hsome : overRange l.regs.length d.1 d.2 = some (max d.1 l.regs.length) := by
        unfold overRange; rw [if_neg hn, if_pos (by omega)]
      have hmem : some (max d.1 l.regs.length) ∈ (ff (hintSet l.hints) l.inHandler).srcs.map (fun x => overRange l.regs.length x.r x.n) ++
          (ff (hintSet l.hints) l.inHandler).dsts.map (fun x => overRange l.regs.length x.1 x.2) :=
        List.mem_append_right _ (List.mem_map.mpr ⟨d, hd, hsome⟩)
      have key : ∀ (xs : List (Option Nat)) (a : Nat), some a ∈ xs → lowestOf xs ≠ none := by
        intro xs a ha hx
        induction xs with
        | nil => cases ha
        | cons y ys ih =>
          cases y with
          | none =>
            rcases List.mem_cons.mp ha with e | e
            · cases e
            · exact ih e hx
          | some b =>
            unfold lowestOf at hx
            split at hx <;> cases hx
      exact key _ _ hmem hout

/-- A register instruction issues as its function of a lane says, when every executing lane goes on. -/
theorem laneIssues_reg {i : Instr} {ff : FormF} {pre post} {f : State → Iss → Nat → Lane → LRes}
    (he : ∀ s, exec i s = .next (s.regIssue ff f))
    (hf : ∀ s w, Issuing s w → ∀ L ∈ executing s w ff, pre s (issueOf s w ff) L (w.lane L) → (w.lane L).stepping = false → ∃ g : Lane,
      f (s.skipped w ff) (issueOf s w ff) L (w.lane L) = .ok g ∧ g.stepped = false ∧ post s (issueOf s w ff) L (w.lane L) (g).noted) :
    LaneIssues i ff pre post := by
  intro s w hi hr hpre
  have hnow : ∀ L ∈ executing s w ff, s.laneNow (issueOf s w ff) L = w.lane L := by
    intro L h
    unfold State.laneNow
    show (match s.wave? w.uid with | some v => v.lane L | none => _) = _
    rw [hi.found]
  have hex : ∀ L ∈ executing s w ff, ∃ g : Lane,
      f (s.skipped w ff) (issueOf s w ff) L (w.lane L) = .ok g ∧ g.stepped = false ∧ post s (issueOf s w ff) L (w.lane L) (g).noted := by
    intro L h
    have hp := hpre L h
    rw [hnow L h] at hp
    exact hf s w hi L h hp (hi.unstepped _ (lane_mem (mem_minSet_lt (mem_executing.mp h).1))).1
  have : Nonempty Lane := ⟨{}⟩
  choose! g hg using hex
  obtain ⟨w', h1, h2, h3, h4⟩ := regIssue_lanes g hi hr (fun L h => ⟨(hg L h).1, (hg L h).2.1⟩)
  exact ⟨_, w', he s, h1, h2, h3, fun L h => by rw [h4 L h]; exact (hg L h).2.2⟩

/-- Writing one register and going on. -/
theorem wrote_done {l : Lane} {d : Nat} {x y : Word} (h : x = y) (hd : d < l.regs.length) :
    Wrote l (l.set d x).adv.noted d y := by
  subst h
  refine ⟨?_, ?_, ⟨rfl, rfl⟩, rfl⟩
  · have e : (l.set d x).reg d = _ := reg_set_same l x hd
    exact ⟨congrArg Reg.val e, congrArg Reg.full e, congrArg Reg.fault e⟩
  · intro r hr; exact reg_set_other l x hr

end Sys2Proof.Machine
end

