-- ==== Sys2Proof/Laws/Memory.lean ====
section
/-!
SUPPORT. Laws of tables, byte lists and memory: reading after writing, and the canonical form, which every memory operation
keeps.
-/

namespace Sys2Proof.Machine

/-! ## Tables -/

theorem risingFrom_le {α : Type} : ∀ {t : Tab α} {lo lo' : Nat}, lo' ≤ lo → Tab.risingFrom t lo = true → Tab.risingFrom t lo' = true
  | [], _, _, _, _ => rfl
  | (j, _) :: r, lo, lo', h, hr => by
    simp only [Tab.risingFrom, Bool.and_eq_true, decide_eq_true_eq] at hr ⊢
    exact ⟨by omega, hr.2⟩

theorem find_none_of_rising {α : Type} : ∀ {t : Tab α} {lo k : Nat}, Tab.risingFrom t lo = true → k < lo → Tab.find t k = none
  | [], _, _, _, _ => rfl
  | (j, v) :: r, lo, k, h, hk => by
    simp only [Tab.risingFrom, Bool.and_eq_true, decide_eq_true_eq] at h
    have hjk : ¬ j = k := by omega
    simp only [Tab.find, if_neg hjk]
    exact find_none_of_rising h.2 (by omega)

theorem find_put {α : Type} : ∀ (t : Tab α) (k j : Nat) (v : α), Tab.find (Tab.put t k v) j = if j = k then some v else Tab.find t j
  | [], k, j, v => by
    by_cases h : j = k
    · subst h; simp [Tab.put, Tab.find]
    · have h' : ¬ k = j := fun e => h e.symm
      simp [Tab.put, Tab.find, h, h']
  | (i, w) :: r, k, j, v => by
    unfold Tab.put
    split
    · by_cases h : j = k
      · subst h; simp [Tab.find]
      · have h' : ¬ k = j := fun e => h e.symm
        simp [Tab.find, h, h']
    · split
      · rename_i _ hki
        subst hki
        by_cases h : j = k
        · subst h; simp [Tab.find]
        · have h' : ¬ k = j := fun e => h e.symm
          simp [Tab.find, h, h']
      · rename_i _ hki
        by_cases h : j = k
        · subst h
          have h' : ¬ i = j := fun e => hki e.symm
          simp only [Tab.find, if_neg h', if_true]
          rw [find_put r j j v, if_pos rfl]
        · simp only [Tab.find, if_neg h]
          rw [find_put r k j v, if_neg h]

theorem find_drop {α : Type} : ∀ {t : Tab α} {lo : Nat} (k j : Nat), Tab.risingFrom t lo = true →
    Tab.find (Tab.drop t k) j = if j = k then none else Tab.find t j
  | [], _, k, j, _ => by by_cases h : j = k <;> simp [Tab.drop, Tab.find, h]
  | (i, w) :: r, lo, k, j, hr => by
    simp only [Tab.risingFrom, Bool.and_eq_true, decide_eq_true_eq] at hr
    by_cases hi : i = k
    · subst hi
      simp only [Tab.drop, if_true]
      by_cases h : j = i
      · subst h; simp only [if_true]; exact find_none_of_rising hr.2 (by omega)
      · have h' : ¬ i = j := fun e => h e.symm
        simp [Tab.find, h, h']
    · simp only [Tab.drop, if_neg hi, Tab.find]
      by_cases hij : i = j
      · subst hij; simp [hi]
      · simp only [if_neg hij]; exact find_drop k j hr.2

theorem find_drop_other {α : Type} : ∀ {t : Tab α} {k j : Nat}, j ≠ k → Tab.find (Tab.drop t k) j = Tab.find t j
  | [], _, _, _ => rfl
  | (i, w) :: r, k, j, h => by
    by_cases hi : i = k
    · subst hi
      have h' : ¬ i = j := fun e => h e.symm
      simp [Tab.drop, Tab.find, h']
    · simp only [Tab.drop, if_neg hi, Tab.find]
      rw [find_drop_other (t := r) h]

theorem put_rising {α : Type} : ∀ {t : Tab α} {lo : Nat} {k : Nat} {v : α}, Tab.risingFrom t lo = true → lo ≤ k →
    Tab.risingFrom (Tab.put t k v) lo = true
  | [], lo, k, v, _, hk => by simp [Tab.put, Tab.risingFrom, hk]
  | (i, w) :: r, lo, k, v, hr, hk => by
    simp only [Tab.risingFrom, Bool.and_eq_true, decide_eq_true_eq] at hr
    unfold Tab.put
    split
    · simp only [Tab.risingFrom, Bool.and_eq_true, decide_eq_true_eq]; exact ⟨hk, by omega, hr.2⟩
    · split
      · rename_i _ h; subst h
        simp only [Tab.risingFrom, Bool.and_eq_true, decide_eq_true_eq]; exact ⟨hk, hr.2⟩
      · simp only [Tab.risingFrom, Bool.and_eq_true, decide_eq_true_eq]
        exact ⟨hr.1, put_rising hr.2 (by omega)⟩

theorem drop_rising {α : Type} : ∀ {t : Tab α} {lo : Nat} {k : Nat}, Tab.risingFrom t lo = true → Tab.risingFrom (Tab.drop t k) lo = true
  | [], _, _, _ => rfl
  | (i, w) :: r, lo, k, hr => by
    simp only [Tab.risingFrom, Bool.and_eq_true, decide_eq_true_eq] at hr
    unfold Tab.drop
    split
    · exact risingFrom_le (by omega) hr.2
    · simp only [Tab.risingFrom, Bool.and_eq_true, decide_eq_true_eq]; exact ⟨hr.1, drop_rising hr.2⟩

theorem put_all {α : Type} {p : Nat × α → Bool} : ∀ {t : Tab α} {k : Nat} {v : α}, t.all p = true → p (k, v) = true →
    (Tab.put t k v).all p = true
  | [], _, _, _, hv => by simp [Tab.put, hv]
  | (i, w) :: r, k, v, ht, hv => by
    simp only [List.all_cons, Bool.and_eq_true] at ht
    unfold Tab.put
    split
    · simp [ht, hv]
    · split
      · simp [ht, hv]
      · simp only [List.all_cons, Bool.and_eq_true]; exact ⟨ht.1, put_all ht.2 hv⟩

theorem drop_all {α : Type} {p : Nat × α → Bool} : ∀ {t : Tab α} {k : Nat}, t.all p = true → (Tab.drop t k).all p = true
  | [], _, _ => rfl
  | (i, w) :: r, k, ht => by
    simp only [List.all_cons, Bool.and_eq_true] at ht
    unfold Tab.drop
    split
    · exact ht.2
    · simp only [List.all_cons, Bool.and_eq_true]; exact ⟨ht.1, drop_all ht.2⟩

/-! ## The canonical form -/

/-- Writing a byte keeps the canonical form. -/
theorem putByte_wf {t : Tab Byte} {k : Nat} {v : Byte} (h : bytesWf t = true) : bytesWf (putByte t k v) = true := by
  simp only [bytesWf, Bool.and_eq_true] at h ⊢
  unfold putByte
  split
  · exact ⟨drop_rising h.1, drop_all h.2⟩
  · rename_i hv
    exact ⟨put_rising h.1 (Nat.zero_le k), put_all h.2 (by simpa using hv)⟩

/-- Writing bytes keeps the canonical form. -/
theorem putBytes_wf : ∀ (bs : List Byte) {t : Tab Byte} {k : Nat}, bytesWf t = true → bytesWf (putBytes t k bs) = true
  | [], _, _, h => h
  | _ :: bs, _, _, h => putBytes_wf bs (putByte_wf h)

/-- Writing memory keeps its canonical form. -/
theorem memPut_wf (m : List Host.Cell) (a : Nat) (bs : List Byte) (h : Memory.wf m = true) : Memory.wf (memPut m a bs) = true :=
  putBytes_wf bs h

theorem wrBytes_wf (s : State) (a : Nat) (bs : List Byte) (h : Memory.wf s.mem = true) : Memory.wf (s.wrBytes a bs).mem = true :=
  memPut_wf s.mem a bs h

theorem wr_wf (s : State) (a n v : Nat) (h : Memory.wf s.mem = true) : Memory.wf (s.wr a n v).mem = true :=
  wrBytes_wf s a (leBytes n v) h

/-- Memory lists nothing after reset. -/
theorem reset_mem_wf : Memory.wf State.reset.mem = true := rfl

theorem find_filter {α : Type} (p : Nat → Bool) : ∀ (t : Tab α) (k : Nat), p k = true →
    Tab.find (t.filter (fun c => p c.1)) k = Tab.find t k
  | [], _, _ => rfl
  | (j, v) :: r, k, h => by
    rw [List.filter_cons]
    by_cases hj : p j = true
    · simp only [hj, if_true, Tab.find]
      by_cases e : j = k
      · simp [e]
      · simp only [if_neg e]; exact find_filter p r k h
    · have e : ¬ j = k := fun e => hj (e ▸ h)
      simp only [hj, Tab.find, if_neg e]
      exact find_filter p r k h

/-! ## Reading after writing -/

/-- A byte after a write of one byte. -/
theorem byteAt_putByte {t : Tab Byte} (h : bytesWf t = true) (k j : Nat) (v : Byte) :
    byteAt (putByte t k v) j = if j = k then v else byteAt t j := by
  simp only [bytesWf, Bool.and_eq_true] at h
  unfold byteAt putByte
  split
  · rename_i hv
    rw [find_drop k j h.1]
    by_cases e : j = k <;> simp [e, hv]
  · rw [find_put]
    by_cases e : j = k <;> simp [e]

/-- A byte after a write of several. -/
theorem byteAt_putBytes : ∀ (bs : List Byte) {t : Tab Byte} (k j : Nat), bytesWf t = true →
    byteAt (putBytes t k bs) j = if k ≤ j ∧ j < k + bs.length then bs.getD (j - k) 0 else byteAt t j
  | [], _, k, j, _ => by
    have h : ¬ (k ≤ j ∧ j < k + ([] : List Byte).length) := by simp only [List.length_nil]; omega
    simp only [putBytes, if_neg h]
  | b :: bs, t, k, j, h => by
    rw [putBytes, byteAt_putBytes bs (k + 1) j (putByte_wf h), byteAt_putByte h]
    by_cases e : j = k
    · subst e
      have h1 : ¬ (j + 1 ≤ j ∧ j < j + 1 + bs.length) := by omega
      have h2 : j ≤ j ∧ j < j + (b :: bs).length := by simp only [List.length_cons]; omega
      simp
    · by_cases h1 : k + 1 ≤ j ∧ j < k + 1 + bs.length
      · have h2 : k ≤ j ∧ j < k + (b :: bs).length := by simp only [List.length_cons]; omega
        have h3 : j - k = (j - (k + 1)) + 1 := by omega
        rw [if_pos h1, if_pos h2, h3, List.getD_cons_succ]
      · have h2 : ¬ (k ≤ j ∧ j < k + (b :: bs).length) := by simp only [List.length_cons]; omega
        rw [if_neg h1, if_neg h2, if_neg e]

theorem byteAt_putByte_other (t : Tab Byte) {k j : Nat} (v : Byte) (h : j ≠ k) : byteAt (putByte t k v) j = byteAt t j := by
  unfold byteAt putByte
  split
  · rw [find_drop_other h]
  · rw [find_put, if_neg h]

theorem byteAt_putBytes_other : ∀ (bs : List Byte) (t : Tab Byte) (k j : Nat), j < k ∨ k + bs.length ≤ j →
    byteAt (putBytes t k bs) j = byteAt t j
  | [], _, _, _, _ => rfl
  | b :: bs, t, k, j, h => by
    simp only [List.length_cons] at h
    rw [putBytes, byteAt_putBytes_other bs _ (k + 1) j (by omega), byteAt_putByte_other t b (by omega)]

/-- A byte of memory outside a write is as before. -/
theorem memByte_memPut_other (m : List Host.Cell) (a j : Nat) (bs : List Byte) (hj : j < a ∨ a + bs.length ≤ j) :
    memByte (memPut m a bs) j = memByte m j := byteAt_putBytes_other bs m a j hj

theorem length_leBytes : ∀ (n v : Nat), (leBytes n v).length = n
  | 0, _ => rfl
  | n + 1, v => by simp [leBytes, length_leBytes n]

theorem leNat_leBytes : ∀ (n v : Nat), leNat (leBytes n v) = v % 256 ^ n
  | 0, v => by simp [leBytes, leNat, Nat.mod_one]
  | n + 1, v => by
    simp only [leBytes, leNat, BitVec.toNat_ofNat, leNat_leBytes n]
    have e : (256 : Nat) ^ (n + 1) = 256 * 256 ^ n := by rw [Nat.pow_succ, Nat.mul_comm]
    rw [e, Nat.mod_mul]

theorem bytesAt_eq_map (t : Tab Byte) : ∀ (n k : Nat), bytesAt t k n = (List.range n).map (fun j => byteAt t (k + j))
  | 0, _ => rfl
  | n + 1, k => by
    rw [bytesAt, bytesAt_eq_map t n (k + 1), List.range_succ_eq_map, List.map_cons, List.map_map, Nat.add_zero]
    congr 1
    apply List.map_congr_left
    intro j _
    simp only [Function.comp, Nat.succ_eq_add_one]
    congr 1; omega

/-- The bytes of a range are those at its addresses. -/
theorem memBytes_eq (m : List Host.Cell) (a n : Nat) : memBytes m a n = bytesAt m a n := by
  unfold memBytes memWin
  rw [bytesAt_eq_map, bytesAt_eq_map]
  apply List.map_congr_left
  intro j hj
  have hj' : j < n := List.mem_range.mp hj
  unfold byteAt
  rw [find_filter (fun k => decide (a ≤ k) && decide (k < a + n)) m (a + j) (by simp; omega)]

/-- The bytes written are read back. -/
theorem memBytes_memPut (m : List Host.Cell) (a : Nat) (bs : List Byte) (h : Memory.wf m = true) :
    memBytes (memPut m a bs) a bs.length = bs := by
  rw [memBytes_eq, bytesAt_eq_map]
  apply List.ext_getElem
  · simp
  · intro j h1 h2
    simp only [List.getElem_map, List.getElem_range]
    unfold memPut
    rw [byteAt_putBytes bs a (a + j) h, if_pos (by simp at h1; omega)]
    have e : a + j - a = j := by omega
    rw [e, List.getD_eq_getElem _ _ h2]

/-- A number written is read back (R5, R144). -/
theorem rd_wr (s : State) (a n v : Nat) (h : Memory.wf s.mem = true) : (s.wr a n v).rd a n = v % 256 ^ n := by
  have e : memBytes (memPut s.mem a (leBytes n v)) a n = leBytes n v := by
    have := memBytes_memPut s.mem a (leBytes n v) h
    rwa [length_leBytes] at this
  show leNat (memBytes (memPut s.mem a (leBytes n v)) a n) = _
  rw [e, leNat_leBytes]

/-- A number elsewhere is as before. -/
theorem rd_wr_other (s : State) (a n v b k : Nat) (hb : b + k ≤ a ∨ a + n ≤ b) :
    (s.wr a n v).rd b k = s.rd b k := by
  show leNat (memBytes (memPut s.mem a (leBytes n v)) b k) = leNat (memBytes s.mem b k)
  rw [memBytes_eq, memBytes_eq, bytesAt_eq_map, bytesAt_eq_map]
  congr 1
  apply List.map_congr_left
  intro j hj
  have hj' : j < k := List.mem_range.mp hj
  exact memByte_memPut_other s.mem a (b + j) _ (by rw [length_leBytes]; omega)

end Sys2Proof.Machine
end

