-- ==== Sys2Proof/Laws/Ops.lean ====
section
/-!
SUPPORT. What the shared operations of the device can do, said once: accesses of units and engines, records in rings, traces,
faults of teams, halts and traps.
-/

namespace Sys2Proof.Machine

/-! ## Operations that write memory and nothing else of the machine -/

/-- The machine without memory, what copies do not show of it, what is known of pool pages, and records that wait for a ring. -/
def State.lessMem (s : State) : State := { s with mem := [], wrote := [], writes := 0, pages := [], ringWaits := [] }

/-- From s to t only memory, pool pages and waiting records change, and memory keeps its canonical form. -/
structure Posted (s t : State) : Prop where
  rest : t.lessMem = s.lessMem
  wf : Memory.wf s.mem = true → Memory.wf t.mem = true

theorem Posted.refl (s : State) : Posted s s := ⟨rfl, id⟩
theorem Posted.trans {s t u : State} (h : Posted s t) (k : Posted t u) : Posted s u := ⟨k.rest.trans h.rest, k.wf ∘ h.wf⟩

/-- What an operation of this kind leaves of the parts most used. -/
theorem Posted.parts {s t : State} (h : Posted s t) :
    t.pkg = s.pkg ∧ t.host = s.host ∧ t.ctxs = s.ctxs ∧ t.queues = s.queues ∧ t.grids = s.grids ∧ t.teams = s.teams ∧
      t.waves = s.waves ∧ t.accs = s.accs ∧ t.lands = s.lands ∧ t.dbg = s.dbg ∧ t.cycle = s.cycle ∧ t.faults = s.faults := by
  have e := h.rest
  simp only [State.lessMem, State.mk.injEq] at e
  simp [e]

theorem wrBytes_posted (s : State) (a : Nat) (bs : List Byte) : Posted s (s.wrBytes a bs) := ⟨rfl, wrBytes_wf s a bs⟩
theorem wr_posted (s : State) (a n v : Nat) : Posted s (s.wr a n v) := wrBytes_posted s a _
theorem orPte_posted (s : State) (a m : Nat) : Posted s (s.orPte a m) := wr_posted s a 8 _
theorem ringWaits_posted (s : State) (rs : List RingWait) : Posted s { s with ringWaits := rs } := ⟨rfl, id⟩

/-- Translation for an engine sets bits of one page-table entry at most (R100, R118). -/
theorem engXlate_posted {s t : State} {c va n pa : Nat} {b : Bool} (h : s.engXlate c va n b = .ok (pa, t)) : Posted s t := by
  unfold State.engXlate at h
  split at h
  · split at h <;> cases h
  · dsimp only at h
    repeat (split at h; · cases h)
    cases h
    split
    · exact .refl s
    · exact orPte_posted s _ _

theorem engRdGo_posted : ∀ (fuel : Nat) {s t : State} {c va n : Nat} {bs : List Byte},
    s.engRdGo c fuel va n = .ok (bs, t) → Posted s t
  | 0, s, t, c, va, n, bs, h => by cases h; exact .refl s
  | fuel + 1, s, t, c, va, n, bs, h => by
    unfold State.engRdGo at h
    split at h
    · cases h; exact .refl s
    · dsimp only at h
      split at h
      · rename_i hx
        split at h
        · rename_i hr
          cases h
          exact (engXlate_posted hx).trans (engRdGo_posted fuel hr)
        · cases h
        · cases h
      · cases h
      · cases h

theorem engRd_posted {s t : State} {c va n : Nat} {bs : List Byte} (h : s.engRd c va n = .ok (bs, t)) : Posted s t :=
  engRdGo_posted _ h

theorem engWrGo_posted : ∀ (fuel : Nat) {s t : State} {c va : Nat} {bs : List Byte}, s.engWrGo c fuel va bs = .ok t → Posted s t
  | 0, s, t, c, va, bs, h => by cases h; exact .refl s
  | fuel + 1, s, t, c, va, bs, h => by
    unfold State.engWrGo at h
    split at h
    · cases h; exact .refl s
    · dsimp only at h
      split at h
      · rename_i hx
        exact ((engXlate_posted hx).trans (wrBytes_posted _ _ _)).trans (engWrGo_posted fuel h)
      · cases h
      · cases h

theorem engWr_posted {s t : State} {c va : Nat} {bs : List Byte} (h : s.engWr c va bs = .ok t) : Posted s t := by
  unfold State.engWr at h
  split at h
  · exact engWrGo_posted _ h
  · split at h
    · rename_i hr
      exact (engRdGo_posted _ hr).trans (engWrGo_posted _ h)
    · cases h
    · cases h

theorem unitRd_posted {s t : State} {sp : Option Nat} {a n : Nat} {bs : List Byte} (h : s.unitRd sp a n = .ok (bs, t)) : Posted s t := by
  unfold State.unitRd at h
  split at h
  · exact engRd_posted h
  · split at h
    · cases h
    · split at h
      · cases h
      · cases h; exact .refl s

theorem unitWr_posted {s t : State} {sp : Option Nat} {a : Nat} {bs : List Byte} (h : s.unitWr sp a bs = .ok t) : Posted s t := by
  unfold State.unitWr at h
  split at h
  · exact engWr_posted h
  · split at h
    · cases h
    · split at h
      · cases h
      · cases h; exact wrBytes_posted s _ _

/-! ## Rings (R51, R54) -/

/-- A ring that takes a record, or has no room for it, changes memory only. -/
theorem ringPut_posted {s t : State} {sp : Option Nat} {hdr : Nat} {sizes : List Nat} {f : Nat → List Byte}
    (h : s.ringPut sp hdr sizes f = .ok t ∨ s.ringPut sp hdr sizes f = .full t) : Posted s t := by
  unfold State.ringPut at h
  split at h
  · simp only [reduceCtorEq, Put.full.injEq, false_or] at h
    exact h ▸ .refl s
  · simp at h
  · rename_i hr
    have h1 := unitRd_posted hr
    dsimp only at h
    split at h
    · simp at h
    · split at h
      · simp only [reduceCtorEq, Put.full.injEq, false_or] at h
        exact h ▸ h1
      · split at h
        · simp only [reduceCtorEq, Put.full.injEq, false_or] at h
          exact h ▸ h1
        · simp at h
        · rename_i hw
          have h2 := h1.trans (unitWr_posted hw)
          split at h
          · rename_i hz
            simp only [reduceCtorEq, Put.ok.injEq, or_false] at h
            exact h ▸ h2.trans (unitWr_posted hz)
          · simp at h

theorem ringDrop_posted (s : State) (sp : Option Nat) (hdr : Nat) : Posted s (s.ringDrop sp hdr) := by
  unfold State.ringDrop
  split
  · rename_i hr
    split
    · rename_i hw
      exact (unitRd_posted hr).trans (unitWr_posted hw)
    · exact .refl s
  · exact .refl s

theorem mcPut_posted (s : State) (r : BitVec 512) (b : Bool) : Posted s (s.mcPut r b) := by
  unfold State.mcPut
  dsimp only
  split
  · exact .refl s
  · split
    · rename_i h; exact ringPut_posted (.inl h)
    · rename_i h
      have h1 := ringPut_posted (.inr h)
      split
      · exact h1.trans (ringWaits_posted _ _)
      · exact h1.trans (ringDrop_posted _ _ _)
    · exact .refl s

theorem evPut_posted (s : State) (c kind : Nat) (r : BitVec 512) : Posted s (s.evPut c kind r) := by
  unfold State.evPut
  dsimp only
  split
  · rename_i h; exact ringPut_posted (.inl h)
  · rename_i h
    have h1 := ringPut_posted (.inr h)
    split
    · exact h1.trans (ringWaits_posted _ _)
    · exact h1.trans (ringDrop_posted _ _ _)
  · exact mcPut_posted s _ _

/-- Posting an event changes memory and waiting records only (R54, R55). -/
theorem event_posted (s : State) (kind c q slot : Nat) (body : List (Nat × Nat × Nat)) : Posted s (s.event kind c q slot body) :=
  evPut_posted s _ _ _
theorem machineCheck_posted (s : State) (c q slot unit index : Nat) : Posted s (s.machineCheck c q slot unit index) :=
  mcPut_posted s _ _

/-- A waiting record that is written, dropped or copied changes memory and waiting records only. -/
theorem retryWait_posted {s t : State} {r : RingWait} (h : s.retryWait r = .gone t ∨ s.retryWait r = .copied t) : Posted s t := by
  unfold State.retryWait at h
  repeat' split at h
  all_goals simp only [Retry.gone.injEq, Retry.copied.injEq, reduceCtorEq, or_false, false_or, or_self] at h
  all_goals subst h
  all_goals first
    | exact .refl _
    | exact mcPut_posted _ _ _
    | exact ringPut_posted (.inl ‹_›)

theorem faultPut_posted (s : State) (c : Nat) (r : BitVec 512) : Posted s (s.faultPut c r) := by
  unfold State.faultPut
  split
  · rename_i h; exact ringPut_posted (.inl h)
  · rename_i h; exact (ringPut_posted (.inr h)).trans (ringWaits_posted _ _)
  · exact (mcPut_posted s _ _).trans (ringWaits_posted _ _)

/-- Raising a fault record takes the context's next sequence number, adds the record to those that are open, and changes memory
and waiting records; nothing else (R56). -/
theorem raiseFault_posted (s : State) (c cause kind va die core slot : Nat) (lanes pc : Word) (obj : Nat) (who : FaultWho) :
    (s.raiseFault c cause kind va die core slot lanes pc obj who).1 = (s.ctx c).faultSeq ∧
    Posted { s.updCtx c (fun x => { x with faultSeq := nextSeq (s.ctx c).faultSeq }) with
        faults := s.faults ++ [{ ctx := c, seq := (s.ctx c).faultSeq, cause := cause, kind := kind, va := BitVec.ofNat 72 va, die := die, pc := pc, who := who, born := s.cycle }] }
      (s.raiseFault c cause kind va die core slot lanes pc obj who).2 :=
  ⟨rfl, faultPut_posted _ _ _⟩

/-! ## Streams (R242, R243) -/

theorem streamPut_posted (s : State) (die stream : Nat) (r : BitVec 256) : Posted s (s.streamPut die stream r) := by
  unfold State.streamPut
  dsimp only
  split
  · exact .refl s
  · split
    · rename_i h; exact ringPut_posted (.inl h)
    · rename_i h; exact (ringPut_posted (.inr h)).trans (ringDrop_posted _ _ _)
    · exact .refl s

theorem trace_posted (s : State) (die kind arg c gid tid loc team aux : Nat) : Posted s (s.trace die kind arg c gid tid loc team aux) :=
  streamPut_posted s _ _ _
theorem traceTeam_posted (s : State) (kind arg : Nat) (t : Team) (aux : Nat) : Posted s (s.traceTeam kind arg t aux) :=
  trace_posted s _ _ _ _ _ _ _ _ _
theorem traceLane_posted (s : State) (kind arg : Nat) (t : Team) (w : Wave) (L : Nat) (pc : Word) (aux : Nat) :
    Posted s (s.traceLane kind arg t w L pc aux) := trace_posted s _ _ _ _ _ _ _ _ _

/-! ## Operations on waves, teams, grids and contexts -/

/-- The machine without memory, and without its contexts, grids, teams and waves. -/
def State.lessRun (s : State) : State := { s.lessMem with ctxs := [], grids := [], teams := [], waves := [] }

/-- From s to t only contexts, grids, teams, waves, memory and waiting records change; memory keeps its canonical form. -/
structure Ran (s t : State) : Prop where
  rest : t.lessRun = s.lessRun
  wf : Memory.wf s.mem = true → Memory.wf t.mem = true

theorem Ran.refl (s : State) : Ran s s := ⟨rfl, id⟩
theorem Ran.trans {s t u : State} (h : Ran s t) (k : Ran t u) : Ran s u := ⟨k.rest.trans h.rest, k.wf ∘ h.wf⟩
theorem Posted.ran {s t : State} (h : Posted s t) : Ran s t :=
  ⟨congrArg (fun x : State => { x with ctxs := [], grids := [], teams := [], waves := [] }) h.rest, h.wf⟩

/-- Repeating such an operation over a list is one. -/
theorem Ran.fold {α : Type} (f : State → α → State) (h : ∀ s a, Ran s (f s a)) : ∀ (xs : List α) (s : State), Ran s (xs.foldl f s)
  | [], s => .refl s
  | a :: xs, s => (h s a).trans (Ran.fold f h xs (f s a))

/-- What such an operation leaves: results and accesses on their way, queues, the clock, the debug block and the package. -/
theorem Ran.parts {s t : State} (h : Ran s t) :
    t.pkg = s.pkg ∧ t.host = s.host ∧ t.queues = s.queues ∧ t.accs = s.accs ∧ t.lands = s.lands ∧ t.dbg = s.dbg ∧
      t.cycle = s.cycle ∧ t.faults = s.faults ∧ t.cores = s.cores ∧ t.locks = s.locks ∧ t.fresh = s.fresh := by
  have e := h.rest
  simp only [State.lessRun, State.lessMem, State.mk.injEq] at e
  simp [e]

theorem updCtx_ran (s : State) (c : Nat) (f : Ctx → Ctx) : Ran s (s.updCtx c f) := ⟨rfl, id⟩
theorem updGrid_ran (s : State) (g : Nat) (f : Grid → Grid) : Ran s (s.updGrid g f) := ⟨rfl, id⟩
theorem updTeam_ran (s : State) (t : Nat) (f : Team → Team) : Ran s (s.updTeam t f) := ⟨rfl, id⟩
theorem updWave_ran (s : State) (u : Nat) (f : Wave → Wave) : Ran s (s.updWave u f) := ⟨rfl, id⟩

/-- A team that faults (R210). -/
theorem faultTeam_ran (s : State) (tid : Nat) : Ran s (s.faultTeam tid) := by
  unfold State.faultTeam
  split
  · exact .refl s
  · split
    · exact .refl s
    · exact (updTeam_ran _ _ _).trans (updGrid_ran _ _ _)

theorem checkStuck_ran (s : State) (tid : Nat) : Ran s (s.checkStuck tid) := by
  unfold State.checkStuck
  split
  · exact .refl s
  · dsimp only
    split
    · exact faultTeam_ran s tid
    · exact .refl s

theorem takeHaltId_ran (s : State) (c uid : Nat) : Ran s (s.takeHaltId c uid) := by
  unfold State.takeHaltId
  split
  · exact .refl s
  · split
    · exact (updWave_ran _ _ _).trans (updCtx_ran _ _ _)
    · exact .refl s

theorem withdraw_ran (s : State) (w : Wave) (L : Nat) : Ran s (s.withdraw w L) := by
  unfold State.withdraw
  split
  · exact updTeam_ran _ _ _
  · exact .refl s

/-- Lanes that halt (R247, R248). -/
theorem haltLanes_ran (s : State) (uid : Nat) (hs : List (Nat × Word × Word × Word)) : Ran s (s.haltLanes uid hs) := by
  unfold State.haltLanes
  split
  · dsimp only
    refine Ran.trans ?_ (Ran.fold _ (fun s h => ?_) _ _)
    · refine Ran.trans (Ran.trans ?_ (updWave_ran _ uid _)) (takeHaltId_ran _ _ uid)
      refine Ran.fold _ (fun s h => ?_) _ s
      exact withdraw_ran s _ _
    · exact (traceLane_posted s _ _ _ _ _ _ _).ran
  · exact .refl s

theorem haltCtx_ran (s : State) (c : Nat) : Ran s (s.haltCtx c) := by
  unfold State.haltCtx
  refine Ran.fold _ (fun s w => ?_) _ s
  split
  · exact haltLanes_ran s _ _
  · exact .refl s

/-- A context that stops (R210). -/
theorem stopCtx_ran (s : State) (t : Team) (w : Wave) (L : Nat) (pc : Word) (msg : Nat) : Ran s (s.stopCtx t w L pc msg) := by
  unfold State.stopCtx
  dsimp only
  exact (((haltCtx_ran s _).trans (updCtx_ran _ _ _)).trans (event_posted _ _ _ _ _ _).ran).trans
    (Ran.fold _ (fun s (u : Team) => faultTeam_ran s u.tid) _ _)

/-- Lanes that trap (R208, R211): nothing that is on its way is lost, and no queue, core or lock changes. -/
theorem takeTraps_ran (s : State) (uid : Nat) (ts : List (Nat × Trap)) : Ran s (s.takeTraps uid ts) := by
  unfold State.takeTraps
  split
  · dsimp only
    refine Ran.trans ?_ (checkStuck_ran _ _)
    split
    · refine Ran.trans ?_ (stopCtx_ran _ _ _ _ _ _)
      refine Ran.trans (updWave_ran s uid _) (Ran.fold _ (fun s x => ?_) _ _)
      exact (traceLane_posted s _ _ _ _ _ _ _).ran
    · refine Ran.trans (updWave_ran s uid _) (Ran.fold _ (fun s x => ?_) _ _)
      exact (traceLane_posted s _ _ _ _ _ _ _).ran
  · exact .refl s

/-! ## The window and the handler (R208, R209, R387) -/

theorem closeWindow_ran (s : State) (uid : Nat) : Ran s (s.closeWindow uid) := by
  unfold State.closeWindow
  repeat' split
  all_goals first | exact .refl s | exact updWave_ran _ _ _

theorem enterHandler_ran (s : State) (uid : Nat) : Ran s (s.enterHandler uid) := by
  unfold State.enterHandler
  split
  · exact .refl s
  · dsimp only
    repeat' split
    all_goals first | exact .refl s | exact updWave_ran _ _ _

theorem endHandler_ran (s : State) (uid : Nat) : Ran s (s.endHandler uid) := by
  unfold State.endHandler
  repeat' split
  all_goals first | exact .refl s | exact updWave_ran _ _ _

/-- The same three operations change waves only. -/
theorem window_waves (s : State) (uid : Nat) :
    (s.closeWindow uid).mem = s.mem ∧ (s.enterHandler uid).mem = s.mem ∧ (s.endHandler uid).mem = s.mem := by
  refine ⟨?_, ?_, ?_⟩
  · unfold State.closeWindow; repeat' split
    all_goals rfl
  · unfold State.enterHandler; split
    · rfl
    · dsimp only; repeat' split
      all_goals rfl
  · unfold State.endHandler; repeat' split
    all_goals rfl

/-! ## Lanes (R208, R209, R247, R387) -/

/-- Parking: the trap's kind and place are in TRAPINFO, and registers, predicates and FPCTL are as before. -/
theorem park_lane (l : Lane) (t : Trap) (n : Nat) :
    (l.park t n).st = .trapped ∧ (l.park t n).pc = t.stop ∧ (l.park t n).trapinfo = t.info n ∧ (l.park t n).regs = l.regs ∧
      (l.park t n).preds = l.preds ∧ (l.park t n).fpctl = l.fpctl := ⟨rfl, rfl, rfl, rfl, rfl, rfl⟩

/-- Entering the handler: RESUMEPC is where the lane stood, and its hints are set aside. -/
theorem enter_lane (l : Lane) (h : Nat) :
    (l.enter h).st = .run ∧ (l.enter h).pc = BitVec.ofNat 32 h ∧ (l.enter h).resumepc = l.pc ∧ (l.enter h).aside = l.hints ∧
      (l.enter h).hints = [] ∧ (l.enter h).inHandler = true ∧ (l.enter h).regs = l.regs := ⟨rfl, rfl, rfl, rfl, rfl, rfl, rfl⟩

/-- Leaving it: a lane that returned goes on at RESUMEPC. -/
theorem leave_lane (l : Lane) : l.leave.inHandler = false ∧ l.leave.aside = [] ∧ l.leave.regs = l.regs ∧
    (l.st = .returned → l.leave.st = .run ∧ l.leave.pc = l.resumepc) := by
  unfold Lane.leave
  split
  · exact ⟨rfl, rfl, rfl, fun _ => ⟨rfl, rfl⟩⟩
  · rename_i h
    exact ⟨rfl, rfl, rfl, fun e => absurd (by simp [e]) h⟩

/-- A lane that gives up its wait runs again, or was not blocked. -/
theorem giveUp_lane (l : Lane) : l.giveUp.pc = l.pc ∧ l.giveUp.preds = l.preds ∧ (l.giveUp = l ∨ l.giveUp.st = .run) := by
  unfold Lane.giveUp
  split
  all_goals first | exact ⟨rfl, rfl, .inr rfl⟩ | exact ⟨rfl, rfl, .inl rfl⟩

theorem halt_lane (l : Lane) (pc stop info : Word) (n : Nat) :
    (l.halt pc stop info n).st = .halted ∧ (l.halt pc stop info n).pc = stop ∧
      (l.halt pc stop info n).trapinfo = [BitVec.ofNat 32 tkBREAK, pc, 0, 0, info, BitVec.ofNat 32 n] := ⟨rfl, rfl, rfl⟩

end Sys2Proof.Machine
end

