-- ==== Sys2Proof/Laws/Keeps.lean ====
section
/-!
SUPPORT. Issuing keeps memory in canonical form: whatever an instruction's own body keeps, the issue around it keeps, and so do
the bodies that memory instructions share.
-/

namespace Sys2Proof.Machine

/-- Memory in canonical form at s is so at t. -/
def KeepsMem (s t : State) : Prop := Memory.wf s.mem = true → Memory.wf t.mem = true

theorem KeepsMem.refl (s : State) : KeepsMem s s := id
theorem KeepsMem.trans {s t u : State} (h : KeepsMem s t) (k : KeepsMem t u) : KeepsMem s u := fun x => k (h x)
theorem KeepsMem.of_eq {s t : State} (h : t.mem = s.mem) : KeepsMem s t := fun x => h ▸ x
theorem Posted.keeps {s t : State} (h : Posted s t) : KeepsMem s t := h.wf
theorem Ran.keeps {s t : State} (h : Ran s t) : KeepsMem s t := h.wf
theorem KeepsMem.fold {α : Type} (f : State → α → State) (h : ∀ s a, KeepsMem s (f s a)) : ∀ (xs : List α) (s : State), KeepsMem s (xs.foldl f s)
  | [], s => .refl s
  | a :: xs, s => (h s a).trans (KeepsMem.fold f h xs (f s a))

/-! ## The issue of an instruction (R81, R198) -/

theorem hold_keeps (s : State) (uid : Nat) (ts : Traps) : KeepsMem s (s.hold uid ts) := (takeTraps_ran s uid (orderTraps ts)).wf
theorem noteIssue_mem (s : State) (w : Wave) (t : Team) (set : List Nat) (hint : Bool) : (s.noteIssue w t set hint).mem = s.mem := rfl
theorem stepHalt_ran (s : State) (uid : Nat) : Ran s (s.stepHalt uid) := by
  unfold State.stepHalt
  split
  · exact .refl s
  · exact haltLanes_ran s uid _

/-- An issue keeps memory when the state in which it waits and its body do. -/
theorem issue_keeps (s : State) (ff : FormF) {busy : State → Iss → Option State} {body : Iss → State → State × Traps}
    (hb : ∀ s i t, busy s i = some t → KeepsMem s t) (hd : ∀ i s, KeepsMem s (body i s).1) : KeepsMem s (s.issue ff busy body) := by
  unfold State.issue
  split
  · exact .refl s
  · split
    · exact .refl s
    · dsimp only
      split
      · exact .refl s
      · split
        · exact hold_keeps s _ _
        · split
          · rename_i h
            split at h
            · cases h
            · exact (hb _ _ _ h).trans (hold_keeps _ _ _)
          · refine KeepsMem.trans ?_ (stepHalt_ran _ _).wf
            refine KeepsMem.trans ?_ (.of_eq (noteIssue_mem _ _ _ _ _))
            refine KeepsMem.trans ?_ (takeTraps_ran _ _ _).wf
            split
            · exact (updWave_ran s _ _).wf
            · exact KeepsMem.trans (updWave_ran s _ _).wf (hd _ _)

theorem never_keeps (s : State) (i : Iss) (t : State) (h : never s i = some t) : KeepsMem s t := by cases h
theorem waitIf_keeps (p : State → Iss → Bool) (s : State) (i : Iss) (t : State) (h : waitIf p s i = some t) : KeepsMem s t := by
  unfold waitIf at h
  split at h
  · cases h; exact .refl s
  · cases h

/-- An instruction that only reads and writes registers keeps memory. -/
theorem regIssue_keeps (s : State) (ff : FormF) (f : State → Iss → Nat → Lane → LRes) : KeepsMem s (s.regIssue ff f) :=
  issue_keeps s ff never_keeps (fun _ s => (updWave_ran s _ _).wf)

/-- What lanes that had to wait do once they need not any more keeps memory when the body does. -/
theorem forcedBody_keeps (fr : State → Iss → Nat → Force) {body : Iss → State → State × Traps} (hd : ∀ i s, KeepsMem s (body i s).1)
    (i : Iss) (s : State) : KeepsMem s (forcedBody fr body i s).1 := by
  unfold forcedBody
  dsimp only
  split
  · exact .refl s
  · exact fun x => hd _ _ x
/-- An issue that waits for a lane's earlier accesses keeps memory when its body does (R151). -/
theorem issueForced_keeps (s : State) (ff : FormF) (p : Iss → Nat → Acc → Bool) (r : Bool) {busy : State → Iss → Option State}
    {body : Iss → State → State × Traps} (hb : ∀ s i t, busy s i = some t → KeepsMem s t) (hd : ∀ i s, KeepsMem s (body i s).1) :
    KeepsMem s (s.issueForced ff p r busy body) := by
  refine issue_keeps s ff (fun s i t h => ?_) (forcedBody_keeps _ hd)
  unfold forcedBusy at h
  split at h
  · cases h; exact .refl s
  · exact hb _ _ _ h
/-- The same of one whose lanes wait for each other (R327, R334). -/
theorem issueTogether_keeps (s : State) (ff : FormF) (p : Iss → Nat → Acc → Bool) {busy : State → Iss → Option State}
    {body : Iss → State → State × Traps} (hb : ∀ s i t, busy s i = some t → KeepsMem s t) (hd : ∀ i s, KeepsMem s (body i s).1) :
    KeepsMem s (s.issueTogether ff p busy body) := by
  refine issue_keeps s ff (fun s i t h => ?_) (forcedBody_keeps _ hd)
  dsimp only at h
  split at h
  · cases h; exact .refl s
  · exact hb _ _ _ h

/-! ## What memory instructions share (R94, R100, R104, R320) -/

theorem askWalk_mem (s : State) (die c page uid : Nat) : (s.askWalk die c page uid).mem = s.mem := by
  unfold State.askWalk
  dsimp only
  repeat' split
  all_goals rfl
theorem needPages_keeps (vas : Iss → List Nat) (s : State) (i : Iss) (t : State) (h : needPages vas s i = some t) : KeepsMem s t := by
  unfold needPages at h
  split at h
  · cases h
  · cases h
    exact KeepsMem.fold _ (fun s p => .of_eq (askWalk_mem s _ _ _ _)) _ s

theorem setDirty_keeps (s : State) (die c va : Nat) : KeepsMem s (s.setDirty die c va) := by
  unfold State.setDirty
  split
  · exact .refl s
  · split
    · exact .refl s
    · exact (orPte_posted s _ _).wf

/-- Lanes that park on a fault record (R104). -/
theorem parkFault_keeps (s : State) (uid : Nat) (ls : List Nat) (cause kind va : Nat) (pc : Word) :
    KeepsMem s (s.parkFault uid ls cause kind va pc) := by
  unfold State.parkFault
  split
  · exact .refl s
  · refine KeepsMem.trans (KeepsMem.trans ?_ (updGrid_ran _ _ _).wf) (checkStuck_ran _ _).wf
    refine KeepsMem.trans ?_ (updWave_ran _ _ _).wf
    exact (raiseFault_posted s _ _ _ _ _ _ _ _ _ _ _).2.wf
theorem parkFaults_keeps (s : State) (i : Iss) (kind : Nat) (dst : Nat × Nat) (fs : List (Nat × Nat × Nat)) :
    KeepsMem s (s.parkFaults i kind dst fs) := by
  unfold State.parkFaults
  refine KeepsMem.fold _ (fun s g => ?_) _ s
  exact KeepsMem.trans (updWave_ran s _ _).wf (parkFault_keeps _ _ _ _ _ _ _)

/-- A memory instruction of one access keeps memory when what its lanes go on with does. -/
theorem memBody_keeps (k : AccKind) (align n : Nat) (va : Iss → Nat → Nat) (dst : Nat × Nat) {go : Iss → Nat → Nat → Pte → State → State}
    (hg : ∀ i L pa e s, KeepsMem s (go i L pa e s)) (i : Iss) (s : State) : KeepsMem s (memBody k align n va dst go i s).1 := by
  unfold memBody
  refine KeepsMem.trans (KeepsMem.fold _ (fun s x => ?_) _ s) (parkFaults_keeps _ _ _ _ _)
  split
  · split
    · exact (setDirty_keeps s _ _ _).trans (hg _ _ _ _ _)
    · exact hg _ _ _ _ _
  · split
    · exact (machineCheck_posted s _ _ _ _ _).wf
    · exact .refl s
  · exact .refl s

/-- The same of one whose lanes make several accesses. -/
theorem memBodyN_keeps (k : AccKind) (vas : Iss → Nat → List (Nat × Nat)) (dst : Nat × Nat)
    {go : Iss → Nat → List (Nat × Pte) → State → State} (hg : ∀ i L ps s, KeepsMem s (go i L ps s)) (i : Iss) (s : State) :
    KeepsMem s (memBodyN k vas dst go i s).1 := by
  unfold memBodyN
  refine KeepsMem.trans (KeepsMem.fold _ (fun s x => ?_) _ s) (parkFaults_keeps _ _ _ _ _)
  split
  · split
    · exact (KeepsMem.fold _ (fun s v => setDirty_keeps s _ _ _) _ s).trans (hg _ _ _ _)
    · exact hg _ _ _ _
  · split
    · exact (machineCheck_posted s _ _ _ _ _).wf
    · exact .refl s
  · exact .refl s

/-- The same of one on scratchpad (R114). -/
theorem spBody_keeps (r : BitVec 4) (off : Iss → Nat → Nat) (n : Nat) {go : Iss → Nat → Nat → Nat → State → State}
    (hg : ∀ i L t a s, KeepsMem s (go i L t a s)) (i : Iss) (s : State) : KeepsMem s (spBody r off n go i s).1 := by
  unfold spBody
  refine fun x => (KeepsMem.fold _ (fun s x => ?_) _ s) x
  split
  · exact hg _ _ _ _ _
  · exact .refl s

/-! ## Steps of lanes that touch no byte of memory -/

/-- Sending an access changes no byte: it joins those that have still to perform, under a fresh identity (R151). -/
theorem addAcc_mem (s : State) (i : Iss) (L : Nat) (a : Acc) : (s.addAcc i L a).mem = s.mem ∧ (s.addAcc i L a).fresh = s.fresh + 1 := by
  unfold State.addAcc State.addAccAt
  dsimp only
  split <;> exact ⟨rfl, rfl⟩
@[simp] theorem goOn_mem (s : State) (i : Iss) (L : Nat) (dst : Nat × Nat) : (s.goOn i L dst).mem = s.mem := rfl
@[simp] theorem block_mem (s : State) (uid L : Nat) (wt : Wait) : (s.block uid L wt).mem = s.mem := rfl
@[simp] theorem setGranule_mem (s : State) (tid g : Nat) (b : Bool) : (s.setGranule tid g b).mem = s.mem := rfl
@[simp] theorem spWr_mem (s : State) (tid a : Nat) (bs : List Byte) : (s.spWr tid a bs).mem = s.mem := rfl
@[simp] theorem landRead_mem (s : State) (uid L d : Nat) (vs : List Word) (due : Nat) (pc : Word) :
    (s.landRead uid L d vs due pc).mem = s.mem := rfl
@[simp] theorem dropCopies_mem (s : State) (die core : Nat) : (s.dropCopies die core).mem = s.mem := rfl
@[simp] theorem touch_mem (s : State) (b : Acc) (reads : Bool) (own : Option Nat) (upTo : Nat) : (s.touch b reads own upTo).mem = s.mem := rfl
@[simp] theorem extend_mem (s : State) (f : Fact → List Fact) : (s.extend f).mem = s.mem := rfl
@[simp] theorem release_mem (s : State) (qs : List Who) (scope : Nat) (ks : List Sync) : (s.release qs scope ks).mem = s.mem := rfl
@[simp] theorem obtain_mem (s : State) (qs : List Who) (p : Sync → Bool) : (s.obtain qs p).mem = s.mem := rfl
@[simp] theorem fence_mem (s : State) (qs : List Who) (kind scope : Nat) : (s.fence qs kind scope).mem = s.mem := rfl
theorem unblock_keeps (s : State) (uid L : Nat) (f : Lane → Lane) : KeepsMem s (s.unblock uid L f) := by
  unfold State.unblock
  exact fun x => (stepHalt_ran _ _).wf x

end Sys2Proof.Machine
end

