-- ==== Sys2Proof/Laws/State.lean ====
section
/-!
SUPPORT. What each update of the state leaves each field of it: one lemma per field per update.
-/

namespace Sys2Proof.Machine

variable (s : State)

/-! ## updCtx -/

@[simp] theorem updCtx_pkg (c : Nat) (f : Ctx → Ctx) : (s.updCtx c f).pkg = s.pkg := rfl
@[simp] theorem updCtx_host (c : Nat) (f : Ctx → Ctx) : (s.updCtx c f).host = s.host := rfl
@[simp] theorem updCtx_ctxs (c : Nat) (f : Ctx → Ctx) : (s.updCtx c f).ctxs = Tab.put s.ctxs c (f (s.ctx c)) := rfl
@[simp] theorem updCtx_queues (c : Nat) (f : Ctx → Ctx) : (s.updCtx c f).queues = s.queues := rfl
@[simp] theorem updCtx_lastServed (c : Nat) (f : Ctx → Ctx) : (s.updCtx c f).lastServed = s.lastServed := rfl
@[simp] theorem updCtx_lastDealt (c : Nat) (f : Ctx → Ctx) : (s.updCtx c f).lastDealt = s.lastDealt := rfl
@[simp] theorem updCtx_outs (c : Nat) (f : Ctx → Ctx) : (s.updCtx c f).outs = s.outs := rfl
@[simp] theorem updCtx_pushers (c : Nat) (f : Ctx → Ctx) : (s.updCtx c f).pushers = s.pushers := rfl
@[simp] theorem updCtx_ringWaits (c : Nat) (f : Ctx → Ctx) : (s.updCtx c f).ringWaits = s.ringWaits := rfl
@[simp] theorem updCtx_grids (c : Nat) (f : Ctx → Ctx) : (s.updCtx c f).grids = s.grids := rfl
@[simp] theorem updCtx_teams (c : Nat) (f : Ctx → Ctx) : (s.updCtx c f).teams = s.teams := rfl
@[simp] theorem updCtx_waves (c : Nat) (f : Ctx → Ctx) : (s.updCtx c f).waves = s.waves := rfl
@[simp] theorem updCtx_accs (c : Nat) (f : Ctx → Ctx) : (s.updCtx c f).accs = s.accs := rfl
@[simp] theorem updCtx_lands (c : Nat) (f : Ctx → Ctx) : (s.updCtx c f).lands = s.lands := rfl
@[simp] theorem updCtx_mem (c : Nat) (f : Ctx → Ctx) : (s.updCtx c f).mem = s.mem := rfl
@[simp] theorem updCtx_tlb (c : Nat) (f : Ctx → Ctx) : (s.updCtx c f).tlb = s.tlb := rfl
@[simp] theorem updCtx_walks (c : Nat) (f : Ctx → Ctx) : (s.updCtx c f).walks = s.walks := rfl
@[simp] theorem updCtx_misses (c : Nat) (f : Ctx → Ctx) : (s.updCtx c f).misses = s.misses := rfl
@[simp] theorem updCtx_copies (c : Nat) (f : Ctx → Ctx) : (s.updCtx c f).copies = s.copies := rfl
@[simp] theorem updCtx_wrote (c : Nat) (f : Ctx → Ctx) : (s.updCtx c f).wrote = s.wrote := rfl
@[simp] theorem updCtx_writes (c : Nat) (f : Ctx → Ctx) : (s.updCtx c f).writes = s.writes := rfl
@[simp] theorem updCtx_l2 (c : Nat) (f : Ctx → Ctx) : (s.updCtx c f).l2 = s.l2 := rfl
@[simp] theorem updCtx_locks (c : Nat) (f : Ctx → Ctx) : (s.updCtx c f).locks = s.locks := rfl
@[simp] theorem updCtx_shootHdr (c : Nat) (f : Ctx → Ctx) : (s.updCtx c f).shootHdr = s.shootHdr := rfl
@[simp] theorem updCtx_shoot (c : Nat) (f : Ctx → Ctx) : (s.updCtx c f).shoot = s.shoot := rfl
@[simp] theorem updCtx_faults (c : Nat) (f : Ctx → Ctx) : (s.updCtx c f).faults = s.faults := rfl
@[simp] theorem updCtx_cores (c : Nat) (f : Ctx → Ctx) : (s.updCtx c f).cores = s.cores := rfl
@[simp] theorem updCtx_caddy (c : Nat) (f : Ctx → Ctx) : (s.updCtx c f).caddy = s.caddy := rfl
@[simp] theorem updCtx_invs (c : Nat) (f : Ctx → Ctx) : (s.updCtx c f).invs = s.invs := rfl
@[simp] theorem updCtx_forms (c : Nat) (f : Ctx → Ctx) : (s.updCtx c f).forms = s.forms := rfl
@[simp] theorem updCtx_stks (c : Nat) (f : Ctx → Ctx) : (s.updCtx c f).stks = s.stks := rfl
@[simp] theorem updCtx_stackReqs (c : Nat) (f : Ctx → Ctx) : (s.updCtx c f).stackReqs = s.stackReqs := rfl
@[simp] theorem updCtx_tierq (c : Nat) (f : Ctx → Ctx) : (s.updCtx c f).tierq = s.tierq := rfl
@[simp] theorem updCtx_migs (c : Nat) (f : Ctx → Ctx) : (s.updCtx c f).migs = s.migs := rfl
@[simp] theorem updCtx_pages (c : Nat) (f : Ctx → Ctx) : (s.updCtx c f).pages = s.pages := rfl
@[simp] theorem updCtx_badFrames (c : Nat) (f : Ctx → Ctx) : (s.updCtx c f).badFrames = s.badFrames := rfl
@[simp] theorem updCtx_esuDescs (c : Nat) (f : Ctx → Ctx) : (s.updCtx c f).esuDescs = s.esuDescs := rfl
@[simp] theorem updCtx_appends (c : Nat) (f : Ctx → Ctx) : (s.updCtx c f).appends = s.appends := rfl
@[simp] theorem updCtx_gens (c : Nat) (f : Ctx → Ctx) : (s.updCtx c f).gens = s.gens := rfl
@[simp] theorem updCtx_dbg (c : Nat) (f : Ctx → Ctx) : (s.updCtx c f).dbg = s.dbg := rfl
@[simp] theorem updCtx_cycle (c : Nat) (f : Ctx → Ctx) : (s.updCtx c f).cycle = s.cycle := rfl
@[simp] theorem updCtx_occ (c : Nat) (f : Ctx → Ctx) : (s.updCtx c f).occ = s.occ := rfl
@[simp] theorem updCtx_ir (c : Nat) (f : Ctx → Ctx) : (s.updCtx c f).ir = s.ir := rfl
@[simp] theorem updCtx_cur (c : Nat) (f : Ctx → Ctx) : (s.updCtx c f).cur = s.cur := rfl
@[simp] theorem updCtx_issued (c : Nat) (f : Ctx → Ctx) : (s.updCtx c f).issued = s.issued := rfl
@[simp] theorem updCtx_tried (c : Nat) (f : Ctx → Ctx) : (s.updCtx c f).tried = s.tried := rfl
@[simp] theorem updCtx_agenda (c : Nat) (f : Ctx → Ctx) : (s.updCtx c f).agenda = s.agenda := rfl
@[simp] theorem updCtx_fresh (c : Nat) (f : Ctx → Ctx) : (s.updCtx c f).fresh = s.fresh := rfl
@[simp] theorem updCtx_freeCtr (c : Nat) (f : Ctx → Ctx) : (s.updCtx c f).freeCtr = s.freeCtr := rfl

/-! ## updQueue -/

@[simp] theorem updQueue_pkg (q : Nat) (f : Queue → Queue) : (s.updQueue q f).pkg = s.pkg := rfl
@[simp] theorem updQueue_host (q : Nat) (f : Queue → Queue) : (s.updQueue q f).host = s.host := rfl
@[simp] theorem updQueue_ctxs (q : Nat) (f : Queue → Queue) : (s.updQueue q f).ctxs = s.ctxs := rfl
@[simp] theorem updQueue_queues (q : Nat) (f : Queue → Queue) : (s.updQueue q f).queues = Tab.put s.queues q (f (s.queue q)) := rfl
@[simp] theorem updQueue_lastServed (q : Nat) (f : Queue → Queue) : (s.updQueue q f).lastServed = s.lastServed := rfl
@[simp] theorem updQueue_lastDealt (q : Nat) (f : Queue → Queue) : (s.updQueue q f).lastDealt = s.lastDealt := rfl
@[simp] theorem updQueue_outs (q : Nat) (f : Queue → Queue) : (s.updQueue q f).outs = s.outs := rfl
@[simp] theorem updQueue_pushers (q : Nat) (f : Queue → Queue) : (s.updQueue q f).pushers = s.pushers := rfl
@[simp] theorem updQueue_ringWaits (q : Nat) (f : Queue → Queue) : (s.updQueue q f).ringWaits = s.ringWaits := rfl
@[simp] theorem updQueue_grids (q : Nat) (f : Queue → Queue) : (s.updQueue q f).grids = s.grids := rfl
@[simp] theorem updQueue_teams (q : Nat) (f : Queue → Queue) : (s.updQueue q f).teams = s.teams := rfl
@[simp] theorem updQueue_waves (q : Nat) (f : Queue → Queue) : (s.updQueue q f).waves = s.waves := rfl
@[simp] theorem updQueue_accs (q : Nat) (f : Queue → Queue) : (s.updQueue q f).accs = s.accs := rfl
@[simp] theorem updQueue_lands (q : Nat) (f : Queue → Queue) : (s.updQueue q f).lands = s.lands := rfl
@[simp] theorem updQueue_mem (q : Nat) (f : Queue → Queue) : (s.updQueue q f).mem = s.mem := rfl
@[simp] theorem updQueue_tlb (q : Nat) (f : Queue → Queue) : (s.updQueue q f).tlb = s.tlb := rfl
@[simp] theorem updQueue_walks (q : Nat) (f : Queue → Queue) : (s.updQueue q f).walks = s.walks := rfl
@[simp] theorem updQueue_misses (q : Nat) (f : Queue → Queue) : (s.updQueue q f).misses = s.misses := rfl
@[simp] theorem updQueue_copies (q : Nat) (f : Queue → Queue) : (s.updQueue q f).copies = s.copies := rfl
@[simp] theorem updQueue_wrote (q : Nat) (f : Queue → Queue) : (s.updQueue q f).wrote = s.wrote := rfl
@[simp] theorem updQueue_writes (q : Nat) (f : Queue → Queue) : (s.updQueue q f).writes = s.writes := rfl
@[simp] theorem updQueue_l2 (q : Nat) (f : Queue → Queue) : (s.updQueue q f).l2 = s.l2 := rfl
@[simp] theorem updQueue_locks (q : Nat) (f : Queue → Queue) : (s.updQueue q f).locks = s.locks := rfl
@[simp] theorem updQueue_shootHdr (q : Nat) (f : Queue → Queue) : (s.updQueue q f).shootHdr = s.shootHdr := rfl
@[simp] theorem updQueue_shoot (q : Nat) (f : Queue → Queue) : (s.updQueue q f).shoot = s.shoot := rfl
@[simp] theorem updQueue_faults (q : Nat) (f : Queue → Queue) : (s.updQueue q f).faults = s.faults := rfl
@[simp] theorem updQueue_cores (q : Nat) (f : Queue → Queue) : (s.updQueue q f).cores = s.cores := rfl
@[simp] theorem updQueue_caddy (q : Nat) (f : Queue → Queue) : (s.updQueue q f).caddy = s.caddy := rfl
@[simp] theorem updQueue_invs (q : Nat) (f : Queue → Queue) : (s.updQueue q f).invs = s.invs := rfl
@[simp] theorem updQueue_forms (q : Nat) (f : Queue → Queue) : (s.updQueue q f).forms = s.forms := rfl
@[simp] theorem updQueue_stks (q : Nat) (f : Queue → Queue) : (s.updQueue q f).stks = s.stks := rfl
@[simp] theorem updQueue_stackReqs (q : Nat) (f : Queue → Queue) : (s.updQueue q f).stackReqs = s.stackReqs := rfl
@[simp] theorem updQueue_tierq (q : Nat) (f : Queue → Queue) : (s.updQueue q f).tierq = s.tierq := rfl
@[simp] theorem updQueue_migs (q : Nat) (f : Queue → Queue) : (s.updQueue q f).migs = s.migs := rfl
@[simp] theorem updQueue_pages (q : Nat) (f : Queue → Queue) : (s.updQueue q f).pages = s.pages := rfl
@[simp] theorem updQueue_badFrames (q : Nat) (f : Queue → Queue) : (s.updQueue q f).badFrames = s.badFrames := rfl
@[simp] theorem updQueue_esuDescs (q : Nat) (f : Queue → Queue) : (s.updQueue q f).esuDescs = s.esuDescs := rfl
@[simp] theorem updQueue_appends (q : Nat) (f : Queue → Queue) : (s.updQueue q f).appends = s.appends := rfl
@[simp] theorem updQueue_gens (q : Nat) (f : Queue → Queue) : (s.updQueue q f).gens = s.gens := rfl
@[simp] theorem updQueue_dbg (q : Nat) (f : Queue → Queue) : (s.updQueue q f).dbg = s.dbg := rfl
@[simp] theorem updQueue_cycle (q : Nat) (f : Queue → Queue) : (s.updQueue q f).cycle = s.cycle := rfl
@[simp] theorem updQueue_occ (q : Nat) (f : Queue → Queue) : (s.updQueue q f).occ = s.occ := rfl
@[simp] theorem updQueue_ir (q : Nat) (f : Queue → Queue) : (s.updQueue q f).ir = s.ir := rfl
@[simp] theorem updQueue_cur (q : Nat) (f : Queue → Queue) : (s.updQueue q f).cur = s.cur := rfl
@[simp] theorem updQueue_issued (q : Nat) (f : Queue → Queue) : (s.updQueue q f).issued = s.issued := rfl
@[simp] theorem updQueue_tried (q : Nat) (f : Queue → Queue) : (s.updQueue q f).tried = s.tried := rfl
@[simp] theorem updQueue_agenda (q : Nat) (f : Queue → Queue) : (s.updQueue q f).agenda = s.agenda := rfl
@[simp] theorem updQueue_fresh (q : Nat) (f : Queue → Queue) : (s.updQueue q f).fresh = s.fresh := rfl
@[simp] theorem updQueue_freeCtr (q : Nat) (f : Queue → Queue) : (s.updQueue q f).freeCtr = s.freeCtr := rfl

/-! ## updCore -/

@[simp] theorem updCore_pkg (k : Nat) (f : CoreSt → CoreSt) : (s.updCore k f).pkg = s.pkg := rfl
@[simp] theorem updCore_host (k : Nat) (f : CoreSt → CoreSt) : (s.updCore k f).host = s.host := rfl
@[simp] theorem updCore_ctxs (k : Nat) (f : CoreSt → CoreSt) : (s.updCore k f).ctxs = s.ctxs := rfl
@[simp] theorem updCore_queues (k : Nat) (f : CoreSt → CoreSt) : (s.updCore k f).queues = s.queues := rfl
@[simp] theorem updCore_lastServed (k : Nat) (f : CoreSt → CoreSt) : (s.updCore k f).lastServed = s.lastServed := rfl
@[simp] theorem updCore_lastDealt (k : Nat) (f : CoreSt → CoreSt) : (s.updCore k f).lastDealt = s.lastDealt := rfl
@[simp] theorem updCore_outs (k : Nat) (f : CoreSt → CoreSt) : (s.updCore k f).outs = s.outs := rfl
@[simp] theorem updCore_pushers (k : Nat) (f : CoreSt → CoreSt) : (s.updCore k f).pushers = s.pushers := rfl
@[simp] theorem updCore_ringWaits (k : Nat) (f : CoreSt → CoreSt) : (s.updCore k f).ringWaits = s.ringWaits := rfl
@[simp] theorem updCore_grids (k : Nat) (f : CoreSt → CoreSt) : (s.updCore k f).grids = s.grids := rfl
@[simp] theorem updCore_teams (k : Nat) (f : CoreSt → CoreSt) : (s.updCore k f).teams = s.teams := rfl
@[simp] theorem updCore_waves (k : Nat) (f : CoreSt → CoreSt) : (s.updCore k f).waves = s.waves := rfl
@[simp] theorem updCore_accs (k : Nat) (f : CoreSt → CoreSt) : (s.updCore k f).accs = s.accs := rfl
@[simp] theorem updCore_lands (k : Nat) (f : CoreSt → CoreSt) : (s.updCore k f).lands = s.lands := rfl
@[simp] theorem updCore_mem (k : Nat) (f : CoreSt → CoreSt) : (s.updCore k f).mem = s.mem := rfl
@[simp] theorem updCore_tlb (k : Nat) (f : CoreSt → CoreSt) : (s.updCore k f).tlb = s.tlb := rfl
@[simp] theorem updCore_walks (k : Nat) (f : CoreSt → CoreSt) : (s.updCore k f).walks = s.walks := rfl
@[simp] theorem updCore_misses (k : Nat) (f : CoreSt → CoreSt) : (s.updCore k f).misses = s.misses := rfl
@[simp] theorem updCore_copies (k : Nat) (f : CoreSt → CoreSt) : (s.updCore k f).copies = s.copies := rfl
@[simp] theorem updCore_wrote (k : Nat) (f : CoreSt → CoreSt) : (s.updCore k f).wrote = s.wrote := rfl
@[simp] theorem updCore_writes (k : Nat) (f : CoreSt → CoreSt) : (s.updCore k f).writes = s.writes := rfl
@[simp] theorem updCore_l2 (k : Nat) (f : CoreSt → CoreSt) : (s.updCore k f).l2 = s.l2 := rfl
@[simp] theorem updCore_locks (k : Nat) (f : CoreSt → CoreSt) : (s.updCore k f).locks = s.locks := rfl
@[simp] theorem updCore_shootHdr (k : Nat) (f : CoreSt → CoreSt) : (s.updCore k f).shootHdr = s.shootHdr := rfl
@[simp] theorem updCore_shoot (k : Nat) (f : CoreSt → CoreSt) : (s.updCore k f).shoot = s.shoot := rfl
@[simp] theorem updCore_faults (k : Nat) (f : CoreSt → CoreSt) : (s.updCore k f).faults = s.faults := rfl
@[simp] theorem updCore_cores (k : Nat) (f : CoreSt → CoreSt) : (s.updCore k f).cores = Tab.put s.cores k (f (s.core k)) := rfl
@[simp] theorem updCore_caddy (k : Nat) (f : CoreSt → CoreSt) : (s.updCore k f).caddy = s.caddy := rfl
@[simp] theorem updCore_invs (k : Nat) (f : CoreSt → CoreSt) : (s.updCore k f).invs = s.invs := rfl
@[simp] theorem updCore_forms (k : Nat) (f : CoreSt → CoreSt) : (s.updCore k f).forms = s.forms := rfl
@[simp] theorem updCore_stks (k : Nat) (f : CoreSt → CoreSt) : (s.updCore k f).stks = s.stks := rfl
@[simp] theorem updCore_stackReqs (k : Nat) (f : CoreSt → CoreSt) : (s.updCore k f).stackReqs = s.stackReqs := rfl
@[simp] theorem updCore_tierq (k : Nat) (f : CoreSt → CoreSt) : (s.updCore k f).tierq = s.tierq := rfl
@[simp] theorem updCore_migs (k : Nat) (f : CoreSt → CoreSt) : (s.updCore k f).migs = s.migs := rfl
@[simp] theorem updCore_pages (k : Nat) (f : CoreSt → CoreSt) : (s.updCore k f).pages = s.pages := rfl
@[simp] theorem updCore_badFrames (k : Nat) (f : CoreSt → CoreSt) : (s.updCore k f).badFrames = s.badFrames := rfl
@[simp] theorem updCore_esuDescs (k : Nat) (f : CoreSt → CoreSt) : (s.updCore k f).esuDescs = s.esuDescs := rfl
@[simp] theorem updCore_appends (k : Nat) (f : CoreSt → CoreSt) : (s.updCore k f).appends = s.appends := rfl
@[simp] theorem updCore_gens (k : Nat) (f : CoreSt → CoreSt) : (s.updCore k f).gens = s.gens := rfl
@[simp] theorem updCore_dbg (k : Nat) (f : CoreSt → CoreSt) : (s.updCore k f).dbg = s.dbg := rfl
@[simp] theorem updCore_cycle (k : Nat) (f : CoreSt → CoreSt) : (s.updCore k f).cycle = s.cycle := rfl
@[simp] theorem updCore_occ (k : Nat) (f : CoreSt → CoreSt) : (s.updCore k f).occ = s.occ := rfl
@[simp] theorem updCore_ir (k : Nat) (f : CoreSt → CoreSt) : (s.updCore k f).ir = s.ir := rfl
@[simp] theorem updCore_cur (k : Nat) (f : CoreSt → CoreSt) : (s.updCore k f).cur = s.cur := rfl
@[simp] theorem updCore_issued (k : Nat) (f : CoreSt → CoreSt) : (s.updCore k f).issued = s.issued := rfl
@[simp] theorem updCore_tried (k : Nat) (f : CoreSt → CoreSt) : (s.updCore k f).tried = s.tried := rfl
@[simp] theorem updCore_agenda (k : Nat) (f : CoreSt → CoreSt) : (s.updCore k f).agenda = s.agenda := rfl
@[simp] theorem updCore_fresh (k : Nat) (f : CoreSt → CoreSt) : (s.updCore k f).fresh = s.fresh := rfl
@[simp] theorem updCore_freeCtr (k : Nat) (f : CoreSt → CoreSt) : (s.updCore k f).freeCtr = s.freeCtr := rfl

/-! ## updWave -/

@[simp] theorem updWave_pkg (uid : Nat) (f : Wave → Wave) : (s.updWave uid f).pkg = s.pkg := rfl
@[simp] theorem updWave_host (uid : Nat) (f : Wave → Wave) : (s.updWave uid f).host = s.host := rfl
@[simp] theorem updWave_ctxs (uid : Nat) (f : Wave → Wave) : (s.updWave uid f).ctxs = s.ctxs := rfl
@[simp] theorem updWave_queues (uid : Nat) (f : Wave → Wave) : (s.updWave uid f).queues = s.queues := rfl
@[simp] theorem updWave_lastServed (uid : Nat) (f : Wave → Wave) : (s.updWave uid f).lastServed = s.lastServed := rfl
@[simp] theorem updWave_lastDealt (uid : Nat) (f : Wave → Wave) : (s.updWave uid f).lastDealt = s.lastDealt := rfl
@[simp] theorem updWave_outs (uid : Nat) (f : Wave → Wave) : (s.updWave uid f).outs = s.outs := rfl
@[simp] theorem updWave_pushers (uid : Nat) (f : Wave → Wave) : (s.updWave uid f).pushers = s.pushers := rfl
@[simp] theorem updWave_ringWaits (uid : Nat) (f : Wave → Wave) : (s.updWave uid f).ringWaits = s.ringWaits := rfl
@[simp] theorem updWave_grids (uid : Nat) (f : Wave → Wave) : (s.updWave uid f).grids = s.grids := rfl
@[simp] theorem updWave_teams (uid : Nat) (f : Wave → Wave) : (s.updWave uid f).teams = s.teams := rfl
@[simp] theorem updWave_waves (uid : Nat) (f : Wave → Wave) : (s.updWave uid f).waves = s.waves.map (fun w => if w.uid == uid then f w else w) := rfl
@[simp] theorem updWave_accs (uid : Nat) (f : Wave → Wave) : (s.updWave uid f).accs = s.accs := rfl
@[simp] theorem updWave_lands (uid : Nat) (f : Wave → Wave) : (s.updWave uid f).lands = s.lands := rfl
@[simp] theorem updWave_mem (uid : Nat) (f : Wave → Wave) : (s.updWave uid f).mem = s.mem := rfl
@[simp] theorem updWave_tlb (uid : Nat) (f : Wave → Wave) : (s.updWave uid f).tlb = s.tlb := rfl
@[simp] theorem updWave_walks (uid : Nat) (f : Wave → Wave) : (s.updWave uid f).walks = s.walks := rfl
@[simp] theorem updWave_misses (uid : Nat) (f : Wave → Wave) : (s.updWave uid f).misses = s.misses := rfl
@[simp] theorem updWave_copies (uid : Nat) (f : Wave → Wave) : (s.updWave uid f).copies = s.copies := rfl
@[simp] theorem updWave_wrote (uid : Nat) (f : Wave → Wave) : (s.updWave uid f).wrote = s.wrote := rfl
@[simp] theorem updWave_writes (uid : Nat) (f : Wave → Wave) : (s.updWave uid f).writes = s.writes := rfl
@[simp] theorem updWave_l2 (uid : Nat) (f : Wave → Wave) : (s.updWave uid f).l2 = s.l2 := rfl
@[simp] theorem updWave_locks (uid : Nat) (f : Wave → Wave) : (s.updWave uid f).locks = s.locks := rfl
@[simp] theorem updWave_shootHdr (uid : Nat) (f : Wave → Wave) : (s.updWave uid f).shootHdr = s.shootHdr := rfl
@[simp] theorem updWave_shoot (uid : Nat) (f : Wave → Wave) : (s.updWave uid f).shoot = s.shoot := rfl
@[simp] theorem updWave_faults (uid : Nat) (f : Wave → Wave) : (s.updWave uid f).faults = s.faults := rfl
@[simp] theorem updWave_cores (uid : Nat) (f : Wave → Wave) : (s.updWave uid f).cores = s.cores := rfl
@[simp] theorem updWave_caddy (uid : Nat) (f : Wave → Wave) : (s.updWave uid f).caddy = s.caddy := rfl
@[simp] theorem updWave_invs (uid : Nat) (f : Wave → Wave) : (s.updWave uid f).invs = s.invs := rfl
@[simp] theorem updWave_forms (uid : Nat) (f : Wave → Wave) : (s.updWave uid f).forms = s.forms := rfl
@[simp] theorem updWave_stks (uid : Nat) (f : Wave → Wave) : (s.updWave uid f).stks = s.stks := rfl
@[simp] theorem updWave_stackReqs (uid : Nat) (f : Wave → Wave) : (s.updWave uid f).stackReqs = s.stackReqs := rfl
@[simp] theorem updWave_tierq (uid : Nat) (f : Wave → Wave) : (s.updWave uid f).tierq = s.tierq := rfl
@[simp] theorem updWave_migs (uid : Nat) (f : Wave → Wave) : (s.updWave uid f).migs = s.migs := rfl
@[simp] theorem updWave_pages (uid : Nat) (f : Wave → Wave) : (s.updWave uid f).pages = s.pages := rfl
@[simp] theorem updWave_badFrames (uid : Nat) (f : Wave → Wave) : (s.updWave uid f).badFrames = s.badFrames := rfl
@[simp] theorem updWave_esuDescs (uid : Nat) (f : Wave → Wave) : (s.updWave uid f).esuDescs = s.esuDescs := rfl
@[simp] theorem updWave_appends (uid : Nat) (f : Wave → Wave) : (s.updWave uid f).appends = s.appends := rfl
@[simp] theorem updWave_gens (uid : Nat) (f : Wave → Wave) : (s.updWave uid f).gens = s.gens := rfl
@[simp] theorem updWave_dbg (uid : Nat) (f : Wave → Wave) : (s.updWave uid f).dbg = s.dbg := rfl
@[simp] theorem updWave_cycle (uid : Nat) (f : Wave → Wave) : (s.updWave uid f).cycle = s.cycle := rfl
@[simp] theorem updWave_occ (uid : Nat) (f : Wave → Wave) : (s.updWave uid f).occ = s.occ := rfl
@[simp] theorem updWave_ir (uid : Nat) (f : Wave → Wave) : (s.updWave uid f).ir = s.ir := rfl
@[simp] theorem updWave_cur (uid : Nat) (f : Wave → Wave) : (s.updWave uid f).cur = s.cur := rfl
@[simp] theorem updWave_issued (uid : Nat) (f : Wave → Wave) : (s.updWave uid f).issued = s.issued := rfl
@[simp] theorem updWave_tried (uid : Nat) (f : Wave → Wave) : (s.updWave uid f).tried = s.tried := rfl
@[simp] theorem updWave_agenda (uid : Nat) (f : Wave → Wave) : (s.updWave uid f).agenda = s.agenda := rfl
@[simp] theorem updWave_fresh (uid : Nat) (f : Wave → Wave) : (s.updWave uid f).fresh = s.fresh := rfl
@[simp] theorem updWave_freeCtr (uid : Nat) (f : Wave → Wave) : (s.updWave uid f).freeCtr = s.freeCtr := rfl

/-! ## updTeam -/

@[simp] theorem updTeam_pkg (tid : Nat) (f : Team → Team) : (s.updTeam tid f).pkg = s.pkg := rfl
@[simp] theorem updTeam_host (tid : Nat) (f : Team → Team) : (s.updTeam tid f).host = s.host := rfl
@[simp] theorem updTeam_ctxs (tid : Nat) (f : Team → Team) : (s.updTeam tid f).ctxs = s.ctxs := rfl
@[simp] theorem updTeam_queues (tid : Nat) (f : Team → Team) : (s.updTeam tid f).queues = s.queues := rfl
@[simp] theorem updTeam_lastServed (tid : Nat) (f : Team → Team) : (s.updTeam tid f).lastServed = s.lastServed := rfl
@[simp] theorem updTeam_lastDealt (tid : Nat) (f : Team → Team) : (s.updTeam tid f).lastDealt = s.lastDealt := rfl
@[simp] theorem updTeam_outs (tid : Nat) (f : Team → Team) : (s.updTeam tid f).outs = s.outs := rfl
@[simp] theorem updTeam_pushers (tid : Nat) (f : Team → Team) : (s.updTeam tid f).pushers = s.pushers := rfl
@[simp] theorem updTeam_ringWaits (tid : Nat) (f : Team → Team) : (s.updTeam tid f).ringWaits = s.ringWaits := rfl
@[simp] theorem updTeam_grids (tid : Nat) (f : Team → Team) : (s.updTeam tid f).grids = s.grids := rfl
@[simp] theorem updTeam_teams (tid : Nat) (f : Team → Team) : (s.updTeam tid f).teams = s.teams.map (fun t => if t.tid == tid then f t else t) := rfl
@[simp] theorem updTeam_waves (tid : Nat) (f : Team → Team) : (s.updTeam tid f).waves = s.waves := rfl
@[simp] theorem updTeam_accs (tid : Nat) (f : Team → Team) : (s.updTeam tid f).accs = s.accs := rfl
@[simp] theorem updTeam_lands (tid : Nat) (f : Team → Team) : (s.updTeam tid f).lands = s.lands := rfl
@[simp] theorem updTeam_mem (tid : Nat) (f : Team → Team) : (s.updTeam tid f).mem = s.mem := rfl
@[simp] theorem updTeam_tlb (tid : Nat) (f : Team → Team) : (s.updTeam tid f).tlb = s.tlb := rfl
@[simp] theorem updTeam_walks (tid : Nat) (f : Team → Team) : (s.updTeam tid f).walks = s.walks := rfl
@[simp] theorem updTeam_misses (tid : Nat) (f : Team → Team) : (s.updTeam tid f).misses = s.misses := rfl
@[simp] theorem updTeam_copies (tid : Nat) (f : Team → Team) : (s.updTeam tid f).copies = s.copies := rfl
@[simp] theorem updTeam_wrote (tid : Nat) (f : Team → Team) : (s.updTeam tid f).wrote = s.wrote := rfl
@[simp] theorem updTeam_writes (tid : Nat) (f : Team → Team) : (s.updTeam tid f).writes = s.writes := rfl
@[simp] theorem updTeam_l2 (tid : Nat) (f : Team → Team) : (s.updTeam tid f).l2 = s.l2 := rfl
@[simp] theorem updTeam_locks (tid : Nat) (f : Team → Team) : (s.updTeam tid f).locks = s.locks := rfl
@[simp] theorem updTeam_shootHdr (tid : Nat) (f : Team → Team) : (s.updTeam tid f).shootHdr = s.shootHdr := rfl
@[simp] theorem updTeam_shoot (tid : Nat) (f : Team → Team) : (s.updTeam tid f).shoot = s.shoot := rfl
@[simp] theorem updTeam_faults (tid : Nat) (f : Team → Team) : (s.updTeam tid f).faults = s.faults := rfl
@[simp] theorem updTeam_cores (tid : Nat) (f : Team → Team) : (s.updTeam tid f).cores = s.cores := rfl
@[simp] theorem updTeam_caddy (tid : Nat) (f : Team → Team) : (s.updTeam tid f).caddy = s.caddy := rfl
@[simp] theorem updTeam_invs (tid : Nat) (f : Team → Team) : (s.updTeam tid f).invs = s.invs := rfl
@[simp] theorem updTeam_forms (tid : Nat) (f : Team → Team) : (s.updTeam tid f).forms = s.forms := rfl
@[simp] theorem updTeam_stks (tid : Nat) (f : Team → Team) : (s.updTeam tid f).stks = s.stks := rfl
@[simp] theorem updTeam_stackReqs (tid : Nat) (f : Team → Team) : (s.updTeam tid f).stackReqs = s.stackReqs := rfl
@[simp] theorem updTeam_tierq (tid : Nat) (f : Team → Team) : (s.updTeam tid f).tierq = s.tierq := rfl
@[simp] theorem updTeam_migs (tid : Nat) (f : Team → Team) : (s.updTeam tid f).migs = s.migs := rfl
@[simp] theorem updTeam_pages (tid : Nat) (f : Team → Team) : (s.updTeam tid f).pages = s.pages := rfl
@[simp] theorem updTeam_badFrames (tid : Nat) (f : Team → Team) : (s.updTeam tid f).badFrames = s.badFrames := rfl
@[simp] theorem updTeam_esuDescs (tid : Nat) (f : Team → Team) : (s.updTeam tid f).esuDescs = s.esuDescs := rfl
@[simp] theorem updTeam_appends (tid : Nat) (f : Team → Team) : (s.updTeam tid f).appends = s.appends := rfl
@[simp] theorem updTeam_gens (tid : Nat) (f : Team → Team) : (s.updTeam tid f).gens = s.gens := rfl
@[simp] theorem updTeam_dbg (tid : Nat) (f : Team → Team) : (s.updTeam tid f).dbg = s.dbg := rfl
@[simp] theorem updTeam_cycle (tid : Nat) (f : Team → Team) : (s.updTeam tid f).cycle = s.cycle := rfl
@[simp] theorem updTeam_occ (tid : Nat) (f : Team → Team) : (s.updTeam tid f).occ = s.occ := rfl
@[simp] theorem updTeam_ir (tid : Nat) (f : Team → Team) : (s.updTeam tid f).ir = s.ir := rfl
@[simp] theorem updTeam_cur (tid : Nat) (f : Team → Team) : (s.updTeam tid f).cur = s.cur := rfl
@[simp] theorem updTeam_issued (tid : Nat) (f : Team → Team) : (s.updTeam tid f).issued = s.issued := rfl
@[simp] theorem updTeam_tried (tid : Nat) (f : Team → Team) : (s.updTeam tid f).tried = s.tried := rfl
@[simp] theorem updTeam_agenda (tid : Nat) (f : Team → Team) : (s.updTeam tid f).agenda = s.agenda := rfl
@[simp] theorem updTeam_fresh (tid : Nat) (f : Team → Team) : (s.updTeam tid f).fresh = s.fresh := rfl
@[simp] theorem updTeam_freeCtr (tid : Nat) (f : Team → Team) : (s.updTeam tid f).freeCtr = s.freeCtr := rfl

/-! ## updGrid -/

@[simp] theorem updGrid_pkg (gid : Nat) (f : Grid → Grid) : (s.updGrid gid f).pkg = s.pkg := rfl
@[simp] theorem updGrid_host (gid : Nat) (f : Grid → Grid) : (s.updGrid gid f).host = s.host := rfl
@[simp] theorem updGrid_ctxs (gid : Nat) (f : Grid → Grid) : (s.updGrid gid f).ctxs = s.ctxs := rfl
@[simp] theorem updGrid_queues (gid : Nat) (f : Grid → Grid) : (s.updGrid gid f).queues = s.queues := rfl
@[simp] theorem updGrid_lastServed (gid : Nat) (f : Grid → Grid) : (s.updGrid gid f).lastServed = s.lastServed := rfl
@[simp] theorem updGrid_lastDealt (gid : Nat) (f : Grid → Grid) : (s.updGrid gid f).lastDealt = s.lastDealt := rfl
@[simp] theorem updGrid_outs (gid : Nat) (f : Grid → Grid) : (s.updGrid gid f).outs = s.outs := rfl
@[simp] theorem updGrid_pushers (gid : Nat) (f : Grid → Grid) : (s.updGrid gid f).pushers = s.pushers := rfl
@[simp] theorem updGrid_ringWaits (gid : Nat) (f : Grid → Grid) : (s.updGrid gid f).ringWaits = s.ringWaits := rfl
@[simp] theorem updGrid_grids (gid : Nat) (f : Grid → Grid) : (s.updGrid gid f).grids = s.grids.map (fun g => if g.gid == gid then f g else g) := rfl
@[simp] theorem updGrid_teams (gid : Nat) (f : Grid → Grid) : (s.updGrid gid f).teams = s.teams := rfl
@[simp] theorem updGrid_waves (gid : Nat) (f : Grid → Grid) : (s.updGrid gid f).waves = s.waves := rfl
@[simp] theorem updGrid_accs (gid : Nat) (f : Grid → Grid) : (s.updGrid gid f).accs = s.accs := rfl
@[simp] theorem updGrid_lands (gid : Nat) (f : Grid → Grid) : (s.updGrid gid f).lands = s.lands := rfl
@[simp] theorem updGrid_mem (gid : Nat) (f : Grid → Grid) : (s.updGrid gid f).mem = s.mem := rfl
@[simp] theorem updGrid_tlb (gid : Nat) (f : Grid → Grid) : (s.updGrid gid f).tlb = s.tlb := rfl
@[simp] theorem updGrid_walks (gid : Nat) (f : Grid → Grid) : (s.updGrid gid f).walks = s.walks := rfl
@[simp] theorem updGrid_misses (gid : Nat) (f : Grid → Grid) : (s.updGrid gid f).misses = s.misses := rfl
@[simp] theorem updGrid_copies (gid : Nat) (f : Grid → Grid) : (s.updGrid gid f).copies = s.copies := rfl
@[simp] theorem updGrid_wrote (gid : Nat) (f : Grid → Grid) : (s.updGrid gid f).wrote = s.wrote := rfl
@[simp] theorem updGrid_writes (gid : Nat) (f : Grid → Grid) : (s.updGrid gid f).writes = s.writes := rfl
@[simp] theorem updGrid_l2 (gid : Nat) (f : Grid → Grid) : (s.updGrid gid f).l2 = s.l2 := rfl
@[simp] theorem updGrid_locks (gid : Nat) (f : Grid → Grid) : (s.updGrid gid f).locks = s.locks := rfl
@[simp] theorem updGrid_shootHdr (gid : Nat) (f : Grid → Grid) : (s.updGrid gid f).shootHdr = s.shootHdr := rfl
@[simp] theorem updGrid_shoot (gid : Nat) (f : Grid → Grid) : (s.updGrid gid f).shoot = s.shoot := rfl
@[simp] theorem updGrid_faults (gid : Nat) (f : Grid → Grid) : (s.updGrid gid f).faults = s.faults := rfl
@[simp] theorem updGrid_cores (gid : Nat) (f : Grid → Grid) : (s.updGrid gid f).cores = s.cores := rfl
@[simp] theorem updGrid_caddy (gid : Nat) (f : Grid → Grid) : (s.updGrid gid f).caddy = s.caddy := rfl
@[simp] theorem updGrid_invs (gid : Nat) (f : Grid → Grid) : (s.updGrid gid f).invs = s.invs := rfl
@[simp] theorem updGrid_forms (gid : Nat) (f : Grid → Grid) : (s.updGrid gid f).forms = s.forms := rfl
@[simp] theorem updGrid_stks (gid : Nat) (f : Grid → Grid) : (s.updGrid gid f).stks = s.stks := rfl
@[simp] theorem updGrid_stackReqs (gid : Nat) (f : Grid → Grid) : (s.updGrid gid f).stackReqs = s.stackReqs := rfl
@[simp] theorem updGrid_tierq (gid : Nat) (f : Grid → Grid) : (s.updGrid gid f).tierq = s.tierq := rfl
@[simp] theorem updGrid_migs (gid : Nat) (f : Grid → Grid) : (s.updGrid gid f).migs = s.migs := rfl
@[simp] theorem updGrid_pages (gid : Nat) (f : Grid → Grid) : (s.updGrid gid f).pages = s.pages := rfl
@[simp] theorem updGrid_badFrames (gid : Nat) (f : Grid → Grid) : (s.updGrid gid f).badFrames = s.badFrames := rfl
@[simp] theorem updGrid_esuDescs (gid : Nat) (f : Grid → Grid) : (s.updGrid gid f).esuDescs = s.esuDescs := rfl
@[simp] theorem updGrid_appends (gid : Nat) (f : Grid → Grid) : (s.updGrid gid f).appends = s.appends := rfl
@[simp] theorem updGrid_gens (gid : Nat) (f : Grid → Grid) : (s.updGrid gid f).gens = s.gens := rfl
@[simp] theorem updGrid_dbg (gid : Nat) (f : Grid → Grid) : (s.updGrid gid f).dbg = s.dbg := rfl
@[simp] theorem updGrid_cycle (gid : Nat) (f : Grid → Grid) : (s.updGrid gid f).cycle = s.cycle := rfl
@[simp] theorem updGrid_occ (gid : Nat) (f : Grid → Grid) : (s.updGrid gid f).occ = s.occ := rfl
@[simp] theorem updGrid_ir (gid : Nat) (f : Grid → Grid) : (s.updGrid gid f).ir = s.ir := rfl
@[simp] theorem updGrid_cur (gid : Nat) (f : Grid → Grid) : (s.updGrid gid f).cur = s.cur := rfl
@[simp] theorem updGrid_issued (gid : Nat) (f : Grid → Grid) : (s.updGrid gid f).issued = s.issued := rfl
@[simp] theorem updGrid_tried (gid : Nat) (f : Grid → Grid) : (s.updGrid gid f).tried = s.tried := rfl
@[simp] theorem updGrid_agenda (gid : Nat) (f : Grid → Grid) : (s.updGrid gid f).agenda = s.agenda := rfl
@[simp] theorem updGrid_fresh (gid : Nat) (f : Grid → Grid) : (s.updGrid gid f).fresh = s.fresh := rfl
@[simp] theorem updGrid_freeCtr (gid : Nat) (f : Grid → Grid) : (s.updGrid gid f).freeCtr = s.freeCtr := rfl

/-! ## updOut -/

@[simp] theorem updOut_pkg (id : Nat) (f : OutPkt → OutPkt) : (s.updOut id f).pkg = s.pkg := rfl
@[simp] theorem updOut_host (id : Nat) (f : OutPkt → OutPkt) : (s.updOut id f).host = s.host := rfl
@[simp] theorem updOut_ctxs (id : Nat) (f : OutPkt → OutPkt) : (s.updOut id f).ctxs = s.ctxs := rfl
@[simp] theorem updOut_queues (id : Nat) (f : OutPkt → OutPkt) : (s.updOut id f).queues = s.queues := rfl
@[simp] theorem updOut_lastServed (id : Nat) (f : OutPkt → OutPkt) : (s.updOut id f).lastServed = s.lastServed := rfl
@[simp] theorem updOut_lastDealt (id : Nat) (f : OutPkt → OutPkt) : (s.updOut id f).lastDealt = s.lastDealt := rfl
@[simp] theorem updOut_outs (id : Nat) (f : OutPkt → OutPkt) : (s.updOut id f).outs = s.outs.map (fun o => if o.id == id then f o else o) := rfl
@[simp] theorem updOut_pushers (id : Nat) (f : OutPkt → OutPkt) : (s.updOut id f).pushers = s.pushers := rfl
@[simp] theorem updOut_ringWaits (id : Nat) (f : OutPkt → OutPkt) : (s.updOut id f).ringWaits = s.ringWaits := rfl
@[simp] theorem updOut_grids (id : Nat) (f : OutPkt → OutPkt) : (s.updOut id f).grids = s.grids := rfl
@[simp] theorem updOut_teams (id : Nat) (f : OutPkt → OutPkt) : (s.updOut id f).teams = s.teams := rfl
@[simp] theorem updOut_waves (id : Nat) (f : OutPkt → OutPkt) : (s.updOut id f).waves = s.waves := rfl
@[simp] theorem updOut_accs (id : Nat) (f : OutPkt → OutPkt) : (s.updOut id f).accs = s.accs := rfl
@[simp] theorem updOut_lands (id : Nat) (f : OutPkt → OutPkt) : (s.updOut id f).lands = s.lands := rfl
@[simp] theorem updOut_mem (id : Nat) (f : OutPkt → OutPkt) : (s.updOut id f).mem = s.mem := rfl
@[simp] theorem updOut_tlb (id : Nat) (f : OutPkt → OutPkt) : (s.updOut id f).tlb = s.tlb := rfl
@[simp] theorem updOut_walks (id : Nat) (f : OutPkt → OutPkt) : (s.updOut id f).walks = s.walks := rfl
@[simp] theorem updOut_misses (id : Nat) (f : OutPkt → OutPkt) : (s.updOut id f).misses = s.misses := rfl
@[simp] theorem updOut_copies (id : Nat) (f : OutPkt → OutPkt) : (s.updOut id f).copies = s.copies := rfl
@[simp] theorem updOut_wrote (id : Nat) (f : OutPkt → OutPkt) : (s.updOut id f).wrote = s.wrote := rfl
@[simp] theorem updOut_writes (id : Nat) (f : OutPkt → OutPkt) : (s.updOut id f).writes = s.writes := rfl
@[simp] theorem updOut_l2 (id : Nat) (f : OutPkt → OutPkt) : (s.updOut id f).l2 = s.l2 := rfl
@[simp] theorem updOut_locks (id : Nat) (f : OutPkt → OutPkt) : (s.updOut id f).locks = s.locks := rfl
@[simp] theorem updOut_shootHdr (id : Nat) (f : OutPkt → OutPkt) : (s.updOut id f).shootHdr = s.shootHdr := rfl
@[simp] theorem updOut_shoot (id : Nat) (f : OutPkt → OutPkt) : (s.updOut id f).shoot = s.shoot := rfl
@[simp] theorem updOut_faults (id : Nat) (f : OutPkt → OutPkt) : (s.updOut id f).faults = s.faults := rfl
@[simp] theorem updOut_cores (id : Nat) (f : OutPkt → OutPkt) : (s.updOut id f).cores = s.cores := rfl
@[simp] theorem updOut_caddy (id : Nat) (f : OutPkt → OutPkt) : (s.updOut id f).caddy = s.caddy := rfl
@[simp] theorem updOut_invs (id : Nat) (f : OutPkt → OutPkt) : (s.updOut id f).invs = s.invs := rfl
@[simp] theorem updOut_forms (id : Nat) (f : OutPkt → OutPkt) : (s.updOut id f).forms = s.forms := rfl
@[simp] theorem updOut_stks (id : Nat) (f : OutPkt → OutPkt) : (s.updOut id f).stks = s.stks := rfl
@[simp] theorem updOut_stackReqs (id : Nat) (f : OutPkt → OutPkt) : (s.updOut id f).stackReqs = s.stackReqs := rfl
@[simp] theorem updOut_tierq (id : Nat) (f : OutPkt → OutPkt) : (s.updOut id f).tierq = s.tierq := rfl
@[simp] theorem updOut_migs (id : Nat) (f : OutPkt → OutPkt) : (s.updOut id f).migs = s.migs := rfl
@[simp] theorem updOut_pages (id : Nat) (f : OutPkt → OutPkt) : (s.updOut id f).pages = s.pages := rfl
@[simp] theorem updOut_badFrames (id : Nat) (f : OutPkt → OutPkt) : (s.updOut id f).badFrames = s.badFrames := rfl
@[simp] theorem updOut_esuDescs (id : Nat) (f : OutPkt → OutPkt) : (s.updOut id f).esuDescs = s.esuDescs := rfl
@[simp] theorem updOut_appends (id : Nat) (f : OutPkt → OutPkt) : (s.updOut id f).appends = s.appends := rfl
@[simp] theorem updOut_gens (id : Nat) (f : OutPkt → OutPkt) : (s.updOut id f).gens = s.gens := rfl
@[simp] theorem updOut_dbg (id : Nat) (f : OutPkt → OutPkt) : (s.updOut id f).dbg = s.dbg := rfl
@[simp] theorem updOut_cycle (id : Nat) (f : OutPkt → OutPkt) : (s.updOut id f).cycle = s.cycle := rfl
@[simp] theorem updOut_occ (id : Nat) (f : OutPkt → OutPkt) : (s.updOut id f).occ = s.occ := rfl
@[simp] theorem updOut_ir (id : Nat) (f : OutPkt → OutPkt) : (s.updOut id f).ir = s.ir := rfl
@[simp] theorem updOut_cur (id : Nat) (f : OutPkt → OutPkt) : (s.updOut id f).cur = s.cur := rfl
@[simp] theorem updOut_issued (id : Nat) (f : OutPkt → OutPkt) : (s.updOut id f).issued = s.issued := rfl
@[simp] theorem updOut_tried (id : Nat) (f : OutPkt → OutPkt) : (s.updOut id f).tried = s.tried := rfl
@[simp] theorem updOut_agenda (id : Nat) (f : OutPkt → OutPkt) : (s.updOut id f).agenda = s.agenda := rfl
@[simp] theorem updOut_fresh (id : Nat) (f : OutPkt → OutPkt) : (s.updOut id f).fresh = s.fresh := rfl
@[simp] theorem updOut_freeCtr (id : Nat) (f : OutPkt → OutPkt) : (s.updOut id f).freeCtr = s.freeCtr := rfl

/-! ## updStk -/

@[simp] theorem updStk_pkg (h : Nat) (f : Stack → Stack) : (s.updStk h f).pkg = s.pkg := rfl
@[simp] theorem updStk_host (h : Nat) (f : Stack → Stack) : (s.updStk h f).host = s.host := rfl
@[simp] theorem updStk_ctxs (h : Nat) (f : Stack → Stack) : (s.updStk h f).ctxs = s.ctxs := rfl
@[simp] theorem updStk_queues (h : Nat) (f : Stack → Stack) : (s.updStk h f).queues = s.queues := rfl
@[simp] theorem updStk_lastServed (h : Nat) (f : Stack → Stack) : (s.updStk h f).lastServed = s.lastServed := rfl
@[simp] theorem updStk_lastDealt (h : Nat) (f : Stack → Stack) : (s.updStk h f).lastDealt = s.lastDealt := rfl
@[simp] theorem updStk_outs (h : Nat) (f : Stack → Stack) : (s.updStk h f).outs = s.outs := rfl
@[simp] theorem updStk_pushers (h : Nat) (f : Stack → Stack) : (s.updStk h f).pushers = s.pushers := rfl
@[simp] theorem updStk_ringWaits (h : Nat) (f : Stack → Stack) : (s.updStk h f).ringWaits = s.ringWaits := rfl
@[simp] theorem updStk_grids (h : Nat) (f : Stack → Stack) : (s.updStk h f).grids = s.grids := rfl
@[simp] theorem updStk_teams (h : Nat) (f : Stack → Stack) : (s.updStk h f).teams = s.teams := rfl
@[simp] theorem updStk_waves (h : Nat) (f : Stack → Stack) : (s.updStk h f).waves = s.waves := rfl
@[simp] theorem updStk_accs (h : Nat) (f : Stack → Stack) : (s.updStk h f).accs = s.accs := rfl
@[simp] theorem updStk_lands (h : Nat) (f : Stack → Stack) : (s.updStk h f).lands = s.lands := rfl
@[simp] theorem updStk_mem (h : Nat) (f : Stack → Stack) : (s.updStk h f).mem = s.mem := rfl
@[simp] theorem updStk_tlb (h : Nat) (f : Stack → Stack) : (s.updStk h f).tlb = s.tlb := rfl
@[simp] theorem updStk_walks (h : Nat) (f : Stack → Stack) : (s.updStk h f).walks = s.walks := rfl
@[simp] theorem updStk_misses (h : Nat) (f : Stack → Stack) : (s.updStk h f).misses = s.misses := rfl
@[simp] theorem updStk_copies (h : Nat) (f : Stack → Stack) : (s.updStk h f).copies = s.copies := rfl
@[simp] theorem updStk_wrote (h : Nat) (f : Stack → Stack) : (s.updStk h f).wrote = s.wrote := rfl
@[simp] theorem updStk_writes (h : Nat) (f : Stack → Stack) : (s.updStk h f).writes = s.writes := rfl
@[simp] theorem updStk_l2 (h : Nat) (f : Stack → Stack) : (s.updStk h f).l2 = s.l2 := rfl
@[simp] theorem updStk_locks (h : Nat) (f : Stack → Stack) : (s.updStk h f).locks = s.locks := rfl
@[simp] theorem updStk_shootHdr (h : Nat) (f : Stack → Stack) : (s.updStk h f).shootHdr = s.shootHdr := rfl
@[simp] theorem updStk_shoot (h : Nat) (f : Stack → Stack) : (s.updStk h f).shoot = s.shoot := rfl
@[simp] theorem updStk_faults (h : Nat) (f : Stack → Stack) : (s.updStk h f).faults = s.faults := rfl
@[simp] theorem updStk_cores (h : Nat) (f : Stack → Stack) : (s.updStk h f).cores = s.cores := rfl
@[simp] theorem updStk_caddy (h : Nat) (f : Stack → Stack) : (s.updStk h f).caddy = s.caddy := rfl
@[simp] theorem updStk_invs (h : Nat) (f : Stack → Stack) : (s.updStk h f).invs = s.invs := rfl
@[simp] theorem updStk_forms (h : Nat) (f : Stack → Stack) : (s.updStk h f).forms = s.forms := rfl
@[simp] theorem updStk_stks (h : Nat) (f : Stack → Stack) : (s.updStk h f).stks = s.stks.map (fun k => if k.handle == h then f k else k) := rfl
@[simp] theorem updStk_stackReqs (h : Nat) (f : Stack → Stack) : (s.updStk h f).stackReqs = s.stackReqs := rfl
@[simp] theorem updStk_tierq (h : Nat) (f : Stack → Stack) : (s.updStk h f).tierq = s.tierq := rfl
@[simp] theorem updStk_migs (h : Nat) (f : Stack → Stack) : (s.updStk h f).migs = s.migs := rfl
@[simp] theorem updStk_pages (h : Nat) (f : Stack → Stack) : (s.updStk h f).pages = s.pages := rfl
@[simp] theorem updStk_badFrames (h : Nat) (f : Stack → Stack) : (s.updStk h f).badFrames = s.badFrames := rfl
@[simp] theorem updStk_esuDescs (h : Nat) (f : Stack → Stack) : (s.updStk h f).esuDescs = s.esuDescs := rfl
@[simp] theorem updStk_appends (h : Nat) (f : Stack → Stack) : (s.updStk h f).appends = s.appends := rfl
@[simp] theorem updStk_gens (h : Nat) (f : Stack → Stack) : (s.updStk h f).gens = s.gens := rfl
@[simp] theorem updStk_dbg (h : Nat) (f : Stack → Stack) : (s.updStk h f).dbg = s.dbg := rfl
@[simp] theorem updStk_cycle (h : Nat) (f : Stack → Stack) : (s.updStk h f).cycle = s.cycle := rfl
@[simp] theorem updStk_occ (h : Nat) (f : Stack → Stack) : (s.updStk h f).occ = s.occ := rfl
@[simp] theorem updStk_ir (h : Nat) (f : Stack → Stack) : (s.updStk h f).ir = s.ir := rfl
@[simp] theorem updStk_cur (h : Nat) (f : Stack → Stack) : (s.updStk h f).cur = s.cur := rfl
@[simp] theorem updStk_issued (h : Nat) (f : Stack → Stack) : (s.updStk h f).issued = s.issued := rfl
@[simp] theorem updStk_tried (h : Nat) (f : Stack → Stack) : (s.updStk h f).tried = s.tried := rfl
@[simp] theorem updStk_agenda (h : Nat) (f : Stack → Stack) : (s.updStk h f).agenda = s.agenda := rfl
@[simp] theorem updStk_fresh (h : Nat) (f : Stack → Stack) : (s.updStk h f).fresh = s.fresh := rfl
@[simp] theorem updStk_freeCtr (h : Nat) (f : Stack → Stack) : (s.updStk h f).freeCtr = s.freeCtr := rfl

/-! ## updLane -/

@[simp] theorem updLane_pkg (uid L : Nat) (f : Lane → Lane) : (s.updLane uid L f).pkg = s.pkg := rfl
@[simp] theorem updLane_host (uid L : Nat) (f : Lane → Lane) : (s.updLane uid L f).host = s.host := rfl
@[simp] theorem updLane_ctxs (uid L : Nat) (f : Lane → Lane) : (s.updLane uid L f).ctxs = s.ctxs := rfl
@[simp] theorem updLane_queues (uid L : Nat) (f : Lane → Lane) : (s.updLane uid L f).queues = s.queues := rfl
@[simp] theorem updLane_lastServed (uid L : Nat) (f : Lane → Lane) : (s.updLane uid L f).lastServed = s.lastServed := rfl
@[simp] theorem updLane_lastDealt (uid L : Nat) (f : Lane → Lane) : (s.updLane uid L f).lastDealt = s.lastDealt := rfl
@[simp] theorem updLane_outs (uid L : Nat) (f : Lane → Lane) : (s.updLane uid L f).outs = s.outs := rfl
@[simp] theorem updLane_pushers (uid L : Nat) (f : Lane → Lane) : (s.updLane uid L f).pushers = s.pushers := rfl
@[simp] theorem updLane_ringWaits (uid L : Nat) (f : Lane → Lane) : (s.updLane uid L f).ringWaits = s.ringWaits := rfl
@[simp] theorem updLane_grids (uid L : Nat) (f : Lane → Lane) : (s.updLane uid L f).grids = s.grids := rfl
@[simp] theorem updLane_teams (uid L : Nat) (f : Lane → Lane) : (s.updLane uid L f).teams = s.teams := rfl
@[simp] theorem updLane_waves (uid L : Nat) (f : Lane → Lane) : (s.updLane uid L f).waves = s.waves.map (fun w => if w.uid == uid then w.updLane L f else w) := rfl
@[simp] theorem updLane_accs (uid L : Nat) (f : Lane → Lane) : (s.updLane uid L f).accs = s.accs := rfl
@[simp] theorem updLane_lands (uid L : Nat) (f : Lane → Lane) : (s.updLane uid L f).lands = s.lands := rfl
@[simp] theorem updLane_mem (uid L : Nat) (f : Lane → Lane) : (s.updLane uid L f).mem = s.mem := rfl
@[simp] theorem updLane_tlb (uid L : Nat) (f : Lane → Lane) : (s.updLane uid L f).tlb = s.tlb := rfl
@[simp] theorem updLane_walks (uid L : Nat) (f : Lane → Lane) : (s.updLane uid L f).walks = s.walks := rfl
@[simp] theorem updLane_misses (uid L : Nat) (f : Lane → Lane) : (s.updLane uid L f).misses = s.misses := rfl
@[simp] theorem updLane_copies (uid L : Nat) (f : Lane → Lane) : (s.updLane uid L f).copies = s.copies := rfl
@[simp] theorem updLane_wrote (uid L : Nat) (f : Lane → Lane) : (s.updLane uid L f).wrote = s.wrote := rfl
@[simp] theorem updLane_writes (uid L : Nat) (f : Lane → Lane) : (s.updLane uid L f).writes = s.writes := rfl
@[simp] theorem updLane_l2 (uid L : Nat) (f : Lane → Lane) : (s.updLane uid L f).l2 = s.l2 := rfl
@[simp] theorem updLane_locks (uid L : Nat) (f : Lane → Lane) : (s.updLane uid L f).locks = s.locks := rfl
@[simp] theorem updLane_shootHdr (uid L : Nat) (f : Lane → Lane) : (s.updLane uid L f).shootHdr = s.shootHdr := rfl
@[simp] theorem updLane_shoot (uid L : Nat) (f : Lane → Lane) : (s.updLane uid L f).shoot = s.shoot := rfl
@[simp] theorem updLane_faults (uid L : Nat) (f : Lane → Lane) : (s.updLane uid L f).faults = s.faults := rfl
@[simp] theorem updLane_cores (uid L : Nat) (f : Lane → Lane) : (s.updLane uid L f).cores = s.cores := rfl
@[simp] theorem updLane_caddy (uid L : Nat) (f : Lane → Lane) : (s.updLane uid L f).caddy = s.caddy := rfl
@[simp] theorem updLane_invs (uid L : Nat) (f : Lane → Lane) : (s.updLane uid L f).invs = s.invs := rfl
@[simp] theorem updLane_forms (uid L : Nat) (f : Lane → Lane) : (s.updLane uid L f).forms = s.forms := rfl
@[simp] theorem updLane_stks (uid L : Nat) (f : Lane → Lane) : (s.updLane uid L f).stks = s.stks := rfl
@[simp] theorem updLane_stackReqs (uid L : Nat) (f : Lane → Lane) : (s.updLane uid L f).stackReqs = s.stackReqs := rfl
@[simp] theorem updLane_tierq (uid L : Nat) (f : Lane → Lane) : (s.updLane uid L f).tierq = s.tierq := rfl
@[simp] theorem updLane_migs (uid L : Nat) (f : Lane → Lane) : (s.updLane uid L f).migs = s.migs := rfl
@[simp] theorem updLane_pages (uid L : Nat) (f : Lane → Lane) : (s.updLane uid L f).pages = s.pages := rfl
@[simp] theorem updLane_badFrames (uid L : Nat) (f : Lane → Lane) : (s.updLane uid L f).badFrames = s.badFrames := rfl
@[simp] theorem updLane_esuDescs (uid L : Nat) (f : Lane → Lane) : (s.updLane uid L f).esuDescs = s.esuDescs := rfl
@[simp] theorem updLane_appends (uid L : Nat) (f : Lane → Lane) : (s.updLane uid L f).appends = s.appends := rfl
@[simp] theorem updLane_gens (uid L : Nat) (f : Lane → Lane) : (s.updLane uid L f).gens = s.gens := rfl
@[simp] theorem updLane_dbg (uid L : Nat) (f : Lane → Lane) : (s.updLane uid L f).dbg = s.dbg := rfl
@[simp] theorem updLane_cycle (uid L : Nat) (f : Lane → Lane) : (s.updLane uid L f).cycle = s.cycle := rfl
@[simp] theorem updLane_occ (uid L : Nat) (f : Lane → Lane) : (s.updLane uid L f).occ = s.occ := rfl
@[simp] theorem updLane_ir (uid L : Nat) (f : Lane → Lane) : (s.updLane uid L f).ir = s.ir := rfl
@[simp] theorem updLane_cur (uid L : Nat) (f : Lane → Lane) : (s.updLane uid L f).cur = s.cur := rfl
@[simp] theorem updLane_issued (uid L : Nat) (f : Lane → Lane) : (s.updLane uid L f).issued = s.issued := rfl
@[simp] theorem updLane_tried (uid L : Nat) (f : Lane → Lane) : (s.updLane uid L f).tried = s.tried := rfl
@[simp] theorem updLane_agenda (uid L : Nat) (f : Lane → Lane) : (s.updLane uid L f).agenda = s.agenda := rfl
@[simp] theorem updLane_fresh (uid L : Nat) (f : Lane → Lane) : (s.updLane uid L f).fresh = s.fresh := rfl
@[simp] theorem updLane_freeCtr (uid L : Nat) (f : Lane → Lane) : (s.updLane uid L f).freeCtr = s.freeCtr := rfl

/-! ## wrBytes -/

@[simp] theorem wrBytes_pkg (pa : Nat) (bs : List Byte) : (s.wrBytes pa bs).pkg = s.pkg := rfl
@[simp] theorem wrBytes_host (pa : Nat) (bs : List Byte) : (s.wrBytes pa bs).host = s.host := rfl
@[simp] theorem wrBytes_ctxs (pa : Nat) (bs : List Byte) : (s.wrBytes pa bs).ctxs = s.ctxs := rfl
@[simp] theorem wrBytes_queues (pa : Nat) (bs : List Byte) : (s.wrBytes pa bs).queues = s.queues := rfl
@[simp] theorem wrBytes_lastServed (pa : Nat) (bs : List Byte) : (s.wrBytes pa bs).lastServed = s.lastServed := rfl
@[simp] theorem wrBytes_lastDealt (pa : Nat) (bs : List Byte) : (s.wrBytes pa bs).lastDealt = s.lastDealt := rfl
@[simp] theorem wrBytes_outs (pa : Nat) (bs : List Byte) : (s.wrBytes pa bs).outs = s.outs := rfl
@[simp] theorem wrBytes_pushers (pa : Nat) (bs : List Byte) : (s.wrBytes pa bs).pushers = s.pushers := rfl
@[simp] theorem wrBytes_ringWaits (pa : Nat) (bs : List Byte) : (s.wrBytes pa bs).ringWaits = s.ringWaits := rfl
@[simp] theorem wrBytes_grids (pa : Nat) (bs : List Byte) : (s.wrBytes pa bs).grids = s.grids := rfl
@[simp] theorem wrBytes_teams (pa : Nat) (bs : List Byte) : (s.wrBytes pa bs).teams = s.teams := rfl
@[simp] theorem wrBytes_waves (pa : Nat) (bs : List Byte) : (s.wrBytes pa bs).waves = s.waves := rfl
@[simp] theorem wrBytes_accs (pa : Nat) (bs : List Byte) : (s.wrBytes pa bs).accs = s.accs := rfl
@[simp] theorem wrBytes_lands (pa : Nat) (bs : List Byte) : (s.wrBytes pa bs).lands = s.lands := rfl
@[simp] theorem wrBytes_mem (pa : Nat) (bs : List Byte) : (s.wrBytes pa bs).mem = memPut s.mem pa bs := rfl
@[simp] theorem wrBytes_tlb (pa : Nat) (bs : List Byte) : (s.wrBytes pa bs).tlb = s.tlb := rfl
@[simp] theorem wrBytes_walks (pa : Nat) (bs : List Byte) : (s.wrBytes pa bs).walks = s.walks := rfl
@[simp] theorem wrBytes_misses (pa : Nat) (bs : List Byte) : (s.wrBytes pa bs).misses = s.misses := rfl
@[simp] theorem wrBytes_copies (pa : Nat) (bs : List Byte) : (s.wrBytes pa bs).copies = s.copies := rfl
@[simp] theorem wrBytes_writes (pa : Nat) (bs : List Byte) : (s.wrBytes pa bs).writes = s.writes + 1 := rfl
@[simp] theorem wrBytes_l2 (pa : Nat) (bs : List Byte) : (s.wrBytes pa bs).l2 = s.l2 := rfl
@[simp] theorem wrBytes_locks (pa : Nat) (bs : List Byte) : (s.wrBytes pa bs).locks = s.locks := rfl
@[simp] theorem wrBytes_shootHdr (pa : Nat) (bs : List Byte) : (s.wrBytes pa bs).shootHdr = s.shootHdr := rfl
@[simp] theorem wrBytes_shoot (pa : Nat) (bs : List Byte) : (s.wrBytes pa bs).shoot = s.shoot := rfl
@[simp] theorem wrBytes_faults (pa : Nat) (bs : List Byte) : (s.wrBytes pa bs).faults = s.faults := rfl
@[simp] theorem wrBytes_cores (pa : Nat) (bs : List Byte) : (s.wrBytes pa bs).cores = s.cores := rfl
@[simp] theorem wrBytes_caddy (pa : Nat) (bs : List Byte) : (s.wrBytes pa bs).caddy = s.caddy := rfl
@[simp] theorem wrBytes_invs (pa : Nat) (bs : List Byte) : (s.wrBytes pa bs).invs = s.invs := rfl
@[simp] theorem wrBytes_forms (pa : Nat) (bs : List Byte) : (s.wrBytes pa bs).forms = s.forms := rfl
@[simp] theorem wrBytes_stks (pa : Nat) (bs : List Byte) : (s.wrBytes pa bs).stks = s.stks := rfl
@[simp] theorem wrBytes_stackReqs (pa : Nat) (bs : List Byte) : (s.wrBytes pa bs).stackReqs = s.stackReqs := rfl
@[simp] theorem wrBytes_tierq (pa : Nat) (bs : List Byte) : (s.wrBytes pa bs).tierq = s.tierq := rfl
@[simp] theorem wrBytes_migs (pa : Nat) (bs : List Byte) : (s.wrBytes pa bs).migs = s.migs := rfl
@[simp] theorem wrBytes_badFrames (pa : Nat) (bs : List Byte) : (s.wrBytes pa bs).badFrames = s.badFrames := rfl
@[simp] theorem wrBytes_esuDescs (pa : Nat) (bs : List Byte) : (s.wrBytes pa bs).esuDescs = s.esuDescs := rfl
@[simp] theorem wrBytes_appends (pa : Nat) (bs : List Byte) : (s.wrBytes pa bs).appends = s.appends := rfl
@[simp] theorem wrBytes_gens (pa : Nat) (bs : List Byte) : (s.wrBytes pa bs).gens = s.gens := rfl
@[simp] theorem wrBytes_dbg (pa : Nat) (bs : List Byte) : (s.wrBytes pa bs).dbg = s.dbg := rfl
@[simp] theorem wrBytes_cycle (pa : Nat) (bs : List Byte) : (s.wrBytes pa bs).cycle = s.cycle := rfl
@[simp] theorem wrBytes_occ (pa : Nat) (bs : List Byte) : (s.wrBytes pa bs).occ = s.occ := rfl
@[simp] theorem wrBytes_ir (pa : Nat) (bs : List Byte) : (s.wrBytes pa bs).ir = s.ir := rfl
@[simp] theorem wrBytes_cur (pa : Nat) (bs : List Byte) : (s.wrBytes pa bs).cur = s.cur := rfl
@[simp] theorem wrBytes_issued (pa : Nat) (bs : List Byte) : (s.wrBytes pa bs).issued = s.issued := rfl
@[simp] theorem wrBytes_tried (pa : Nat) (bs : List Byte) : (s.wrBytes pa bs).tried = s.tried := rfl
@[simp] theorem wrBytes_agenda (pa : Nat) (bs : List Byte) : (s.wrBytes pa bs).agenda = s.agenda := rfl
@[simp] theorem wrBytes_fresh (pa : Nat) (bs : List Byte) : (s.wrBytes pa bs).fresh = s.fresh := rfl
@[simp] theorem wrBytes_freeCtr (pa : Nat) (bs : List Byte) : (s.wrBytes pa bs).freeCtr = s.freeCtr := rfl

/-! ## wr -/

@[simp] theorem wr_pkg (pa n v : Nat) : (s.wr pa n v).pkg = s.pkg := rfl
@[simp] theorem wr_host (pa n v : Nat) : (s.wr pa n v).host = s.host := rfl
@[simp] theorem wr_ctxs (pa n v : Nat) : (s.wr pa n v).ctxs = s.ctxs := rfl
@[simp] theorem wr_queues (pa n v : Nat) : (s.wr pa n v).queues = s.queues := rfl
@[simp] theorem wr_lastServed (pa n v : Nat) : (s.wr pa n v).lastServed = s.lastServed := rfl
@[simp] theorem wr_lastDealt (pa n v : Nat) : (s.wr pa n v).lastDealt = s.lastDealt := rfl
@[simp] theorem wr_outs (pa n v : Nat) : (s.wr pa n v).outs = s.outs := rfl
@[simp] theorem wr_pushers (pa n v : Nat) : (s.wr pa n v).pushers = s.pushers := rfl
@[simp] theorem wr_ringWaits (pa n v : Nat) : (s.wr pa n v).ringWaits = s.ringWaits := rfl
@[simp] theorem wr_grids (pa n v : Nat) : (s.wr pa n v).grids = s.grids := rfl
@[simp] theorem wr_teams (pa n v : Nat) : (s.wr pa n v).teams = s.teams := rfl
@[simp] theorem wr_waves (pa n v : Nat) : (s.wr pa n v).waves = s.waves := rfl
@[simp] theorem wr_accs (pa n v : Nat) : (s.wr pa n v).accs = s.accs := rfl
@[simp] theorem wr_lands (pa n v : Nat) : (s.wr pa n v).lands = s.lands := rfl
@[simp] theorem wr_mem (pa n v : Nat) : (s.wr pa n v).mem = memPut s.mem pa (leBytes n v) := rfl
@[simp] theorem wr_tlb (pa n v : Nat) : (s.wr pa n v).tlb = s.tlb := rfl
@[simp] theorem wr_walks (pa n v : Nat) : (s.wr pa n v).walks = s.walks := rfl
@[simp] theorem wr_misses (pa n v : Nat) : (s.wr pa n v).misses = s.misses := rfl
@[simp] theorem wr_copies (pa n v : Nat) : (s.wr pa n v).copies = s.copies := rfl
@[simp] theorem wr_writes (pa n v : Nat) : (s.wr pa n v).writes = s.writes + 1 := rfl
@[simp] theorem wr_l2 (pa n v : Nat) : (s.wr pa n v).l2 = s.l2 := rfl
@[simp] theorem wr_locks (pa n v : Nat) : (s.wr pa n v).locks = s.locks := rfl
@[simp] theorem wr_shootHdr (pa n v : Nat) : (s.wr pa n v).shootHdr = s.shootHdr := rfl
@[simp] theorem wr_shoot (pa n v : Nat) : (s.wr pa n v).shoot = s.shoot := rfl
@[simp] theorem wr_faults (pa n v : Nat) : (s.wr pa n v).faults = s.faults := rfl
@[simp] theorem wr_cores (pa n v : Nat) : (s.wr pa n v).cores = s.cores := rfl
@[simp] theorem wr_caddy (pa n v : Nat) : (s.wr pa n v).caddy = s.caddy := rfl
@[simp] theorem wr_invs (pa n v : Nat) : (s.wr pa n v).invs = s.invs := rfl
@[simp] theorem wr_forms (pa n v : Nat) : (s.wr pa n v).forms = s.forms := rfl
@[simp] theorem wr_stks (pa n v : Nat) : (s.wr pa n v).stks = s.stks := rfl
@[simp] theorem wr_stackReqs (pa n v : Nat) : (s.wr pa n v).stackReqs = s.stackReqs := rfl
@[simp] theorem wr_tierq (pa n v : Nat) : (s.wr pa n v).tierq = s.tierq := rfl
@[simp] theorem wr_migs (pa n v : Nat) : (s.wr pa n v).migs = s.migs := rfl
@[simp] theorem wr_badFrames (pa n v : Nat) : (s.wr pa n v).badFrames = s.badFrames := rfl
@[simp] theorem wr_esuDescs (pa n v : Nat) : (s.wr pa n v).esuDescs = s.esuDescs := rfl
@[simp] theorem wr_appends (pa n v : Nat) : (s.wr pa n v).appends = s.appends := rfl
@[simp] theorem wr_gens (pa n v : Nat) : (s.wr pa n v).gens = s.gens := rfl
@[simp] theorem wr_dbg (pa n v : Nat) : (s.wr pa n v).dbg = s.dbg := rfl
@[simp] theorem wr_cycle (pa n v : Nat) : (s.wr pa n v).cycle = s.cycle := rfl
@[simp] theorem wr_occ (pa n v : Nat) : (s.wr pa n v).occ = s.occ := rfl
@[simp] theorem wr_ir (pa n v : Nat) : (s.wr pa n v).ir = s.ir := rfl
@[simp] theorem wr_cur (pa n v : Nat) : (s.wr pa n v).cur = s.cur := rfl
@[simp] theorem wr_issued (pa n v : Nat) : (s.wr pa n v).issued = s.issued := rfl
@[simp] theorem wr_tried (pa n v : Nat) : (s.wr pa n v).tried = s.tried := rfl
@[simp] theorem wr_agenda (pa n v : Nat) : (s.wr pa n v).agenda = s.agenda := rfl
@[simp] theorem wr_fresh (pa n v : Nat) : (s.wr pa n v).fresh = s.fresh := rfl
@[simp] theorem wr_freeCtr (pa n v : Nat) : (s.wr pa n v).freeCtr = s.freeCtr := rfl

/-! ## next -/

@[simp] theorem next_pkg : (s.next).pkg = s.pkg := rfl
@[simp] theorem next_host : (s.next).host = s.host := rfl
@[simp] theorem next_ctxs : (s.next).ctxs = s.ctxs := rfl
@[simp] theorem next_queues : (s.next).queues = s.queues := rfl
@[simp] theorem next_lastServed : (s.next).lastServed = s.lastServed := rfl
@[simp] theorem next_lastDealt : (s.next).lastDealt = s.lastDealt := rfl
@[simp] theorem next_outs : (s.next).outs = s.outs := rfl
@[simp] theorem next_pushers : (s.next).pushers = s.pushers := rfl
@[simp] theorem next_ringWaits : (s.next).ringWaits = s.ringWaits := rfl
@[simp] theorem next_grids : (s.next).grids = s.grids := rfl
@[simp] theorem next_teams : (s.next).teams = s.teams := rfl
@[simp] theorem next_waves : (s.next).waves = s.waves := rfl
@[simp] theorem next_accs : (s.next).accs = s.accs := rfl
@[simp] theorem next_lands : (s.next).lands = s.lands := rfl
@[simp] theorem next_mem : (s.next).mem = s.mem := rfl
@[simp] theorem next_tlb : (s.next).tlb = s.tlb := rfl
@[simp] theorem next_walks : (s.next).walks = s.walks := rfl
@[simp] theorem next_misses : (s.next).misses = s.misses := rfl
@[simp] theorem next_copies : (s.next).copies = s.copies := rfl
@[simp] theorem next_wrote : (s.next).wrote = s.wrote := rfl
@[simp] theorem next_writes : (s.next).writes = s.writes := rfl
@[simp] theorem next_l2 : (s.next).l2 = s.l2 := rfl
@[simp] theorem next_locks : (s.next).locks = s.locks := rfl
@[simp] theorem next_shootHdr : (s.next).shootHdr = s.shootHdr := rfl
@[simp] theorem next_shoot : (s.next).shoot = s.shoot := rfl
@[simp] theorem next_faults : (s.next).faults = s.faults := rfl
@[simp] theorem next_cores : (s.next).cores = s.cores := rfl
@[simp] theorem next_caddy : (s.next).caddy = s.caddy := rfl
@[simp] theorem next_invs : (s.next).invs = s.invs := rfl
@[simp] theorem next_forms : (s.next).forms = s.forms := rfl
@[simp] theorem next_stks : (s.next).stks = s.stks := rfl
@[simp] theorem next_stackReqs : (s.next).stackReqs = s.stackReqs := rfl
@[simp] theorem next_tierq : (s.next).tierq = s.tierq := rfl
@[simp] theorem next_migs : (s.next).migs = s.migs := rfl
@[simp] theorem next_pages : (s.next).pages = s.pages := rfl
@[simp] theorem next_badFrames : (s.next).badFrames = s.badFrames := rfl
@[simp] theorem next_esuDescs : (s.next).esuDescs = s.esuDescs := rfl
@[simp] theorem next_appends : (s.next).appends = s.appends := rfl
@[simp] theorem next_gens : (s.next).gens = s.gens := rfl
@[simp] theorem next_dbg : (s.next).dbg = s.dbg := rfl
@[simp] theorem next_cycle : (s.next).cycle = s.cycle := rfl
@[simp] theorem next_occ : (s.next).occ = s.occ := rfl
@[simp] theorem next_ir : (s.next).ir = s.ir := rfl
@[simp] theorem next_cur : (s.next).cur = s.cur := rfl
@[simp] theorem next_issued : (s.next).issued = s.issued := rfl
@[simp] theorem next_tried : (s.next).tried = s.tried := rfl
@[simp] theorem next_agenda : (s.next).agenda = s.agenda := rfl
@[simp] theorem next_fresh : (s.next).fresh = s.fresh + 1 := rfl
@[simp] theorem next_freeCtr : (s.next).freeCtr = s.freeCtr := rfl

end Sys2Proof.Machine
end

