-- ==== Sys2Proof/Tests/Slice0.lean ====
section
/-!
SUPPORT. Tests of words, of well-formedness and of single steps.
-/

namespace Sys2Proof.Tests

set_option Elab.async false

open Machine

/-! ## Ill-formed terms: each check of WellFormed refuses one (R149, R152, R155, R270 to R273, R278 to R286) -/

theorem test_refuses_compares : [Instr.icmpI 1 2 3 6, .icmpN 1 2 3 6, .fcmp 1 2 3 14, .hcmp2 1 2 3 14, .hcmp2 127 2 3 0].all (fun i => !i.wf) = true := by decide
theorem test_refuses_conversions : [Instr.cvtx 1 2 28 0 0, .reduce 1 2 11 0 0, .scan 1 2 11 0 0, .scan 1 2 15 0 0, .scan 1 2 27 0 0].all (fun i => !i.wf) = true := by
  decide
theorem test_refuses_jmpi : (Instr.jmpi 127 0 0).wf = false := by decide
theorem test_refuses_orders : [Instr.ld 1 2 0 3 0 0, .st 1 2 0 3 0 0, .lds 1 2 0 3 0 0, .sts 1 2 0 3 0 0, .ldfe 1 2 0 3 0 0, .stfe 1 2 0 3 0 0,
    .atom 1 2 0 3 0 0, .red 1 2 0 3 0 0, .atoms 1 2 0 3 0 0, .cstore 1 2 0 3 0 0].all (fun i => !i.wf) = true := by decide
theorem test_refuses_widths : [Instr.ld 1 2 0 0 7 0, .st 1 2 0 0 5 0, .lds 1 2 0 0 7 0, .sts 1 2 0 0 5 0, .ldfe 1 2 0 0 3 0, .stfe 1 2 0 0 3 0,
    .cstore 1 2 0 0 5 0, .pref 1 2 0 4 0, .mld 1 2 0 2 0].all (fun i => !i.wf) = true := by decide
theorem test_refuses_scratchpad_bases : [Instr.lds 1 2 4 0 0 0, .sts 1 2 14 0 0 0, .ldfe 1 2 4 0 0 0, .stfe 1 2 5 0 0 0, .atoms 1 2 4 0 0 0].all (fun i => !i.wf) = true := by
  decide
theorem test_refuses_atomics : [Instr.atom 1 2 0 0 14 0, .atom 1 2 0 0 11 1, .red 1 2 0 0 8 0, .red 1 2 0 0 9 0, .red 1 2 0 0 11 1, .atoms 1 2 0 0 13 1].all (fun i => !i.wf) = true := by
  decide
theorem test_refuses_fences : [Instr.fence 0 7, .xfence 0 5].all (fun i => !i.wf) = true := by decide
theorem test_refuses_continuations : [Instr.cont 29 0, .trav 29 0 0].all (fun i => !i.wf) = true := by decide
theorem test_refuses_handles : [Instr.mclaim 1 1 31, .mrel 7 25, .mzero 7 25].all (fun i => !i.wf) = true := by decide
theorem test_refuses_specials : [Instr.srd 1 39, .swr 1 22, .ipref 1 0].all (fun i => !i.wf) = true := by decide
theorem test_refuses_hints : [Instr.sched 3, .xsrc 3 0, .xsrc 0 128, .xsrc 1 39, .xmod 0 0 0 0 0 0 0 0 5, .xmod 0 0 0 0 0 0 0 0 6].all (fun i => !i.wf) = true := by
  decide
theorem test_accepts_bounds : [Instr.icmpI 1 2 3 5, .fcmp 1 2 3 13, .cvtx 1 2 27 0 0, .scan 1 2 26 0 0, .lds 1 2 15 2 6 0, .atom 1 2 0 2 13 0, .cont 28 0,
    .mclaim 1 15 16, .srd 1 38, .xsrc 1 38].all Instr.wf = true := by decide

/-! ## Words written out from the encodings of R277 to R286, one or more for each family -/

theorem test_words_integer : decode 0x02102020 = .ok (.iadd 4 4 2 0 0 0) ∧ decode 0x240C1BFF = .ok (.iaddi 3 3 0 0x3FF) ∧
    decode 0x3E202861 = .ok (.sel 8 5 6 0 0 1) ∧ decode 0x341C0278 = .ok (.movi 7 0x278) := ⟨rfl, rfl, rfl, rfl⟩
theorem test_words_float : decode 0x40101030 = .ok (.fadd 4 2 3 0 0 0) ∧ decode 0x60041008 = .ok (.rcp 1 2 1 0) := ⟨rfl, rfl⟩
theorem test_words_convert : decode 0x62041000 = .ok (.i2f 1 2 0 0) ∧ decode 0x6A0411B0 = .ok (.cvtx 1 2 27 0 0) := ⟨rfl, rfl⟩
theorem test_words_compare : decode 0x70101032 = .ok (.fcmp 4 2 3 2) ∧ decode 0x74141848 = .ok (.plog 5 3 4 8) := ⟨rfl, rfl⟩
theorem test_words_cross_lane : decode 0x78041020 = .ok (.ballot 1 2 0 0) := rfl
theorem test_words_control : decode 0x85FFFFFF = .ok (.bra 0x1FFFFFF) ∧ decode 0x86060002 = .ok (.brp 1 1 2) ∧ decode 0x8C000000 = .ok .exit := ⟨rfl, rfl, rfl⟩
theorem test_words_memory : decode 0x94503190 = .ok (.ld 20 6 3 0 4 0) ∧ decode 0x9E242080 = .ok (.stfe 9 4 1 0 0 0) ∧
    decode 0xA050B201 = .ok (.atom 20 22 4 0 0 1) ∧ decode 0xA8000015 = .ok (.fence 2 5) := ⟨rfl, rfl, rfl, rfl⟩
theorem test_words_rings : decode 0xBA002006 = .ok (.rrel 4 6) ∧ decode 0xB6094004 = .ok (.qpush 2 40 4) := ⟨rfl, rfl⟩
theorem test_words_tickets : decode 0xBE0C0002 = .ok (.ordwait 3 2) ∧ decode 0xBE000102 = .ok (.ordtake 2) := ⟨rfl, rfl⟩
theorem test_words_estimator : decode 0xB0102803 = .ok (.est 4 5 3) ∧ decode 0xB2402805 = .ok (.eld 16 5 5) := ⟨rfl, rfl⟩
theorem test_words_tasks : decode 0xBC041003 = .ok (.launch 1 2 3) ∧ decode 0xC2080005 = .ok (.cont 2 5) := ⟨rfl, rfl⟩
theorem test_words_traversal : decode 0xC6041034 = .ok (.tnew 1 2 3 4) := rfl
theorem test_words_matrix : decode 0xC8201047 = .ok (.mma 8 2 1 3 1) ∧ decode 0xCE003800 = .ok (.msets 7) ∧
    decode 0xCA3C0020 = .ok (.mclaim 15 1 0) ∧ decode 0xCA000120 = .ok (.mrel 1 0) ∧ decode 0xCA000202 = .ok (.mzero 0 2) := ⟨rfl, rfl, rfl, rfl, rfl⟩
theorem test_words_sampling : decode 0xD4041030 = .ok (.march 1 2 3 0 0 0) := rfl
theorem test_words_dot_and_lists : decode 0xD8041000 = .ok (.idot4 1 2 0 0) ∧ decode 0xDA001107 = .ok (.kinit 2 1 7) := ⟨rfl, rfl⟩
theorem test_words_special : decode 0xDC040016 = .ok (.srd 1 22) ∧ decode 0xDE001021 = .ok (.swr 2 33) ∧ decode 0xE2000000 = .ok .bkpt ∧
    decode 0xEA001004 = .ok (.bset 2 4) := ⟨rfl, rfl, rfl, rfl⟩
theorem test_words_hints : decode 0xF8048D15 = .ok (.ximm 0x48D15) ∧ decode 0xF6000001 = .ok (.sched 1) ∧ decode 0xFC040002 = .ok (.xmod 1 0 0 0 0 0 0 0 2) :=
  ⟨rfl, rfl, rfl⟩

/-! ## A small machine: one wave of two lanes at word 0 of its code, on core 0 of die 0 -/

/-- A lane with these registers. -/
def Lane.holding (rs : List (Nat × Word)) (l : Lane) : Lane := rs.foldl (fun l x => l.set x.1 x.2) l
/-- The machine whose lanes are as f makes them from new ones. -/
def small (f : Nat → Lane → Lane) : State :=
  { (State.reset.withFetchWord 32 0) with
    agenda := [], cur := some 3, cycle := 100, mem := []
    waves := [{ bareWave with lanes := (List.range 2).map (fun L => f L (newLane 128 0)) }] }
/-- The same, each lane with these registers. -/
def holding (rs : List (Nat × Word)) : State := small (fun _ => Lane.holding rs)
/-- The wave of the small machine. -/
def theWave (s : State) : Wave := (s.wave? 3).getD bareWave

/-- The wave issues i: every lane of its minimum-PC set executes it, and q holds. -/
def fits (s : State) (i : Instr) (q : State → Iss → Bool) : Bool :=
  let w := theWave s
  s.cur == some w.uid && s.wave? w.uid == some w && w.minSet != [] && w.lanes.all (fun l => !l.stepping && !l.stepped) &&
    w.minSet.all (fun L => fate s w (formOf i) (w.lane L) == .run) && q s (issueOf s w (formOf i))
/-- What a statement about issuing i asks for, with a lane that executes it. -/
def Meets (s : State) (i : Instr) (p : State → Iss → Prop) : Prop :=
  ∃ w, Issuing s w ∧ Ready s w (formOf i) ∧ executing s w (formOf i) ≠ [] ∧ p s (issueOf s w (formOf i))

theorem meets_of {s : State} {i : Instr} {p : State → Iss → Prop} (q : State → Iss → Bool) (h : fits s i q = true)
    (hq : ∀ x, q s x = true → p s x) : Meets s i p := by
  simp only [fits, Bool.and_eq_true, beq_iff_eq, bne_iff_ne, ne_eq, List.all_eq_true, Bool.not_eq_true'] at h
  obtain ⟨⟨⟨⟨⟨h1, h2⟩, h3⟩, h4⟩, h5⟩, h6⟩ := h
  refine ⟨theWave s, ⟨h1, h2, h3, h4⟩, fun L hL => .inl (h5 L hL), ?_, hq _ h6⟩
  obtain ⟨L, hL⟩ := List.exists_mem_of_ne_nil _ h3
  exact List.ne_nil_of_mem (List.mem_filter.mpr ⟨hL, by simp [h5 L hL]⟩)
theorem meets_dec {s : State} {i : Instr} {p : State → Iss → Prop} [∀ s x, Decidable (p s x)] (h : fits s i (fun s x => decide (p s x)) = true) :
    Meets s i p := meets_of _ h (fun _ => of_decide_eq_true)
theorem meets_all {s : State} {is : List Instr} (h : is.all (fun i => fits s i (fun _ _ => true)) = true) : ∀ i ∈ is, Meets s i (fun _ _ => True) :=
  fun i hi => meets_of _ (List.all_eq_true.mp h i hi) (fun _ _ => trivial)
theorem meets_each {s : State} {is : List Instr} {p : State → Iss → Prop} [∀ s x, Decidable (p s x)]
    (h : is.all (fun i => fits s i (fun s x => decide (p s x))) = true) : ∀ i ∈ is, Meets s i p := fun i hi => meets_dec (List.all_eq_true.mp h i hi)

/-! ## States that meet the hypotheses of the statements about issuing -/

theorem witness_IntegerResults : ∀ i ∈ [Instr.iadd 4 1 2 0 0 0, .isub 4 1 2 0 0 0, .imul 4 1 2 0 0 0, .imulhI 4 1 2 0 0 0, .imulhN 4 1 2 0 0 0, .iminI 4 1 2 0 0 0,
    .imaxI 4 1 2 0 0 0, .iminN 4 1 2 0 0 0, .imaxN 4 1 2 0 0 0, .and 4 1 2 0 0 0, .or 4 1 2 0 0 0, .xor 4 1 2 0 0 0, .shl 4 1 2 0 0 0, .shrN 4 1 2 0 0 0,
    .shrI 4 1 2 0 0 0, .rotl 4 1 2 0 0 0, .iaddi 127 127 0 0x3FF, .imuli 4 1 0 5, .andi 4 1 0 5, .ori 4 1 0 5, .xori 4 1 0 5, .shli 4 1 0 5, .shriN 4 1 0 5,
    .shriI 4 1 0 5, .movi 4 5], Meets (holding [(1, 7), (2, 9)]) i (fun _ _ => True) := meets_all (by decide +kernel)

theorem witness_IntegerFields : ∀ i ∈ [Instr.mov 4 1 0 0, .ineg 4 1 0 0, .iabs 4 1 0 0, .not 4 1 0 0, .popc 4 1 0 0, .clz 4 1 0 0, .ctz 4 1 0 0, .brev 4 1 0 0,
    .bswap 4 1 0 0, .sext8 4 1 0 0, .sext16 4 1 0 0, .zext8 4 1 0 0, .zext16 4 1 0 0, .bfe 4 1 2 0 0 0, .bfi 4 1 2 0 0 0, .prmt 4 1 2 0 0 0, .sel 4 1 2 0 0 0,
    .sel 4 1 2 0 0 2, .imac 4 1 2 0 0 0], Meets (holding [(1, 0), (2, 0xBFFF)]) i (fun _ _ => True) := meets_all (by decide +kernel)
/-- A lane that holds these hints, its instruction after them. -/
def hinted (hs : List Hint) : State := small (fun _ l => { l with hints := hs })
theorem witness_IntegerFields_select_by_hint : Meets (hinted [{ major := 0x7F, pay := 0, pc := 0 }]) (.sel 4 1 2 0 0 3) (fun _ _ => True) := meets_dec (by decide +kernel)
/-- The hint XSRC with this payload is the one that the lanes of the instruction hold. -/
def sources (i : Instr) (pay : BitVec 25) : Prop :=
  Meets (hinted [{ major := 0x7D, pay, pc := 0 }]) i (fun _ x => ∀ L ∈ x.E, (x.h L).xsrc = some pay)
theorem witness_IntegerFields_register_127 : sources (.imac 4 1 2 0 0 0) 127 ∧ 127 / 2 ^ 23 = 0 ∧ 127 % 2 ^ 20 < 128 :=
  ⟨meets_dec (by decide +kernel), by decide, by decide⟩
theorem witness_IntegerFields_special_38 : sources (.imac 4 1 2 0 0 0) (2 ^ 23 + 38) ∧ (2 ^ 23 + 38) / 2 ^ 23 = 1 := ⟨meets_dec (by decide +kernel), by decide⟩
theorem witness_IntegerFields_constant : sources (.fmac 4 1 2 0 0 0) (2 ^ 24 + 2 ^ 20 - 1) ∧ (2 ^ 24 + 2 ^ 20 - 1) / 2 ^ 23 = 2 := ⟨meets_dec (by decide +kernel), by decide⟩

/-- No exception is enabled in the executing lanes. -/
def calm (s : State) (x : Iss) : Bool := x.E.all (fun L => (s.laneNow x L).fpctl.extractLsb' 5 5 == 0)
theorem calm_of {s : State} {x : Iss} (h : calm s x = true) (L : Nat) (hL : L ∈ x.E) (fl : FpFlags) : NoTrap (s.laneNow x L) fl := by
  have := eq_of_beq (List.all_eq_true.mp h L hL)
  simp [NoTrap, this]
theorem meets_calm {s : State} {is : List Instr} (h : is.all (fun i => fits s i calm) = true) :
    ∀ i ∈ is, Meets s i (fun s x => ∀ L ∈ x.E, ∀ fl, NoTrap (s.laneNow x L) fl) :=
  fun i hi => meets_of calm (List.all_eq_true.mp h i hi) (fun _ hx L hL fl => calm_of hx L hL fl)
theorem witness_FloatScalar : ∀ i ∈ [Instr.fadd 4 1 2 0 0 0, .fsub 4 1 2 0 0 0, .fmul 4 1 2 0 0 0, .fmin 4 1 2 0 0 0, .fmax 4 1 2 0 0 0, .fscale 4 1 2 0 0 0,
    .fmac 4 1 2 0 0 0, .fneg 4 1 0 0, .fabs 4 1 0 0, .frndn 4 1 0 0, .frndz 4 1 0 0, .frndd 4 1 0 0, .frndu 4 1 0 0, .fclass 4 1 0 0, .fsat 4 1 0 0, .ffrac 4 1 0 0],
    Meets (holding [(1, 0x3F800000), (2, 0x7F800001)]) i (fun s x => ∀ L ∈ x.E, ∀ fl, NoTrap (s.laneNow x L) fl) := meets_calm (by decide +kernel)
theorem witness_FloatPacked : ∀ i ∈ [Instr.hadd2F16 4 1 2 0 0 0, .hmul2F16 4 1 2 0 0 0, .hmin2F16 4 1 2 0 0 0, .hmax2F16 4 1 2 0 0 0, .hmac2F16 4 1 2 0 0 0,
    .hadd2Bf16 4 1 2 0 0 0, .hmul2Bf16 4 1 2 0 0 0, .hmin2Bf16 4 1 2 0 0 0, .hmax2Bf16 4 1 2 0 0 0, .hmac2Bf16 4 1 2 0 0 0],
    Meets (holding [(1, 0x3C003C00), (2, 0x7E000001)]) i (fun s x => ∀ L ∈ x.E, ∀ fl, NoTrap (s.laneNow x L) fl) := meets_calm (by decide +kernel)
theorem witness_Conversions : ∀ i ∈ [Instr.i2f 4 1 0 0, .n2f 4 1 0 0, .f2in 4 1 0 0, .f2iz 4 1 0 0, .f2id 4 1 0 0, .f2iu 4 1 0 0, .f2nn 4 1 0 0, .f2nz 4 1 0 0,
    .h2fl 4 1 0 0, .h2fh 4 1 0 0, .b2fl 4 1 0 0, .b2fh 4 1 0 0, .f2h 4 1 0 0, .f2b 4 1 0 0, .cvtpF16 4 1 2 0 0 0, .cvtpBf16 4 1 2 0 0 0, .cvtx 4 1 27 0 0],
    Meets (holding [(1, 0x4F000000)]) i (fun s x => ∀ L ∈ x.E, ∀ fl, NoTrap (s.laneNow x L) fl) := meets_calm (by decide +kernel)
theorem witness_Conversions_packed : ∀ i ∈ [Instr.cvtq 16 1 2 0 0 0],
    Meets (hinted [{ major := 0x7E, pay := 5 * 2 ^ 4, pc := 0 }]) i (fun s x => ∀ L ∈ x.E, ∀ fl, NoTrap (s.laneNow x L) fl) := meets_calm (by decide +kernel)
/-- Lane 1 adds infinities of opposite sign with every exception enabled; lane 0 adds numbers. -/
def raising : State := small (fun L l => { (Lane.holding [(1, if L = 1 then 0x7F800000 else 0x3F800000), (2, if L = 1 then 0xFF800000 else 0x3F800000)] l) with fpctl := 0x3E0 })
theorem witness_EnabledExceptionsTrap : Meets raising (.fadd 4 1 2 0 0 0) (fun s x => x.w.lanes.length ≤ 32 ∧ (∀ l ∈ x.w.lanes, l.inHandler = false) ∧ x.E = [0, 1] ∧
    ((f32op .add none 0x3E0 0x3F800000 0x3F800000 0).2 &&& (s.laneNow x 0).fpctl.extractLsb' 5 5 = 0) ∧
    ((f32op .add none 0x3E0 0x7F800000 0xFF800000 0).2 &&& (s.laneNow x 1).fpctl.extractLsb' 5 5 ≠ 0)) := meets_dec (by decide +kernel)
/-- Every lane has this value in v1, v2 and v4, with every exception enabled. -/
def enabled (v : Word) (hs : List Hint) : State := small (fun _ l => { (Lane.holding [(1, v), (2, v), (4, v)] l) with fpctl := 0x3E0, hints := hs })
/-- What is asked of the wave of an instruction that may trap. -/
def Outside (_ : State) (x : Iss) : Prop := x.w.lanes.length ≤ 32 ∧ ∀ l ∈ x.w.lanes, l.inHandler = false
def decOutside (s : State) (x : Iss) : Decidable (Outside s x) := inferInstanceAs (Decidable (_ ∧ _))
theorem witness_EnabledExceptionsTrap_scalar : ∀ i ∈ [Instr.fadd 4 1 2 0 0 0, .fsub 4 1 2 0 0 0, .fmul 4 1 2 0 0 0, .fmin 4 1 2 0 0 0, .fmax 4 1 2 0 0 0, .fscale 4 1 2 0 0 0,
    .fmac 4 1 2 0 0 0, .ffrac 4 1 0 0, .f2in 4 1 0 0, .f2iz 4 1 0 0, .f2id 4 1 0 0, .f2iu 4 1 0 0, .f2nn 4 1 0 0, .f2nz 4 1 0 0, .f2h 4 1 0 0, .f2b 4 1 0 0, .i2f 4 1 0 0, .n2f 4 1 0 0,
    .cvtpF16 4 1 2 0 0 0, .cvtpBf16 4 1 2 0 0 0], Meets (enabled 0x7F800001 []) i Outside := letI := decOutside; meets_each (by decide +kernel)
theorem witness_EnabledExceptionsTrap_packed : ∀ i ∈ [Instr.hadd2F16 4 1 2 0 0 0, .hmul2F16 4 1 2 0 0 0, .hmin2F16 4 1 2 0 0 0, .hmax2F16 4 1 2 0 0 0, .hmac2F16 4 1 2 0 0 0,
    .hadd2Bf16 4 1 2 0 0 0, .hmul2Bf16 4 1 2 0 0 0, .hmin2Bf16 4 1 2 0 0 0, .hmax2Bf16 4 1 2 0 0 0, .hmac2Bf16 4 1 2 0 0 0, .h2fl 4 1 0 0, .h2fh 4 1 0 0, .b2fl 4 1 0 0, .b2fh 4 1 0 0],
    Meets (enabled 0x7C017F81 []) i Outside := letI := decOutside; meets_each (by decide +kernel)
theorem witness_EnabledExceptionsTrap_narrow : Meets (enabled 0x7F800001 [{ major := 0x7E, pay := 5 * 2 ^ 4, pc := 0 }]) (.cvtq 16 1 2 0 0 0) Outside := letI := decOutside; meets_dec (by decide +kernel)
theorem witness_EnabledExceptionsTrap_special : ∀ i ∈ [Instr.rcp 4 1 0 0, .rsq 4 1 0 0, .sqrt 4 1 0 0, .exp2 4 1 0 0, .log2 4 1 0 0, .sint 4 1 0 0, .cost 4 1 0 0, .tanh 4 1 0 0,
    .rcph2 4 1 0 0, .exph2 4 1 0 0], Meets (enabled 0x7F800001 []) i (fun s x => Outside s x ∧ sfuBusy s x = false) := letI := decOutside; meets_each (by decide +kernel)
theorem witness_EnabledExceptionsTrap_raise : (sfu32 .rcp 0x3E0 0).2 &&& 0x1F ≠ 0 ∧ (sfu32 .rcp 0x3E0 0x3F800000).2 &&& 0x1F = 0 ∧
    (packedOp fp16 .add none 0x3E0 0x7C000000 0xFC000000 0).2 &&& 0x1F ≠ 0 ∧ (packedOp bf16 .add none 0x3E0 0x7F80 0xFF80 0).2 &&& 0x1F ≠ 0 ∧
    (fToInt i32Target .rtz 0x3E0 0x7F800001).2 &&& 0x1F ≠ 0 ∧ (intToF true none 0x3E0 0x1000001).2 &&& 0x1F ≠ 0 := by decide +kernel
theorem witness_SumsRoundToNearest : (0x3F800000 : Word).toNat / 2 ^ 23 % 256 ≠ 255 ∧ (0x33800000 : Word).toNat / 2 ^ 23 % 256 ≠ 255 ∧ ((0 : Word).toNat / 2 ^ 10) % 8 = 0 ∧
    (f32op .add none 0 0x3F800000 0x33800000 0).1.toNat / 2 ^ 23 % 256 ≠ 255 ∧ (f32op .sub none 0 0x3F800000 0x33800000 0).1.toNat / 2 ^ 23 % 256 ≠ 255 := by decide +kernel
theorem witness_SpecialFunctions : ∀ i ∈ [Instr.rcp 4 1 0 0, .rsq 4 1 0 0, .sqrt 4 1 0 0, .exp2 4 1 0 0, .log2 4 1 0 0, .sint 4 1 0 0, .cost 4 1 0 0, .tanh 4 1 0 0,
    .rcph2 4 1 0 0, .exph2 4 1 0 0], Meets (holding [(1, 0x40000000)]) i (fun s x => sfuBusy s x = false ∧ ∀ L ∈ x.E, ∀ fl, NoTrap (s.laneNow x L) fl) :=
  fun i hi => meets_of (fun s x => !sfuBusy s x && calm s x)
    (List.all_eq_true.mp (by decide +kernel : [Instr.rcp 4 1 0 0, .rsq 4 1 0 0, .sqrt 4 1 0 0, .exp2 4 1 0 0, .log2 4 1 0 0, .sint 4 1 0 0, .cost 4 1 0 0,
      .tanh 4 1 0 0, .rcph2 4 1 0 0, .exph2 4 1 0 0].all (fun i => fits (holding [(1, 0x40000000)]) i (fun s x => !sfuBusy s x && calm s x)) = true) i hi)
    (fun x hx => by
      simp only [Bool.and_eq_true, Bool.not_eq_true'] at hx
      exact ⟨hx.1, calm_of hx.2⟩)
theorem witness_ComparesAndPredicates : ∀ i ∈ [Instr.icmpI 4 1 2 5, .icmpN 0 1 2 0, .fcmp 4 1 2 13, .hcmp2 126 1 2 13, .plog 5 3 4 8, .v2p 4 1 0 0, .p2v 4 1 0 0, .prd 4 0, .pwr 1 0 0],
    Meets (holding [(1, 7), (2, 9)]) i (fun _ _ => True) := meets_all (by decide +kernel)
theorem witness_CrossLane : ∀ i ∈ [Instr.all 4 1 0 0, .any 4 1 0 0, .ballot 4 1 0 0, .matchLanes 4 1 0 0, .lcount 4 0, .shflIdx 4 1 2 0 0 0, .shflXor 4 1 2 0 0 0,
    .shflXw 4 1 2 0 0 0, .reduce 4 1 10 0 0, .scan 4 1 26 0 0], Meets (holding [(1, 7), (2, 1)]) i (fun _ _ => True) := meets_all (by decide +kernel)
theorem witness_ControlTransfer : ∀ i ∈ [Instr.bra 0x1000000, .brp 1 1 0x10000, .call 0xFFFFFF, .jmpi 126 0 0, .ret 0 0], Meets (holding [(126, 7)]) i (fun _ _ => True) :=
  meets_all (by decide +kernel)
theorem witness_HintsIdleAndWait_third_hint : ∀ i ∈ [Instr.sched 1, .ximm 5, .xsrc 2 5, .xmod 0 0 0 0 0 0 0 0 4],
    Meets (hinted [{ major := 0x7F, pay := 0, pc := 0 }]) i (fun s x => ∀ L ∈ x.E, (s.laneNow x L).hints.length < 3 ∧ ∀ h ∈ (s.laneNow x L).hints, h.major = 0x7F) := meets_each (by decide +kernel)
theorem witness_HintsIdleAndWait_first_hint : Meets (holding []) (.pred 1 1) (fun s x => ∀ L ∈ x.E, (s.laneNow x L).hints = []) := meets_dec (by decide +kernel)
theorem witness_HintsIdleAndWait : ∀ i ∈ [Instr.nop, .ipref 1 1, .yield, .sleep 1, .wsync],
    Meets (holding [(1, 0x100000)]) i (fun s x => ∀ L ∈ x.E, (s.laneNow x L).wake = none ∧ (s.laneNow x L).routine = none ∧ (s.laneNow x L).hints = []) := meets_each (by decide +kernel)
theorem witness_ExitEndsLanes : Meets (holding []) .exit (fun s x => s.teamPosted x.t.tid = false ∧ (x.w.handlerB15 = none ∧ ∀ L ∈ x.E,
      s.lanePend x.uid L anyWrite = [] ∧ (s.laneNow x L).inHandler = false ∧ (s.laneNow x L).routine = none) ∧
    s.team? x.w.tid = some x.t ∧ s.grid? x.t.gid = some x.g ∧ x.t.faulted = false) := meets_dec (by decide +kernel)

/-! ### Accesses -/

/-- An access passes its checks, as a decision. -/
def passB (s : State) (x : Iss) (va n align : Nat) (k : AccKind) : Bool := va % align == 0 && (match s.laneXl x va n k with | .ok _ _ => true | _ => false)
theorem passes_of {s : State} {x : Iss} {va n align : Nat} {k : AccKind} (h : passB s x va n align k = true) : s.passes x va n align k := by
  simp only [passB, Bool.and_eq_true, beq_iff_eq] at h
  refine ⟨h.1, ?_⟩
  revert h
  cases s.laneXl x va n k <;> simp
def linesB (s : State) (x : Iss) (k : AccKind) (vas : List (Nat × Nat)) : Bool := match s.laneXls x k vas with | .ok _ => true | _ => false
theorem lines_of {s : State} {x : Iss} {k : AccKind} {vas : List (Nat × Nat)} (h : linesB s x k vas = true) : ∃ ps, s.laneXls x k vas = .ok ps := by
  revert h
  unfold linesB
  cases s.laneXls x k vas <;> simp
def spB (s : State) (x : Iss) (L r off n : Nat) : Bool := match s.spCheck x L r off n with | .ok _ => true | _ => false
theorem spPasses_of {s : State} {x : Iss} {L r off n : Nat} (h : spB s x L r off n = true) : s.spPasses x L r off n := by
  revert h
  unfold spB State.spPasses
  cases s.spCheck x L r off n <;> simp
/-- The checks of accesses can be decided. -/
def decPasses (s : State) (x : Iss) (va n align : Nat) (k : AccKind) : Decidable (s.passes x va n align k) :=
  decidable_of_iff (passB s x va n align k = true) ⟨passes_of, fun h => by
    obtain ⟨h1, pa, e, h2⟩ := h
    simp [passB, h1, h2]⟩
def decLines (s : State) (x : Iss) (k : AccKind) (vas : List (Nat × Nat)) : Decidable (∃ ps, s.laneXls x k vas = .ok ps) :=
  decidable_of_iff (linesB s x k vas = true) ⟨lines_of, fun ⟨ps, h⟩ => by simp [linesB, h]⟩
def decSp (s : State) (x : Iss) (L r off n : Nat) : Decidable (s.spPasses x L r off n) :=
  decidable_of_iff (spB s x L r off n = true) ⟨spPasses_of, fun ⟨t, h⟩ => by simp [spB, h]⟩

/-- Lane L has the address at 256 + 16 L bytes into the page in v1 and v2, and values from v4 upward. -/
def addressed : State := small (fun L => Lane.holding [(1, BitVec.ofNat 32 (0x10100 + 16 * L)), (4, 5), (5, 6), (6, 7), (7, 8)])
/-- Lane L has a scratchpad offset in v1: the last of the allocation for lane 1. -/
def offset : State := small (fun L => Lane.holding [(1, if L = 1 then 4080 else 16), (4, 5)])

theorem witness_LoadsIssue : Meets addressed (.ld 20 1 0 0 4 0) (fun s x => ∀ L ∈ x.E, s.passes x (mVa 0 1 x L) (widthOf 4).1 (widthOf 4).1 .load) :=
  letI := decPasses; meets_dec (by decide +kernel)
theorem witness_LoadsIssue_scratchpad : Meets offset (.lds 20 1 15 0 4 0) (fun s x => ∀ L ∈ x.E, s.spPasses x L 15 (mOff 1 x L) (widthOf 4).1 ∧
    s.ownList x L (s.spTeam x L 15 (mOff 1 x L) (widthOf 4).1) (mOff 1 x L) (widthOf 4).1 = false) :=
  letI := decSp; meets_dec (by decide +kernel)
theorem witness_StoresIssue : Meets addressed (.st 4 1 0 2 4 0) (fun s x => ∀ L ∈ x.E, s.lanePend x.uid L (relWait 2) = [] ∧ s.passes x (mVa 0 1 x L) 16 16 .store) :=
  letI := decPasses; meets_dec (by decide +kernel)
theorem witness_StoresIssue_scratchpad : Meets offset (.sts 4 1 15 2 4 0) (fun s x => ∀ L ∈ x.E, s.lanePend x.uid L (relWait 2) = [] ∧ s.spPasses x L 15 (mOff 1 x L) 16 ∧
    s.ownList x L (s.spTeam x L 15 (mOff 1 x L) 16) (mOff 1 x L) 16 = false) :=
  letI := decSp; meets_dec (by decide +kernel)
theorem witness_AtomicsIssue : ∀ i ∈ [Instr.atom 4 1 0 2 10 1, .red 4 1 0 2 10 1],
    Meets addressed i (fun s x => ∀ L ∈ x.E, s.lanePend x.uid L (relWait 2) = [] ∧ s.passes x (mVa 0 1 x L) 8 8 (.atomic 10)) :=
  letI := decPasses; meets_each (by decide +kernel)
theorem witness_AtomicsIssue_scratchpad : Meets offset (.atoms 4 1 15 0 13 0) (fun s x => ∀ L ∈ x.E, s.lanePend x.uid L (relWait 0) = [] ∧ s.spPasses x L 15 (mOff 1 x L) 4 ∧
    s.ownList x L (s.spTeam x L 15 (mOff 1 x L) 4) (mOff 1 x L) 4 = false) :=
  letI := decSp; meets_dec (by decide +kernel)

/-- Lane 0 names an address that is no multiple of 2, and lane 1 this one; page 5 is nowhere, and page 6 another device's, which is no member. -/
def stopping (a : Nat) : State :=
  let s := small (fun L => Lane.holding [(1, if L = 1 then BitVec.ofNat 32 a else 0x10101), (4, 5)])
  { s with tlb := { bareTlb 0 with vpn := 6, leaf := 0x60F, pa := 2 ^ 50 } :: s.tlb, waves := s.waves.map (fun w => { w with walkFaults := [(5, 1)] }) }
/-- Lanes stop as AccessStops says: lane 0 misaligned, and lane 1 so. -/
def Stops (k : AccKind) (n : Nat) (r : Xl → Bool) (s : State) (x : Iss) : Prop := Outside s x ∧ x.E = [0, 1] ∧ s.unwalked x (alignedVas n (mVa 0 1) x) = [] ∧
  (∀ L ∈ x.E, s.lanePend x.uid L (relWait 2) = []) ∧ mVa 0 1 x 0 % n ≠ 0 ∧ mVa 0 1 x 1 % n = 0 ∧ r (s.laneXl x (mVa 0 1 x 1) n k) = true
def decStops (k : AccKind) (n : Nat) (r : Xl → Bool) (s : State) (x : Iss) : Decidable (Stops k n r s x) := letI := decOutside; inferInstanceAs (Decidable (_ ∧ _))
/-- What the checks of lane 1's address answer. -/
def answers : List (Nat × (Xl → Bool)) := [(0x50000, fun r => r == .fault 1), (0x60000, fun r => r == .access 0), (0x10200, fun r => match r with | .ok _ _ => true | _ => false)]
theorem witness_LoadsIssue_stops : ∀ y ∈ answers, Meets (stopping y.1) (.ld 20 1 0 0 4 0) (Stops .load 16 y.2) := fun y hy => letI := decStops
  meets_dec (List.all_eq_true.mp (by decide +kernel : answers.all (fun y => fits (stopping y.1) (.ld 20 1 0 0 4 0) (fun s x => decide (Stops .load 16 y.2 s x))) = true) y hy)
theorem witness_StoresIssue_stops : ∀ y ∈ answers, Meets (stopping y.1) (.st 4 1 0 2 4 0) (Stops .store 16 y.2) := fun y hy => letI := decStops
  meets_dec (List.all_eq_true.mp (by decide +kernel : answers.all (fun y => fits (stopping y.1) (.st 4 1 0 2 4 0) (fun s x => decide (Stops .store 16 y.2 s x))) = true) y hy)
theorem witness_AtomicsIssue_stops : ∀ y ∈ answers, Meets (stopping y.1) (.atom 4 1 0 2 10 1) (Stops (.atomic 10) 8 y.2) ∧ Meets (stopping y.1) (.red 4 1 0 2 10 1) (Stops (.atomic 10) 8 y.2) :=
  fun y hy => letI := decStops
  ⟨meets_dec (List.all_eq_true.mp (by decide +kernel : answers.all (fun y => fits (stopping y.1) (.atom 4 1 0 2 10 1) (fun s x => decide (Stops (.atomic 10) 8 y.2 s x))) = true) y hy),
    meets_dec (List.all_eq_true.mp (by decide +kernel : answers.all (fun y => fits (stopping y.1) (.red 4 1 0 2 10 1) (fun s x => decide (Stops (.atomic 10) 8 y.2 s x))) = true) y hy)⟩
/-- Lane 0 names scratchpad offset 2, and lane 1 the end of the allocation of 4,096 bytes. -/
def outside : State := small (fun L => Lane.holding [(1, if L = 1 then 4096 else 2), (4, 5)])
/-- What ScratchStops asks, of member r; lane 0 is misaligned and lane 1 beyond the end. -/
def Beyond (r n : Nat) (s : State) (x : Iss) : Prop := Outside s x ∧ (∀ L ∈ x.E, s.lanePend x.uid L (relWait 2) = []) ∧ x.E = [0, 1] ∧ mOff 1 x 0 % n ≠ 0 ∧ mOff 1 x 1 % n = 0 ∧
  x.t.alloc < mOff 1 x 1 + n ∧ (s.memberOf x.t x.g r = if r = 15 then some x.t.tid else none) ∧
  ∀ L ∈ x.E, (match s.spCheck x L r (mOff 1 x L) n with | .ok _ => false | _ => true) = true
def decBeyond (r n : Nat) (s : State) (x : Iss) : Decidable (Beyond r n s x) := letI := decOutside; inferInstanceAs (Decidable (_ ∧ _))
theorem witness_LoadsIssue_scratch_stops : Meets outside (.lds 20 1 15 0 4 0) (Beyond 15 16) ∧ Meets outside (.lds 20 1 1 0 4 0) (Beyond 1 16) :=
  letI := decBeyond; ⟨meets_dec (by decide +kernel), meets_dec (by decide +kernel)⟩
theorem witness_StoresIssue_scratch_stops : Meets outside (.sts 4 1 15 2 4 0) (Beyond 15 16) ∧ Meets outside (.sts 4 1 1 2 4 0) (Beyond 1 16) :=
  letI := decBeyond; ⟨meets_dec (by decide +kernel), meets_dec (by decide +kernel)⟩
theorem witness_AtomicsIssue_scratch_stops : Meets outside (.atoms 4 1 15 2 13 0) (Beyond 15 4) ∧ Meets outside (.atoms 4 1 1 2 13 0) (Beyond 1 4) :=
  letI := decBeyond; ⟨meets_dec (by decide +kernel), meets_dec (by decide +kernel)⟩

/-- The same offsets, the named granules empty. -/
def emptied : State := { offset with teams := [{ bareTeam with empties := [1, 255] }] }
/-- What FullEmptyAccesses asks of the granules of the lanes. -/
def Granules (op : AccOp) (full : Bool) (s : State) (x : Iss) : Prop :=
  ((∀ L ∈ x.E, (∀ b, feAcc op .sc 15 1 16 s x L = some b → s.ordersPend x.uid L b = false) ∧ s.spPasses x L 15 (mOff 1 x L) 16) ∧ (∀ L ∈ x.E, ∀ K ∈ x.E, L ≠ K →
    (s.spTeam x L 15 (mOff 1 x L) 16, mOff 1 x L / 16) ≠ (s.spTeam x K 15 (mOff 1 x K) 16, mOff 1 x K / 16))) ∧
  (∀ u ∈ s.teams, bytesWf u.scratch = true) ∧ ∀ L ∈ x.E, s.granuleFull (s.spTeam x L 15 (mOff 1 x L) 16) (mOff 1 x L / 16) = full ∧
    s.feWaiter true (s.spTeam x L 15 (mOff 1 x L) 16) (mOff 1 x L / 16) = false ∧
    s.feWaiter false (s.spTeam x L 15 (mOff 1 x L) 16) (mOff 1 x L / 16) = false ∧ s.lanePend x.uid L (relWait 0) = []
/-- What is asked of a value that may be absent can be decided. -/
def decOption {α : Type} {o : Option α} {p : α → Prop} [DecidablePred p] : Decidable (∀ b, o = some b → p b) :=
  decidable_of_iff (o.all (fun b => decide (p b)) = true) (by cases o <;> simp)
def decGranules (op : AccOp) (full : Bool) (s : State) (x : Iss) : Decidable (Granules op full s x) :=
  letI := decSp
  letI : ∀ L, Decidable (∀ b, feAcc op .sc 15 1 16 s x L = some b → s.ordersPend x.uid L b = false) := fun _ => decOption
  inferInstanceAs (Decidable (_ ∧ _))
theorem witness_FullEmptyAccesses_ldfe_full : Meets offset (.ldfe 20 1 15 0 6 0) (Granules (.load 20 0) true) := letI := decGranules (.load 20 0) true; meets_dec (by decide +kernel)
theorem witness_FullEmptyAccesses_ldfe_empty : Meets emptied (.ldfe 20 1 15 0 2 0) (Granules (.load 20 0) false) := letI := decGranules (.load 20 0) false; meets_dec (by decide +kernel)
theorem witness_FullEmptyAccesses_stfe_full : Meets offset (.stfe 4 1 15 0 2 0) (Granules .store true) := letI := decGranules .store true; meets_dec (by decide +kernel)
theorem witness_FullEmptyAccesses_stfe_empty : Meets emptied (.stfe 4 1 15 0 2 0) (Granules .store false) := letI := decGranules .store false; meets_dec (by decide +kernel)

/-! ### Memory-system instructions, barriers, tickets and rings -/

/-- Every lane has the address at 256 bytes into the page in v1 and v2, the count 2 in v3, and a packet of KIND 8 in v8. -/
def shared : State := holding [(1, 0x10100), (3, 2), (4, 5), (8, 8)]
/-- Bytes in memory: address, length, value. -/
def withMem (s : State) (ps : List (Nat × Nat × Nat)) : State := { s with mem := ps.foldl (fun m p => memPut m p.1 (leBytes p.2.1 p.2.2)) s.mem }
/-- The same with every lane holding claim 1 of its instruction. -/
def claiming (s : State) : State :=
  { s with waves := s.waves.map (fun w => { w with lanes := w.lanes.map (fun l => { l with claim := some 1, ring := (0x11000, 4) }) }) }

/-- What is asked of a translation can be decided. -/
def decXl {r : Xl} {p : Nat → Pte → Prop} [∀ pa e, Decidable (p pa e)] : Decidable (∃ pa e, r = .ok pa e ∧ p pa e) :=
  decidable_of_iff ((match r with | .ok pa e => decide (p pa e) | _ => false) = true) (by cases r <;> simp [Xl.ok.injEq, and_assoc])
/-- What is asked of the order of whole accesses can be decided. -/
def decOrder {s : State} {x : Iss} {op : AccOp} {ord : Ord} {ws : List Whole} : Decidable (s.inOrder x op ord ws) :=
  inferInstanceAs (Decidable (∀ p ∈ ws, s.ordersPend x.uid p.lane (s.wholeAcc x op ord p) = false))
theorem witness_CountedStore : Meets shared (.cstore 4 1 0 2 0 0) (fun s x => x.E ≠ [] ∧ Memory.wf s.mem = true ∧ x.g.logOrd = none ∧ mVa 0 1 x (x.E.headD 0) % 16 = 0 ∧
    (∃ pa e, s.laneXl x (mVa 0 1 x (x.E.headD 0)) 16 (.atomic 1) = .ok pa e ∧ s.migHeld pa = false ∧ ∀ L ∈ x.E,
      s.ordersPend x.uid L { accOf (.atom 1 0 0 none) pa 16 with ord := ordAt 2, scope := scopeOf (x.h L), type := e.type } = false) ∧
    ∀ L ∈ x.E, (x.l L).claim = none ∧ mVa 0 1 x L = mVa 0 1 x (x.E.headD 0) ∧ s.lanePend x.uid L (relWait 2) = []) :=
  letI := @decXl; meets_dec (by decide +kernel)
theorem witness_CountedStore_claimed : Meets (claiming shared) (.cstore 4 1 0 2 0 0) (fun s x => x.claimed.E ≠ [] ∧ (∀ L ∈ x.E, s.lanePend x.uid L (relWait 2) = []) ∧
    ∀ L ∈ x.claimed.E, s.passes x (elemVa 0 1 (widthOf 0).1 x L) (widthOf 0).1 (widthOf 0).1 .store) := letI := decPasses; meets_dec (by decide +kernel)
theorem witness_LineLocks : ∀ i ∈ [Instr.lock 3 1 0 0, .unlock 3 1 0 0], Meets shared i (fun s x => ∀ L ∈ x.E, ∃ ps, s.laneXls x .load (lockLines 3 0 1 x L) = .ok ps) :=
  letI := decLines; meets_each (by decide +kernel)
theorem witness_PrefetchBasesAndFences : ∀ i ∈ [Instr.pref 3 1 0 0 0, .pref 3 1 0 3 0, .bset 1 15, .bget 4 15, .fence 0 0, .fence 1 6, .fence 2 5, .xfence 0 3, .xfence 1 0],
    Meets shared i (fun s x => ∀ L ∈ x.E, baseVal (x.l L) 1 = baseVal (x.l (x.E.headD 0)) 1 ∧ s.readsPend x.uid L = false ∧ s.lanePend x.uid L anyAccess = []) :=
  meets_each (by decide +kernel)
theorem witness_BarriersAndTickets_barriers : ∀ i ∈ [Instr.barSync 15, .barArrive 0, .barWait 15, .barCsync], Meets shared i (fun s x =>
    s.team? x.w.tid = some x.t ∧ x.t.bars.length = 17 ∧ ∀ L ∈ x.E, (x.l L).routine = none ∧ s.unquiet x.uid L anyAccess = false) := meets_each (by decide +kernel)
/-- The team is team 1 of an ordered grid; ticket 2 of team 0 is not taken, and ticket 3 is poisoned. -/
def ordered : State :=
  { shared with
    grids := [{ gid := 1, ctx := 0, card := bareCard ||| record 512 [(1, 1, 1)], src := .packet 0 0, begun := true, tickets := [(0, { taken := 1, poisoned := 8 })] }]
    teams := [{ bareTeam with ordinal := 1 }] }
theorem witness_BarriersAndTickets_wait_taken : Meets ordered (.ordwait 4 0) (fun _ x => ticketState x.g x.t 0 = some 0) := meets_dec (by decide +kernel)
theorem witness_BarriersAndTickets_wait_poisoned : Meets ordered (.ordwait 4 3) (fun _ x => ticketState x.g x.t 3 = some 1) := meets_dec (by decide +kernel)
theorem witness_BarriersAndTickets_wait_open : Meets ordered (.ordwait 4 2) (fun _ x => ticketState x.g x.t 2 = none) := meets_dec (by decide +kernel)
theorem witness_BarriersAndTickets_take : Meets ordered (.ordtake 2) (fun s x => s.team? x.w.tid = some x.t ∧ s.grid? x.t.gid = some x.g ∧
    (ticketed x.g x.t = true → ticketState x.g x.t 2 ≠ some 1) ∧ ticketed x.g x.t = true ∧ x.g.ordered = true ∧ x.t.kind = .dealt ∧
    ∀ L ∈ x.E, s.lanePend x.uid L anyWrite = [] ∧ s.unquiet x.uid L anyAccess = false) := meets_dec (by decide +kernel)
/-- The same with b3 at the address in v1, and a queue header there: slots at 0x11000, 16 of them, WRITEIDX 4. -/
def ringed : State :=
  withMem { shared with waves := shared.waves.map (fun w => { w with bases := w.bases.set 3 0x10100 }) } [(0x100, 8, 4), (0x110, 9, 0x11000), (0x119, 1, 4)]
theorem witness_RingWaits_wait : Meets ringed (.rwait 3 3) (fun s x => x.g.logOrd = none ∧ ∀ L ∈ x.E, s.passes x (sysVa 3 x L) 8 8 .ring ∧
    ∀ b, rwaitAcc 3 s x L = some b → s.ordersPend x.uid L b = false) :=
  letI := decPasses; letI : ∀ (s : State) (x : Iss) (L : Nat), Decidable (∀ b, rwaitAcc 3 s x L = some b → s.ordersPend x.uid L b = false) := fun _ _ _ => decOption; meets_dec (by decide +kernel)
theorem witness_RingWaits_release : Meets ringed (.rrel 3 3) (fun s x => ∀ L ∈ x.E, s.passes x (sysVa 3 x L) 16 8 (.atomic 1)) :=
  letI := decPasses; meets_dec (by decide +kernel)
theorem witness_QueuePush : Meets ringed (.qpush 4 8 3) (fun s x => x.E ≠ [] ∧ Memory.wf s.mem = true ∧ x.g.logOrd = none ∧
    (∃ h, s.qhdrAt x 3 (x.E.headD 0) = some h ∧ h.qkind ≠ 3 ∧ 4 ≤ h.logslots ∧ h.logslots ≤ 20) ∧
    (∃ pa e, s.laneXl x (sysVa 3 x (x.E.headD 0)) 32 (.atomic 0) = .ok pa e ∧ s.migHeld pa = false ∧
      ∀ L ∈ x.E, s.ordersPend x.uid L { accOf (.atom 0 0 0 none) pa 32 with type := e.type } = false) ∧
    ∀ L ∈ x.E, (x.l L).claim = none ∧ (x.l L).v 8 &&& 0xFF ≠ 0 ∧ sysVa 3 x L = sysVa 3 x (x.E.headD 0)) := by
  letI := @decXl
  letI : ∀ h : Option QHdr, Decidable (∃ k, h = some k ∧ k.qkind ≠ 3 ∧ 4 ≤ k.logslots ∧ k.logslots ≤ 20) :=
    fun h => decidable_of_iff (h.any (fun k => decide (k.qkind ≠ 3 ∧ 4 ≤ k.logslots ∧ k.logslots ≤ 20)) = true) (by cases h <;> simp)
  exact meets_dec (by decide +kernel)
theorem witness_QueuePush_claimed : Meets (claiming ringed) (.qpush 4 8 3) (fun s x => (x.placed s 3).E ≠ [] ∧ (∀ L ∈ x.claimed.E, (s.qhdrAt x 3 L).isSome = true ∧ s.lanePend x.uid L anyWrite = []) ∧
    ∀ L ∈ (x.placed s 3).E, s.passes x (slotVa x L) 64 64 .store) := letI := decPasses; meets_dec (by decide +kernel)

/-! ### Estimators, operand memory, matrix unit, sampling, dot products and lists -/

/-- Tables that map each virtual address below 4 TiB to the same physical one: two levels, and a leaf of the third. -/
def tables : List (Nat × Nat × Nat) := [(0x100000, 8, 0x110001), (0x110000, 8, 0x60F)]
/-- The context with these tables and these fields of its descriptor. -/
def mapped (fs : List (Nat × Nat × Nat)) (s : State) : State :=
  withMem { s with ctxs := [(0, { bareCtx with desc := record 4096 ([(0, 1, 1), (8, 9, 65536), (256, 8, 0x100001)] ++ fs) })] } tables
/-- A translation of one page to the same physical one, with a TYPE. -/
def page (vpn type : Nat) : TlbEnt := { bareTlb 0 with vpn, leaf := BitVec.ofNat 64 (0x60F + 16 * type), pa := 65536 * vpn }
/-- Region 3 of the context: eight cells at 0x30000; lanes name cells 7 and 0 in v5 and v6, and have a count of 1 in v9. -/
def region : State :=
  let s := withMem (mapped [(80, 9, 0x120000), (89, 2, 4)] (holding [(4, 0x40000000), (5, 7), (6, 0), (8, 7), (9, 1)])) [(0x1200C0, 9, 0x30000), (0x1200CC, 4, 8), (0x1200D3, 1, 1)]
  { s with tlb := page 3 1 :: page 0x12 0 :: s.tlb }
/-- What EstimatorsIssue asks of the cells that the lanes name. -/
def Cells (ranges : Iss → Nat → List (Nat × Nat)) (cells : Iss → Nat → List Nat) (s : State) (x : Iss) : Prop :=
  ∀ L ∈ x.E, s.estCheck x L 3 (ranges x L) = none ∧ ∃ ps, s.laneXls x .est ((cells x L).map (fun c => (s.cellVa x.c 3 c, 16))) = .ok ps
def decCells (ranges : Iss → Nat → List (Nat × Nat)) (cells : Iss → Nat → List Nat) (s : State) (x : Iss) : Decidable (Cells ranges cells s x) :=
  letI := decLines; inferInstanceAs (Decidable (∀ L ∈ x.E, _ ∧ _))
theorem witness_EstimatorsIssue : ∀ i ∈ [Instr.est 4 5 3, .eld 16 5 3, .eclr 5 3, .eraw 5 3, .einit 5 3], Meets region i (Cells (fun _ _ => [(7, 1)]) (fun _ _ => [7])) :=
  letI := decCells (fun _ _ => [(7, 1)]) (fun _ _ => [7]); meets_each (by decide +kernel)
theorem witness_EstimatorsIssue_merge : Meets region (.emrg 5 3) (Cells (fun _ _ => [(7, 1), (0, 1)]) (fun _ _ => [7, 0])) :=
  letI := decCells (fun _ _ => [(7, 1), (0, 1)]) (fun _ _ => [7, 0]); meets_dec (by decide +kernel)
theorem witness_EstimatorsIssue_sweep : Meets region (.esweep 8 3) (Cells (fun _ _ => [(7, 1)]) (fun _ _ => [7])) :=
  letI := decCells (fun _ _ => [(7, 1)]) (fun _ _ => [7]); meets_dec (by decide +kernel)
theorem witness_EstimatorsIssue_sweep_of_none : Meets region (.esweep 5 3) (Cells (fun _ _ => [(7, 0)]) (fun _ _ => [])) :=
  letI := decCells (fun _ _ => [(7, 0)]) (fun _ _ => []); meets_dec (by decide +kernel)
theorem witness_EstimatorsIssue_scene : Meets region (.escene 3) (fun s x => x.E ≠ [] ∧ Memory.wf s.mem = true ∧ s.estCheck x (x.E.headD 0) 3 [] = none ∧
    s.passes x ((s.descVa x.c 3 + 16) % 2 ^ 72) 1 1 .gen ∧ ∀ L ∈ x.E, (x.l L).begun = false) := letI := decPasses; meets_dec (by decide +kernel)
theorem witness_EstimatorsIssue_scene_in_force : Meets (small (fun _ l => { l with begun := true })) (.escene 3)
    (fun s x => ∀ L ∈ x.E, (x.l L).begun = true ∧ s.sceneOpen x.uid L = false) := meets_dec (by decide +kernel)

/-- Handles 0 and 31 hold slots 0 and 3 of the team's four; formats and addresses in registers. -/
def slotted : State :=
  let s := holding [(1, 0x10100), (10, 0x220), (5, 0x10200)]
  { s with
    teams := [{ bareTeam with slots := 4 }]
    waves := s.waves.map (fun w => { w with handles := ((List.replicate 32 none).set 0 (some 0)).set 31 (some 3), ops := List.replicate 4 {} }) }
theorem witness_OperandMemory_claim : ∀ i ∈ [Instr.mclaim 4 1 1, .mclaim 4 7 1, .mclaim 4 0 31], Meets slotted i (fun _ x => x.w.handles.length = 32) := meets_each (by decide +kernel)
theorem witness_OperandMemory : ∀ i ∈ [Instr.mrel 0 31, .mzero 0 31, .mrow 16 31, .mread 16 31], Meets slotted i (fun s x =>
    s.filling x.w (x.w.slotIx 31) = false ∧ s.mmaReads x.core x.uid (x.w.slotIx 31) = false ∧ x.w.slotIx 31 < x.w.ops.length ∧ bytesWf (x.w.opSlot 31).data = true) :=
  meets_each (by decide +kernel)
theorem witness_OperandLoads : Meets slotted (.mld 31 1 0 0 0) (fun s x => s.mldBusy x (x.w.slotIx 31) = false ∧ ∀ L ∈ x.E,
    s.mldCheck 1 0 false x L = none ∧ ∃ ps, s.laneXls x .load (mldVas 1 0 false x L) = .ok ps) := letI := decLines; meets_dec (by decide +kernel)
theorem witness_OperandLoads_locator : Meets slotted (.msets 10) (fun _ x => ∀ L ∈ x.E, (x.l L).v 10 = (x.l (x.E.headD 0)).v 10) := meets_dec (by decide +kernel)
theorem witness_OperandLoads_codebook : Meets slotted (.mcbt 1 0 0) (fun s x => x.g.logOrd = none ∧ s.team? x.w.tid = some x.t ∧ s.mmaOn x.core = false ∧ mVa 0 1 x (x.E.headD 0) % 64 = 0 ∧
    (∀ L ∈ x.E, mVa 0 1 x L = mVa 0 1 x (x.E.headD 0)) ∧ s.inOrder x (.load 0 0) .wk (x.eachLane (mcbtWholes 0 1 s x)) ∧ linesB s x .load (mcbtVas 0 1 x (x.E.headD 0)) = true ∧
    (s.linesAt x (mcbtVas 0 1 x (x.E.headD 0))).all (fun p => (memBytes s.mem p.1 64).all (fun b => b &&& 0x88 == 0)) = true) := letI := @decOrder; meets_dec (by decide +kernel)
theorem witness_MatrixMultiply : Meets slotted (.mma 16 10 0 31 1) (fun s x => mmaBusy 16 10 0 31 s x = false ∧ mmaTrap s x 16 10 = none) := meets_dec (by decide +kernel)
theorem witness_MatrixMultiply_quantiser : Meets (hinted [{ major := 0x7E, pay := 3 * 2 ^ 4, pc := 0 }]) (.hadq 64 1 40 0 0 0) (fun s x => (s.core x.core).qfree.length = 4) := meets_dec (by decide +kernel)
/-- Descriptors for MARCH at 0x10100 and for HGRID at 0x10200: one cell that is set, and a table of 16 entries with SCALE 1. -/
def sampled : State := withMem slotted [(0x100, 9, 0x10300), (0x10C, 2, 1), (0x10E, 2, 1), (0x110, 2, 1), (0x112, 1, 64), (0x300, 1, 1),
  (0x200, 9, 0x10400), (0x20C, 4, 16), (0x210, 4, 0x3F800000)]
def two (r : Rd (List Word)) : Bool := match r with | .ok [_, _] _ => true | _ => false
theorem witness_SamplingPipe_march : Meets sampled (.march 4 16 1 0 0 0) (fun s x => x.g.logOrd = none ∧
    s.inOrder x (.load 0 0) .wk (rdWholes (fun s x L => s.marchLane x L 16 1) s x) ∧ ∀ L ∈ x.E, two (s.marchLane x L 16 1) = true) :=
  letI := @decOrder; meets_dec (by decide +kernel)
theorem witness_SamplingPipe_grid : Meets sampled (.hgrid 4 16 5 0 0 0) (fun s x => x.g.logOrd = none ∧
    s.inOrder x (.load 0 0) .wk (rdWholes (fun s x L => s.hgridLane x L 16 5) s x) ∧ ∀ L ∈ x.E, two (s.hgridLane x L 16 5) = true) :=
  letI := @decOrder; meets_dec (by decide +kernel)
theorem witness_DotProducts : ∀ i ∈ [Instr.idot4 4 1 0 0, .ndot4 4 1 0 0, .idot8 4 1 0 0, .idist4 4 1 0 0, .fdot4e4 4 1 0 0, .fdot4e5 4 1 0 0, .hdot2 4 1 0 0],
    Meets slotted i (fun _ _ => True) := meets_all (by decide +kernel)
/-- Lists of four at offset 0, with the entry (5, 1), and at offset 64, empty; offsets in v1 and v2, a candidate in v3. -/
def listed : State :=
  let s := holding [(1, 0), (2, 64), (3, 9), (16, 3808)]
  { s with teams := [{ bareTeam with scratch := [(0, 4), (2, 1), (16, 5), (20, 1), (64, 4)] }] }
/-- The lists of a ready machine. -/
def Ready' (r k : Nat) (s : State) (x : Iss) : Prop :=
  let off := ((x.l (x.E.headD 0)).v r).toNat
  s.team? x.w.tid = some x.t ∧ bytesWf x.t.scratch = true ∧ kTraps x r = none ∧ (∀ L ∈ x.E, s.unquiet x.uid L inScratch = false) ∧
  (∀ own, s.kLocked x.t.tid x.uid own off = false) ∧ ∀ L ∈ x.E, s.ownList x L x.t.tid off (kLen k) = false
def decReady (r k : Nat) (s : State) (x : Iss) : Decidable (Ready' r k s x) := inferInstanceAs (Decidable (_ ∧ _))
theorem witness_TopKLists_init : Meets listed (.kinit 16 1 33) (fun s x => x.E ≠ [] ∧ Ready' 16 34 s x ∧ 3808 + 16 + 8 * 34 = x.t.alloc) := letI := decReady; meets_dec (by decide +kernel)
theorem witness_TopKLists_insert : Meets listed (.kins 4 1) (fun s x => x.E ≠ [] ∧ Ready' 1 4 s x ∧ s.kAt x.t.tid 0 = .list { k := 4, int := false, es := [(5, 1)] }) :=
  letI := decReady; meets_dec (by decide +kernel)
theorem witness_TopKLists_merge : Meets listed (.kmrg 4 1) (fun s x => x.E ≠ [] ∧ Ready' 1 4 s x ∧ Ready' 2 4 s x ∧
    s.kAt x.t.tid 0 = .list { k := 4, int := false, es := [(5, 1)] } ∧ s.kAt x.t.tid 64 = .list { k := 4, int := false, es := [] } ∧ 0 + 16 + 8 * 4 ≤ 64) :=
  letI := decReady; meets_dec (by decide +kernel)
theorem witness_TopKLists_read : Meets listed (.krd 4 1) (fun s x => x.E ≠ [] ∧ Ready' 1 4 s x ∧ s.kAt x.t.tid 0 = .list { k := 4, int := false, es := [(5, 1)] }) :=
  letI := decReady; meets_dec (by decide +kernel)

/-- A wave's window is steady, as a decision. -/
def steadyB (s : State) (w : Wave) : Bool :=
  match w.openWindow with
  | none => true
  | some v => decide (v.issued < s.cycle) && (List.range 32).all (fun M => !v.lanes.getLsbD M || (w.lane M).underPrimary v.primary == w.lane M)
theorem steady_of {s : State} {w : Wave} (h : steadyB s w = true) : WindowSteady s w := by
  intro v hv
  simp only [steadyB, hv, Bool.and_eq_true, decide_eq_true_eq, List.all_eq_true, List.mem_range, Bool.or_eq_true, Bool.not_eq_true', beq_iff_eq] at h
  refine ⟨h.1, fun M hM => ?_⟩
  by_cases hl : M < 32
  · exact (h.2 M hl).resolve_left (by simp [hM])
  · simp [BitVec.getLsbD_of_ge v.lanes M (by omega)] at hM
theorem steady_iff {s : State} {w : Wave} : steadyB s w = true ↔ WindowSteady s w := by
  refine ⟨steady_of, fun h => ?_⟩
  unfold steadyB
  cases hv : w.openWindow with
  | none => rfl
  | some v =>
    simp only [Bool.and_eq_true, decide_eq_true_eq, List.all_eq_true, List.mem_range, Bool.or_eq_true, Bool.not_eq_true', beq_iff_eq]
    refine ⟨(h v hv).1, fun M _ => ?_⟩
    cases hM : v.lanes.getLsbD M
    · exact .inl rfl
    · exact .inr ((h v hv).2 M hM)
def decSteady (s : State) (w : Wave) : Decidable (WindowSteady s w) := decidable_of_iff _ steady_iff

/-! ### Tasks, markers, continuations, traversal and the wave image -/

/-- A good card of a child grid at 0x10100: the card of the machine's own grid. -/
def carded : State := { shared with mem := memPut [] 0x100 (recordBytes bareCard) }
theorem witness_LaunchChildren : Meets carded (.launch 4 1 0) (fun s x => (x.g.logOrd = none ∧ s.inOrder x (.load 0 0) .sc (launchWholes 1 0 s x) ∧ ∀ L ∈ x.E, (x.l L).routine = none ∧ s.lanePend x.uid L anyWrite = [] ∧
      (if x.leads L = true then s.passes x (mVa 0 1 x L) 64 64 .load else mVa 0 1 x L % 64 = 0)) ∧
    0 ∈ x.E ∧ x.g.depth < 10 ∧ cardGood (s.ctx x.c) (BitVec.ofNat 512 (s.rd (s.paOf x (mVa 0 1 x 0) 64 .load) 64)) = true) := by
  letI := decPasses
  letI := @decOrder
  letI : ∀ (x : Iss) (L : Nat) (s : State), Decidable (if x.leads L = true then s.passes x (mVa 0 1 x L) 64 64 .load else mVa 0 1 x L % 64 = 0) :=
    fun x L s => if h : x.leads L = true then by rw [if_pos h]; infer_instance else by rw [if_neg h]; infer_instance
  exact meets_dec (by decide +kernel)
/-- Executing lanes outside routines that have not begun their MARK, of a team and grid that stand. -/
def Marks (s : State) (x : Iss) : Prop := x.E ≠ [] ∧ (∀ L ∈ x.E, (x.l L).routine = none ∧ (x.l L).begun = false) ∧ x.w.lanes.length ≤ 32 ∧
  (∀ l ∈ x.w.lanes, l.inHandler = false) ∧ s.team? x.w.tid = some x.t ∧ s.grid? x.t.gid = some x.g
def decMarks (s : State) (x : Iss) : Decidable (Marks s x) := inferInstanceAs (Decidable (_ ∧ _))
/-- The wave has moved to marker 5. -/
def marked : State := { shared with waves := shared.waves.map (fun w => { w with marker := some 5 }) }
theorem witness_MarkersMove_below : ∀ i ∈ [Instr.markImm 5, .markReg 4], Meets marked i (fun s x => Marks s x ∧ x.w.marker = some 5 ∧ ((x.l 0).v 4).toNat % 65536 = 5) :=
  letI := decMarks; meets_each (by decide +kernel)
theorem witness_MarkersMove : ∀ i ∈ [Instr.markImm 5, .markReg 4], Meets shared i (fun s x => Marks s x ∧ x.w.marker = none ∧ s.missed x.g x.w.bases 5 = []) :=
  letI := decMarks; meets_each (by decide +kernel)
/-- A timetable whose entry for marker 5 requires a page that is nowhere, with POLICY TRAP. -/
def requiring : State :=
  { shared with grids := [{ gid := 1, ctx := 0, card := bareCard, src := .packet 0 0, begun := true, tt := some [record 256 [(0, 2, 5), (2, 1, 2), (4, 1, 1), (16, 4, 1)]] }] }
theorem witness_MarkersMove_missed : ∀ i ∈ [Instr.markImm 5, .markReg 4], Meets requiring i (fun s x => Marks s x ∧ x.w.marker = none ∧
    ∃ m ∈ s.missed x.g x.w.bases 5, TtEnt.policy m.e = 1) := letI := decMarks; meets_each (by decide +kernel)
theorem witness_Continuations : Meets shared (.cont 28 5) (fun s x => x.w.handlerB15 = none ∧ s.caddyTakes x.die x.c x.E.length = true ∧
    ∀ L ∈ x.E, (x.l L).routine = none ∧ (x.l L).inHandler = false) := meets_dec (by decide +kernel)
/-- Every lane has the address at 512 bytes into the page, which is a multiple of 128. -/
def lined : State := holding [(1, 0x10200), (3, 0x10400)]
theorem witness_Continuations_trav : Meets lined (.trav 28 1 0) (fun s x => (x.w.handlerB15 = none ∧ s.caddyTakes x.die x.c x.E.length = true ∧
    ∀ L ∈ x.E, (x.l L).routine = none ∧ (x.l L).inHandler = false) ∧ x.E.length ≤ s.engineRoom x.die (x.t.core / 4) ∧
    ∀ L ∈ x.E, s.passes x (mVa 0 1 x L) 128 128 .load) := letI := decPasses; meets_dec (by decide +kernel)
theorem witness_TraversalInstructions_new : Meets lined (.tnew 16 1 0 0) (fun s x => ∀ L ∈ x.E, s.passes x (mVa 0 1 x L) 128 128 .store) :=
  letI := decPasses; meets_dec (by decide +kernel)
/-- A stack of two frames, with handle h, whose object is at this address. -/
def stack (h : Nat) (va : BitVec 72) : Stack :=
  { id := h, handle := h, die := 0, eng := 0, slot := 0, ctx := 0, gid := 1, va, q := List.replicate 16 0, root := 0, nlt := 0, st := .routine 0 0
    frames := [{ node := 5, mask := 3 }, { node := 7, mask := 1 }] }
/-- Lane L is the routine of stack 40 + L at level 1; v1 and v2 name the stack and a level, v3 and v4 an address of a new object, v5 a decision. -/
def routines : State :=
  let s := small (fun L l => { (Lane.holding [(1, BitVec.ofNat 32 (40 + L)), (2, BitVec.ofNat 32 L), (3, 0x10400), (5, 0x300)] l) with
    routine := some { stk := 40 + L, level := 1, kind := 0 } })
  mapped [] { s with stks := [stack 40 0x10200, stack 41 0x10300] }
theorem witness_TraversalInstructions_return : Meets routines (.tret 5) (fun s x => x.w.handlerB15 = none ∧
    (∀ L ∈ x.E, (x.l L).routine.isSome = true ∧ tretWaits (x.l L) 5 = false ∧ s.lanePend x.uid L anyWrite = []) ∧
    (∀ L ∈ x.E, ∀ K ∈ x.E, L ≠ K → ((x.l L).routine.map Routine.stk) ≠ ((x.l K).routine.map Routine.stk)) ∧
    ∀ L ∈ x.E, (s.stkOf (40 + L)).map Stack.st = some (.routine 0 0)) := meets_dec (by decide +kernel)
/-- Word z of the frame that a lane names can be read, as a decision. -/
def frameB (s : State) (x : Iss) (L : Nat) (a : BitVec 7) (z : Nat) : Bool :=
  match s.frameFor x L a with | some (k, lv) => (match s.frameWord k lv z with | .ok _ => true | _ => false) | none => false
theorem witness_TraversalInstructions_frame_words : ∀ i ∈ [Instr.tfrd 6 1 0, .tfrd 6 1 6, .tfrd 6 1 7], Meets routines i (fun s x => ∀ L ∈ x.E,
    frameB s x L 1 0 = true ∧ frameB s x L 1 6 = true ∧ frameB s x L 1 7 = true) := meets_each (by decide +kernel)
theorem witness_TraversalInstructions_frame_writes : ∀ i ∈ [Instr.tfwr 6 1 4, .tfwr 6 1 5], Meets routines i (fun s x => (s.stks.map Stack.handle).Nodup ∧ ∀ L ∈ x.E,
    (match s.frameFor x L 1 with | some (k, lv) => !k.open && k.cached.contains lv | none => false) = true) := meets_each (by decide +kernel)
theorem witness_TraversalInstructions_status : Meets { routines with stks := [stack 40 0x10400] } (.tstat 6 3 0) (fun s x => x.g.logOrd = none ∧ s.inOrder x (.load 0 0) .wk (tstatWholes 3 0 s x) ∧
    (tstatRest s 3 0 x).E = []) := letI := @decOrder; meets_dec (by decide +kernel)
theorem witness_TraversalInstructions_status_in_memory : Meets lined (.tstat 6 3 0) (fun s x => x.g.logOrd = none ∧ (tstatRest s 3 0 x).E ≠ [] ∧ s.inOrder x (.load 0 0) .wk (tstatWholes 3 0 s x) ∧
    ∀ L ∈ (tstatRest s 3 0 x).E, s.passes x (mVa 0 3 x L) 128 128 .load) := letI := decPasses; letI := @decOrder; meets_dec (by decide +kernel)
/-- The wave's other lane has exited. -/
def alone (s : State) : State := { s with waves := s.waves.map (fun w => { w with lanes := w.lanes.take 1 }) }
theorem witness_CutsLand : Meets (alone routines) (.tcut 6 1 0) (fun s x => x.w.minSet = [0] ∧ x.E = [0] ∧ cutVa 1 0 x 0 % 128 = 0 ∧ byMemory 1 x 0 = false ∧
    (match s.cutByHandle x (x.l 0) (cutHandle 1 x 0) (cutLevel 1 x 0) (cutVa 1 0 x 0) with | .land 0 _ => true | _ => false) = true) := meets_dec (by decide +kernel)
/-- One lane that cuts the object at 0x10400 by memory, at level 0; its header there has DEPTH 1, and the level's MASK is 3. -/
def cutting (status : Nat) : State :=
  let s := holding [(1, 0xFFFFFFFF), (3, 0x10400)]
  withMem (alone s) [(0x451, 1, status), (0x452, 1, 1), (0x488, 2, 3)]
theorem witness_CutsLand_refused : Meets (cutting 1) (.tcut 6 1 0) (fun s x => x.w.minSet = [0] ∧ x.E = [0] ∧ x.g.logOrd = none ∧ byMemory 1 x 0 = true ∧
    s.passes x (cutVa 1 0 x 0) 128 128 .load ∧ s.inOrder x (.load 0 0) .wk (memCutHeads 1 0 s x) ∧ s.memCutStatus 1 0 x 0 = some 1) := letI := decPasses; letI := @decOrder; meets_dec (by decide +kernel)
/-- Where the first three stores of the cut go. -/
def at3 (s : State) (x : Iss) : List Nat := match s.laneXls x .store (memCutVas 1 0 x 0) with | .ok ps => (ps.map (fun p => p.1)).take 3 | _ => []
theorem witness_CutsLand_by_memory : Meets (cutting 0) (.tcut 6 1 0) (fun s x => x.w.minSet = [0] ∧ x.E = [0] ∧ x.g.logOrd = none ∧ byMemory 1 x 0 = true ∧
    s.passes x (cutVa 1 0 x 0) 128 128 .load ∧ s.inOrder x (.load 0 0) .wk (memCutReads 1 0 s x) ∧ s.inOrder x .store .wk (memCutPuts 1 0 s x) ∧ s.memCutStatus 1 0 x 0 = some 0 ∧ s.streamPa x.die 0 = 0 ∧ linesB s x .store (memCutVas 1 0 x 0) = true ∧
    (∀ v ∈ memCutVas 1 0 x 0, s.setDirty x.die x.c v.1 = s) ∧ Memory.wf s.mem = true ∧ at3 s x = [0x480, 0xC80, 0xD00]) :=
  letI := decPasses; letI := @decOrder; meets_dec (by decide +kernel)

theorem witness_SpecialRegisters : ∀ i ∈ [Instr.srd 4 0, .srd 4 38, .swr 4 21, .swr 4 33, .swr 4 34], Meets shared i (fun _ _ => True) := meets_all (by decide +kernel)
theorem witness_SpecialRegisters_handler : Meets (small (fun _ l => { l with inHandler := true })) (.swr 4 36) (fun s x => ∀ L ∈ x.E, (s.laneNow x L).inHandler = true) := meets_dec (by decide +kernel)
theorem witness_SpecialRegisters_outside : Meets shared (.swr 4 36) (fun _ x => x.w.lanes.length ≤ 32 ∧ ∀ l ∈ x.w.lanes, l.inHandler = false) := meets_dec (by decide +kernel)
theorem witness_TrapsAndBreaks : ∀ i ∈ [Instr.trapUser 4, .bkpt, .trapAssert 4 2], Meets shared i (fun s x => x.w.lanes.length ≤ 32 ∧ WindowSteady s x.w ∧ (∀ L ∈ x.E, (x.w.lane L).inHandler = false) ∧
    (s.waves.map Wave.uid).Nodup ∧ (s.teams.map Team.tid).Nodup) := letI := decSteady; meets_each (by decide +kernel)
/-- Lane 0 has trapped, and its window is open, or the handler runs for it and the next one has opened. -/
def windows (handling : Bool) : State :=
  let s := small (fun L l => if L = 0 then { l with st := if handling then .returned else .trapped, trapinfo := [0, 0, 0, 0, 0, 0], inHandler := handling } else { l with inHandler := handling })
  let v : Window := { openedAt := 50, pc := 0, primary := 1, issued := 50, lanes := 2 }
  { s with waves := s.waves.map (fun w => if handling then { w with handlerB15 := some 7, next := some v } else { w with window := some { v with primary := 0, lanes := 1 } }) }
theorem witness_TrapsAndBreaks_joins : Meets (windows false) (.trapUser 4) (fun s x => WindowSteady s x.w ∧ x.w.openWindow ≠ none ∧ x.w.handling = false ∧ x.E = [1]) ∧
    Meets (windows true) .bkpt (fun s x => WindowSteady s x.w ∧ x.w.openWindow ≠ none ∧ x.w.handling = true ∧ x.E = [1]) :=
  letI := decSteady; ⟨meets_dec (by decide +kernel), meets_dec (by decide +kernel)⟩
/-- Lanes in the handler, which lane 1 has returned from or not. -/
def handling (done : Bool) : State :=
  let s := small (fun L l => { l with inHandler := true, st := if L = 1 ∧ done then .returned else .run, pc := if L = 1 then 9 else 5 })
  { s with waves := s.waves.map (fun w => { w with handlerB15 := some 7 }) }
theorem witness_HandlerEntryAndReturn_first : Meets (handling false) .rft (fun _ x => ∃ L, L < x.w.lanes.length ∧ L ∉ x.E ∧ (x.w.lane L).inHandler = true ∧
    (x.w.lane L).st ≠ .returned ∧ (x.w.lane L).st ≠ .exited) :=
  meets_of (fun _ x => decide (1 < x.w.lanes.length ∧ 1 ∉ x.E ∧ (x.w.lane 1).inHandler = true ∧ (x.w.lane 1).st ≠ .returned ∧ (x.w.lane 1).st ≠ .exited)) (by decide +kernel)
    (fun _ h => ⟨1, of_decide_eq_true h⟩)
theorem witness_HandlerEntryAndReturn_last : Meets (handling true) .rft (fun _ x => x.w.handlerB15 = some 7 ∧ x.w.bases.length = 16 ∧ x.E ≠ [] ∧
    ∀ L < x.w.lanes.length, L ∉ x.E → (x.w.lane L).inHandler = false ∨ (x.w.lane L).st = .returned ∨ (x.w.lane L).st = .exited) := meets_dec (by decide +kernel)
/-- Lane 0 is parked by TRAP.user under a handler, and the window is closed. -/
def parked : State :=
  let s := small (fun L l => if L = 0 then { l with st := .trapped, trapinfo := [20, 0, 0, 0, 0, 0] } else { l with st := .held })
  { mapped [(4, 4, 64)] s with
    waves := s.waves.map (fun w => { w with window := some { openedAt := 0, pc := 0, primary := 0, closed := true } }), occ := { n := 3 } }
theorem witness_HandlerEntryAndReturn_entry : parked.activeWave? parked.occ.n = some (theWave parked) ∧
    (theWave parked).window = some { openedAt := 0, pc := 0, primary := 0, closed := true } ∧ parked.deliver (theWave parked) = [0] ∧
    (theWave parked).handlerB15 = none ∧ parked.pending (theWave parked).uid = false ∧ (theWave parked).bases.length = 16 := by decide +kernel
/-- Every lane has the address at 128 bytes into the page; the image there names the registers of the wave. -/
def imaged : State := withMem (holding [(1, 0x10080)]) [(0x80, 2, 128)]
/-- Where the lines of an image go. -/
def imageAt (k : AccKind) (s : State) (x : Iss) : List Nat := match s.laneXls x k (imageVas 1 0 x (x.E.headD 0)) with | .ok ps => ps.map (fun p => p.1) | _ => []
theorem witness_WaveImages_save : Meets imaged (.savew 1 0) (fun s x => x.g.logOrd = none ∧ x.E ≠ [] ∧ s.pending x.uid = false ∧ imageTraps 1 0 x = none ∧
    imageAt .store s x = (List.range 402).map (fun k => 128 + 128 * k) ∧ s.migs = [] ∧ Memory.wf s.mem = true ∧ s.inOrder x .store .wk (x.eachLane (imageWholes .store 1 0 s x)) ∧
    ∀ v ∈ imageVas 1 0 x (x.E.headD 0), s.leafAt x v.1 = 0) := letI := @decOrder; meets_dec (by decide +kernel)
/-- The bytes of the image. -/
def image (s : State) (x : Iss) : List Byte := (imageAt .load s x).flatMap (fun a => memBytes s.mem a 128)
theorem witness_WaveImages_restore : Meets imaged (.restw 1 0) (fun s x => x.g.logOrd = none ∧ x.E ≠ [] ∧ imageTraps 1 0 x = none ∧ imageAt .load s x = (List.range 402).map (fun k => 128 + 128 * k) ∧
    bsNat (image s x) 0 2 = x.w.regs ∧ imageHandles (image s x) x.t.slots = some (List.replicate 32 none) ∧ s.lands = [] ∧ s.accs = [] ∧
    s.inOrder x (.load 0 0) .wk (x.eachLane (imageWholes .load 1 0 s x))) := letI := @decOrder; meets_dec (by decide +kernel)

/-! ## Words, fetch and the checks before an instruction executes -/

theorem witness_DecodeEncode : (Instr.iadd 127 127 127 1 1 3).encoded = true ∧ (Instr.iadd 127 127 127 1 1 3).WellFormed ∧
    decode 0x03FFFFFF = .ok (.iadd 127 127 127 1 1 3) ∧ (0x01FFFFFF : Word).toNat / 2 ^ 25 = 0 ∧ (0xF5FFFFFF : Word).toNat / 2 ^ 25 = 0x7A := ⟨rfl, rfl, rfl, by decide, by decide⟩
/-- The machine just after reset, with this word where its wave stands. -/
def standing (x : Nat) : State := State.reset.withFetchWord 32 x
/-- What StepRunsDecoded asks of the state, but for the word. -/
def Standing (s : State) : Prop :=
  s.agenda.head? = some (.issue 0 3) ∧ s.popped.activeWave? 3 = some bareWave ∧ bareWave.uid = 3 ∧ bareWave.minSet ≠ [] ∧ s.popped.breakLanes bareWave = [] ∧
  s.popped.quadFree bareWave = true ∧ bareWave.minPc < (s.popped.ctx 0).codewords ∧ s.popped.unwalked (s.popped.issOf bareWave) [65536] = [] ∧
  s.popped.laneXl (s.popped.issOf bareWave) 65536 4 .fetch = .ok 0 0x60F
theorem witness_StepRunsDecoded : Standing (standing 0x02102020) ∧ BitVec.ofNat 32 (leNat (memBytes (standing 0x02102020).popped.mem 0 4)) = 0x02102020 := by
  unfold Standing; decide +kernel
theorem witness_StepRunsDecoded_no_instruction : Standing (standing 0x01FFFFFF) ∧ decode 0x01FFFFFF = .error .illegalMajor := ⟨by unfold Standing; decide +kernel, rfl⟩
/-- A wave whose lanes meet this check, with an instruction that does. -/
def Checked (s : State) (i : Instr) (p : State → Wave → Form → Lane → Prop) : Prop :=
  i.encoded = true ∧ s.cur = some 3 ∧ s.wave? 3 = some (theWave s) ∧ (theWave s).minSet ≠ [] ∧ (∀ l ∈ (theWave s).lanes, l.stepping = false ∧ l.stepped = false) ∧
  (theWave s).lanes.length ≤ 32 ∧ steadyB s (theWave s) = true ∧ ∀ L ∈ (theWave s).minSet, let l := (theWave s).lane L
    l.inHandler = false ∧ l.lost = none ∧ p s (theWave s) (formOf i (hintSet l.hints) l.inHandler) l
/-- The hints and the word pass. -/
def passesWord (f : Form) (l : Lane) : Bool :=
  l.hints.all (fun h => f.accepts h.major.toNat) && !f.bad && !hintsBad f (hintSet l.hints) && (f.g != 3 || (hintSet l.hints).prd.isSome)
theorem witness_ChecksInOrder_hint : Checked (hinted [{ major := 0x7C, pay := 0, pc := 0 }]) (.iadd 4 1 2 0 0 0) (fun _ _ f l => l.hints.any (fun h => !f.accepts h.major.toNat) = true) := by
  unfold Checked; decide +kernel
theorem witness_ChecksInOrder_word : Checked (holding []) (.icmpI 4 1 2 6) (fun _ _ f l => l.hints = [] ∧ f.isHint = false ∧ f.bad = true) := by unfold Checked; decide +kernel
theorem witness_ChecksInOrder_guard_without_hint : Checked (holding []) (.iadd 4 1 2 0 0 3) (fun _ _ f l => f.g = 3 ∧ (hintSet l.hints).prd = none) := by unfold Checked; decide +kernel
theorem witness_ChecksInOrder_guard : Checked (holding []) (.iadd 4 1 2 0 0 1) (fun _ _ f l => passesWord f l = true ∧ guardPass f (hintSet l.hints) l = false) := by
  unfold Checked; decide +kernel
/-- A part without the sampling pipe. -/
def poor : State := { holding [] with pkg := { (holding []).pkg with straps := { Straps.m4 with sample := false } } }
theorem witness_ChecksInOrder_unit : Checked poor (.march 4 16 1 0 0 0) (fun s _ f l => passesWord f l = true ∧ guardPass f (hintSet l.hints) l = true ∧ f.unit = some 0 ∧
    s.hasUnit 0 = false) := by unfold Checked; decide +kernel
theorem witness_ChecksInOrder_range : Checked (small (fun _ l => { l with regs := l.regs.take 16 })) (.iadd 16 1 2 0 0 0) (fun _ _ f l => passesWord f l = true ∧
    guardPass f (hintSet l.hints) l = true ∧ f.unit = none ∧ f.dsts = [(16, 1)] ∧ l.regs.length = 16) := by unfold Checked; decide +kernel
theorem witness_ChecksInOrder_handle : Checked slotted (.mread 16 1) (fun _ w f l => passesWord f l = true ∧ guardPass f (hintSet l.hints) l = true ∧ f.unit = none ∧
    f.dsts = [(16, 16)] ∧ f.srcs = [] ∧ f.handles = [1] ∧ w.handles.getD 1 none = none) := by unfold Checked; decide +kernel
/-- v1 is empty, with a producer at 9. -/
def emptyReg : State := small (fun _ l => l.mark 9 1 1)
theorem witness_ChecksInOrder_empty : Checked emptyReg (.iadd 4 1 2 1 0 0) (fun _ _ f l => passesWord f l = true ∧ guardPass f (hintSet l.hints) l = true ∧ f.unit = none ∧
    f.handles = [] ∧ f.srcs.map (fun x => (x.r, x.n, x.trap)) = [(1, 1, true), (2, 1, false)] ∧ f.dsts = [(4, 1)] ∧
    (l.srcRegs.getD 1 {}).full = false ∧ (l.srcRegs.getD 2 {}).full = true ∧ (l.reg 4).full = true) := by unfold Checked; decide +kernel
theorem witness_ChecksInOrder_wait : Checked emptyReg (.iadd 4 1 2 0 0 0) (fun s w f l => passesWord f l = true ∧ guardPass f (hintSet l.hints) l = true ∧
    fate s w (formOf (.iadd 4 1 2 0 0 0)) l = .wait 1 true ∧ (l.srcRegs.getD 1 {}).full = false) := by unfold Checked; decide +kernel

/-! ## States that meet the hypotheses of the statements about the device's own steps -/

/-- A ready die: its near memory, L2, monitors and first cluster, and the host's window; context 0 with its tables. -/
def ready (fs : List (Nat × Nat × Nat)) (o : Occ) : State :=
  let s := mapped fs (holding [])
  { s with pkg := { s.pkg with ready1 := 0x44007, ready0 := 1 }, occ := o }
/-- An engine access that is answered. -/
def okE {α : Type} (e : Eng α) : Bool := match e with | .ok _ => true | _ => false
/-- A record that found space. -/
def okP (p : Put) : Bool := match p with | .ok _ => true | _ => false
def fullP (p : Put) : Bool := match p with | .full _ => true | _ => false

/-- An access of lane 0 to 16 bytes at 0x20000. -/
def acc (op : AccOp) (n : Nat) : Acc := { accOf op 0x20000 n with id := 9, ctx := 0, gid := 1, tid := 2, uid := 3, data := 0x123456789ABCDEF }
def performing (op : AccOp) (n : Nat) : State := { ready [] { n := 9 } with accs := [acc op n] }
theorem witness_AccessesPerform : ∀ a ∈ [acc .store 16, acc (.load 4 0) 16, acc (.load 4 8) 1, acc (.atom 9 0 5 (some 4)) 8, acc (.atom 10 5 5 none) 4],
    (performing a.op a.n).accs.find? (fun b => b.id == (performing a.op a.n).occ.n) = some a ∧ (performing a.op a.n).accFree a = true ∧
    (performing a.op a.n).accLogged a = false ∧ (performing a.op a.n).occ.m = 0 ∧ a.sp = none ∧ a.type ≠ 4 ∧ Memory.wf (performing a.op a.n).mem = true := by decide +kernel
theorem witness_AccessesPerform_atomics : (2 ^ 64 - 1 < 2 ^ (8 * 8)) ∧ (2 ^ 32 - 1 < 2 ^ (8 * 4)) := by decide
/-- An access of lane 0 to the last n bytes of its team's scratchpad. -/
def spAcc (op : AccOp) (n : Nat) : Acc := { acc op n with sp := some 2, addr := 4096 - n }
/-- An access that may perform, in a wave with operand slots. -/
def performs (a : Acc) : Bool :=
  let s : State := { slotted with accs := [a], occ := { n := 9 } }
  s.accs.find? (fun b => b.id == s.occ.n) == some a && s.accFree a && !s.accLogged a && s.occ.m == 0 && !a.mute && Memory.wf s.mem &&
    s.teams.all (fun u => u.tid == 2 && bytesWf u.scratch) && (s.team? 2).isSome &&
    (match s.wave? a.uid with | some w => w.ops.length == 4 && w.ops.all (fun o => bytesWf o.data && bytesWf o.scale) | none => false)
theorem witness_AccessesPerform_scratchpad : [spAcc .store 16, spAcc (.load 4 0) 16, spAcc (.load 4 16) 2, spAcc (.atom 9 0 5 (some 4)) 8, spAcc (.atom 12 5 5 none) 4].all performs = true := by
  decide +kernel
theorem witness_AccessesPerform_pieces : [acc (.mldData 3 2032) 16, acc (.mldScale 3 0) 1, spAcc (.mldData 0 0) 16, acc (.rrel 5) 16].all performs = true := by decide +kernel
/-- Numbers of FP32 that are no numbers, and zeros, one for each clause of .fmin and .fmax. -/
theorem witness_AccessesPerform_fp : ∀ p ∈ [(0x7FC00001, 0xFFFFFFFF), (0x7F800001, 0), (0x80000000, 0xFF800001), (0x80000000, 0), (0xFF800000, 0x7F800000)],
    p.1 < 2 ^ 32 ∧ p.2 < 2 ^ 32 := by decide
/-- A result for registers 126 and 127 of lane 1. -/
def result : Land := { id := 9, uid := 3, lane := 1, d := 126, vals := [1, 2], due := 100, pc := 0 }
def landing : State := { ready [] { n := 9 } with lands := [result] }
theorem witness_AccessesPerform_result : landing.lands.find? (fun y => y.id == landing.occ.n) = some result ∧ result.due ≤ landing.cycle ∧
    landing.wave? result.uid = some (theWave landing) ∧ result.lane < (theWave landing).lanes.length ∧
    result.d + result.vals.length ≤ ((theWave landing).lane result.lane).regs.length := by decide +kernel

/-- An estimator operation on cell 7 of region 3, and cell 0 for a merge. -/
def estAcc (op : AccOp) : Acc := { accOf op 0x30070 16 with id := 9, gid := 1, tid := 2, uid := 3, type := 1, data := 0x30000 }
def estimating (op : AccOp) : State := { region with accs := [estAcc op], occ := { n := 9 } }
/-- Its operation may arrive at the ESU of the cell that it reads next. -/
def arrives (s : State) (a : Acc) : Bool :=
  s.accs.find? (fun b => b.id == s.occ.n) == some a && s.esuReady a && !(s.pointAt 2 a a.esuPa).1 &&
    (match s.esuDesc (s.esuDie a.esuPa) (paSlice a.esuPa) a.ctx 3 with | (.good r, s1) => decide (r.reqq = 0) && Memory.wf s1.mem | _ => false)
theorem witness_EstimatorsPerform : ∀ op ∈ [AccOp.est 3 7 0x40000000 256, .eld 3 7 4, .emrg 3 7 0, .emrg 3 7 7, .eclr 3 7, .eraw 3 7 4, .einit 3 7 0x40000000 0 256],
    arrives (estimating op) (estAcc op) = true ∧ (estAcc op).mate = none := by decide +kernel
/-- EMRG once it has read cell B. -/
def merging : Acc := { estAcc (.emrg 3 7 0) with mate := some 5 }
theorem witness_EstimatorsPerform_merge : arrives { estimating (.emrg 3 7 0) with accs := [merging] } merging = true ∧ (estAcc (.emrg 3 7 0)).esuPa = 0x30000 ∧ merging.esuPa = 0x30070 := by
  decide +kernel
/-- The same for a sweep of one cell: the region is at 4 TiB, where the tables have a leaf of TYPE EST. -/
def sweepAcc : Acc := { estAcc (.esweep 3 7 1 none) with va := 2 ^ 42 + 0x30070 }
def sweeping : State :=
  withMem { (estimating (.esweep 3 7 1 none)) with tlb := [], accs := [sweepAcc] } [(0x110008, 8, 0x61F), (0x1200C0, 9, 2 ^ 42 + 0x30000)]
theorem witness_EstimatorsPerform_sweep : sweeping.accs.find? (fun b => b.id == sweeping.occ.n) = some sweepAcc ∧ sweeping.esuReady sweepAcc = true ∧
    (match sweeping.sweepPa 0 sweepAcc.va.toNat with
     | .ok (pa, s1) => !s1.esuFull (s1.esuDie pa) (paSlice pa) && !(s1.pointAt 2 sweepAcc pa).1 && (match s1.esuDesc (s1.esuDie pa) (paSlice pa) 0 3 with
       | (.good r, s2) => decide (r.reqq = 0) && Memory.wf s2.mem
       | _ => false)
     | _ => false) = true := by decide +kernel

/-! ### Host accesses, links and contexts -/

theorem witness_HostAccesses_registers : (ready [] { n := 0x48, m := 8, x := 5 }).barwin = true ∧ (holding []).barwin = false := by decide +kernel
/-- What a host access through BAR2 meets: the window is at 0. -/
def meets2 (s : State) (a n : Nat) : Bool := s.barwin && decide (a + n ≤ 2 ^ s.host.bar2log) && decide (n ≤ 4096) && s.present a && s.holds a n && s.reachable a &&
  s.memRdy none true a && decide (paKind a < 2)
theorem witness_HostAccesses_bar2 : meets2 (ready [] { n := 0xFFFFFF0, m := 16 }) 0xFFFFFF0 16 = true ∧ meets2 (ready [] { n := 0xFFFF000, m := 4096 }) 0xFFFF000 4096 = true ∧ MemoryOk (ready [] { n := 0xFFFFFF0, m := 16 }) := by
  unfold MemoryOk; decide +kernel
theorem witness_HostAccesses_atomics : ∀ n ∈ [0, 2], ∀ m ∈ [4, 8], meets2 (ready [] { n, m, k := 0xFFFFFF8 }) 0xFFFFFF8 m = true ∧ 0xFFFFFF8 % m = 0 := by decide +kernel
/-- The window at another place: far memory of group 0, or a device register, or a package that is no member. -/
def windowed (base : BitVec 60) : State :=
  let s := ready [] { n := 0, m := 8, k := 0 }
  { s with host := { s.host with bar2win := base } }
theorem witness_HostAccesses_bar2_fails : ((windowed (2 ^ 49)).barwin = true ∧ 2 ≤ paKind (2 ^ 49)) ∧
    ((windowed (2 ^ 50)).barwin = true ∧ paKind (2 ^ 50) < 2 ∧ (windowed (2 ^ 50)).present (2 ^ 50) = false) ∧
    ((windowed (2 ^ 48)).barwin = true ∧ (windowed (2 ^ 48)).present (2 ^ 48) = true ∧ (windowed (2 ^ 48)).holds (2 ^ 48) 8 = true ∧
      (windowed (2 ^ 48)).reachable (2 ^ 48) = true ∧ paKind (2 ^ 48) < 2 ∧ (windowed (2 ^ 48)).memRdy none true (2 ^ 48) = false) := by decide +kernel
theorem witness_HostAccesses_ready : (ready [] { n := 1, m := 21 }).mayReport 1 21 = true ∧ (ready [] { n := 1, m := 21 }).host.tabDue = false ∧
    (ready [] { n := 1, m := 21 }).faults = [] ∧ (ready [] { n := 1, m := 21 }).queues = [] := by decide +kernel

/-- Port 17 carries traffic. -/
def linked (o : Occ) : State :=
  let s := ready [] o
  { s with pkg := { s.pkg with ports := s.pkg.ports.set 17 { lanes := 15, state := .up } } }
theorem witness_LinksAndClocks : (linked { n := 17, m := 4 }).occ.n < (linked { n := 17, m := 4 }).linkPorts ∧ 17 < (linked { n := 17, m := 4 }).pkg.ports.length ∧
    ((linked { n := 17, m := 4 }).port 17).isUp = true ∧ ((linked { n := 17, m := 4 }).port 16).isUp = false ∧ (linked { n := 17, m := 4 }).accs = [] := by decide +kernel
theorem witness_LinksAndClocks_clock : (ready [] { n := 3, m := 1000, x := 3 }).occ.n < (ready [] { n := 3, m := 1000, x := 3 }).dies ∧
    3 < (ready [] { n := 3, m := 1000, x := 3 }).pkg.clks.length ∧ (ready [] { n := 3, m := 1000, x := 3 }).streamPa 3 1 = 0 ∧
    ((ready [] { n := 3, m := 1000, x := 3 }).pkg.clks.getD 3 {}).mhz ≠ 1000 := by decide +kernel
/-- A result is on its way in the die whose clock changes. -/
def clocked : State := { ready [] { n := 0, m := 1350, x := 3 } with lands := [{ result with due := 200 }] }
theorem witness_LinksAndClocks_stretch : clocked.lands[0]? = some { result with due := 200 } ∧ clocked.wave? result.uid = some (theWave clocked) ∧
    (clocked.teamOf (theWave clocked)).die = clocked.occ.n ∧ result.bound = 0 ∧ clocked.cycle < 200 ∧ clocked.occ.n < clocked.dies ∧ clocked.streamPa 0 1 = 0 ∧
    (clocked.pkg.clks.getD 0 {}).mhz ≠ 1350 := by decide +kernel
/-- An energy table at 0x40000 of near memory, and enough cycles. -/
def metered : State :=
  let s := ready [] { n := 0 }
  { s with cycle := 270000, dbg := { s.dbg with blk := record 4096 [(192, 8, 0x40000)] } }
theorem witness_LinksAndClocks_energy : 0 < metered.dies ∧ 0 < metered.dbg.energyAt.length ∧ metered.dbg.energyAt.getD 0 0 + 270000 ≤ metered.cycle ∧
    fieldAt metered.dbg.blk 192 8 = 0x40000 ∧ (List.range 258).all (fun k => metered.devOk (0x40000 + 8 * k) 8) = true ∧ Memory.wf metered.mem = true := by decide +kernel

/-- A descriptor that passes the checks, for context 255, in a table at 0x200000; the context is not enabled. -/
def described (good : Nat) : State :=
  let s := withMem (ready [] { n := 255, m := 255 }) [(0x200000 + 512 * 255, 1, good)]
  { s with host := { s.host with ctxtab := 0x200000 } }
theorem witness_ContextsAndFaults_enable : (described 1).barwin = true ∧ ((described 1).ctx 255).enable = false ∧
    ((described 1).descOf 255).map descGood = some true ∧ (described 1).queues = [] := by decide +kernel
theorem witness_ContextsAndFaults_bad_descriptor : ((described 0).ctx 255).enable = false ∧ ((described 0).descOf 255).map descGood = some false := by decide +kernel
theorem witness_ContextsAndFaults_disable : (ready [] {}).barwin = true ∧ ((ready [] {}).ctx 0).enable = true ∧ ((ready [] {}).ctx 0).descbad = false ∧
    (ready [] {}).queues = [] ∧ (∀ u ∈ (ready [] {}).teams, u.st ≠ .draining) ∧ ((ready [] {}).teams.map Team.tid).Nodup ∧ (ready [] {}).stks = [] := by decide +kernel
/-- A child grid waits on counter 65535. -/
def watching : State :=
  let s := ready [(32, 9, 0x300000), (41, 3, 65536)] { n := 0, m := 65535, x := 65535 }
  { s with grids := { gid := 5, ctx := 0, card := record 512 [(0, 1, 1), (1, 1, 0x10), (46, 2, 65535)], src := .child 1 0, waiting := true } :: s.grids }
theorem witness_ContextsAndFaults_counters : watching.watched 0 65535 = true ∧ watching.poisoned 0 65535 = false ∧ watching.barwin = true := by decide +kernel
/-- Lane 1 is parked on record 1 of context 0. -/
def record1 : FaultRec := { ctx := 0, seq := 1, cause := 1, kind := 0, va := 0x50000, die := 0, pc := 0, who := .lanes 3 2 }
def faulted : State :=
  let s := ready [] { n := 0, m := 1 }
  { s with
    faults := [record1]
    waves := s.waves.map (fun w => { w with lanes := w.lanes.set 1 { w.lane 1 with st := .faulted 1 } }) }
theorem witness_ContextsAndFaults_records : faulted.barwin = true ∧
    faulted.faults.find? (fun f => f.ctx == faulted.occ.n && f.seq.toNat == faulted.occ.m && f.cause != 3) = some record1 ∧
    faulted.wave? 3 = some (theWave faulted) ∧ (∀ l ∈ (theWave faulted).lanes, l.inHandler = false) ∧ (theWave faulted).window = none ∧
    ((theWave faulted).lane 1).st = .faulted 1 := by decide +kernel

/-! ### Queues, packets and completion -/

/-- The header of queue 5: 16 slots at 0x410000, QKIND 1, no completion ring unless given, READIDX 3 and WRITEIDX 4. -/
def hdr (kind ring : Nat) : QueueHdr := record 512 [(0, 8, 4), (8, 8, 3), (16, 9, 0x410000), (25, 1, 4), (26, 1, 3), (27, 1, kind), (32, 9, ring)]
/-- Queue 5 of context 0, whose slot 3 holds this packet. -/
def queued (kind ring : Nat) (p : Pkt) (o : Occ) : State :=
  let s := ready [(32, 9, 0x300000), (41, 3, 16), (91, 9, 0x330000), (100, 2, 4)] o
  { s with
    queues := [(5, { qaddr := 0x4000, enable := true, hdr := hdr kind ring })], grids := [], teams := [], waves := [], fresh := 64
    mem := memPut (memPut s.mem 0x400000 (recordBytes (hdr kind ring))) (0x410000 + 64 * 3) (recordBytes p) }
theorem witness_QueueControl_enable : Tab.risingFrom (queued 1 0 0 { n := 4095, m := 1 }).queues 0 = true ∧ (queued 1 0 0 { n := 4095, m := 1 }).barwin = true ∧
    ((queued 1 0 0 { n := 4095, m := 1 }).queue 4095).enable = false ∧ ((queued 1 0 0 { n := 4095, m := 1 }).ctx 1).enable = false := by decide +kernel
/-- Queue 5 before it is enabled. -/
def disabled (kind : Nat) : State := let s := queued kind 0 0 { n := 5 }; { s with queues := s.queues.map (fun q => (q.1, { q.2 with enable := false })) }
theorem witness_QueueControl_header : ((disabled 1).queue 5).enable = false ∧ ((disabled 1).queue 5).redo = none ∧ ((disabled 1).ctx 0).enable = true ∧ (disabled 1).qmonRdy ((disabled 1).monDie 5) = true ∧
    (match ((disabled 1).updQueue 5 (fun x => { x with enable := true, ctx := 0, stale := true, present := [] })).engRd 0 (((disabled 1).queue 5).qaddr.toNat * 256) 64 with
     | .ok (bs, _) => QueueHdr.good (BitVec.ofNat 512 (leNat bs)) (disabled 1).dies && QueueHdr.qkind (BitVec.ofNat 512 (leNat bs)) == 1
     | _ => false) = true := by decide +kernel
theorem witness_QueueControl_bad_header : (match ((disabled 4).updQueue 5 (fun x => { x with enable := true, ctx := 0, stale := true, present := [] })).engRd 0 0x400000 64 with
     | .ok (bs, _) => !QueueHdr.good (BitVec.ofNat 512 (leNat bs)) (disabled 4).dies
     | _ => false) = true := by decide +kernel
/-- Queue 5, halted with status 3, its context enabled or not. -/
def halted (on : Bool) : State :=
  let s := queued 1 0 0 { n := 5 }
  { s with queues := s.queues.map (fun q => (q.1, { q.2 with status := 3 })), ctxs := s.ctxs.map (fun c => (c.1, { c.2 with enable := on })) }
theorem witness_QueueControl_restart : Tab.risingFrom (halted false).queues 0 = true ∧ ((halted false).queue 5).status ≠ 0 ∧
    ((halted false).ctx ((halted false).queue 5).ctx.toNat).enable = false := by decide +kernel
/-- Queue 5 runs, its context enabled or not. -/
def runs (on : Bool) : State := let s := halted on; { s with queues := s.queues.map (fun q => (q.1, { q.2 with status := 0 })) }
theorem witness_QueueControl_reread : Tab.risingFrom (runs false).queues 0 = true ∧ (runs false).barwin = true ∧ ((runs false).queue 5).status = 0 ∧
    ((runs false).queue 5).enable = true ∧ ((runs false).ctx ((runs false).queue 5).ctx.toNat).enable = false := by decide +kernel
/-- It runs again after RESTART with SKIP, its header read. -/
def again : State := ((halted true).runAgain 5 (some true)).updQueue 5 (fun x => { x with redo := none })
theorem witness_QueueControl_skip : (halted true).barwin = true ∧ ((halted true).queue 5).status ≠ 0 ∧ (halted true).stuckOut 5 = false ∧ again.monWorks 5 = true ∧
    (again.queue 5).stale = false ∧ (again.queue 5).status = 0 ∧ QueueHdr.qkind (again.queue 5).hdr = 1 ∧
    (match again.engRd 0 (again.queue 5).hva 16 with | .ok (bs, _) => bsNat bs 0 8 == 4 && bsNat bs 8 8 == 3 | _ => false) = true ∧
    okE (again.engRd 0 ((again.queue 5).slotVa 3) 64) = true ∧ okE (again.consume 5 3) = true := by decide +kernel
/-- Queue 5 holds a packet that waits. -/
def held (p : Pkt) (o : Occ) : State := let s := queued 1 0 p o; { s with queues := s.queues.map (fun q => (q.1, { q.2 with held := some (p, 3) })) }
theorem witness_QueueControl_monitor : (held 5 { n := 5 }).served 5 = true ∧ ((held 5 { n := 5 }).queue 5).held = some (5, 3) := by decide +kernel
/-- An ESTREQ queue with two records, whose batches are of two. -/
def batching (cycle : Nat) : State :=
  let s := queued 3 0 0 { n := 5 }
  { s with cycle, queues := s.queues.map (fun q => (q.1, { q.2 with template := record 512 [(0, 1, 1), (24, 2, 2)], present := [(3, 90), (4, 90)] })) }
theorem witness_QueueControl_batch : ∀ n ∈ [100, 27090], (batching n).served 5 = true ∧ QueueHdr.qkind ((batching n).queue 5).hdr = 3 ∧ ((batching n).queue 5).batch = none ∧
    fieldAt ((batching n).queue 5).template 24 2 ≤ ((batching n).queue 5).present.length ∧
    (match (batching n).engRd 0 (((batching n).queue 5).hva + 8) 8 with | .ok (bs, _) => leNat bs == 3 | _ => false) = true ∧
    ((batching n).queue 5).present.any (fun y => y.1 == 3) = true := by decide +kernel
theorem witness_QueueControl_batch_timeout : ∃ y ∈ ((batching 27090).queue 5).present, y.2 + 27000 ≤ (batching 27090).cycle := by decide +kernel

/-- Packets of every kind that pass the checks; those of the first list have work or a wait that is met at once. -/
def aJob (n : Nat) : Pkt := record 512 [(0, 1, 1), (2, 2, 3), (17, 1, 4), (18, 2, 1), (20, 4, n), (24, 2, 32), (26, 1, 1), (27, 1, 1), (28, 2, 16)]
def aGrid (n : Nat) : Pkt := record 512 [(0, 1, 2), (2, 2, 3), (18, 2, 1), (20, 2, n), (22, 2, 1), (24, 2, 1), (27, 1, 1), (28, 2, 16)]
def aCopy : Pkt := record 512 [(0, 1, 3), (2, 2, 3), (4, 1, 1), (8, 9, 0x500000), (17, 9, 0x510000), (26, 4, 32), (30, 2, 1), (32, 2, 1)]
def aTraverse : Pkt := record 512 [(0, 1, 4), (2, 2, 3), (8, 9, 0x520000), (28, 2, 32)]
def aWait (n : Nat) : Pkt := record 512 [(0, 1, 5), (2, 2, 3), (4, 2, 15), (8, 8, n)]
def aSignal : Pkt := record 512 [(0, 1, 6), (2, 2, 3), (4, 2, 15), (8, 8, 7)]
def aBind : Pkt := record 512 [(0, 1, 7), (2, 2, 3), (4, 2, 3), (8, 9, 0x530000), (20, 4, 1)]
def aNop : Pkt := record 512 [(0, 1, 8), (2, 2, 3)]
/-- A packet that waits for counter 15 to reach n. -/
def waiting (n : Nat) (p : Pkt) : Pkt := p ||| record 512 [(1, 1, 0x10), (46, 2, 15), (48, 4, n)]
/-- What Packets asks of the packet at the head. -/
def atHead (s : State) (p : Pkt) : Bool :=
  let x := s.queue s.occ.n
  s.served s.occ.n && QueueHdr.qkind x.hdr != 3 && x.held == none && s.head s.occ.n == .packet p 3 && Pkt.seq p == 3 && s.packetOk s.occ.n 3 p && !s.cardGrid s.occ.n 3
def taken (p : Pkt) : State := queued 1 0 p { n := 5 }
/-- The packet is taken: it is at the head, its wait is met, and its slot can be consumed. -/
def takes (p : Pkt) : Bool := let s := taken p; atHead s p && s.waitState 0 p == .met && okE (s.consume 5 3)
theorem witness_Packets : [aJob 40, aGrid 1, aJob 0, aGrid 0, aCopy, aTraverse, aWait 0, aSignal, aBind, aNop].all takes = true := by decide +kernel
theorem witness_Packets_work : cardWork (aJob 40) ≠ 0 ∧ cardWork (aGrid 1) ≠ 0 ∧ cardWork (aJob 0) = 0 ∧ cardWork (aGrid 0) = 0 := by decide +kernel
/-- Counter 15 is poisoned. -/
def poison (s : State) : State := { s with ctxs := s.ctxs.map (fun c => (c.1, { c.2 with poisoned := [15] })) }
/-- The packet waits at the head; with counter 15 poisoned it is consumed. -/
def waits (p : Pkt) : Bool :=
  let s := taken p; let t := poison s
  atHead s p && s.waitState 0 p == .open' && atHead t p && t.waitState 0 p == .poisoned && okE (t.consume 5 3)
theorem witness_Packets_waits : [waiting 1 (aJob 40), waiting 1 (aGrid 1), waiting 1 aCopy, waiting 1 aTraverse, aWait 1, waiting 1 aNop].all waits = true := by
  decide +kernel
theorem witness_Packets_traverse : (taken aTraverse).traverseEngine 5 = some (0, 0) ∧
    (match (taken aTraverse).consume 5 3 with | .ok s1 => s1.grids.all (fun g => g.gid != s1.fresh) | _ => false) = true := by decide +kernel
theorem witness_Packets_bind : (match (taken aBind).engWr 0 (((taken aBind).ctx 0).ttva + 16 * 3) (leBytes 9 0x530000 ++ leBytes 4 1 ++ [0, 0, 0]) with
    | .ok s1 => okE (s1.consume 5 3) | _ => false) = true := by decide +kernel
/-- A packet of queue 5 that runs, alone or after another. -/
def out (id : Nat) (p : Pkt) : OutPkt := { id, q := 5, slot := 2, ctx := 0, pkt := p }
def running (p : Pkt) : State := let s := queued 1 0 aNop { n := 5, m := 9 }; { s with outs := [out 9 p] }
theorem witness_Packets_signal : (running aSignal).out? 9 = some (out 9 aSignal) ∧ ((running aSignal).queue 5).status = 0 ∧
    (match (running aSignal).engXlate 0 (((running aSignal).ctx 0).counterVa 15) 8 true with | .ok (_, s1) => Memory.wf s1.mem | _ => false) = true := by decide +kernel
/-- A SIGNAL at the head behind a packet that runs. -/
def behind : State := let s := taken aSignal; { s with outs := [out 9 aNop] }
theorem witness_Packets_signal_behind : atHead behind aSignal = true ∧ behind.occ.m = 0 ∧
    (match behind.consume 5 3 with | .ok s1 => s1.fresh == behind.fresh && s1.outs == [out 9 aNop] && s1.out? behind.fresh == none | _ => false) = true := by decide +kernel
theorem witness_Packets_copy : (running aCopy).out? 9 = some (out 9 aCopy) ∧ (running aCopy).copyReady 5 = true ∧ (Pkt.rows aCopy).length = 1 ∧ Pkt.srcSp aCopy = false ∧
    Pkt.dstSp aCopy = false ∧ 0 < Pkt.xbytes aCopy ∧ (running aCopy).copyLogged (out 9 aCopy) = false ∧
    (match Pkt.rows aCopy with
     | [(a, b)] => decide (endAddr false a % 65536 + 32 ≤ 65536) && decide (endAddr false b % 65536 + 32 ≤ 65536) && (match (running aCopy).engXlate 0 (endAddr false a) 32 false with
       | .ok (pa, s1) => (match ((s1.movedBytes 0 pa 32).updOut 9 (fun o => { o with buf := memBytes (running aCopy).mem pa 32 })).engXlate 0 (endAddr false b) 32 true with
         | .ok (_, s3) => Memory.wf s3.mem
         | _ => false)
       | _ => false)
     | _ => false) = true := by decide +kernel
theorem witness_Packets_halts : (taken (record 512 [(0, 1, 9), (2, 2, 3)])).head 5 = .packet (record 512 [(0, 1, 9), (2, 2, 3)]) 3 ∧
    (taken (record 512 [(0, 1, 8), (2, 2, 4)])).head 5 = .packet (record 512 [(0, 1, 8), (2, 2, 4)]) 3 ∧ (taken 0).served 5 = true := by decide +kernel
theorem witness_Packets_wait_met : (held (aWait 0) { n := 0, m := 5 }).served 5 = true ∧ ((held (aWait 0) { n := 0, m := 5 }).queue 5).held = some (aWait 0, 3) ∧
    (held (aWait 0) { n := 0, m := 5 }).cardGrid 5 3 = false ∧ (held (aWait 0) { n := 0, m := 5 }).waitState 0 (aWait 0) = .met ∧
    okE ((held (aWait 0) { n := 0, m := 5 }).consume 5 3) = true := by decide +kernel
theorem witness_Packets_child : ({ watching with occ := { n := 1, m := 5 } } : State).grid? 5 = watching.grids.head? ∧ (watching.ctx 0).enable = true ∧
    watching.waitOn 0 65535 (fun v => decide (0 ≤ v)) = .met := by decide +kernel

/-- Queue 5 has a completion ring at 0x420000: 4 slots of 16 bytes at 0x430000, of which n hold records. -/
def completing (p : Pkt) (st : OutSt) (n size : Nat) : State :=
  let s := queued 1 0x420000 aNop { n := 9 }
  { s with outs := [{ out 9 p with st }], mem := memPut s.mem 0x420000 (recordBytes (record 512 [(0, 8, n), (16, 4, 4), (20, 1, size), (24, 9, 0x430000)])) }
/-- What becomes of its record. -/
def putOf (s : State) (p : Pkt) : Put := s.ringPut (some 0) (QueueHdr.cring (s.queue 5).hdr) [16, 32, 64] (fun n => (recordBytes (s.complRec (out 9 p) 0 7)).take n)
theorem witness_CompletionsAndRings : (completing aNop (.done 0 7) 3 16).out? 9 = some { out 9 aNop with st := .done 0 7 } ∧ ((completing aNop (.done 0 7) 3 16).queue 5).batch = none ∧
    (completing aNop (.done 0 7) 3 16).wantsRecord (out 9 aNop) = true ∧ okP (putOf (completing aNop (.done 0 7) 3 16) aNop) = true ∧
    fullP (putOf (completing aNop (.done 0 7) 4 16) aNop) = true ∧ putOf (completing aNop (.done 0 7) 3 8) aNop = .bad ∧
    okP (putOf (completing aNop (.ringWait 0 7) 3 16) aNop) = true := by decide +kernel
theorem witness_CompletionsAndRings_no_record : (completing aCopy (.done 0 7) 3 16).wantsRecord (out 9 aCopy) = false ∧ Pkt.kind aCopy = 3 ∧ Pkt.signal aCopy = false ∧
    Pkt.signal (aCopy ||| record 512 [(1, 1, 0x20), (52, 2, 15)]) = true ∧
    (match (completing aCopy (.done 0 7) 3 16).engXlate 0 (((completing aCopy (.done 0 7) 3 16).ctx 0).counterVa 15) 8 true with
     | .ok (_, s1) => Memory.wf s1.mem | _ => false) = true := by decide +kernel
/-- An event and a fault record that wait, with rings of 64-byte slots. -/
def recording : State :=
  let s := ready [(48, 9, 0x420000), (57, 9, 0x420000)] { n := 1 }
  { s with
    ringWaits := [{ ctx := 0, ring := 0, bytes := 0 }, { ctx := 0, ring := 1, bytes := 0 }]
    mem := memPut s.mem 0x420000 (recordBytes (record 512 [(0, 8, 3), (16, 4, 4), (20, 1, 64), (24, 9, 0x430000)])) }
theorem witness_CompletionsAndRings_waiting : okP (recording.ringPut (some 0) (recording.ctx 0).evring [64] (fun _ => recordBytes (0 : BitVec 512))) = true ∧
    okP (recording.ringPut (some 0) (recording.ctx 0).flring [64] (fun _ => recordBytes (0 : BitVec 512))) = true := by decide +kernel
theorem witness_CompletionsAndRings_slots : recording.devOk 0x420000 64 = true ∧ (ringHdr (memBytes recording.mem 0x420000 64) [64] false).good = true ∧
    recording.devOk 0x4300C0 64 = true ∧ (ringHdr (memBytes recording.mem 0x420000 64) [64] false).widx = 3 ∧ Memory.wf recording.mem = true := by decide +kernel

/-! ### Grids, teams and the Caddy -/

/-- A grid of this card. -/
def gridOf (card : Pkt) : Grid := { gid := 1, ctx := 0, card, src := .packet 5 3, begun := true, rem := fieldAt card 20 4 }
/-- Grid g alone, on the four cores of cluster 0. -/
def dealing (g : Grid) : State := { ready [] { n := 1 } with grids := [g], teams := [], waves := [], fresh := 64 }
/-- The grid may place a team as Deals asks. -/
def plainDeal (s : State) (g : Grid) : Bool :=
  s.grid? s.occ.n == some g && !g.clustered && g.redeal == [] && g.logOrd == none && s.mayPlace g && g.undealt && g.stopAt == none
theorem witness_Deals_job : plainDeal (dealing (gridOf (aJob 40))) (gridOf (aJob 40)) = true ∧ (gridOf (aJob 40)).isJob = true ∧ 0 < (gridOf (aJob 40)).rem ∧
    0 < (dealing (gridOf (aJob 40))).dealP (gridOf (aJob 40)) ∧ 0 < (gridOf (aJob 40)).f 26 1 ∧ 0 < (gridOf (aJob 40)).f 18 2 ∧
    (dealing (gridOf (aJob 40))).leastLoaded ((dealing (gridOf (aJob 40))).roomy (gridOf (aJob 40)) ((gridOf (aJob 40)).need 1) none) = some (0, 0) := by decide +kernel
theorem witness_Deals_grid : plainDeal (dealing (gridOf (aGrid 3))) (gridOf (aGrid 3)) = true ∧ (gridOf (aGrid 3)).isJob = false ∧ (gridOf (aGrid 3)).nextOrd < (gridOf (aGrid 3)).total ∧
    (dealing (gridOf (aGrid 3))).leastLoaded ((dealing (gridOf (aGrid 3))).roomy (gridOf (aGrid 3)) ((gridOf (aGrid 3)).need 1) none) = some (0, 0) := by decide +kernel
/-- The grid of the packet at the head of queue 5, not dispatched. -/
def fresh1 : Grid := { gridOf (aGrid 3) with begun := false }
def first : State := { queued 1 0 (aGrid 3) { n := 1 } with grids := [fresh1] }
theorem witness_Deals_first : plainDeal first fresh1 = true ∧ fresh1.begun = false ∧ fresh1.isJob = false ∧ first.ssLogs fresh1 = false ∧ Pkt.bit6 fresh1.card = false ∧
    fresh1.nextOrd < fresh1.total ∧ first.leastLoaded (first.roomy fresh1 (fresh1.need 1) none) = some (0, 0) ∧ okE ((first.noteBegin fresh1 none).consume 5 3) = true := by
  decide +kernel

/-- A state whose one team may retire, be flushed or be restored. -/
def plainTeam (s : State) (u : Team) : Bool :=
  s.team? s.occ.n == some u && u.cluster == none && s.waves.all (fun w => w.tid != u.tid || w.lanes.all (fun l => l.routine == none)) && (s.ctx u.ctx).enable &&
    s.grids.all (fun g => g.tt == none) && decide (s.teams.map Team.tid).Nodup
/-- The team of the small machine, and what stands besides it. -/
def teamed (u : Team) (st : LaneSt) (g : Grid) : State :=
  let s := ready [] { n := 2 }
  { s with teams := [u], grids := [g], waves := s.waves.map (fun w => { w with lanes := w.lanes.map (fun l => { l with st }) }) }
/-- Team 2 of grid 1. -/
def team2 : Team := { tid := 2, gid := 1, ctx := 0, nwaves := 1, regs := 128, alloc := 4096 }
theorem witness_TeamsEndAndMove_retire : ∀ f ∈ [(false, LaneSt.exited), (true, LaneSt.trapped)], plainTeam (teamed { team2 with faulted := f.1 } f.2 (gridOf (aJob 40))) { team2 with faulted := f.1 } = true ∧
    (∀ w ∈ (teamed { team2 with faulted := f.1 } f.2 (gridOf (aJob 40))).waves, ∀ l ∈ w.lanes, if f.1 then l.st = .exited ∨ l.st = .trapped else l.st = .exited) ∧
    (teamed { team2 with faulted := f.1 } f.2 (gridOf (aJob 40))).accs = [] ∧ (gridOf (aJob 40)).f 36 9 = 0 := by decide +kernel
/-- A grid all of whose teams have been dealt and have retired. -/
def overGrid : Grid := { gridOf (aGrid 3) with nextOrd := 3 }
theorem witness_TeamsEndAndMove_grid : (dealing overGrid).grid? (dealing overGrid).occ.n = some overGrid ∧ (dealing overGrid).gridDone overGrid = true ∧ overGrid.src = .packet 5 3 ∧ overGrid.tt = none := by
  decide +kernel
/-- A grid of priority 3 of context 0 with a team on each of cores 1 to 3, and a team of a grid of context 1 on core 0; each holds a whole scratchpad, and the first grid has been blocked since cycle 0. -/
def blocked : Grid := { gridOf (record 512 [(0, 1, 2), (18, 2, 1), (20, 2, 9), (22, 2, 1), (24, 2, 1), (27, 1, 1), (28, 2, 16), (30, 2, 512)]) with nextOrd := 3, prio := 3, blockedAt := some 0 }
def guest : Team := { team2 with gid := 7, ctx := 1, alloc := 524288 }
def crowded (prio cycle : Nat) : State :=
  let s := ready [] { n := 1 }
  { s with
    cycle, grids := [blocked, { gridOf (aGrid 3) with gid := 7, ctx := 1, prio }]
    teams := guest :: [1, 2, 3].map (fun k => { team2 with tid := 20 + k, core := k, alloc := 524288 }) }
/-- Team 2 is the one to leave for the blocked grid. -/
def onlyGuest (s : State) (p : Team → Bool) : Bool :=
  s.grid? s.occ.n == some blocked && (s.wishes blocked).contains .deal && !s.grants blocked .deal && Wish.since blocked .deal == some 0 && Wish.asked blocked .deal == none &&
    !(s.wishes blocked).any (s.afterLeave.grants blocked) && s.victims p == [guest] && s.team? 2 == some guest && decide (s.teams.map Team.tid).Nodup
theorem witness_TeamsEndAndMove_preempt : onlyGuest (crowded 0 54000) (fun t => (crowded 0 54000).prioOf t != 3) = true := by decide +kernel
theorem witness_TeamsEndAndMove_slice : onlyGuest (crowded 3 5400000) (fun t => t.ctx == 1) = true ∧ (crowded 3 5400000).longest 0 3 = some 1 ∧
    usCycles (crowded 3 5400000).host.sliceUs ≤ (crowded 3 5400000).cycle ∧ ∀ u ∈ (crowded 3 5400000).residents, (crowded 3 5400000).prioOf u ≤ 3 := by decide +kernel
theorem witness_TeamsEndAndMove_flushing : (teamed { team2 with st := .flushing } .run (gridOf (aGrid 3))).stoppedLane { team2 with st := .flushing } = false ∧
    team2.kind = .dealt ∧ (gridOf (aGrid 3)).stopAt = none ∧ (teamed { team2 with st := .flushing } .halted (gridOf (aGrid 3))).stoppedLane { team2 with st := .flushing } = true := by
  decide +kernel
/-- A team of a formed wave of three records of the Caddy. -/
def caddyTeam : Team := { team2 with st := .flushing, kind := .caddy, form := some { id := 50, die := 0, gid := 1, resume := 5, src := .recs [], born := 41, ordinal := 0 } }
theorem witness_TeamsEndAndMove_flushing_caddy : plainTeam (teamed caddyTeam .run (gridOf (aGrid 3))) caddyTeam = true ∧
    (teamed caddyTeam .run (gridOf (aGrid 3))).stoppedLane caddyTeam = false ∧ (teamed caddyTeam .run (gridOf (aGrid 3))).accs = [] := by decide +kernel
theorem witness_TeamsEndAndMove_moves : (∀ st ∈ [TeamSt.saving, TeamSt.flushing, TeamSt.saved], plainTeam (teamed { team2 with st } .run (gridOf (aGrid 3))) { team2 with st } = true) ∧
    (teamed { team2 with st := .saving } .run (gridOf (aGrid 3))).pending 3 = false ∧ (teamed { team2 with st := .flushing } .run (gridOf (aGrid 3))).accs = [] ∧
    (let s := teamed { team2 with st := .saved } .run (gridOf (aGrid 3))
     s.leastLoaded (s.roomy (s.gridOf team2) team2.need (some 0))) = some (0, 0) := by decide +kernel

/-- Record k of grid 1, which resumes at word 5. -/
def caddyRec (k : Nat) (arrived : Bool) : CaddyRec :=
  { id := 30 + k, batch := 9, die := 0, gid := 1, tid := 2, ordinal := 0, recbase := 0, reccount := 0, cmember := 0, resume := 5, key := k, n := 2, regs := [7, 8], preds := 3, trav := false
    results := [1], arrived, arrivedAt := 40 }
/-- n records in the Caddy; grid 1 has dealt all its teams. -/
def caddied (n : Nat) (arrived : Bool) (cycle : Nat) (o : Occ) : State :=
  { ready [] o with cycle, fresh := 100, grids := [overGrid], teams := [], waves := [], caddy := (List.range n).map (fun k => caddyRec k arrived) }
/-- Its grid may form waves. -/
def goodCaddy (s : State) : Bool := s.grid? 1 == some overGrid && s.mayForm 1 && overGrid.logOrd == none
theorem witness_CaddyForms_arrival : (caddied 31 false 100 { n := 9 }).caddy.length < 32 ∧ (∃ r ∈ (caddied 31 false 100 { n := 9 }).caddy, r.batch = 9 ∧ r.arrived = false) ∧
    (∀ r ∈ (caddied 31 false 100 { n := 9 }).caddy, (caddied 31 false 100 { n := 9 }).grid? r.gid = some overGrid ∧ r.id < (caddied 31 false 100 { n := 9 }).fresh) ∧
    ((caddied 31 false 100 { n := 9 }).caddy.map CaddyRec.id).Nodup := by decide +kernel
theorem witness_CaddyForms_full : goodCaddy (caddied 32 true 41 { n := 0, m := 1, k := 5 }) = true ∧ ((caddied 32 true 41 { n := 0, m := 1, k := 5 }).groupOf 0 1 5).length = 32 := by decide +kernel
theorem witness_CaddyForms_timeout : goodCaddy (caddied 1 true 2088 { n := 0, m := 1, k := 5 }) = true ∧
    ∃ r ∈ (caddied 1 true 2088 { n := 0, m := 1, k := 5 }).groupOf 0 1 5, 2048 ≤ (caddied 1 true 2088 { n := 0, m := 1, k := 5 }).since r.die r.arrivedAt := by decide +kernel
theorem witness_CaddyForms_drain : goodCaddy (caddied 3 true 41 { n := 1 }) = true ∧ (caddied 3 true 41 { n := 1 }).drained overGrid = true ∧
    (caddied 3 true 41 { n := 1 }).groupsOf 1 = [(0, 5)] := by decide +kernel
/-- A formed wave of three records. -/
def form3 : CaddyForm := { id := 50, die := 0, gid := 1, resume := 5, src := .recs ((List.range 3).map (fun k => caddyRec k true)), born := 41, ordinal := 0 }
def formed : State := { caddied 0 true 100 { n := 50 } with forms := [form3] }
theorem witness_CaddyForms_place : formed.forms.find? (fun f => f.id == formed.occ.n) = some form3 ∧ formed.grid? 1 = some overGrid ∧ formed.mayPlace overGrid = true ∧
    formed.leastLoaded (formed.roomy overGrid overGrid.waveNeed (some 0)) = some (0, 0) ∧ formed.teams = [] ∧ (caddyRec 0 true).regs.length = (caddyRec 0 true).n ∧
    (caddyRec 0 true).n + (caddyRec 0 true).results.length ≤ overGrid.regs := by decide +kernel

/-! ### Walks -/

/-- The entry of a kind with two children and these routines. -/
def kindEnt (routines : Nat) : BitVec 512 := record 512 [(0, 1, 2), (2, 2, 16), (4, 4, 5), (8, 4, 6), (12, 4, 7), (16, 1, routines), (22, 2, 8)]
/-- The node at reference 0x2000 of the table at 0x500000. -/
def theNode (routines : Nat) : NodeBuf := { nlt := 0x500000, kind := 0, ent := kindEnt routines, bytes := leBytes 8 0x3000 ++ leBytes 8 0x4000 }
/-- n frames, the top one with this mask and the node. -/
def framesOf (n routines : Nat) (mask : BitVec 16) : List Frame :=
  List.replicate (n - 1) { node := 5, mask := 0 } ++ [{ node := 0x2000, mask, buf := some (theNode routines), entered := true }]
/-- The stack with handle 40, whose object is at 0x510000. -/
def walk40 (st : StackSt) (frames : List Frame) : Stack :=
  { handle := 40, die := 0, eng := 0, slot := 0, ctx := 0, gid := 1, va := 0x510000, q := List.replicate 16 0, root := 0x2000, nlt := 0x500000, st, frames }
/-- It, on a ready engine; the table has one kind, and the JOIN word of level 0 is j. -/
def walking (k : Stack) (routines j : Nat) : State :=
  let s := withMem (ready [] { n := 40 }) [(0x500003, 1, 1), (0x502000, 8, 0x3000), (0x502008, 8, 0x4000), (0x510098, 4, j)]
  { s with grids := [overGrid], teams := [], waves := [], stks := [k], fresh := 64, mem := memPut s.mem 0x500040 (recordBytes (kindEnt routines)) }
/-- The stack goes on. -/
def goes (k : Stack) (routines j : Nat) : Bool :=
  let s := walking k routines j
  s.stk? s.occ.n == some k && s.stackGoes k && !k.hdrDue && !s.stackLogged k
/-- What the top frame of a step asks. -/
def stepOn (n routines : Nat) (mask : BitVec 16) (j : Nat) (order : List Nat) : Bool :=
  let k := walk40 .step (framesOf n routines mask)
  goes k routines j && decide (0 < k.depth) && (k.frame (k.depth - 1)).buf == some (theNode routines) && testOrder k.q (theNode routines) (k.frame (k.depth - 1)).mask == order
/-- JOIN of level 0 reads as j. -/
def joinIs (k : Stack) (j : Nat) : Bool := match (walking k 0 j).joinOf k 0 with | .ok x => x == j | _ => false

/-- The object of a stack that is to be taken. -/
def taking (status depth : Nat) (r : StackReq) : State :=
  { withMem (walking (walk40 .step []) 0 0) [(0x510040, 8, 0x2000), (0x510048, 9, 0x500000), (0x510051, 1, status), (0x510052, 1, depth)] with stks := [], stackReqs := [r], occ := { n := 50 } }
def req : StackReq := { id := 50, die := 0, eng := 0, ctx := 0, gid := 1, va := 0x510000, cont := none, pkt := some 9 }
/-- The request is there, and its object reads with this STATUS and DEPTH. -/
def takeable (status depth : Nat) : Bool :=
  let s := taking status depth req
  s.stackReqs.find? (fun r => r.id == s.occ.n) == some req && (s.ctx 0).enable && s.clusterRdy 0 0 &&
    (match s.engRd 0 0x510000 128 with
     | .ok (h, s1) => bsNat h 81 1 == status && bsNat h 82 1 == depth && (match s1.engRd 0 (0x510000 + 128) (32 * depth) with
       | .ok (_, s2) => s2.freeStackSlot 0 0 == some 0 && s2.stks == []
       | _ => false)
     | _ => false)
theorem witness_Walks_take : takeable 0 0 = true ∧ takeable 0 64 = true ∧ (∀ k ∈ (taking 0 64 req).stks, k.handle ≠ stackHandle 0 0 0 0) := by decide +kernel
theorem witness_Walks_take_refused : takeable 1 0 = true ∧ takeable 0 65 = true ∧ req.cont = none ∧ req.pkt = some 9 := by decide +kernel
theorem witness_Walks_root : goes (walk40 .step []) 0 0 = true ∧ (walk40 .step []).depth = 0 := by decide +kernel
theorem witness_Walks_child : stepOn 1 0 3 0 [0, 1] = true ∧ stepOn 63 0 2 0 [1] = true ∧ stepOn 64 0 2 0 [1] = true ∧ stepOn 1 4 3 0 [0, 1] = true ∧
    (theNode 0).present 2 = false ∧ (theNode 4).present 2 = true := by decide +kernel
theorem witness_Walks_pop : stepOn 1 0 0 2 [] = true ∧ joinIs (walk40 .step (framesOf 1 0 0)) 2 = true ∧ stepOn 1 2 0 0 [] = true ∧ joinIs (walk40 .step (framesOf 1 2 0)) 0 = true ∧
    stepOn 1 0 0 0 [] = true ∧ joinIs (walk40 .step (framesOf 1 0 0)) 0 = true ∧ (theNode 2).present 1 = true ∧ (theNode 0).present 1 = false ∧ stepOn 8 0 0 0 [] = true := by
  decide +kernel
theorem witness_Walks_order : (theNode 0).test = 0 := by decide +kernel
/-- The root is being fetched. -/
def fetching : Stack := walk40 (.fetch 0x2000 0 true) []
/-- The node that the fetch reads, or that it is bad. -/
def fetched (routines : Nat) (ref : BitVec 64) : Option NodeBuf :=
  match (walking fetching routines 0).pushWrites fetching with
  | .ok s2 => (match (s2.freshJoin fetching).nodeOf fetching ref 0 with | .ok b _ _ => some b | _ => none)
  | _ => none
def badNode (ref : BitVec 64) : Bool :=
  match (walking fetching 0 0).pushWrites fetching with
  | .ok s2 => (match (s2.freshJoin fetching).nodeOf fetching ref 0 with | .bad => true | _ => false)
  | _ => false
theorem witness_Walks_fetch : goes fetching 0 0 = true ∧ goes fetching 1 0 = true ∧ (fetched 0 0x2000).map (fun b => b.present 0) = some false ∧
    (fetched 1 0x2000).map (fun b => b.present 0) = some true ∧ badNode 0x2001 = true := by decide +kernel
/-- The stack waits at JOIN. -/
def joining (routines : Nat) : Stack := walk40 .join (framesOf 1 routines 0)
theorem witness_Walks_join : goes (joining 0) 0 0 = true ∧ goes (joining 2) 2 0 = true ∧ (joining 0).depth = 1 ∧ joinIs (joining 0) 0 = true ∧ joinIs (joining 2) 0 = true := by
  decide +kernel
/-- Its routine has returned this decision. -/
def decided (kind : Nat) (word : Word) : Stack := walk40 (.decided kind 0 word 0 none none) (framesOf 1 0 3)
theorem witness_Walks_decisions : (∀ x ∈ [(1, (2 : Word)), (2, 4), (0, 1), (0, 0x30000), (0, 5), (0, 7)], goes (decided x.1 x.2) 0 0 = true ∧ x.2.toNat / 2 ^ 10 % 64 = 0 ∧
    x.2.getLsbD 3 = false) := by decide +kernel
/-- n invocations of one routine, born in cycle 40. -/
def invoked (n cycle : Nat) (st : StackSt) : State :=
  { walking (walk40 st (framesOf 1 0 3)) 0 0 with
    cycle, occ := { n := 30 }
    invs := (List.range n).map (fun k => { id := 30 + k, die := 0, eng := 0, gid := 1, addr := 5, nlt := 0x500000, handle := 40 + k, stk := 40 + k, level := 0, kind := 0, ref := 0, v22 := 0, born := 40 }) }
/-- The first invocation is there, and its grid forms waves. -/
def invs1 (s : State) : Bool := (s.invs.find? (fun v => v.id == s.occ.n)).isSome && s.grid? 1 == some overGrid && s.mayForm overGrid.gid && overGrid.logOrd == none
theorem witness_Walks_waves : invs1 (invoked 32 41 .step) = true ∧ (invoked 32 41 .step).invs.length = 32 ∧ invs1 (invoked 1 2088 .step) = true ∧
    invs1 (invoked 1 41 (.routine 0 0)) = true ∧ (invoked 1 41 (.routine 0 0)).advances 0 0 1 = false := by decide +kernel
/-- A walk that has ended, with a packet or with a continuation. -/
def finished (cont pkt : Option Nat) : State :=
  { walking { walk40 (.finishing 1) [] with result := 1, cont, pkt } 0 0 with outs := [out 9 aTraverse], caddy := [{ caddyRec 0 true with held := true }] }
/-- It may finish. -/
def finishes (cont pkt : Option Nat) : Bool :=
  let s := finished cont pkt
  let k := { walk40 (.finishing 1) [] with result := 1, cont, pkt }
  s.stk? s.occ.n == some k && s.stackGoes k && k.result != 7 && k.jlevel == 0xFF && (match s.joinsZero k (List.range k.depth) with | .ok none => true | _ => false) &&
    (match s.writeBack k 3 with | .ok _ => true | _ => false)
theorem witness_Walks_finish : finishes none (some 9) = true ∧ finishes (some 30) none = true ∧
    (finished (some 30) none).caddy.find? (fun r => r.id == 30) = some { caddyRec 0 true with held := true } := by decide +kernel

/-! ### Page walks, shootdowns, tier engines and generations -/

/-- A ready device with its context table at 0x200000 and group 0 ready; the pages from 4 TiB have leaves of their own, the first in far memory and the second in a frame of the pool. -/
def mem0 (frames : Nat) (o : Occ) : State :=
  let s := withMem (ready [] o) [(0x110008, 8, 0x120001), (0x120000, 8, 0x130001), (0x130000, 8, 2 ^ 48 + 0x70F), (0x130008, 8, 0x80070F)]
  { s with pkg := { s.pkg with ready1 := 0x44047 }, host := { s.host with ctxtab := 0x200000, pools := [{ framepa := 0x800000, frames }] } }
/-- A miss for this page. -/
def miss (vpn : Nat) : Miss := { die := 0, ctx := 0, vpn, uids := [3] }
def missing (vpn : Nat) : State := { mem0 0 { n := 0, m := 0, k := vpn } with misses := [miss vpn] }
/-- How its walk ends. -/
def walkEnds (vpn : Nat) (good : Bool) : Bool :=
  let s := missing vpn
  ((s.misses.filter (fun y => y.die == s.occ.n)).take 48).find? (fun y => y.ctx == s.occ.m && y.vpn == s.occ.k) == some (miss vpn) && Memory.wf s.mem &&
    (match (s.walkFrom 0 (vpn * 65536) (s.walkStart 0 0 (vpn * 65536))).1 with | .leaf _ _ _ => good | .bad _ => !good)
theorem witness_MemorySystemMoves_walks : walkEnds (2 ^ 26 + 2) false = true ∧ walkEnds 7 true = true ∧ walkEnds (2 ^ 26 + 1) true = true := by decide +kernel
/-- A shootdown ring at 0x230000 whose slot 5 has these fields. -/
def shooting (fs : List (Nat × Nat × Nat)) : State :=
  let s := withMem (mem0 0 {}) [(0x220040, 8, 6), (0x220048, 8, 5), (0x220050, 8, 0x230000), (0x220058, 1, 4)]
  { s with mem := memPut s.mem (0x230000 + 32 * 5) (recordBytes (record 256 fs)) }
/-- Its operation is the next to be served. -/
def serves (fs : List (Nat × Nat × Nat)) (o : ShootOp) : Bool :=
  (shooting fs).shoot == none && (match (shooting fs).ringLook.shootSlot with | some (5, y) => decide (shootOp y = o) | _ => false)
theorem witness_MemorySystemMoves_shootdowns : serves [(0, 1, 1), (2, 2, 255), (4, 4, 2), (8, 9, 0x10000)] (.pages 255 1 2) = true ∧ serves [(0, 1, 2), (2, 2, 7)] (.context 7) = true ∧
    serves [(0, 1, 3)] .all = true ∧ serves [(0, 1, 1)] .all = true ∧ serves [(0, 1, 1), (2, 2, 256), (4, 4, 2)] .all = true := by decide +kernel
theorem witness_MemorySystemMoves_slot_fields : fieldAt (record 256 [(0, 1, 1), (2, 2, 255), (4, 4, 2)]) 1 1 = 0 ∧ fieldAt (record 256 [(0, 1, 1), (2, 2, 255), (4, 4, 2)]) 2 2 ≤ 255 ∧
    fieldAt (record 256 [(0, 1, 1), (2, 2, 255), (4, 4, 2)]) 17 15 = 0 ∧ 255 < fieldAt (record 256 [(2, 2, 256)]) 2 2 := by decide +kernel
/-- A shootdown that waits for nothing. -/
def shot : State := { shooting [] with shoot := some { idx := 5, accs := [9] } }
theorem witness_MemorySystemMoves_shootdown_over : MemoryOk shot ∧ shot.shoot = some { idx := 5, accs := [9] } ∧ shot.accs = [] ∧ shot.devOk (ringPa shot) 64 = true := by
  unfold MemoryOk; decide +kernel
/-- A request for the first page to come, or for the second to go. -/
def tierReq (fetch : Bool) : TierReq := { id := 70, die := 0, ctx := 0, vpn := if fetch then 2 ^ 26 else 2 ^ 26 + 1, fetch }
/-- The second page, in the pool. -/
def page2 : PoolPage := { die := 0, frame := 0x800000, back := 2 ^ 48 + 0x10000, ctx := 0, vpn := 2 ^ 26 + 1, leafPa := 0x130008, landedAt := 4 }
/-- The engine has this request; the pool has n frames, and these pages. -/
def tiered (fetch : Bool) (n : Nat) (ps : List PoolPage) : State := { mem0 n { n := 0 } with tierq := [tierReq fetch], pages := ps }
/-- It may work on it. -/
def tierGoes (fetch : Bool) (n : Nat) (ps : List PoolPage) : Bool :=
  let s := tiered fetch n ps
  s.tierHead 0 == some (tierReq fetch) && s.tierIdle 0 && s.tierWorks 0 &&
    (match s.movable 0 (65536 * 2 ^ 26) with | some (leaf, epa, d) => decide (paKind leaf.pa ≠ 0) && decide (epa = 0x130000) && d == 0 | none => false)
theorem witness_MemorySystemMoves_fetch_start : tierGoes true 1 [] = true ∧ (tiered true 1 []).freeFrame 0 = some 0x800000 ∧ (tiered true 1 []).moveReady (2 ^ 48) 0x800000 = true := by
  decide +kernel
theorem witness_MemorySystemMoves_fetch_no_frame : tierGoes true 1 [page2] = true ∧ (tiered true 1 [page2]).freeFrame 0 = none ∧ (tiered true 1 [page2]).victim 0 = some page2 ∧
    (tiered true 1 [page2]).moveReady page2.frame page2.back = true ∧ (tiered true 1 [page2]).rd page2.leafPa 8 = 0x80070F ∧
    tierGoes true 0 [] = true ∧ (tiered true 0 []).freeFrame 0 = none ∧ (tiered true 0 []).victim 0 = none := by decide +kernel
theorem witness_MemorySystemMoves_evict_start : tierGoes false 1 [page2] = true ∧ Pte.pa (0x80070F : BitVec 64) = page2.frame ∧ Pte.valid (0x80070F : BitVec 64) = true ∧
    (tiered false 1 [page2]).pages.find? (fun p => p.ctx == 0 && p.vpn == (tierReq false).vpn && p.die == 0) = some page2 := by decide +kernel
/-- A STALL request that waits for space behind another. -/
def stalls : State := { mem0 1 {} with tierq := [{ tierReq true with id := 71, vpn := 5, stall := true, waiting := true }, tierReq true] }
theorem witness_MemorySystemMoves_stall : (stalls.tierq.erase (tierReq true)).find? (fun y => y.die == 0 && y.waiting) =
      some { tierReq true with id := 71, vpn := 5, stall := true, waiting := true } ∧
    ((stalls.tierq.erase (tierReq true)).erase { tierReq true with id := 71, vpn := 5, stall := true, waiting := true }) = [] ∧
    ∀ x ∈ (tiered true 1 []).tierq.erase (tierReq true), x.waiting = false := by decide +kernel
/-- A migration in progress, whose leaf is as it was read or has changed. -/
def mig (fetch kept : Bool) : Migration :=
  if fetch then { id := 9, die := 0, ctx := 0, vpn := 2 ^ 26, leafPa := 0x130000, leaf := if kept then 2 ^ 48 + 0x70F else 5, src := 2 ^ 48, dst := 0x800000, fetch }
  else { id := 9, die := 0, ctx := 0, vpn := 2 ^ 26 + 1, leafPa := 0x130008, leaf := if kept then 0x80070F else 5, src := 0x800000, dst := 2 ^ 48 + 0x10000, fetch }
def migrating (fetch kept : Bool) : State := { tiered fetch 1 [page2] with tierq := [], migs := [mig fetch kept], occ := { n := 9 } }
theorem witness_MemorySystemMoves_land : ∀ fetch ∈ [true, false], ∀ kept ∈ [true, false],
    (migrating fetch kept).migs.find? (fun m => m.id == (migrating fetch kept).occ.n) = some (mig fetch kept) ∧ (mig fetch kept).fetch = fetch ∧
    (migrating fetch kept).leafKept (mig fetch kept) = kept ∧ Memory.wf (migrating fetch kept).mem = true ∧ (mig fetch kept).dst % 65536 = 0 ∧ (mig fetch kept).dst < 2 ^ 60 := by decide +kernel
/-- A generation that is due at two ESUs. -/
def gen : GenPend := { id := 9, ctx := 0, rg := 3, gen := 2, uid := 3, left := [(0, 5), (0, 6)], lane := 0 }
def bumping : State := { mem0 0 { n := 9, m := 0, k := 5 } with gens := [gen] }
theorem witness_MemorySystemMoves_generation : bumping.gens.find? (fun g => g.id == bumping.occ.n) = some gen ∧ (bumping.occ.m, bumping.occ.k) ∈ gen.left ∧
    (∀ x ∈ bumping.gens, x.ctx = gen.ctx → x.rg = gen.rg → x.id < gen.id → (bumping.occ.m, bumping.occ.k) ∉ x.left) ∧
    (bumping.wave? gen.uid).map (fun w => (bumping.gridOf (bumping.teamOf w)).logOrd) = some none := by decide +kernel
/-- An append to an ESTREQ queue that has claimed slot k. -/
def append1 (reread : Bool) (k : Nat) : Append := { id := 9, die := 0, esu := 5, ctx := 0, hdr := 0x400000, bytes := 7, slot := some k, ring := (0x410000, 4), reread }
def appending (reread : Bool) (k : Nat) : State := { queued 3 0 0 { n := 9 } with appends := [append1 reread k] }
/-- Its header is a good one, and the slot is free or not. -/
def appends1 (reread : Bool) (k : Nat) (free : Bool) : Bool :=
  let s := appending reread k
  s.appends.find? (fun a => a.id == s.occ.n) == some (append1 reread k) && (match s.engRd 0 0x400000 32 with
    | .ok (bs, s1) => decide (4 ≤ bsNat bs 25 1) && decide (bsNat bs 25 1 ≤ 20) && bsNat bs 16 9 % 64 == 0 && bsNat bs 27 1 == 3 &&
      (if free then decide ((k + 2 ^ 64 - bsNat bs 8 8) % 2 ^ 64 < 16) && okE (s1.engWr 0 (bsNat bs 16 9 + 16 * (k % 16)) (leBytes 16 7)) else decide (16 ≤ (k + 2 ^ 64 - bsNat bs 8 8) % 2 ^ 64))
    | _ => false)
theorem witness_MemorySystemMoves_append : appends1 false 18 true = true ∧ appends1 false 19 false = true ∧ appends1 true 18 true = true ∧ appends1 true 19 false = true := by decide +kernel

/-! ### Waits that end -/

/-- Lane 0 and lane 1 in these states, at words 5 and 9. -/
def stood (a b : LaneSt) (o : Occ) : State := mapped [] { small (fun L l => { l with st := if L = 0 then a else b, pc := if L = 0 then 5 else 9 }) with occ := o }
/-- The wave issues, and no lane is stepped. -/
def active3 (s : State) : Bool := s.activeWave? 3 == some (theWave s) && (theWave s).lanes.all (fun l => !l.stepping && !l.stepped)
/-- A collection window that opened at cycle 0. -/
def window0 : Window := { openedAt := 0, pc := 5, primary := 0 }
def windowOn (b : LaneSt) (handler cycle : Nat) : State :=
  let s := stood .trapped b { n := 3 }
  { mapped [(4, 4, handler)] s with waves := s.waves.map (fun w => { w with window := some window0, lanes := w.lanes.map (fun l => { l with trapinfo := [20, 0, 0, 0, 0, 0] }) }), cycle }
theorem witness_WaitsEnd_quiescent : ∀ h ∈ [0, 64], active3 (windowOn .held h 100) = true ∧ (theWave (windowOn .held h 100)).window = some window0 ∧ window0.closed = false ∧
    (theWave (windowOn .held h 100)).eligible = [] ∧ (windowOn .held h 100).nobodyWaits (theWave (windowOn .held h 100)) = decide (h = 0) := by decide +kernel
theorem witness_WaitsEnd_timeout : ∀ h ∈ [0, 64], active3 (windowOn .run h 65536) = true ∧ (theWave (windowOn .run h 65536)).eligible ≠ [] ∧
    65536 ≤ (windowOn .run h 65536).since ((windowOn .run h 65536).teamOf (theWave (windowOn .run h 65536))).die window0.openedAt ∧
    (windowOn .run h 65536).nobodyWaits (theWave (windowOn .run h 65536)) = decide (h = 0) := by decide +kernel
/-- Both lanes wait at WSYNC, at two addresses. -/
def atWsync : State := stood (.blocked .wsync) (.blocked .wsync) { n := 3 }
theorem witness_WaitsEnd_wsync : active3 atWsync = true ∧ (theWave atWsync).handling = false ∧ (theWave atWsync).window = none ∧
    (∀ l ∈ (theWave atWsync).lanes, l.st = .blocked .wsync ∧ l.inHandler = false) := by decide +kernel
/-- The handler runs in both lanes, which stand at one address; its own window is open, or closed. -/
def inHandler (a b : LaneSt) (v : Option Window) (cycle : Nat) : State :=
  let s := stood a b { n := 3 }
  { s with waves := s.waves.map (fun w => { w with handlerB15 := some 7, next := v, lanes := w.lanes.map (fun l => { l with inHandler := true, pc := 5 }) }), cycle }
theorem witness_WaitsEnd_wsync_handler : ∀ v ∈ [none, some { window0 with closed := true }], let s := inHandler (.blocked .wsync) (.blocked .wsync) v 100;
    active3 s = true ∧ (theWave s).handling = true ∧ (theWave s).next = v ∧ ∀ l ∈ (theWave s).lanes, l.st = .blocked .wsync ∧ l.inHandler = true ∧ l.pc = 5 := by decide +kernel
theorem witness_WaitsEnd_wsync_drain : (windowOn (.blocked .wsync) 0 100).activeWave? 3 = some (theWave (windowOn (.blocked .wsync) 0 100)) ∧
    (theWave (windowOn (.blocked .wsync) 0 100)).win = some window0 ∧ window0.closed = false := by decide +kernel
theorem witness_WaitsEnd_handler_windows : (let s := inHandler .halted .held (some window0) 100;
      active3 s = true ∧ (theWave s).win = some window0 ∧ (theWave s).eligible = [] ∧ s.nobodyWaits (theWave s) = false) ∧
    (let s := inHandler .trapped .run (some window0) 65536;
      active3 s = true ∧ (theWave s).win = some window0 ∧ (theWave s).eligible ≠ [] ∧ 65536 ≤ s.since (s.teamOf (theWave s)).die 0 ∧ s.nobodyWaits (theWave s) = true) := by decide +kernel
/-- Both lanes have arrived at barrier b; lane 0 waits, and lane 1 has come again. -/
def atBarrier (b : Nat) (k : Bool) : State :=
  { stood (.blocked (.bar b 0 false true)) (.blocked (.bar b 0 true k)) { n := 2, m := b } with teams := [{ bareTeam with bars := (List.replicate 17 {}).set b { arrived := 3 } }] }
theorem witness_WaitsEnd_barrier : ∀ b ∈ [0, 15, 16], ∀ k ∈ [true, false], (atBarrier b k).activeTeam? 2 = (atBarrier b k).teams.head? ∧ active3 (atBarrier b k) = true ∧
    ((atBarrier b k).waves.map Wave.uid).Nodup ∧
    ∀ u ∈ (atBarrier b k).teams, b < u.bars.length ∧ u.cluster = none ∧ (u.bars.getD b {}).arrived ≠ 0 ∧ ∀ w ∈ (atBarrier b k).waves, ∀ L < w.lanes.length, (u.bars.getD b {}).has (32 * w.idx + L) = true := by decide +kernel
/-- Lane 1 waits at granule 255, before lane 0 came to another. -/
def atGranule (wt : Wait) (full : Bool) : State :=
  let s := stood (.blocked (.ldfe 2 16 8 20 false 0)) (.blocked wt) { n := 2, m := 255 }
  { s with teams := [{ bareTeam with empties := if full then [] else [255] }] }
/-- What both kinds of wait ask. -/
def atGranuleOk (wt : Wait) (full : Bool) : Prop :=
  let s := atGranule wt full
  s.activeTeam? 2 = s.teams.head? ∧ s.granuleFull 2 255 = full ∧ active3 s = true ∧ (s.waves.map Wave.uid).Nodup ∧ ((theWave s).lane 1).st = .blocked wt ∧
    (∀ u ∈ s.teams, bytesWf u.scratch = true) ∧ ∀ x ∈ s.blocked, (x.1 = 3 ∧ x.2.1 = 1) ∨ x.2.2.2 = .ldfe 2 16 8 20 false 0
theorem witness_WaitsEnd_ldfe : ∀ clr ∈ [true, false], atGranuleOk (.ldfe 2 4088 8 20 clr 0) true := by unfold atGranuleOk; decide +kernel
theorem witness_WaitsEnd_stfe : atGranuleOk (.stfe 2 4080 16 7 0) false := by unfold atGranuleOk; decide +kernel
/-- Lane 1 waits for this ticket of team 0. -/
def atTicket (k : Nat) : State := { ordered with waves := (stood .run (.blocked (.ordwait k 20)) {}).waves, occ := { n := 3, m := 1 } }
theorem witness_WaitsEnd_ordwait : ∀ x ∈ [(0, some (0 : Word)), (3, some 1), (2, none)], active3 (atTicket x.1) = true ∧ ((theWave (atTicket x.1)).lane 1).st = .blocked (.ordwait x.1 20) ∧
    ticketState ((atTicket x.1).gridOf ((atTicket x.1).teamOf (theWave (atTicket x.1)))) ((atTicket x.1).teamOf (theWave (atTicket x.1))) x.1 = x.2 := by decide +kernel
/-- Lane 1 waits for the ring at 0x510000 to pass this index; its WIDX is 4. -/
def atRing (idx : Nat) : State := { withMem (ready [] { n := 3, m := 1 }) [(0x510000, 8, 4)] with waves := (stood .run (.blocked (.rwait idx 0x510000)) {}).waves }
theorem witness_WaitsEnd_rwait : ∀ idx ∈ [3, 4], active3 (atRing idx) = true ∧ ((theWave (atRing idx)).lane 1).st = .blocked (.rwait idx 0x510000) ∧
    (atRing idx).ringIdx ((atRing idx).teamOf (theWave (atRing idx))).ctx 0x510000 = some (4, 0x510000, 0, false) := by decide +kernel
/-- A list at offset 64 whose lock is due; lane 1 waits for it. -/
def lock64 : ListLock := { off := 64, len := 48, uid := 9, lanes := 1, till := 100 }
def atTopk (b : LaneSt) : State := { stood .run b { n := 2, m := 64 } with teams := [{ bareTeam with scratch := [(64, 4), (69, 1)], locks := [lock64] }] }
/-- The lock is due, and no other is held on the list. -/
def unlocks (s : State) : Prop := ∀ u ∈ s.teams, s.activeTeam? 2 = some u ∧ bytesWf u.scratch = true ∧
  u.locks.find? (fun k => k.off == s.occ.m && decide (k.till ≤ s.cycle)) = some lock64 ∧ ∀ x ∈ u.locks.erase lock64, x.off ≠ 64
theorem witness_WaitsEnd_topk : unlocks (atTopk .run) ∧ (atTopk .run).blocked = [] := by unfold unlocks; decide +kernel
/-- Lane 1 has a candidate to insert; the list is unlocked. -/
def freed : State := ((atTopk .run).updTeam 2 (fun u => { u with locks := u.locks.erase lock64 })).spWr 2 69 [0]
theorem witness_WaitsEnd_topk_waiting :
    (let s := atTopk (.blocked (.topk 2 64 (.ins 64 20 7 8) 0))
     unlocks s ∧ active3 s = true ∧ (s.waves.map Wave.uid).Nodup ∧ s.blocked = [(3, 1, ((theWave s).lane 1).bseq, .topk 2 64 (.ins 64 20 7 8) 0)]) ∧
    (match freed.kRun (fun _ => false) 0 2 3 [(1, .ins 64 20 7 8)] with | .done _ vals _ => vals.length == 1 | _ => false) = true := by unfold unlocks; decide +kernel
/-- Lane 0 has slept, or stalled at a MARK; comparator 7 is at its word for lane 0. -/
def rested : State :=
  let s := stood .run .run { n := 3 }
  { s with
    waves := s.waves.map (fun w => { w with lanes := w.lanes.map (fun l => { l with wake := some 0, begun := true }), stall := [(5, 0x510000)] })
    dbg := { s.dbg with blk := record 4096 [(368, 4, 5), (372, 4, 1), (377, 1, 1), (379, 1, 1)] } }
theorem witness_WaitsEnd_rest : active3 rested = true ∧ 0 ∈ (theWave rested).minSet ∧ ((theWave rested).lane 0).wake = some 0 ∧ ((theWave rested).lane 0).begun = true ∧
    rested.pageSettled 0 0x510000 = true ∧ rested.compHits (rested.teamOf (theWave rested)) (theWave rested) 0 7 = true ∧ rested.compHits (rested.teamOf (theWave rested)) (theWave rested) 1 7 = false := by
  decide +kernel
/-- A lane that stalled at a MARK has been halted. -/
theorem witness_WaitsEnd_rest_halted : ∃ l ∈ (theWave { rested with waves := rested.waves.map (fun w => { w with lanes := w.lanes.map (fun l => { l with st := .halted }) }) }).lanes,
    l.begun = true ∧ l.st ≠ .run := by decide +kernel
/-- The same lanes before they begin an instruction. -/
def fresh0 : State := { rested with waves := rested.waves.map (fun w => { w with lanes := w.lanes.map (fun l => { l with wake := none, begun := false }) }) }
theorem witness_WaitsEnd_break : active3 fresh0 = true ∧ 0 ∈ (theWave fresh0).minSet ∧ ((theWave fresh0).lane 0).noBreak = false ∧ ((theWave fresh0).lane 0).midway = false ∧
    fresh0.compHits (fresh0.teamOf (theWave fresh0)) (theWave fresh0) 0 7 = true := by decide +kernel
/-- The wave issues a word that is no instruction. -/
def illegal (x : Word) : State := { stood .run .run { n := 3 } with ir := x }
theorem witness_WaitsEnd_illegal : [(0x01FFFFFF : Word), 0xF5FFFFFF, 0xF1FFFFFF].all (fun x => decide ((illegal x).cur = some 3 ∧ (illegal x).wave? 3 = some (theWave (illegal x)) ∧
    (theWave (illegal x)).minSet ≠ [] ∧ active3 (illegal x) = true ∧
    (∀ L ∈ (theWave (illegal x)).minSet, ((theWave (illegal x)).lane L).inHandler = false ∧ ((theWave (illegal x)).lane L).lost = none ∧ ((theWave (illegal x)).lane L).hints = []) ∧
    ((illegal x).ir.extractLsb' 25 7).toNat < 0x7B)) = true := by decide +kernel
/-- The code's page is nowhere, or another device's, which is no member. -/
def unfetched (away : Bool) : State :=
  let s := stood .run .run { n := 3 }
  { s with tlb := if away then [{ page 1 0 with pa := 2 ^ 50 }] else [], waves := s.waves.map (fun w => { w with walkFaults := [(1, 2)] }) }
theorem witness_WaitsEnd_fetch : active3 (unfetched false) = true ∧ (theWave (unfetched false)).minSet = [0] ∧ (unfetched false).fetch (theWave (unfetched false)) = .stop 65556 (.fault 2) ∧
    active3 (unfetched true) = true ∧ (unfetched true).fetch (theWave (unfetched true)) = .stop 65556 (.access 0) := by decide +kernel
/-- The matrix unit of core 0 is free again. -/
def matrixed : State := { stood .run .run {} with cores := [(0, { mmaBusy := true, mmaFree := 100 })] }
theorem witness_WaitsEnd_matrix : (matrixed.core 0).mmaBusy = true ∧ (matrixed.core 0).mmaFree ≤ matrixed.cycle := by decide +kernel

/-! ### Debug, sampling and replay -/

/-- The context table at 0x200000 has a debug block beside it, with these fields; the last reading gave others. -/
def debugged (fs kept : List (Nat × Nat × Nat)) (o : Occ) : State :=
  let s := mem0 0 o
  { s with host := { s.host with tabSet := true }, dbg := { s.dbg with blk := record 4096 kept }, mem := memPut s.mem 0x220100 (recordBytes (record 4096 fs)) }
/-- Stream 3 of each die. -/
def streams : List (Nat × Nat × Nat) := (List.range 4).map (fun d => (64 + 32 * d + 24, 8, 0x600000))
/-- A new DGEN with this SSMODE, while the mode is another. -/
def turned (mode was : Nat) (ss : List (Nat × Nat × Nat)) : State :=
  let s := debugged ([(0, 8, 1), (9, 1, mode)] ++ ss) [] {}
  { s with dbg := { s.dbg with ssMode := was } }
/-- The block it reads has this mode, and its streams are on or not. -/
def turns (mode was : Nat) (ss : List (Nat × Nat × Nat)) (ok : Bool) : Bool :=
  let s := turned mode was ss
  Memory.wf s.mem && s.dbg.ssMode == was && s.devOk (s.dbgPa + 10) 1 && (match s.dgenMoved with
    | some b => blkMode b == (if mode ≤ 2 then mode else 0) && (s.hasUnit 3 && (List.range s.dies).all (fun d => fieldAt b (64 + 32 * d + 24) 8 != 0)) == ok
    | none => false)
theorem witness_DebugUnits_modes : turns 1 0 streams true = true ∧ turns 1 0 (streams.take 3) false = true ∧ turns 2 0 streams true = true ∧ turns 2 0 [] false = true ∧
    turns 0 1 [] false = true ∧ turns 3 2 [] false = true ∧ turns 0 0 [] false = true ∧ turns 1 1 streams true = true := by decide +kernel
/-- A point that has held back work since cycle 0. -/
def held256 : SsHeld := { key := 256, since := 0, pt := { kind := 1, unit := 0, id := 0, wave := 0, lane := 0, grid := 0, n := 0 } }
/-- Dies have records on chip, and in replay to match; the ring of stream 3 holds a record of this kind. -/
def logging (st : SsStatus) (kind widx : Nat) (log : List (BitVec 128)) (o : Occ) : State :=
  let s := withMem (debugged [] streams o) [(0x600000, 8, widx), (0x600010, 4, 4), (0x600014, 1, 16), (0x600018, 8, 0x610000), (0x610000, 1, kind)]
  { s with dbg := { s.dbg with ssStatus := st, ssChip := List.replicate 4 [5, 6], ssLog := List.replicate 4 log, ssHeld := [held256], ssGrids := 1 } }
theorem witness_DebugUnits_log_space : (logging .recording 0 3 [] { n := 3 }).occ.n < (logging .recording 0 3 [] { n := 3 }).dies ∧
    3 < (logging .recording 0 3 [] { n := 3 }).dbg.ssChip.length := by decide +kernel
def timing : State := { logging .replaying 0 0 [] { n := 256 } with cycle := 27000000, accs := [{ accOf .store 0x20000 16 with id := 9, gid := 1, tid := 2, uid := 3, log := true }] }
theorem witness_DebugUnits_timeout : held256 ∈ timing.dbg.ssHeld ∧ held256.key = timing.occ.n ∧ held256.since + timing.divCycles ≤ timing.cycle ∧ timing.dbg.ssStatus = .replaying ∧
    timing.stillHeld held256.pt = true := by decide +kernel
/-- A record of kind 1 of a grid that is over. -/
def stale : BitVec 128 := record 128 [(0, 1, 1)]
theorem witness_DebugUnits_stale : (logging .replaying 0 0 [stale] { n := 0 }).dbg.ssLog.getD 0 [] = [stale] ∧ (logging .replaying 0 0 [stale] { n := 0 }).recStale stale = true := by
  decide +kernel
theorem witness_DebugUnits_unknown_kind : ∀ k ∈ [0, 11, 254], (logging .replaying k 1 [] { n := 3 }).ssUnread 3 = true ∧
    (logging .replaying k 1 [] { n := 3 }).streamPa 3 3 = 0x600000 ∧ (logging .replaying k 1 [] { n := 3 }).rd 0x610000 16 % 256 = k := by decide +kernel
/-- A logged store of a logged grid, and the record that it matches, or another. -/
def logAcc : Acc := { acc .store 16 with log := true }
def matching (log : List (BitVec 128)) : State :=
  { logging .replaying 0 0 log { n := 0, m := 9 } with accs := [logAcc], grids := [{ gid := 1, ctx := 0, card := bareCard, src := .packet 0 0, begun := true, logOrd := some 0 }] }
def point : BitVec 128 := ((matching []).pointOf 1 logAcc).2.bytes 0
theorem witness_DebugUnits_match : (matching [stale, point]).ssUnread 0 = false ∧ (matching [stale, point]).accs.find? (fun b => b.id == 9) = some logAcc ∧
    (matching [stale, point]).accFree logAcc = true ∧ (matching [stale, point]).accLogged logAcc = true ∧ (matching [stale, point]).dbg.ssEnd = [] ∧ Memory.wf (matching []).mem = true ∧
    (matching [point, stale]).ssHead 0 1 ((matching []).pointOf 1 logAcc).2.unit = some point ∧ (matching []).ssHead 0 1 ((matching []).pointOf 1 logAcc).2.unit = none := by decide +kernel
/-- Command 5 of a ring at 0x620000 has these fields; the lanes are halted, and the wave's HALTID is 7. -/
def commanded (fs : List (Nat × Nat × Nat)) (st : LaneSt) : State :=
  let s := withMem (debugged [] [(24, 8, 0x620000)] {}) [(0x620000, 8, 6), (0x620008, 8, 5), (0x620010, 8, 0x630000), (0x620018, 1, 4)]
  { s with
    mem := memPut s.mem (0x630000 + 32 * 5) (recordBytes (record 256 fs))
    waves := s.waves.map (fun w => { w with haltId := 7, lanes := w.lanes.map (fun l => { l with st }) }) }
/-- The next command has this OP and context, and is a good one or not. -/
def commands (fs : List (Nat × Nat × Nat)) (op ctx : Nat) (bad : Bool) : Bool :=
  let s := commanded fs .halted
  match s.cmd with | some c => c.idx == 5 && c.op == op && c.ctx == ctx && c.bad == bad && (s.haltWave c).isSome == decide (fieldAt c.bits 4 4 = 7) | none => false
theorem witness_DebugUnits_commands : commands [(0, 1, 1), (2, 2, 255)] 1 255 false = true ∧ commands [(0, 1, 2), (4, 4, 7), (8, 4, 2)] 2 0 false = true ∧ commands [(0, 1, 3), (4, 4, 7)] 3 0 false = true ∧
    commands [(0, 1, 3), (4, 4, 8)] 3 0 false = true ∧ commands [(0, 1, 4)] 4 0 false = true ∧ commands [(0, 1, 5)] 5 0 false = true ∧ commands [(0, 1, 6)] 6 0 true = true ∧
    commands [] 0 0 true = true ∧ commands [(0, 1, 1), (12, 4, 1)] 1 0 true = true ∧ ((commanded [] .halted).waves.map Wave.uid).Nodup := by decide +kernel
theorem witness_DebugUnits_dump : (commanded [(0, 1, 5)] .halted).dbg.dump = none ∧ (∀ w ∈ (commanded [(0, 1, 5)] .halted).waves, ∀ l ∈ w.lanes, l.stopped = true) ∧
    ∃ w ∈ (commanded [(0, 1, 5)] .run).waves, ∃ l ∈ w.lanes, l.stopped = false := by decide +kernel
/-- The lanes as a DUMP has found them. -/
def dumped : State :=
  let s := commanded [(0, 1, 5)] .halted
  { s with waves := s.waves.map (fun w => { w with lanes := w.lanes.map (fun l => { l with dumped := true }) }) }
/-- A store of a lane that a DUMP has found stopped. -/
def heldStore : Acc := { acc .store 16 with posted := true }
theorem witness_DebugUnits_dump_holds :
    dumped.dumpHeld heldStore = true ∧ (∀ w ∈ dumped.waves, w.uid = heldStore.uid) ∧
    heldStore.posted = true ∧ heldStore.lane < 2 := by decide +kernel
/-- A DUMP to 0x700000 is to be written, where so many bytes fit. -/
def dumping (n : Nat) : State :=
  let s := commanded [(0, 1, 5), (16, 8, 0x700000), (24, 8, n)] .halted
  { s with dbg := { s.dbg with dump := some (5, 0, 0x6300A0) }, waves := [], teams := [] }
theorem witness_DebugUnits_dump_write : ∀ n ∈ [63, 64], ((dumping n).cmd.map (fun c => (fieldAt c.bits 16 8, fieldAt c.bits 24 8))) = some (0x700000, n) ∧ (dumping n).accs = [] ∧
    ((dumping n).dumpBytes 0).length = 64 ∧ (dumping n).devOk 0x700000 64 = true ∧ Memory.wf (dumping n).mem = true := by decide +kernel
/-- Lane 1 is being stepped, and lane 0 is not. -/
def stepped : State := small (fun L l => { (Lane.holding [(1, 7), (2, 9)] l) with stepping := L == 1 })
theorem witness_DebugUnits_steps : stepped.cur = some (theWave stepped).uid ∧ stepped.wave? 3 = some (theWave stepped) ∧ (theWave stepped).minSet = [0, 1] ∧
    (∀ l ∈ (theWave stepped).lanes, l.stepped = false) ∧ ((theWave stepped).lane 1).stepping = true ∧ ((theWave stepped).lane 0).stepping = false ∧
    ∀ i ∈ [Instr.nop, .iadd 4 1 2 0 0 0], ∀ L ∈ (theWave stepped).minSet, fate stepped (theWave stepped) (formOf i) ((theWave stepped).lane L) = .run := by decide +kernel
/-- Sampling is on, and die 0 has entered a new period. -/
def entered (ws : List Wave) : State :=
  let s := debugged [] [(12, 1, 10), (14, 2, 0xFFFF)] { n := 0, m := 0 }
  { s with waves := ws, pkg := { s.pkg with clks := s.pkg.clks.set 0 { cycles := 1024 } } }
theorem witness_DebugUnits_samples : (entered [bareWave]).sampleDue 0 0 = true ∧ nextSlot ((entered [bareWave]).core 0).sampleSlot ((entered [bareWave]).sampleable 0 0) = some bareWave ∧
    (entered []).sampleDue 0 0 = true ∧ (entered []).sampleable 0 0 = [] := by decide +kernel

/-! ### Whole-machine statements -/

theorem witness_StepKeepsMemory : MemoryOk State.reset ∧ MemoryOk (standing 0x02102020) := by unfold MemoryOk; decide +kernel

/-! ## Single steps: what the rules give, by hand -/

/-- v4 of lane 1 after i, where it went on at the next word. -/
def answer (rs : List (Nat × Word)) (i : Instr) : Option Word :=
  match exec i (holding rs) with | .next t => if ((theWave t).lane 1).pc = 1 then some (((theWave t).lane 1).v 4) else none | _ => none
/-- Lane 1 of the wave after i, with pc and status. -/
def lane1 (pc : Word) (i : Instr) : Word × LaneSt × Nat :=
  match exec i (small (fun _ l => { l with pc })) with | .next t => (((theWave t).lane 1).pc, ((theWave t).lane 1).st, ((theWave t).lane 1).trapKind) | _ => (0, .held, 0)

/-- A step from reset with the word of IADDI v3, v3, −1 in place (R283, R295). -/
theorem test_step_runs_word : (match step (standing 0x240C1BFF) with | .next t => (theWave t).lanes.all (fun l => l.pc == 1 && l.v 3 == 0xFFFFFFFF) | _ => false) = true := by
  decide +kernel
theorem test_iadd_wraps : answer [(1, 0xFFFFFFFF), (2, 3)] (.iadd 4 1 2 0 0 0) = some 2 := by decide +kernel
theorem test_isub_order : answer [(1, 7), (2, 9)] (.isub 4 1 2 0 0 0) = some 0xFFFFFFFE := by decide +kernel
theorem test_imulhI_sign : answer [(1, 0xFFFFFFFF), (2, 2)] (.imulhI 4 1 2 0 0 0) = some 0xFFFFFFFF := by decide +kernel
theorem test_imulhN_unsigned : answer [(1, 0xFFFFFFFF), (2, 2)] (.imulhN 4 1 2 0 0 0) = some 1 := by decide +kernel
theorem test_shrI_keeps_sign : answer [(1, 0x80000000), (2, 4)] (.shrI 4 1 2 0 0 0) = some 0xF8000000 := by decide +kernel
theorem test_imaxI_signed : answer [(1, 0xFFFFFFFF), (2, 1)] (.imaxI 4 1 2 0 0 0) = some 1 := by decide +kernel
theorem test_imaxN_unsigned : answer [(1, 0xFFFFFFFF), (2, 1)] (.imaxN 4 1 2 0 0 0) = some 0xFFFFFFFF := by decide +kernel
theorem test_fadd_rounds_to_even : answer [(1, 0x4B800000), (2, 0x3F800000)] (.fadd 4 1 2 0 0 0) = some 0x4B800000 := by decide +kernel
theorem test_fmul_sign : answer [(1, 0xC0000000), (2, 0x3F000000)] (.fmul 4 1 2 0 0 0) = some 0xBF800000 := by decide +kernel
theorem test_untouched_register_is_zero : answer [(1, 5)] (.iadd 4 1 127 0 0 0) = some 5 := by decide +kernel
theorem test_bra_backward : lane1 9 (.bra 0x1FFFFFF) = (8, .run, 0) := by decide +kernel
theorem test_exit : (lane1 9 .exit).2.1 = .exited := by decide +kernel
theorem test_trap_parks : lane1 9 (.trapUser 4) = (9, .trapped, 20) := by decide +kernel

end Sys2Proof.Tests
end

/-!
PROOFS. Control transfer (R274, R316): where the executing lanes of BRA, BRP, CALL, JMPI and RET go, and what CALL leaves in v127.
-/

namespace Sys2Proof.Machine

/-! ## Lanes that go to a target -/

@[simp] theorem reg_goto (l : Lane) (t : Word) (k : Nat) : (l.goto t).reg k = l.reg k := rfl
@[simp] theorem reg_noted (l : Lane) (k : Nat) : l.noted.reg k = l.reg k := rfl

/-- Going on at the next word is going to it. -/
theorem adv_eq_goto (l : Lane) : l.adv = l.goto (l.pc + 1) := rfl

theorem jumped_goto (l : Lane) (t : Word) : Jumped l (l.goto t).noted t := ⟨rfl, ⟨rfl, rfl⟩, rfl⟩

/-- A register instruction that sends each lane to the target it computes from that lane. -/
theorem laneIssues_goto {i : Instr} {ff : FormF} (target : Lane → Word)
    (he : ∀ s, exec i s = .next (s.regIssue ff (fun _ _ _ l => .ok (l.goto (target l))))) :
    LaneIssues i ff anyLane (fun _ _ _ l l' => Jumped l l' (target l)) :=
  laneIssues_reg he fun _ _ _ _ _ _ hstep => ⟨_, rfl, hstep, jumped_goto _ _⟩

/-! ## Branches and jumps -/

theorem bra_jumps (o : BitVec 25) :
    LaneIssues (.bra o) (fSYS [] []) anyLane (fun _ _ _ l l' => Jumped l l' (l.pc + o.signExtend 32)) :=
  laneIssues_goto (fun l => l.pc + o.signExtend 32) fun _ => rfl

/-- The predicate XOR N is 1 where the predicate is what N asks for: set for N = 0, clear for N = 1. -/
theorem bne_beq_one_iff (b : Bool) (n : BitVec 1) : (b != (n == 1)) = true ↔ b = (n == 0) := by
  obtain rfl | rfl := BitVec.eq_zero_or_eq_one n
  · cases b <;> decide
  · cases b <;> decide

theorem goto_or_adv (l : Lane) (b : Bool) (n : BitVec 1) (t : Word) :
    (if b != (n == 1) then l.goto t else l.adv) = l.goto (if b = (n == 0) then t else l.pc + 1) := by
  by_cases h : b = (n == 0)
  · rw [if_pos ((bne_beq_one_iff b n).mpr h), if_pos h]
  · rw [if_neg (mt (bne_beq_one_iff b n).mp h), if_neg h, adv_eq_goto]

theorem brp_jumps (p : BitVec 7) (n : BitVec 1) (o : BitVec 17) :
    LaneIssues (.brp p n o) (fSYS [] []) anyLane (fun _ _ _ l l' =>
      Jumped l l' (if l.p p.toNat = (n == 0) then l.pc + o.signExtend 32 else l.pc + 1)) := by
  refine laneIssues_goto (fun l => if l.p p.toNat = (n == 0) then l.pc + o.signExtend 32 else l.pc + 1) fun s => ?_
  show execBrp p n o s = _
  simp only [execBrp, goto_or_adv]

theorem jmpi_jumps (a : BitVec 7) (e : BitVec 1) (g : BitVec 2) :
    LaneIssues (.jmpi a e g) (fun _ _ => { g := g.toNat, srcs := [src a e] }) anyLane (fun _ _ _ l l' => Jumped l l' (l.v a.toNat)) :=
  laneIssues_goto (fun l => l.v a.toNat) fun _ => rfl

theorem ret_jumps (e : BitVec 1) (g : BitVec 2) :
    LaneIssues (.ret e g) (fun _ _ => { g := g.toNat, srcs := [src 127 e] }) anyLane (fun _ _ _ l l' => Jumped l l' (l.v 127)) :=
  laneIssues_goto (fun l => l.v 127) fun _ => rfl

/-! ## CALL -/

/-- A lane that executes CALL has v127 (R316: REGRANGE where REGS is below 128). -/
theorem executing_call_has_v127 {s : State} {w : Wave} {L : Nat} (h : L ∈ executing s w (fSYS [] [(127, 1)])) :
    127 < (w.lane L).regs.length :=
  run_dsts (d := (127, 1)) (mem_executing.mp h).2 List.mem_cons_self one_ne_zero

theorem call_links (o : BitVec 25) :
    LaneIssues (.call o) (fSYS [] [(127, 1)]) anyLane (fun _ _ _ l l' =>
      l'.v 127 = l.pc + 1 ∧ (∀ r, r ≠ 127 → l'.reg r = l.reg r) ∧ l'.pc = l.pc + o.signExtend 32 ∧ l'.hints = [] ∧ l'.less = l.less) := by
  refine laneIssues_reg (fun _ => rfl) fun s w _ L hL _ hstep => ⟨_, rfl, hstep, ?link, ?others, rfl, rfl, rfl⟩
  case link => exact congrArg Reg.val (reg_set_same _ _ (executing_call_has_v127 hL))
  case others =>
    intro r hr
    simp [reg_set_other _ _ hr]

/-! ## The obligation -/

/-- Settles O11: each form is a register instruction that sends its executing lanes to a target computed from the lane, and CALL, whose
lanes have v127 by the checks of R288, first writes the next address there. -/
theorem controlTransfer : Obligations.ControlTransfer :=
  ⟨bra_jumps, brp_jumps, call_links, jmpi_jumps, ret_jumps⟩

end Sys2Proof.Machine

/-!
PROOFS. The integer functions of one word, bit fields, byte permutation, SEL, IMAC and operand C (R284, R294, R296 to R298).
-/

namespace Sys2Proof.Machine

/-! ## Instructions that write one register -/

/-- An executing lane of an instruction with the one destination d has that register (R288). -/
theorem executing_has_dst {s : State} {w : Wave} {ff : FormF} {d : BitVec 7} (hd : ∀ h b, (ff h b).dsts = [(d.toNat, 1)])
    {L : Nat} (hL : L ∈ executing s w ff) : d.toNat < (w.lane L).regs.length :=
  run_dsts (d := (d.toNat, 1)) (mem_executing.mp hL).2 (by simp [hd]) one_ne_zero

/-- A register instruction that computes one word from each lane writes it there, and the lane goes on. -/
theorem laneIssues_done {i : Instr} {ff : FormF} {d : BitVec 7} (val : Iss → Nat → Lane → Word)
    (he : ∀ s, exec i s = .next (s.regIssue ff (fun _ x L l => l.done d (val x L l)))) (hd : ∀ h b, (ff h b).dsts = [(d.toNat, 1)])
    {post : State → Iss → Nat → Lane → Lane → Prop} (hpost : ∀ s x L l l', Wrote l l' d.toNat (val x L l) → post s x L l l') :
    LaneIssues i ff anyLane post :=
  laneIssues_reg he fun _ _ _ _ hL _ hstep => ⟨_, rfl, hstep, hpost _ _ _ _ _ (wrote_done rfl (executing_has_dst hd hL))⟩

/-- A two-register instruction writes a word in relation rel to its operand when its function keeps that relation. -/
theorem rrf_writes {ctor : BitVec 7 → BitVec 7 → BitVec 1 → BitVec 2 → Instr} {op : Word → Word} {rel : Word → Word → Prop}
    (he : ∀ d a e g s, exec (ctor d a e g) s = rrfOp op d a e g s) (hrel : ∀ x, rel x (op x)) (d a : BitVec 7) (e : BitVec 1) (g : BitVec 2) :
    LaneIssues (ctor d a e g) (fRRF d a e g) anyLane (fun _ _ _ l l' => ∃ y, rel (l.v a.toNat) y ∧ Wrote l l' d.toNat y) :=
  laneIssues_done (fun _ _ l => op (l.v a.toNat)) (he d a e g) (fun _ _ => rfl) fun _ _ _ _ _ hw => ⟨_, hrel _, hw⟩

/-! ## Functions of one word (R296) -/

theorem zero_sub_eq_ofNat (x : Word) : 0 - x = BitVec.ofNat 32 (2 ^ 32 - x.toNat) := by
  apply BitVec.eq_of_toNat_eq
  simp

theorem iabsFn_eq_natAbs (x : Word) : iabsFn x = BitVec.ofNat 32 x.toInt.natAbs := by
  have hlt := x.isLt
  unfold iabsFn
  rw [BitVec.toInt_eq_msb_cond]
  split
  · rw [zero_sub_eq_ofNat]
    congr 1
    omega
  · simp

theorem popGo_eq_countP (x : Word) (n : Nat) : popGo x n = (List.range n).countP (fun k => x.getLsbD k) := by
  induction n with
  | zero => rfl
  | succ n ih => rw [popGo, ih, List.range_succ, List.countP_append, List.countP_singleton]

theorem toNat_popc (x : Word) : (popc x).toNat = (List.range 32).countP (fun k => x.getLsbD k) := by
  have hle := List.countP_le_length (p := fun k => x.getLsbD k) (l := List.range 32)
  rw [List.length_range] at hle
  rw [popc, popGo_eq_countP, BitVec.toNat_ofNat, Nat.mod_eq_of_lt (by omega)]

theorem clzGo_eq_log2 (x : Word) (n : Nat) (hx : x.toNat < 2 ^ n) : clzGo x n = if x = 0 then n else n - 1 - Nat.log2 x.toNat := by
  induction n with
  | zero =>
    have h0 : x = 0 := BitVec.eq_of_toNat_eq (by simpa using hx)
    rw [if_pos h0, clzGo]
  | succ n ih =>
    rw [clzGo]
    by_cases hbit : x.getLsbD n = true
    · have hge : 2 ^ n ≤ x.toNat := Nat.ge_two_pow_of_testBit hbit
      have hne : x.toNat ≠ 0 := by have := Nat.two_pow_pos n; omega
      have hlog : Nat.log2 x.toNat = n := (Nat.log2_eq_iff hne).mpr ⟨hge, hx⟩
      rw [if_pos hbit, if_neg (by rintro rfl; exact hne rfl), hlog]
      omega
    · have hlt : x.toNat < 2 ^ n := by
        refine Nat.lt_pow_two_of_testBit _ fun j hj => ?_
        obtain rfl | hj := Nat.eq_or_lt_of_le hj
        · simpa [BitVec.testBit_toNat] using hbit
        · exact Nat.testBit_lt_two_pow (lt_of_lt_of_le hx (Nat.pow_le_pow_right two_pos hj))
      rw [if_neg hbit, ih hlt]
      split
      · rfl
      · rename_i hne
        have hlog : Nat.log2 x.toNat < n := (Nat.log2_lt (fun h => hne (BitVec.eq_of_toNat_eq h))).mpr hlt
        omega

theorem toNat_clz (x : Word) : (clz x).toNat = if x = 0 then 32 else 31 - Nat.log2 x.toNat := by
  rw [clz, clzGo_eq_log2 x 32 x.isLt, BitVec.toNat_ofNat, Nat.mod_eq_of_lt]
  split <;> omega

theorem ctzGo_eq_findIdx (x : Word) (n : Nat) (hn : n ≤ 32) : ctzGo x n = (List.range' (32 - n) n).findIdx (fun k => x.getLsbD k) := by
  induction n with
  | zero => rfl
  | succ n ih =>
    have hstart : 32 - (n + 1) + 1 = 32 - n := by omega
    rw [ctzGo, ih (by omega), List.range'_succ, List.findIdx_cons, hstart, show 31 - n = 32 - (n + 1) by omega]
    cases x.getLsbD (32 - (n + 1)) <;> rfl

theorem toNat_ctz (x : Word) : (ctz x).toNat = (List.range 32).findIdx (fun k => x.getLsbD k) := by
  have hle := List.findIdx_le_length (p := fun k => x.getLsbD k) (xs := List.range 32)
  rw [List.length_range] at hle
  rw [ctz, ctzGo_eq_findIdx x 32 le_rfl, ← List.range_eq_range', BitVec.toNat_ofNat, Nat.mod_eq_of_lt (by omega)]

theorem getLsbD_brev (x : Word) (k : Nat) (hk : k < 32) : (brev x).getLsbD k = x.getLsbD (31 - k) := by
  rw [brev, BitVec.getLsbD_reverse, BitVec.getMsbD, decide_eq_true hk, Bool.true_and]

/-- Byte k of a word made of four bytes. -/
theorem byte_of_append (b : Nat → BitVec 8) (k : Nat) (hk : k < 4) : (b 3 ++ b 2 ++ b 1 ++ b 0).extractLsb' (8 * k) 8 = b k := by
  obtain rfl | rfl | rfl | rfl : k = 0 ∨ k = 1 ∨ k = 2 ∨ k = 3 := by omega
  · exact BitVec.extractLsb'_append_eq_right
  · rw [BitVec.extractLsb'_append_eq_of_le (by norm_num)]
    exact BitVec.extractLsb'_append_eq_right
  · rw [BitVec.extractLsb'_append_eq_of_le (by norm_num), BitVec.extractLsb'_append_eq_of_le (by norm_num)]
    exact BitVec.extractLsb'_append_eq_right
  · rw [BitVec.extractLsb'_append_eq_of_le (by norm_num), BitVec.extractLsb'_append_eq_of_le (by norm_num)]
    exact BitVec.extractLsb'_append_eq_left

theorem bswap_eq_append (x : Word) :
    bswap x = x.extractLsb' (8 * (3 - 3)) 8 ++ x.extractLsb' (8 * (3 - 2)) 8 ++ x.extractLsb' (8 * (3 - 1)) 8 ++ x.extractLsb' (8 * (3 - 0)) 8 := rfl

theorem byte_bswap (x : Word) (k : Nat) (hk : k < 4) : (bswap x).extractLsb' (8 * k) 8 = x.extractLsb' (8 * (3 - k)) 8 := by
  rw [bswap_eq_append]
  exact byte_of_append (fun k => x.extractLsb' (8 * (3 - k)) 8) k hk

theorem toNat_zext8 (x : Word) : (zext8 x).toNat = x.toNat % 2 ^ 8 := by
  rw [zext8, BitVec.zeroExtend, BitVec.toNat_setWidth_of_le (by norm_num), BitVec.extractLsb'_toNat, Nat.shiftRight_zero]
theorem toNat_zext16 (x : Word) : (zext16 x).toNat = x.toNat % 2 ^ 16 := by
  rw [zext16, BitVec.zeroExtend, BitVec.toNat_setWidth_of_le (by norm_num), BitVec.extractLsb'_toNat, Nat.shiftRight_zero]

/-! ## Bit fields (R297) -/

theorem bfPos_eq (b : Word) : bfPos b = b.toNat % 32 := by
  simp [bfPos]
theorem bfLen_eq (b : Word) : bfLen b = min (b.toNat / 256 % 64) 32 := by
  simp [bfLen, Nat.shiftRight_eq_div_pow]
theorem bfPos_lt (b : Word) : bfPos b < 32 := (b.extractLsb' 0 5).isLt

/-- How much of the field lies in a word. -/
def bfWidth (b : Word) : Nat := min (bfLen b) (32 - bfPos b)

/-- The field that BFE takes is that part of the word. -/
theorem bfe_field (a b : Word) : a.toNat / 2 ^ bfPos b % 2 ^ bfLen b = (a.extractLsb' (bfPos b) (bfWidth b)).toNat := by
  have hlt : a.toNat / 2 ^ bfPos b < 2 ^ (32 - bfPos b) := by
    rw [Nat.div_lt_iff_lt_mul (Nat.two_pow_pos _), ← Nat.pow_add, Nat.sub_add_cancel (bfPos_lt b).le]
    exact a.isLt
  rw [BitVec.extractLsb'_toNat, Nat.shiftRight_eq_div_pow, bfWidth]
  obtain hle | hle := Nat.le_total (bfLen b) (32 - bfPos b)
  · rw [Nat.min_eq_left hle]
  · rw [Nat.min_eq_right hle, Nat.mod_eq_of_lt hlt, Nat.mod_eq_of_lt (lt_of_lt_of_le hlt (Nat.pow_le_pow_right two_pos hle))]

/-- A field of w bits sign-extended from its highest bit, as a number. -/
theorem signExtend_eq_ofNat {w : Nat} (f : BitVec w) (hw : w ≤ 32) (h0 : 0 < w) :
    f.signExtend 32 = if f.toNat / 2 ^ (w - 1) % 2 = 1 then BitVec.ofNat 32 (f.toNat + (2 ^ 32 - 2 ^ (w - 1 + 1))) else BitVec.ofNat 32 f.toNat := by
  have hmsb : f.msb = true ↔ f.toNat / 2 ^ (w - 1) % 2 = 1 := by
    rw [BitVec.msb_eq_getLsbD_last, ← BitVec.testBit_toNat, Nat.testBit_eq_decide_div_mod_eq, decide_eq_true_iff]
  apply BitVec.eq_of_toNat_eq
  have hlt : f.toNat < 2 ^ w := f.isLt
  have hpow : 2 ^ w ≤ 2 ^ 32 := Nat.pow_le_pow_right two_pos hw
  have hf : f.toNat < 2 ^ 32 := lt_of_lt_of_le hlt hpow
  rw [BitVec.toNat_signExtend, BitVec.toNat_setWidth, Nat.sub_add_cancel h0, Nat.mod_eq_of_lt hf]
  simp only [hmsb]
  split
  · rw [BitVec.toNat_ofNat, Nat.mod_eq_of_lt (by omega)]
  · rw [BitVec.toNat_ofNat, Nat.mod_eq_of_lt hf, Nat.add_zero]

theorem bfe_eq (a b : Word) :
    bfe a b = if b.getLsbD 15 then (a.extractLsb' (bfPos b) (bfWidth b)).signExtend 32 else (a.extractLsb' (bfPos b) (bfWidth b)).zeroExtend 32 := by
  have hpos := bfPos_lt b
  have hzero : BitVec.ofNat 32 (a.extractLsb' (bfPos b) (bfWidth b)).toNat = (a.extractLsb' (bfPos b) (bfWidth b)).zeroExtend 32 :=
    BitVec.ofNat_toNat ..
  unfold bfe
  simp only [bfe_field, Bool.and_eq_true, decide_eq_true_iff]
  by_cases hs : b.getLsbD 15 = true
  · rw [if_pos hs]
    by_cases hlen : 0 < bfLen b
    · have hw : 0 < bfWidth b := by unfold bfWidth; omega
      have htop : min (bfPos b + bfLen b) 32 - 1 - bfPos b = bfWidth b - 1 := by unfold bfWidth; omega
      rw [if_pos ⟨hs, hlen⟩, htop, signExtend_eq_ofNat _ (by unfold bfWidth; omega) hw]
    · have hw : bfWidth b = 0 := by unfold bfWidth; omega
      rw [if_neg (fun h => hlen h.2), hw]
      generalize a.extractLsb' (bfPos b) 0 = f
      obtain rfl := BitVec.of_length_zero (x := f)
      rfl
  · rw [if_neg (fun h => hs h.1), if_neg hs, hzero]

/-- BFI takes bits of vA for the field's, and keeps the others of vD. -/
theorem getLsbD_bfi (d a b : Word) (k : Nat) (hk : k < 32) :
    (bfi d a b).getLsbD k = if bfPos b ≤ k ∧ k < bfPos b + bfLen b then a.getLsbD (k - bfPos b) else d.getLsbD k := by
  have hmask : (BitVec.ofNat 32 ((2 ^ bfLen b - 1) * 2 ^ bfPos b)).getLsbD k = decide (bfPos b ≤ k ∧ k < bfPos b + bfLen b) := by
    rw [BitVec.getLsbD_ofNat, Nat.testBit_mul_two_pow, Nat.testBit_two_pow_sub_one]
    simp only [hk, decide_true, Bool.true_and, ← Bool.decide_and, decide_eq_decide]
    omega
  simp only [bfi, BitVec.getLsbD_or, BitVec.getLsbD_and, BitVec.getLsbD_not, BitVec.getLsbD_shiftLeft, hmask, hk]
  split
  next h => simp [h, Nat.not_lt.mpr h.1]
  next h => simp [h]

/-! ## Byte permutation (R297) -/

/-- Selector k of a control word. -/
theorem toNat_nibble (b : Word) (k : Nat) : (b.extractLsb' (4 * k) 4).toNat = b.toNat / 16 ^ k % 16 := by
  rw [BitVec.extractLsb'_toNat, Nat.shiftRight_eq_div_pow, Nat.pow_mul]

theorem prmtByte_eq (d a : Word) (n : BitVec 4) :
    prmtByte d a n =
      if n.toNat < 8 then (d ++ a).extractLsb' (8 * (n.toNat % 8)) 8
      else if ((d ++ a).extractLsb' (8 * (n.toNat % 8)) 8).msb then 0xFF else 0 := by
  have hbit : n.getLsbD 3 = true ↔ ¬ n.toNat < 8 := by
    rw [show n.getLsbD 3 = n.msb from (BitVec.msb_eq_getLsbD_last n).symm, BitVec.msb_eq_decide, decide_eq_true_iff, not_lt]
  unfold prmtByte
  simp only [hbit, ite_not, BitVec.msb_eq_getLsbD_last]

theorem byte_prmt (d a b : Word) (k : Nat) (hk : k < 4) : (prmt d a b).extractLsb' (8 * k) 8 = prmtByte d a (b.extractLsb' (4 * k) 4) :=
  byte_of_append (fun k => prmtByte d a (b.extractLsb' (4 * k) 4)) k hk

theorem bfe_writes (d a b : BitVec 7) (e f : BitVec 1) (g : BitVec 2) :
    LaneIssues (.bfe d a b e f g) (fRRR d a b e f g) anyLane (fun _ _ _ l l' =>
      let c := l.v b.toNat
      let field := (l.v a.toNat).extractLsb' (c.toNat % 32) (min (min (c.toNat / 256 % 64) 32) (32 - c.toNat % 32))
      Wrote l l' d.toNat (if c.getLsbD 15 then field.signExtend 32 else field.zeroExtend 32)) :=
  laneIssues_done (fun _ _ l => bfe (l.v a.toNat) (l.v b.toNat)) (fun _ => rfl) (fun _ _ => rfl) fun _ _ _ _ _ hw => by
    rw [bfe_eq, bfWidth, bfLen_eq, bfPos_eq] at hw
    exact hw

theorem bfi_writes (d a b : BitVec 7) (e f : BitVec 1) (g : BitVec 2) :
    LaneIssues (.bfi d a b e f g) (fRRRd d a b e f g) anyLane (fun _ _ _ l l' =>
      let pos := (l.v b.toNat).toNat % 32
      let len := min ((l.v b.toNat).toNat / 256 % 64) 32
      ∃ y : Word, Wrote l l' d.toNat y ∧ ∀ k, k < 32 →
        y.getLsbD k = if pos ≤ k ∧ k < pos + len then (l.v a.toNat).getLsbD (k - pos) else (l.v d.toNat).getLsbD k) :=
  laneIssues_done (fun _ _ l => bfi (l.v d.toNat) (l.v a.toNat) (l.v b.toNat)) (fun _ => rfl) (fun _ _ => rfl) fun _ _ _ _ _ hw =>
    ⟨_, hw, fun k hk => by rw [getLsbD_bfi _ _ _ k hk, bfPos_eq, bfLen_eq]⟩

theorem prmt_writes (d a b : BitVec 7) (e f : BitVec 1) (g : BitVec 2) :
    LaneIssues (.prmt d a b e f g) (fRRRd d a b e f g) anyLane (fun _ _ _ l l' =>
      ∃ y : Word, Wrote l l' d.toNat y ∧ ∀ k, k < 4 →
        let n := (l.v b.toNat).toNat / 16 ^ k % 16
        let p := (l.v d.toNat ++ l.v a.toNat).extractLsb' (8 * (n % 8)) 8
        y.extractLsb' (8 * k) 8 = if n < 8 then p else if p.msb then 0xFF else 0) :=
  laneIssues_done (fun _ _ l => prmt (l.v d.toNat) (l.v a.toNat) (l.v b.toNat)) (fun _ => rfl) (fun _ _ => rfl) fun _ _ _ _ _ hw =>
    ⟨_, hw, fun k hk => by rw [byte_prmt _ _ _ k hk, prmtByte_eq, toNat_nibble]⟩

/-! ## SEL (R269, R298) -/

theorem predHolds_eq (l : Lane) (p : BitVec 25) : predHolds l p = (l.p (p.toNat / 2 ^ 18) != p.getLsbD 17) := by
  have hlt : p.toNat / 2 ^ 18 < 2 ^ 7 := by have := p.isLt; omega
  rw [predHolds, BitVec.extractLsb'_toNat, Nat.shiftRight_eq_div_pow, Nat.mod_eq_of_lt hlt]

theorem selHolds_eq (g : BitVec 2) (h : HintSet) (l : Lane) :
    selHolds g h l = match g.toNat with
      | 3 => (match h.prd with | some p => l.p (p.toNat / 2 ^ 18) != p.getLsbD 17 | none => true)
      | n => l.p (n + 1) := by
  have hlt := g.isLt
  unfold selHolds
  generalize g.toNat = n at hlt
  obtain rfl | rfl | rfl | rfl : n = 0 ∨ n = 1 ∨ n = 2 ∨ n = 3 := by omega
  case inr.inr.inr =>
    cases h.prd with
    | none => rfl
    | some p => exact predHolds_eq l p
  all_goals rfl

theorem sel_writes (d a b : BitVec 7) (e f : BitVec 1) (g : BitVec 2) :
    LaneIssues (.sel d a b e f g)
      (fun _ _ => { g := g.toNat, unguarded := true, srcs := [src a e, src b f], dsts := [(d.toNat, 1)] }) anyLane (fun _ x L l l' =>
      let pick : Bool := match g.toNat with
        | 3 => (match (x.h L).prd with | some p => l.p (p.toNat / 2 ^ 18) != p.getLsbD 17 | none => true)
        | n => l.p (n + 1)
      Wrote l l' d.toNat (if pick then l.v a.toNat else l.v b.toNat)) :=
  laneIssues_done (fun x L l => if selHolds g (x.h L) l then l.v a.toNat else l.v b.toNat) (fun _ => rfl) (fun _ _ => rfl)
    fun _ x L l _ hw => selHolds_eq g (x.h L) l ▸ hw

theorem sel_major (d a b : BitVec 7) (e f : BitVec 1) (g : BitVec 2) : (encode (.sel d a b e f g)).extractLsb' 25 7 = 0x1F := by
  apply BitVec.eq_of_toNat_eq
  have := d.isLt
  have := a.isLt
  have := b.isLt
  have := e.isLt
  have := f.isLt
  have := g.isLt
  have henc : encode (.sel d a b e f g) = BitVec.ofNat 32
    (0x3e000000 + d.toNat * 0x40000 + a.toNat * 0x800 + b.toNat * 0x10 + e.toNat * 0x8 + f.toNat * 0x4 + g.toNat) := rfl
  rw [henc, BitVec.extractLsb'_toNat, BitVec.toNat_ofNat, Nat.shiftRight_eq_div_pow]
  show _ = 31
  omega

/-! ## Operand C (R284) and IMAC (R294) -/

theorem xsKind_eq (p : BitVec 25) : xsKind p = p.toNat / 2 ^ 23 := by
  have hlt : p.toNat / 2 ^ 23 < 2 ^ 2 := by have := p.isLt; omega
  rw [xsKind, BitVec.extractLsb'_toNat, Nat.shiftRight_eq_div_pow, Nat.mod_eq_of_lt hlt]
theorem xsVal_eq (p : BitVec 25) : xsVal p = p.toNat % 2 ^ 20 := by
  rw [xsVal, BitVec.extractLsb'_toNat, Nat.shiftRight_zero]

section
variable {fp : Bool} {s : State} {x : Iss} {L : Nat} {l : Lane} {d : BitVec 7} {p : BitVec 25}

theorem cVal_no_hint (h : (x.h L).xsrc = none) : cVal fp s x L l d = (l.v d.toNat, l) := by
  rw [cVal, h]

theorem cVal_register (h : (x.h L).xsrc = some p) (hk : p.toNat / 2 ^ 23 = 0) (hv : p.toNat % 2 ^ 20 < 128) :
    cVal fp s x L l d = (l.v (p.toNat % 2 ^ 20), l) := by
  simp only [cVal, h, xsKind_eq, hk, xsVal_eq, Nat.mod_eq_of_lt hv]

theorem cVal_special (h : (x.h L).xsrc = some p) (hk : p.toNat / 2 ^ 23 = 1) : cVal fp s x L l d = srd s x L l (p.toNat % 2 ^ 20) := by
  simp only [cVal, h, xsKind_eq, hk, xsVal_eq]

/-- A constant above 12 zero bits. -/
theorem append_zeros_eq_ofNat (c : BitVec 20) : c ++ (0 : BitVec 12) = BitVec.ofNat 32 (c.toNat * 2 ^ 12) := by
  have := c.isLt
  apply BitVec.eq_of_toNat_eq
  rw [BitVec.toNat_append, BitVec.toNat_ofNat, Nat.mod_eq_of_lt (by omega), Nat.shiftLeft_eq]
  exact Nat.or_zero _

theorem cVal_constant (h : (x.h L).xsrc = some p) (hk : p.toNat / 2 ^ 23 = 2) :
    cVal fp s x L l d =
      (if fp then BitVec.ofNat 32 (p.toNat % 2 ^ 20 * 2 ^ 12) else (BitVec.ofNat 20 p.toNat).signExtend 32, l) := by
  have hc : p.extractLsb' 0 20 = BitVec.ofNat 20 p.toNat := BitVec.eq_of_toNat_eq (by simp)
  simp only [cVal, h, xsKind_eq, hk, append_zeros_eq_ofNat, hc, BitVec.toNat_ofNat]

/-- Reading a special register changes no more of a lane than the high words that CLOCK and TIME latch (R217). -/
theorem srd_lane (s : State) (x : Iss) (L : Nat) (l : Lane) (n : Nat) :
    ∃ c t, (srd s x L l n).2 = { l with clockHi := c, timeHi := t } := by
  unfold srd
  split <;> exact ⟨_, _, rfl⟩

/-- Operand C changes no more of a lane than reading a special register does. -/
theorem cVal_lane (fp : Bool) (s : State) (x : Iss) (L : Nat) (l : Lane) (d : BitVec 7) :
    ∃ c t, (cVal fp s x L l d).2 = { l with clockHi := c, timeHi := t } := by
  unfold cVal
  split
  · exact ⟨_, _, rfl⟩
  · split
    · exact ⟨_, _, rfl⟩
    · exact srd_lane ..
    · exact ⟨_, _, rfl⟩

theorem cVal_keeps : (cVal fp s x L l d).2.regs = l.regs ∧ (cVal fp s x L l d).2.pc = l.pc ∧ (cVal fp s x L l d).2.stepping = l.stepping := by
  obtain ⟨c, t, h⟩ := cVal_lane fp s x L l d
  rw [h]
  exact ⟨rfl, rfl, rfl⟩

end

/-- Operand C is the same once the lanes whose guard fails have advanced. -/
theorem cVal_skipped (fp : Bool) (s : State) (w : Wave) (ff : FormF) (x : Iss) (L : Nat) (l : Lane) (d : BitVec 7) :
    cVal fp (s.skipped w ff) x L l d = cVal fp s x L l d := rfl

theorem reg_congr {l m : Lane} (h : m.regs = l.regs) (n : Nat) : m.reg n = l.reg n := by
  rw [Lane.reg, h, Lane.reg]
theorem v_congr {l m : Lane} (h : m.regs = l.regs) (n : Nat) : m.v n = l.v n := congrArg Reg.val (reg_congr h n)

/-- Writing one register and going on, after a change that keeps the lane's registers and place. -/
theorem wroteOver_done {l m : Lane} {d : Nat} {y : Word} (hregs : m.regs = l.regs) (hpc : m.pc = l.pc) (hd : d < l.regs.length) :
    WroteOver l m (m.set d y).adv.noted d y := by
  obtain ⟨value, others, ⟨hnext, hhints⟩, rest⟩ := wrote_done (l := m) (rfl : y = y) (hregs ▸ hd)
  exact ⟨value, fun r hr => (others r hr).trans (reg_congr hregs r), ⟨hpc ▸ hnext, hhints⟩, rest⟩

theorem mul_add_eq_ofNat (a b c : Word) : a * b + c = BitVec.ofNat 32 (a.toNat * b.toNat + c.toNat) := by
  rw [BitVec.ofNat_add, BitVec.ofNat_mul, BitVec.ofNat_toNat, BitVec.ofNat_toNat, BitVec.ofNat_toNat]
  simp only [BitVec.setWidth_eq]

theorem imac_writes (d a b : BitVec 7) (e f : BitVec 1) (g : BitVec 2) :
    LaneIssues (.imac d a b e f g) (fRRRc false d a b e f g) anyLane (fun s x L l l' =>
      let c := cVal false s x L l d
      WroteOver l c.2 l' d.toNat (BitVec.ofNat 32 ((l.v a.toNat).toNat * (l.v b.toNat).toNat + c.1.toNat))) := by
  refine laneIssues_reg (f := fun s x L l => let c := cVal false s x L l d; c.2.done d (c.2.v a.toNat * c.2.v b.toNat + c.1))
    (fun _ => rfl) fun s w _ L hL _ hstep => ?_
  obtain ⟨hregs, hpc, hstepping⟩ := cVal_keeps (fp := false) (s := s) (x := issueOf s w (fRRRc false d a b e f g)) (L := L) (l := w.lane L) (d := d)
  refine ⟨_, rfl, hstepping.trans hstep, ?_⟩
  rw [cVal_skipped, v_congr hregs, v_congr hregs, mul_add_eq_ofNat]
  exact wroteOver_done hregs hpc (executing_has_dst (fun _ _ => rfl) hL)

/-! ## The obligation -/

/-- Settles O2: each instruction is a register instruction that writes one word, whose function is the one that R294, R296, R297 or R298
states; and operand C by the cases of its hint. -/
theorem integerFields : Obligations.IntegerFields := by
  refine ⟨⟨?words, bfe_writes, bfi_writes, prmt_writes, sel_writes, sel_major, rfl, imac_writes⟩, ?operandC⟩
  case words =>
    intro is
    have writes {ctor rel} (op : Word → Word) (he : ∀ d a e g s, exec (ctor d a e g) s = rrfOp op d a e g s) (hrel : ∀ x, rel x (op x)) :
        is ctor rel := rrf_writes he hrel
    clear_value is
    exact ⟨writes id (fun _ _ _ _ _ => rfl) fun _ => rfl,
      writes (fun x => 0 - x) (fun _ _ _ _ _ => rfl) zero_sub_eq_ofNat,
      writes iabsFn (fun _ _ _ _ _ => rfl) iabsFn_eq_natAbs,
      writes (fun x => ~~~x) (fun _ _ _ _ _ => rfl) fun x k hk => by simp [hk],
      writes popc (fun _ _ _ _ _ => rfl) toNat_popc,
      writes clz (fun _ _ _ _ _ => rfl) toNat_clz,
      writes ctz (fun _ _ _ _ _ => rfl) toNat_ctz,
      writes brev (fun _ _ _ _ _ => rfl) getLsbD_brev,
      writes bswap (fun _ _ _ _ _ => rfl) byte_bswap,
      writes sext8 (fun _ _ _ _ _ => rfl) fun _ => rfl,
      writes sext16 (fun _ _ _ _ _ => rfl) fun _ => rfl,
      writes zext8 (fun _ _ _ _ _ => rfl) toNat_zext8,
      writes zext16 (fun _ _ _ _ _ => rfl) toNat_zext16⟩
  case operandC =>
    intro fp s x L l d
    refine ⟨cVal_no_hint, fun p h => ⟨cVal_register h, cVal_special h, fun hk => ?_⟩⟩
    rw [cVal_constant h hk]
    exact ⟨rfl, rfl⟩

end Sys2Proof.Machine

/-!
PROOFS. O42: the decoder and the encoder agree (R266 to R289).
-/

namespace Sys2Proof.Machine

/-- The bits of a word from bit lo upward, as a number. -/
def bitsFrom (w : BitVec 32) (lo : Nat) : Nat := w.toNat / 2 ^ lo

theorem bitsFrom_zero (w : BitVec 32) : bitsFrom w 0 = w.toNat := Nat.div_one _

theorem toNat_fld (w : BitVec 32) (lo n : Nat) : (fld w lo n).toNat = w.toNat / 2 ^ lo % 2 ^ n := BitVec.toNat_ofNat ..

theorem bitsFrom_major_lt (w : BitVec 32) : bitsFrom w 25 < 2 ^ 7 := by
  have := w.isLt
  unfold bitsFrom
  omega

theorem toNat_fld_major (w : BitVec 32) : (fld w 25 7).toNat = bitsFrom w 25 := by
  rw [toNat_fld]
  exact Nat.mod_eq_of_lt (bitsFrom_major_lt w)

/-- A field and what lies above it. -/
theorem bitsFrom_cut (w : BitVec 32) (lo n : Nat) : bitsFrom w lo = (fld w lo n).toNat + 2 ^ n * bitsFrom w (lo + n) := by
  rw [toNat_fld, bitsFrom, bitsFrom, Nat.pow_add, ← Nat.div_div_eq_div_mul, Nat.mod_add_div]

theorem toNat_fld_cast (w : BitVec 32) (lo n : Nat) : ((fld w lo n).toNat : Int) = bitsFrom w lo - 2 ^ n * bitsFrom w (lo + n) := by
  have := bitsFrom_cut w lo n
  push_cast [this]
  ring

theorem toNat_fld_eq_iff {w : BitVec 32} {lo n k : Nat} : (fld w lo n).toNat = k ↔ bitsFrom w lo = k + 2 ^ n * bitsFrom w (lo + n) := by
  rw [bitsFrom_cut w lo n, Nat.add_right_cancel_iff]

theorem fld_eq_iff {w : BitVec 32} {lo n : Nat} {v : BitVec n} : fld w lo n = v ↔ bitsFrom w lo = v.toNat + 2 ^ n * bitsFrom w (lo + n) := by
  rw [← toNat_fld_eq_iff, BitVec.toNat_inj]

/-- What a decoder answers for a word, if an instruction, has that word. -/
def Reads (w : BitVec 32) (r : Except DecodeError Instr) : Prop := ∀ i, r = .ok i → i.encoded = true ∧ encode i = w

theorem reads_error (w : BitVec 32) (e : DecodeError) : Reads w (.error e) := fun _ h => nomatch h

theorem reads_ok {w : BitVec 32} {i : Instr} {n : Nat} (henc : i.encoded = true) (hn : encode i = BitVec.ofNat 32 n) (h : (n : Int) = bitsFrom w 0) : Reads w (.ok i) := by
  rintro _ ⟨⟩
  exact ⟨henc, by rw [hn, Int.ofNat_inj.mp h, bitsFrom_zero, BitVec.ofNat_toNat, BitVec.setWidth_eq]⟩

theorem reads_group {n : Nat} {w : BitVec 32} (hn : bitsFrom w 25 = n) :
    (n = 0x1b → Reads w (dec1B w)) ∧ (n = 0x26 → Reads w (dec26 w)) ∧ (n = 0x30 → Reads w (dec30 w)) ∧ (n = 0x31 → Reads w (dec31 w)) ∧
    (n = 0x3b → Reads w (dec3B w)) ∧ (n = 0x3c → Reads w (dec3C w)) ∧ (n = 0x48 → Reads w (dec48 w)) ∧ (n = 0x49 → Reads w (dec49 w)) ∧
    (n = 0x56 → Reads w (dec56 w)) ∧ (n = 0x5a → Reads w (dec5A w)) ∧ (n = 0x5f → Reads w (dec5F w)) ∧ (n = 0x60 → Reads w (dec60 w)) ∧
    (n = 0x63 → Reads w (dec63 w)) ∧ (n = 0x65 → Reads w (dec65 w)) ∧ (n = 0x6c → Reads w (dec6C w)) ∧ (n = 0x6d → Reads w (dec6D w)) ∧
    (n = 0x70 → Reads w (dec70 w)) ∧ (n = 0x73 → Reads w (dec73 w)) ∧ (n = 0x75 → Reads w (dec75 w)) := by
  unfold dec1B dec26 dec30 dec31 dec3B dec3C dec48 dec49 dec56 dec5A dec5F dec60 dec63 dec65 dec6C dec6D dec70 dec73 dec75
  refine ⟨?_, ?_, ?_, ?_, ?_, ?_, ?_, ?_, ?_, ?_, ?_, ?_, ?_, ?_, ?_, ?_, ?_, ?_, ?_⟩
  all_goals
    rintro rfl
    repeat' split
  any_goals exact reads_error _ _
  all_goals
    refine reads_ok rfl rfl ?_
    simp only [toNat_fld_eq_iff, fld_eq_iff, BitVec.toNat_ofNat, Nat.cast_add, Nat.cast_mul, Nat.cast_ofNat, toNat_fld_cast, Nat.reduceAdd, Int.reducePow, Nat.reducePow] at *
    omega

theorem reads_decodeMajor {n : Nat} {w : BitVec 32} (hn : bitsFrom w 25 = n) : Reads w (decodeMajor n w) := by
  unfold decodeMajor
  have hgroup := reads_group hn
  repeat' split
  any_goals exact reads_error _ _
  any_goals (refine reads_ok rfl rfl ?_)
  any_goals
    simp only [fld_eq_iff, BitVec.toNat_ofNat, Nat.cast_add, Nat.cast_mul, Nat.cast_ofNat, toNat_fld_cast, Nat.reduceAdd, Int.reducePow, Nat.reducePow] at *
    omega
  all_goals simp only [hgroup]
/-- What a number holds at a place of weight c and M values. -/
def slotOf (N c M : Nat) : Nat := N / c % M

theorem fld_ofNat (N lo n : Nat) (h : lo + n ≤ 32) : fld (BitVec.ofNat 32 N) lo n = BitVec.ofNat n (slotOf N (2 ^ lo) (2 ^ n)) := by
  obtain ⟨k, hk⟩ := Nat.exists_eq_add_of_le h
  rw [← BitVec.toNat_inj, toNat_fld, BitVec.toNat_ofNat, BitVec.toNat_ofNat, slotOf, Nat.mod_mod, hk, Nat.pow_add, Nat.pow_add, Nat.mul_assoc,
    Nat.mod_mul_right_div_self, Nat.mod_mul_right_mod]

theorem slotOf_literal (k c M : Nat) : slotOf (no_index (OfNat.ofNat k)) c M = OfNat.ofNat k / c % M := by rw [slotOf]

/-- A place does not show what lies above it. -/
theorem slotOf_add_above {N v c' c M : Nat} (h : c' % (c * M) = 0) : slotOf (N + v * c') c M = slotOf N c M := by
  obtain ⟨k, rfl⟩ := Nat.dvd_of_mod_eq_zero h
  rw [slotOf, slotOf, ← Nat.mod_mul_right_div_self, show N + v * (c * M * k) = N + c * M * (v * k) by ring, Nat.add_mul_mod_self_left, Nat.mod_mul_right_div_self]

/-- A place shows what is put there if it was empty. -/
theorem slotOf_add_here {N c m M : Nat} {v : BitVec m} (hM : 2 ^ m = M) (hc : 1 ≤ c) (h : slotOf N c M = 0) :
    slotOf (N + v.toNat * c) c M = v.toNat := by
  subst hM
  rw [slotOf] at *
  rw [Nat.add_mul_div_right _ _ hc, Nat.add_mod, h, Nat.zero_add, Nat.mod_mod, Nat.mod_eq_of_lt v.isLt]

/-- A place does not show what is put at an empty place below it. -/
theorem slotOf_add_below {N c' m c M : Nat} {v : BitVec m} (hc' : 1 ≤ c') (hc : c % (c' * 2 ^ m) = 0) (h : slotOf N c' (2 ^ m) = 0) :
    slotOf (N + v.toNat * c') c M = slotOf N c M := by
  obtain ⟨k, rfl⟩ := Nat.dvd_of_mod_eq_zero hc
  obtain ⟨q, hq⟩ := Nat.dvd_of_mod_eq_zero h
  rw [slotOf, slotOf, ← Nat.div_div_eq_div_mul, ← Nat.div_div_eq_div_mul, ← Nat.div_div_eq_div_mul, ← Nat.div_div_eq_div_mul,
    Nat.add_mul_div_right _ _ hc', hq, Nat.mul_add_div (Nat.two_pow_pos m), Nat.div_eq_of_lt v.isLt, Nat.mul_div_cancel_left _ (Nat.two_pow_pos m), Nat.add_zero]

theorem slotOf_add_bottom {N m M : Nat} {v : BitVec m} (hM : 2 ^ m = M) (h : slotOf N 1 M = 0) : slotOf (N + v.toNat) 1 M = v.toNat := by
  simpa using slotOf_add_here hM Nat.one_pos h

theorem slotOf_add_below_bottom {N m c M : Nat} {v : BitVec m} (hc : c % 2 ^ m = 0) (h : slotOf N 1 (2 ^ m) = 0) :
    slotOf (N + v.toNat) c M = slotOf N c M := by
  simpa using slotOf_add_below Nat.one_pos (by simpa using hc) h


theorem decodeRaw_eq {w : Word} {n : Nat} {r : Except DecodeError Instr} (hn : (fld w 25 7).toNat = n) (hr : decodeMajor n w = r) : decodeRaw w = r := by
  rw [decodeRaw, hn, hr]

theorem slotOf_mul_above {v c' c M : Nat} (h : c' % (c * M) = 0) : slotOf (v * c') c M = 0 := by
  simpa [slotOf] using slotOf_add_above (N := 0) (v := v) h

theorem slotOf_mul_here {v c M : Nat} (hc : 1 ≤ c) : slotOf (v * c) c M = v % M := by
  rw [slotOf, Nat.mul_div_cancel _ hc]

/-- The word of a three-register instruction decodes to it (R278). -/
theorem decodeRaw_rrr {K : BitVec 7 → BitVec 7 → BitVec 7 → BitVec 1 → BitVec 1 → BitVec 2 → Instr} {n c : Nat} (hn : c / 2 ^ 25 % 2 ^ 7 = n) (hc : n * 2 ^ 25 = c)
    (hK : ∀ w, decodeMajor n w = .ok (K (fld w 18 7) (fld w 11 7) (fld w 4 7) (fld w 3 1) (fld w 2 1) (fld w 0 2)))
    (d a b : BitVec 7) (e f : BitVec 1) (g : BitVec 2) :
    decodeRaw (BitVec.ofNat 32 (c + d.toNat * 0x40000 + a.toNat * 0x800 + b.toNat * 0x10 + e.toNat * 0x8 + f.toNat * 0x4 + g.toNat)) = .ok (K d a b e f g) := by
  have hlt : n % 128 = n := Nat.mod_eq_of_lt (hn ▸ Nat.mod_lt _ (by decide))
  subst hc
  refine decodeRaw_eq (n := n) ?_ ?_
  · simp [fld_ofNat, slotOf_mul_above, slotOf_mul_here, slotOf_add_below, slotOf_add_above, slotOf_add_below_bottom, hlt]
  · simp [fld_ofNat, slotOf_mul_above, slotOf_add_here, slotOf_add_below, slotOf_add_above, slotOf_add_below_bottom, slotOf_add_bottom, hK]

/-- The word of an instruction with one source decodes to it, if its group does (R278, R279). -/
theorem decodeRaw_unary {K : BitVec 7 → BitVec 7 → BitVec 1 → BitVec 2 → Instr} {n k c : Nat} (hn : c / 2 ^ 25 % 2 ^ 7 = n) (hk : c / 2 ^ 4 % 2 ^ 7 = k)
    (hc : n * 2 ^ 25 + k * 2 ^ 4 = c)
    (hK : ∀ w, (fld w 4 7).toNat = k → fld w 2 1 = 0#1 → decodeMajor n w = .ok (K (fld w 18 7) (fld w 11 7) (fld w 3 1) (fld w 0 2)))
    (d a : BitVec 7) (e : BitVec 1) (g : BitVec 2) :
    decodeRaw (BitVec.ofNat 32 (c + d.toNat * 0x40000 + a.toNat * 0x800 + e.toNat * 0x8 + g.toNat)) = .ok (K d a e g) := by
  have hlt : n % 128 = n := Nat.mod_eq_of_lt (hn ▸ Nat.mod_lt _ (by decide))
  have hlt' : k % 128 = k := Nat.mod_eq_of_lt (hk ▸ Nat.mod_lt _ (by decide))
  have hlow : slotOf (n * 33554432 + k * 16) 262144 128 = 0 ∧ slotOf (n * 33554432 + k * 16) 2048 128 = 0 := by
    simp only [slotOf]
    omega
  subst hc
  refine decodeRaw_eq (n := n) ?_ ?_
  · simp [fld_ofNat, slotOf_mul_above, slotOf_add_below, slotOf_add_above, slotOf_add_below_bottom, hlow]
    simp only [slotOf]
    omega
  · rw [hK]
    all_goals simp [fld_ofNat, slotOf_mul_above, slotOf_add_here, slotOf_add_below, slotOf_add_above, slotOf_add_below_bottom, slotOf_add_bottom, hlow]
    all_goals
      simp only [slotOf]
      omega


theorem decodeMajor_plain {n : Nat} {w : Word} {t : Word → Instr} {i : Instr} (h : ∀ w, decodeMajor n w = .ok (t w)) (ht : t w = i) : decodeMajor n w = .ok i := by
  rw [h, ht]

theorem decodeMajor_guarded {n : Nat} {w : Word} {c : Word → Prop} {t : Word → Instr} {i : Instr} (h : ∀ w, c w → decodeMajor n w = .ok (t w)) (hc : c w) (ht : t w = i) :
    decodeMajor n w = .ok i := by
  rw [h w hc, ht]

theorem decodeMajor_group {n : Nat} {w : Word} {r : Word → Except DecodeError Instr} {i : Instr} (h : ∀ w, decodeMajor n w = r w) (hr : r w = .ok i) :
    decodeMajor n w = .ok i := by
  rw [h, hr]

theorem decodeRaw_encode {i : Instr} (henc : i.encoded = true) (hwf : i.WellFormed) : decodeRaw (encode i) = .ok i := by
  cases i
  case iadd | isub | imul | imulhI | imulhN | iminI | imaxI | iminN | imaxN | and | or | xor | shl | shrN | shrI | rotl | imac | bfe | bfi | prmt |
     sel | fadd | fsub | fmul | fmac | fmin | fmax | fscale | hadd2F16 | hmul2F16 | hmac2F16 | hmin2F16 | hmax2F16 | hadd2Bf16 | hmul2Bf16 |
     hmac2Bf16 | hmin2Bf16 | hmax2Bf16 | cvtpF16 | cvtpBf16 | cvtq | shflIdx | shflXor | shflXw | hadq | march | hgrid =>
    exact decodeRaw_rrr rfl rfl (fun _ => rfl) _ _ _ _ _ _
  case mov | ineg | iabs | not | popc | clz | ctz | brev | bswap | sext8 | sext16 | zext8 | zext16 =>
    refine decodeRaw_unary rfl rfl rfl (fun w hk h0 => ?_) _ _ _ _
    show dec1B w = _
    simp only [dec1B, hk, h0, if_true, Nat.reducePow, Nat.reduceMod, Nat.reduceDiv]
  case fneg | fabs | frndn | frndz | frndd | frndu | ffrac | fclass | fsat =>
    refine decodeRaw_unary rfl rfl rfl (fun w hk h0 => ?_) _ _ _ _
    show dec26 w = _
    simp only [dec26, hk, h0, if_true, Nat.reducePow, Nat.reduceMod, Nat.reduceDiv]
  case rcp | rsq | sqrt | exp2 | log2 | sint | cost | tanh | rcph2 | exph2 =>
    refine decodeRaw_unary rfl rfl rfl (fun w hk h0 => ?_) _ _ _ _
    show dec30 w = _
    simp only [dec30, hk, h0, if_true, Nat.reducePow, Nat.reduceMod, Nat.reduceDiv]
  case i2f | n2f | f2in | f2iz | f2id | f2iu | f2nn | f2nz | h2fl | h2fh | b2fl | b2fh | f2h | f2b =>
    refine decodeRaw_unary rfl rfl rfl (fun w hk h0 => ?_) _ _ _ _
    show dec31 w = _
    simp only [dec31, hk, h0, if_true, Nat.reducePow, Nat.reduceMod, Nat.reduceDiv]
  case v2p | p2v =>
    refine decodeRaw_unary rfl rfl rfl (fun w hk h0 => ?_) _ _ _ _
    show dec3B w = _
    simp only [dec3B, hk, h0, if_true, Nat.reducePow, Nat.reduceMod, Nat.reduceDiv]
  case all | any | ballot | matchLanes =>
    refine decodeRaw_unary rfl rfl rfl (fun w hk h0 => ?_) _ _ _ _
    show dec3C w = _
    simp only [dec3C, hk, h0, if_true, Nat.reducePow, Nat.reduceMod, Nat.reduceDiv]
  case idot4 | ndot4 | idot8 | idist4 | fdot4e4 | fdot4e5 | hdot2 =>
    refine decodeRaw_unary rfl rfl rfl (fun w hk h0 => ?_) _ _ _ _
    show dec6C w = _
    simp only [dec6C, hk, h0, if_true, Nat.reducePow, Nat.reduceMod, Nat.reduceDiv]
  case exit | wsync | barCsync | nop | yield | bkpt | rft => rfl
  all_goals try exact absurd henc Bool.false_ne_true
  all_goals
    show decodeRaw (BitVec.ofNat 32 _) = _
    unfold decodeRaw
    simp only [fld_ofNat, slotOf_literal, slotOf_add_above, slotOf_add_below, slotOf_add_below_bottom,
      BitVec.toNat_ofNat, Nat.reduceAdd, Nat.reduceLeDiff, Nat.reducePow, Nat.reduceMul, Nat.reduceMod, Nat.reduceDiv]
  case' iaddi | imuli | andi | ori | xori | shli | shriN | shriI | icmpI | icmpN | fcmp | hcmp2 | plog | bra | brp | call | ld | st | lds | sts |
     ldfe | atom | red | atoms | cstore | est | eld | cont | mma | ximm =>
    refine decodeMajor_plain (fun _ => rfl) ?_
  case' movi | cvtx | reduce | scan | stfe | fence | xfence | pref | qpush | rwait | rrel | launch | trav | mld | msets | mcbt | srd | swr | ipref |
     sched | xsrc | xmod | pred =>
    refine decodeMajor_guarded (fun _ hc => if_pos hc) ?_ ?_
  case' prd | pwr =>
    refine decodeMajor_group (r := dec3B) (fun _ => rfl) ?_
  case' lcount =>
    refine decodeMajor_group (r := dec3C) (fun _ => rfl) ?_
  case' barSync | barArrive | barWait =>
    refine decodeMajor_group (r := dec48) (fun _ => rfl) ?_
  case' sleep =>
    refine decodeMajor_group (r := dec49) (fun _ => rfl) ?_
  case' lock | unlock =>
    refine decodeMajor_group (r := dec56) (fun _ => rfl) ?_
  case' emrg | eclr | esweep | escene | eraw | einit =>
    refine decodeMajor_group (r := dec5A) (fun _ => rfl) ?_
  case' ordwait | ordtake =>
    refine decodeMajor_group (r := dec5F) (fun _ => rfl) ?_
  case' markImm | markReg =>
    refine decodeMajor_group (r := dec60) (fun _ => rfl) ?_
  case' tnew | tcut | tret | tfrd | tfwr | tstat =>
    refine decodeMajor_group (r := dec63) (fun _ => rfl) ?_
  case' mclaim | mrel | mzero | mrow | mread =>
    refine decodeMajor_group (r := dec65) (fun _ => rfl) ?_
  case' kinit | kins | kmrg | krd =>
    refine decodeMajor_group (r := dec6D) (fun _ => rfl) ?_
  case' trapAssert | trapUser =>
    refine decodeMajor_group (r := dec70) (fun _ => rfl) ?_
  case' savew | restw =>
    refine decodeMajor_group (r := dec73) (fun _ => rfl) ?_
  case' bset | bget =>
    refine decodeMajor_group (r := dec75) (fun _ => rfl) ?_
  case' ret =>
    refine decodeMajor_guarded (c := fun w => (fld w 18 7 = 0#7 ∧ fld w 4 7 = 0#7 ∧ fld w 2 1 = 0#1) ∧ fld w 11 7 = 127#7)
      (fun _ hc => (if_pos hc.1).trans (if_pos hc.2)) ⟨?_, ?_⟩ ?_
  case' jmpi a e g =>
    have hne : a ≠ 127#7 := by
      rintro rfl
      exact Bool.false_ne_true hwf
    refine decodeMajor_guarded (c := fun w => (fld w 18 7 = 0#7 ∧ fld w 4 7 = 0#7 ∧ fld w 2 1 = 0#1) ∧ fld w 11 7 ≠ 127#7)
      (fun _ hc => (if_pos hc.1).trans (if_neg hc.2)) ⟨?_, ?_⟩ ?_
    on_goal 2 =>
      have hfld : fld (BitVec.ofNat 32 (0x8a000000 + a.toNat * 0x800 + e.toNat * 0x8 + g.toNat)) 11 7 = a := by
        rw [← BitVec.toNat_inj, toNat_fld, BitVec.toNat_ofNat]
        omega
      exact hfld.trans_ne hne
  all_goals
    simp only [dec3B, dec3C, dec48, dec49, dec56, dec5A, dec5F, dec60, dec63, dec65, dec6D, dec70, dec73, dec75, fld_ofNat, slotOf_literal, slotOf_add_above, slotOf_add_here, slotOf_add_below, slotOf_add_bottom, slotOf_add_below_bottom,
      BitVec.toNat_ofNat, Nat.reduceAdd, Nat.reduceLeDiff, Nat.reducePow, Nat.reduceMul, Nat.reduceMod, Nat.reduceDiv, BitVec.ofNat_toNat, BitVec.setWidth_eq, and_self, if_true]

theorem decode_encode {i : Instr} (henc : i.encoded = true) (hwf : i.WellFormed) : decode (encode i) = .ok i := by
  rw [decode, decodeRaw_encode henc hwf]
  exact if_pos hwf

/-- A word that decodes is the word of a well-formed instruction. -/
theorem encode_of_decode {x : Word} {i : Instr} (h : decode x = .ok i) : i.encoded = true ∧ i.WellFormed ∧ encode i = x := by
  unfold decode at h
  split at h
  next j hj =>
    split at h
    next hwf =>
      cases h
      obtain ⟨henc, hx⟩ := reads_decodeMajor (w := x) (toNat_fld_major x).symm i hj
      exact ⟨henc, hwf, hx⟩
    next => split at h <;> cases h
  next => cases h

/-- The majors that are no instruction (R277). -/
theorem decode_illegalMajor {x : Word} (h : x.toNat / 2 ^ 25 = 0 ∨ (0x78 ≤ x.toNat / 2 ^ 25 ∧ x.toNat / 2 ^ 25 ≤ 0x7A)) : decode x = .error .illegalMajor := by
  have hmaj : ∀ w n, n = 0 ∨ n = 0x78 ∨ n = 0x79 ∨ n = 0x7A → decodeMajor n w = .error .illegalMajor := by
    rintro w n (rfl | rfl | rfl | rfl) <;> rfl
  have hn : (fld x 25 7).toNat = x.toNat / 2 ^ 25 := toNat_fld_major x
  rw [decode, decodeRaw, hn, hmaj x _ (by omega)]

/-- Settles O42: reading a word and writing it back, field by field. -/
theorem decodeEncode : Obligations.DecodeEncode := by
  refine ⟨fun i => decode_encode, fun x i => encode_of_decode, fun x i h hi => ?_⟩
  rw [decode_illegalMajor h] at hi
  cases hi

end Sys2Proof.Machine

/-!
PROOFS. The words written out from the manual (R267 to R280), and the step that runs the instruction its word decodes to (R198, R288).
-/

namespace Sys2Proof.Machine

/-- Settles O43: the decoder is run on each word. -/
theorem wordsDecode : Obligations.WordsDecode := by
  unfold Obligations.WordsDecode
  decide

/-- The word of a fetch that is translated and passes its checks (R198). -/
theorem fetch_ok {s : State} {w : Wave} {pa : Nat} {e : Pte} (hlt : w.minPc < (s.ctx (s.issOf w).c).codewords)
    (hwalk : s.unwalked (s.issOf w) [((s.ctx (s.issOf w).c).codeva + 4 * w.minPc) % 2 ^ 72] = [])
    (hxl : s.laneXl (s.issOf w) (((s.ctx (s.issOf w).c).codeva + 4 * w.minPc) % 2 ^ 72) 4 .fetch = .ok pa e) :
    s.fetch w = .word (BitVec.ofNat 32 (s.rd pa 4)) := by
  unfold State.fetch
  simp only [if_neg (Nat.not_le.mpr hlt), hwalk, hxl, bne_self_eq_false, Bool.false_eq_true, if_false]

/-- A move that is due at the head of the agenda is made (log 7). -/
theorem step_head {s : State} {m : Move} (hm : s.agenda.head? = some m) (hdue : m.due = true) : step s = m.make s.popped := by
  obtain ⟨ms, hms⟩ := List.head?_eq_some_iff.mp hm
  rw [step, hms]
  exact if_pos hdue

/-- The turn of a wave whose quadrant may issue, and whose word is fetched. -/
theorem make_issue_word {s : State} {w : Wave} {x : Word} (hw : s.activeWave? w.uid = some w) (hset : w.minSet ≠ []) (hbrk : s.breakLanes w = [])
    (hq : s.quadFree w = true) (hf : s.fetch w = .word x) : (Move.issue 0 w.uid).make s = exec (instrOf x) (s.issuing w.uid x) := by
  have hturn : s.turn w.uid = .word x := by simp [State.turn, hw, hset, hbrk, hf]
  simp only [Move.make, hw, hq, if_true, State.issueWave, hturn]

/-- Settles O44: the move is made, the fetch gives the word, and the word its instruction. -/
theorem stepRunsDecoded : Obligations.StepRunsDecoded := by
  intro s w pa e p va hhead hw hset hbrk hq hlt hwalk hxl x
  have hstep : step s = exec (instrOf x) (p.issuing w.uid x) :=
    (step_head hhead rfl).trans (make_issue_word hw hset hbrk hq (fetch_ok hlt hwalk hxl))
  refine ⟨fun i hi => ?_, fun er her => ?_⟩
  · rw [hstep, instrOf, hi]
    rfl
  · rw [hstep, instrOf, her]
    rfl
end Sys2Proof.Machine

/-!
PROOFS. What RESET leaves (R1, R2, R19, R26).
-/

namespace Sys2Proof.Machine

/-- After RESET no register of BAR0 but IDENT answers (R19, R26). -/
theorem readWord_not_ready {s : State} {o : Nat} (h0 : s.rdy 0 = false) (hb : s.barwin = false) (ho : 8 ≤ o) : s.readWord o = 0 := by
  have hans : s.answers o = false := by
    unfold State.answers
    rw [if_neg (by omega)]
    split
    · exact h0
    · exact hb
  simp [State.readWord, hans]

theorem barRead_not_ready {s : State} {o n : Nat} (h0 : s.rdy 0 = false) (hb : s.barwin = false) (ho : 8 ≤ o) : s.barRead o n = 0 := by
  unfold State.barRead
  rw [readWord_not_ready h0 hb ho, readWord_not_ready h0 hb (by omega : 8 ≤ o + 4)]
  simp

/-- IDENT is read in two words (R25). -/
theorem barRead_ident (s : State) : s.barRead 0 8 = s.ident.toNat := by
  have h0 : s.readWord 0 = s.ident.toNat % 2 ^ 32 := by
    simp [State.readWord, State.answers, State.reg32, State.reg64]
  have h4 : s.readWord 4 = s.ident.toNat / 2 ^ 32 := by
    have := s.ident.isLt
    simp only [State.readWord, State.answers, State.reg32, State.reg64]
    simp
    omega
  simp only [State.barRead]
  simp [h0, h4]
  omega

/-- Settles O47: the state that RESET leaves is written out. -/
theorem resetLeaves : Obligations.ResetLeaves := by
  refine ⟨fun s => ⟨_, rfl, ?_⟩, ⟨_, rfl, rfl⟩, reset_mem_wf⟩
  refine ⟨rfl, rfl, rfl, fun p hp => ?_, rfl, rfl, rfl, rfl, fun c => ⟨rfl, rfl⟩, fun q => rfl, rfl, rfl, rfl, rfl, rfl, rfl, rfl, rfl, rfl, rfl, rfl, rfl, rfl,
    fun a ha => ?_, barRead_ident _, fun o n hn ho => ?_⟩
  · interval_cases p <;> exact ⟨rfl, rfl⟩
  · exact congrArg (Option.getD · 0) (find_filter (fun k => paKind k == 3) s.mem a (beq_iff_eq.mpr ha))
  · exact barRead_not_ready (BitVec.getLsbD_zero ..) (BitVec.getLsbD_zero ..) ho
end Sys2Proof.Machine

/-!
PROOFS. Three-register and immediate integer instructions (R294, R295).
-/

namespace Sys2Proof.Machine

/-! ## Functions of two words (R294) -/

theorem mul_eq_ofNat (a b : Word) : a * b = BitVec.ofNat 32 (a.toNat * b.toNat) := by
  apply BitVec.eq_of_toNat_eq
  rw [BitVec.toNat_mul, BitVec.toNat_ofNat]

theorem minI_eq (a b : Word) : minI a b = BitVec.ofInt 32 (min a.toInt b.toInt) := by
  unfold minI
  split
  next h => rw [min_eq_left h, BitVec.ofInt_toInt]
  next h => rw [min_eq_right (le_of_not_ge h), BitVec.ofInt_toInt]

theorem maxI_eq (a b : Word) : maxI a b = BitVec.ofInt 32 (max a.toInt b.toInt) := by
  unfold maxI
  split
  next h => rw [max_eq_right h, BitVec.ofInt_toInt]
  next h => rw [max_eq_left (le_of_not_ge h), BitVec.ofInt_toInt]

theorem minN_eq (a b : Word) : minN a b = BitVec.ofNat 32 (min a.toNat b.toNat) := by
  unfold minN
  split
  next h => rw [min_eq_left h, BitVec.ofNat_toNat, BitVec.setWidth_eq]
  next h => rw [min_eq_right (le_of_not_ge h), BitVec.ofNat_toNat, BitVec.setWidth_eq]

theorem maxN_eq (a b : Word) : maxN a b = BitVec.ofNat 32 (max a.toNat b.toNat) := by
  unfold maxN
  split
  next h => rw [max_eq_right h, BitVec.ofNat_toNat, BitVec.setWidth_eq]
  next h => rw [max_eq_left (le_of_not_ge h), BitVec.ofNat_toNat, BitVec.setWidth_eq]

/-- A shift by 32 or more leaves nothing of a word's low bits. -/
theorem shlFn_eq (a b : Word) : shlFn a b = BitVec.ofNat 32 (a.toNat * 2 ^ b.toNat) := by
  apply BitVec.eq_of_toNat_eq
  rw [BitVec.toNat_ofNat]
  unfold shlFn
  split
  next => rw [BitVec.toNat_shiftLeft, Nat.shiftLeft_eq]
  next h => exact (Nat.mod_eq_zero_of_dvd (Dvd.dvd.mul_left (pow_dvd_pow 2 (not_lt.mp h)) _)).symm

theorem shrNFn_eq (a b : Word) : shrNFn a b = BitVec.ofNat 32 (a.toNat / 2 ^ b.toNat) := by
  apply BitVec.eq_of_toNat_eq
  rw [BitVec.toNat_ofNat, Nat.mod_eq_of_lt (lt_of_le_of_lt (Nat.div_le_self _ _) a.isLt)]
  unfold shrNFn
  split
  next => rw [BitVec.toNat_ushiftRight, Nat.shiftRight_eq_div_pow]
  next h => exact (Nat.div_eq_of_lt (lt_of_lt_of_le a.isLt (Nat.pow_le_pow_right two_pos (not_lt.mp h)))).symm

theorem shrIFn_eq (a b : Word) : shrIFn a b = BitVec.ofInt 32 (a.toInt / 2 ^ b.toNat) := by
  unfold shrIFn
  split
  next => rw [BitVec.sshiftRight, Int.shiftRight_eq_div_pow, Nat.cast_pow, Nat.cast_ofNat]
  next h =>
    have hpow : (2 : Int) ^ 32 ≤ 2 ^ b.toNat := pow_le_pow_right₀ one_le_two (not_lt.mp h)
    have hlow : -2 ^ 31 ≤ a.toInt := BitVec.le_toInt a
    have hhigh : a.toInt < 2 ^ 31 := BitVec.toInt_lt
    split
    next hneg =>
      rw [BitVec.msb_eq_toInt, decide_eq_true_iff] at hneg
      rw [show a.toInt / 2 ^ b.toNat = -1 from Int.ediv_eq_neg_one_of_neg_of_le hneg (by omega)]
      rfl
    next hpos =>
      rw [BitVec.msb_eq_toInt, decide_eq_true_iff, not_lt] at hpos
      rw [Int.ediv_eq_zero_of_lt hpos (by omega)]
      rfl

/-- A rotation by 0 shifts by 0 both ways. -/
theorem rotlFn_eq (a b : Word) : rotlFn a b = a <<< (b.toNat % 32) ||| a >>> ((32 - b.toNat % 32) % 32) := by
  have hlt : b.toNat % 32 < 32 := Nat.mod_lt _ (by decide)
  rw [rotlFn, BitVec.rotateLeft_def, Nat.mod_eq_of_lt hlt]
  by_cases h : b.toNat % 32 = 0
  · simp [h, BitVec.ushiftRight_eq_zero]
  · rw [Nat.mod_eq_of_lt (by omega : 32 - b.toNat % 32 < 32)]

/-! ## The obligation -/

/-- Settles O1: each instruction is a register instruction that writes one word, whose function is the one that R294 states. -/
theorem integerResults : Obligations.IntegerResults := by
  refine ⟨?registers, ?immediates⟩
  case registers =>
    intro is
    have writes {ctor op} (fn : Word → Word → Word) (he : ∀ d a b e f g s, exec (ctor d a b e f g) s = rrrOp fn d a b e f g s)
        (hfn : ∀ x y, fn x y = op x y) : is ctor op := fun d a b e f g =>
      laneIssues_done (fun _ _ l => fn (l.v a.toNat) (l.v b.toNat)) (he d a b e f g) (fun _ _ => rfl) fun _ _ _ _ _ hw => hfn _ _ ▸ hw
    clear_value is
    exact ⟨writes (· + ·) (fun _ _ _ _ _ _ _ => rfl) (fun _ _ => rfl),
      writes (· - ·) (fun _ _ _ _ _ _ _ => rfl) (fun _ _ => rfl),
      writes (· * ·) (fun _ _ _ _ _ _ _ => rfl) mul_eq_ofNat,
      writes mulhI (fun _ _ _ _ _ _ _ => rfl) (fun _ _ => rfl),
      writes mulhN (fun _ _ _ _ _ _ _ => rfl) (fun _ _ => rfl),
      writes minI (fun _ _ _ _ _ _ _ => rfl) minI_eq,
      writes maxI (fun _ _ _ _ _ _ _ => rfl) maxI_eq,
      writes minN (fun _ _ _ _ _ _ _ => rfl) minN_eq,
      writes maxN (fun _ _ _ _ _ _ _ => rfl) maxN_eq,
      writes (· &&& ·) (fun _ _ _ _ _ _ _ => rfl) (fun _ _ => rfl),
      writes (· ||| ·) (fun _ _ _ _ _ _ _ => rfl) (fun _ _ => rfl),
      writes (· ^^^ ·) (fun _ _ _ _ _ _ _ => rfl) (fun _ _ => rfl),
      writes shlFn (fun _ _ _ _ _ _ _ => rfl) shlFn_eq,
      writes shrNFn (fun _ _ _ _ _ _ _ => rfl) shrNFn_eq,
      writes shrIFn (fun _ _ _ _ _ _ _ => rfl) shrIFn_eq,
      writes rotlFn (fun _ _ _ _ _ _ _ => rfl) rotlFn_eq⟩
  case immediates =>
    intro imm is
    have writes {ctor op} (fn : Word → Word → Word) (he : ∀ d a e i s, exec (ctor d a e i) s = riOp fn d a e i s)
        (hfn : ∀ x y, fn x y = op x y) : is ctor op := fun d a e i =>
      laneIssues_done (fun x L l => fn (l.v a.toNat) (riImm (x.h L) i)) (he d a e i) (fun _ _ => rfl) fun _ _ _ _ _ hw => hfn _ _ ▸ hw
    have hmovi : ∀ d i, LaneIssues (.movi d i) (fun _ _ => { xim := true, ri := true, dsts := [(d.toNat, 1)] }) anyLane
        (fun _ x L l l' => Wrote l l' d.toNat (imm x L i)) := fun d i =>
      laneIssues_done (fun x L _ => riImm (x.h L) i) (fun _ => rfl) (fun _ _ => rfl) fun _ _ _ _ _ hw => hw
    clear_value is
    exact ⟨writes (· + ·) (fun _ _ _ _ _ => rfl) (fun _ _ => rfl),
      writes (· * ·) (fun _ _ _ _ _ => rfl) mul_eq_ofNat,
      writes (· &&& ·) (fun _ _ _ _ _ => rfl) (fun _ _ => rfl),
      writes (· ||| ·) (fun _ _ _ _ _ => rfl) (fun _ _ => rfl),
      writes (· ^^^ ·) (fun _ _ _ _ _ => rfl) (fun _ _ => rfl),
      writes shlFn (fun _ _ _ _ _ => rfl) shlFn_eq,
      writes shrNFn (fun _ _ _ _ _ => rfl) shrNFn_eq,
      writes shrIFn (fun _ _ _ _ _ => rfl) shrIFn_eq,
      hmovi⟩
end Sys2Proof.Machine

/-!
PROOFS. Floating-point and conversion instructions that finish with a result and flags, without an enabled exception (R290, R299 to
R303, R305 to R308).
-/

namespace Sys2Proof.Machine

/-! ## A result and its flags (R216, R290) -/

theorem fpDone_ok {l : Lane} {d : BitVec 7} {r : Word × FpFlags} (h : NoTrap l r.2) : l.fpDone d r = .ok ((l.flags r.2).set d.toNat r.1).adv :=
  if_neg (by rw [Lane.enabled, show r.2 &&& _ = 0 from h]; decide)

/-- Writing a result, adding its flags and going on, after a change that keeps the lane's registers, place and FPCTL. -/
theorem wroteFlags_done {l m : Lane} {d : Nat} (r : Word × FpFlags) (hregs : m.regs = l.regs) (hpc : m.pc = l.pc) (hfp : m.fpctl = l.fpctl)
    (hd : d < l.regs.length) : WroteFlags l m ((m.flags r.2).set d r.1).adv.noted d r := by
  obtain ⟨value, others, next, _⟩ := wroteOver_done (l := l) (m := m.flags r.2) (y := r.1) hregs hpc hd
  exact ⟨value, others, next, congrArg (· ||| r.2.zeroExtend 32) hfp, rfl⟩

/-- A register instruction that computes a result and flags from each lane, perhaps after a change that keeps the lane's registers,
place and FPCTL. -/
theorem laneIssues_fpDone {i : Instr} {ff : FormF} {d : BitVec 7} (before : State → Iss → Nat → Lane → Lane)
    (val : State → Iss → Nat → Lane → Word × FpFlags)
    (he : ∀ s, exec i s = .next (s.regIssue ff (fun s x L l => (before s x L l).fpDone d (val s x L l))))
    (hd : ∀ h b, (ff h b).dsts = [(d.toNat, 1)])
    (hover : ∀ s x L l, (before s x L l).regs = l.regs ∧ (before s x L l).pc = l.pc ∧ (before s x L l).stepping = l.stepping ∧
      (before s x L l).fpctl = l.fpctl)
    (hskip : ∀ s w x L l, before (s.skipped w ff) x L l = before s x L l ∧ val (s.skipped w ff) x L l = val s x L l) :
    LaneIssues i ff (fun s x L l => NoTrap l (val s x L l).2) (fun s x L l l' => WroteFlags l (before s x L l) l' d.toNat (val s x L l)) := by
  refine laneIssues_reg he fun s w _ L hL hpre hstep => ?_
  obtain ⟨hregs, hpc, hstepping, hfp⟩ := hover s (issueOf s w ff) L (w.lane L)
  obtain ⟨hov, hval⟩ := hskip s w (issueOf s w ff) L (w.lane L)
  rw [hov, hval]
  have hno : NoTrap (before s (issueOf s w ff) L (w.lane L)) (val s (issueOf s w ff) L (w.lane L)).2 := by rw [NoTrap, hfp]; exact hpre
  exact ⟨_, fpDone_ok hno, hstepping.trans hstep, wroteFlags_done _ hregs hpc hfp (executing_has_dst hd hL)⟩

/-- The same of an instruction that changes nothing else of the lane. -/
theorem flagIssues_fpDone {i : Instr} {ff : FormF} {d : BitVec 7} (val : Iss → Nat → Lane → Word × FpFlags)
    (he : ∀ s, exec i s = .next (s.regIssue ff (fun _ x L l => l.fpDone d (val x L l)))) (hd : ∀ h b, (ff h b).dsts = [(d.toNat, 1)]) :
    FlagIssues i ff d val :=
  laneIssues_fpDone (fun _ _ _ l => l) (fun _ x L l => val x L l) he hd (fun _ _ _ _ => ⟨rfl, rfl, rfl, rfl⟩) fun _ _ _ _ _ => ⟨rfl, rfl⟩

/-- Operand C keeps FPCTL. -/
theorem cVal_fpctl (fp : Bool) (s : State) (x : Iss) (L : Nat) (l : Lane) (d : BitVec 7) : (cVal fp s x L l d).2.fpctl = l.fpctl := by
  obtain ⟨c, t, h⟩ := cVal_lane fp s x L l d
  rw [h]

/-- A multiply-accumulate with its addend from operand C (R284). -/
theorem laneIssues_mac {ctor : BitVec 7 → BitVec 7 → BitVec 7 → BitVec 1 → BitVec 1 → BitVec 2 → Instr}
    (val : Option (BitVec 25) → Word → Word → Word → Word → Word × FpFlags)
    (he : ∀ d a b e f g s, exec (ctor d a b e f g) s = .next (s.regIssue (fRRRc true d a b e f g) (fun s x L l =>
      let c := cVal true s x L l d
      c.2.fpDone d (val (x.h L).xmod c.2.fpctl (c.2.v a.toNat) (c.2.v b.toNat) c.1)))) (d a b : BitVec 7) (e f : BitVec 1) (g : BitVec 2) :
    LaneIssues (ctor d a b e f g) (fRRRc true d a b e f g)
      (fun s x L l => NoTrap l (val (x.h L).xmod l.fpctl (l.v a.toNat) (l.v b.toNat) (cVal true s x L l d).1).2)
      (fun s x L l l' => WroteFlags l (cVal true s x L l d).2 l' d.toNat
        (val (x.h L).xmod l.fpctl (l.v a.toNat) (l.v b.toNat) (cVal true s x L l d).1)) := by
  refine laneIssues_fpDone (fun s x L l => (cVal true s x L l d).2)
    (fun s x L l => val (x.h L).xmod l.fpctl (l.v a.toNat) (l.v b.toNat) (cVal true s x L l d).1) (fun s => ?_) (fun _ _ => rfl)
    (fun s x L l => ⟨cVal_keeps.1, cVal_keeps.2.1, cVal_keeps.2.2, cVal_fpctl ..⟩) fun s w x L l => ⟨congrArg Prod.snd (cVal_skipped ..), ?_⟩
  · rw [he]
    simp only [cVal_fpctl, v_congr cVal_keeps.1]
  · rw [cVal_skipped]

/-! ## The FUN group (R302) -/

theorem and_low31_eq_ofNat (x : Word) : x &&& 0x7FFFFFFF#32 = BitVec.ofNat 32 (x.toNat % 2 ^ 31) := by
  apply BitVec.eq_of_toNat_eq
  rw [BitVec.toNat_and, BitVec.toNat_ofNat, BitVec.toNat_ofNat, Nat.mod_eq_of_lt (a := x.toNat % 2 ^ 31) (by omega)]
  exact Nat.and_two_pow_sub_one_eq_mod x.toNat 31

/-- The kind of an FP32 value by its exponent e, its fraction m and its sign: the bit that FCLASS sets. -/
def fpKind (neg : Bool) (e m : Nat) : Nat :=
  if e = 255 then (if m ≠ 0 then 8 else if neg then 0 else 7)
  else if e = 0 then (if m = 0 then (if neg then 3 else 4) else if neg then 2 else 5)
  else if neg then 1 else 6

/-- The value of an FP32 word by its sign, exponent and fraction (R219). -/
theorem fp32_decode (x : Word) : fp32.decode x.toNat =
    (if x.toNat / 2 ^ 23 % 256 = 255 then (if x.toNat % 2 ^ 23 = 0 then .inf x.msb else .nan)
    else if x.toNat / 2 ^ 23 % 256 = 0 then .fin x.msb (x.toNat % 2 ^ 23) (-149)
    else .fin x.msb (x.toNat % 2 ^ 23 + 2 ^ 23) ((x.toNat / 2 ^ 23 % 256 : Nat) - 150)) := by
  have hx := x.isLt
  have hneg : (x.toNat / 2 ^ 31 % 2 == 1) = x.msb := by
    rw [BitVec.msb_eq_decide]
    by_cases h : 2 ^ 31 ≤ x.toNat
    · rw [decide_eq_true h, beq_iff_eq]; omega
    · rw [decide_eq_false h, beq_eq_false_iff_ne]; omega
  have he : x.toNat % 2 ^ 31 / 2 ^ 23 = x.toNat / 2 ^ 23 % 256 := by omega
  have hm : x.toNat % 2 ^ 31 % 2 ^ 23 = x.toNat % 2 ^ 23 := by omega
  simp only [Fmt.decode, Fmt.signBit, fp32, Nat.reduceAdd, hneg, he, hm, Bool.true_and, Bool.not_true, Bool.and_false, Bool.false_and,
    Bool.false_eq_true, if_false, beq_iff_eq]
  have hexp : ((x.toNat / 2 ^ 23 % 256 : Nat) : Int) - 127 - 23 = (x.toNat / 2 ^ 23 % 256 : Nat) - 150 := by omega
  exact if_congr Iff.rfl rfl (if_congr Iff.rfl rfl (congrArg _ hexp))

theorem fclass_eq (x : Word) : fclass x = BitVec.ofNat 32 (2 ^ fpKind x.msb (x.toNat / 2 ^ 23 % 256) (x.toNat % 2 ^ 23)) := by
  have hlow : x.toNat % 2 ^ 31 < 2 ^ 23 ↔ x.toNat / 2 ^ 23 % 256 = 0 := by omega
  rw [fclass, fp32_decode, fpKind]
  by_cases htop : x.toNat / 2 ^ 23 % 256 = 255
  · rw [if_pos htop, if_pos htop]
    by_cases hm : x.toNat % 2 ^ 23 = 0
    · rw [if_pos hm, if_neg (not_not.mpr hm)]
      cases x.msb <;> rfl
    · rw [if_neg hm, if_pos hm]
      rfl
  · rw [if_neg htop, if_neg htop]
    by_cases hbot : x.toNat / 2 ^ 23 % 256 = 0
    · rw [if_pos hbot, if_pos hbot]
      simp only [beq_iff_eq, decide_eq_true_eq, hlow, hbot, if_true]
      by_cases hm : x.toNat % 2 ^ 23 = 0
      · rw [if_pos hm, if_pos hm]
        cases x.msb <;> rfl
      · rw [if_neg hm, if_neg hm]
        cases x.msb <;> rfl
    · rw [if_neg hbot, if_neg hbot]
      have hmant : ¬x.toNat % 2 ^ 23 + 2 ^ 23 = 0 := Nat.succ_ne_zero _
      simp only [beq_iff_eq, decide_eq_true_eq, hlow, hbot, hmant, if_false]
      cases x.msb <;> rfl

/-! ## The obligations -/

/-- Settles O3: the FP32 instructions finish with a result and flags; of the FUN group all but FFRAC write one word. -/
theorem floatScalar : Obligations.FloatScalar := by
  refine ⟨?scalars, ?fun_group⟩
  case scalars =>
    intro is
    have writes {ctor} (val : Option (BitVec 25) → Word → Word → Word → Word × FpFlags)
        (he : ∀ d a b e f g s, exec (ctor d a b e f g) s =
          .next (s.regIssue (fRRRx false d a b e f g) (fun _ x L l => l.fpDone d (val (x.h L).xmod l.fpctl (l.v a.toNat) (l.v b.toNat))))) :
        is ctor val := fun d a b e f g =>
      flagIssues_fpDone (fun x L l => val (x.h L).xmod l.fpctl (l.v a.toNat) (l.v b.toNat)) (he d a b e f g) fun _ _ => rfl
    clear_value is
    exact ⟨writes _ fun _ _ _ _ _ _ _ => rfl, writes _ fun _ _ _ _ _ _ _ => rfl, writes _ fun _ _ _ _ _ _ _ => rfl,
      writes _ fun _ _ _ _ _ _ _ => rfl, writes _ fun _ _ _ _ _ _ _ => rfl, writes _ fun _ _ _ _ _ _ _ => rfl,
      laneIssues_mac (f32op .mac) fun _ _ _ _ _ _ _ => rfl⟩
  case fun_group =>
    intro is kind
    have writes {ctor val} (op : Word → Word → Word) (he : ∀ d a e g s, exec (ctor d a e g) s = funOp op d a e g s)
        (hop : ∀ c x, op c x = val c x) : is ctor val := fun d a e g =>
      laneIssues_done (fun _ _ l => op l.fpctl (l.v a.toNat)) (he d a e g) (fun _ _ => rfl) fun _ _ _ _ _ hw => hop _ _ ▸ hw
    clear_value is
    exact ⟨writes (fun _ x => x ^^^ 0x80000000#32) (fun _ _ _ _ _ => rfl) fun _ _ => rfl,
      writes (fun _ x => x &&& 0x7FFFFFFF#32) (fun _ _ _ _ _ => rfl) fun _ => and_low31_eq_ofNat,
      writes (fun c x => frnd .rne (ftzOf c) x) (fun _ _ _ _ _ => rfl) fun _ _ => rfl,
      writes (fun c x => frnd .rtz (ftzOf c) x) (fun _ _ _ _ _ => rfl) fun _ _ => rfl,
      writes (fun c x => frnd .rdn (ftzOf c) x) (fun _ _ _ _ _ => rfl) fun _ _ => rfl,
      writes (fun c x => frnd .rup (ftzOf c) x) (fun _ _ _ _ _ => rfl) fun _ _ => rfl,
      writes (fun _ x => fclass x) (fun _ _ _ _ _ => rfl) fun _ => fclass_eq,
      writes fsat (fun _ _ _ _ _ => rfl) fun _ _ => rfl,
      fun d a e g => flagIssues_fpDone (fun x L l => ffrac (x.h L).xmod l.fpctl (l.v a.toNat)) (fun _ => rfl) fun _ _ => rfl⟩

/-- Settles O4: each packed instruction finishes with a result and flags. -/
theorem floatPacked : Obligations.FloatPacked := by
  unfold Obligations.FloatPacked
  intro is mac
  have writes {ctor fm o} (he : ∀ d a b e f g s, exec (ctor d a b e f g) s = pkOp fm o d a b e f g s) : is ctor fm o := fun d a b e f g =>
    flagIssues_fpDone (fun x L l => packedOp fm o (x.h L).xmod l.fpctl (l.v a.toNat) (l.v b.toNat) 0) (he d a b e f g) fun _ _ => rfl
  have accumulates {ctor fm} (he : ∀ d a b e f g s, exec (ctor d a b e f g) s = pkMac fm d a b e f g s) : mac ctor fm :=
    laneIssues_mac (packedOp fm .mac) he
  clear_value is mac
  exact ⟨writes fun _ _ _ _ _ _ _ => rfl, writes fun _ _ _ _ _ _ _ => rfl, writes fun _ _ _ _ _ _ _ => rfl,
    writes fun _ _ _ _ _ _ _ => rfl, accumulates fun _ _ _ _ _ _ _ => rfl,
    writes fun _ _ _ _ _ _ _ => rfl, writes fun _ _ _ _ _ _ _ => rfl, writes fun _ _ _ _ _ _ _ => rfl,
    writes fun _ _ _ _ _ _ _ => rfl, accumulates fun _ _ _ _ _ _ _ => rfl⟩

/-- The format of the XMOD hint held, 0 without one. -/
theorem fmtOf_eq (h : HintSet) : fmtOf h = xmFMT (h.xmod.getD 0) := by
  unfold fmtOf
  split
  next e => rw [e]; rfl
  next e => rw [e]; rfl

theorem cvtqSpan_eq (n : Nat) : cvtqSpan n = if n = 5 ∨ n = 8 then 8 else 4 := by
  rw [cvtqSpan]
  simp only [Bool.or_eq_true, decide_eq_true_eq]

/-- Settles O5: each conversion but CVTX finishes with a result and flags; CVTX writes one word. -/
theorem conversions : Obligations.Conversions := by
  unfold Obligations.Conversions
  intro is
  have writes {ctor sr val} (he : ∀ d a e g s, exec (ctor d a e g) s = cvtOp sr val d a e g s) : is ctor sr val := fun d a e g =>
    flagIssues_fpDone (fun x L l => val (x.h L).xmod l.fpctl l.hseed L (l.v a.toNat)) (he d a e g) fun _ _ => rfl
  clear_value is
  refine ⟨writes fun _ _ _ _ _ => rfl, writes fun _ _ _ _ _ => rfl, writes fun _ _ _ _ _ => rfl, writes fun _ _ _ _ _ => rfl,
    writes fun _ _ _ _ _ => rfl, writes fun _ _ _ _ _ => rfl, writes fun _ _ _ _ _ => rfl, writes fun _ _ _ _ _ => rfl,
    writes fun _ _ _ _ _ => rfl, writes fun _ _ _ _ _ => rfl, writes fun _ _ _ _ _ => rfl, writes fun _ _ _ _ _ => rfl,
    writes fun _ _ _ _ _ => rfl, writes fun _ _ _ _ _ => rfl,
    fun d a b e f g => flagIssues_fpDone _ (fun _ => rfl) fun _ _ => rfl, fun d a b e f g => flagIssues_fpDone _ (fun _ => rfl) fun _ _ => rfl,
    ?cvtq, fun d a c e g => laneIssues_done (fun _ _ l => cvtx c.toNat (l.v a.toNat)) (fun _ => rfl) (fun _ _ => rfl) fun _ _ _ _ _ hw => hw⟩
  intro d a b e f g
  refine flagIssues_fpDone _ (fun s => ?_) fun _ _ => rfl
  show execCvtq d a b e f g s = _
  simp only [execCvtq, fmtOf_eq, cvtqSpan_eq, Lane.vs]

end Sys2Proof.Machine

/-!
PROOFS. Compares, predicates and cross-lane instructions (R272, R309 to R315).
-/

namespace Sys2Proof.Machine

/-! ## Word-level values (R288, check 2) -/

/-- An executing lane of an instruction that is no hint holds only hints that it accepts, and no word-level value is illegal. -/
theorem wordTrap_of_run {s : State} {w : Wave} {ff : FormF} {l : Lane} (h : fate s w ff l = .run) :
    wordTrap (ff (hintSet l.hints) l.inHandler) (hintSet l.hints) l = none := by
  unfold fate at h
  dsimp only at h
  split at h
  · cases h
  · rename_i hnone
    split at hnone
    · cases hnone
    · exact hnone

/-- A word whose fields are illegal executes for no lane. -/
theorem executing_not_bad {s : State} {w : Wave} {ff : FormF} {L : Nat} {b : Bool} (hff : ∀ h i, (ff h i).bad = b)
    (hhint : ∀ h i, (ff h i).isHint = false) (hL : L ∈ executing s w ff) : b = false := by
  have hword := wordTrap_of_run (mem_executing.mp hL).2
  unfold wordTrap at hword
  rw [hhint] at hword
  simp only [Bool.false_eq_true, if_false] at hword
  split at hword
  · cases hword
  · split at hword
    · cases hword
    · rename_i hbad
      simp only [hff, Bool.or_eq_true, not_or, Bool.not_eq_true] at hbad
      exact hbad.1.1

/-! ## Writing a predicate (R202) -/

/-- Writing one predicate and going on. -/
theorem wrotePred_adv (l : Lane) {n : Nat} (b : Bool) (hn : n < 128) : WrotePred l (l.setP n b).adv.noted n b := by
  have hp (k : Nat) : (l.setP n b).adv.noted.p k = if k = n then (n == 0 || b) else l.p k := p_setP l n k b hn
  have hkeep : (l.setP n b) = { l with preds := (l.setP n b).preds } := by unfold Lane.setP; split <;> rfl
  refine ⟨(hp n).trans (if_pos rfl), fun k hk => (hp k).trans (if_neg hk), ?_, ?_, ?_⟩ <;> rw [hkeep]
  · rfl
  · exact ⟨rfl, rfl⟩
  · rfl

/-- A register instruction that computes one predicate from each lane. -/
theorem laneIssues_pred {i : Instr} {ff : FormF} {n : BitVec 7} (val : Lane → Bool)
    (he : ∀ s, exec i s = .next (s.regIssue ff (fun _ _ _ l => .ok (l.setP n.toNat (val l)).adv))) :
    LaneIssues i ff anyLane (fun _ _ _ l l' => WrotePred l l' n.toNat (val l)) :=
  laneIssues_reg he fun _ _ _ _ _ _ hstep =>
    ⟨_, rfl, by unfold Lane.setP; split <;> exact hstep, wrotePred_adv _ _ n.isLt⟩

/-! ## Compares (R309) -/

/-- The relation of a compare of two integers (R272). -/
def intRel (c : Nat) (x y : Int) : Bool :=
  match c with
  | 0 => decide (x = y) | 1 => decide (x ≠ y) | 2 => decide (x < y) | 3 => decide (x ≤ y) | 4 => decide (y < x) | _ => decide (y ≤ x)

theorem ccRel_compare {c : Nat} (hc : c ≤ 5) (x y : Int) : ccRel c (compare x y) = intRel c x y := by
  obtain hlt | heq | hgt := lt_trichotomy x y
  · rw [compare_lt_iff_lt.mpr hlt]
    interval_cases c <;> simp [ccRel, intRel, hlt.ne, hlt, hlt.le, hlt.not_gt, hlt.not_ge]
  · subst heq
    rw [compare_eq_iff_eq.mpr rfl]
    interval_cases c <;> simp [ccRel, intRel]
  · rw [compare_gt_iff_gt.mpr hgt]
    interval_cases c <;> simp [ccRel, intRel, hgt.ne', hgt, hgt.le, hgt.not_gt, hgt.not_ge]

theorem ordN_eq (x y : Word) : ordN x y = compare (x.toNat : Int) (y.toNat : Int) := by
  unfold ordN
  obtain hlt | heq | hgt := lt_trichotomy x.toNat y.toNat
  · rw [compare_lt_iff_lt.mpr hlt, compare_lt_iff_lt.mpr (Int.ofNat_lt.mpr hlt)]
  · rw [compare_eq_iff_eq.mpr heq, compare_eq_iff_eq.mpr (congrArg _ heq)]
  · rw [compare_gt_iff_gt.mpr hgt, compare_gt_iff_gt.mpr (Int.ofNat_lt.mpr hgt)]

/-- An integer compare, by the numbers that its words stand for; only the codes 0 to 5 execute. -/
theorem icmp_writes {ctor : BitVec 7 → BitVec 7 → BitVec 7 → BitVec 4 → Instr} {ord : Word → Word → Ordering} {num : Word → Int}
    (he : ∀ p a b c s, exec (ctor p a b c) s = icmpOp ord p a b c s) (hord : ∀ x y, ord x y = compare (num x) (num y))
    (p a b : BitVec 7) (c : BitVec 4) :
    LaneIssues (ctor p a b c) (fCMP a b (!upTo c.toNat 5)) anyLane (fun _ _ _ l l' =>
      WrotePred l l' p.toNat (intRel c.toNat (num (l.v a.toNat)) (num (l.v b.toNat)))) := by
  refine laneIssues_reg (he p a b c) fun s w _ L hL _ hstep => ⟨_, rfl, by unfold Lane.setP; split <;> exact hstep, ?_⟩
  have hbad := executing_not_bad (b := !upTo c.toNat 5) (fun _ _ => rfl) (fun _ _ => rfl) hL
  have hc : c.toNat ≤ 5 := by simpa [upTo] using hbad
  rw [hord, ccRel_compare hc]
  exact wrotePred_adv _ _ p.isLt

theorem hcmp2_writes (p a b : BitVec 7) (c : BitVec 4) :
    LaneIssues (.hcmp2 p a b c) (fCMP a b (!upTo c.toNat 13 || p.toNat == 127)) anyLane (fun _ _ _ l l' =>
      let r (k : Nat) := fcmpRel fp16 c.toNat (l.fpctl.getLsbD 12) ((l.v a.toNat).toNat / 2 ^ (16 * k) % 2 ^ 16) ((l.v b.toNat).toNat / 2 ^ (16 * k) % 2 ^ 16)
      l'.p p.toNat = (p.toNat == 0 || r 0) ∧ l'.p (p.toNat + 1) = r 1 ∧
        (∀ k, k ≠ p.toNat → k ≠ p.toNat + 1 → l'.p k = l.p k) ∧
        l'.regs = l.regs ∧ l'.pc = l.pc + 1 ∧ l'.hints = [] ∧ { l'.less with preds := 0 } = { l.less with preds := 0 }) := by
  refine laneIssues_reg (fun _ => rfl) fun s w _ L hL _ hstep => ⟨_, rfl, ?_, ?_⟩
  · unfold Lane.setP
    split
    · split <;> exact hstep
    · split <;> exact hstep
  · have hbad := executing_not_bad (b := !upTo c.toNat 13 || p.toNat == 127) (fun _ _ => rfl) (fun _ _ => rfl) hL
    have hp : p.toNat + 1 < 128 := by
      have := p.isLt
      have hne : p.toNat ≠ 127 := by simpa using (Bool.or_eq_false_iff.mp hbad).2
      omega
    intro r
    obtain ⟨low, lows, regs, ⟨pc, hints⟩, rest⟩ := wrotePred_adv (w.lane L) (r 0) p.isLt
    obtain ⟨high, highs, regs', ⟨pc', hints'⟩, rest'⟩ := wrotePred_adv ((w.lane L).setP p.toNat (r 0)) (r 1) hp
    refine ⟨?_, ?_, ?_, ?_, ?_, ?_, ?_⟩
    · exact (highs _ (by omega)).trans low
    · exact high.trans (by simp)
    · exact fun k h0 h1 => (highs k h1).trans (lows k h0)
    · exact regs'.trans regs
    · exact pc'.trans (congrArg (· + 1) (by unfold Lane.setP; split <;> rfl))
    · exact hints'
    · exact rest'.trans rest

/-! ## PLOG and the predicate moves (R310, R311) -/

theorem plog_major (d a b : BitVec 7) (t : BitVec 4) : (encode (.plog d a b t)).extractLsb' 25 7 = 0x3A := by
  apply BitVec.eq_of_toNat_eq
  have := d.isLt
  have := a.isLt
  have := b.isLt
  have := t.isLt
  have henc : encode (.plog d a b t) = BitVec.ofNat 32 (0x74000000 + d.toNat * 0x40000 + a.toNat * 0x800 + b.toNat * 0x10 + t.toNat) := rfl
  rw [henc, BitVec.extractLsb'_toNat, BitVec.toNat_ofNat, Nat.shiftRight_eq_div_pow]
  show _ = 58
  omega

theorem getLsbD_high31 (k : Nat) : (0xFFFFFFFE#32).getLsbD k = decide (1 ≤ k ∧ k < 32) := by
  by_cases h : k < 32
  · interval_cases k <;> rfl
  · rw [BitVec.getLsbD_of_ge _ _ (not_lt.mp h)]
    simp [h]

theorem prd_writes (d : BitVec 7) (g : BitVec 2) :
    LaneIssues (.prd d g) (fun _ _ => { g := g.toNat, dsts := [(d.toNat, 1)] }) anyLane (fun _ _ _ l l' =>
      ∃ y : Word, Wrote l l' d.toNat y ∧ y.getLsbD 0 = false ∧ ∀ k, 1 ≤ k → k < 32 → y.getLsbD k = l.p k) :=
  laneIssues_done (fun _ _ l => l.preds.extractLsb' 0 32 &&& 0xFFFFFFFE#32) (fun _ => rfl) (fun _ _ => rfl) fun s x L l l' hw => by
    refine ⟨_, hw, by simp, fun k hk1 hk => ?_⟩
    have hk0 : (k == 0) = false := by simpa using Nat.ne_of_gt hk1
    simp [getLsbD_high31, Lane.p, hk, hk1, hk0]

theorem pwr_writes (a : BitVec 7) (e : BitVec 1) (g : BitVec 2) :
    LaneIssues (.pwr a e g) (fun _ _ => { g := g.toNat, srcs := [src a e] }) anyLane (fun _ _ _ l l' =>
      (∀ k, 1 ≤ k → k < 32 → l'.p k = (l.v a.toNat).getLsbD k) ∧ (∀ k, k = 0 ∨ 32 ≤ k → l'.p k = l.p k) ∧
        l'.regs = l.regs ∧ l'.pc = l.pc + 1 ∧ l'.hints = [] ∧ { l'.less with preds := 0 } = { l.less with preds := 0 }) := by
  refine laneIssues_reg (fun _ => rfl) fun s w _ L _ _ hstep => ⟨_, rfl, hstep, ?low, ?high, rfl, rfl, rfl, rfl⟩
  case low =>
    intro k hk1 hk
    have hk0 : (k == 0) = false := by simpa using Nat.ne_of_gt hk1
    show (k == 0 || (_ ++ _ : BitVec 128).getLsbD k) = _
    rw [BitVec.getLsbD_append, hk0]
    simp [getLsbD_high31, hk, hk1]
  case high =>
    intro k hk
    show (k == 0 || (_ ++ _ : BitVec 128).getLsbD k) = (k == 0 || _)
    obtain rfl | hk := hk
    · rfl
    · have hk' : ¬k < 32 := not_lt.mpr hk
      rw [BitVec.getLsbD_append]
      by_cases h : k < 128
      · have : k - 32 < 96 := by omega
        have e : 32 + (k - 32) = k := by omega
        simp [hk', this, e]
      · have : ¬k - 32 < 96 := by omega
        simp [hk', this, BitVec.getLsbD_of_ge _ _ (not_lt.mp h)]

/-- Settles O9: the compares and PLOG write predicates, and the predicate moves a register or predicates. -/
theorem comparesAndPredicates : Obligations.ComparesAndPredicates :=
  ⟨⟨icmp_writes (fun _ _ _ _ _ => rfl) fun _ _ => rfl, icmp_writes (fun _ _ _ _ _ => rfl) ordN_eq,
      fun p a b c => laneIssues_pred (fun l => fcmpRel fp32 c.toNat (ftzOf l.fpctl) (l.v a.toNat).toNat (l.v b.toNat).toNat) fun _ => rfl, hcmp2_writes⟩,
    fun d a b t => laneIssues_pred
      (fun l => t.getLsbD ((if l.p a.toNat then 2 else 0) + (if l.p b.toNat then 1 else 0))) fun s => by
        show execPlog d a b t s = _
        simp only [execPlog, b2n, mul_ite, mul_one, mul_zero],
    plog_major, rfl,
    fun d a e g => laneIssues_pred (fun l => decide (l.v a.toNat ≠ 0)) fun s => by
      show execV2p d a e g s = _
      simp only [execV2p, bne, ← Bool.beq_eq_decide_eq, decide_not],
    fun d a e g => laneIssues_done (fun _ _ l => if l.p a.toNat then 1 else 0) (fun _ => rfl) (fun _ _ => rfl) fun _ _ _ _ _ hw => hw,
    prd_writes, pwr_writes⟩

/-! ## Lane sets as masks -/

theorem getLsbD_lanesMask (k : Nat) (hk : k < 32) : ∀ E : List Nat, (lanesMask E).getLsbD k = decide (k ∈ E)
  | [] => by simp [lanesMask]
  | i :: E => by
    rw [lanesMask, BitVec.getLsbD_or, getLsbD_lanesMask k hk E]
    simp only [List.mem_cons, Bool.decide_or, BitVec.getLsbD_shiftLeft, BitVec.getLsbD_one, hk]
    obtain hlt | heq | hgt := lt_trichotomy k i
    · simp [hlt, hlt.ne]
    · simp [heq]
    · have : k - i ≠ 0 := by omega
      simp [hgt.not_gt, hgt.ne', this]

theorem getLsbD_lanesMask_filter (E : List Nat) (p : Nat → Bool) {k : Nat} (hk : k < 32) :
    (lanesMask (E.filter p)).getLsbD k = decide (k ∈ E ∧ p k = true) := by
  rw [getLsbD_lanesMask k hk, decide_eq_decide, List.mem_filter]

/-- Past five halvings of 32 no lane bit is left. -/
theorem partner_xw (L n : Nat) : partner 2 L n = L ^^^ (32 / 2 ^ n % 32) := by
  show L ^^^ (32 / 2 ^ min n 31 % 32) = _
  by_cases h : n ≤ 31
  · rw [min_eq_left h]
  · have hpow : 2 ^ 6 ≤ 2 ^ n := Nat.pow_le_pow_right two_pos (by omega)
    rw [min_eq_right (by omega), Nat.div_eq_of_lt (a := 32) (b := 2 ^ n) (by omega)]
    rfl

/-- Settles O10: each instruction writes one word of each executing lane, computed from the values of all of them. -/
theorem crossLane : Obligations.CrossLane := by
  unfold Obligations.CrossLane
  intro vote shfl
  have votes {ctor rel} (fn : Iss → Nat → (Nat → Word) → Word) (he : ∀ d a e g s, exec (ctor d a e g) s = voteOp fn d a e g s)
      (hrel : ∀ x L v, rel x.E v L (fn x L v)) : vote ctor rel := fun d a e g =>
    laneIssues_done (fun x L _ => fn x L (fun k => (x.l k).v a.toNat)) (he d a e g) (fun _ _ => rfl) fun _ _ _ _ _ hw => ⟨_, hrel _ _ _, hw⟩
  have shuffles {ctor from'} (kind : Nat) (he : ∀ d a b e f g s, exec (ctor d a b e f g) s = shflOp kind d a b e f g s)
      (hfrom : ∀ L n, partner kind L n = from' L n) : shfl ctor from' := fun d a b e f g =>
    laneIssues_done (fun x L l => if x.E.contains (partner kind L (l.v b.toNat).toNat)
      then (x.l (partner kind L (l.v b.toNat).toNat)).v a.toNat else l.v a.toNat) (he d a b e f g) (fun _ _ => rfl) fun _ _ _ _ _ hw => by
        simpa only [hfrom, List.contains_iff_mem] using hw
  clear_value vote shfl
  refine ⟨votes (fun i _ v => if i.E.all (fun k => v k != 0) then 1 else 0) (fun _ _ _ _ _ => rfl) fun x L v => ?all,
    votes (fun i _ v => if i.E.any (fun k => v k != 0) then 1 else 0) (fun _ _ _ _ _ => rfl) fun x L v => ?any,
    votes (fun i _ v => lanesMask (i.E.filter (fun k => v k != 0))) (fun _ _ _ _ _ => rfl) fun x L v k hk => ?ballot,
    votes (fun i L v => lanesMask (i.E.filter (fun k => v k == v L))) (fun _ _ _ _ _ => rfl) fun x L v k hk => ?matching,
    fun d g => laneIssues_done (fun x _ _ => lo32 x.E.length) (fun _ => rfl) (fun _ _ => rfl) fun _ _ _ _ _ hw => hw,
    shuffles 0 (fun _ _ _ _ _ _ _ => rfl) fun _ _ => rfl, shuffles 1 (fun _ _ _ _ _ _ _ => rfl) fun _ _ => rfl,
    shuffles 2 (fun _ _ _ _ _ _ _ => rfl) partner_xw,
    fun d a c e g => laneIssues_done (fun x L _ => ((reduceAll c.toNat (laneVals x a)).getD L none).getD 0) (fun _ => rfl) (fun _ _ => rfl)
      fun _ _ _ _ _ hw => hw,
    fun d a c e g => laneIssues_done (fun x L _ => scanOf c.toNat (laneVals x a) L) (fun _ => rfl) (fun _ _ => rfl) fun _ _ _ _ _ hw => hw⟩
  case all => simp only [List.all_eq_true, bne_iff_ne]
  case any => simp only [List.any_eq_true, bne_iff_ne]
  case ballot => simp only [getLsbD_lanesMask_filter _ _ hk, bne_iff_ne]
  case matching => simp only [getLsbD_lanesMask_filter _ _ hk, beq_iff_eq]

end Sys2Proof.Machine

/-!
PROOFS. Every step keeps memory in canonical form (O46): one lemma for each definition of the model that yields a state, in the order of the model,
and for each instruction; what leaves memory as it is by definition needs none.
-/

namespace Sys2Proof.Machine

/-- Whatever state the outcome gives keeps memory in canonical form. -/
def OutKeeps (s : State) (o : Out) : Prop := ∀ t, o = .next t → KeepsMem s t

theorem outKeeps_next {s t : State} (h : KeepsMem s t) : OutKeeps s (.next t) := fun _ e => by cases e; exact h

theorem KeepsMem.wf {s t : State} (h : KeepsMem s t) : Memory.wf s.mem = true → Memory.wf t.mem = true := h

theorem KeepsMem.ite {p : Prop} [Decidable p] {s a b : State} (ha : KeepsMem s a) (hb : KeepsMem s b) : KeepsMem s (if p then a else b) := by
  split
  · exact ha
  · exact hb

theorem keeps_updLane (s : State) (uid L : Nat) (f : Lane → Lane) : KeepsMem s (s.updLane uid L f) := fun hs => hs

theorem keeps_updWave (s : State) (uid : Nat) (f : Wave → Wave) : KeepsMem s (s.updWave uid f) := fun hs => hs

theorem keeps_updBar (s : State) (tid b : Nat) (f : Bar → Bar) : KeepsMem s (s.updBar tid b f) := fun hs => hs

theorem keeps_obtainBar (s : State) (q : Who) (x : Sync) : KeepsMem s (s.obtainBar q x) := fun hs => hs

theorem keeps_block (s : State) (uid L : Nat) (b : Wait) : KeepsMem s (s.block uid L b) := fun hs => hs

theorem keeps_release (s : State) (qs : List Who) (scope : Nat) (xs : List Sync) : KeepsMem s (s.release qs scope xs) := fun hs => hs

theorem keeps_goOn (s : State) (i : Iss) (L : Nat) (dst : Nat × Nat) : KeepsMem s (s.goOn i L dst) := fun hs => hs

theorem keeps_addLand (s : State) (uid L r : Nat) (ws : List Word) (due : Nat) (pc : Word) (x : Bool) :
    KeepsMem s (s.addLand uid L r ws due pc x) := fun hs => hs

theorem keeps_advAll (i : Iss) (s : State) : KeepsMem s (advAll i s) := fun hs => hs

/-! ## Access -/

theorem movedBytes_keeps (s : State) (c pa n : Nat) : KeepsMem s (s.movedBytes c pa n) := by
  unfold State.movedBytes
  intro hs
  split <;> exact hs

/-! ## Trans -/

theorem movedVa_keeps (c : Nat) : ∀ (n : Nat) (s : State) (va k : Nat), KeepsMem s (s.movedVa c n va k)
  | 0, s, _, _ => .refl s
  | n + 1, s, va, k => by
    unfold State.movedVa
    dsimp only
    split
    · exact .refl s
    · split
      · exact (movedBytes_keeps s _ _ _).trans (movedVa_keeps c n _ _ _)
      · exact movedVa_keeps c n _ _ _

/-! ## Views -/

theorem xfenceTrav_keeps (s : State) (qs : List Who) : KeepsMem s (s.xfenceTrav qs) := by
  unfold State.xfenceTrav
  intro hs
  refine KeepsMem.fold _ (fun s a => ?_) _ _ ?_
  · intro hs
    exact hs
  · exact hs

/-! ## Ring -/

theorem noteLost_keeps (s : State) (c va : Nat) : KeepsMem s (s.noteLost c va) := by
  unfold State.noteLost
  intro hs
  split
  · exact (machineCheck_posted _ _ _ _ _ _).wf hs
  · exact hs

theorem raiseFault_keeps (s : State) (c cause kind va die core slot : Nat) (lanes pc : Word) (obj : Nat) (who : FaultWho) :
    KeepsMem s (s.raiseFault c cause kind va die core slot lanes pc obj who).2 :=
  (raiseFault_posted s c cause kind va die core slot lanes pc obj who).2.wf

/-! ## Ops -/

theorem exitTickets_keeps (s : State) (tid : Nat) : KeepsMem s (s.exitTickets tid) := by
  unfold State.exitTickets
  intro hs
  dsimp only
  split
  · split <;> exact hs
  · exact hs

/-! ## Special -/

theorem prodBody_keeps (sfu : Bool) (f : State → Iss → Nat → Lane → PRes) (i : Iss) (s : State) : KeepsMem s (prodBody sfu f i s).1 := by
  unfold prodBody
  intro hs
  refine KeepsMem.fold _ (fun s a => ?_) _ _ ?_
  · intro hs
    split <;> exact hs
  · exact hs

/-! ## Order -/

theorem wrSeen_keeps (s : State) (qs : List Who) (pa : Nat) (bs : List Byte) : KeepsMem s (s.wrSeen qs pa bs) := by
  unfold State.wrSeen
  intro hs
  refine KeepsMem.fold _ (fun s a => ?_) _ _ ?_
  · intro hs
    exact hs
  · exact (wrBytes_posted _ _ _).wf hs

theorem both_keeps {p q : State → Iss → Option State} (hp : ∀ s i t, p s i = some t → KeepsMem s t)
    (hq : ∀ s i t, q s i = some t → KeepsMem s t) (s : State) (i : Iss) (t : State) (h : both p q s i = some t) : KeepsMem s t := by
  unfold both at h
  split at h
  · rename_i hs1
    cases h
    exact hp _ _ _ hs1
  · exact hq _ _ _ h

theorem waitBefore_keeps (mk : State → Iss → Nat → Option Acc) (s : State) (i : Iss) (t : State) (h : waitBefore mk s i = some t) : KeepsMem s t :=
  waitIf_keeps _ s i t h

theorem waitQuiet_keeps (p : Acc → Bool) (s : State) (i : Iss) (t : State) (h : waitQuiet p s i = some t) : KeepsMem s t :=
  waitIf_keeps _ s i t h

/-! ## Stack -/

theorem wbWrite_keeps {s t : State} {c va : Nat} {bs : List Byte} (h : s.wbWrite c va bs = .ok t) : KeepsMem s t := by
  unfold State.wbWrite at h
  intro hs
  split at h
  · cases h
    rename_i h
    exact movedVa_keeps _ _ _ _ _ ((engWr_posted h).wf hs)
  · cases h
  · cases h

theorem wbFrames_keeps (k : Stack) : ∀ (Ls : List Nat) (s t : State), s.wbFrames k Ls = .ok t → KeepsMem s t
  | [], s, t, h => by cases h; exact .refl s
  | L :: r, s, t, h => by
    unfold State.wbFrames at h
    split at h
    · rename_i h1
      exact (wbWrite_keeps h1).trans (wbFrames_keeps k r _ _ h)
    · exact wbWrite_keeps h

theorem writeBack_keeps (s t : State) (k : Stack) (status : Nat) (h : s.writeBack k status = .ok t) : KeepsMem s t := by
  unfold State.writeBack at h
  split at h
  · rename_i h1
    exact (wbWrite_keeps h1).trans (wbFrames_keeps k _ _ _ h)
  · exact wbWrite_keeps h

theorem stackFault_keeps (s : State) (k : Stack) (cause kind va : Nat) (who : FaultWho) : KeepsMem s (s.stackFault k cause kind va who) := by
  unfold State.stackFault
  intro hs
  exact (faultPut_posted _ _ _).wf (noteLost_keeps _ _ _ hs)

theorem wbFault_keeps (s : State) (k : Stack) (va : Nat) (kind : Nat) : KeepsMem s (s.wbFault k va kind) := by
  unfold State.wbFault
  intro hs
  exact stackFault_keeps _ _ _ _ _ _ hs

theorem parkStack_keeps (s : State) (k : Stack) (va : Nat) : KeepsMem s (s.parkStack k va) := by
  unfold State.parkStack
  intro hs
  split
  · rename_i h
    exact stackFault_keeps _ _ _ _ _ _ ((writeBack_keeps _ _ _ _ h).wf hs)
  · exact wbFault_keeps _ _ _ _ hs
  · exact hs

theorem payHdr_keeps (s : State) (k : Stack) : KeepsMem s (s.payHdr k).2 := by
  unfold State.payHdr
  intro hs
  split
  · exact hs
  · split
    · split
      · rename_i h
        split at h
        · rename_i h1 _ _ _ _ _
          exact (wbWrite_keeps h).wf ((wbWrite_keeps h1).wf hs)
        · cases h
          rename_i h _ _ _
          exact (wbWrite_keeps h).wf hs
      · exact wbFault_keeps _ _ _ _ hs
      · exact hs
    · exact wbFault_keeps _ _ _ _ hs
    · exact hs

theorem sleepStacks_keeps (s : State) (c : Nat) : KeepsMem s (s.sleepStacks c) := by
  unfold State.sleepStacks
  intro hs
  refine KeepsMem.fold _ (fun s a => ?_) _ _ ?_
  · intro hs
    split
    · rename_i h
      exact (writeBack_keeps _ _ _ _ h).wf hs
    · exact wbFault_keeps _ _ _ _ hs
    · exact hs
  · exact hs

theorem restartStack_keeps (s : State) (k : Stack) : KeepsMem s (s.restartStack k) := by
  unfold State.restartStack
  intro hs
  split <;> exact hs

/-! ## Timetable -/

theorem tierAsk_keeps (s : State) (d c va : Nat) (fetch stall : Bool) : KeepsMem s (s.tierAsk d c va fetch stall) := by
  unfold State.tierAsk
  intro hs
  dsimp only
  split <;> exact hs

theorem ttRequest_keeps (s : State) (g : Grid) (e : TtEnt) : KeepsMem s (s.ttRequest g e) := by
  unfold State.ttRequest
  intro hs
  refine KeepsMem.fold _ (fun s a => ?_) _ _ ?_
  · intro hs
    split
    · split
      · exact hs
      · exact tierAsk_keeps _ _ _ _ _ _ hs
    · exact hs
  · exact hs

theorem fireTt_keeps (s : State) (gid : Nat) (retire : Bool) : KeepsMem s (s.fireTt gid retire) := by
  unfold State.fireTt
  intro hs
  dsimp only
  split
  · exact hs
  · split
    · exact hs
    · split
      · exact hs
      · refine KeepsMem.fold _ (fun s a => ?_) _ _ ?_
        · intro hs
          split
          · exact ttRequest_keeps _ _ _ hs
          · exact hs
        · exact hs

/-! ## Control -/

theorem jumpOp_keeps (a : BitVec 7) (e : BitVec 1) (g : BitVec 2) (s : State) : KeepsMem s (jumpOp a e g s) := by
  unfold jumpOp
  intro hs
  exact regIssue_keeps _ _ _ hs

theorem laneExits_keeps (s : State) (i : Iss) (L : Nat) : KeepsMem s (s.laneExits i L) := by
  unfold State.laneExits
  intro hs
  dsimp only
  split
  · refine (faultTeam_ran _ _).wf ?_
    split <;> exact hs
  · split <;> exact hs

theorem afterExit_keeps (s : State) (i : Iss) : KeepsMem s (s.afterExit i) := by
  unfold State.afterExit
  intro hs
  exact fireTt_keeps _ _ _ ((checkStuck_ran _ _).wf ((endHandler_ran _ _).wf (exitTickets_keeps _ _ hs)))

theorem execExit_keeps (s : State) : OutKeeps s (execExit s) := by
  unfold execExit
  refine outKeeps_next ?_
  intro hs
  refine issueForced_keeps _ _ _ _ ?_ ?_ ?_
  · intro s i t h hs
    exact (never_keeps _ _ _ h).wf hs
  · intro i s hs
    refine afterExit_keeps _ _ ?_
    refine KeepsMem.fold _ (fun s a => ?_) _ _ ?_
    · intro hs
      exact laneExits_keeps _ _ _ hs
    · exact hs
  · exact hs

theorem execWsyncRelease_keeps (s : State) : OutKeeps s (execWsyncRelease s) := by
  unfold execWsyncRelease
  refine outKeeps_next ?_
  intro hs
  dsimp only
  split
  · exact hs
  · split
    · exact hs
    · exact (stepHalt_ran _ _).wf hs

theorem execYield_keeps (s : State) : OutKeeps s (execYield s) := by
  unfold execYield
  refine outKeeps_next ?_
  intro hs
  refine issue_keeps _ _ ?_ ?_ ?_
  · intro s i t h hs
    exact (never_keeps _ _ _ h).wf hs
  · intro i s hs
    exact hs
  · exact hs

theorem execSleep_keeps (a : BitVec 7) (s : State) : OutKeeps s (execSleep a s) := by
  unfold execSleep
  refine outKeeps_next ?_
  intro hs
  refine issue_keeps _ _ ?_ ?_ ?_
  · intro s i t h hs
    exact (waitIf_keeps _ _ _ _ h).wf hs
  · intro i s hs
    exact hs
  · exact hs

theorem execSleepExpiry_keeps (s : State) : OutKeeps s (execSleepExpiry s) := by
  unfold execSleepExpiry
  refine outKeeps_next ?_
  intro hs
  dsimp only
  split
  · exact hs
  · exact (stepHalt_ran _ _).wf hs

theorem hintOp_keeps (major : Nat) (pay : BitVec 25) (s : State) : KeepsMem s (hintOp major pay s) := by
  unfold hintOp
  intro hs
  exact regIssue_keeps _ _ _ hs

/-! ## Score -/

theorem setSs_keeps (s : State) (x : SsStatus) : KeepsMem s (s.setSs x) := by
  unfold State.setSs
  intro hs
  dsimp only
  split
  · exact (wr_posted _ _ _ _).wf hs
  · exact hs

theorem ssFlushGo_keeps (die : Nat) : ∀ (rs : List (BitVec 128)) (s : State), KeepsMem s (s.ssFlushGo die rs).1
  | [], s => .refl s
  | r :: rs, s => by
    unfold State.ssFlushGo
    split
    · rename_i h
      exact (ringPut_posted (.inl h)).keeps.trans (ssFlushGo_keeps die rs _)
    · exact .refl s

theorem ssFlush_keeps (s : State) (die : Nat) : KeepsMem s (s.ssFlush die) := by
  unfold State.ssFlush
  intro hs
  exact ssFlushGo_keeps _ _ _ hs

theorem ssAppend_keeps (s : State) (die : Nat) (r : BitVec 128) : KeepsMem s (s.ssAppend die r) := by
  unfold State.ssAppend
  intro hs
  exact ssFlush_keeps _ _ hs

theorem ssReach_keeps (s : State) (die : Nat) : KeepsMem s (s.ssReach die) := by
  unfold State.ssReach
  intro hs
  dsimp only
  split
  · split
    · split
      · exact setSs_keeps _ _ hs
      · exact hs
    · exact hs
  · exact hs

theorem ssHold_keeps (s : State) (key : Nat) (p : SsPoint) : KeepsMem s (s.ssHold key p) := by
  unfold State.ssHold
  intro hs
  dsimp only
  split <;> exact hs

theorem ssGate_keeps (s : State) (logged : Bool) (die : Nat) (p : SsPoint) : KeepsMem s (s.ssGate logged die p).2 := by
  unfold State.ssGate
  intro hs
  dsimp only
  split
  · exact hs
  · split
    · split
      · exact ssFlush_keeps _ _ hs
      · exact ssAppend_keeps _ _ _ (ssFlush_keeps _ _ hs)
    · split
      · exact hs
      · split
        · split
          · exact ssReach_keeps _ _ hs
          · exact ssHold_keeps _ _ _ hs
        · exact ssHold_keeps _ _ _ hs
    · exact hs

theorem ssDiverge_keeps (s : State) (die cause unit : Nat) : KeepsMem s (s.ssDiverge die cause unit) := by
  unfold State.ssDiverge
  intro hs
  exact setSs_keeps _ _ ((streamPut_posted _ _ _ _).wf hs)

theorem ssReadGo_keeps (die slots count : Nat) : ∀ (n : Nat) (s : State) (rel : Nat), KeepsMem s (s.ssReadGo die slots count n rel).1
  | 0, s, _ => .refl s
  | n + 1, s, rel => by
    unfold State.ssReadGo
    dsimp only
    split
    · exact .refl s
    · split
      · exact ssDiverge_keeps s _ _ _
      · split
        · exact fun hs => ssReach_keeps _ _ hs
        · exact fun hs => ssReadGo_keeps die slots count n _ _ hs

theorem ssRead_keeps (s : State) (die : Nat) : KeepsMem s (s.ssRead die) := by
  have hread (slots count n rel : Nat) := ssReadGo_keeps die slots count n s rel
  unfold State.ssRead
  generalize State.ssReadGo s die = f at hread ⊢
  extract_lets h hdr avail
  clear_value avail hdr h
  refine .ite (.refl s) ?_
  refine .ite (.refl s) ?_
  have hrd := hread hdr.slots hdr.count avail hdr.relidx
  generalize f _ _ _ _ = x at hrd ⊢
  obtain ⟨s1, rel⟩ := x
  exact hrd.trans (wr_posted s1 (h + 8) 8 rel).keeps

/-! ## MemOp -/

theorem fillLine_keeps (s : State) (type pa : Nat) : KeepsMem s (s.fillLine type pa) := by
  unfold State.fillLine
  intro hs
  split <;> exact hs

theorem fillL2_keeps (s : State) (a : Acc) : KeepsMem s (s.fillL2 a) := by
  unfold State.fillL2
  intro hs
  split
  · exact hs
  · exact fillLine_keeps _ _ _ hs

theorem askWalk_keeps (s : State) (die c page uid : Nat) : KeepsMem s (s.askWalk die c page uid) := .of_eq (askWalk_mem s die c page uid)

theorem addAccAt_keeps (s : State) (i : Iss) (L : Nat) (scope : BitVec 3) (a : Acc) : KeepsMem s (s.addAccAt i L scope a) := by
  unfold State.addAccAt
  dsimp only
  split <;> exact .refl s

theorem addAcc_keeps (s : State) (i : Iss) (L : Nat) (a : Acc) : KeepsMem s (s.addAcc i L a) := .of_eq (addAcc_mem s i L a).1

/-- The pieces that are passed change no byte; when one is held back, the state is as before but for what is held. -/
theorem passGo_keeps (i : Iss) : ∀ (ws : List Whole) (s0 s : State), KeepsMem s0 s → KeepsMem s0 (s0.passGo s i ws).2
  | [], _, _, h => h
  | x :: r, s0, s, h => by
    unfold State.passGo
    dsimp only
    split
    · exact passGo_keeps i r s0 _ (h.trans (movedBytes_keeps s _ _ _))
    · split
      · exact passGo_keeps i r s0 _ (h.trans ((ssGate_keeps s _ _ _).trans ((keeps_updLane _ _ _ _).trans (movedBytes_keeps _ _ _ _))))
      · exact .refl s0

theorem passed_keeps (s : State) (i : Iss) (ws : List Whole) : KeepsMem s (s.passed i ws) := passGo_keeps i ws s s (.refl s)

theorem sawAll_keeps (s : State) (i : Iss) (ord : Ord) (ws : List Whole) : KeepsMem s (s.sawAll i ord ws) := by
  unfold State.sawAll
  intro hs
  refine KeepsMem.fold _ (fun s a => ?_) _ _ ?_
  · intro hs
    exact fillLine_keeps _ _ _ hs
  · exact hs

theorem seen_keeps (s : State) (i j : Iss) (ord : Ord) (ws ws' : List Whole) : KeepsMem s ((s.passed i ws).sawAll j ord ws') := fun hs =>
  sawAll_keeps _ _ _ _ (passed_keeps s i ws hs)

theorem waitPieces_keeps (op : AccOp) (ord : Ord) (ws : State → Iss → List Whole) (s : State) (i : Iss) (t : State)
    (h : waitPieces op ord ws s i = some t) : KeepsMem s t := waitIf_keeps _ s i t h

theorem waitWholes_keeps (ws : State → Iss → List Whole) (s : State) (i : Iss) (t : State) (h : waitWholes ws s i = some t) : KeepsMem s t := by
  unfold waitWholes at h
  dsimp only at h
  split at h
  · cases h
  · cases h
    exact passGo_keeps i _ s s (.refl s)

theorem waitList_keeps (r : BitVec 4) (off : Iss → Nat → Nat) (n : Nat) (s : State) (i : Iss) (t : State) (h : waitList r off n s i = some t) :
    KeepsMem s t := waitIf_keeps _ s i t h

theorem landFor_keeps (s : State) (a : Acc) (d : Nat) (vals : List Word) (due : Nat) (home : Bool) : KeepsMem s (s.landFor a d vals due home) := by
  unfold State.landFor
  intro hs
  split <;> exact hs

/-! ## Queue -/

theorem setStatus_keeps (s : State) (q code : Nat) : KeepsMem s (s.setStatus q code) := by
  unfold State.setStatus
  intro hs
  dsimp only
  split
  · rename_i h
    exact (engWr_posted h).wf hs
  · exact hs

theorem haltQueue_keeps (s : State) (q code slot : Nat) : KeepsMem s (s.haltQueue q code slot) := by
  unfold State.haltQueue
  intro hs
  refine (event_posted _ _ _ _ _ _).wf (setStatus_keeps _ _ _ ?_)
  split
  · exact noteLost_keeps _ _ _ hs
  · exact hs

theorem countPresent_keeps (s : State) (q : Nat) : KeepsMem s (s.countPresent q) := by
  unfold State.countPresent
  intro hs
  dsimp only
  split <;> exact hs

theorem readHeader_keeps (s : State) (q : Nat) : KeepsMem s (s.readHeader q) := by
  unfold State.readHeader
  intro hs
  dsimp only
  split
  · exact hs
  · exact haltQueue_keeps _ _ _ _ hs
  · split
    · rename_i h _
      exact haltQueue_keeps _ _ _ _ ((engRd_posted h).wf hs)
    · split
      · split
        · exact hs
        · rename_i h _ _ _ _ _
          exact haltQueue_keeps _ _ _ _ ((engRd_posted h).wf hs)
        · split
          · rename_i h _ _ _ _ _ h1 _
            exact countPresent_keeps _ _ ((engRd_posted h1).wf ((engRd_posted h).wf hs))
          · rename_i h _ _ _ _ _ h1 _
            exact haltQueue_keeps _ _ _ _ ((engRd_posted h1).wf ((engRd_posted h).wf hs))
      · rename_i h _ _
        exact (engRd_posted h).wf hs

theorem consume_keeps (s : State) (q slot : Nat) (t : State) (h : s.consume q slot = .ok t) : KeepsMem s t := by
  unfold State.consume at h
  intro hs
  dsimp only at h
  split at h
  · split at h
    · cases h
      rename_i h _ _ h1
      exact (engWr_posted h1).wf ((wrBytes_posted _ _ _).wf ((engXlate_posted h).wf hs))
    · cases h
    · cases h
  · cases h
  · cases h

theorem dispatch_keeps (s : State) (q slot : Nat) (p : Pkt) (gid : Nat) (tid : Option Nat) (st : OutSt) : KeepsMem s (s.dispatch q slot p gid tid st) := by
  unfold State.dispatch
  intro hs
  split
  · rename_i h
    exact (consume_keeps _ _ _ _ h).wf hs
  · exact haltQueue_keeps _ _ _ _ hs
  · exact hs

theorem counterOp_keeps (s : State) (c i gid : Nat) (set : Bool) (v : Nat) (t : State) (h : s.counterOp c i gid set v = .ok t) : KeepsMem s t := by
  unfold State.counterOp at h
  intro hs
  split at h
  · cases h
    rename_i h
    exact (wr_posted _ _ _ _).wf ((engXlate_posted h).wf hs)
  · cases h
  · cases h

theorem afterWait_keeps (s : State) (c i : Nat) (k : Sync) : KeepsMem s (s.afterWait c i k) := by
  unfold State.afterWait
  intro hs
  split <;> exact hs

theorem afterRecord_keeps (s : State) (o : OutPkt) (status : BitVec 8) (units : Nat) : KeepsMem s (s.afterRecord o status units) := by
  unfold State.afterRecord
  intro hs
  dsimp only
  split
  · split
    · split
      · rename_i h _
        exact (event_posted _ _ _ _ _ _).wf ((counterOp_keeps _ _ _ _ _ _ _ h).wf hs)
      · rename_i h _
        exact (counterOp_keeps _ _ _ _ _ _ _ h).wf hs
    · exact hs
    · split
      · split
        · exact (event_posted _ _ _ _ _ _).wf hs
        · exact hs
      · exact haltQueue_keeps _ _ _ _ hs
  · split
    · exact (event_posted _ _ _ _ _ _).wf hs
    · exact hs

theorem completeOut_keeps (s : State) (o : OutPkt) (status : BitVec 8) (units : Nat) : KeepsMem s (s.completeOut o status units) := by
  unfold State.completeOut
  split
  · split
    · rename_i h
      exact (ringPut_posted (.inl h)).keeps.trans fun hs => afterRecord_keeps _ _ _ _ hs
    · rename_i h
      exact (ringPut_posted (.inr h)).keeps.trans fun hs => hs
    · exact fun hs => haltQueue_keeps _ _ _ _ hs
  · exact afterRecord_keeps _ _ _ _

theorem endBatch_keeps (s : State) (o : OutPkt) (t : State) (h : s.endBatch o = .ok t) : KeepsMem s t := by
  unfold State.endBatch at h
  intro hs
  split at h
  · split at h
    · cases h
      exact hs
    · split at h
      · cases h
        rename_i h
        exact (engWr_posted h).wf hs
      · cases h
      · cases h
  · cases h
    exact hs

theorem execPacketCompletion_keeps (s : State) : OutKeeps s (execPacketCompletion s) := by
  unfold execPacketCompletion
  refine outKeeps_next ?_
  intro hs
  split
  · exact hs
  · split
    · split
      · rename_i h
        exact completeOut_keeps _ _ _ _ ((endBatch_keeps _ _ _ h).wf hs)
      · exact haltQueue_keeps _ _ _ _ hs
      · exact hs
    · split
      · exact afterRecord_keeps _ _ _ _ hs
      · exact hs
    · exact hs

theorem execCompletionRingSpace_keeps (s : State) : OutKeeps s (execCompletionRingSpace s) := by
  unfold execCompletionRingSpace
  refine outKeeps_next ?_
  intro hs
  split
  · exact hs
  · split
    · exact completeOut_keeps _ _ _ _ hs
    · exact hs

theorem restartOuts_keeps (s : State) (q : Nat) (skip : Bool) : KeepsMem s (s.restartOuts q skip) := by
  unfold State.restartOuts
  intro hs
  refine KeepsMem.fold _ (fun s a => ?_) _ _ ?_
  · intro hs
    split
    · split
      · exact hs
      · split
        · rename_i h
          exact completeOut_keeps _ _ _ _ ((endBatch_keeps _ _ _ h).wf hs)
        · exact haltQueue_keeps _ _ _ _ hs
        · exact hs
    · split
      · exact hs
      · exact afterRecord_keeps _ _ _ _ hs
    · exact hs
    · exact hs
  · exact hs

theorem retryAt_keeps (s : State) (k : Nat) : KeepsMem s (s.retryAt k) := by
  unfold State.retryAt
  split
  · exact .refl s
  · split
    · rename_i h
      exact (retryWait_posted (.inl h)).wf
    · rename_i h
      exact (retryWait_posted (.inr h)).wf
    · exact .refl s

theorem execEventRingSpace_keeps (s : State) : OutKeeps s (execEventRingSpace s) := by
  unfold execEventRingSpace
  refine outKeeps_next ?_
  intro hs
  split
  · split
    · exact hs
    · exact retryAt_keeps _ _ hs
  · exact hs

theorem execFaultRingSpace_keeps (s : State) : OutKeeps s (execFaultRingSpace s) := by
  unfold execFaultRingSpace
  refine outKeeps_next ?_
  intro hs
  split
  · split
    · exact retryAt_keeps _ _ hs
    · exact hs
  · exact hs

/-! ## Grid -/

theorem noteBegin_keeps (s : State) (g : Grid) (tt : Option (List (BitVec 256))) : KeepsMem s (s.noteBegin g tt) := by
  unfold State.noteBegin
  intro hs
  refine (trace_posted _ _ _ _ _ _ _ _ _ _).wf ?_
  dsimp only
  split <;> exact hs

theorem beginGrid_ok_keeps (s t : State) (g : Grid) (h : s.beginGrid g = .ok t) : KeepsMem s t := by
  unfold State.beginGrid at h
  intro hs
  dsimp only at h
  split at h
  · cases h
    exact hs
  · split at h
    · cases h
    · split at h
      · cases h
      · split at h
        · split at h
          · cases h
            rename_i h
            exact (consume_keeps _ _ _ _ h).wf (noteBegin_keeps _ _ _ (ssGate_keeps _ _ _ _ hs))
          · cases h
          · cases h
        · cases h
          exact noteBegin_keeps _ _ _ (ssGate_keeps _ _ _ _ hs)
        · cases h
          exact noteBegin_keeps _ _ _ (ssGate_keeps _ _ _ _ hs)
      · split at h
        · split at h
          · cases h
          · cases h
          · cases h
        · cases h
        · cases h

theorem beginGrid_over_keeps (s t : State) (g : Grid) (h : s.beginGrid g = .over t) : KeepsMem s t := by
  unfold State.beginGrid at h
  intro hs
  dsimp only at h
  split at h
  · cases h
  · split at h
    · cases h
    · split at h
      · cases h
      · split at h
        · split at h
          · cases h
          · cases h
            exact haltQueue_keeps _ _ _ _ hs
          · cases h
        · cases h
        · cases h
      · split at h
        · split at h
          · cases h
            rename_i h
            exact (consume_keeps _ _ _ _ h).wf (noteBegin_keeps _ _ _ (ssGate_keeps _ _ _ _ hs))
          · cases h
            exact haltQueue_keeps _ _ _ _ hs
          · cases h
        · cases h
          exact noteBegin_keeps _ _ _ (ssGate_keeps _ _ _ _ hs)
        · cases h
          exact noteBegin_keeps _ _ _ (ssGate_keeps _ _ _ _ hs)

theorem beginGrid_wait_keeps (s t : State) (g : Grid) (h : s.beginGrid g = .wait t) : KeepsMem s t := by
  unfold State.beginGrid at h
  intro hs
  dsimp only at h
  split at h
  · cases h
  · split at h
    · cases h
      exact ssGate_keeps _ _ _ _ hs
    · split at h
      · cases h
        exact hs
      · split at h
        · split at h
          · cases h
          · cases h
          · cases h
            exact hs
        · cases h
        · cases h
      · split at h
        · split at h
          · cases h
          · cases h
          · cases h
            exact hs
        · cases h
        · cases h

theorem startAfter_keeps (s : State) (t : Team) (ws : List Wave) : KeepsMem s (s.startAfter t ws) := by
  unfold State.startAfter
  intro hs
  dsimp only
  split
  · exact hs
  · exact hs
  · refine KeepsMem.fold _ (fun s a => ?_) _ _ ?_
    · intro hs
      refine KeepsMem.fold _ (fun s a => ?_) _ _ ?_
      · intro hs
        split <;> exact hs
      · exact hs
    · exact hs

theorem putTeam_keeps (s : State) (t : Team) (ws : List Wave) : KeepsMem s (s.putTeam t ws) := by
  unfold State.putTeam
  intro hs
  exact (traceTeam_posted _ _ _ _ _).wf (startAfter_keeps _ _ _ hs)

theorem dealGate_keeps (g : Grid) : ∀ (ds : List (Deal × (Nat × Nat))) (s : State), KeepsMem s (s.dealGate g ds).2
  | [], s => .refl s
  | (d, (die, c)) :: r, s => by
    unfold State.dealGate
    dsimp only
    split
    · exact (ssGate_keeps s _ _ _).trans (dealGate_keeps g r _)
    · exact ssGate_keeps s _ _ _

theorem noteDealt_keeps (s : State) (g : Grid) : KeepsMem s (s.noteDealt g) := by
  unfold State.noteDealt
  intro hs
  split <;> exact hs

theorem putDeal_keeps (s : State) (g : Grid) (ps : List (Deal × (Nat × Nat))) : KeepsMem s (s.putDeal g ps) := by
  unfold State.putDeal
  intro hs
  refine noteDealt_keeps _ _ ?_
  refine KeepsMem.fold _ (fun s a => ?_) _ _ ?_
  · intro hs
    exact putTeam_keeps _ _ _ hs
  · split <;> exact hs

theorem deal_keeps (s : State) (gid : Nat) : KeepsMem s (s.deal gid) := by
  unfold State.deal
  dsimp only
  split
  · exact .refl s
  · split
    · exact .refl s
    · split
      · exact .refl s
      · split
        · rename_i h
          exact beginGrid_wait_keeps _ _ _ h
        · rename_i h
          exact beginGrid_over_keeps _ _ _ h
        · rename_i h
          refine (beginGrid_ok_keeps _ _ _ h).trans ?_
          split
          · exact .refl _
          · split
            · exact .refl _
            · split
              all_goals
                split
                · exact (dealGate_keeps _ _ _).trans (putDeal_keeps _ _ _)
                · exact fun hs => hs

theorem execJobDeal_keeps (s : State) : OutKeeps s (execJobDeal s) := by
  unfold execJobDeal
  refine outKeeps_next ?_
  intro hs
  split
  · split
    · exact deal_keeps _ _ hs
    · exact hs
  · exact hs

theorem execGridDeal_keeps (s : State) : OutKeeps s (execGridDeal s) := by
  unfold execGridDeal
  refine outKeeps_next ?_
  intro hs
  split
  · split
    · exact hs
    · exact deal_keeps _ _ hs
  · exact hs

/-! ## Sched -/

theorem orBits_keeps (g : Grid) : ∀ (k : Nat) (s : State) (j : Nat), KeepsMem s (s.orBits g j k).1
  | 0, s, _ => .refl s
  | k + 1, s, j => by
    unfold State.orBits
    split
    · rename_i h
      exact ((engXlate_posted h).keeps.trans (wr_posted _ _ _ _).keeps).trans (orBits_keeps g k _ _)
    · exact .refl s
    · exact .refl s

theorem setBits_keeps (s t : State) (gid die j n : Nat) (h : s.setBits gid die j n = some t) : KeepsMem s t := by
  unfold State.setBits at h
  split at h
  · cases h; exact .refl s
  · rename_i g _
    have hor := orBits_keeps g n s j
    split at h
    · rename_i hb
      cases h
      rw [hb] at hor
      exact hor
    · cases h
    · rename_i hb
      cases h
      rw [hb] at hor
      exact hor.trans (raiseFault_keeps _ _ _ _ _ _ _ _ _ _ _ _)

theorem endRoutines_keeps (s : State) (tid : Nat) : KeepsMem s (s.endRoutines tid) := by
  unfold State.endRoutines
  intro hs
  refine KeepsMem.fold _ (fun s a => ?_) _ _ ?_
  · intro hs
    split
    · split <;> exact hs
    · exact hs
  · exact hs

theorem dropWaves_keeps (s : State) (tid : Nat) : KeepsMem s (s.dropWaves tid) := by
  unfold State.dropWaves
  intro hs
  exact endRoutines_keeps _ _ hs

theorem preempted_keeps (s : State) (t : Team) (how : Nat) : KeepsMem s (s.preempted t how) := by
  unfold State.preempted
  intro hs
  exact (traceTeam_posted _ _ _ _ _).wf ((event_posted _ _ _ _ _ _).wf hs)

theorem noteSuspended_keeps (s : State) (c : Nat) : KeepsMem s (s.noteSuspended c) := by
  unfold State.noteSuspended
  intro hs
  split
  · exact sleepStacks_keeps _ _ hs
  · exact hs

theorem retireTeam_keeps (s : State) (t : Team) : KeepsMem s (s.retireTeam t) := by
  unfold State.retireTeam
  intro hs
  refine noteSuspended_keeps _ _ (fireTt_keeps _ _ _ (dropWaves_keeps _ _ ?_))
  split
  · exact preempted_keeps _ _ _ ((traceTeam_posted _ _ _ _ _).wf hs)
  · exact (traceTeam_posted _ _ _ _ _).wf hs

theorem execTeamRetire_keeps (s : State) : OutKeeps s (execTeamRetire s) := by
  unfold execTeamRetire
  refine outKeeps_next ?_
  intro hs
  dsimp only
  split
  · exact hs
  · split
    · exact hs
    · split
      · exact retireTeam_keeps _ _ (exitTickets_keeps _ _ hs)
      · split
        · rename_i h
          exact retireTeam_keeps _ _ ((setBits_keeps _ _ _ _ _ _ h).wf (exitTickets_keeps _ _ hs))
        · exact exitTickets_keeps _ _ hs

theorem retryBits_keeps (s : State) (g : Grid) (w : BitmapWait) : KeepsMem s (s.retryBits g w) := by
  unfold State.retryBits
  generalize hb : State.setBits _ g.gid w.die w.first w.count = o
  cases o with
  | none => exact .refl s
  | some t => exact fun hs => setBits_keeps _ _ _ _ _ _ hb hs

theorem execGridRetire_keeps (s : State) : OutKeeps s (execGridRetire s) := by
  unfold execGridRetire
  refine outKeeps_next ?_
  intro hs
  dsimp only
  split
  · exact hs
  · split
    · exact retryBits_keeps _ _ _ hs
    · split
      · exact hs
      · split
        · split <;> exact (trace_posted _ _ _ _ _ _ _ _ _ _).wf (fireTt_keeps _ _ _ hs)
        · split <;> exact (trace_posted _ _ _ _ _ _ _ _ _ _).wf (fireTt_keeps _ _ _ hs)
        · dsimp only
          split <;> exact (trace_posted _ _ _ _ _ _ _ _ _ _).wf (fireTt_keeps _ _ _ hs)

theorem startLeave_keeps (s : State) (ts : List Team) (c : Claimant) : KeepsMem s (s.startLeave ts c) := by
  unfold State.startLeave
  intro hs
  refine KeepsMem.fold _ (fun s a => ?_) _ _ ?_
  · intro hs
    dsimp only
    split <;> exact hs
  · exact hs

theorem waitsAnew_keeps (s : State) (g : Grid) (w : Wish) : KeepsMem s (s.waitsAnew g w) := by
  unfold State.waitsAnew
  intro hs
  split <;> exact hs

theorem asksAnew_keeps (s : State) (g : Grid) (w : Wish) : KeepsMem s (s.asksAnew g w) := by
  unfold State.asksAnew
  intro hs
  split <;> exact hs

theorem leaveUntil_keeps (g : Grid) (w : Wish) : ∀ (ts : List Team) (s : State), KeepsMem s (s.leaveUntil g w ts)
  | [], s => .refl s
  | t :: ts, s => by
    unfold State.leaveUntil
    split
    · exact .refl s
    · split
      · split
        · exact (startLeave_keeps _ _ _).trans (leaveUntil_keeps g w ts _)
        · exact leaveUntil_keeps g w ts s
      · exact leaveUntil_keeps g w ts s

theorem execPreemptTimeout_keeps (s : State) : OutKeeps s (execPreemptTimeout s) := by
  unfold execPreemptTimeout
  refine outKeeps_next ?_
  intro hs
  split
  · exact hs
  · split
    · split
      · exact asksAnew_keeps _ _ _ (leaveUntil_keeps _ _ _ _ hs)
      · exact hs
    · exact hs

theorem execTimeSliceExpiry_keeps (s : State) : OutKeeps s (execTimeSliceExpiry s) := by
  unfold execTimeSliceExpiry
  refine outKeeps_next ?_
  intro hs
  split
  · exact hs
  · split
    · split
      · exact waitsAnew_keeps _ _ _ (leaveUntil_keeps _ _ _ _ hs)
      · exact hs
    · exact hs

theorem execTeamSaveComplete_keeps (s : State) : OutKeeps s (execTeamSaveComplete s) := by
  unfold execTeamSaveComplete
  refine outKeeps_next ?_
  intro hs
  dsimp only
  split
  · exact hs
  · split
    · exact hs
    · refine noteSuspended_keeps _ _ ?_
      split
      · split
        · exact preempted_keeps _ _ _ hs
        · exact (event_posted _ _ _ _ _ _).wf (preempted_keeps _ _ _ hs)
      · split
        · exact hs
        · exact (event_posted _ _ _ _ _ _).wf hs

theorem flushTeam_keeps (s : State) (t : Team) : KeepsMem s (s.flushTeam t) := by
  unfold State.flushTeam
  intro hs
  dsimp only
  split <;> exact preempted_keeps _ _ _ hs

theorem execTeamFlushComplete_keeps (s : State) : OutKeeps s (execTeamFlushComplete s) := by
  unfold execTeamFlushComplete
  refine outKeeps_next ?_
  intro hs
  split
  · exact hs
  · split
    · exact hs
    · split
      · exact hs
      · refine noteSuspended_keeps _ _ (fireTt_keeps _ _ _ ?_)
        refine KeepsMem.fold _ (fun s a => ?_) _ _ ?_
        · intro hs
          exact flushTeam_keeps _ _ hs
        · exact hs

theorem restoreTeam_keeps (s : State) (t : Team) (core : Nat) : KeepsMem s (s.restoreTeam t core) := by
  unfold State.restoreTeam
  intro hs
  refine (traceTeam_posted _ _ _ _ _).wf ?_
  split
  · refine (event_posted _ _ _ _ _ _).wf ?_
    split <;> exact hs
  · split <;> exact hs

theorem moveRetired_keeps (s : State) (t : Team) (ps : List (Team × Nat)) : KeepsMem s (s.moveRetired t ps) := by
  unfold State.moveRetired
  intro hs
  split <;> exact hs

theorem execTeamRestore_keeps (s : State) : OutKeeps s (execTeamRestore s) := by
  unfold execTeamRestore
  refine outKeeps_next ?_
  intro hs
  split
  · exact hs
  · split
    · exact hs
    · split
      · refine moveRetired_keeps _ _ _ ?_
        refine KeepsMem.fold _ (fun s a => ?_) _ _ ?_
        · intro hs
          exact restoreTeam_keeps _ _ _ hs
        · exact hs
      · exact hs

/-! ## Caddy -/

theorem contLanes_keeps (s : State) (i : Iss) (n : Nat) (resume : Lane → Nat) (trav : Bool) : KeepsMem s (s.contLanes i n resume trav) := by
  unfold State.contLanes
  intro hs
  refine afterExit_keeps _ _ ?_
  refine KeepsMem.fold _ (fun s a => ?_) _ _ ?_
  · intro hs
    exact hs
  · exact hs

theorem caddyBusy_keeps (s : State) (i : Iss) (t : State) (h : caddyBusy s i = some t) : KeepsMem s t := waitIf_keeps _ s i t h

theorem execCont_keeps (d : BitVec 7) (o : BitVec 18) (s : State) : OutKeeps s (execCont d o s) := by
  unfold execCont
  refine outKeeps_next ?_
  intro hs
  refine issue_keeps _ _ ?_ ?_ ?_
  · intro s i t h hs
    exact (caddyBusy_keeps _ _ _ h).wf hs
  · intro i s hs
    dsimp only
    split
    · exact hs
    · exact contLanes_keeps _ _ _ _ _ hs
  · exact hs

theorem formRecs_keeps (s : State) (die gid resume : Nat) (rs : List CaddyRec) : KeepsMem s (s.formRecs die gid resume rs) := by
  unfold State.formRecs
  intro hs
  dsimp only
  split
  · exact hs
  · split
    · exact hs
    · split <;> exact ssGate_keeps _ _ _ _ hs

theorem formFullGo_keeps (die gid resume : Nat) : ∀ (k : Nat) (s : State), KeepsMem s (s.formFullGo die gid resume k)
  | 0, s => .refl s
  | k + 1, s => by
    unfold State.formFullGo
    dsimp only
    split
    · exact .refl s
    · exact (formRecs_keeps _ _ _ _ _).trans (formFullGo_keeps die gid resume k _)

theorem formFull_keeps (s : State) (die gid resume : Nat) : KeepsMem s (s.formFull die gid resume) := by
  unfold State.formFull
  intro hs
  exact formFullGo_keeps _ _ _ _ _ hs

theorem arriveRec_keeps (s : State) (r : CaddyRec) : KeepsMem s (s.arriveRec r) := by
  unfold State.arriveRec
  intro hs
  dsimp only
  split
  · exact hs
  · split
    · rename_i h
      exact (engWr_posted h).wf hs
    · exact hs

theorem releaseCont_keeps (s : State) (id : Nat) (results : List Word) : KeepsMem s (s.releaseCont id results) := by
  unfold State.releaseCont
  intro hs
  split
  · exact hs
  · exact formFull_keeps _ _ _ _ hs

theorem execCaddyArrival_keeps (s : State) : OutKeeps s (execCaddyArrival s) := by
  unfold execCaddyArrival
  refine outKeeps_next ?_
  intro hs
  dsimp only
  split
  · exact hs
  · split
    · exact hs
    · split
      · exact ssGate_keeps _ _ _ _ hs
      · refine KeepsMem.fold _ (fun s a => ?_) _ _ ?_
        · intro hs
          exact formFull_keeps _ _ _ _ hs
        · refine KeepsMem.fold _ (fun s a => ?_) _ _ ?_
          · intro hs
            exact arriveRec_keeps _ _ hs
          · exact ssGate_keeps _ _ _ _ hs

theorem execCaddyPartialTimeout_keeps (s : State) : OutKeeps s (execCaddyPartialTimeout s) := by
  unfold execCaddyPartialTimeout
  refine outKeeps_next ?_
  intro hs
  dsimp only
  split
  · exact formRecs_keeps _ _ _ _ _ hs
  · exact hs

theorem execCaddyDrain_keeps (s : State) : OutKeeps s (execCaddyDrain s) := by
  unfold execCaddyDrain
  refine outKeeps_next ?_
  intro hs
  split
  · exact hs
  · split
    · exact hs
    · refine KeepsMem.fold _ (fun s a => ?_) _ _ ?_
      · intro hs
        exact formRecs_keeps _ _ _ _ _ hs
      · exact hs

theorem takeOver_keeps (s : State) (f : CaddyForm) (uid core : Nat) : KeepsMem s (s.takeOver f uid core) := by
  unfold State.takeOver
  intro hs
  split <;> exact hs

theorem execCaddyWavePlace_keeps (s : State) : OutKeeps s (execCaddyWavePlace s) := by
  unfold execCaddyWavePlace
  refine outKeeps_next ?_
  intro hs
  dsimp only
  split
  · exact hs
  · split
    · exact hs
    · split
      · exact hs
      · split
        · exact hs
        · exact putTeam_keeps _ _ _ (takeOver_keeps _ _ _ _ hs)

/-! ## Mem -/

theorem execLd_keeps (t a : BitVec 7) (r : BitVec 4) (o : BitVec 2) (z : BitVec 3) (g : BitVec 2) (s : State) : OutKeeps s (execLd t a r o z g s) := by
  unfold execLd
  refine outKeeps_next ?_
  intro hs
  refine issue_keeps _ _ ?_ ?_ ?_
  · intro s i t h hs
    exact (needPages_keeps _ _ _ _ h).wf hs
  · intro i s hs
    refine memBody_keeps _ _ _ _ _ ?_ _ _ ?_
    · intro i L pa e s hs
      exact addAcc_keeps _ _ _ _ hs
    · exact hs
  · exact hs

theorem execSt_keeps (t a : BitVec 7) (r : BitVec 4) (o : BitVec 2) (z : BitVec 3) (g : BitVec 2) (s : State) : OutKeeps s (execSt t a r o z g s) := by
  unfold execSt
  refine outKeeps_next ?_
  intro hs
  refine issueForced_keeps _ _ _ _ ?_ ?_ ?_
  · intro s i t h hs
    exact (needPages_keeps _ _ _ _ h).wf hs
  · intro i s hs
    refine memBody_keeps _ _ _ _ _ ?_ _ _ ?_
    · intro i L pa e s hs
      exact addAcc_keeps _ _ _ _ hs
    · exact hs
  · exact hs

theorem execLds_keeps (t a : BitVec 7) (r : BitVec 4) (o : BitVec 2) (z : BitVec 3) (g : BitVec 2) (s : State) : OutKeeps s (execLds t a r o z g s) := by
  unfold execLds
  refine outKeeps_next ?_
  intro hs
  refine issue_keeps _ _ ?_ ?_ ?_
  · intro s i t h hs
    exact (waitList_keeps _ _ _ _ _ _ h).wf hs
  · intro i s hs
    refine spBody_keeps _ _ _ ?_ _ _ ?_
    · intro i L t a s hs
      exact addAcc_keeps _ _ _ _ hs
    · exact hs
  · exact hs

theorem execSts_keeps (t a : BitVec 7) (r : BitVec 4) (o : BitVec 2) (z : BitVec 3) (g : BitVec 2) (s : State) : OutKeeps s (execSts t a r o z g s) := by
  unfold execSts
  refine outKeeps_next ?_
  intro hs
  refine issueForced_keeps _ _ _ _ ?_ ?_ ?_
  · intro s i t h hs
    exact (waitList_keeps _ _ _ _ _ _ h).wf hs
  · intro i s hs
    refine spBody_keeps _ _ _ ?_ _ _ ?_
    · intro i L t a s hs
      exact addAcc_keeps _ _ _ _ hs
    · exact hs
  · exact hs

theorem serveLd_keeps (s : State) (uid L : Nat) (w : Nat × Nat × Nat × Nat) (clr : Bool) (ord : Ord) (pc : Word) (cycles : Nat) : KeepsMem s (s.serveLd uid L w clr ord pc cycles) := by
  unfold State.serveLd
  intro hs
  dsimp only
  split <;> exact hs

theorem serveSt_keeps (s : State) (uid L tid off n : Nat) (v : BitVec 128) (ord : Ord) : KeepsMem s (s.serveSt uid L tid off n v ord) := fun hs => hs

theorem execLdfe_keeps (t a : BitVec 7) (r : BitVec 4) (o : BitVec 2) (z : BitVec 3) (g : BitVec 2) (s : State) : OutKeeps s (execLdfe t a r o z g s) := by
  refine outKeeps_next (issue_keeps s _ (waitBefore_keeps _) (spBody_keeps _ _ _ fun i L tid off s => ?_))
  split
  · exact (serveLd_keeps s _ _ _ _ _ _ _).trans (keeps_goOn _ _ _ _)
  · exact (keeps_updLane _ _ _ _).trans (keeps_block _ _ _ _)

theorem execStfe_keeps (t a : BitVec 7) (r : BitVec 4) (o z g : BitVec 2) (s : State) : OutKeeps s (execStfe t a r o z g s) := by
  refine outKeeps_next (issueTogether_keeps s _ _ (waitBefore_keeps _) (spBody_keeps _ _ _ fun i L tid off s => ?_))
  split
  · exact (serveSt_keeps s _ _ _ _ _ _ _).trans (keeps_goOn _ _ _ _)
  · exact keeps_block _ _ _ _

theorem execLdfeUnblock_keeps (s : State) : OutKeeps s (execLdfeUnblock s) := by
  unfold execLdfeUnblock
  refine outKeeps_next ?_
  intro hs
  dsimp only
  split
  · exact hs
  · split
    · exact unblock_keeps _ _ _ _ (serveLd_keeps _ _ _ _ _ _ _ _ hs)
    · exact hs

theorem execStfeUnblock_keeps (s : State) : OutKeeps s (execStfeUnblock s) := by
  unfold execStfeUnblock
  refine outKeeps_next ?_
  intro hs
  split
  · exact hs
  · split
    · exact unblock_keeps _ _ _ _ (serveSt_keeps _ _ _ _ _ _ _ _ hs)
    · exact hs

theorem atomOp_keeps (lands bad : Bool) (t a : BitVec 7) (r : BitVec 4) (o : BitVec 2) (c : BitVec 4) (z : BitVec 1) (s : State) : KeepsMem s (atomOp lands bad t a r o c z s) := by
  unfold atomOp
  intro hs
  refine issueForced_keeps _ _ _ _ ?_ ?_ ?_
  · intro s i t h hs
    exact (needPages_keeps _ _ _ _ h).wf hs
  · intro i s hs
    refine memBody_keeps _ _ _ _ _ ?_ _ _ ?_
    · intro i L pa e s hs
      exact addAcc_keeps _ _ _ _ hs
    · exact hs
  · exact hs

theorem execAtom_keeps (t a : BitVec 7) (r : BitVec 4) (o : BitVec 2) (c : BitVec 4) (z : BitVec 1) (s : State) : OutKeeps s (execAtom t a r o c z s) := by
  unfold execAtom
  refine outKeeps_next ?_
  intro hs
  exact atomOp_keeps _ _ _ _ _ _ _ _ _ hs

theorem execRed_keeps (t a : BitVec 7) (r : BitVec 4) (o : BitVec 2) (c : BitVec 4) (z : BitVec 1) (s : State) : OutKeeps s (execRed t a r o c z s) := by
  unfold execRed
  refine outKeeps_next ?_
  intro hs
  exact atomOp_keeps _ _ _ _ _ _ _ _ _ hs

theorem execAtoms_keeps (t a : BitVec 7) (r : BitVec 4) (o : BitVec 2) (c : BitVec 4) (z : BitVec 1) (s : State) : OutKeeps s (execAtoms t a r o c z s) := by
  unfold execAtoms
  refine outKeeps_next ?_
  intro hs
  refine issueForced_keeps _ _ _ _ ?_ ?_ ?_
  · intro s i t h hs
    exact (waitList_keeps _ _ _ _ _ _ h).wf hs
  · intro i s hs
    refine spBody_keeps _ _ _ ?_ _ _ ?_
    · intro i L t a s hs
      exact addAcc_keeps _ _ _ _ hs
    · exact hs
  · exact hs

/-! ## MemSys -/

theorem sawClaim_keeps (s : State) (i : Iss) (pa n : Nat) (ord : Ord) (own : Nat) : KeepsMem s (s.sawClaim i pa n ord own) := by
  unfold State.sawClaim
  intro hs
  refine KeepsMem.fold _ (fun s a => ?_) _ _ ?_
  · intro hs
    exact hs
  · exact hs

theorem cstoreClaim_keeps (s : State) (i : Iss) (pa : Nat) (o : BitVec 2) (type : Nat) : KeepsMem s (s.cstoreClaim i pa o type) := by
  unfold State.cstoreClaim
  intro hs
  refine KeepsMem.fold _ (fun s a => ?_) _ _ ?_
  · intro hs
    exact hs
  · exact fillLine_keeps _ _ _ (sawClaim_keeps _ _ _ _ _ _ (movedBytes_keeps _ _ _ _ ((wr_posted _ _ _ _).wf hs)))

theorem cstoreBusy_keeps (r : BitVec 4) (o : BitVec 2) (a : BitVec 7) (n : Nat) (s : State) (i : Iss) (t : State)
    (h : cstoreBusy r o a n s i = some t) : KeepsMem s t := by
  unfold cstoreBusy at h
  intro hs
  dsimp only at h
  split at h
  · exact (needPages_keeps _ _ _ _ h).wf hs
  · split at h
    · cases h
    · split at h
      · cases h
        rename_i h
        exact (needPages_keeps _ _ _ _ h).wf hs
      · split at h
        · split at h
          · cases h
            exact hs
          · split at h
            · cases h
            · cases h
              exact ssGate_keeps _ _ _ _ hs
        · cases h

theorem execCstore_keeps (t a : BitVec 7) (r : BitVec 4) (o : BitVec 2) (z : BitVec 3) (g : BitVec 2) (s : State) : OutKeeps s (execCstore t a r o z g s) := by
  unfold execCstore
  refine outKeeps_next ?_
  intro hs
  refine issueTogether_keeps _ _ _ ?_ ?_ ?_
  · intro s i t h hs
    exact (cstoreBusy_keeps _ _ _ _ _ _ _ h).wf hs
  · intro i s hs
    dsimp only
    split
    · refine memBody_keeps _ _ _ _ _ ?_ _ _ ?_
      · intro i L pa e s hs
        exact addAcc_keeps _ _ _ _ hs
      · exact hs
    · split
      · exact hs
      · split
        · exact hs
        · split
          · exact cstoreClaim_keeps _ _ _ _ _ (setDirty_keeps _ _ _ _ (ssGate_keeps _ _ _ _ hs))
          · refine memBody_keeps _ _ _ _ _ ?_ _ _ ?_
            · intro i L pa e s hs
              exact hs
            · exact hs
  · exact hs

theorem lockGo_keeps (die c : Nat) : ∀ (ls : List (Nat × Pte)) (stopped : Bool) (s : State), KeepsMem s (s.lockGo die c stopped ls).2
  | [], _, s => .refl s
  | (pa, e) :: r, stopped, s => by
    unfold State.lockGo
    dsimp only
    split
    · exact lockGo_keeps die c r _ s
    · split
      · exact lockGo_keeps die c r _ s
      · exact fun hs => lockGo_keeps die c r _ _ hs

theorem lockOp_keeps (bad : Bool) (f : State → Nat → Nat → List (Nat × Pte) → Nat × State) (t a : BitVec 7) (r : BitVec 4) (g : BitVec 2)
    (s : State) (hf : ∀ s die c ps, KeepsMem s (f s die c ps).2) : KeepsMem s (lockOp bad f t a r g s) :=
  issue_keeps s _ (needPages_keeps _) (memBodyN_keeps _ _ _ fun _ _ _ s hs => hf s _ _ _ hs)

theorem execLock_keeps (t a : BitVec 7) (r : BitVec 4) (g : BitVec 2) (s : State) : OutKeeps s (execLock t a r g s) :=
  outKeeps_next (lockOp_keeps _ _ _ _ _ _ _ fun s die c ps => lockGo_keeps die c ps false s)

theorem execUnlock_keeps (t a : BitVec 7) (r : BitVec 4) (g : BitVec 2) (s : State) : OutKeeps s (execUnlock t a r g s) :=
  outKeeps_next (lockOp_keeps _ _ _ _ _ _ _ fun s _ _ _ => .refl s)

theorem prefLine_keeps (s : State) (die c : Nat) (rdc : Bool) (va : Nat) : KeepsMem s (s.prefLine die c rdc va) := by
  unfold State.prefLine
  intro hs
  dsimp only
  split
  · split
    · exact hs
    · split <;> exact fillLine_keeps _ _ _ hs
  · exact hs

theorem prefPage_keeps (s : State) (c va : Nat) (near : Bool) : KeepsMem s (s.prefPage c va near) := by
  unfold State.prefPage
  intro hs
  split
  · split
    · exact hs
    · exact tierAsk_keeps _ _ _ _ _ _ hs
  · exact hs

theorem execPref_keeps (t a : BitVec 7) (r : BitVec 4) (z : BitVec 3) (g : BitVec 2) (s : State) : OutKeeps s (execPref t a r z g s) := by
  unfold execPref
  refine outKeeps_next ?_
  intro hs
  refine issue_keeps _ _ ?_ ?_ ?_
  · intro s i t h hs
    exact (never_keeps _ _ _ h).wf hs
  · intro i s hs
    refine KeepsMem.fold _ (fun s a => ?_) _ _ ?_
    · intro hs
      dsimp only
      split
      · refine KeepsMem.fold _ (fun s a => ?_) _ _ ?_
        · intro hs
          exact prefLine_keeps _ _ _ _ _ hs
        · exact hs
      · refine KeepsMem.fold _ (fun s a => ?_) _ _ ?_
        · intro hs
          exact prefLine_keeps _ _ _ _ _ hs
        · exact hs
      · refine KeepsMem.fold _ (fun s a => ?_) _ _ ?_
        · intro hs
          exact prefPage_keeps _ _ _ _ hs
        · exact hs
      · refine KeepsMem.fold _ (fun s a => ?_) _ _ ?_
        · intro hs
          exact prefPage_keeps _ _ _ _ hs
        · exact hs
      · exact hs
    · exact hs
  · exact hs

theorem execBset_keeps (a : BitVec 7) (n : BitVec 4) (s : State) : OutKeeps s (execBset a n s) := by
  unfold execBset
  refine outKeeps_next ?_
  intro hs
  refine issue_keeps _ _ ?_ ?_ ?_
  · intro s i t h hs
    exact (never_keeps _ _ _ h).wf hs
  · intro i s hs
    dsimp only
    split <;> exact hs
  · exact hs

theorem execFence_keeps (k : BitVec 2) (z : BitVec 3) (s : State) : OutKeeps s (execFence k z s) := by
  unfold execFence
  refine outKeeps_next ?_
  intro hs
  refine issueForced_keeps _ _ _ _ ?_ ?_ ?_
  · intro s i t h hs
    exact (never_keeps _ _ _ h).wf hs
  · intro i s hs
    exact hs
  · exact hs

theorem execXfence_keeps (d : BitVec 1) (m : BitVec 3) (s : State) : OutKeeps s (execXfence d m s) := by
  unfold execXfence
  refine outKeeps_next ?_
  intro hs
  refine issueForced_keeps _ _ _ _ ?_ ?_ ?_
  · intro s i t h hs
    exact (never_keeps _ _ _ h).wf hs
  · intro i s hs
    split
    · exact hs
    · split
      · exact xfenceTrav_keeps _ _ hs
      · split <;> exact hs
  · exact hs

/-! ## Sync -/

/-- How a lane that has arrived, or only waits, leaves the barrier instruction: it goes on, or it blocks. -/
theorem barWait_keeps {s s1 : State} (h : KeepsMem s s1) (uid tid b L key : Nat) (wt : Wait) (who : Who) (k : Sync) (p q : Prop) {_ : Decidable p}
    {_ : Decidable q} : KeepsMem s (if p then s1.updLane uid L Lane.adv else if q then s1.block uid L wt
      else ((s1.updBar tid b (fun x => x.forget key)).obtainBar who k).updLane uid L Lane.adv) := by
  split
  · exact h.trans (keeps_updLane s1 uid L Lane.adv)
  · split
    · exact h.trans (keeps_block s1 uid L wt)
    · exact h.trans ((keeps_updBar s1 tid b _).trans ((keeps_obtainBar _ who k).trans (keeps_updLane _ uid L _)))

theorem barLane_keeps (s : State) (i : Iss) (b : Nat) (k : BarKind) (L : Nat) : KeepsMem s (s.barLane i b k L) := by
  have harr : KeepsMem s (if k = .wait then s else (s.release [s.whoOf i.uid L] (barScope i.t b) [barKey i.t b (s.bar i.t.tid b).phase]).updBar i.t.tid b
      (fun x => x.arrive (laneKey i.w L))) := by
    split
    · exact .refl s
    · exact (keeps_release s _ _ _).trans (keeps_updBar _ _ _ _)
  unfold State.barLane
  dsimp only
  split
  · exact keeps_block s _ _ _
  · exact barWait_keeps harr i.uid i.t.tid b L _ _ _ _ _ _

theorem barOp_keeps (b : Nat) (k : BarKind) (s : State) : KeepsMem s (barOp b k s) :=
  issue_keeps s _ (waitIf_keeps _) fun _ s hs => KeepsMem.fold _ (fun s L => barLane_keeps s _ b k L) _ s hs

theorem execBarSync_keeps (b : BitVec 4) (s : State) : OutKeeps s (execBarSync b s) := by
  unfold execBarSync
  refine outKeeps_next ?_
  intro hs
  exact barOp_keeps _ _ _ hs

theorem execBarArrive_keeps (b : BitVec 4) (s : State) : OutKeeps s (execBarArrive b s) := by
  unfold execBarArrive
  refine outKeeps_next ?_
  intro hs
  exact barOp_keeps _ _ _ hs

theorem execBarWait_keeps (b : BitVec 4) (s : State) : OutKeeps s (execBarWait b s) := by
  unfold execBarWait
  refine outKeeps_next ?_
  intro hs
  exact barOp_keeps _ _ _ hs

theorem execBarCsync_keeps (s : State) : OutKeeps s (execBarCsync s) := by
  unfold execBarCsync
  refine outKeeps_next ?_
  intro hs
  exact barOp_keeps _ _ _ hs

theorem barRelease_keeps (s : State) (t : Team) (b : Nat) (x : Nat × Nat × BitVec 32 × Bool × Bool) : KeepsMem s (s.barRelease t b x) := by
  unfold State.barRelease
  intro hs
  dsimp only
  split
  · exact hs
  · split
    · split
      · exact hs
      · exact unblock_keeps _ _ _ _ hs
    · exact unblock_keeps _ _ _ _ hs

theorem execBarrierPhaseComplete_keeps (s : State) : OutKeeps s (execBarrierPhaseComplete s) := by
  unfold execBarrierPhaseComplete
  refine outKeeps_next ?_
  intro hs
  dsimp only
  split
  · exact hs
  · split
    · exact hs
    · refine KeepsMem.fold _ (fun s a => ?_) _ _ ?_
      · intro hs
        refine KeepsMem.fold _ (fun s a => ?_) _ _ ?_
        · intro hs
          exact barRelease_keeps _ _ _ _ hs
        · exact hs
      · refine KeepsMem.fold _ (fun s a => ?_) _ _ ?_
        · intro hs
          exact hs
        · exact hs

theorem ordLand_keeps (s : State) (t : Team) (n uid L d : Nat) (v pc : Word) : KeepsMem s (s.ordLand t n uid L d v pc) := by
  unfold State.ordLand
  intro hs
  split <;> exact hs

theorem execOrdwait_keeps (d : BitVec 7) (n : BitVec 4) (s : State) : OutKeeps s (execOrdwait d n s) := by
  unfold execOrdwait
  refine outKeeps_next ?_
  intro hs
  refine issue_keeps _ _ ?_ ?_ ?_
  · intro s i t h hs
    exact (never_keeps _ _ _ h).wf hs
  · intro i s hs
    refine KeepsMem.fold _ (fun s a => ?_) _ _ ?_
    · intro hs
      split
      · exact ordLand_keeps _ _ _ _ _ _ _ _ hs
      · exact hs
    · exact hs
  · exact hs

theorem execOrdwaitRelease_keeps (s : State) : OutKeeps s (execOrdwaitRelease s) := by
  unfold execOrdwaitRelease
  refine outKeeps_next ?_
  intro hs
  dsimp only
  split
  · exact hs
  · split
    · split
      · exact unblock_keeps _ _ _ _ (ordLand_keeps _ _ _ _ _ _ _ _ hs)
      · exact hs
    · exact hs

theorem execOrdtake_keeps (n : BitVec 4) (s : State) : OutKeeps s (execOrdtake n s) := by
  unfold execOrdtake
  refine outKeeps_next ?_
  intro hs
  refine issueForced_keeps _ _ _ _ ?_ ?_ ?_
  · intro s i t h hs
    exact (waitQuiet_keeps _ _ _ _ h).wf hs
  · intro i s hs
    dsimp only
    split
    · split <;> exact hs
    · split
      · exact hs
      · split <;> exact hs
  · exact hs

theorem sawRing_keeps (s : State) (uid L pa type : Nat) : KeepsMem s (s.sawRing uid L pa type) := by
  unfold State.sawRing
  intro hs
  exact fillLine_keeps _ _ _ hs

theorem execRwait_keeps (a : BitVec 7) (n : BitVec 4) (s : State) : OutKeeps s (execRwait a n s) := by
  unfold execRwait
  refine outKeeps_next ?_
  intro hs
  refine issue_keeps _ _ ?_ ?_ ?_
  · intro s i t h hs
    split at h
    · cases h
      rename_i h
      exact (needPages_keeps _ _ _ _ h).wf hs
    · split at h
      · cases h
        rename_i h
        exact (waitBefore_keeps _ _ _ _ h).wf hs
      · exact (waitWholes_keeps _ _ _ _ h).wf hs
  · intro i s hs
    refine memBody_keeps _ _ _ _ _ ?_ _ _ ?_
    · intro i L pa e s hs
      dsimp only
      split <;> exact sawRing_keeps _ _ _ _ _ hs
    · exact passed_keeps _ _ _ hs
  · exact hs

theorem ringGate_keeps (s : State) (w : Wave) (L pa : Nat) (log : Bool) : KeepsMem s (s.ringGate w L pa log).2 := by
  unfold State.ringGate
  intro hs
  dsimp only
  split
  · exact hs
  · split <;> exact ssGate_keeps _ _ _ _ hs

theorem execRwaitRelease_keeps (s : State) : OutKeeps s (execRwaitRelease s) := by
  unfold execRwaitRelease
  refine outKeeps_next ?_
  intro hs
  dsimp only
  split
  · exact hs
  · split
    · split
      · split
        · exact hs
        · split
          · exact unblock_keeps _ _ _ _ (sawRing_keeps _ _ _ _ _ (ringGate_keeps _ _ _ _ _ hs))
          · exact ringGate_keeps _ _ _ _ _ hs
      · exact hs
    · exact hs

theorem execRrel_keeps (a : BitVec 7) (n : BitVec 4) (s : State) : OutKeeps s (execRrel a n s) := by
  unfold execRrel
  refine outKeeps_next ?_
  intro hs
  refine issue_keeps _ _ ?_ ?_ ?_
  · intro s i t h hs
    exact (needPages_keeps _ _ _ _ h).wf hs
  · intro i s hs
    refine memBody_keeps _ _ _ _ _ ?_ _ _ ?_
    · intro i L pa e s hs
      exact addAcc_keeps _ _ _ _ hs
    · exact hs
  · exact hs

theorem qpushBusy_keeps (n : BitVec 4) (a : BitVec 7) (s : State) (i : Iss) (t : State) (h : qpushBusy n a s i = some t) : KeepsMem s t := by
  unfold qpushBusy at h
  intro hs
  dsimp only at h
  split at h
  · split at h
    · cases h
      rename_i h
      exact (needPages_keeps _ _ _ _ h).wf hs
    · split at h
      · cases h
        exact hs
      · split at h
        · cases h
          rename_i h
          exact (needPages_keeps _ _ _ _ h).wf hs
        · exact (waitWholes_keeps _ _ _ _ h).wf hs
  · split at h
    · cases h
      rename_i h
      exact (needPages_keeps _ _ _ _ h).wf hs
    · split at h
      · split at h
        · exact (waitWholes_keeps _ _ _ _ h).wf hs
        · split at h
          · cases h
            exact hs
          · split at h
            · cases h
              rename_i h
              exact (waitWholes_keeps _ _ _ _ h).wf hs
            · split at h
              · cases h
              · cases h
                exact hs
      · exact (waitWholes_keeps _ _ _ _ h).wf hs

theorem qpushClaim_keeps (s : State) (i : Iss) (d : BitVec 7) (pa type : Nat) (h : QHdr) : KeepsMem s (s.qpushClaim i d pa type h) := by
  unfold State.qpushClaim
  intro hs
  refine KeepsMem.fold _ (fun s a => ?_) _ _ ?_
  · intro hs
    exact hs
  · exact fillLine_keeps _ _ _ (sawClaim_keeps _ _ _ _ _ _ (movedBytes_keeps _ _ _ _ ((wr_posted _ _ _ _).wf hs)))

theorem qpushStore_keeps (s : State) (i : Iss) (L : Nat) (d a : BitVec 7) (va pa : Nat) (e : Pte) : KeepsMem s (s.qpushStore i L d a va pa e) := by
  unfold State.qpushStore
  intro hs
  refine KeepsMem.fold _ (fun s a => ?_) _ _ ?_
  · intro hs
    exact addAccAt_keeps _ _ _ _ _ hs
  · exact hs

theorem qpushBody_keeps (d a : BitVec 7) (n : BitVec 4) (i : Iss) (s : State) : KeepsMem s (qpushBody d a n i s).1 := by
  have stays (k : AccKind) (j : Iss) (s : State) : KeepsMem s (memBody k 8 32 (sysVa n) (d.toNat, 1) (fun _ _ _ _ s => s) j s).1 :=
    memBody_keeps k 8 32 (sysVa n) (d.toNat, 1) (fun _ _ _ _ s => .refl s) j s
  have stores (j : Iss) (s : State) : KeepsMem s
      (memBody .store 64 64 slotVa (d.toNat, 1) (fun i L pa e s1 => s1.qpushStore i L d a (slotVa i L) pa e) j s).1 :=
    memBody_keeps .store 64 64 slotVa (d.toNat, 1) (fun i L pa e s => qpushStore_keeps s i L d a _ pa e) j s
  unfold qpushBody
  split
  · exact fun hs => stores _ _ (seen_keeps _ i i .sc _ _ (stays .load _ s hs))
  · dsimp only
    split
    · exact stays .load i s
    · have hseen := seen_keeps s i i .sc (headWholes n s i) (i.eachLane (headWholes n s i))
      split
      · exact hseen
      · split
        · exact hseen
        · split
          · exact hseen.trans ((ssGate_keeps _ _ _ _).trans ((setDirty_keeps _ _ _ _).trans (qpushClaim_keeps _ _ _ _ _ _)))
          · exact hseen.trans (stays (.atomic 0) _ _)

theorem execQpush_keeps (d a : BitVec 7) (n : BitVec 4) (s : State) : OutKeeps s (execQpush d a n s) := by
  unfold execQpush
  refine outKeeps_next ?_
  intro hs
  refine issue_keeps _ _ ?_ ?_ ?_
  · intro s i t h hs
    unfold forcedBusy at h
    dsimp only at h
    split at h
    · cases h
      exact hs
    · exact (qpushBusy_keeps _ _ _ _ _ h).wf hs
  · intro i s hs
    refine forcedBody_keeps _ ?_ _ _ ?_
    · intro i s hs
      exact qpushBody_keeps _ _ _ _ _ hs
    · exact hs
  · exact hs

/-! ## Est -/

theorem esuDesc_keeps (s : State) (die esu c rg : Nat) : KeepsMem s (s.esuDesc die esu c rg).2 := by
  unfold State.esuDesc
  intro hs
  dsimp only
  split
  · split <;> exact hs
  · split
    · exact hs
    · exact hs
    · split
      · rename_i h _ _
        exact (engRd_posted h).wf hs
      · rename_i h _ _ _
        exact (engRd_posted h).wf hs

theorem estOp_keeps (ff : FormF) (rg : Nat) (dst : Nat × Nat) (ranges : Iss → Nat → List (Nat × Nat)) (cells : Iss → Nat → List Nat)
    (go : Iss → Nat → Nat → List (Nat × Pte) → State → State) (s : State) (hgo : ∀ i L va ps s, KeepsMem s (go i L va ps s)) :
    KeepsMem s (estOp ff rg dst ranges cells go s) := by
  unfold estOp
  dsimp only
  refine issue_keeps s ff (fun s i t h => ?_) fun i s => ?_
  · split at h
    · cases h; exact .refl s
    · exact needPages_keeps _ _ _ _ h
  · exact memBodyN_keeps .est (fun i L => (cells i L).map (fun c => (s.cellVa i.c rg c, 16))) dst
      (go := fun j L ps s1 => go j L (((cells j L).map (fun c => (s.cellVa j.c rg c, 16))).headD (0, 0)).1 ps s1) (fun i L ps s => hgo _ _ _ _ _) _ _

theorem addEst_keeps (s : State) (i : Iss) (L va : Nat) (op : AccOp) (ps : List (Nat × Pte)) (posted : Bool) : KeepsMem s (s.addEst i L va op ps posted) := by
  unfold State.addEst
  intro hs
  exact addAcc_keeps _ _ _ _ hs

theorem execEst_keeps (x i : BitVec 7) (r : BitVec 11) (s : State) : OutKeeps s (execEst x i r s) := by
  unfold execEst
  refine outKeeps_next ?_
  intro hs
  refine estOp_keeps _ _ _ _ _ _ _ ?_ ?_
  · intro i L va ps s hs
    exact addEst_keeps _ _ _ _ _ _ _ hs
  · exact hs

theorem execEld_keeps (x i : BitVec 7) (r : BitVec 11) (s : State) : OutKeeps s (execEld x i r s) := by
  unfold execEld
  refine outKeeps_next ?_
  intro hs
  refine estOp_keeps _ _ _ _ _ _ _ ?_ ?_
  · intro i L va ps s hs
    exact addEst_keeps _ _ _ _ _ _ _ hs
  · exact hs

theorem execEmrg_keeps (i : BitVec 7) (r : BitVec 11) (s : State) : OutKeeps s (execEmrg i r s) := by
  unfold execEmrg
  refine outKeeps_next ?_
  intro hs
  refine estOp_keeps _ _ _ _ _ _ _ ?_ ?_
  · intro i L va ps s hs
    exact addEst_keeps _ _ _ _ _ _ _ hs
  · exact hs

theorem execEclr_keeps (i : BitVec 7) (r : BitVec 11) (s : State) : OutKeeps s (execEclr i r s) := by
  unfold execEclr
  refine outKeeps_next ?_
  intro hs
  refine estOp_keeps _ _ _ _ _ _ _ ?_ ?_
  · intro i L va ps s hs
    exact addEst_keeps _ _ _ _ _ _ _ hs
  · exact hs

theorem execEsweep_keeps (i : BitVec 7) (r : BitVec 11) (s : State) : OutKeeps s (execEsweep i r s) := by
  unfold execEsweep
  refine outKeeps_next ?_
  intro hs
  refine estOp_keeps _ _ _ _ _ _ _ ?_ ?_
  · intro i L va ps s hs
    split
    · exact hs
    · exact addEst_keeps _ _ _ _ _ _ _ hs
  · exact hs

theorem execEraw_keeps (i : BitVec 7) (r : BitVec 11) (s : State) : OutKeeps s (execEraw i r s) := by
  unfold execEraw
  refine outKeeps_next ?_
  intro hs
  refine estOp_keeps _ _ _ _ _ _ _ ?_ ?_
  · intro i L va ps s hs
    exact addEst_keeps _ _ _ _ _ _ _ hs
  · exact hs

theorem execEinit_keeps (i : BitVec 7) (r : BitVec 11) (s : State) : OutKeeps s (execEinit i r s) := by
  unfold execEinit
  refine outKeeps_next ?_
  intro hs
  refine estOp_keeps _ _ _ _ _ _ _ ?_ ?_
  · intro i L va ps s hs
    exact addEst_keeps _ _ _ _ _ _ _ hs
  · exact hs

theorem makeScene_keeps (s : State) (i : Iss) (L rg pa : Nat) (type : Nat) : KeepsMem s (s.makeScene i L rg pa type) := by
  unfold State.makeScene
  intro hs
  dsimp only
  split <;> exact fillLine_keeps _ _ _ ((wr_posted _ _ _ _).wf hs)

theorem execEscene_keeps (r : BitVec 11) (s : State) : OutKeeps s (execEscene r s) := by
  unfold execEscene
  refine outKeeps_next ?_
  intro hs
  refine issue_keeps _ _ ?_ ?_ ?_
  · intro s i t h hs
    dsimp only at h
    split at h
    · cases h
      exact hs
    · split at h
      · cases h
      · split at h
        · cases h
          exact hs
        · split at h
          · cases h
          · split at h
            · cases h
              rename_i h
              exact (needPages_keeps _ _ _ _ h).wf hs
            · split at h
              · split at h
                · cases h
                  exact hs
                · exact (waitWholes_keeps _ _ _ _ h).wf hs
              · cases h
  · intro i s hs
    dsimp only
    split
    · exact hs
    · refine memBody_keeps _ _ _ _ _ ?_ _ _ ?_
      · intro i L pa e s hs
        exact makeScene_keeps _ _ _ _ _ _ hs
      · exact passed_keeps _ _ _ hs
  · exact hs

theorem execEsuGenInForce_keeps (s : State) : OutKeeps s (execEsuGenInForce s) := by
  unfold execEsuGenInForce
  refine outKeeps_next ?_
  intro hs
  dsimp only
  split
  · exact hs
  · split
    · exact hs
    · split
      · split <;> exact ssGate_keeps _ _ _ _ hs
      · dsimp only
        split <;> exact ssGate_keeps _ _ _ _ hs

theorem appendFault_keeps (s : State) (a : Append) (va : Nat) : KeepsMem s (s.appendFault a va) := by
  unfold State.appendFault
  intro hs
  exact (faultPut_posted _ _ _).wf (noteLost_keeps _ _ _ hs)

theorem appendDone_keeps (s : State) (a : Append) : KeepsMem s (s.appendDone a) := by
  unfold State.appendDone
  intro hs
  dsimp only
  split <;> exact hs

theorem noteAppend_keeps (s : State) (c va n since : Nat) : KeepsMem s (s.noteAppend c va n since) := by
  unfold State.noteAppend
  intro hs
  split
  · exact movedBytes_keeps _ _ _ _ hs
  · exact hs

theorem appendWrite_keeps (s : State) (a : Append) (slot : Nat) : KeepsMem s (s.appendWrite a slot) := by
  unfold State.appendWrite
  intro hs
  dsimp only
  split
  · exact hs
  · exact appendFault_keeps _ _ _ hs
  · split
    · rename_i h _
      exact appendFault_keeps _ _ _ ((engRd_posted h).wf hs)
    · split
      · dsimp only
        split
        · rename_i h _ _ _
          exact (engRd_posted h).wf hs
        · split
          · rename_i h _ _ _ _ _ h1
            exact appendDone_keeps _ _ (noteAppend_keeps _ _ _ _ _ ((engWr_posted h1).wf ((engRd_posted h).wf hs)))
          · rename_i h _ _ _ _ _ _
            exact appendFault_keeps _ _ _ ((engRd_posted h).wf hs)
          · rename_i h _ _ _ _ _
            exact (engRd_posted h).wf hs
      · split
        · rename_i h _ _ _
          exact (engRd_posted h).wf hs
        · split
          · rename_i h _ _ _ _ _ h1
            exact appendDone_keeps _ _ (noteAppend_keeps _ _ _ _ _ ((engWr_posted h1).wf ((engRd_posted h).wf hs)))
          · rename_i h _ _ _ _ _ _
            exact appendFault_keeps _ _ _ ((engRd_posted h).wf hs)
          · rename_i h _ _ _ _ _
            exact (engRd_posted h).wf hs

theorem appendTry_keeps (s : State) (a : Append) : KeepsMem s (s.appendTry a) := by
  unfold State.appendTry
  intro hs
  dsimp only
  split
  · exact appendWrite_keeps _ _ _ hs
  · split
    · exact hs
    · exact appendFault_keeps _ _ _ hs
    · split
      · rename_i h _
        exact appendFault_keeps _ _ _ ((engRd_posted h).wf hs)
      · split
        · rename_i h _ _ _
          exact (engRd_posted h).wf hs
        · rename_i h _ _ _ _
          exact appendFault_keeps _ _ _ ((engRd_posted h).wf hs)
        · split
          · split
            · rename_i h _ _ _ _ h1 _ _ _ _
              exact ssGate_keeps _ _ _ _ ((engXlate_posted h1).wf ((engRd_posted h).wf hs))
            · rename_i h _ _ _ _ h1 _ _ _ _
              exact appendWrite_keeps _ _ _ (movedBytes_keeps _ _ _ _ ((wr_posted _ _ _ _).wf (ssGate_keeps _ _ _ _ ((engXlate_posted h1).wf ((engRd_posted h).wf hs)))))
          · dsimp only
            split
            · rename_i h _ _ _ _ h1 _ _ _
              exact (engXlate_posted h1).wf ((engRd_posted h).wf hs)
            · rename_i h _ _ _ _ h1 _ _ _
              exact appendWrite_keeps _ _ _ (movedBytes_keeps _ _ _ _ ((wr_posted _ _ _ _).wf ((engXlate_posted h1).wf ((engRd_posted h).wf hs))))

theorem execEsuAppendResume_keeps (s : State) : OutKeeps s (execEsuAppendResume s) := by
  unfold execEsuAppendResume
  refine outKeeps_next ?_
  intro hs
  split
  · split
    · exact appendTry_keeps _ _ hs
    · exact hs
  · exact hs

theorem raiseReq_keeps (s : State) (a : Acc) (pa : Nat) (r : Region) (c : Cell) (ix : Nat) : KeepsMem s (s.raiseReq a pa r c ix) := by
  unfold State.raiseReq
  intro hs
  dsimp only
  split
  · exact hs
  · exact appendTry_keeps _ _ hs

theorem putCell_keeps (s : State) (pa : Nat) (c : Cell) : KeepsMem s (s.putCell pa c) := by
  unfold State.putCell
  intro hs
  exact (wr_posted _ _ _ _).wf hs

theorem checkPut_keeps (s : State) (a : Acc) (pa : Nat) (r : Region) (c : Cell) (ix : Nat) : KeepsMem s (s.checkPut a pa r c ix) := by
  unfold State.checkPut
  intro hs
  dsimp only
  split
  · exact raiseReq_keeps _ _ _ _ _ _ (putCell_keeps _ _ _ hs)
  · exact putCell_keeps _ _ _ hs

theorem estDo_keeps (s : State) (a : Acc) (r : Region) : KeepsMem s (s.estDo a r) := by
  unfold State.estDo
  intro hs
  dsimp only
  split
  · exact checkPut_keeps _ _ _ _ _ _ hs
  · exact landFor_keeps _ _ _ _ _ _ (putCell_keeps _ _ _ hs)
  · exact checkPut_keeps _ _ _ _ _ _ hs
  · exact putCell_keeps _ _ _ hs
  · exact landFor_keeps _ _ _ _ _ _ (putCell_keeps _ _ _ hs)
  · exact putCell_keeps _ _ _ hs
  · exact hs

theorem estDrop_keeps (s : State) (a : Acc) : KeepsMem s (s.estDrop a) := by
  unfold State.estDrop
  intro hs
  split
  · exact landFor_keeps _ _ _ _ _ _ hs
  · exact landFor_keeps _ _ _ _ _ _ hs
  · exact hs

theorem sweepPa_keeps (s t : State) (c va pa : Nat) (h : s.sweepPa c va = .ok (pa, t)) : KeepsMem s t := by
  unfold State.sweepPa at h
  intro hs
  dsimp only at h
  split at h
  · split at h
    · cases h
    · cases h
  · split at h
    · cases h
    · split at h
      · cases h
      · cases h
        split
        · exact hs
        · exact (orPte_posted _ _ _).wf hs

theorem esuGate_keeps (s : State) (a : Acc) (pa : Nat) : KeepsMem s (s.esuGate a pa).2 := by
  unfold State.esuGate
  intro hs
  exact ssGate_keeps _ _ _ _ hs

theorem sweepDo_keeps (s : State) (a : Acc) (pa : Nat) (r : Region) (ix : Nat) (tile : Option Nat) : KeepsMem s (s.sweepDo a pa r ix tile).1 := by
  unfold State.sweepDo
  intro hs
  dsimp only
  split
  · exact putCell_keeps _ _ _ hs
  · split
    · exact raiseReq_keeps _ _ _ _ _ _ (putCell_keeps _ _ _ hs)
    · exact putCell_keeps _ _ _ hs

theorem sweepCell_keeps (s : State) (a : Acc) (rg ix va : Nat) (tile : Option Nat) : KeepsMem s (s.sweepCell a rg ix va tile).1 := by
  unfold State.sweepCell
  split
  · exact .refl s
  · exact .refl s
  · rename_i pa s1 h
    have hpa := sweepPa_keeps _ _ _ _ _ h
    have hgate := hpa.trans (esuGate_keeps s1 a pa)
    have hdesc := hgate.trans (esuDesc_keeps (s1.esuGate a pa).2 (s1.esuDie pa) (paSlice pa) a.ctx rg)
    split
    · exact .refl s
    · dsimp only
      split
      · exact hgate
      · split
        · exact .refl s
        · rename_i hd
          rw [hd] at hdesc
          exact hdesc
        · rename_i hd
          rw [hd] at hdesc
          exact hdesc.trans ((sweepDo_keeps _ _ _ _ _ _).trans (movedBytes_keeps _ _ _ _))

theorem sweepGo_keeps (a : Acc) (rg : Nat) : ∀ (n : Nat) (s : State) (ix va : Nat) (tile : Option Nat), KeepsMem s (s.sweepGo a rg n ix va tile).1
  | 0, s, _, _, _ => .refl s
  | n + 1, s, ix, va, tile => by
    have hcell := sweepCell_keeps s a rg ix va tile
    unfold State.sweepGo
    split
    · rename_i h
      rw [h] at hcell
      exact hcell
    · rename_i h
      rw [h] at hcell
      exact hcell.trans (sweepGo_keeps a rg n _ _ _ _)

theorem readMate_keeps (s : State) (a : Acc) (r : Region) : KeepsMem s (s.readMate a r) := by
  unfold State.readMate
  intro hs
  exact putCell_keeps _ _ _ hs

theorem esuDo_keeps (s : State) (a : Acc) (r : Region) : KeepsMem s (s.esuDo a r) := by
  unfold State.esuDo
  intro hs
  refine movedBytes_keeps _ _ _ _ ?_
  split
  · exact readMate_keeps _ _ _ hs
  · exact estDo_keeps _ _ _ hs

theorem esuArrive_keeps (s : State) (a : Acc) : KeepsMem s (s.esuArrive a) := by
  unfold State.esuArrive
  split
  · exact .refl s
  · split
    · dsimp only
      split <;> exact (sweepGo_keeps _ _ _ _ _ _ _).trans fun hs => hs
    · have hdesc := (esuGate_keeps s a a.esuPa).trans (esuDesc_keeps (s.esuGate a a.esuPa).2 (s.esuDie a.esuPa) (paSlice a.esuPa) a.ctx a.op.region)
      dsimp only
      split
      · exact esuGate_keeps _ _ _
      · split
        · exact .refl s
        · rename_i hd
          rw [hd] at hdesc
          exact hdesc.trans (estDrop_keeps _ a)
        · rename_i hd
          rw [hd] at hdesc
          exact hdesc.trans (esuDo_keeps _ _ _)

theorem esuStep_keeps (kind : AccOp → Bool) (s : State) : KeepsMem s (esuStep kind s) := by
  unfold esuStep
  intro hs
  split
  · exact esuArrive_keeps _ _ hs
  · exact hs

theorem execEsuEst_keeps (s : State) : OutKeeps s (execEsuEst s) := by
  unfold execEsuEst
  refine outKeeps_next ?_
  intro hs
  exact esuStep_keeps _ _ hs

theorem execEsuEld_keeps (s : State) : OutKeeps s (execEsuEld s) := by
  unfold execEsuEld
  refine outKeeps_next ?_
  intro hs
  exact esuStep_keeps _ _ hs

theorem execEsuEmrg_keeps (s : State) : OutKeeps s (execEsuEmrg s) := by
  unfold execEsuEmrg
  refine outKeeps_next ?_
  intro hs
  exact esuStep_keeps _ _ hs

theorem execEsuEclr_keeps (s : State) : OutKeeps s (execEsuEclr s) := by
  unfold execEsuEclr
  refine outKeeps_next ?_
  intro hs
  exact esuStep_keeps _ _ hs

theorem execEsuEsweep_keeps (s : State) : OutKeeps s (execEsuEsweep s) := by
  unfold execEsuEsweep
  refine outKeeps_next ?_
  intro hs
  exact esuStep_keeps _ _ hs

theorem execEsuEraw_keeps (s : State) : OutKeeps s (execEsuEraw s) := by
  unfold execEsuEraw
  refine outKeeps_next ?_
  intro hs
  exact esuStep_keeps _ _ hs

theorem execEsuEinit_keeps (s : State) : OutKeeps s (execEsuEinit s) := by
  unfold execEsuEinit
  refine outKeeps_next ?_
  intro hs
  exact esuStep_keeps _ _ hs

/-! ## Copy -/

theorem copyRead_keeps (c : Nat) (sp : Bool) (tid : Option Nat) : ∀ (ps : List Piece) (s : State) (buf : List Byte),
    KeepsMem s (s.copyRead c sp tid buf ps).1
  | [], s, _ => .refl s
  | (a, n) :: r, s, buf => by
    unfold State.copyRead
    split
    · split
      · exact .refl s
      · split
        · exact .refl s
        · exact copyRead_keeps c sp tid r s _
    · split
      · rename_i h
        exact (engXlate_posted h).keeps.trans ((movedBytes_keeps _ _ _ _).trans (copyRead_keeps c sp tid r _ _))
      · exact .refl s
      · exact .refl s

theorem fillGranules_keeps (s : State) (tid a n : Nat) (past : List Piece) : KeepsMem s (s.fillGranules tid a n past) := by
  unfold State.fillGranules
  intro hs
  refine KeepsMem.fold _ (fun s a => ?_) _ _ ?_
  · intro hs
    split <;> exact hs
  · exact hs

theorem copyWrite_keeps (c : Nat) (sp fill : Bool) (tid : Option Nat) : ∀ (ps : List Piece) (s : State) (past : List Piece) (bs : List Byte),
    KeepsMem s (s.copyWrite c sp fill tid past bs ps).1
  | [], s, _, _ => .refl s
  | (a, n) :: r, s, past, bs => by
    unfold State.copyWrite
    dsimp only
    split
    · split
      · exact .refl s
      · split
        · exact .refl s
        · split
          · exact fun hs => copyWrite_keeps c sp fill tid r _ _ _ (fillGranules_keeps _ _ _ _ _ hs)
          · exact fun hs => copyWrite_keeps c sp fill tid r _ _ _ hs
    · split
      · rename_i pa s1 h
        have hwr : KeepsMem s1 ((s1.wrBytes pa (bs.take n)).byEngine 0 s1.writes) := (wrBytes_posted s1 pa _).keeps
        exact (engXlate_posted h).keeps.trans (hwr.trans ((movedBytes_keeps _ c pa n).trans (copyWrite_keeps c sp fill tid r _ _ _)))
      · exact .refl s
      · exact .refl s

theorem copyFault_keeps (s : State) (o : OutPkt) (kind va cause : Nat) : KeepsMem s (s.copyFault o kind va cause) := by
  unfold State.copyFault
  intro hs
  exact (faultPut_posted _ _ _).wf (noteLost_keeps _ _ _ hs)

theorem copyGo_keeps (s : State) (o : OutPkt) : KeepsMem s (s.copyGo o) := by
  unfold State.copyGo
  intro hs
  dsimp only
  split
  · exact copyRead_keeps _ _ _ _ _ _ hs
  · exact copyFault_keeps _ _ _ _ _ (copyRead_keeps _ _ _ _ _ _ hs)
  · split
    · exact copyWrite_keeps _ _ _ _ _ _ _ _ (copyRead_keeps _ _ _ _ _ _ hs)
    · exact copyFault_keeps _ _ _ _ _ (copyWrite_keeps _ _ _ _ _ _ _ _ (copyRead_keeps _ _ _ _ _ _ hs))
    · split <;> exact ssGate_keeps _ _ _ _ (copyWrite_keeps _ _ _ _ _ _ _ _ (copyRead_keeps _ _ _ _ _ _ hs))

theorem copyOn_keeps (s : State) (id : Nat) : KeepsMem s (s.copyOn id) := by
  unfold State.copyOn
  intro hs
  split
  · split
    · exact copyGo_keeps _ _ hs
    · exact hs
  · exact hs

/-! ## Matrix -/

theorem slotBusy_keeps (hs : List Nat) (s : State) (i : Iss) (t : State) (h : slotBusy hs s i = some t) : KeepsMem s t := waitIf_keeps _ s i t h

theorem execMclaim_keeps (d : BitVec 7) (n : BitVec 3) (h : BitVec 5) (s : State) : OutKeeps s (execMclaim d n h s) := by
  unfold execMclaim
  refine outKeeps_next ?_
  intro hs
  refine issue_keeps _ _ ?_ ?_ ?_
  · intro s i t h hs
    exact (never_keeps _ _ _ h).wf hs
  · intro i s hs
    refine prodBody_keeps _ _ _ _ ?_
    split
    · split <;> exact hs
    · split
      · split <;> exact hs
      · split <;> exact hs
  · exact hs

theorem execMrel_keeps (n : BitVec 3) (h : BitVec 5) (s : State) : OutKeeps s (execMrel n h s) := by
  unfold execMrel
  refine outKeeps_next ?_
  intro hs
  refine issue_keeps _ _ ?_ ?_ ?_
  · intro s i t h hs
    exact (slotBusy_keeps _ _ _ _ h).wf hs
  · intro i s hs
    exact hs
  · exact hs

theorem execMzero_keeps (n : BitVec 3) (h : BitVec 5) (s : State) : OutKeeps s (execMzero n h s) := by
  unfold execMzero
  refine outKeeps_next ?_
  intro hs
  refine issue_keeps _ _ ?_ ?_ ?_
  · intro s i t h hs
    exact (slotBusy_keeps _ _ _ _ h).wf hs
  · intro i s hs
    exact hs
  · exact hs

theorem execMrow_keeps (a : BitVec 7) (h : BitVec 5) (s : State) : OutKeeps s (execMrow a h s) := by
  unfold execMrow
  refine outKeeps_next ?_
  intro hs
  refine issue_keeps _ _ ?_ ?_ ?_
  · intro s i t h hs
    exact (slotBusy_keeps _ _ _ _ h).wf hs
  · intro i s hs
    exact hs
  · exact hs

theorem execMread_keeps (d : BitVec 7) (h : BitVec 5) (s : State) : OutKeeps s (execMread d h s) := by
  unfold execMread
  refine outKeeps_next ?_
  intro hs
  refine issue_keeps _ _ ?_ ?_ ?_
  · intro s i t h hs
    exact (waitIf_keeps _ _ _ _ h).wf hs
  · intro i s hs
    exact hs
  · exact hs

theorem mldIssue_keeps (s : State) (ix : Nat) (a : BitVec 7) (r : BitVec 4) (scales : Bool) (i : Iss) (L : Nat) (ps : List (Nat × Pte)) : KeepsMem s (s.mldIssue ix a r scales i L ps) := by
  unfold State.mldIssue
  intro hs
  refine KeepsMem.fold _ (fun s a => ?_) _ _ ?_
  · intro hs
    exact addAcc_keeps _ _ _ _ hs
  · dsimp only
    split
    · refine KeepsMem.fold _ (fun s a => ?_) _ _ ?_
      · intro hs
        exact addAcc_keeps _ _ _ _ hs
      · exact hs
    · exact hs

theorem execMld_keeps (h : BitVec 5) (a : BitVec 7) (r : BitVec 4) (z : BitVec 3) (g : BitVec 2) (s : State) : OutKeeps s (execMld h a r z g s) := by
  unfold execMld
  dsimp only
  refine outKeeps_next (issue_keeps s _ (fun s i t h => ?_) fun i s => ?_)
  · split at h
    · cases h; exact .refl s
    · exact needPages_keeps _ _ _ _ h
  · exact (memBodyN_keeps _ _ _ (fun i L ps s => mldIssue_keeps _ _ _ _ _ _ _ _) _ _).trans (keeps_updWave _ _ _)

theorem execMsets_keeps (a : BitVec 7) (s : State) : OutKeeps s (execMsets a s) := by
  unfold execMsets
  refine outKeeps_next ?_
  intro hs
  refine issue_keeps _ _ ?_ ?_ ?_
  · intro s i t h hs
    exact (never_keeps _ _ _ h).wf hs
  · intro i s hs
    dsimp only
    split <;> exact hs
  · exact hs

theorem execMcbt_keeps (a : BitVec 7) (r : BitVec 4) (g : BitVec 2) (s : State) : OutKeeps s (execMcbt a r g s) := by
  refine outKeeps_next (issue_keeps s _ (both_keeps (waitIf_keeps _) (both_keeps (fun _ _ _ h => needPages_keeps _ _ _ _ h)
    (both_keeps (waitPieces_keeps _ _ _) (waitWholes_keeps _)))) fun i s => ?_)
  have hseen := seen_keeps s i i .wk (mcbtWholes r a s i) (i.eachLane (mcbtWholes r a s i))
  dsimp only
  split
  · exact hseen
  · split
    · exact hseen
    · split
      · split
        · exact hseen
        · exact hseen.trans fun hs => hs
      · exact hseen.trans (memBodyN_keeps _ _ _ (fun _ _ _ s => .refl s) _ _)

theorem execMma_keeps (d f : BitVec 7) (a b : BitVec 5) (z : BitVec 1) (s : State) : OutKeeps s (execMma d f a b z s) := by
  unfold execMma
  refine outKeeps_next ?_
  intro hs
  refine issue_keeps _ _ ?_ ?_ ?_
  · intro s i t h hs
    exact (waitIf_keeps _ _ _ _ h).wf hs
  · intro i s hs
    dsimp only
    split
    · exact hs
    · exact prodBody_keeps _ _ _ _ hs
  · exact hs

theorem execMatrixUnitFree_keeps (s : State) : OutKeeps s (execMatrixUnitFree s) := by
  unfold execMatrixUnitFree
  refine outKeeps_next ?_
  intro hs
  split <;> exact hs

theorem execHadq_keeps (d a b : BitVec 7) (e f : BitVec 1) (g : BitVec 2) (s : State) : OutKeeps s (execHadq d a b e f g s) := by
  unfold execHadq
  refine outKeeps_next ?_
  intro hs
  refine issue_keeps _ _ ?_ ?_ ?_
  · intro s i t h hs
    exact (never_keeps _ _ _ h).wf hs
  · intro i s hs
    exact hs
  · exact hs

theorem sampleOp_keeps (na lat : Nat) (run : State → Iss → Nat → Rd (List Word)) (d a b : BitVec 7) (e f : BitVec 1) (g : BitVec 2)
    (s : State) : KeepsMem s (sampleOp na lat run d a b e f g s) := by
  refine issue_keeps s _ (fun s i t h => ?busy) fun i s => ?body
  case busy =>
    split at h
    · exact both_keeps (waitPieces_keeps _ _ _) (waitWholes_keeps _) _ _ _ h
    · cases h
      exact KeepsMem.fold _ (fun s va => askWalk_keeps s _ _ _ _) _ s
  case body =>
    dsimp only
    refine KeepsMem.trans ((passed_keeps s i _).trans (sawAll_keeps _ _ _ _))
      (KeepsMem.trans (KeepsMem.fold _ (fun s r => ?_) _ _) (parkFaults_keeps _ _ _ _ _))
    split
    · exact (keeps_goOn _ _ _ _).trans (keeps_addLand _ _ _ _ _ _ _ _)
    · exact (machineCheck_posted s _ _ _ _ _).keeps
    · exact .refl s

theorem execMarch_keeps (d a b : BitVec 7) (e f : BitVec 1) (g : BitVec 2) (s : State) : OutKeeps s (execMarch d a b e f g s) := by
  unfold execMarch
  refine outKeeps_next ?_
  intro hs
  exact sampleOp_keeps _ _ _ _ _ _ _ _ _ _ hs

theorem execHgrid_keeps (d a b : BitVec 7) (e f : BitVec 1) (g : BitVec 2) (s : State) : OutKeeps s (execHgrid d a b e f g s) := by
  unfold execHgrid
  refine outKeeps_next ?_
  intro hs
  exact sampleOp_keeps _ _ _ _ _ _ _ _ _ _ hs

theorem dotOp_keeps (fn : Word → Word → Word → Word) (d a : BitVec 7) (e : BitVec 1) (g : BitVec 2) (s : State) : KeepsMem s (dotOp fn d a e g s) := by
  unfold dotOp
  intro hs
  refine issue_keeps _ _ ?_ ?_ ?_
  · intro s i t h hs
    exact (never_keeps _ _ _ h).wf hs
  · intro i s hs
    exact prodBody_keeps _ _ _ _ hs
  · exact hs

theorem execIdot4_keeps (d a : BitVec 7) (e : BitVec 1) (g : BitVec 2) (s : State) : OutKeeps s (execIdot4 d a e g s) := by
  unfold execIdot4
  refine outKeeps_next ?_
  intro hs
  exact dotOp_keeps _ _ _ _ _ _ hs

theorem execNdot4_keeps (d a : BitVec 7) (e : BitVec 1) (g : BitVec 2) (s : State) : OutKeeps s (execNdot4 d a e g s) := by
  unfold execNdot4
  refine outKeeps_next ?_
  intro hs
  exact dotOp_keeps _ _ _ _ _ _ hs

theorem execIdot8_keeps (d a : BitVec 7) (e : BitVec 1) (g : BitVec 2) (s : State) : OutKeeps s (execIdot8 d a e g s) := by
  unfold execIdot8
  refine outKeeps_next ?_
  intro hs
  exact dotOp_keeps _ _ _ _ _ _ hs

theorem execIdist4_keeps (d a : BitVec 7) (e : BitVec 1) (g : BitVec 2) (s : State) : OutKeeps s (execIdist4 d a e g s) := by
  unfold execIdist4
  refine outKeeps_next ?_
  intro hs
  exact dotOp_keeps _ _ _ _ _ _ hs

theorem execFdot4e4_keeps (d a : BitVec 7) (e : BitVec 1) (g : BitVec 2) (s : State) : OutKeeps s (execFdot4e4 d a e g s) := by
  unfold execFdot4e4
  refine outKeeps_next ?_
  intro hs
  exact dotOp_keeps _ _ _ _ _ _ hs

theorem execFdot4e5_keeps (d a : BitVec 7) (e : BitVec 1) (g : BitVec 2) (s : State) : OutKeeps s (execFdot4e5 d a e g s) := by
  unfold execFdot4e5
  refine outKeeps_next ?_
  intro hs
  exact dotOp_keeps _ _ _ _ _ _ hs

theorem execHdot2_keeps (d a : BitVec 7) (e : BitVec 1) (g : BitVec 2) (s : State) : OutKeeps s (execHdot2 d a e g s) := by
  unfold execHdot2
  refine outKeeps_next ?_
  intro hs
  exact dotOp_keeps _ _ _ _ _ _ hs

theorem keeps_spWr (s : State) (tid off : Nat) (bs : List Byte) : KeepsMem s (s.spWr tid off bs) := fun hs => hs

theorem keeps_kLock (s : State) (tid uid off len : Nat) (ls : List Nat) (till : Nat) : KeepsMem s (s.kLock tid uid off len ls till) := fun hs => hs

theorem keeps_kPut (s : State) (tid off : Nat) (l : KList) (lock : Bool) : KeepsMem s (s.kPut tid off l lock) := keeps_spWr s _ _ _

theorem kRun_keeps (s t : State) (shut : Nat → Bool) (die tid uid : Nat) (xs : List (Nat × KOp)) (vals : List (Nat × Word)) (due : Nat)
    (h : s.kRun shut die tid uid xs = .done t vals due) : KeepsMem s t := by
  unfold State.kRun at h
  dsimp only at h
  split at h
  · cases h
    exact .refl s
  · split at h
    · cases h
    · split at h
      · cases h
      · cases h
        exact keeps_kPut _ _ _ _ _
  · split at h
    · cases h
    · split at h
      · cases h
      · split at h
        · cases h
          exact (keeps_kPut _ _ _ _ _).trans (keeps_kLock _ _ _ _ _ _ _)
        · cases h
  · iterate 5
      split at h
      · cases h
    split at h
    · split at h
      · cases h
      · cases h
        exact (keeps_kPut _ _ _ _ _).trans ((keeps_spWr _ _ _ _).trans ((keeps_kLock _ _ _ _ _ _ _).trans (keeps_kLock _ _ _ _ _ _ _)))
    · cases h

theorem kBlock_keeps (i : Iss) (off : Nat) (xs : List (Nat × KOp)) (s : State) : KeepsMem s (kBlock i off xs s) := by
  unfold kBlock
  intro hs
  refine KeepsMem.fold _ (fun s a => ?_) _ _ ?_
  · intro hs
    exact hs
  · exact hs

theorem kIssue_keeps (op : Lane → KOp) (i : Iss) (s : State) : KeepsMem s (kIssue op i s).1 := by
  unfold kIssue
  dsimp only
  split
  · exact kBlock_keeps i _ _ s
  · exact .refl s
  · rename_i h
    have hrun := kRun_keeps _ _ _ _ _ _ _ _ _ h
    split
    · exact hrun.trans fun hs => hs
    · exact hrun.trans (prodBody_keeps _ _ _ _)

theorem kBusy_keeps (op : Lane → KOp) (s : State) (i : Iss) (t : State) (h : kBusy op s i = some t) : KeepsMem s t :=
  both_keeps (waitQuiet_keeps _) (waitIf_keeps _) s i t h

theorem execKinit_keeps (a : BitVec 7) (y : BitVec 1) (k : BitVec 8) (s : State) : OutKeeps s (execKinit a y k s) := by
  unfold execKinit
  refine outKeeps_next ?_
  intro hs
  refine issue_keeps _ _ ?_ ?_ ?_
  · intro s i t h hs
    exact (kBusy_keeps _ _ _ _ h).wf hs
  · intro i s hs
    split
    · exact hs
    · exact kIssue_keeps _ _ _ hs
  · exact hs

theorem execKins_keeps (d a : BitVec 7) (s : State) : OutKeeps s (execKins d a s) := by
  unfold execKins
  refine outKeeps_next ?_
  intro hs
  refine issue_keeps _ _ ?_ ?_ ?_
  · intro s i t h hs
    exact (kBusy_keeps _ _ _ _ h).wf hs
  · intro i s hs
    split
    · exact hs
    · exact kIssue_keeps _ _ _ hs
  · exact hs

theorem execKmrg_keeps (d a : BitVec 7) (s : State) : OutKeeps s (execKmrg d a s) := by
  unfold execKmrg
  refine outKeeps_next ?_
  intro hs
  refine issue_keeps _ _ ?_ ?_ ?_
  · intro s i t h hs
    exact (kBusy_keeps _ _ _ _ h).wf hs
  · intro i s hs
    split
    · exact hs
    · exact hs
    · exact kIssue_keeps _ _ _ hs
  · exact hs

theorem execKrd_keeps (d a : BitVec 7) (s : State) : OutKeeps s (execKrd d a s) := by
  refine outKeeps_next (issue_keeps s _ (both_keeps (waitQuiet_keeps _) (waitIf_keeps _)) fun i s => ?_)
  intro hs
  dsimp only
  split
  · exact hs
  · split
    · exact hs
    · exact hs
    · exact prodBody_keeps _ _ _ _ hs

theorem kServe_keeps (s : State) (tid uid grp : Nat) : KeepsMem s (s.kServe tid uid grp) := by
  unfold State.kServe
  split
  · dsimp only
    split
    · exact KeepsMem.fold _ (fun s x => keeps_updLane s _ _ _) _ s
    · exact (KeepsMem.fold _ (fun s x => keeps_updLane s _ _ _) _ s).trans (takeTraps_ran _ _ _).keeps
    · rename_i h
      exact (kRun_keeps _ _ _ _ _ _ _ _ _ h).trans ((KeepsMem.fold _ (fun s v => keeps_addLand s _ _ _ _ _ _ _) _ _).trans
        ((KeepsMem.fold _ (fun s x => keeps_updLane s _ _ _) _ _).trans (stepHalt_ran _ _).keeps))
  · exact .refl s

theorem kWake_keeps (tid off : Nat) : ∀ (n : Nat) (s : State), KeepsMem s (State.kWake tid off n s)
  | 0, s => .refl s
  | n + 1, s => by
    unfold State.kWake
    split
    · split
      · exact .refl s
      · split
        · exact (kServe_keeps s _ _ _).trans (kWake_keeps tid off n _)
        · exact .refl s
    · exact .refl s

theorem execTopkLockRelease_keeps (s : State) : OutKeeps s (execTopkLockRelease s) := by
  unfold execTopkLockRelease
  refine outKeeps_next ?_
  split
  · exact .refl s
  · split
    · exact .refl s
    · exact fun hs => kWake_keeps _ _ _ _ hs

/-! ## System -/

theorem execTrapAssert_keeps (a : BitVec 7) (n : BitVec 4) (s : State) : OutKeeps s (execTrapAssert a n s) := by
  unfold execTrapAssert
  refine outKeeps_next ?_
  intro hs
  refine issue_keeps _ _ ?_ ?_ ?_
  · intro s i t h hs
    exact (never_keeps _ _ _ h).wf hs
  · intro i s hs
    exact (stopCtx_ran _ _ _ _ _ _).wf ((takeTraps_ran _ _ _).wf hs)
  · exact hs

theorem execBkpt_keeps (s : State) : OutKeeps s (execBkpt s) := by
  unfold execBkpt
  refine outKeeps_next ?_
  intro hs
  refine issue_keeps _ _ ?_ ?_ ?_
  · intro s i t h hs
    exact (never_keeps _ _ _ h).wf hs
  · intro i s hs
    exact (haltLanes_ran _ _ _).wf hs
  · exact hs

theorem execRft_keeps (s : State) : OutKeeps s (execRft s) := by
  unfold execRft
  refine outKeeps_next ?_
  intro hs
  refine issue_keeps _ _ ?_ ?_ ?_
  · intro s i t h hs
    exact (never_keeps _ _ _ h).wf hs
  · intro i s hs
    exact (endHandler_ran _ _).wf hs
  · exact hs

theorem imagePages_keeps (a : BitVec 7) (n : BitVec 4) (s : State) (i : Iss) (t : State) (h : imagePages a n s i = some t) : KeepsMem s t :=
  needPages_keeps _ s i t h

theorem execSavew_keeps (a : BitVec 7) (n : BitVec 4) (s : State) : OutKeeps s (execSavew a n s) := by
  refine outKeeps_next (issue_keeps s _ (both_keeps (waitIf_keeps _) (both_keeps (imagePages_keeps a n) (both_keeps (waitPieces_keeps _ _ _)
    (both_keeps (waitIf_keeps _) (waitWholes_keeps _))))) fun i s => ?_)
  have hpass := passed_keeps s i (imageWholes .store a n s i)
  dsimp only
  split
  · exact hpass
  · split
    · exact hpass.trans ((KeepsMem.fold _ (fun s x => wrSeen_keeps s _ _ _) _ _).trans
        ((KeepsMem.fold _ (fun s v => setDirty_keeps s _ _ _) _ _).trans (keeps_advAll i _)))
    · exact hpass.trans (memBodyN_keeps _ _ _ (fun _ _ _ s => .refl s) _ _)

theorem execRestw_keeps (a : BitVec 7) (n : BitVec 4) (s : State) : OutKeeps s (execRestw a n s) := by
  refine outKeeps_next (issue_keeps s _ (both_keeps (waitIf_keeps _) (both_keeps (imagePages_keeps a n) (both_keeps (waitPieces_keeps _ _ _)
    (waitWholes_keeps _)))) fun i s => ?_)
  have hseen := seen_keeps s i i .wk (imageWholes .load a n s i) (i.eachLane (imageWholes .load a n s i))
  dsimp only
  split
  · exact hseen
  · split
    · split
      · exact hseen
      · exact hseen.trans (keeps_updWave _ _ _)
    · exact hseen.trans (memBodyN_keeps _ _ _ (fun _ _ _ s => .refl s) _ _)

theorem execIllegalInstruction_keeps (s : State) : OutKeeps s (execIllegalInstruction s) := by
  unfold execIllegalInstruction
  refine outKeeps_next ?_
  intro hs
  dsimp only
  split
  · exact hintOp_keeps _ _ _ hs
  · split
    · refine issue_keeps _ _ ?_ ?_ ?_
      · intro s i t h hs
        exact (never_keeps _ _ _ h).wf hs
      · intro i s hs
        exact hs
      · split <;> exact hs
    · refine issue_keeps _ _ ?_ ?_ ?_
      · intro s i t h hs
        exact (never_keeps _ _ _ h).wf hs
      · intro i s hs
        exact hs
      · exact hs

theorem execInstructionFetchFault_keeps (s : State) : OutKeeps s (execInstructionFetchFault s) := by
  unfold execInstructionFetchFault
  refine outKeeps_next ?_
  intro hs
  dsimp only
  split
  · exact hs
  · split
    · exact hs
    · split
      · exact parkFault_keeps _ _ _ _ _ _ _ hs
      · refine (takeTraps_ran _ _ _).wf ?_
        split
        · exact (machineCheck_posted _ _ _ _ _ _).wf hs
        · exact hs
      · exact hs

theorem execQuiescentPoint_keeps (s : State) : OutKeeps s (execQuiescentPoint s) := by
  unfold execQuiescentPoint
  refine outKeeps_next ?_
  intro hs
  split
  · split
    · split
      · exact (closeWindow_ran _ _).wf hs
      · exact hs
    · exact hs
  · exact hs

theorem execTrapWindowTimeout_keeps (s : State) : OutKeeps s (execTrapWindowTimeout s) := by
  unfold execTrapWindowTimeout
  refine outKeeps_next ?_
  intro hs
  split
  · split
    · split
      · exact (closeWindow_ran _ _).wf hs
      · exact hs
    · exact hs
  · exact hs

theorem execHandlerEntry_keeps (s : State) : OutKeeps s (execHandlerEntry s) := by
  unfold execHandlerEntry
  refine outKeeps_next ?_
  intro hs
  split
  · exact (enterHandler_ran _ _).wf hs
  · exact hs

theorem execBreakpointMatch_keeps (s : State) : OutKeeps s (execBreakpointMatch s) := by
  unfold execBreakpointMatch
  refine outKeeps_next ?_
  intro hs
  split
  · exact hs
  · exact (haltLanes_ran _ _ _).wf hs

/-! ## Task -/

theorem execLaunch_keeps (d a : BitVec 7) (n : BitVec 4) (s : State) : OutKeeps s (execLaunch d a n s) := by
  refine outKeeps_next (issueForced_keeps s _ _ _ (both_keeps (fun _ _ _ h => needPages_keeps _ _ _ _ h) (both_keeps (waitPieces_keeps _ _ _)
    (waitWholes_keeps _))) fun i s => ?_)
  have hseen := seen_keeps s i i .sc (launchWholes a n s i) (launchWholes a n s i)
  dsimp only
  refine hseen.trans (KeepsMem.trans (KeepsMem.fold _ (fun s L => (keeps_goOn s i L (d.toNat, 1)).trans (keeps_addLand _ _ _ _ _ _ _ _)) _ _)
    (memBody_keeps _ _ _ _ _ (fun i L pa e s => ?_) _ _))
  split
  · exact KeepsMem.trans (t := (s.launchFrom (s.whoOf i.uid L) (.start s.fresh)).addChild i _) (fun hs => hs)
      ((keeps_goOn _ i L (d.toNat, 1)).trans (keeps_addLand _ _ _ _ _ _ _ _))
  · exact (keeps_goOn s i L (d.toNat, 1)).trans (keeps_addLand _ _ _ _ _ _ _ _)

theorem missRecord_keeps (s : State) (i : Iss) (k : Nat) (m : Missed) : KeepsMem s (s.missRecord i k m) := by
  unfold State.missRecord
  intro hs
  exact (traceLane_posted _ _ _ _ _ _ _ _).wf ((event_posted _ _ _ _ _ _).wf hs)

theorem moveMarker_keeps (s : State) (i : Iss) (k : Nat) : KeepsMem s (s.moveMarker i k) := by
  unfold State.moveMarker
  intro hs
  dsimp only
  split <;> exact hs

/-- What a MARK that misses leaves before its lanes trap, wait or go on: the marker is moved, what was missed is recorded, the pages that are waited
for are asked for, and a dealt team's timetable fires. -/
def markMissed (s : State) (i : Iss) (new : List Nat) (k : Nat) : State :=
  let s1 := s.moveMarker i k
  let ms := s1.missed i.g i.w.bases k
  let s3 := (s1.stallPages i.c ms).foldl (fun s p => s.tierAsk p.1 i.c p.2 true true) (ms.foldl (fun s m => s.missRecord { i with E := new } k m) s1)
  if i.t.kind = .dealt then s3.fireTt i.t.gid false else s3

theorem markMissed_keeps (s : State) (i : Iss) (new : List Nat) (k : Nat) : KeepsMem s (markMissed s i new k) := by
  have hask (ps : List (Nat × Nat)) (ms : List Missed) (s : State) :
      KeepsMem s (ps.foldl (fun s p => s.tierAsk p.1 i.c p.2 true true) (ms.foldl (fun s m => s.missRecord { i with E := new } k m) s)) :=
    (KeepsMem.fold _ (fun s m => missRecord_keeps s _ k m) ms s).trans (KeepsMem.fold _ (fun s p => tierAsk_keeps s _ _ _ _ _) ps _)
  unfold markMissed
  dsimp only
  split
  · exact fun hs => fireTt_keeps _ _ _ (hask _ _ _ (moveMarker_keeps s i k hs))
  · exact fun hs => hask _ _ _ (moveMarker_keeps s i k hs)

/-- What a MARK leaves: the state as it was, or as it misses, with some lanes that go on, or with lanes that wait. -/
theorem markBody_cases (kOf : Iss → Nat) (i : Iss) (s : State) : ∃ s1, (s1 = s ∨ ∃ new k, s1 = markMissed s i new k) ∧
    ((markBody kOf i s).1 = s1 ∨ (∃ Ls : List Nat, (markBody kOf i s).1 = Ls.foldl (fun s L => s.updLane i.uid L Lane.adv) s1) ∨
      ∃ f, (markBody kOf i s).1 = s1.updWave i.uid f) := by
  unfold markBody
  split
  rename_i bad ok _
  dsimp only
  split
  · exact ⟨s, .inl rfl, .inl rfl⟩
  · split
    all_goals
      split
      · exact ⟨s, .inl rfl, .inr (.inl ⟨_, rfl⟩)⟩
      · refine ⟨markMissed s i (ok.filter (fun L => !(i.l L).begun)) (kOf { i with E := ok }), .inr ⟨_, _, rfl⟩, ?_⟩
        split
        · exact .inl rfl
        · split
          · exact .inr (.inl ⟨_, rfl⟩)
          · exact .inr (.inr ⟨_, rfl⟩)

theorem markBody_keeps (kOf : Iss → Nat) (i : Iss) (s : State) : KeepsMem s (markBody kOf i s).1 := by
  obtain ⟨s1, hs1, h⟩ := markBody_cases kOf i s
  have h1 : KeepsMem s s1 := by
    rcases hs1 with rfl | ⟨new, k, rfl⟩
    · exact .refl _
    · exact markMissed_keeps s i new k
  rcases h with h | ⟨Ls, h⟩ | ⟨f, h⟩
  · rw [h]
    exact h1
  · rw [h]
    exact h1.trans (KeepsMem.fold _ (fun s L => keeps_updLane s _ L _) Ls s1)
  · rw [h]
    exact h1.trans (keeps_updWave s1 _ f)

theorem markBusy_keeps (s : State) (i : Iss) (t : State) (h : markBusy s i = some t) : KeepsMem s t := waitIf_keeps _ s i t h

theorem execMarkImm_keeps (k : BitVec 10) (s : State) : OutKeeps s (execMarkImm k s) := by
  unfold execMarkImm
  refine outKeeps_next ?_
  intro hs
  refine issue_keeps _ _ ?_ ?_ ?_
  · intro s i t h hs
    exact (markBusy_keeps _ _ _ h).wf hs
  · intro i s hs
    exact markBody_keeps _ _ _ hs
  · exact hs

theorem execMarkReg_keeps (a : BitVec 7) (s : State) : OutKeeps s (execMarkReg a s) := by
  unfold execMarkReg
  refine outKeeps_next ?_
  intro hs
  refine issue_keeps _ _ ?_ ?_ ?_
  · intro s i t h hs
    exact (markBusy_keeps _ _ _ h).wf hs
  · intro i s hs
    dsimp only
    split
    · exact markBody_keeps _ _ _ hs
    · exact hs
  · exact hs

theorem execMarkStallEnd_keeps (s : State) : OutKeeps s (execMarkStallEnd s) := by
  unfold execMarkStallEnd
  refine outKeeps_next ?_
  intro hs
  dsimp only
  split
  · exact hs
  · split
    · exact hs
    · exact (stepHalt_ran _ _).wf hs

/-! ## Trav -/

theorem nodeRd_keeps (s t : State) (k k1 : Stack) (va n : Nat) (bs : List Byte) (h : s.nodeRd k va n = .ok bs k1 t) : KeepsMem s t := by
  unfold State.nodeRd at h
  intro hs
  split at h
  · cases h
    rename_i h
    exact movedVa_keeps _ _ _ _ _ ((engRd_posted h).wf hs)
  · cases h
  · cases h

theorem nltPiece_keeps (s t : State) (k k1 : Stack) (nlt off : Nat) (good : BitVec 512 → Bool) (x : BitVec 512)
    (h : s.nltPiece k nlt off good = .ok x k1 t) : KeepsMem s t := by
  unfold State.nltPiece at h
  intro hs
  dsimp only at h
  split at h
  · cases h
    exact hs
  · split at h
    · split at h
      · cases h
        rename_i h
        exact (nodeRd_keeps _ _ _ _ _ _ _ h).wf hs
      · cases h
    · cases h
    · cases h
    · cases h

theorem listPieces_keeps (nlt : Nat) (u : Unit) : ∀ (offs : List Nat) (s t : State) (k k1 : Stack), s.listPieces k nlt offs = .ok u k1 t → KeepsMem s t
  | [], s, _, _, _, h => by cases h; exact .refl s
  | off :: r, s, t, k, k1, h => by
    unfold State.listPieces at h
    split at h
    · rename_i h1
      exact (nltPiece_keeps _ _ _ _ _ _ _ _ h1).trans (listPieces_keeps nlt u r _ _ _ _ h)
    · cases h
    · cases h
    · cases h

theorem nltHead_keeps (s t : State) (k k1 : Stack) (nlt : Nat) (x : BitVec 512) (h : s.nltHead k nlt = .ok x k1 t) : KeepsMem s t := by
  unfold State.nltHead at h
  split at h
  · cases h
  · split at h
    · rename_i h1
      refine (nltPiece_keeps _ _ _ _ _ _ _ _ h1).trans ?_
      split at h
      · cases h; exact .refl _
      · split at h
        · rename_i h2
          cases h
          exact listPieces_keeps _ _ _ _ _ _ _ h2
        · cases h
        · cases h
        · cases h
    · cases h
    · cases h
    · cases h

theorem tableVa_keeps (s t : State) (k k1 : Stack) (tab : Nat) (x : Option Nat) (h : s.tableVa k tab = .ok x k1 t) : KeepsMem s t := by
  unfold State.tableVa at h
  intro hs
  dsimp only at h
  split at h
  · cases h
    exact hs
  · split at h
    · cases h
    · split at h
      · split at h
        · cases h
          rename_i h _ _ h1
          exact (nltPiece_keeps _ _ _ _ _ _ _ _ h1).wf ((nltHead_keeps _ _ _ _ _ _ h).wf hs)
        · cases h
        · cases h
        · cases h
      · cases h
      · cases h
      · cases h

theorem nodeIn_keeps (s t : State) (k k1 : Stack) (nlt : Nat) (ref : BitVec 64) (b : NodeBuf) (h : s.nodeIn k nlt ref = .ok b k1 t) : KeepsMem s t := by
  unfold State.nodeIn at h
  intro hs
  dsimp only at h
  split at h
  · split at h
    · cases h
    · split at h
      · split at h
        · cases h
        · split at h
          · split at h
            · cases h
              rename_i h _ _ _ _ _ h1 _ _ _ _ _ _ _ h2 h3
              exact (nodeRd_keeps _ _ _ _ _ _ _ h3).wf ((nltPiece_keeps _ _ _ _ _ _ _ _ h2).wf ((nodeRd_keeps _ _ _ _ _ _ _ h1).wf ((nltHead_keeps _ _ _ _ _ _ h).wf hs)))
            · cases h
            · cases h
            · cases h
          · cases h
          · cases h
          · cases h
      · cases h
      · cases h
      · cases h
  · cases h
  · cases h
  · cases h

theorem nodeOf_keeps (s t : State) (k k1 : Stack) (ref : BitVec 64) (tab : Nat) (b : NodeBuf) (h : s.nodeOf k ref tab = .ok b k1 t) : KeepsMem s t := by
  unfold State.nodeOf at h
  split at h
  · rename_i h1
    exact (tableVa_keeps _ _ _ _ _ _ h1).trans (nodeIn_keeps _ _ _ _ _ _ _ h)
  · cases h
  · cases h
  · cases h
  · cases h

theorem call_keeps (s s0 : State) (k : Stack) (kind c : Nat) (ref : BitVec 64) (v22 : Nat) (b : NodeBuf) (h : KeepsMem s0 s) :
    KeepsMem s0 (s.call s0 k kind c ref v22 b) := by
  unfold State.call
  dsimp only
  split
  · exact ssGate_keeps _ _ _ _
  · exact h.trans (ssGate_keeps _ _ _ _)

theorem refill_keeps (s s0 : State) (k : Stack) (h : KeepsMem s0 s) : KeepsMem s0 (s.refill s0 k) := by
  unfold State.refill
  dsimp only
  split
  · exact h
  · split
    · rename_i hr
      exact h.trans ((engRd_posted hr).keeps.trans (movedVa_keeps _ _ _ _ _))
    · exact wbFault_keeps _ _ _ _
    · exact .refl s0

theorem pop_keeps (s s0 : State) (k : Stack) (h : KeepsMem s0 s) : KeepsMem s0 (s.pop s0 k) := by
  unfold State.pop
  dsimp only
  split
  · exact h
  · exact refill_keeps _ _ _ h

theorem leaveOrPop_keeps (s s0 : State) (k : Stack) (b : NodeBuf) (h : KeepsMem s0 s) : KeepsMem s0 (s.leaveOrPop s0 k b) := by
  unfold State.leaveOrPop
  dsimp only
  split
  · exact call_keeps _ _ _ _ _ _ _ _ h
  · exact pop_keeps _ _ _ h

theorem stepTop_keeps (s s0 : State) (k : Stack) (b : NodeBuf) (h : KeepsMem s0 s) : KeepsMem s0 (s.stepTop s0 k b) := by
  unfold State.stepTop
  dsimp only
  split
  · split
    · exact call_keeps _ _ _ _ _ _ _ _ h
    · exact h
  · split
    · exact leaveOrPop_keeps _ _ _ _ h
    · exact h
    · exact wbFault_keeps _ _ _ _
    · exact .refl s0

theorem execWalkStep_keeps (s : State) : OutKeeps s (execWalkStep s) := by
  unfold execWalkStep
  refine outKeeps_next ?_
  split
  · exact .refl s
  · rename_i k _
    have hpay := payHdr_keeps s k
    split
    · exact sleepStacks_keeps _ _
    · split
      · exact .refl s
      · split
        · rename_i h
          rw [h] at hpay
          exact hpay
        · rename_i h
          rw [h] at hpay
          dsimp only
          split
          · exact hpay
          · split
            · exact stepTop_keeps _ _ _ _ hpay
            · split
              · rename_i hn
                exact stepTop_keeps _ _ _ _ (hpay.trans (nodeOf_keeps _ _ _ _ _ _ _ hn))
              · exact hpay
              · exact hpay.trans (parkStack_keeps _ _ _)
              · exact .refl s

theorem pushWrites_keeps (s t : State) (k : Stack) (h : s.pushWrites k = .ok t) : KeepsMem s t := by
  have spilled {u : State} (hu : (if engineFrames ≤ k.depth then s.wbFrames k [k.depth - engineFrames] else Wb.ok s) = .ok u) : KeepsMem s u := by
    split at hu
    · exact wbFrames_keeps _ _ _ _ hu
    · cases hu
      exact .refl s
  unfold State.pushWrites at h
  split at h
  · rename_i h1
    exact (spilled h1).trans (wbWrite_keeps h)
  · exact spilled h

theorem freshJoin_keeps (s : State) (k : Stack) : KeepsMem s (s.freshJoin k) := fun hs => hs

theorem execNodeFetchComplete_keeps (s : State) : OutKeeps s (execNodeFetchComplete s) := by
  unfold execNodeFetchComplete
  refine outKeeps_next ?_
  split
  · exact .refl s
  · rename_i k _
    have hpay := payHdr_keeps s k
    split
    · split
      · exact .refl s
      · split
        · rename_i h
          rw [h] at hpay
          exact hpay
        · rename_i h
          rw [h] at hpay
          dsimp only
          split
          · exact .refl s
          · exact hpay.trans (wbFault_keeps _ _ _ _)
          · rename_i s2 hw
            have hpush : KeepsMem s (s2.freshJoin { k with hdrDue := false }) := fun hs => freshJoin_keeps _ _ (pushWrites_keeps _ _ _ hw (hpay hs))
            split
            · exact .refl s
            · exact hpay.trans (parkStack_keeps _ _ _)
            · exact hpush
            · rename_i hn
              have hnode := hpush.trans (nodeOf_keeps _ _ _ _ _ _ _ hn)
              split
              · exact call_keeps _ _ _ _ _ _ _ _ hnode
              · exact hnode
    · exact .refl s

theorem execJoinZero_keeps (s : State) : OutKeeps s (execJoinZero s) := by
  unfold execJoinZero
  refine outKeeps_next ?_
  intro hs
  dsimp only
  split
  · exact hs
  · split
    · exact hs
    · split
      · split
        · refine leaveOrPop_keeps _ _ _ _ ?_ ?_
          · intro hs
            exact hs
          · exact hs
        · exact hs
      · exact hs
      · exact wbFault_keeps _ _ _ _ hs
      · exact hs

theorem spillFrame_keeps (s t : State) (k : Stack) (L : Nat) (h : s.spillFrame k L = .ok t) : KeepsMem s t := by
  unfold State.spillFrame at h
  split at h
  · cases h; exact .refl s
  · exact wbFrames_keeps _ _ _ _ h

theorem execRoutineDecision_keeps (s : State) : OutKeeps s (execRoutineDecision s) := by
  unfold execRoutineDecision
  refine outKeeps_next ?_
  split
  · exact .refl s
  · rename_i k _
    have hpay := payHdr_keeps s k
    split
    · split
      · exact .refl s
      · split
        · rename_i h
          rw [h] at hpay
          exact hpay
        · rename_i h
          rw [h] at hpay
          dsimp only
          split
          · exact hpay
          · split
            · exact .refl s
            · exact hpay.trans (wbFault_keeps _ _ _ _)
            · rename_i s2 hsp
              have hspill : KeepsMem s s2 := by
                split at hsp
                · exact hpay.trans (spillFrame_keeps _ _ _ _ hsp)
                · cases hsp
                  exact hpay
              split
              · split
                · rename_i ht
                  have htab := hspill.trans (tableVa_keeps _ _ _ _ _ _ ht)
                  split <;> exact htab
                · exact hpay
                · exact hpay
                · exact hpay.trans (parkStack_keeps _ _ _)
                · exact .refl s
              · split
                · exact hspill
                · exact pop_keeps _ _ _ hspill
    · exact .refl s

theorem execRoutineWaveForm_keeps (s : State) : OutKeeps s (execRoutineWaveForm s) := by
  unfold execRoutineWaveForm
  refine outKeeps_next ?_
  intro hs
  dsimp only
  split
  · exact hs
  · split
    · exact hs
    · split
      · exact hs
      · split <;> exact ssGate_keeps _ _ _ _ hs

theorem keeps_clearSlot (s : State) (n : Nat) : KeepsMem s (s.clearSlot n) := by
  unfold State.clearSlot
  split
  · exact fun hs => hs
  · exact .refl s

theorem refuseStack_keeps (s : State) (r : StackReq) (result status : Nat) : KeepsMem s (s.refuseStack r result status) := by
  unfold State.refuseStack
  intro hs
  dsimp only
  split
  · split
    · exact releaseCont_keeps _ _ _ hs
    · exact hs
  · split
    · exact releaseCont_keeps _ _ _ hs
    · exact hs

theorem takeFault_keeps (s : State) (r : StackReq) (va : Nat) (header : Bool) : KeepsMem s (s.takeFault r va header) := by
  unfold State.takeFault
  intro hs
  dsimp only
  split <;> exact raiseFault_keeps _ _ _ _ _ _ _ _ _ _ _ _ (noteLost_keeps _ _ _ hs)

theorem outFault_keeps (s : State) (p : Option Nat) (seq : BitVec 32) : KeepsMem s (s.outFault p seq) := by
  unfold State.outFault
  intro hs
  split <;> exact hs

theorem execStackTake_keeps (s : State) : OutKeeps s (execStackTake s) := by
  unfold execStackTake
  refine outKeeps_next ?_
  split
  · split
    · exact restartStack_keeps _ _
    · exact .refl s
  · rename_i r _
    split
    · exact .refl s
    · split
      · exact .refl s
      · exact takeFault_keeps _ _ _ _
      · rename_i h1
        dsimp only
        split
        · exact refuseStack_keeps _ _ _ _
        · split
          · exact .refl s
          · exact takeFault_keeps _ _ _ _
          · rename_i s2 h2
            have hrd := (engRd_posted h1).keeps.trans (engRd_posted h2).keeps
            split
            · exact .refl s
            · have hclear (n handle : Nat) : KeepsMem s ((s2.movedVa r.ctx 2 r.va.toNat n).clearSlot handle) :=
                fun hs => keeps_clearSlot _ _ (movedVa_keeps _ _ _ _ _ (hrd hs))
              refine KeepsMem.trans ?_ (payHdr_keeps _ _)
              generalize hs3 : State.clearSlot _ _ = s3
              have h3 : KeepsMem s s3 := hs3 ▸ hclear _ _
              split <;> exact h3.trans fun hs => hs

theorem finishWrite_keeps (s t : State) (k : Stack) (h : s.finishWrite k = .ok t) : KeepsMem s t := by
  unfold State.finishWrite at h
  split at h
  · cases h; exact .refl s
  · exact writeBack_keeps _ _ _ _ h

theorem finishJoin_keeps (s t : State) (k : Stack) (h : s.finishJoin k = .ok t) : KeepsMem s t := by
  unfold State.finishJoin at h
  intro hs
  dsimp only at h
  split at h
  · cases h
    exact hs
  · split at h
    · cases h
      rename_i h
      exact movedBytes_keeps _ _ _ _ ((wr_posted _ _ _ _).wf ((engXlate_posted h).wf hs))
    · split at h
      · cases h
        exact hs
      · cases h
    · cases h

theorem afterWalk_keeps (s : State) (k : Stack) : KeepsMem s (s.afterWalk k) := by
  unfold State.afterWalk
  split <;> exact .refl s

theorem finishRest_keeps (s : State) (k : Stack) : KeepsMem s (s.finishRest k) := by
  unfold State.finishRest
  intro hs
  dsimp only
  split
  · refine outFault_keeps _ _ _ ?_
    split
    · exact releaseCont_keeps _ _ _ (afterWalk_keeps _ _ hs)
    · exact afterWalk_keeps _ _ hs
  · split
    · exact releaseCont_keeps _ _ _ (afterWalk_keeps _ _ hs)
    · exact afterWalk_keeps _ _ hs

theorem execWalkFinish_keeps (s : State) : OutKeeps s (execWalkFinish s) := by
  unfold execWalkFinish
  refine outKeeps_next ?_
  intro hs
  split
  · exact hs
  · split
    · split
      · exact hs
      · split
        · exact hs
        · exact hs
        · exact wbFault_keeps _ _ _ _ hs
        · split
          · exact hs
          · exact wbFault_keeps _ _ _ _ hs
          · split
            · exact hs
            · rename_i h _ _ _
              exact wbFault_keeps _ _ _ _ ((finishWrite_keeps _ _ _ h).wf hs)
            · rename_i h _ _ h1
              exact finishRest_keeps _ _ ((finishJoin_keeps _ _ _ h1).wf ((finishWrite_keeps _ _ _ h).wf hs))
    · exact hs

theorem retryStack_keeps (s : State) (id : Nat) (node : Bool) : KeepsMem s (s.retryStack id node) := by
  unfold State.retryStack
  intro hs
  dsimp only
  split
  · exact hs
  · split
    · split
      · exact sleepStacks_keeps _ _ hs
      · exact hs
    · split
      · exact sleepStacks_keeps _ _ hs
      · exact hs

theorem failStack_keeps (s : State) (id : Nat) : KeepsMem s (s.failStack id) := by
  unfold State.failStack
  intro hs
  dsimp only
  split <;> exact hs

theorem travBusy_keeps (a : BitVec 7) (n : BitVec 4) (s : State) (i : Iss) (t : State) (h : travBusy a n s i = some t) : KeepsMem s t := by
  unfold travBusy at h
  intro hs
  split at h
  · cases h
    rename_i h
    exact (caddyBusy_keeps _ _ _ h).wf hs
  · split at h
    · exact (needPages_keeps _ _ _ _ h).wf hs
    · cases h
      exact hs

theorem execTrav_keeps (d a : BitVec 7) (n : BitVec 4) (s : State) : OutKeeps s (execTrav d a n s) := by
  unfold execTrav
  refine outKeeps_next ?_
  intro hs
  refine issue_keeps _ _ ?_ ?_ ?_
  · intro s i t h hs
    exact (travBusy_keeps _ _ _ _ _ h).wf hs
  · intro i s hs
    dsimp only
    split
    · exact hs
    · refine afterExit_keeps _ _ ?_
      refine memBody_keeps _ _ _ _ _ ?_ _ _ ?_
      · intro i L pa e s hs
        exact hs
      · exact hs
  · exact hs

theorem execTnew_keeps (d a : BitVec 7) (m n : BitVec 4) (s : State) : OutKeeps s (execTnew d a m n s) := by
  unfold execTnew
  refine outKeeps_next ?_
  intro hs
  refine issue_keeps _ _ ?_ ?_ ?_
  · intro s i t h hs
    exact (needPages_keeps _ _ _ _ h).wf hs
  · intro i s hs
    refine memBody_keeps _ _ _ _ _ ?_ _ _ ?_
    · intro i L pa e s hs
      refine KeepsMem.fold _ (fun s a => ?_) _ _ ?_
      · intro hs
        exact addAcc_keeps _ _ _ _ hs
      · exact hs
    · exact hs
  · exact hs

theorem cutByHandle_land_keeps (s t : State) (i : Iss) (l : Lane) (n level new st : Nat) (h : s.cutByHandle i l n level new = .land st t) : KeepsMem s t := by
  unfold State.cutByHandle at h
  split at h
  · cases h
    exact .refl s
  · rename_i k _
    generalize (!k.open && !_) = shut at h
    iterate 4
      split at h
      · cases h
        exact .refl s
    split at h
    · cases h
    · have hgate := ssGate_keeps s (s.stackLogged k) k.die (s.stackPoint k 9 level)
      dsimp only at h
      split at h
      · cases h
      · split at h
        · cases h
        · cases h
        · split at h
          · cases h
          · cases h
          · rename_i s1 h1
            have hnew := hgate.trans (wbWrite_keeps h1)
            split at h
            · cases h
            · cases h
            · rename_i s2 h2
              have hframe : KeepsMem s1 s2 := by
                split at h2
                · exact wbFrames_keeps _ _ _ _ h2
                · exact spillFrame_keeps _ _ _ _ h2
              split at h
              · cases h
              · cases h
              · rename_i h3
                have hjoin := wbWrite_keeps h3
                cases h
                exact hnew.trans (hframe.trans fun hs => hjoin hs)

theorem cutByHandle_wait_keeps (s t : State) (i : Iss) (l : Lane) (n level new : Nat) (h : s.cutByHandle i l n level new = .wait t) : KeepsMem s t := by
  unfold State.cutByHandle at h
  split at h
  · cases h
  · rename_i k _
    generalize (!k.open && !_) = shut at h
    iterate 4
      split at h
      · cases h
    intro hs
    dsimp only at h
    split at h
    · cases h
      exact hs
    · split at h
      · cases h
        exact ssGate_keeps _ _ _ _ hs
      · split at h
        · cases h
          exact hs
        · cases h
          exact wbFault_keeps _ _ _ _ hs
        · split at h
          · cases h
            exact hs
          · cases h
            exact wbFault_keeps _ _ _ _ hs
          · split at h
            · cases h
              exact hs
            · cases h
              exact wbFault_keeps _ _ _ _ hs
            · split at h
              · cases h
                exact hs
              · cases h
                exact wbFault_keeps _ _ _ _ hs
              · cases h

theorem memCutBusy_keeps (a : BitVec 7) (n : BitVec 4) (s : State) (i : Iss) (t : State) (h : memCutBusy a n s i = some t) : KeepsMem s t :=
  both_keeps (fun _ _ _ h => needPages_keeps _ _ _ _ h) (both_keeps (waitPieces_keeps _ _ _) (both_keeps (fun _ _ _ h => needPages_keeps _ _ _ _ h)
    (both_keeps (waitPieces_keeps _ _ _) (both_keeps (waitPieces_keeps _ _ _) (both_keeps (waitIf_keeps _) (waitWholes_keeps _)))))) s i t h

theorem traceCut_keeps (s : State) (die level c gid tid loc team : Nat) : KeepsMem s (s.traceCut die level c gid tid loc team) := by
  unfold State.traceCut
  intro hs
  exact (trace_posted _ _ _ _ _ _ _ _ _ _).wf hs

theorem noteCut_keeps (s : State) (i : Iss) (L h level : Nat) : KeepsMem s (s.noteCut i L h level) := by
  unfold State.noteCut
  intro hs
  split
  · exact hs
  · split <;> exact traceCut_keeps _ _ _ _ _ _ _ _ hs

theorem memCut_keeps (s : State) (a d : BitVec 7) (n : BitVec 4) (i : Iss) (L due : Nat) (ps : List (Nat × Pte)) (hpa : Nat) : KeepsMem s (s.memCut a d n i L due ps hpa) := by
  unfold State.memCut
  intro hs
  dsimp only
  split
  · exact hs
  · exact traceCut_keeps _ _ _ _ _ _ _ _ (wrSeen_keeps _ _ _ _ (wrSeen_keeps _ _ _ _ (wrSeen_keeps _ _ _ _ (wrSeen_keeps _ _ _ _ hs))))

theorem handleCuts_keeps (s : State) (a d : BitVec 7) (n : BitVec 4) (i : Iss) : KeepsMem s (s.handleCuts a d n i) := by
  unfold State.handleCuts
  refine KeepsMem.fold _ (fun s L => ?_) _ s
  split
  · rename_i h
    have hcut := cutByHandle_land_keeps _ _ _ _ _ _ _ _ h
    split
    · exact hcut.trans (noteCut_keeps _ _ _ _ _)
    · exact hcut
  · rename_i h
    exact cutByHandle_wait_keeps _ _ _ _ _ _ _ h

theorem memCuts_keeps (s : State) (a d : BitVec 7) (n : BitVec 4) (i : Iss) : KeepsMem s (s.memCuts a d n i).1 := by
  unfold State.memCuts
  dsimp only
  refine KeepsMem.trans ((passed_keeps s i (memCutWholes a n s i)).trans (sawAll_keeps _ _ _ _))
    (KeepsMem.trans (memBody_keeps _ _ _ _ _ (fun i L _ _ s => (keeps_goOn s _ _ _).trans (keeps_addLand _ _ _ _ _ _ _ _)) _ _)
    (memBodyN_keeps _ _ _ (fun i L ps s => ?_) _ _))
  split
  · exact memCut_keeps _ _ _ _ _ _ _ _ _
  · exact .refl s

theorem execTcut_keeps (d a : BitVec 7) (n : BitVec 4) (s : State) : OutKeeps s (execTcut d a n s) := by
  refine outKeeps_next (issue_keeps s _ (fun s i t h => ?_) fun i s => (handleCuts_keeps s a d n i).trans (memCuts_keeps _ a d n i))
  split at h
  · rename_i h1
    cases h
    exact memCutBusy_keeps _ _ _ _ _ h1
  · dsimp only at h
    split at h
    · cases h
      exact handleCuts_keeps _ _ _ _ _
    · cases h

theorem tretLane_keeps (s : State) (i : Iss) (a : BitVec 7) (L : Nat) : KeepsMem s (s.tretLane i a L) := by
  unfold State.tretLane
  intro hs
  dsimp only
  split <;> exact hs

theorem execTret_keeps (a : BitVec 7) (s : State) : OutKeeps s (execTret a s) := by
  unfold execTret
  refine outKeeps_next ?_
  intro hs
  refine issueForced_keeps _ _ _ _ ?_ ?_ ?_
  · intro s i t h hs
    exact (waitIf_keeps _ _ _ _ h).wf hs
  · intro i s hs
    dsimp only
    split
    · refine KeepsMem.fold _ (fun s a => ?_) _ _ ?_
      · intro hs
        exact tretLane_keeps _ _ _ _ hs
      · exact hs
    · refine afterExit_keeps _ _ ?_
      refine KeepsMem.fold _ (fun s a => ?_) _ _ ?_
      · intro hs
        exact tretLane_keeps _ _ _ _ hs
      · exact hs
  · exact hs

theorem execTfrd_keeps (d a : BitVec 7) (w : BitVec 3) (s : State) : OutKeeps s (execTfrd d a w s) := by
  unfold execTfrd
  refine outKeeps_next ?_
  intro hs
  refine issue_keeps _ _ ?_ ?_ ?_
  · intro s i t h hs
    exact (waitIf_keeps _ _ _ _ h).wf hs
  · intro i s hs
    refine KeepsMem.fold _ (fun s a => ?_) _ _ ?_
    · intro hs
      split
      · split
        · exact hs
        · split
          · exact hs
          · exact wbFault_keeps _ _ _ _ hs
        · exact hs
      · exact hs
    · exact hs
  · exact hs

theorem execTfwr_keeps (d a : BitVec 7) (w : BitVec 3) (s : State) : OutKeeps s (execTfwr d a w s) := by
  unfold execTfwr
  refine outKeeps_next ?_
  intro hs
  refine issue_keeps _ _ ?_ ?_ ?_
  · intro s i t h hs
    exact (waitIf_keeps _ _ _ _ h).wf hs
  · intro i s hs
    refine KeepsMem.fold _ (fun s a => ?_) _ _ ?_
    · intro hs
      dsimp only
      split
      · split
        · rename_i h
          unfold State.frameWrite at h
          dsimp only at h
          split at h
          · cases h
            rename_i h
            split at h
            · exact (wbFrames_keeps _ _ _ _ h).wf hs
            · exact (spillFrame_keeps _ _ _ _ h).wf hs
          · split at h
            · exact (wbFrames_keeps _ _ _ _ h).wf hs
            · exact (spillFrame_keeps _ _ _ _ h).wf hs
        · split
          · exact hs
          · exact wbFault_keeps _ _ _ _ hs
        · exact hs
      · exact hs
    · exact hs
  · exact hs

theorem execTstat_keeps (d a : BitVec 7) (n : BitVec 4) (s : State) : OutKeeps s (execTstat d a n s) := by
  refine outKeeps_next (issue_keeps s _ (both_keeps (fun _ _ _ h => needPages_keeps _ _ _ _ h) (both_keeps (waitPieces_keeps _ _ _) (waitWholes_keeps _)))
    fun i s => ?_)
  dsimp only
  refine KeepsMem.trans ((passed_keeps s i (tstatWholes a n s i)).trans (sawAll_keeps _ _ _ _)) (KeepsMem.trans (KeepsMem.fold _ (fun s L => ?_) _ _)
    (memBody_keeps _ _ _ _ _ (fun i L _ _ s => (keeps_goOn s _ _ _).trans (keeps_addLand _ _ _ _ _ _ _ _)) _ _))
  split
  · exact (keeps_goOn s _ _ _).trans (keeps_addLand _ _ _ _ _ _ _ _)
  · exact .refl s

/-! ## Packet -/

theorem afterPush_keeps (s : State) (q slot : Nat) (k : Sync) : KeepsMem s (s.afterPush q slot k) := by
  unfold State.afterPush
  intro hs
  dsimp only
  split <;> exact hs

theorem finishNow_keeps (s : State) (q slot : Nat) (p : Pkt) (status : Nat) : KeepsMem s (s.finishNow q slot p status) := by
  unfold State.finishNow
  intro hs
  exact dispatch_keeps _ _ _ _ _ _ _ hs

theorem met_keeps (s : State) (q : Nat) (p : Pkt) (k : Sync) : KeepsMem s (s.met q p k) := by
  unfold State.met
  intro hs
  split
  · exact afterWait_keeps _ _ _ _ hs
  · exact hs

theorem doCard_keeps (s : State) (q slot : Nat) (p : Pkt) : KeepsMem s (s.doCard q slot p) := by
  unfold State.doCard
  intro hs
  split
  · exact finishNow_keeps _ _ _ _ _ hs
  · exact met_keeps _ _ _ _ hs

theorem doCopy_keeps (s : State) (q slot : Nat) (p : Pkt) : KeepsMem s (s.doCopy q slot p) := by
  unfold State.doCopy
  intro hs
  dsimp only
  split
  · exact hs
  · exact copyOn_keeps _ _ (dispatch_keeps _ _ _ _ _ _ _ hs)

theorem doTraverse_keeps (s : State) (q slot : Nat) (p : Pkt) : KeepsMem s (s.doTraverse q slot p) := by
  unfold State.doTraverse
  intro hs
  dsimp only
  split
  · exact hs
  · split
    · exact hs
    · exact haltQueue_keeps _ _ _ _ hs
    · rename_i h
      exact met_keeps _ _ _ _ (afterPush_keeps _ _ _ _ ((trace_posted _ _ _ _ _ _ _ _ _ _).wf ((consume_keeps _ _ _ _ h).wf hs)))

theorem doSignal_keeps (s : State) (o : OutPkt) : KeepsMem s (s.doSignal o) := by
  unfold State.doSignal
  intro hs
  split
  · exact hs
  · split
    · rename_i h
      exact (counterOp_keeps _ _ _ _ _ _ _ h).wf hs
    · exact haltQueue_keeps _ _ _ _ hs
    · exact hs

theorem doTimebind_keeps (s : State) (q slot : Nat) (p : Pkt) : KeepsMem s (s.doTimebind q slot p) := by
  unfold State.doTimebind
  intro hs
  dsimp only
  split
  · rename_i h
    exact finishNow_keeps _ _ _ _ _ ((engWr_posted h).wf hs)
  · exact haltQueue_keeps _ _ _ _ hs
  · exact hs

theorem attempt_keeps (s : State) (q slot : Nat) (p : Pkt) : KeepsMem s (s.attempt q slot p) := by
  unfold State.attempt
  intro hs
  dsimp only
  split
  · exact hs
  · split
    · split <;> exact finishNow_keeps _ _ _ _ _ hs
    · exact haltQueue_keeps _ _ _ _ hs
    · exact hs
    · split
      · exact doCard_keeps _ _ _ _ hs
      · exact doCard_keeps _ _ _ _ hs
      · exact doCopy_keeps _ _ _ _ hs
      · exact doTraverse_keeps _ _ _ _ hs
      · split
        · exact doSignal_keeps _ _ (dispatch_keeps _ _ _ _ _ _ _ hs)
        · exact dispatch_keeps _ _ _ _ _ _ _ hs
      · exact doTimebind_keeps _ _ _ _ hs
      · exact finishNow_keeps _ _ _ _ _ hs

theorem tookUp_keeps (s : State) (q : Nat) (t : State) : KeepsMem t (s.tookUp q t) := by
  unfold State.tookUp
  split <;> exact .refl t

theorem takeUp_keeps (s : State) (q : Nat) (kind : Nat → Bool) : KeepsMem s (s.takeUp q kind) := by
  unfold State.takeUp
  intro hs
  dsimp only
  split
  · exact hs
  · split
    · split
      · exact tookUp_keeps _ _ _ (attempt_keeps _ _ _ _ hs)
      · exact hs
    · split
      · exact hs
      · exact haltQueue_keeps _ _ _ _ hs
      · split
        · exact hs
        · split
          · exact tookUp_keeps _ _ _ (haltQueue_keeps _ _ _ _ hs)
          · split
            · exact tookUp_keeps _ _ _ (haltQueue_keeps _ _ _ _ hs)
            · split
              · exact tookUp_keeps _ _ _ (haltQueue_keeps _ _ _ _ hs)
              · exact tookUp_keeps _ _ _ (attempt_keeps _ _ _ _ hs)

theorem execJobPacket_keeps (s : State) : OutKeeps s (execJobPacket s) := by
  unfold execJobPacket
  refine outKeeps_next ?_
  intro hs
  exact takeUp_keeps _ _ _ hs

theorem execGridPacket_keeps (s : State) : OutKeeps s (execGridPacket s) := by
  unfold execGridPacket
  refine outKeeps_next ?_
  intro hs
  exact takeUp_keeps _ _ _ hs

theorem execCopyPacket_keeps (s : State) : OutKeeps s (execCopyPacket s) := by
  unfold execCopyPacket
  refine outKeeps_next ?_
  intro hs
  split
  · exact takeUp_keeps _ _ _ hs
  · exact copyOn_keeps _ _ hs

theorem execTraversePacket_keeps (s : State) : OutKeeps s (execTraversePacket s) := by
  unfold execTraversePacket
  refine outKeeps_next ?_
  intro hs
  exact takeUp_keeps _ _ _ hs

theorem execWaitcntPacket_keeps (s : State) : OutKeeps s (execWaitcntPacket s) := by
  unfold execWaitcntPacket
  refine outKeeps_next ?_
  intro hs
  exact takeUp_keeps _ _ _ hs

theorem execSignalPacket_keeps (s : State) : OutKeeps s (execSignalPacket s) := by
  unfold execSignalPacket
  refine outKeeps_next ?_
  intro hs
  split
  · exact takeUp_keeps _ _ _ hs
  · split
    · split
      · exact doSignal_keeps _ _ hs
      · exact hs
    · exact hs

theorem execTimebindPacket_keeps (s : State) : OutKeeps s (execTimebindPacket s) := by
  unfold execTimebindPacket
  refine outKeeps_next ?_
  intro hs
  exact takeUp_keeps _ _ _ hs

theorem execNopPacket_keeps (s : State) : OutKeeps s (execNopPacket s) := by
  unfold execNopPacket
  refine outKeeps_next ?_
  intro hs
  exact takeUp_keeps _ _ _ hs

theorem execIllegalPacketKind_keeps (s : State) : OutKeeps s (execIllegalPacketKind s) := by
  unfold execIllegalPacketKind
  refine outKeeps_next ?_
  intro hs
  exact takeUp_keeps _ _ _ hs

theorem childWait_keeps (s : State) (g : Grid) : KeepsMem s (s.childWait g) := by
  unfold State.childWait
  intro hs
  dsimp only
  split
  · exact afterWait_keeps _ _ _ _ hs
  · split <;> exact hs
  · exact hs

theorem execPacketWaitMet_keeps (s : State) : OutKeeps s (execPacketWaitMet s) := by
  unfold execPacketWaitMet
  refine outKeeps_next ?_
  intro hs
  split
  · exact takeUp_keeps _ _ _ hs
  · split
    · split
      · exact childWait_keeps _ _ hs
      · exact hs
    · exact hs

theorem batchAppends_keeps (x : Queue) (r gid : Nat) : ∀ (n : Nat) (s : State), KeepsMem s (s.batchAppends x r gid n)
  | 0, s => .refl s
  | n + 1, s => by
    unfold State.batchAppends
    dsimp only
    split
    · exact fun hs => batchAppends_keeps x r gid n _ hs
    · exact batchAppends_keeps x r gid n s

theorem formBatch_keeps (s : State) (q r n : Nat) : KeepsMem s (s.formBatch q r n) := by
  unfold State.formBatch
  intro hs
  exact batchAppends_keeps _ _ _ _ _ hs

theorem batch_keeps (s : State) (q : Nat) (due : Queue → Bool) : KeepsMem s (s.batch q due) := by
  unfold State.batch
  intro hs
  dsimp only
  split
  · exact hs
  · split
    · exact hs
    · exact haltQueue_keeps _ _ _ _ hs
    · split
      · exact hs
      · exact formBatch_keeps _ _ _ _ hs

theorem execEstreqBatchCount_keeps (s : State) : OutKeeps s (execEstreqBatchCount s) := by
  unfold execEstreqBatchCount
  refine outKeeps_next ?_
  intro hs
  exact batch_keeps _ _ _ hs

theorem execEstreqBatchTimeout_keeps (s : State) : OutKeeps s (execEstreqBatchTimeout s) := by
  unfold execEstreqBatchTimeout
  refine outKeeps_next ?_
  intro hs
  exact batch_keeps _ _ _ hs

theorem disableQueue_keeps (s : State) (q : Nat) : KeepsMem s (s.disableQueue q) := by
  unfold State.disableQueue
  intro hs
  split <;> exact hs

theorem runAgain_keeps (s : State) (q : Nat) (redo : Option Bool) : KeepsMem s (s.runAgain q redo) := by
  unfold State.runAgain
  intro hs
  dsimp only
  split
  · split
    · exact readHeader_keeps _ _ hs
    · exact hs
  · split
    · exact readHeader_keeps _ _ (setStatus_keeps _ _ _ hs)
    · exact setStatus_keeps _ _ _ hs

theorem discardSlot_keeps (s : State) (q : Nat) : KeepsMem s (s.discardSlot q) := by
  unfold State.discardSlot
  intro hs
  dsimp only
  split
  · exact hs
  · exact haltQueue_keeps _ _ _ _ hs
  · split
    · exact hs
    · split
      · exact hs
      · exact haltQueue_keeps _ _ _ _ hs
      · exact finishNow_keeps _ _ _ _ _ hs

theorem redoQueue_keeps (s : State) (q : Nat) : KeepsMem s (s.redoQueue q) := by
  unfold State.redoQueue
  intro hs
  dsimp only
  split
  · exact hs
  · split
    · exact hs
    · split
      · exact hs
      · split
        · exact restartOuts_keeps _ _ _ hs
        · split
          · exact hs
          · exact discardSlot_keeps _ _ hs

theorem enableQueue_keeps (s : State) (q ctx : Nat) : KeepsMem s (s.enableQueue q ctx) := by
  unfold State.enableQueue
  intro hs
  dsimp only
  split
  · split
    · exact redoQueue_keeps _ _ (readHeader_keeps _ _ hs)
    · exact hs
  · exact hs

theorem restartQueue_keeps (s : State) (q : Nat) : KeepsMem s (s.restartQueue q) := by
  unfold State.restartQueue
  intro hs
  exact redoQueue_keeps _ _ (runAgain_keeps _ _ _ hs)

theorem skipQueue_keeps (s : State) (q : Nat) : KeepsMem s (s.skipQueue q) := by
  unfold State.skipQueue
  intro hs
  split <;> exact redoQueue_keeps _ _ (runAgain_keeps _ _ _ hs)

theorem readHeaders_keeps (s : State) : KeepsMem s (s.readHeaders) := by
  unfold State.readHeaders
  intro hs
  refine KeepsMem.fold _ (fun s a => ?_) _ _ ?_
  · intro hs
    exact redoQueue_keeps _ _ (readHeader_keeps _ _ hs)
  · exact hs

theorem execQueueEnable_keeps (s : State) : OutKeeps s (execQueueEnable s) := by
  unfold execQueueEnable
  refine outKeeps_next ?_
  intro hs
  split
  · exact enableQueue_keeps _ _ _ hs
  · exact hs

theorem execQueueDisable_keeps (s : State) : OutKeeps s (execQueueDisable s) := by
  unfold execQueueDisable
  refine outKeeps_next ?_
  intro hs
  split
  · exact disableQueue_keeps _ _ hs
  · exact hs

theorem execQueueRestart_keeps (s : State) : OutKeeps s (execQueueRestart s) := by
  unfold execQueueRestart
  refine outKeeps_next ?_
  intro hs
  split
  · exact restartQueue_keeps _ _ hs
  · exact hs

theorem execQueueSkip_keeps (s : State) : OutKeeps s (execQueueSkip s) := by
  unfold execQueueSkip
  refine outKeeps_next ?_
  intro hs
  split
  · exact skipQueue_keeps _ _ hs
  · exact hs

theorem execMonitorSramError_keeps (s : State) : OutKeeps s (execMonitorSramError s) := by
  unfold execMonitorSramError
  refine outKeeps_next ?_
  intro hs
  dsimp only
  split
  · exact hs
  · split
    · exact (machineCheck_posted _ _ _ _ _ _).wf ((event_posted _ _ _ _ _ _).wf (haltQueue_keeps _ _ _ _ hs))
    · split
      · exact (machineCheck_posted _ _ _ _ _ _).wf ((event_posted _ _ _ _ _ _).wf (haltQueue_keeps _ _ _ _ hs))
      · exact hs

theorem execCounterPoison_keeps (s : State) : OutKeeps s (execCounterPoison s) := by
  unfold execCounterPoison
  refine outKeeps_next ?_
  intro hs
  dsimp only
  split
  · exact hs
  · exact (event_posted _ _ _ _ _ _).wf hs

theorem reinit_keeps (s : State) (c x : Nat) : KeepsMem s (s.reinit c x) := by
  unfold State.reinit
  intro hs
  split <;> exact hs

theorem execCntreinitWrite_keeps (s : State) : OutKeeps s (execCntreinitWrite s) := by
  unfold execCntreinitWrite
  refine outKeeps_next ?_
  intro hs
  split
  · exact reinit_keeps _ _ _ hs
  · exact hs

/-! ## Debug -/

theorem ssOff_keeps (s : State) : KeepsMem s (s.ssOff) := by
  unfold State.ssOff
  intro hs
  refine setSs_keeps _ _ ?_
  split
  · refine KeepsMem.fold _ (fun s a => ?_) _ _ ?_
    · intro hs
      exact ssAppend_keeps _ _ _ hs
    · exact hs
  · exact hs

theorem ssStart_keeps (s : State) (mode : Nat) : KeepsMem s (s.ssStart mode) := by
  unfold State.ssStart
  intro hs
  dsimp only
  split
  · exact setSs_keeps _ _ hs
  · split
    · exact setSs_keeps _ _ hs
    · refine KeepsMem.fold _ (fun s a => ?_) _ _ ?_
      · intro hs
        exact ssRead_keeps _ _ hs
      · exact setSs_keeps _ _ hs

theorem dbgApply_keeps (s : State) (b : BitVec 4096) : KeepsMem s (s.dbgApply b) := by
  unfold State.dbgApply
  intro hs
  dsimp only
  split
  · split
    · exact hs
    · exact ssOff_keeps _ hs
  · split
    · exact ssStart_keeps _ _ hs
    · exact hs

theorem dgenChange_keeps (s : State) (p : Nat → Bool) : KeepsMem s (s.dgenChange p) := by
  unfold State.dgenChange
  intro hs
  split
  · split
    · exact dbgApply_keeps _ _ hs
    · exact hs
  · exact hs

theorem execSsmodeRecord_keeps (s : State) : OutKeeps s (execSsmodeRecord s) := by
  unfold execSsmodeRecord
  refine outKeeps_next ?_
  intro hs
  exact dgenChange_keeps _ _ hs

theorem execSsmodeReplay_keeps (s : State) : OutKeeps s (execSsmodeReplay s) := by
  unfold execSsmodeReplay
  refine outKeeps_next ?_
  intro hs
  exact dgenChange_keeps _ _ hs

theorem execSsmodeOff_keeps (s : State) : OutKeeps s (execSsmodeOff s) := by
  unfold execSsmodeOff
  refine outKeeps_next ?_
  intro hs
  exact dgenChange_keeps _ _ hs

theorem execDebugConfigUpdate_keeps (s : State) : OutKeeps s (execDebugConfigUpdate s) := by
  unfold execDebugConfigUpdate
  refine outKeeps_next ?_
  intro hs
  exact dgenChange_keeps _ _ hs

theorem execScoresheetLogSpace_keeps (s : State) : OutKeeps s (execScoresheetLogSpace s) := by
  unfold execScoresheetLogSpace
  refine outKeeps_next ?_
  intro hs
  split
  · exact ssFlush_keeps _ _ hs
  · exact hs

theorem execReplayDivergeTimeout_keeps (s : State) : OutKeeps s (execReplayDivergeTimeout s) := by
  unfold execReplayDivergeTimeout
  refine outKeeps_next ?_
  intro hs
  split
  · exact ssDiverge_keeps _ _ _ _ hs
  · exact hs

theorem execReplayDivergeStale_keeps (s : State) : OutKeeps s (execReplayDivergeStale s) := by
  unfold execReplayDivergeStale
  refine outKeeps_next ?_
  intro hs
  split
  · exact hs
  · split
    · exact ssDiverge_keeps _ _ _ _ hs
    · exact hs

theorem execReplayDivergeUnknownKind_keeps (s : State) : OutKeeps s (execReplayDivergeUnknownKind s) := by
  unfold execReplayDivergeUnknownKind
  refine outKeeps_next ?_
  intro hs
  split
  · exact ssRead_keeps _ _ hs
  · exact hs

theorem cmdDone_keeps (s : State) (idx pa result : Nat) : KeepsMem s (s.cmdDone idx pa result) := by
  unfold State.cmdDone
  intro hs
  exact (wr_posted _ _ _ _).wf ((wr_posted _ _ _ _).wf hs)

theorem command_keeps (s : State) (op : Nat) (f : Cmd → State × Nat) (hf : ∀ x, KeepsMem s (f x).1) : KeepsMem s (s.command op f) := by
  unfold State.command
  split
  · split
    · exact (hf _).trans (cmdDone_keeps _ _ _ _)
    · exact .refl s
  · exact .refl s

theorem execDbgHaltCtx_keeps (s : State) : OutKeeps s (execDbgHaltCtx s) := by
  unfold execDbgHaltCtx
  refine outKeeps_next ?_
  intro hs
  refine command_keeps _ _ _ ?_ ?_
  · intro x hs
    dsimp only
    split
    · exact (haltCtx_ran _ _).wf hs
    · exact hs
  · exact hs

theorem resumeLanes_keeps (s : State) (w : Wave) (mask : Word) (step : Bool) : KeepsMem s (s.resumeLanes w mask step) := by
  unfold State.resumeLanes
  intro hs
  refine KeepsMem.fold _ (fun s a => ?_) _ _ ?_
  · intro hs
    exact (traceLane_posted _ _ _ _ _ _ _ _).wf hs
  · dsimp only
    split <;> exact hs

theorem resumeCmd_keeps (s : State) (step : Bool) (x : Cmd) : KeepsMem s (s.resumeCmd step x).1 := by
  unfold State.resumeCmd
  intro hs
  split
  · exact resumeLanes_keeps _ _ _ _ hs
  · exact hs

theorem execDbgResume_keeps (s : State) : OutKeeps s (execDbgResume s) := by
  unfold execDbgResume
  refine outKeeps_next ?_
  intro hs
  refine command_keeps _ _ _ ?_ ?_
  · intro x hs
    exact resumeCmd_keeps _ _ _ hs
  · exact hs

theorem execDbgStep_keeps (s : State) : OutKeeps s (execDbgStep s) := by
  unfold execDbgStep
  refine outKeeps_next ?_
  intro hs
  refine command_keeps _ _ _ ?_ ?_
  · intro x hs
    exact resumeCmd_keeps _ _ _ hs
  · exact hs

theorem execDbgResumeAll_keeps (s : State) : OutKeeps s (execDbgResumeAll s) := by
  unfold execDbgResumeAll
  refine outKeeps_next ?_
  intro hs
  refine command_keeps _ _ _ ?_ ?_
  · intro x hs
    refine KeepsMem.fold _ (fun s a => ?_) _ _ ?_
    · intro hs
      exact resumeLanes_keeps _ _ _ _ hs
    · split <;> exact hs
  · exact hs

theorem execDbgBadCommand_keeps (s : State) : OutKeeps s (execDbgBadCommand s) := by
  unfold execDbgBadCommand
  refine outKeeps_next ?_
  intro hs
  split
  · split
    · exact cmdDone_keeps _ _ _ _ hs
    · exact hs
  · exact hs

theorem execDbgDump_keeps (s : State) : OutKeeps s (execDbgDump s) := by
  unfold execDbgDump
  refine outKeeps_next ?_
  intro hs
  dsimp only
  split
  · exact hs
  · split
    · exact hs
    · split
      · exact cmdDone_keeps _ _ _ _ hs
      · exact hs

theorem execDbgDumpWrite_keeps (s : State) : OutKeeps s (execDbgDumpWrite s) := by
  unfold execDbgDumpWrite
  refine outKeeps_next ?_
  intro hs
  dsimp only
  split
  · split
    · exact hs
    · split
      · exact cmdDone_keeps _ _ _ _ hs
      · split
        · exact hs
        · exact cmdDone_keeps _ _ _ _ ((wrBytes_posted _ _ _).wf hs)
  · exact hs

theorem energyAdd_keeps (s : State) (d k v : Nat) : KeepsMem s (s.energyAdd d k v) := by
  unfold State.energyAdd
  intro hs
  dsimp only
  split
  · exact (wr_posted _ _ _ _).wf hs
  · exact hs

theorem execEnergyInterval_keeps (s : State) : OutKeeps s (execEnergyInterval s) := by
  unfold execEnergyInterval
  refine outKeeps_next ?_
  intro hs
  dsimp only
  split
  · exact hs
  · split
    · exact hs
    · refine energyAdd_keeps _ _ _ _ (energyAdd_keeps _ _ _ _ ?_)
      refine KeepsMem.fold _ (fun s a => ?_) _ _ ?_
      · intro hs
        exact energyAdd_keeps _ _ _ _ hs
      · exact hs

/-! ## Fp -/

theorem sfuOp_keeps (fn : Word → Word → Word × FpFlags) (d a : BitVec 7) (e : BitVec 1) (g : BitVec 2) (s : State) : OutKeeps s (sfuOp fn d a e g s) := by
  unfold sfuOp
  refine outKeeps_next ?_
  intro hs
  refine issue_keeps _ _ ?_ ?_ ?_
  · intro s i t h hs
    exact (waitIf_keeps _ _ _ _ h).wf hs
  · intro i s hs
    exact prodBody_keeps _ _ _ _ hs
  · exact hs

theorem execRcp_keeps (d a : BitVec 7) (e : BitVec 1) (g : BitVec 2) (s : State) : OutKeeps s (execRcp d a e g s) := by
  unfold execRcp
  refine outKeeps_next ?_
  intro hs
  refine issue_keeps _ _ ?_ ?_ ?_
  · intro s i t h hs
    exact (waitIf_keeps _ _ _ _ h).wf hs
  · intro i s hs
    exact prodBody_keeps _ _ _ _ hs
  · exact hs

theorem execRsq_keeps (d a : BitVec 7) (e : BitVec 1) (g : BitVec 2) (s : State) : OutKeeps s (execRsq d a e g s) := by
  unfold execRsq
  refine outKeeps_next ?_
  intro hs
  refine issue_keeps _ _ ?_ ?_ ?_
  · intro s i t h hs
    exact (waitIf_keeps _ _ _ _ h).wf hs
  · intro i s hs
    exact prodBody_keeps _ _ _ _ hs
  · exact hs

theorem execSqrt_keeps (d a : BitVec 7) (e : BitVec 1) (g : BitVec 2) (s : State) : OutKeeps s (execSqrt d a e g s) := by
  unfold execSqrt
  refine outKeeps_next ?_
  intro hs
  refine issue_keeps _ _ ?_ ?_ ?_
  · intro s i t h hs
    exact (waitIf_keeps _ _ _ _ h).wf hs
  · intro i s hs
    exact prodBody_keeps _ _ _ _ hs
  · exact hs

theorem execExp2_keeps (d a : BitVec 7) (e : BitVec 1) (g : BitVec 2) (s : State) : OutKeeps s (execExp2 d a e g s) := by
  unfold execExp2
  refine outKeeps_next ?_
  intro hs
  refine issue_keeps _ _ ?_ ?_ ?_
  · intro s i t h hs
    exact (waitIf_keeps _ _ _ _ h).wf hs
  · intro i s hs
    exact prodBody_keeps _ _ _ _ hs
  · exact hs

theorem execLog2_keeps (d a : BitVec 7) (e : BitVec 1) (g : BitVec 2) (s : State) : OutKeeps s (execLog2 d a e g s) := by
  unfold execLog2
  refine outKeeps_next ?_
  intro hs
  refine issue_keeps _ _ ?_ ?_ ?_
  · intro s i t h hs
    exact (waitIf_keeps _ _ _ _ h).wf hs
  · intro i s hs
    exact prodBody_keeps _ _ _ _ hs
  · exact hs

theorem execSint_keeps (d a : BitVec 7) (e : BitVec 1) (g : BitVec 2) (s : State) : OutKeeps s (execSint d a e g s) := by
  unfold execSint
  refine outKeeps_next ?_
  intro hs
  refine issue_keeps _ _ ?_ ?_ ?_
  · intro s i t h hs
    exact (waitIf_keeps _ _ _ _ h).wf hs
  · intro i s hs
    exact prodBody_keeps _ _ _ _ hs
  · exact hs

theorem execCost_keeps (d a : BitVec 7) (e : BitVec 1) (g : BitVec 2) (s : State) : OutKeeps s (execCost d a e g s) := by
  unfold execCost
  refine outKeeps_next ?_
  intro hs
  refine issue_keeps _ _ ?_ ?_ ?_
  · intro s i t h hs
    exact (waitIf_keeps _ _ _ _ h).wf hs
  · intro i s hs
    exact prodBody_keeps _ _ _ _ hs
  · exact hs

theorem execTanh_keeps (d a : BitVec 7) (e : BitVec 1) (g : BitVec 2) (s : State) : OutKeeps s (execTanh d a e g s) := by
  unfold execTanh
  refine outKeeps_next ?_
  intro hs
  refine issue_keeps _ _ ?_ ?_ ?_
  · intro s i t h hs
    exact (waitIf_keeps _ _ _ _ h).wf hs
  · intro i s hs
    exact prodBody_keeps _ _ _ _ hs
  · exact hs

theorem execRcph2_keeps (d a : BitVec 7) (e : BitVec 1) (g : BitVec 2) (s : State) : OutKeeps s (execRcph2 d a e g s) := by
  unfold execRcph2
  refine outKeeps_next ?_
  intro hs
  refine issue_keeps _ _ ?_ ?_ ?_
  · intro s i t h hs
    exact (waitIf_keeps _ _ _ _ h).wf hs
  · intro i s hs
    exact prodBody_keeps _ _ _ _ hs
  · exact hs

theorem execExph2_keeps (d a : BitVec 7) (e : BitVec 1) (g : BitVec 2) (s : State) : OutKeeps s (execExph2 d a e g s) := by
  unfold execExph2
  refine outKeeps_next ?_
  intro hs
  refine issue_keeps _ _ ?_ ?_ ?_
  · intro s i t h hs
    exact (waitIf_keeps _ _ _ _ h).wf hs
  · intro i s hs
    exact prodBody_keeps _ _ _ _ hs
  · exact hs

/-! ## Host -/

theorem readSched_keeps (s : State) : KeepsMem s (s.readSched) := by
  unfold State.readSched
  intro hs
  dsimp only
  split <;> exact hs

theorem readTab_keeps (s : State) : KeepsMem s (s.readTab) := by
  unfold State.readTab
  intro hs
  dsimp only
  split
  · split
    · exact dbgApply_keeps _ _ (readSched_keeps _ hs)
    · exact readSched_keeps _ hs
  · exact hs

theorem setTab_keeps (s : State) (x : Nat) : KeepsMem s (s.setTab x) := by
  unfold State.setTab
  intro hs
  exact readTab_keeps _ hs

theorem enableCtx_keeps (s : State) (c : Nat) : KeepsMem s (s.enableCtx c) := by
  unfold State.enableCtx
  intro hs
  dsimp only
  split
  · exact hs
  · split
    · exact hs
    · exact readHeaders_keeps _ (readSched_keeps _ hs)

theorem recheckCtx_keeps (s : State) (c : Nat) : KeepsMem s (s.recheckCtx c) := by
  unfold State.recheckCtx
  intro hs
  split <;> exact hs

theorem abortCtx_keeps (s : State) (c : Nat) : KeepsMem s (s.abortCtx c) := by
  unfold State.abortCtx
  intro hs
  dsimp only
  split
  · refine KeepsMem.fold _ (fun s a => ?_) _ _ ?_
    · intro hs
      exact dropWaves_keeps _ _ hs
    · exact hs
  · refine KeepsMem.fold _ (fun s a => ?_) _ _ ?_
    · intro hs
      exact dropWaves_keeps _ _ hs
    · exact hs

theorem saveFor_keeps (s : State) (t : Team) : KeepsMem s (s.saveFor t) := by
  unfold State.saveFor
  intro hs
  dsimp only
  split <;> exact hs

theorem disableCtx_keeps (s : State) (c : Nat) : KeepsMem s (s.disableCtx c) := by
  unfold State.disableCtx
  intro hs
  dsimp only
  split
  · exact hs
  · refine noteSuspended_keeps _ _ ?_
    split
    · refine abortCtx_keeps _ _ ?_
      refine KeepsMem.fold _ (fun s a => ?_) _ _ ?_
      · intro hs
        exact hs
      · exact hs
    · refine KeepsMem.fold _ (fun s a => ?_) _ _ ?_
      · intro hs
        exact saveFor_keeps _ _ hs
      · refine KeepsMem.fold _ (fun s a => ?_) _ _ ?_
        · intro hs
          exact hs
        · exact hs

theorem ctxctl_keeps (s : State) (c x : Nat) : KeepsMem s (s.ctxctl c x) := by
  unfold State.ctxctl
  intro hs
  split
  · split
    · exact recheckCtx_keeps _ _ hs
    · exact enableCtx_keeps _ _ hs
  · exact disableCtx_keeps _ _ hs

theorem retryFault_keeps (s : State) (f : FaultRec) : KeepsMem s (s.retryFault f) := by
  unfold State.retryFault
  intro hs
  dsimp only
  split
  · exact hs
  · exact hs
  · exact hs
  · exact retryStack_keeps _ _ _ hs
  · exact retryStack_keeps _ _ _ hs
  · exact hs
  · exact hs

theorem failLanes_keeps (s : State) (uid : Nat) (f : FaultRec) : KeepsMem s (s.failLanes uid f) := by
  unfold State.failLanes
  intro hs
  dsimp only
  split
  · exact hs
  · exact (takeTraps_ran _ _ _).wf hs

theorem failFault_keeps (s : State) (f : FaultRec) : KeepsMem s (s.failFault f) := by
  unfold State.failFault
  intro hs
  dsimp only
  split
  · exact failLanes_keeps _ _ _ hs
  · exact hs
  · exact hs
  · exact failStack_keeps _ _ hs
  · exact failStack_keeps _ _ hs
  · split
    · exact refuseStack_keeps _ _ _ _ hs
    · exact hs
  · split
    · exact appendDone_keeps _ _ hs
    · exact hs

theorem faultack_keeps (s : State) (c seq action : Nat) : KeepsMem s (s.faultack c seq action) := by
  unfold State.faultack
  intro hs
  split
  · split
    · exact retryFault_keeps _ _ hs
    · split
      · exact failFault_keeps _ _ hs
      · exact hs
  · exact hs

theorem faultackWrite_keeps (s : State) (x : Nat) : KeepsMem s (s.faultackWrite x) := by
  unfold State.faultackWrite
  intro hs
  split
  · exact hs
  · exact faultack_keeps _ _ _ _ hs

theorem replayReady_keeps (s : State) : KeepsMem s (s.replayReady) := by
  unfold State.replayReady
  intro hs
  refine KeepsMem.fold _ (fun s a => ?_) _ _ ?_
  · intro hs
    split
    · exact retryFault_keeps _ _ hs
    · exact hs
  · exact hs

theorem qctl_keeps (s : State) (q x : Nat) : KeepsMem s (s.qctl q x) := by
  unfold State.qctl
  intro hs
  dsimp only
  split
  · split
    · split
      · exact hs
      · exact disableQueue_keeps _ _ hs
    · split
      · exact enableQueue_keeps _ _ _ hs
      · exact hs
  · split
    · refine skipQueue_keeps _ _ ?_
      split
      · split
        · exact hs
        · exact disableQueue_keeps _ _ hs
      · split
        · exact enableQueue_keeps _ _ _ hs
        · exact hs
    · refine restartQueue_keeps _ _ ?_
      split
      · split
        · exact hs
        · exact disableQueue_keeps _ _ hs
      · split
        · exact enableQueue_keeps _ _ _ hs
        · exact hs

theorem setQaddr_keeps (s : State) (q x : Nat) : KeepsMem s (s.setQaddr q x) := by
  unfold State.setQaddr
  intro hs
  split <;> exact hs

theorem write64_keeps (s : State) (o x : Nat) : KeepsMem s (s.write64 o x) := by
  unfold State.write64
  intro hs
  dsimp only
  split
  · exact setTab_keeps _ _ hs
  · split
    · exact hs
    · split
      · exact hs
      · split
        · exact faultackWrite_keeps _ _ hs
        · split
          · split
            · exact setQaddr_keeps _ _ _ hs
            · split
              · exact qctl_keeps _ _ _ hs
              · exact hs
          · exact hs

theorem write32_keeps (s : State) (o x : Nat) (t : State) (h : s.write32 o x = some t) : KeepsMem s t := by
  unfold State.write32 at h
  intro hs
  dsimp only at h
  split at h
  · cases h
    exact hs
  · split at h
    · cases h
      exact hs
    · split at h
      · split at h
        · cases h
          exact ctxctl_keeps _ _ _ hs
        · split at h
          · cases h
            exact hs
          · split at h
            · cases h
              exact reinit_keeps _ _ _ hs
            · cases h
              exact hs
      · cases h

theorem writeWord_keeps (s : State) (o x : Nat) : KeepsMem s (s.writeWord o x) := by
  unfold State.writeWord
  intro hs
  dsimp only
  split
  · rename_i h
    exact (write32_keeps _ _ _ _ h).wf hs
  · split
    · exact hs
    · split
      · exact write64_keeps _ _ _ hs
      · exact hs

theorem barWrite_keeps (s : State) (o n x : Nat) : KeepsMem s (s.barWrite o n x) := by
  unfold State.barWrite
  intro hs
  split
  · exact hs
  · split
    · exact writeWord_keeps _ _ _ hs
    · split
      · split
        · exact write64_keeps _ _ _ hs
        · exact writeWord_keeps _ _ _ (writeWord_keeps _ _ _ hs)
      · exact hs

theorem execRegisterWrite_keeps (s : State) : OutKeeps s (execRegisterWrite s) := by
  unfold execRegisterWrite
  refine outKeeps_next ?_
  intro hs
  exact barWrite_keeps _ _ _ _ hs

theorem execPowercapWrite_keeps (s : State) : OutKeeps s (execPowercapWrite s) := by
  unfold execPowercapWrite
  refine outKeeps_next ?_
  intro hs
  split <;> exact hs

theorem execCtxtabWrite_keeps (s : State) : OutKeeps s (execCtxtabWrite s) := by
  unfold execCtxtabWrite
  refine outKeeps_next ?_
  intro hs
  split
  · exact setTab_keeps _ _ hs
  · exact hs

theorem execBar2statWrite_keeps (s : State) : OutKeeps s (execBar2statWrite s) := by
  unfold execBar2statWrite
  refine outKeeps_next ?_
  intro hs
  split <;> exact hs

theorem execContextEnable_keeps (s : State) : OutKeeps s (execContextEnable s) := by
  unfold execContextEnable
  refine outKeeps_next ?_
  intro hs
  split
  · exact enableCtx_keeps _ _ hs
  · exact hs

theorem execContextRecheck_keeps (s : State) : OutKeeps s (execContextRecheck s) := by
  unfold execContextRecheck
  refine outKeeps_next ?_
  intro hs
  split
  · exact recheckCtx_keeps _ _ hs
  · exact hs

theorem execContextDisable_keeps (s : State) : OutKeeps s (execContextDisable s) := by
  unfold execContextDisable
  refine outKeeps_next ?_
  intro hs
  split
  · exact disableCtx_keeps _ _ hs
  · exact hs

theorem execCtxstatWrite_keeps (s : State) : OutKeeps s (execCtxstatWrite s) := by
  unfold execCtxstatWrite
  refine outKeeps_next ?_
  intro hs
  split <;> exact hs

theorem execFaultackRetry_keeps (s : State) : OutKeeps s (execFaultackRetry s) := by
  unfold execFaultackRetry
  refine outKeeps_next ?_
  intro hs
  split
  · exact faultack_keeps _ _ _ _ hs
  · exact hs

theorem execFaultackUnresolvable_keeps (s : State) : OutKeeps s (execFaultackUnresolvable s) := by
  unfold execFaultackUnresolvable
  refine outKeeps_next ?_
  intro hs
  split
  · exact faultack_keeps _ _ _ _ hs
  · exact hs

theorem hostPut_keeps (s : State) (pa : Nat) (bs : List Byte) : KeepsMem s (s.hostPut pa bs) := by
  unfold State.hostPut
  intro hs
  exact (wrBytes_posted _ _ _).wf hs

theorem filter_risingFrom {α : Type} (p : Nat × α → Bool) : ∀ {t : Tab α} {lo : Nat}, Tab.risingFrom t lo = true → Tab.risingFrom (t.filter p) lo = true
  | [], _, h => h
  | (j, v) :: r, lo, h => by
    simp only [Tab.risingFrom, Bool.and_eq_true, decide_eq_true_eq] at h
    obtain ⟨hlo, hr⟩ := h
    have hf := filter_risingFrom p hr
    rw [List.filter_cons]
    split
    · simp only [Tab.risingFrom, Bool.and_eq_true, decide_eq_true_eq]
      exact ⟨hlo, hf⟩
    · exact risingFrom_le (by omega) hf

theorem filter_keeps_wf {t : Tab Byte} (p : Nat × Byte → Bool) (h : bytesWf t = true) : bytesWf (t.filter p) = true := by
  simp only [bytesWf, Bool.and_eq_true] at h ⊢
  refine ⟨filter_risingFrom p h.1, ?_⟩
  have hall := h.2
  rw [List.all_eq_true] at hall ⊢
  exact fun x hx => hall x (List.mem_of_mem_filter hx)

theorem foldl_keeps_wf {α : Type} {f : Tab Byte → α → Tab Byte} (hf : ∀ t a, bytesWf t = true → bytesWf (f t a) = true) :
    ∀ (xs : List α) (t : Tab Byte), bytesWf t = true → bytesWf (xs.foldl f t) = true
  | [], _, h => h
  | x :: xs, t, h => foldl_keeps_wf hf xs (f t x) (hf t x h)

theorem rebase_wf (m : List Host.Cell) (old new : Nat) (h : Memory.wf m = true) : Memory.wf (rebase m old new) = true :=
  foldl_keeps_wf (fun t _ => memPut_wf t _ _) _ _ (filter_keeps_wf _ h)

theorem copyPage_wf (m : List Host.Cell) (src dst : Nat) (h : Memory.wf m = true) : Memory.wf (copyPage m src dst) = true :=
  foldl_keeps_wf (fun _ _ => putByte_wf) _ _ (filter_keeps_wf _ h)

theorem formDomain_keeps (s : State) (id : BitVec 10) (members : List Nat) (switches : Tab (List Nat)) : KeepsMem s (s.formDomain id members switches) := by
  unfold State.formDomain
  split
  · exact .refl s
  · intro hs
    dsimp only
    split
    · exact hs
    · exact rebase_wf _ _ _ hs

theorem outside_keeps (s : State) (x : Outside) : KeepsMem s (s.outside x) := by
  unfold State.outside
  intro hs
  dsimp only
  split
  · exact formDomain_keeps _ _ _ _ hs
  · split <;> exact hs
  · split
    · exact hostPut_keeps _ _ _ hs
    · exact hs

theorem execBar2Read_keeps (s : State) : OutKeeps s (execBar2Read s) := by
  unfold execBar2Read
  refine outKeeps_next ?_
  intro hs
  dsimp only
  split
  · exact hs
  · split <;> exact hs

theorem execBar2Write_keeps (s : State) : OutKeeps s (execBar2Write s) := by
  unfold execBar2Write
  refine outKeeps_next ?_
  intro hs
  dsimp only
  split
  · exact hs
  · split
    · exact hs
    · exact hostPut_keeps _ _ _ hs

theorem execHostAtomic_keeps (s : State) : OutKeeps s (execHostAtomic s) := by
  unfold execHostAtomic
  refine outKeeps_next ?_
  intro hs
  dsimp only
  split
  · exact hs
  · split
    · exact hs
    · split
      · exact hs
      · exact hostPut_keeps _ _ _ hs

theorem execReset_keeps (s : State) : OutKeeps s (execReset s) := outKeeps_next fun hs => filter_keeps_wf _ hs

theorem setReady_keeps (s : State) (n m : Nat) : KeepsMem s (s.setReady n m) := by
  unfold State.setReady
  intro hs
  dsimp only
  split <;> exact hs

theorem execFunctionReady_keeps (s : State) : OutKeeps s (execFunctionReady s) := by
  unfold execFunctionReady
  refine outKeeps_next ?_
  intro hs
  dsimp only
  split
  · exact hs
  · refine readHeaders_keeps _ (replayReady_keeps _ ?_)
    split
    · exact readTab_keeps _ (setReady_keeps _ _ _ hs)
    · exact setReady_keeps _ _ _ hs

theorem loseLinks_keeps (s : State) : KeepsMem s (s.loseLinks) := by
  unfold State.loseLinks
  intro hs
  refine KeepsMem.fold _ (fun s a => ?_) _ _ ?_
  · intro hs
    exact (takeTraps_ran _ _ _).wf hs
  · exact hs

theorem execPortDown_keeps (s : State) : OutKeeps s (execPortDown s) := by
  unfold execPortDown
  refine outKeeps_next ?_
  intro hs
  dsimp only
  split
  · exact hs
  · split
    · split
      · exact loseLinks_keeps _ ((machineCheck_posted _ _ _ _ _ _).wf hs)
      · exact hs
    · split
      · split
        · exact loseLinks_keeps _ ((machineCheck_posted _ _ _ _ _ _).wf hs)
        · exact hs
      · split
        · exact loseLinks_keeps _ ((machineCheck_posted _ _ _ _ _ _).wf hs)
        · exact hs

theorem execPortUp_keeps (s : State) : OutKeeps s (execPortUp s) := by
  unfold execPortUp
  refine outKeeps_next ?_
  intro hs
  dsimp only
  split <;> exact hs

theorem execPortRetrain_keeps (s : State) : OutKeeps s (execPortRetrain s) := by
  unfold execPortRetrain
  refine outKeeps_next ?_
  intro hs
  dsimp only
  split <;> exact hs

theorem execTc0Demotion_keeps (s : State) : OutKeeps s (execTc0Demotion s) := by
  unfold execTc0Demotion
  refine outKeeps_next ?_
  intro hs
  split <;> exact hs

theorem retime_keeps (s : State) (d old : Nat) : KeepsMem s (s.retime d old) := by
  unfold State.retime
  intro hs
  dsimp only
  split <;> exact hs

theorem execDvfsChange_keeps (s : State) : OutKeeps s (execDvfsChange s) := by
  unfold execDvfsChange
  refine outKeeps_next ?_
  intro hs
  dsimp only
  split
  · exact hs
  · refine KeepsMem.fold _ (fun s a => ?_) _ _ ?_
    · intro hs
      exact (streamPut_posted _ _ _ _).wf hs
    · exact retime_keeps _ _ _ hs

/-! ## Sample -/

theorem sampleLane_keeps (s : State) (i : Iss) (no : Nat) (L : Nat) : KeepsMem s (s.sampleLane i no L) := by
  unfold State.sampleLane
  intro hs
  exact (streamPut_posted _ _ _ _).wf hs

theorem execStallSample_keeps (s : State) : OutKeeps s (execStallSample s) := by
  unfold execStallSample
  refine outKeeps_next ?_
  intro hs
  dsimp only
  split
  · exact hs
  · split
    · exact hs
    · refine KeepsMem.fold _ (fun s a => ?_) _ _ ?_
      · intro hs
        exact sampleLane_keeps _ _ _ _ hs
      · exact hs

/-! ## Perform -/

theorem execPageWalkComplete_keeps (s : State) : OutKeeps s (execPageWalkComplete s) := by
  unfold execPageWalkComplete
  refine outKeeps_next ?_
  intro hs
  dsimp only
  split
  · exact hs
  · split
    · exact hs
    · split
      · exact hs
      · exact (orPte_posted _ _ _).wf hs

theorem homeRead_keeps (s : State) (a : Acc) : KeepsMem s (s.homeRead a).2 := by
  unfold State.homeRead
  intro hs
  dsimp only
  split
  · exact hs
  · split
    · split <;> exact hs
    · exact hs

theorem notePusher_keeps (s : State) (a : Acc) : KeepsMem s (s.notePusher a) := by
  unfold State.notePusher
  intro hs
  refine KeepsMem.fold _ (fun s a => ?_) _ _ ?_
  · intro hs
    exact hs
  · exact hs

theorem homeWrite_keeps (s : State) (a : Acc) (x : Nat) : KeepsMem s (s.homeWrite a x) := by
  unfold State.homeWrite
  intro hs
  split
  · exact hs
  · split
    · split
      · exact barWrite_keeps _ _ _ _ hs
      · exact hs
    · exact notePusher_keeps _ _ ((wr_posted _ _ _ _).wf hs)

theorem readDone_keeps (s : State) (a : Acc) (x due : Nat) (home : Bool) : KeepsMem s (s.readDone a x due home) := by
  unfold State.readDone
  intro hs
  split
  · exact landFor_keeps _ _ _ _ _ _ hs
  · split <;> exact hs
  · split <;> exact hs
  · exact hs

theorem homeDo_keeps (s : State) (a : Acc) : KeepsMem s (s.homeDo a) := by
  unfold State.homeDo
  intro hs
  dsimp only
  split
  · exact homeWrite_keeps _ _ _ hs
  · split
    · exact landFor_keeps _ _ _ _ _ _ (homeWrite_keeps _ _ _ (homeRead_keeps _ _ hs))
    · exact homeWrite_keeps _ _ _ (homeRead_keeps _ _ hs)
  · exact homeWrite_keeps _ _ _ (homeRead_keeps _ _ hs)
  · split <;> exact readDone_keeps _ _ _ _ _ (homeRead_keeps _ _ hs)

theorem copyDo_keeps (s : State) (a : Acc) (c : Copy) : KeepsMem s (s.copyDo a c) := by
  unfold State.copyDo
  intro hs
  exact readDone_keeps _ _ _ _ _ hs

theorem movedAt_keeps (s : State) (a : Acc) : KeepsMem s (s.movedAt a) := by
  unfold State.movedAt
  intro hs
  split
  · exact movedBytes_keeps _ _ _ _ hs
  · exact hs

theorem perform_keeps (s : State) (a : Acc) (useCopy : Bool) : KeepsMem s (s.perform a useCopy) := by
  unfold State.perform
  intro hs
  dsimp only
  split
  · exact hs
  · split
    · split
      · split
        · exact hs
        · exact copyDo_keeps _ _ _ hs
      · exact hs
    · split
      · exact ssGate_keeps _ _ _ _ hs
      · exact movedAt_keeps _ _ (fillL2_keeps _ _ (homeDo_keeps _ _ (ssGate_keeps _ _ _ _ hs)))

theorem execAccessPerform_keeps (s : State) : OutKeeps s (execAccessPerform s) := by
  unfold execAccessPerform
  refine outKeeps_next ?_
  intro hs
  split
  · exact perform_keeps _ _ _ hs
  · exact hs

theorem execReplayLogMatch_keeps (s : State) : OutKeeps s (execReplayLogMatch s) := by
  unfold execReplayLogMatch
  refine outKeeps_next ?_
  intro hs
  dsimp only
  split
  · exact hs
  · split
    · split
      · refine esuArrive_keeps _ _ ?_
        split
        · exact hs
        · exact ssRead_keeps _ _ hs
      · refine perform_keeps _ _ _ ?_
        split
        · exact hs
        · exact ssRead_keeps _ _ hs
    · split
      · exact hs
      · exact ssRead_keeps _ _ hs

theorem execResultLand_keeps (s : State) : OutKeeps s (execResultLand s) := by
  unfold execResultLand
  refine outKeeps_next ?_
  intro hs
  split
  · exact hs
  · split <;> exact hs

/-! ## Shoot -/

theorem ringLook_keeps (s : State) : KeepsMem s (s.ringLook) := by
  unfold State.ringLook
  intro hs
  split <;> exact hs

theorem shootdown_keeps (s0 : State) (p : ShootOp → Bool) : KeepsMem s0 (s0.shootdown p) := by
  unfold State.shootdown
  intro hs
  dsimp only
  split
  · exact hs
  · split
    · exact ringLook_keeps _ hs
    · split <;> exact ringLook_keeps _ hs

theorem execShootdownPages_keeps (s : State) : OutKeeps s (execShootdownPages s) := by
  unfold execShootdownPages
  refine outKeeps_next ?_
  intro hs
  exact shootdown_keeps _ _ hs

theorem execShootdownContext_keeps (s : State) : OutKeeps s (execShootdownContext s) := by
  unfold execShootdownContext
  refine outKeeps_next ?_
  intro hs
  exact shootdown_keeps _ _ hs

theorem execShootdownAll_keeps (s : State) : OutKeeps s (execShootdownAll s) := by
  unfold execShootdownAll
  refine outKeeps_next ?_
  intro hs
  exact shootdown_keeps _ _ hs

theorem execShootdownComplete_keeps (s : State) : OutKeeps s (execShootdownComplete s) := by
  unfold execShootdownComplete
  refine outKeeps_next ?_
  intro hs
  dsimp only
  split
  · exact hs
  · split
    · exact hs
    · exact (wr_posted _ _ _ _).wf hs

/-! ## Tier -/

theorem dropFetch_keeps (s : State) (r : TierReq) : KeepsMem s (s.dropFetch r) := by
  unfold State.dropFetch
  intro hs
  split <;> exact hs

theorem evictPage_keeps (s : State) (p : PoolPage) : KeepsMem s (s.evictPage p) := by
  unfold State.evictPage
  intro hs
  split <;> exact hs

theorem execTierFetchStart_keeps (s : State) : OutKeeps s (execTierFetchStart s) := by
  unfold execTierFetchStart
  refine outKeeps_next ?_
  intro hs
  dsimp only
  split
  · exact hs
  · split
    · exact hs
    · split
      · exact dropFetch_keeps _ _ hs
      · split
        · exact dropFetch_keeps _ _ hs
        · split
          · split <;> exact hs
          · split
            · split
              · exact evictPage_keeps _ _ hs
              · exact hs
            · exact dropFetch_keeps _ _ hs

theorem execTierEvictStart_keeps (s : State) : OutKeeps s (execTierEvictStart s) := by
  unfold execTierEvictStart
  refine outKeeps_next ?_
  intro hs
  dsimp only
  split
  · exact hs
  · split
    · exact hs
    · split
      · exact hs
      · split
        · exact evictPage_keeps _ _ hs
        · exact hs

theorem remap_keeps (s : State) (m : Migration) : KeepsMem s (s.remap m) := by
  unfold State.remap
  intro hs
  exact (wr_posted _ _ _ _).wf hs

theorem dropMig_keeps (s : State) (m : Migration) : KeepsMem s (s.dropMig m) := fun hs => hs

theorem execTierFetchLand_keeps (s : State) : OutKeeps s (execTierFetchLand s) := by
  unfold execTierFetchLand
  refine outKeeps_next ?_
  split
  · exact .refl s
  · split
    · exact .refl s
    · split
      · exact .refl s
      · exact fun hs => (remap_keeps _ _ (copyPage_wf s.mem _ _ hs))

/-- A page that is evicted goes along with its bytes, if they were written (R142). -/
theorem evicted_keeps (s : State) (m : Migration) (written : Bool) :
    KeepsMem s ((({ s with mem := if written then copyPage s.mem m.src m.dst else s.mem } : State).remap m).endMig m) := by
  intro hs
  have hcopy : Memory.wf (if written then copyPage s.mem m.src m.dst else s.mem) = true := by
    split
    · exact copyPage_wf _ _ _ hs
    · exact hs
  exact remap_keeps { s with mem := if written then copyPage s.mem m.src m.dst else s.mem } m hcopy

theorem execTierEvictLand_keeps (s : State) : OutKeeps s (execTierEvictLand s) := by
  unfold execTierEvictLand
  refine outKeeps_next ?_
  split
  · exact .refl s
  · split
    · exact .refl s
    · rename_i m _ _
      have hmoved := KeepsMem.ite (p := (!s.leafKept m) = true) (dropMig_keeps s m) (evicted_keeps s m (s.pages.any (fun p => p.frame == m.src && p.written)))
      dsimp only
      generalize (if !s.leafKept m then s.dropMig m else _ : State) = s1 at hmoved ⊢
      split <;> exact hmoved

theorem execTierCopyError_keeps (s : State) : OutKeeps s (execTierCopyError s) := by
  unfold execTierCopyError
  refine outKeeps_next ?_
  split
  · exact .refl s
  · exact fun hs => (machineCheck_posted _ _ _ _ _ _).wf hs

/-! ## One step of the machine -/

/-- Every instruction and every step of the device keeps the form: what works on registers alone by the lemma for it, the others by their own. -/
theorem exec_keeps (i : Instr) (s : State) : OutKeeps s (exec i s) := by
  cases i
  case rcp => apply execRcp_keeps
  case rsq => apply execRsq_keeps
  case sqrt => apply execSqrt_keeps
  case exp2 => apply execExp2_keeps
  case log2 => apply execLog2_keeps
  case sint => apply execSint_keeps
  case cost => apply execCost_keeps
  case tanh => apply execTanh_keeps
  case rcph2 => apply execRcph2_keeps
  case exph2 => apply execExph2_keeps
  case exit => apply execExit_keeps
  case barSync => apply execBarSync_keeps
  case barArrive => apply execBarArrive_keeps
  case barWait => apply execBarWait_keeps
  case barCsync => apply execBarCsync_keeps
  case yield => apply execYield_keeps
  case sleep => apply execSleep_keeps
  case ld => apply execLd_keeps
  case st => apply execSt_keeps
  case lds => apply execLds_keeps
  case sts => apply execSts_keeps
  case ldfe => apply execLdfe_keeps
  case stfe => apply execStfe_keeps
  case atom => apply execAtom_keeps
  case red => apply execRed_keeps
  case atoms => apply execAtoms_keeps
  case cstore => apply execCstore_keeps
  case fence => apply execFence_keeps
  case xfence => apply execXfence_keeps
  case lock => apply execLock_keeps
  case unlock => apply execUnlock_keeps
  case pref => apply execPref_keeps
  case est => apply execEst_keeps
  case eld => apply execEld_keeps
  case emrg => apply execEmrg_keeps
  case eclr => apply execEclr_keeps
  case esweep => apply execEsweep_keeps
  case escene => apply execEscene_keeps
  case eraw => apply execEraw_keeps
  case einit => apply execEinit_keeps
  case qpush => apply execQpush_keeps
  case rwait => apply execRwait_keeps
  case rrel => apply execRrel_keeps
  case launch => apply execLaunch_keeps
  case ordwait => apply execOrdwait_keeps
  case ordtake => apply execOrdtake_keeps
  case markImm => apply execMarkImm_keeps
  case markReg => apply execMarkReg_keeps
  case cont => apply execCont_keeps
  case trav => apply execTrav_keeps
  case tnew => apply execTnew_keeps
  case tcut => apply execTcut_keeps
  case tret => apply execTret_keeps
  case tfrd => apply execTfrd_keeps
  case tfwr => apply execTfwr_keeps
  case tstat => apply execTstat_keeps
  case mma => apply execMma_keeps
  case mclaim => apply execMclaim_keeps
  case mrel => apply execMrel_keeps
  case mzero => apply execMzero_keeps
  case mrow => apply execMrow_keeps
  case mread => apply execMread_keeps
  case mld => apply execMld_keeps
  case msets => apply execMsets_keeps
  case hadq => apply execHadq_keeps
  case mcbt => apply execMcbt_keeps
  case march => apply execMarch_keeps
  case hgrid => apply execHgrid_keeps
  case idot4 => apply execIdot4_keeps
  case ndot4 => apply execNdot4_keeps
  case idot8 => apply execIdot8_keeps
  case idist4 => apply execIdist4_keeps
  case fdot4e4 => apply execFdot4e4_keeps
  case fdot4e5 => apply execFdot4e5_keeps
  case hdot2 => apply execHdot2_keeps
  case kinit => apply execKinit_keeps
  case kins => apply execKins_keeps
  case kmrg => apply execKmrg_keeps
  case krd => apply execKrd_keeps
  case trapAssert => apply execTrapAssert_keeps
  case bkpt => apply execBkpt_keeps
  case rft => apply execRft_keeps
  case savew => apply execSavew_keeps
  case restw => apply execRestw_keeps
  case bset => apply execBset_keeps
  case reset => apply execReset_keeps
  case functionReady => apply execFunctionReady_keeps
  case portDown => apply execPortDown_keeps
  case portUp => apply execPortUp_keeps
  case tc0Demotion => apply execTc0Demotion_keeps
  case dvfsChange => apply execDvfsChange_keeps
  case powercapWrite => apply execPowercapWrite_keeps
  case registerWrite => apply execRegisterWrite_keeps
  case ctxtabWrite => apply execCtxtabWrite_keeps
  case bar2Read => apply execBar2Read_keeps
  case bar2Write => apply execBar2Write_keeps
  case bar2statWrite => apply execBar2statWrite_keeps
  case hostAtomic => apply execHostAtomic_keeps
  case contextEnable => apply execContextEnable_keeps
  case contextRecheck => apply execContextRecheck_keeps
  case contextDisable => apply execContextDisable_keeps
  case ctxstatWrite => apply execCtxstatWrite_keeps
  case cntreinitWrite => apply execCntreinitWrite_keeps
  case queueEnable => apply execQueueEnable_keeps
  case queueDisable => apply execQueueDisable_keeps
  case queueRestart => apply execQueueRestart_keeps
  case queueSkip => apply execQueueSkip_keeps
  case faultackRetry => apply execFaultackRetry_keeps
  case faultackUnresolvable => apply execFaultackUnresolvable_keeps
  case jobPacket => apply execJobPacket_keeps
  case gridPacket => apply execGridPacket_keeps
  case copyPacket => apply execCopyPacket_keeps
  case traversePacket => apply execTraversePacket_keeps
  case waitcntPacket => apply execWaitcntPacket_keeps
  case signalPacket => apply execSignalPacket_keeps
  case timebindPacket => apply execTimebindPacket_keeps
  case nopPacket => apply execNopPacket_keeps
  case illegalPacketKind => apply execIllegalPacketKind_keeps
  case packetWaitMet => apply execPacketWaitMet_keeps
  case packetCompletion => apply execPacketCompletion_keeps
  case completionRingSpace => apply execCompletionRingSpace_keeps
  case eventRingSpace => apply execEventRingSpace_keeps
  case faultRingSpace => apply execFaultRingSpace_keeps
  case counterPoison => apply execCounterPoison_keeps
  case monitorSramError => apply execMonitorSramError_keeps
  case estreqBatchCount => apply execEstreqBatchCount_keeps
  case estreqBatchTimeout => apply execEstreqBatchTimeout_keeps
  case jobDeal => apply execJobDeal_keeps
  case gridDeal => apply execGridDeal_keeps
  case teamRestore => apply execTeamRestore_keeps
  case teamRetire => apply execTeamRetire_keeps
  case gridRetire => apply execGridRetire_keeps
  case preemptTimeout => apply execPreemptTimeout_keeps
  case timeSliceExpiry => apply execTimeSliceExpiry_keeps
  case teamSaveComplete => apply execTeamSaveComplete_keeps
  case teamFlushComplete => apply execTeamFlushComplete_keeps
  case caddyArrival => apply execCaddyArrival_keeps
  case caddyPartialTimeout => apply execCaddyPartialTimeout_keeps
  case caddyDrain => apply execCaddyDrain_keeps
  case caddyWavePlace => apply execCaddyWavePlace_keeps
  case pageWalkComplete => apply execPageWalkComplete_keeps
  case accessPerform => apply execAccessPerform_keeps
  case resultLand => apply execResultLand_keeps
  case shootdownPages => apply execShootdownPages_keeps
  case shootdownContext => apply execShootdownContext_keeps
  case shootdownAll => apply execShootdownAll_keeps
  case shootdownComplete => apply execShootdownComplete_keeps
  case tierFetchStart => apply execTierFetchStart_keeps
  case tierFetchLand => apply execTierFetchLand_keeps
  case tierEvictStart => apply execTierEvictStart_keeps
  case tierEvictLand => apply execTierEvictLand_keeps
  case tierCopyError => apply execTierCopyError_keeps
  case esuEst => apply execEsuEst_keeps
  case esuEld => apply execEsuEld_keeps
  case esuEmrg => apply execEsuEmrg_keeps
  case esuEclr => apply execEsuEclr_keeps
  case esuEsweep => apply execEsuEsweep_keeps
  case esuEraw => apply execEsuEraw_keeps
  case esuEinit => apply execEsuEinit_keeps
  case esuGenInForce => apply execEsuGenInForce_keeps
  case esuAppendResume => apply execEsuAppendResume_keeps
  case stackTake => apply execStackTake_keeps
  case walkStep => apply execWalkStep_keeps
  case nodeFetchComplete => apply execNodeFetchComplete_keeps
  case routineWaveForm => apply execRoutineWaveForm_keeps
  case routineDecision => apply execRoutineDecision_keeps
  case joinZero => apply execJoinZero_keeps
  case walkFinish => apply execWalkFinish_keeps
  case quiescentPoint => apply execQuiescentPoint_keeps
  case trapWindowTimeout => apply execTrapWindowTimeout_keeps
  case handlerEntry => apply execHandlerEntry_keeps
  case wsyncRelease => apply execWsyncRelease_keeps
  case barrierPhaseComplete => apply execBarrierPhaseComplete_keeps
  case ldfeUnblock => apply execLdfeUnblock_keeps
  case stfeUnblock => apply execStfeUnblock_keeps
  case ordwaitRelease => apply execOrdwaitRelease_keeps
  case rwaitRelease => apply execRwaitRelease_keeps
  case topkLockRelease => apply execTopkLockRelease_keeps
  case sleepExpiry => apply execSleepExpiry_keeps
  case markStallEnd => apply execMarkStallEnd_keeps
  case breakpointMatch => apply execBreakpointMatch_keeps
  case ssmodeRecord => apply execSsmodeRecord_keeps
  case ssmodeReplay => apply execSsmodeReplay_keeps
  case ssmodeOff => apply execSsmodeOff_keeps
  case debugConfigUpdate => apply execDebugConfigUpdate_keeps
  case stallSample => apply execStallSample_keeps
  case energyInterval => apply execEnergyInterval_keeps
  case replayDivergeTimeout => apply execReplayDivergeTimeout_keeps
  case replayDivergeStale => apply execReplayDivergeStale_keeps
  case replayLogMatch => apply execReplayLogMatch_keeps
  case scoresheetLogSpace => apply execScoresheetLogSpace_keeps
  case dbgHaltCtx => apply execDbgHaltCtx_keeps
  case dbgResume => apply execDbgResume_keeps
  case dbgStep => apply execDbgStep_keeps
  case dbgResumeAll => apply execDbgResumeAll_keeps
  case dbgDump => apply execDbgDump_keeps
  case dbgDumpWrite => apply execDbgDumpWrite_keeps
  case dbgBadCommand => apply execDbgBadCommand_keeps
  case illegalInstruction => apply execIllegalInstruction_keeps
  case instructionFetchFault => apply execInstructionFetchFault_keeps
  case matrixUnitFree => apply execMatrixUnitFree_keeps
  case portRetrain => apply execPortRetrain_keeps
  case replayDivergeUnknownKind => apply execReplayDivergeUnknownKind_keeps
  all_goals exact outKeeps_next (regIssue_keeps _ _ _)

/-- A step that makes a difference is one of the instructions or of the device's own steps. -/
theorem attemptedStep_keeps (s t : State) (c : Cand) (h : s.attempt? c = some t) : KeepsMem s t := by
  unfold State.attempt? at h
  dsimp only at h
  split at h
  · rename_i u hu
    split at h
    · cases h
    · cases h
      exact fun hs => exec_keeps c.1 { s with occ := c.2 } t hu hs
  · cases h

theorem firstSome_holds {α β : Type} {f : α → Option β} {p : β → Prop} (hf : ∀ a b, f a = some b → p b) :
    ∀ (xs : List α) {b : β}, firstSome f xs = some b → p b
  | [], _, h => nomatch h
  | x :: xs, b, h => by
    unfold firstSome at h
    split at h
    · rename_i hx
      cases h
      exact hf _ _ hx
    · exact firstSome_holds hf xs h

theorem firstOf_keeps (s t : State) (fs : List (State → List Cand)) (h : s.firstOf fs = some t) : KeepsMem s t := by
  unfold State.firstOf at h
  refine firstSome_holds (p := KeepsMem s) (fun f u hu => ?_) fs h
  exact firstSome_holds (p := KeepsMem s) (fun c u => attemptedStep_keeps s u c) (f s) hu

theorem issueWave_keeps (s : State) (uid : Nat) : OutKeeps s (s.issueWave uid) := by
  unfold State.issueWave
  split
  · exact exec_keeps _ (s.issuing uid _)
  · exact exec_keeps _ { s.giveTurn uid with occ := _ }
  · split
    · exact outKeeps_next fun hs => askWalk_keeps s _ _ _ _ hs
    · exact outKeeps_next fun hs => hs
  · exact outKeeps_next fun hs => hs

theorem make_keeps (m : Move) (s : State) : OutKeeps s (m.make s) := by
  cases m with
  | event w i o => exact exec_keeps i { s with occ := o }
  | issue w uid =>
    unfold Move.make
    dsimp only
    split
    · split
      · exact issueWave_keeps s uid
      · exact outKeeps_next (.refl s)
    · exact outKeeps_next (.refl s)
  | outside w x => exact outKeeps_next (outside_keeps s x)

theorem runOn_keeps (s : State) : OutKeeps s s.runOn := by
  unfold State.runOn
  split
  · rename_i h
    exact outKeeps_next (firstOf_keeps s _ sources h)
  · split
    · exact issueWave_keeps s _
    · split
      · rename_i h
        exact outKeeps_next fun hs => firstOf_keeps s.probed _ _ h hs
      · exact outKeeps_next fun hs => hs

/-- Settles O46: what each instruction and each step of the device writes to memory is written byte by byte in the canonical form, and the agenda brings
no other moves. -/
theorem stepKeepsMemory : Obligations.StepKeepsMemory := by
  unfold Obligations.StepKeepsMemory
  intro s t hs hst
  unfold step at hst
  split at hst
  · exact runOn_keeps s t hst hs
  · split at hst
    · exact make_keeps _ s.popped t hst hs
    · exact runOn_keeps s t hst hs

end Sys2Proof.Machine

/-!
PROOFS. Hints, and the instructions that only go on or wait (R199, R281 to R286, R318, R319, R338).
-/

namespace Sys2Proof.Machine

/-! ## An issue whose body raises no trap -/

/-- What an issue leaves when its body made s2 of the state and raised no trap. -/
theorem issue_performs {s s2 : State} {w x : Wave} {ff : FormF} {busy : State → Iss → Option State} {body : Iss → State → State × Traps}
    (hi : Issuing s w) (hr : Ready s w ff) (hb : executing s w ff = [] ∨ busy s (issueOf s w ff) = none)
    (hbody : (if executing s w ff = [] then (s.skipped w ff, []) else body (issueOf s w ff) (s.skipped w ff)) = (s2, []))
    (hp : Performed s s2 w x ff) :
    let w' := x.noted (s.dieCycle (s.teamOf w).die) (ff {} false).isHint w
    s.issue ff busy body = s2.noteIssue w (s.teamOf w) w.minSet (ff {} false).isHint ∧ Issued s (s.issue ff busy body) w w' ff ∧
      ∀ L ∈ executing s w ff, w'.lane L = (x.lane L).noted := by
  have hdie : s2.dieCycle (s.teamOf w).die = s.dieCycle (s.teamOf w).die := by
    unfold State.dieCycle
    rw [hp.clock]
  obtain ⟨hstep, hissued, _, hlanes⟩ := issued_of_performed (hint := (ff {} false).isHint) hi hr hp
  rw [hdie] at hissued hlanes
  have heq : s.issue ff busy body = (s2.noteIssue w (s.teamOf w) w.minSet (ff {} false).isHint).stepHalt w.uid := by
    rw [issue_ready hi hr hb, hbody]
    simp only [takeTraps_nil]
  rw [heq]
  exact ⟨hstep, hissued, hlanes⟩

/-- The state that the body of an issue leaves: without executing lanes it is not run. -/
def bodyState (s : State) (w : Wave) (ff : FormF) (s2 : State) : State := if executing s w ff = [] then s.skipped w ff else s2

theorem bodyState_nil {s : State} {w : Wave} {ff : FormF} {s2 : State} (h : executing s w ff = []) : bodyState s w ff s2 = s.skipped w ff := if_pos h
theorem bodyState_some {s : State} {w : Wave} {ff : FormF} {s2 : State} (h : executing s w ff ≠ []) : bodyState s w ff s2 = s2 := if_neg h

/-- What an issue leaves whose body raises no trap, changes the wave by h0, which keeps its lanes, and then each executing lane by g. -/
theorem issue_lanes {s : State} {w : Wave} {ff : FormF} {busy : State → Iss → Option State} {body : Iss → State → State × Traps} {α : Type}
    (key : α → Nat) (g : α → Lane → Lane) (rs : List α) (h0 : Wave → Wave) (s2 : State) (hl : ∀ v, (h0 v).lanes = v.lanes)
    (hu : ∀ v, (h0 v).uid = v.uid) (hi : Issuing s w) (hr : Ready s w ff) (hkeys : rs.map key = executing s w ff)
    (hst : ∀ r ∈ rs, (g r (w.lane (key r))).stepped = false)
    (hb : executing s w ff ≠ [] → busy s (issueOf s w ff) = none)
    (hbody : executing s w ff ≠ [] → body (issueOf s w ff) (s.skipped w ff) = (s2, []))
    (hw : executing s w ff ≠ [] → s2.waves = ((s.skipped w ff).updWave w.uid (fun v => rs.foldl (fun v r => v.updLane (key r) (g r)) (h0 v))).waves)
    (hc : executing s w ff ≠ [] → s2.pkg = s.pkg) :
    ∃ x, let w' := x.noted (s.dieCycle (s.teamOf w).die) (ff {} false).isHint w
      s.issue ff busy body = (bodyState s w ff s2).noteIssue w (s.teamOf w) w.minSet (ff {} false).isHint ∧
      Issued s (s.issue ff busy body) w w' ff ∧ (executing s w ff = [] → w'.less = w.less) ∧
      (executing s w ff ≠ [] → ∃ ls, x = { h0 (w.skipped s ff) with lanes := ls }) ∧
      ∀ r ∈ rs, w'.lane (key r) = (g r (w.lane (key r))).noted := by
  have hmem : ∀ r ∈ rs, key r ∈ executing s w ff := fun r hrs => hkeys ▸ List.mem_map_of_mem hrs
  by_cases hE : executing s w ff = []
  · have hnil : rs = [] := List.map_eq_nil_iff.mp (hkeys.trans hE)
    subst hnil
    obtain ⟨x, hp, hless, _⟩ := performed_lanes (s2 := s.skipped w ff) key g [] id (fun _ => rfl) (fun _ => rfl) hi hkeys hst (by simp [State.updWave]) rfl
    obtain ⟨heq, hiss, hlanes⟩ := issue_performs (busy := busy) (body := body) hi hr (.inl hE) (if_pos hE) hp
    refine ⟨x, by rw [bodyState_nil hE]; exact heq, hiss, fun _ => hless.trans (less_skipped s w ff), fun h => absurd hE h, fun r hrs => nomatch hrs⟩
  · obtain ⟨x, hp, _, hin⟩ := performed_lanes key g rs h0 hl hu hi hkeys hst (hw hE) (hc hE)
    obtain ⟨heq, hiss, hlanes⟩ := issue_performs (busy := busy) (body := body) hi hr (.inr (hb hE)) ((if_neg hE).trans (hbody hE)) hp
    refine ⟨x, by rw [bodyState_some hE]; exact heq, hiss, fun h => absurd h hE, fun _ => ?_, fun r hrs => by rw [hlanes _ (hmem r hrs), hin r hrs]⟩
    have huid : ∀ v : Wave, (rs.foldl (fun v r => v.updLane (key r) (g r)) (h0 v)).uid = v.uid := fun v => by
      obtain ⟨ls, e⟩ := foldUpd_eq key g rs (h0 v)
      rw [e]
      exact hu v
    have hfound : s2.wave? w.uid = some (rs.foldl (fun v r => v.updLane (key r) (g r)) (h0 (w.skipped s ff))) := by
      unfold State.wave?
      rw [hw hE]
      exact (wave_updWave _ _ _ huid).trans (by rw [wave_skipped ff hi.found]; rfl)
    obtain ⟨ls, e⟩ := foldUpd_eq key g rs (h0 (w.skipped s ff))
    exact ⟨ls, (Option.some.inj (hp.found.symm.trans hfound)).trans e⟩

/-- What a lane of the issuing wave is when the instruction is tested against its state. -/
theorem laneNow_issuing {s : State} {w : Wave} (ff : FormF) (hi : Issuing s w) (L : Nat) : s.laneNow (issueOf s w ff) L = w.lane L := by
  unfold State.laneNow
  show (match s.wave? w.uid with | some v => v.lane L | none => _) = _
  rw [hi.found]

/-- A body that works lane by lane and raises no trap: lane L becomes g L. -/
theorem laneBody_ok {f : State → Iss → Nat → Lane → LRes} {x : Iss} {s : State} (g : Nat → Lane) (h : ∀ L ∈ x.E, f s x L (s.laneNow x L) = .ok (g L)) :
    laneBody f x s = (s.updWave x.uid (fun v => x.E.foldl (fun v L => v.updLane L (fun _ => g L)) v), []) := by
  have hrs : x.E.map (fun L => (L, f s x L (s.laneNow x L))) = x.E.map (fun L => (L, LRes.ok (g L))) :=
    List.map_congr_left fun L hL => by rw [h L hL]
  unfold laneBody
  simp only [hrs, List.foldl_map, List.filterMap_map, Prod.mk.injEq, true_and]
  exact List.filterMap_eq_nil_iff.mpr fun _ _ => rfl

/-! ## Hints (R281 to R286) -/

/-- A lane that holds fewer than three hints, none of this major, takes the hint. -/
theorem takeHint_ok {major : BitVec 7} {pay : BitVec 25} {l : Lane} (hlen : l.hints.length < 3) (hnew : ∀ h ∈ l.hints, h.major ≠ major) :
    takeHint major.toNat pay l = .ok { l with hints := l.hints ++ [{ major, pay, pc := l.pc }], pc := l.pc + 1 } := by
  have hany : l.hints.any (fun h => h.major.toNat == major.toNat) = false := by
    rw [List.any_eq_false]
    intro h hh
    have hne := hnew h hh
    simp only [beq_iff_eq, BitVec.toNat_inj]
    exact hne
  unfold takeHint
  rw [hany]
  simp only [Bool.false_or, decide_eq_true_eq, Nat.not_le.mpr hlen, if_false, BitVec.ofNat_toNat, BitVec.setWidth_eq]

/-- A hint is held with its payload behind the hints before it. -/
theorem laneIssues_hint {i : Instr} {major : BitVec 7} {pay pay' : BitVec 25} (he : ∀ s, exec i s = .next (hintOp major.toNat pay' s)) (hpay : pay' = pay) :
    LaneIssues i (fun _ _ => { unguarded := true, isHint := true }) (fun _ _ _ l => l.hints.length < 3 ∧ ∀ h ∈ l.hints, h.major ≠ major)
      (fun _ _ _ l l' => l'.hints = l.hints ++ [{ major, pay, pc := l.pc }] ∧ l'.pc = l.pc + 1 ∧ l'.regs = l.regs ∧ l'.less = l.less) := by
  subst hpay
  refine laneIssues_reg he fun s w hi L hL hpre _ => ⟨_, takeHint_ok hpre.1 hpre.2, ?_, rfl, rfl, rfl, rfl⟩
  exact (hi.unstepped _ (lane_mem (mem_minSet_lt (mem_executing.mp hL).1))).2

/-- Bits written one behind the other, as a number. -/
theorem toNat_append_add {m n : Nat} (x : BitVec m) (y : BitVec n) : (x ++ y).toNat = x.toNat * 2 ^ n + y.toNat := by
  rw [BitVec.toNat_append, ← Nat.shiftLeft_add_eq_or_of_lt y.isLt, Nat.shiftLeft_eq]

theorem xsrc_payload (k : BitVec 2) (v : BitVec 20) : k ++ (0 : BitVec 3) ++ v = BitVec.ofNat 25 (k.toNat * 2 ^ 23 + v.toNat) := by
  apply BitVec.eq_of_toNat_eq
  have hzero : BitVec.toNat (0 : BitVec 3) = 0 := rfl
  have hk := k.isLt
  have hv := v.isLt
  simp only [toNat_append_add, BitVec.toNat_ofNat]
  omega

theorem pred_payload (p : BitVec 7) (n : BitVec 1) : p ++ n ++ (0 : BitVec 17) = BitVec.ofNat 25 (p.toNat * 2 ^ 18 + n.toNat * 2 ^ 17) := by
  apply BitVec.eq_of_toNat_eq
  have hzero : BitVec.toNat (0 : BitVec 17) = 0 := rfl
  have hp := p.isLt
  have hn := n.isLt
  simp only [toNat_append_add, BitVec.toNat_ofNat]
  omega

theorem xmod_payload (t e w : BitVec 1) (sc : BitVec 3) (c h : BitVec 2) (f : BitVec 5) (a : BitVec 1) (m : BitVec 3) :
    (0 : BitVec 6) ++ t ++ e ++ w ++ sc ++ c ++ h ++ f ++ a ++ m = BitVec.ofNat 25 (m.toNat + 2 ^ 3 * a.toNat + 2 ^ 4 * f.toNat + 2 ^ 9 * h.toNat +
      2 ^ 11 * c.toNat + 2 ^ 13 * sc.toNat + 2 ^ 16 * w.toNat + 2 ^ 17 * e.toNat + 2 ^ 18 * t.toNat) := by
  apply BitVec.eq_of_toNat_eq
  have hzero : BitVec.toNat (0 : BitVec 6) = 0 := rfl
  have ht := t.isLt
  have he := e.isLt
  have hw := w.isLt
  have hsc := sc.isLt
  have hc := c.isLt
  have hh := h.isLt
  have hf := f.isLt
  have ha := a.isLt
  have hm := m.isLt
  simp only [toNat_append_add, BitVec.toNat_ofNat]
  omega

/-! ## What an instruction is given of a lane (R105) -/

/-- An executing lane as the instruction is given it: with the registers it began with. -/
theorem issueOf_lane {s : State} {w : Wave} {ff : FormF} {L : Nat} (hL : L ∈ executing s w ff) :
    (issueOf s w ff).l L = { w.lane L with regs := (w.lane L).srcRegs } := by
  have hlt : L < w.lanes.length := mem_minSet_lt (mem_executing.mp hL).1
  show w.forReplay.lane L = _
  unfold Wave.forReplay Wave.lane
  simp only [List.getD_eq_getElem?_getD, List.getElem?_map, List.getElem?_eq_getElem hlt, Option.map_some, Option.getD_some]

/-! ## Waiting (R199, R319, R338) -/

/-- The largest of some counts: it is one of them, and none is larger. -/
theorem foldl_max_spec (xs : List Nat) : ∀ m : Nat, (∀ x ∈ xs, x ≤ xs.foldl max m) ∧ m ≤ xs.foldl max m ∧ (xs.foldl max m = m ∨ xs.foldl max m ∈ xs) := by
  induction xs with
  | nil => exact fun m => ⟨fun _ h => (nomatch h), Nat.le_refl _, .inl rfl⟩
  | cons y ys ih =>
    intro m
    obtain ⟨hall, hm, hin⟩ := ih (max m y)
    refine ⟨?_, ?_, ?_⟩
    · intro x hx
      rcases List.mem_cons.mp hx with rfl | hx
      · simp only [List.foldl_cons]
        omega
      · exact hall x hx
    · simp only [List.foldl_cons]
      omega
    · simp only [List.foldl_cons, List.mem_cons]
      rcases hin with h | h
      · rcases Nat.le_total m y with hmy | hmy
        · exact .inr (.inl (h.trans (Nat.max_eq_right hmy)))
        · exact .inl (h.trans (Nat.max_eq_left hmy))
      · exact .inr (.inr h)

/-- YIELD: the lanes go on, and the wave stands back at the next choice. -/
theorem yieldIssues : Issues .yield (fSYS [] []) (fun _ _ => True) State.less (fun s x w _ w' =>
    w'.less = w.less ∧ (∀ L ∈ x.E, Passed (w.lane L) (w'.lane L)) ∧
    (x.E ≠ [] → (∀ L ∈ w.minSet, (w.lane L).hints = []) → w'.sched = 1 ∧ w'.schedAt = s.dieCycle x.die)) := by
  intro s w hi hr _
  let ff := fSYS [] []
  let E := executing s w ff
  let back (v : Wave) : Wave := { v with sched := 1, schedAt := s.dieCycle (s.teamOf w).die }
  have hrun : ∀ L ∈ E, (w.lane L).adv.stepped = false := fun L hL => (hi.unstepped _ (lane_mem (mem_minSet_lt (mem_executing.mp hL).1))).1
  have hnow : ∀ L ∈ E, ((s.skipped w ff).updWave w.uid back).laneNow (issueOf s w ff) L = w.lane L := fun L hL => by
    unfold State.laneNow
    show (match ((s.skipped w ff).updWave w.uid back).wave? w.uid with | some v => v.lane L | none => _) = _
    rw [wave_updWave _ _ back (fun _ => rfl), wave_skipped ff hi.found]
    exact lane_skipped_out (skipping_not_executing hL)
  obtain ⟨x, heq, hiss, hnil, hback, hlanes⟩ := issue_lanes (busy := never)
    (body := fun i s => laneBody (fun _ _ _ l => .ok l.adv) i (s.updWave i.uid (fun w => { w with sched := 1, schedAt := s.dieCycle i.die })))
    (fun L => L) (fun L _ => (w.lane L).adv) E back
    (((s.skipped w ff).updWave w.uid back).updWave w.uid (fun v => E.foldl (fun v L => v.updLane L (fun _ => (w.lane L).adv)) v))
    (fun _ => rfl) (fun _ => rfl) hi hr (List.map_id _) hrun (fun _ => rfl)
    (fun _ => laneBody_ok (fun L => (w.lane L).adv) fun L hL => congrArg (fun l => LRes.ok l.adv) (hnow L hL))
    (fun _ => congrArg State.waves (updWave_updWave _ _ back _ (fun _ => rfl))) (fun _ => rfl)
  refine ⟨_, _, rfl, hiss, ?_, ?_, fun L hL => ?_, fun hE hhints => ?_⟩
  · rw [heq, less_noteIssue]
    unfold bodyState
    split <;> rfl
  · by_cases hE : E = []
    · exact hnil hE
    · obtain ⟨ls, hx⟩ := hback hE
      rw [less_noted, hx]
      exact less_skipped s w ff
  · rw [hlanes L hL]
    exact ⟨rfl, ⟨rfl, rfl⟩, rfl⟩
  · obtain ⟨ls, hx⟩ := hback hE
    have heff : (w.minSet.map (fun L => schedOf (w.lane L).hints)).foldl max 0 = 0 := by
      rcases (foldl_max_spec (w.minSet.map (fun L => schedOf (w.lane L).hints)) 0).2.2 with h | h
      · exact h
      · obtain ⟨L, hL, e⟩ := List.mem_map.mp h
        rw [← e, hhints L hL]
        rfl
    refine ⟨?_, rfl⟩
    unfold Wave.noted
    simp [heff, hx, fSYS, back]

theorem sleepIssues (a : BitVec 7) : Issues (.sleep a) (fSYS [srcBlk a] []) (fun s x => ∀ L ∈ x.E, (s.laneNow x L).wake = none) State.less (fun s x w _ w' =>
      w'.less = w.less ∧ ∀ L ∈ x.E, ∃ n : Nat, w'.lane L = ({ w.lane L with wake := some (s.dieCycle x.die + n) } : Lane).noted ∧
        n ≤ 1048575 ∧ (∀ K ∈ x.E, min 1048575 ((x.l K).v a.toNat).toNat ≤ n) ∧ ∃ K ∈ x.E, n = min 1048575 ((x.l K).v a.toNat).toNat) := by
  intro s w hi hr hwake
  let ff := fSYS [srcBlk a] []
  let n := sleepFor (issueOf s w ff) a
  let sleeping (l : Lane) : Lane := { l with wake := some (s.dieCycle (s.teamOf w).die + n) }
  have hnone : ∀ L ∈ executing s w ff, ((issueOf s w ff).l L).wake = none := fun L hL => by
    rw [issueOf_lane hL]
    exact (congrArg Lane.wake (laneNow_issuing ff hi L)).symm.trans (hwake L hL)
  have hnew : (executing s w ff).filter (fun L => ((issueOf s w ff).l L).wake.isNone) = executing s w ff :=
    List.filter_eq_self.mpr fun L hL => by rw [hnone L hL]; rfl
  obtain ⟨x, heq, hiss, hnil, hback, hlanes⟩ := issue_lanes (busy := waitIf (fun _ i => i.E.all (fun L => (i.l L).wake.isSome)))
    (body := fun i s =>
      let new := i.E.filter (fun L => (i.l L).wake.isNone)
      let till := s.dieCycle i.die + sleepFor { i with E := new } a
      (s.updWave i.uid (fun w => new.foldl (fun w L => w.updLane L (fun l => { l with wake := some till })) w), []))
    (fun L => L) (fun _ => sleeping) (executing s w ff) id
    ((s.skipped w ff).updWave w.uid (fun v => (executing s w ff).foldl (fun v L => v.updLane L sleeping) v)) (fun _ => rfl) (fun _ => rfl) hi hr
    (List.map_id _) (fun L hL => (hi.unstepped _ (lane_mem (mem_minSet_lt (mem_executing.mp hL).1))).2)
    (fun hE => by
      obtain ⟨L, hL⟩ := List.exists_mem_of_ne_nil _ hE
      have hall : (executing s w ff).all (fun L => ((issueOf s w ff).l L).wake.isSome) = false := by
        rw [List.all_eq_false]
        exact ⟨L, hL, by rw [hnone L hL]; simp⟩
      exact if_neg (by rw [Bool.not_eq_true]; exact hall))
    (fun _ => by
      have hE : (issueOf s w ff).E = executing s w ff := rfl
      dsimp only
      rw [hE, hnew]
      rfl) (fun _ => rfl) (fun _ => rfl)
  refine ⟨_, _, rfl, hiss, ?_, ?_, fun L hL => ⟨n, hlanes L hL, Nat.min_le_left _ _, fun K hK => ?_, ?_⟩⟩
  · rw [heq, less_noteIssue]
    unfold bodyState
    split <;> rfl
  · by_cases hE : executing s w ff = []
    · exact hnil hE
    · obtain ⟨ls, hx⟩ := hback hE
      rw [less_noted, hx]
      exact less_skipped s w ff
  · have hmax := (foldl_max_spec ((executing s w ff).map (fun L => (((issueOf s w ff).l L).v a.toNat).toNat)) 0).1 _ (List.mem_map_of_mem hK)
    exact min_le_min_left _ hmax
  · obtain ⟨hall, _, hin⟩ := foldl_max_spec ((executing s w ff).map (fun L => (((issueOf s w ff).l L).v a.toNat).toNat)) 0
    rcases hin with h | h
    · have hL0 := hall _ (List.mem_map_of_mem hL)
      rw [h] at hL0
      exact ⟨L, hL, congrArg (min 1048575) (h.trans (Nat.le_zero.mp hL0).symm)⟩
    · obtain ⟨K, hK, e⟩ := List.mem_map.mp h
      exact ⟨K, hK, congrArg (min 1048575) e.symm⟩

/-- Settles O12: a hint goes behind those that the lane holds; NOP, IPREF and YIELD only go on; SLEEP and WSYNC keep their lanes where they are. -/
theorem hintsIdleAndWait : Obligations.HintsIdleAndWait := by
  unfold Obligations.HintsIdleAndWait
  refine ⟨⟨fun p => ?_, fun p => ?_, fun k v => ?_, fun t e w sc c h f a m => ?_, fun p n => ?_⟩, ?_, fun a c => ?_, yieldIssues, sleepIssues, ?_⟩
  · exact laneIssues_hint (fun _ => rfl) (BitVec.eq_of_toNat_eq (by simp))
  · exact laneIssues_hint (fun _ => rfl) rfl
  · exact laneIssues_hint (fun _ => rfl) (xsrc_payload k v)
  · exact laneIssues_hint (fun _ => rfl) (xmod_payload t e w sc c h f a m)
  · exact laneIssues_hint (fun _ => rfl) (pred_payload p n)
  · refine laneIssues_reg (f := fun _ _ _ l => .ok l.adv) (fun _ => rfl) fun s w hi L hL _ _ => ⟨_, rfl, ?_, ?_⟩
    · exact (hi.unstepped _ (lane_mem (mem_minSet_lt (mem_executing.mp hL).1))).1
    · exact ⟨rfl, ⟨rfl, rfl⟩, rfl⟩
  · refine laneIssues_reg (f := fun _ _ _ l => .ok l.adv) (fun _ => rfl) fun s w hi L hL _ _ => ⟨_, rfl, ?_, ?_⟩
    · exact (hi.unstepped _ (lane_mem (mem_minSet_lt (mem_executing.mp hL).1))).1
    · exact ⟨rfl, ⟨rfl, rfl⟩, rfl⟩
  · refine laneIssues_reg (fun _ => rfl) fun s w hi L hL hroutine _ => ⟨{ w.lane L with st := .blocked .wsync }, ?_, ?_, rfl⟩
    · exact if_neg (by simp [show (w.lane L).routine = none from hroutine])
    · exact (hi.unstepped _ (lane_mem (mem_minSet_lt (mem_executing.mp hL).1))).2

end Sys2Proof.Machine

/-!
PROOFS. Instructions that wait for their lanes' earlier accesses, and EXIT (R70, R151, R317).
-/

namespace Sys2Proof.Machine

/-! ## Lanes that are ready (R151) -/

/-- A lane without earlier accesses of a kind is ready, when reads do not count. -/
theorem force_ready {s : State} {uid L : Nat} {p : Acc → Bool} (h : s.lanePend uid L p = []) : s.force uid L p false = .ready := by
  unfold State.force
  rw [h]
  rfl

/-- The lanes with a refused write, and that write. -/
def refusedLanes (fr : State → Iss → Nat → Force) (s : State) (i : Iss) : List (Nat × Acc) :=
  i.E.filterMap (fun L => match fr s i L with | .refused a => some (L, a) | _ => none)
/-- The lanes that are ready. -/
def readyLanes (fr : State → Iss → Nat → Force) (s : State) (i : Iss) : List Nat := i.E.filter (fun L => fr s i L == .ready)

theorem forcedBody_eq (fr : State → Iss → Nat → Force) (body : Iss → State → State × Traps) (i : Iss) (s : State) :
    forcedBody fr body i s =
      let s1 : State := { s with accs := s.accs.filter (fun a => !(refusedLanes fr s i).any (fun x => x.2.id == a.id)) }
      let r := if readyLanes fr s i = [] then (s1, []) else body { i with E := readyLanes fr s i } s1
      (r.1, (refusedLanes fr s i).map (fun x => (x.1, defStore (i.l x.1) x.2)) ++ r.2) := rfl

theorem readyLanes_all {fr : State → Iss → Nat → Force} {s : State} {i : Iss} (h : ∀ L ∈ i.E, fr s i L = .ready) : readyLanes fr s i = i.E :=
  List.filter_eq_self.mpr fun L hL => by rw [h L hL]; rfl

theorem refusedLanes_none {fr : State → Iss → Nat → Force} {s : State} {i : Iss} (h : ∀ L ∈ i.E, fr s i L = .ready) : refusedLanes fr s i = [] :=
  List.filterMap_eq_nil_iff.mpr fun L hL => by rw [h L hL]

/-- When every lane is ready the body is run as it is. -/
theorem forcedBody_ready {fr : State → Iss → Nat → Force} {body : Iss → State → State × Traps} {i : Iss} {s : State} (hE : i.E ≠ [])
    (h : ∀ L ∈ i.E, fr s i L = .ready) : forcedBody fr body i s = body i s := by
  rw [forcedBody_eq, refusedLanes_none h, readyLanes_all h]
  simp only [if_neg hE, List.any_nil, Bool.not_false, List.filter_true, List.map_nil, List.nil_append]

theorem forcedBusy_ready {fr : State → Iss → Nat → Force} {busy : State → Iss → Option State} {i : Iss} {s : State} (hE : i.E ≠ [])
    (h : ∀ L ∈ i.E, fr s i L = .ready) : forcedBusy fr busy s i = busy s i := by
  obtain ⟨K, hK⟩ := List.exists_mem_of_ne_nil _ hE
  have hall : i.E.all (fun L => fr s i L == .wait) = false := by
    rw [List.all_eq_false]
    exact ⟨K, hK, by rw [h K hK]; decide⟩
  have hgo : i.E.filter (fun L => fr s i L == .ready) = i.E := List.filter_eq_self.mpr fun L hL => by rw [h L hL]; rfl
  unfold forcedBusy
  simp only [hall, hgo, Bool.false_eq_true, if_false]

/-! ## Lanes changed one after the other -/

/-- Changing lanes of one wave one after the other changes the wave. -/
theorem foldl_updLane (uid : Nat) (f : Nat → Lane → Lane) : ∀ (Ls : List Nat) (s : State),
    Ls.foldl (fun s L => s.updLane uid L (f L)) s = s.updWave uid (fun v => Ls.foldl (fun v L => v.updLane L (f L)) v)
  | [], s => by simp [State.updWave]
  | L :: Ls, s => by
    rw [List.foldl_cons, foldl_updLane uid f Ls]
    exact updWave_updWave s uid (fun v => v.updLane L (f L)) _ (fun _ => rfl)

/-! ## What an exit may touch: its team, its grid, and the tier engines' queues (R70, R129) -/

/-- Only the team, its grid, the tier queue, and what is kept of the order of writes may differ. -/
structure OnlyTeam (tid gid : Nat) (s t : State) : Prop where
  waves : t.waves = s.waves
  rest : { t.less with teams := [], grids := [], tierq := [], wrote := [], fresh := 0 } =
    { s.less with teams := [], grids := [], tierq := [], wrote := [], fresh := 0 }
  teams : ∀ u ∈ s.teams, u.tid ≠ tid → u ∈ t.teams
  grids : ∀ u ∈ s.grids, u.gid ≠ gid → u ∈ t.grids
  home : ∀ u, t.team? tid = some u → u.gid = gid

theorem OnlyTeam.trans {tid gid : Nat} {s t u : State} (h : OnlyTeam tid gid s t) (k : OnlyTeam tid gid t u) : OnlyTeam tid gid s u :=
  ⟨k.waves.trans h.waves, k.rest.trans h.rest, fun x hx hne => k.teams x (h.teams x hx hne) hne, fun x hx hne => k.grids x (h.grids x hx hne) hne, k.home⟩

theorem OnlyTeam.refl {tid gid : Nat} {s : State} (h : ∀ u, s.team? tid = some u → u.gid = gid) : OnlyTeam tid gid s s :=
  ⟨rfl, rfl, fun _ h _ => h, fun _ h _ => h, h⟩

theorem mem_updGrid_other {s : State} {gid : Nat} {f : Grid → Grid} {u : Grid} (hu : u ∈ s.grids) (hne : u.gid ≠ gid) : u ∈ (s.updGrid gid f).grids :=
  List.mem_map.mpr ⟨u, hu, if_neg (by simpa using hne)⟩

theorem mem_updTeam_other {s : State} {tid : Nat} {f : Team → Team} {u : Team} (hu : u ∈ s.teams) (hne : u.tid ≠ tid) : u ∈ (s.updTeam tid f).teams :=
  List.mem_map.mpr ⟨u, hu, if_neg (by simpa using hne)⟩

theorem onlyTeam_updGrid {tid gid : Nat} {s : State} (f : Grid → Grid) (h : ∀ u, s.team? tid = some u → u.gid = gid) :
    OnlyTeam tid gid s (s.updGrid gid f) :=
  ⟨rfl, rfl, fun _ hu _ => hu, fun _ hu hne => mem_updGrid_other hu hne, h⟩

/-- The tickets of a team are taken or poisoned, as told. -/
def TicketsAre (s : State) (gid ordinal : Nat) (x : Tickets) : Prop := ∃ g, s.grid? gid = some g ∧ g.ticketsOf ordinal = x

/-- A change of grids that keeps their numbers, and keeps these tickets. -/
theorem ticketsAre_updGrid {s : State} {gid k ordinal : Nat} {x : Tickets} {f : Grid → Grid} (hgid : ∀ g, (f g).gid = g.gid)
    (hf : ∀ g, g.ticketsOf ordinal = x → (f g).ticketsOf ordinal = x) (h : TicketsAre s gid ordinal x) : TicketsAre (s.updGrid k f) gid ordinal x := by
  obtain ⟨g, hg, hx⟩ := h
  by_cases hk : gid = k
  · subst hk
    exact ⟨f g, by rw [grid_updGrid s gid f hgid, hg]; rfl, hf g hx⟩
  · exact ⟨g, by rw [grid_updGrid_other s f hgid hk]; exact hg, hx⟩

theorem ticketsOf_updTickets (g : Grid) (ordinal : Nat) (f : Tickets → Tickets) : (g.updTickets ordinal f).ticketsOf ordinal = f (g.ticketsOf ordinal) := by
  unfold Grid.updTickets Grid.ticketsOf
  rw [find_put, if_pos rfl]
  rfl

theorem dropStopped_keeps (g : Grid) : g.dropStopped.gid = g.gid ∧ g.dropStopped.tickets = g.tickets := by
  unfold Grid.dropStopped
  split
  · exact ⟨rfl, rfl⟩
  · exact ⟨rfl, rfl⟩

theorem poisonAll_gid (g : Grid) (ordinal : Nat) : (g.poisonAll ordinal).gid = g.gid := (dropStopped_keeps _).1

/-- A fault poisons no ticket where all that are not poisoned are taken. -/
theorem poisonAll_taken (g : Grid) (ordinal : Nat) (p : BitVec 16) (h : g.ticketsOf ordinal = { taken := ~~~p, poisoned := p }) :
    (g.poisonAll ordinal).ticketsOf ordinal = { taken := ~~~p, poisoned := p } := by
  have hkeep : (g.poisonAll ordinal).ticketsOf ordinal = (g.updTickets ordinal (fun x => { x with poisoned := ~~~x.taken })).ticketsOf ordinal := by
    unfold Grid.ticketsOf
    exact congrArg (fun t => (Tab.find t ordinal).getD {}) (dropStopped_keeps _).2
  rw [hkeep, ticketsOf_updTickets, h]
  simp only [BitVec.not_not]

/-- A fault of a team touches the team and its grid. -/
theorem faultTeam_onlyTeam {s : State} {tid gid : Nat} (h : ∀ u, s.team? tid = some u → u.gid = gid) : OnlyTeam tid gid s (s.faultTeam tid) := by
  unfold State.faultTeam
  split
  · exact .refl h
  · rename_i t ht
    split
    · exact .refl h
    · have hgid : t.gid = gid := h t ht
      have hteam : ∀ u, (s.updTeam tid (fun t => { t with faulted := true })).team? tid = some u → u.gid = gid := by
        intro u hu
        rw [team_updTeam s tid (fun t => { t with faulted := true }) (fun _ => rfl), ht] at hu
        cases hu
        exact hgid
      have hupd : OnlyTeam tid gid s (s.updTeam tid (fun t => { t with faulted := true })) :=
        ⟨rfl, rfl, fun _ hu hne => mem_updTeam_other hu hne, fun _ hu _ => hu, hteam⟩
      dsimp only
      rw [hgid]
      exact hupd.trans (onlyTeam_updGrid _ hteam)

theorem faultTeam_tickets {s : State} {tid gid ordinal : Nat} {p : BitVec 16} (hord : ∀ u, s.team? tid = some u → u.ordinal = ordinal)
    (h : TicketsAre s gid ordinal { taken := ~~~p, poisoned := p }) : TicketsAre (s.faultTeam tid) gid ordinal { taken := ~~~p, poisoned := p } := by
  unfold State.faultTeam
  split
  · exact h
  · rename_i t ht
    split
    · exact h
    · have ht' : t.ordinal = ordinal := hord t ht
      refine ticketsAre_updGrid (s := s.updTeam tid _) (fun g => ?_) (fun g hg => ?_) h
      · dsimp only
        split
        · exact poisonAll_gid _ _
        · rfl
      · dsimp only
        split
        · rw [ht']
          exact poisonAll_taken _ _ _ hg
        · exact hg

theorem checkStuck_cases (s : State) (tid : Nat) : s.checkStuck tid = s ∨ s.checkStuck tid = s.faultTeam tid := by
  unfold State.checkStuck
  split
  · exact .inl rfl
  · dsimp only
    split
    · exact .inr rfl
    · exact .inl rfl

/-! ## The timetable (R129) -/

/-- A request to a tier engine is only queued. -/
theorem tierAsk_only (s : State) (d c va : Nat) (fetch stall : Bool) : ∃ q n, s.tierAsk d c va fetch stall = { s with tierq := q, fresh := n } := by
  unfold State.tierAsk
  dsimp only
  split
  · exact ⟨s.tierq, s.fresh, rfl⟩
  · exact ⟨_, _, rfl⟩

theorem ttRequest_only (s : State) (g : Grid) (e : TtEnt) : ∃ q n, s.ttRequest g e = { s with tierq := q, fresh := n } := by
  have hfold : ∀ (vas : List Nat) (s : State) (f : State → Nat → State), (∀ s va, ∃ q n, f s va = { s with tierq := q, fresh := n }) →
      ∃ q n, vas.foldl f s = { s with tierq := q, fresh := n } := by
    intro vas
    induction vas with
    | nil => exact fun s _ _ => ⟨s.tierq, s.fresh, rfl⟩
    | cons va vas ih =>
      intro s f hf
      obtain ⟨q, n, h⟩ := hf s va
      obtain ⟨q', n', h'⟩ := ih (f s va) f hf
      exact ⟨q', n', by rw [List.foldl_cons, h', h]⟩
  unfold State.ttRequest
  refine hfold _ s _ fun s va => ?_
  split
  · split
    · exact ⟨s.tierq, s.fresh, rfl⟩
    · exact tierAsk_only _ _ _ _ _ _
  · exact ⟨s.tierq, s.fresh, rfl⟩

/-- The timetable of a grid touches the grid and the tier queue, and no ticket. -/
theorem fireTt_only {s : State} {tid gid ordinal : Nat} {x : Tickets} (retire : Bool) (h : ∀ u, s.team? tid = some u → u.gid = gid) :
    OnlyTeam tid gid s (s.fireTt gid retire) ∧ (TicketsAre s gid ordinal x → TicketsAre (s.fireTt gid retire) gid ordinal x) := by
  have hfold : ∀ (ks : List Nat) (s : State) (f : State → Nat → State), (∀ u, s.team? tid = some u → u.gid = gid) →
      (∀ s k, (∀ u, s.team? tid = some u → u.gid = gid) → OnlyTeam tid gid s (f s k) ∧ (TicketsAre s gid ordinal x → TicketsAre (f s k) gid ordinal x)) →
      OnlyTeam tid gid s (ks.foldl f s) ∧ (TicketsAre s gid ordinal x → TicketsAre (ks.foldl f s) gid ordinal x) := by
    intro ks
    induction ks with
    | nil => exact fun s _ hs _ => ⟨.refl hs, id⟩
    | cons k ks ih =>
      intro s f hs hf
      obtain ⟨h1, t1⟩ := hf s k hs
      obtain ⟨h2, t2⟩ := ih (f s k) f h1.home hf
      exact ⟨h1.trans h2, fun ht => t2 (t1 ht)⟩
  unfold State.fireTt
  split
  · exact ⟨.refl h, id⟩
  · split
    · exact ⟨.refl h, id⟩
    · split
      · exact ⟨.refl h, id⟩
      · refine hfold _ s _ h fun s k hs => ?_
        dsimp only
        split
        · rename_i g _ _ es _ _ _
          obtain ⟨q, n, e⟩ := ttRequest_only s g (es.getD k 0)
          rw [e]
          have hq : OnlyTeam tid gid s { s with tierq := q, fresh := n } := ⟨rfl, rfl, fun _ hu _ => hu, fun _ hu _ => hu, hs⟩
          exact ⟨hq.trans (onlyTeam_updGrid _ hs), fun ht => ticketsAre_updGrid (s := { s with tierq := q, fresh := n }) (fun _ => rfl) (fun _ hg => hg) ht⟩
        · exact ⟨.refl hs, id⟩

/-! ## The tickets of a team that is over (R70) -/

theorem exitTickets_onlyTeam {s : State} {tid gid : Nat} (h : ∀ u, s.team? tid = some u → u.gid = gid) : OnlyTeam tid gid s (s.exitTickets tid) := by
  unfold State.exitTickets
  split
  · rename_i t ht
    dsimp only
    split
    · rw [h t ht]
      exact ⟨rfl, rfl, fun _ hu _ => hu, fun _ hu hne => mem_updGrid_other (s := s.release _ _ _) hu hne, h⟩
    · exact .refl h
  · exact .refl h

theorem exitTickets_team (s : State) (tid k : Nat) : (s.exitTickets tid).team? k = s.team? k := by
  unfold State.exitTickets
  split
  · dsimp only
    split <;> rfl
  · rfl

/-- A team that is over takes its tickets that are not poisoned. -/
theorem exitTickets_taken {s : State} {t : Team} {g : Grid} {tid : Nat} (ht : s.team? tid = some t) (hg : s.grid? t.gid = some g) (hall : s.allExited tid = true)
    (hf : t.faulted = false) (hticket : ticketed g t = true) (hposted : s.teamPosted tid = false) :
    TicketsAre (s.exitTickets tid) t.gid t.ordinal { taken := ~~~(g.ticketsOf t.ordinal).poisoned, poisoned := (g.ticketsOf t.ordinal).poisoned } := by
  have hgrid : s.gridOf t = g := by
    unfold State.gridOf
    rw [hg]
    rfl
  unfold State.exitTickets
  rw [ht]
  simp only [hgrid, hall, hf, hticket, hposted, Bool.not_false, Bool.and_true, if_true]
  refine ⟨g.takeAll t.ordinal, ?_, ticketsOf_updTickets g t.ordinal _⟩
  rw [grid_updGrid (s.release _ _ _) t.gid (fun g => g.takeAll t.ordinal) (fun _ => rfl)]
  exact congrArg (Option.map _) hg

/-- Without a handler there is none to end. -/
theorem endHandler_none {s : State} {uid : Nat} {w : Wave} (hw : s.wave? uid = some w) (h : w.handlerB15 = none) : s.endHandler uid = s := by
  unfold State.endHandler
  rw [hw]
  simp only [h]

/-- What follows an exit outside a handler touches the team, its grid and the tier queue; a team that is over takes its tickets. -/
theorem afterExit_only {s : State} {i : Iss} {v : Wave} (hv : s.wave? i.uid = some v) (hb15 : v.handlerB15 = none)
    (hhome : ∀ u, s.team? i.t.tid = some u → u.gid = i.t.gid) :
    OnlyTeam i.t.tid i.t.gid s (s.afterExit i) ∧
      ∀ g, s.team? i.t.tid = some i.t → s.grid? i.t.gid = some g → s.allExited i.t.tid = true → i.t.faulted = false → ticketed g i.t = true →
        s.teamPosted i.t.tid = false → TicketsAre (s.afterExit i) i.t.gid i.t.ordinal
          { taken := ~~~(g.ticketsOf i.t.ordinal).poisoned, poisoned := (g.ticketsOf i.t.ordinal).poisoned } := by
  have hexit := exitTickets_onlyTeam hhome
  have hend : (s.exitTickets i.t.tid).endHandler i.uid = s.exitTickets i.t.tid := by
    refine endHandler_none (w := v) ?_ hb15
    unfold State.wave?
    rw [hexit.waves]
    exact hv
  have hstuck : OnlyTeam i.t.tid i.t.gid (s.exitTickets i.t.tid) ((s.exitTickets i.t.tid).checkStuck i.t.tid) := by
    rcases checkStuck_cases (s.exitTickets i.t.tid) i.t.tid with h | h
    · rw [h]
      exact .refl hexit.home
    · rw [h]
      exact faultTeam_onlyTeam hexit.home
  unfold State.afterExit
  dsimp only
  rw [hend]
  refine ⟨(hexit.trans hstuck).trans (fireTt_only (ordinal := 0) (x := {}) false hstuck.home).1, fun g ht hg hall hf hticket hposted => ?_⟩
  refine (fireTt_only false hstuck.home).2 ?_
  have htaken := exitTickets_taken ht hg hall hf hticket hposted
  rcases checkStuck_cases (s.exitTickets i.t.tid) i.t.tid with h | h
  · rw [h]
    exact htaken
  · rw [h]
    refine faultTeam_tickets (fun u hu => ?_) htaken
    rw [exitTickets_team, ht] at hu
    cases hu
    rfl

/-! ## Which lanes have exited -/

theorem all_listUpd {α : Type} {p : α → Bool} {f : α → α} (hf : ∀ a, p (f a) = p a) : ∀ (xs : List α) (n : Nat), (listUpd xs n f).all p = xs.all p
  | [], _ => rfl
  | x :: xs, 0 => by simp only [listUpd, List.all_cons, hf]
  | x :: xs, n + 1 => by simp only [listUpd, List.all_cons, all_listUpd hf xs n]

theorem ended_clearBreaks : ∀ (set : List Nat) (w : Wave), (w.clearBreaks set).ended = w.ended
  | [], _ => rfl
  | L :: set, w => (ended_clearBreaks set (w.updLane L Lane.noted)).trans (all_listUpd (p := fun l : Lane => l.st == .exited) (f := Lane.noted) (fun _ => rfl) w.lanes L)

theorem wavesOf_updWave (s : State) (uid tid : Nat) (f : Wave → Wave) (hf : ∀ w, (f w).tid = w.tid) :
    (s.updWave uid f).wavesOf tid = (s.wavesOf tid).map (fun w => if w.uid == uid then f w else w) := by
  unfold State.wavesOf State.updWave
  rw [List.filter_map]
  congr 1
  apply List.filter_congr
  intro w _
  simp only [Function.comp]
  split
  · rw [hf]
  · rfl

/-- Noting an issue ends no lane. -/
theorem allExited_noteIssue (s : State) (w : Wave) (t : Team) (hint : Bool) (tid : Nat) : (s.noteIssue w t w.minSet hint).allExited tid = s.allExited tid := by
  have hw : (s.noteIssue w t w.minSet hint).wavesOf tid = (s.updWave w.uid (fun x => x.noted (s.dieCycle t.die) hint w)).wavesOf tid := by
    rw [noteIssue_eq]
    rfl
  unfold State.allExited
  rw [hw, wavesOf_updWave _ _ _ (fun x => x.noted (s.dieCycle t.die) hint w) (fun _ => rfl), List.all_map]
  congr 1
  funext v
  simp only [Function.comp]
  split
  · exact ended_clearBreaks w.minSet v
  · rfl

/-! ## The team of a wave -/

theorem teamOf_tid (s : State) (w : Wave) : (s.teamOf w).tid = w.tid := by
  unfold State.teamOf
  cases h : s.team? w.tid with
  | none => rfl
  | some t => simpa using List.find?_some h

theorem teamOf_of_team {s : State} {w : Wave} {t : Team} (h : s.team? (s.teamOf w).tid = some t) : s.teamOf w = t := by
  rw [teamOf_tid] at h
  unfold State.teamOf
  rw [h]
  rfl

/-! ## EXIT (R317) -/

/-- A lane that has exited. -/
def Lane.out (l : Lane) : Lane := { l with st := .exited, hints := [], stepping := false }

/-- Lanes outside a routine and outside the handler only exit. -/
theorem foldl_laneExits {i : Iss} : ∀ (Ls : List Nat) (s : State), (∀ L ∈ Ls, (i.l L).inHandler = false ∧ (i.l L).routine = none) →
    Ls.foldl (fun s L => s.laneExits i L) s = s.updWave i.uid (fun v => Ls.foldl (fun v L => v.updLane L Lane.out) v) := by
  intro Ls s h
  rw [← foldl_updLane i.uid (fun _ => Lane.out) Ls s]
  refine List.foldl_ext _ _ s fun s L hL => ?_
  obtain ⟨hin, hr⟩ := h L hL
  unfold State.laneExits
  simp only [hin, hr, Bool.false_eq_true, if_false]
  rfl

/-- Settles O13: the body of EXIT ends its lanes, and what follows touches only the team, its grid and the tier queue. -/
theorem exitEndsLanes : Obligations.ExitEndsLanes := by
  unfold Obligations.ExitEndsLanes
  intro s w hi hr hpre
  obtain ⟨hb15, hlanes⟩ := hpre
  let ff := fSYS [] []
  let E := executing s w ff
  let i := issueOf s w ff
  let s1 := (s.skipped w ff).updWave w.uid (fun v => E.foldl (fun v L => v.updLane L Lane.out) v)
  have hlane : ∀ L ∈ E, (i.l L).inHandler = false ∧ (i.l L).routine = none := fun L hL => by
    obtain ⟨_, hin, hroutine⟩ := hlanes L hL
    rw [laneNow_issuing ff hi L] at hin hroutine
    rw [issueOf_lane hL]
    exact ⟨hin, hroutine⟩
  have hforce : ∀ (s' : State), s'.accs = s.accs → ∀ L ∈ i.E, s'.force i.uid L anyWrite false = .ready := fun s' hs' L hL =>
    force_ready (by unfold State.lanePend; rw [hs']; exact (hlanes L hL).1)
  have huid : ∀ v : Wave, (E.foldl (fun v L => v.updLane L Lane.out) v).uid = v.uid := fun v => by
    obtain ⟨ls, h⟩ := foldUpd_eq (fun L => L) (fun _ => Lane.out) E v
    rw [h]
  obtain ⟨v, hv, hvb15⟩ : ∃ v, s1.wave? i.uid = some v ∧ v.handlerB15 = none := by
    obtain ⟨ls, h⟩ := foldUpd_eq (fun L => L) (fun _ => Lane.out) E (w.skipped s ff)
    obtain ⟨ls', h'⟩ := foldUpd_eq (fun L => L) (fun _ => Lane.adv) (skipping s w ff) w
    refine ⟨_, (wave_updWave _ _ _ huid).trans (congrArg (Option.map _) (wave_skipped ff hi.found)), ?_⟩
    dsimp only
    rw [h]
    unfold Wave.skipped
    rw [h']
    exact hb15
  have hhome : ∀ u, s1.team? i.t.tid = some u → u.gid = i.t.gid := fun u hu => by
    exact congrArg Team.gid (teamOf_of_team (s := s) (w := w) hu).symm
  obtain ⟨honly, htickets⟩ := afterExit_only hv hvb15 hhome
  have hpkg : (s1.afterExit i).pkg = s.pkg := by
    have h := congrArg State.pkg honly.rest
    exact h
  obtain ⟨x, heq, hiss, hnil, hx, hout⟩ := issue_lanes
    (busy := forcedBusy (fun s i L => s.force i.uid L anyWrite false) never)
    (body := forcedBody (fun s i L => s.force i.uid L anyWrite false) (fun i s => ((i.E.foldl (fun s L => s.laneExits i L) s).afterExit i, [])))
    (fun L => L) (fun _ => Lane.out) E id (s1.afterExit i) (fun _ => rfl) (fun _ => rfl) hi hr (List.map_id _)
    (fun L hL => (hi.unstepped _ (lane_mem (mem_minSet_lt (mem_executing.mp hL).1))).2)
    (fun hE => forcedBusy_ready (i := i) hE (hforce s rfl))
    (fun hE => by
      rw [forcedBody_ready (i := issueOf s w (fSYS [] [])) hE (hforce _ rfl)]
      rw [foldl_laneExits (i := issueOf s w (fSYS [] [])) (issueOf s w (fSYS [] [])).E _ hlane]
      rfl)
    (fun _ => honly.waves) (fun _ => hpkg)
  have hbody : OnlyTeam i.t.tid i.t.gid s1 (bodyState s w ff (s1.afterExit i)) ∨ bodyState s w ff (s1.afterExit i) = s.skipped w ff := by
    by_cases hE : E = []
    · exact .inr (bodyState_nil hE)
    · rw [bodyState_some hE]
      exact .inl honly
  refine ⟨_, _, rfl, hiss, ?_, ?_, fun L hL => hout L hL, ?_, ?_, ?_⟩
  · show ({ (s.issue _ _ _).less with teams := [], grids := [], tierq := [], wrote := [], fresh := 0 } : State) = _
    rw [heq, less_noteIssue]
    rcases hbody with h | h
    · exact h.rest
    · rw [h]
      rfl
  · by_cases hE : E = []
    · exact hnil hE
    · obtain ⟨ls, h⟩ := hx hE
      rw [less_noted, h]
      exact less_skipped s w ff
  · intro u hu hne
    show u ∈ (s.issue _ _ _).teams
    rw [heq, noteIssue_eq]
    rcases hbody with h | h
    · exact h.teams u hu hne
    · rw [h]
      exact hu
  · intro u hu hne
    show u ∈ (s.issue _ _ _).grids
    rw [heq, noteIssue_eq]
    rcases hbody with h | h
    · exact h.grids u hu hne
    · rw [h]
      exact hu
  · intro hE hposted hteam hgrid hall hfaulted hticket
    have hall1 : s1.allExited i.t.tid = true := by
      have h : (s.issue _ _ _).allExited i.t.tid = true := hall
      rw [heq, allExited_noteIssue, bodyState_some hE] at h
      unfold State.allExited State.wavesOf at h ⊢
      rw [honly.waves] at h
      exact h
    have hteam1 : s1.team? i.t.tid = some i.t := (congrArg s.team? (teamOf_tid s w)).trans hteam
    obtain ⟨g', hg', htaken⟩ := htickets i.g hteam1 hgrid hall1 hfaulted hticket hposted
    refine ⟨g', ?_, congrArg Tickets.taken htaken⟩
    show (s.issue _ _ _).grid? i.t.gid = some g'
    rw [heq, noteIssue_eq, bodyState_some hE]
    exact hg'

end Sys2Proof.Machine

/-!
PROOFS. Lanes that park with a trap while the others go on (R208, R211), and the instructions that raise floating-point exceptions
(R216, R290).
-/

namespace Sys2Proof.Machine

/-! ## Lanes that park (R208, R211) -/

/-- Lanes park one after another, and join the collection window. -/
def Wave.parkAll (w : Wave) (cycle : Nat) (ts : Traps) : Wave :=
  ts.foldl (fun w x => (w.updLane x.1 (fun l => l.park x.2 0)).join cycle x.2.pc (x.2.issued.getD cycle) x.1) w

/-- The lane is parked with a trap or halted. -/
def Lane.stands (l : Lane) : Bool := l.st == .trapped || l.st == .halted

theorem stands_run {l : Lane} (h : l.st = .run) : l.stands = false := by
  unfold Lane.stands
  rw [h]
  rfl

theorem underPrimary_going {l : Lane} (n : Nat) (h : l.stands = false) : l.underPrimary n = l :=
  if_neg (by rw [show (l.st == .trapped || l.st == .halted) = false from h]; exact Bool.false_ne_true)

theorem underPrimary_cases (l : Lane) (n : Nat) : l.underPrimary n = l ∨ l.underPrimary n = { l with trapinfo := l.trapinfo.set 5 (BitVec.ofNat 32 n) } := by
  unfold Lane.underPrimary
  split
  · exact .inr rfl
  · exact .inl rfl

theorem underPrimary_twice (l : Lane) (m n : Nat) : (l.underPrimary m).underPrimary n = l.underPrimary n := by
  unfold Lane.underPrimary
  by_cases h : (l.st == .trapped || l.st == .halted) = true
  · simp only [h, if_true, List.set_set]
  · simp only [h, Bool.false_eq_true, if_false]

theorem underPrimary_park (l : Lane) (t : Trap) (m n : Nat) : (l.park t m).underPrimary n = l.park t n := rfl

theorem park_underPrimary (l : Lane) (t : Trap) (m n : Nat) : (l.underPrimary m).park t n = l.park t n := by
  rcases underPrimary_cases l m with h | h
  · rw [h]
  · rw [h]
    rfl

/-- A lane as it is, or under another primary lane. -/
def UpToPrimary (l l' : Lane) : Prop := l' = l ∨ ∃ n, l' = l.underPrimary n

theorem UpToPrimary.trans {l m n : Lane} (h : UpToPrimary l m) (k : UpToPrimary m n) : UpToPrimary l n := by
  rcases k with rfl | ⟨j, rfl⟩
  · exact h
  · rcases h with rfl | ⟨i, rfl⟩
    · exact .inr ⟨j, rfl⟩
    · exact .inr ⟨j, underPrimary_twice _ _ _⟩

theorem UpToPrimary.going {l l' : Lane} (h : UpToPrimary l l') (hl : l.stands = false) : l' = l := by
  rcases h with h | ⟨n, rfl⟩
  · exact h
  · exact underPrimary_going n hl

theorem UpToPrimary.parked {l l' : Lane} {t : Trap} {n : Nat} (h : UpToPrimary (l.park t n) l') : ∃ m, l' = l.park t m := by
  rcases h with rfl | ⟨m, rfl⟩
  · exact ⟨n, rfl⟩
  · exact ⟨m, rfl⟩

theorem lane_updPrimary (n : Nat) (M : Nat) : ∀ (Ls : List Nat) (w : Wave),
    UpToPrimary (w.lane M) ((Ls.foldl (fun w K => w.updLane K (fun l => l.underPrimary n)) w).lane M)
  | [], _ => .inl rfl
  | K :: Ls, w => by
    have hhead : UpToPrimary (w.lane M) ((w.updLane K (fun l => l.underPrimary n)).lane M) := by
      rw [lane_updLane]
      split
      · exact .inr ⟨n, rfl⟩
      · exact .inl rfl
    exact hhead.trans (lane_updPrimary n M Ls _)

theorem lane_setWin (w : Wave) (x : Option Window) (M : Nat) : (w.setWin x).lane M = w.lane M := by
  unfold Wave.setWin
  split <;> rfl

theorem lane_join (w : Wave) (cycle : Nat) (pc : Word) (issued L M : Nat) : UpToPrimary (w.lane M) ((w.join cycle pc issued L).lane M) := by
  unfold Wave.join
  have h := lane_updPrimary (Window.add cycle pc issued L w.win).primary M (maskLanes (Window.add cycle pc issued L w.win).lanes)
    (w.setWin (some (Window.add cycle pc issued L w.win)))
  rwa [lane_setWin] at h

/-- A wave but for its lanes and its collection windows. -/
def Wave.sansWin (w : Wave) : Wave := { w with lanes := [], window := none, next := none }

theorem join_keeps (w : Wave) (cycle : Nat) (pc : Word) (issued L : Nat) :
    (w.join cycle pc issued L).sansWin = w.sansWin ∧ (w.join cycle pc issued L).lanes.length = w.lanes.length := by
  unfold Wave.join
  dsimp only
  generalize Window.add cycle pc issued L w.win = v
  have hwin : (w.setWin (some v)).sansWin = w.sansWin ∧ (w.setWin (some v)).lanes.length = w.lanes.length := by
    unfold Wave.setWin
    split <;> exact ⟨rfl, rfl⟩
  obtain ⟨ls, e⟩ := foldUpd_eq (fun L => L) (fun _ l => l.underPrimary v.primary) (maskLanes v.lanes) (w.setWin (some v))
  refine ⟨?_, (length_foldUpd (fun L => L) (fun _ l => l.underPrimary v.primary) _ _).trans hwin.2⟩
  rw [e]
  exact hwin.1

theorem parkAll_keeps (cycle : Nat) : ∀ (ts : Traps) (w : Wave),
    (w.parkAll cycle ts).sansWin = w.sansWin ∧ (w.parkAll cycle ts).lanes.length = w.lanes.length
  | [], _ => ⟨rfl, rfl⟩
  | x :: ts, w => by
    obtain ⟨h1, h2⟩ := join_keeps (w.updLane x.1 (fun l => l.park x.2 0)) cycle x.2.pc (x.2.issued.getD cycle) x.1
    obtain ⟨h3, h4⟩ := parkAll_keeps cycle ts ((w.updLane x.1 (fun l => l.park x.2 0)).join cycle x.2.pc (x.2.issued.getD cycle) x.1)
    exact ⟨h3.trans h1, h4.trans (h2.trans (length_updLane _ _ _))⟩

theorem parkAll_uid (cycle : Nat) (ts : Traps) (w : Wave) : (w.parkAll cycle ts).uid = w.uid := by
  have h := congrArg Wave.uid (parkAll_keeps cycle ts w).1
  exact h

theorem lane_parkAll_out (cycle L : Nat) : ∀ (ts : Traps) (w : Wave), L ∉ ts.map Prod.fst → UpToPrimary (w.lane L) ((w.parkAll cycle ts).lane L)
  | [], _, _ => .inl rfl
  | x :: ts, w, h => by
    simp only [List.map_cons, List.mem_cons, not_or] at h
    have hhead : UpToPrimary (w.lane L) (((w.updLane x.1 (fun l => l.park x.2 0)).join cycle x.2.pc (x.2.issued.getD cycle) x.1).lane L) := by
      have hj := lane_join (w.updLane x.1 (fun l => l.park x.2 0)) cycle x.2.pc (x.2.issued.getD cycle) x.1 L
      rwa [lane_updLane, if_neg (fun e => h.1 e.1)] at hj
    exact hhead.trans (lane_parkAll_out cycle L ts _ h.2)

theorem lane_parkAll_in {cycle L : Nat} {t : Trap} : ∀ (ts : Traps) (w : Wave), (L, t) ∈ ts → (ts.map Prod.fst).Nodup → L < w.lanes.length →
    ∃ n, (w.parkAll cycle ts).lane L = (w.lane L).park t n
  | [], _, h, _, _ => by cases h
  | x :: ts, w, h, hn, hl => by
    simp only [List.map_cons, List.nodup_cons] at hn
    have hj := lane_join (w.updLane x.1 (fun l => l.park x.2 0)) cycle x.2.pc (x.2.issued.getD cycle) x.1 L
    rw [lane_updLane] at hj
    rcases List.mem_cons.mp h with rfl | hmem
    · rw [if_pos ⟨rfl, hl⟩] at hj
      exact (hj.trans (lane_parkAll_out cycle _ ts _ hn.1)).parked
    · have hne : L ≠ x.1 := fun e => hn.1 (e ▸ List.mem_map_of_mem (f := Prod.fst) hmem)
      rw [if_neg fun e => hne e.1] at hj
      have hlen := (join_keeps (w.updLane x.1 (fun l => l.park x.2 0)) cycle x.2.pc (x.2.issued.getD cycle) x.1).2.trans (length_updLane _ _ _)
      obtain ⟨n, hm⟩ := lane_parkAll_in ts _ hmem hn.2 (hlen ▸ hl)
      refine ⟨n, hm.trans ?_⟩
      rcases hj with e | ⟨m, e⟩ <;> rw [e]
      exact park_underPrimary _ _ _ _

theorem orderTraps_mem {ts : Traps} {p : Nat × Trap} (h : p ∈ orderTraps ts) : p ∈ ts := by
  obtain ⟨L, _, hp⟩ := List.mem_flatMap.mp h
  exact (List.mem_filter.mp hp).1

theorem mem_orderTraps {ts : Traps} {p : Nat × Trap} (h : p ∈ ts) (hlt : p.1 < 32) : p ∈ orderTraps ts :=
  List.mem_flatMap.mpr ⟨p.1, List.mem_range.mpr hlt, List.mem_filter.mpr ⟨h, beq_self_eq_true _⟩⟩

/-- One trap a lane: a list without one of lanes below k, in ascending order, is one. -/
theorem orderTraps_nodup {ts : Traps} (h : (ts.map Prod.fst).Nodup) : ((orderTraps ts).map Prod.fst).Nodup := by
  have hone : ∀ L, ((ts.filter (fun x => x.1 == L)).map Prod.fst).Nodup := fun L => h.sublist (List.filter_sublist.map _)
  have hkey : ∀ L K, K ∈ (ts.filter (fun x => x.1 == L)).map Prod.fst → K = L := by
    intro L K hK
    obtain ⟨x, hx, rfl⟩ := List.mem_map.mp hK
    exact beq_iff_eq.mp (List.mem_filter.mp hx).2
  unfold orderTraps
  rw [List.map_flatMap, List.nodup_flatMap]
  refine ⟨fun L _ => hone L, List.nodup_range.imp fun {L K} hne => ?_⟩
  intro M h1 h2
  exact hne ((hkey L M h1).symm.trans (hkey K M h2))

theorem faultTeam_waves (s : State) (tid : Nat) : (s.faultTeam tid).waves = s.waves := by
  unfold State.faultTeam
  split
  · rfl
  · split <;> rfl

theorem checkStuck_waves (s : State) (tid : Nat) : (s.checkStuck tid).waves = s.waves := by
  rcases checkStuck_cases s tid with h | h <;> rw [h]
  exact faultTeam_waves s tid

theorem foldl_traceLane_waves (t : Team) (w : Wave) : ∀ (ts : Traps) (s : State),
    (ts.foldl (fun s x => s.traceLane 5 x.2.kind t w x.1 x.2.stop x.2.info4.toNat) s).waves = s.waves
  | [], _ => rfl
  | x :: ts, s => by
    obtain ⟨_, _, _, _, _, _, hw, _⟩ := (traceLane_posted s 5 x.2.kind t w x.1 x.2.stop x.2.info4.toNat).parts
    exact (foldl_traceLane_waves t w ts _).trans hw

/-- Lanes outside the handler that trap park, and only their wave changes of the waves. -/
theorem takeTraps_waves {s : State} {uid : Nat} {w : Wave} {ts : Traps} (hw : s.wave? uid = some w) (hout : ∀ p ∈ ts, (w.lane p.1).inHandler = false) :
    (s.takeTraps uid ts).waves = (s.updWave uid (fun v => v.parkAll s.cycle ts)).waves := by
  unfold State.takeTraps
  rw [hw]
  cases ts with
  | nil =>
    show s.waves = (s.updWave uid (fun v => v)).waves
    simp [State.updWave]
  | cons x ts =>
    have hnone : (x :: ts).find? (fun x => (w.lane x.1).inHandler && x.2.kind != tkASSERT) = none := by
      rw [List.find?_eq_none]
      intro p hp
      rw [hout p hp]
      exact Bool.false_ne_true
    simp only [hnone]
    exact (checkStuck_waves _ _).trans (foldl_traceLane_waves _ _ _ _)

/-- An issue whose body made x of the wave and raised traps of executing lanes outside the handler, one each: these lanes park, and every other executing
lane is as the body made it. -/
theorem issue_traps {s s2 : State} {w x : Wave} {ff : FormF} {busy : State → Iss → Option State} {body : Iss → State → State × Traps} {ts : Traps}
    (hi : Issuing s w) (hr : Ready s w ff) (h32 : w.lanes.length ≤ 32) (hb : executing s w ff ≠ [] → busy s (issueOf s w ff) = none)
    (hbody : executing s w ff ≠ [] → body (issueOf s w ff) (s.skipped w ff) = (s2, ts))
    (hfound : executing s w ff ≠ [] → s2.wave? w.uid = some x) (hsize : x.lanes.length = w.lanes.length)
    (hst : ∀ L, (x.lane L).stepped = false) (hnd : (ts.map Prod.fst).Nodup)
    (hts : ∀ p ∈ ts, p.1 ∈ executing s w ff ∧ (x.lane p.1).inHandler = false) :
    ∃ w', (s.issue ff busy body).wave? w.uid = some w' ∧
      (executing s w ff ≠ [] → ∃ u, Ran s2 u ∧ s.issue ff busy body = u.noteIssue w (s.teamOf w) w.minSet (ff {} false).isHint) ∧
      ∀ L ∈ executing s w ff,
      ((x.lane L).stands = false → L ∉ ts.map Prod.fst → w'.lane L = (x.lane L).noted) ∧
      ∀ t, (L, t) ∈ ts → ∃ n, w'.lane L = ((x.lane L).park t n).noted := by
  by_cases hE : executing s w ff = []
  · obtain ⟨y, _, hiss, _⟩ := issue_lanes (busy := busy) (body := body) (fun L => L) (fun _ l => l) [] id s (fun _ => rfl) (fun _ => rfl) hi hr hE.symm
      (fun r hr => nomatch hr) (fun h => absurd hE h) (fun h => absurd hE h) (fun h => absurd hE h) (fun h => absurd hE h)
    exact ⟨_, hiss.found, fun h => absurd hE h, fun L hL => by rw [hE] at hL; cases hL⟩
  have hx := hfound hE
  have hkeys : ∀ {L}, L ∉ ts.map Prod.fst → L ∉ (orderTraps ts).map Prod.fst := fun {_} h hm => by
    obtain ⟨p, hp, rfl⟩ := List.mem_map.mp hm
    exact h (List.mem_map_of_mem (orderTraps_mem hp))
  let y := x.parkAll s2.cycle (orderTraps ts)
  have hwaves := takeTraps_waves hx fun p hp => (hts p (orderTraps_mem hp)).2
  have hfoundy : (s2.takeTraps w.uid (orderTraps ts)).wave? w.uid = some y := by
    unfold State.wave?
    rw [hwaves]
    exact (wave_updWave s2 w.uid (fun v => v.parkAll s2.cycle (orderTraps ts)) fun v => parkAll_uid _ _ _).trans (by rw [hx]; rfl)
  have hlane : ∀ L, (L ∉ ts.map Prod.fst → UpToPrimary (x.lane L) (y.lane L)) ∧
      ∀ t, (L, t) ∈ ts → ∃ n, y.lane L = (x.lane L).park t n := fun L =>
    ⟨fun h => lane_parkAll_out _ L _ _ (hkeys h), fun t ht => by
      have hlt : L < w.lanes.length := mem_minSet_lt (mem_executing.mp (hts _ ht).1).1
      exact lane_parkAll_in _ _ (mem_orderTraps ht (by omega)) (orderTraps_nodup hnd) (hsize ▸ hlt)⟩
  have hysize : y.lanes.length = w.lanes.length := (parkAll_keeps _ _ _).2.trans hsize
  have hystep : ∀ L, (y.lane L).stepped = false := fun L => by
    by_cases hL : L ∈ ts.map Prod.fst
    · obtain ⟨p, hp, rfl⟩ := List.mem_map.mp hL
      obtain ⟨n, e⟩ := (hlane p.1).2 p.2 hp
      rw [e]
      exact hst p.1
    · rcases (hlane L).1 hL with e | ⟨n, e⟩ <;> rw [e]
      · exact hst L
      · rcases underPrimary_cases (x.lane L) n with e | e <;> rw [e] <;> exact hst L
  let u := s2.takeTraps w.uid (orderTraps ts)
  let w' := y.noted (u.dieCycle (s.teamOf w).die) (ff {} false).isHint w
  have hin : ∀ L ∈ w.minSet, w'.lane L = (y.lane L).noted := fun L h => lane_noted_in h (by rw [hysize]; exact mem_minSet_lt h)
  have hnoted : (u.noteIssue w (s.teamOf w) w.minSet (ff {} false).isHint).wave? w.uid = some w' := by
    rw [noteIssue_eq]
    exact (wave_updWave u w.uid (fun v => v.noted (u.dieCycle (s.teamOf w).die) (ff {} false).isHint w) fun _ => rfl).trans (by rw [hfoundy]; rfl)
  have heq : s.issue ff busy body = u.noteIssue w (s.teamOf w) w.minSet (ff {} false).isHint := by
    rw [issue_ready hi hr (.inr (hb hE)), if_neg hE, hbody hE]
    refine stepHalt_none hnoted fun l hl => ?_
    obtain ⟨L, hL, rfl⟩ := List.getElem_of_mem hl
    rw [← List.getD_eq_getElem _ {} hL]
    show (w'.lane L).stepped = false
    by_cases hm : L ∈ w.minSet
    · rw [hin L hm]
      exact hystep L
    · rw [lane_noted_out hm]
      exact hystep L
  refine ⟨w', heq ▸ hnoted, fun _ => ⟨u, takeTraps_ran _ _ _, heq⟩, fun L hL => ⟨fun hrun hno => ?_, fun t ht => ?_⟩⟩
  · rw [hin L (mem_executing.mp hL).1, ((hlane L).1 hno).going hrun]
  · obtain ⟨n, e⟩ := (hlane L).2 t ht
    exact ⟨n, by rw [hin L (mem_executing.mp hL).1, e]⟩

/-- No lane of the issuing wave is stepped, once those whose guard fails have advanced. -/
theorem unstepped_skipped {s : State} {w : Wave} {ff : FormF} (hi : Issuing s w) (L : Nat) : ((w.skipped s ff).lane L).stepped = false := by
  have hstill : (w.lane L).stepping = false ∧ (w.lane L).stepped = false := by
    by_cases hl : L < w.lanes.length
    · exact hi.unstepped _ (lane_mem hl)
    · unfold Wave.lane
      rw [List.getD_eq_default _ _ (by omega)]
      exact ⟨rfl, rfl⟩
  by_cases h : L ∈ skipping s w ff
  · rw [lane_skipped_in h]
    exact hstill.1
  · rw [lane_skipped_out h]
    exact hstill.2

/-- An issue whose body makes (res L).1 of each executing lane, outside the handler, and has it trap with (res L).2 if that is a trap: such lanes park, the
others are as the body made them. -/
theorem issue_laneTraps {s s2 : State} {w : Wave} {ff : FormF} {busy : State → Iss → Option State} {body : Iss → State → State × Traps}
    (res : Nat → Lane × Option Trap) (hi : Issuing s w) (hr : Ready s w ff) (h32 : w.lanes.length ≤ 32)
    (hb : executing s w ff ≠ [] → busy s (issueOf s w ff) = none)
    (hbody : executing s w ff ≠ [] → body (issueOf s w ff) (s.skipped w ff) =
      (s2, (executing s w ff).filterMap (fun L => (res L).2.map (fun t => (L, t)))))
    (hw : executing s w ff ≠ [] → s2.waves = ((s.skipped w ff).updWave w.uid (fun v =>
      (executing s w ff).foldl (fun v L => v.updLane L (fun _ => (res L).1)) v)).waves)
    (hres : ∀ L ∈ executing s w ff, (res L).1.stepped = false ∧ (res L).1.inHandler = false) :
    ∃ w', (s.issue ff busy body).wave? w.uid = some w' ∧ ∀ L ∈ executing s w ff,
      ((res L).1.st = .run → (res L).2 = none → w'.lane L = (res L).1.noted) ∧
      ∀ t, (res L).2 = some t → ∃ n, w'.lane L = ((res L).1.park t n).noted := by
  let E := executing s w ff
  let ts : Traps := E.filterMap (fun L => (res L).2.map (fun t => (L, t)))
  let x := E.foldl (fun v L => v.updLane L (fun _ => (res L).1)) (w.skipped s ff)
  have hnd : (E.map fun L => L).Nodup := by simpa using executing_nodup s w ff
  have hin : ∀ L ∈ E, x.lane L = (res L).1 := fun L hL => lane_foldUpd_in (fun L => L) (fun L _ => (res L).1) E _ hL hnd
    (by rw [length_skipped]; exact mem_minSet_lt (mem_executing.mp hL).1)
  have hmem : ∀ p ∈ ts, p.1 ∈ E ∧ (res p.1).2 = some p.2 := fun p hp => by
    obtain ⟨L, hL, h⟩ := List.mem_filterMap.mp hp
    obtain ⟨t, ht, rfl⟩ := Option.map_eq_some_iff.mp h
    exact ⟨hL, ht⟩
  have hkeys : (ts.map Prod.fst).Nodup := by
    have h : ts.map Prod.fst = E.filterMap (fun L => (res L).2.map (fun _ => L)) := by
      rw [List.map_filterMap]
      exact List.filterMap_congr fun L _ => by cases (res L).2 <;> rfl
    rw [h]
    refine (executing_nodup s w ff).filterMap fun L K M hL hK => ?_
    obtain ⟨_, _, rfl⟩ := Option.map_eq_some_iff.mp hL
    obtain ⟨_, _, e⟩ := Option.map_eq_some_iff.mp hK
    exact e.symm
  have hfound : E ≠ [] → s2.wave? w.uid = some x := fun hE => by
    unfold State.wave?
    rw [hw hE]
    refine (wave_updWave _ _ (fun v => E.foldl (fun v L => v.updLane L (fun _ => (res L).1)) v) fun v => ?_).trans (by rw [wave_skipped ff hi.found]; rfl)
    obtain ⟨ls, e⟩ := foldUpd_eq (fun L => L) (fun L _ => (res L).1) E v
    rw [e]
  have hstep : ∀ L, (x.lane L).stepped = false := fun L => by
    by_cases hL : L ∈ E
    · rw [hin L hL]
      exact (hres L hL).1
    · rw [lane_foldUpd_out (fun L => L) (fun L _ => (res L).1) L E _ (by simpa using hL)]
      exact unstepped_skipped hi L
  obtain ⟨w', hw', _, hlanes⟩ := issue_traps (ts := ts) hi hr h32 hb hbody hfound ((length_foldUpd (fun L => L) (fun L _ => (res L).1) E _).trans (length_skipped s w ff))
    hstep hkeys fun p hp => ⟨(hmem p hp).1, by rw [hin _ (hmem p hp).1]; exact (hres _ (hmem p hp).1).2⟩
  refine ⟨w', hw', fun L hL => ⟨fun hrun hno => ?_, fun t ht => ?_⟩⟩
  · rw [(hlanes L hL).1 (by rw [hin L hL]; exact stands_run hrun), hin L hL]
    intro hm
    obtain ⟨p, hp, rfl⟩ := List.mem_map.mp hm
    have := (hmem p hp).2
    rw [hno] at this
    cases this
  · have h := (hlanes L hL).2 t (List.mem_filterMap.mpr ⟨L, hL, by rw [ht]; rfl⟩)
    rwa [hin L hL] at h

/-! ## Instructions that raise floating-point exceptions (R216, R290) -/

/-- What a register instruction makes of a lane, and its trap. -/
def LRes.split : LRes → Lane × Option Trap
  | .ok l => (l, none)
  | .trap l t => (l, some t)

/-- What a producer makes of a lane, and its trap. -/
def PRes.split : PRes → Lane × Option Trap
  | .land l d vals _ => ((l.mark l.pc d vals.length).adv, none)
  | .trap l t => (l, some t)

theorem laneBody_split (f : State → Iss → Nat → Lane → LRes) (i : Iss) (s : State) :
    laneBody f i s = (s.updWave i.uid (fun w => i.E.foldl (fun w L => w.updLane L (fun _ => (f s i L (s.laneNow i L)).split.1)) w),
      i.E.filterMap (fun L => (f s i L (s.laneNow i L)).split.2.map (fun t => (L, t)))) := by
  unfold laneBody
  simp only [List.foldl_map, List.filterMap_map]
  rw [Prod.mk.injEq]
  refine ⟨congrArg (s.updWave i.uid) (funext fun w => congrArg (fun g => List.foldl g w i.E) (funext fun w => funext fun L => ?_)),
    List.filterMap_congr fun L _ => ?_⟩
  · cases f s i L (s.laneNow i L) <;> rfl
  · show (match f s i L (s.laneNow i L) with | .ok _ => none | .trap _ t => some (L, t)) = _
    cases f s i L (s.laneNow i L) <;> rfl

/-- What a register instruction makes of its executing lanes, outside the handler, when some of them trap. -/
theorem regIssue_traps {s : State} {w : Wave} {ff : FormF} {f : State → Iss → Nat → Lane → LRes} (hi : Issuing s w) (hr : Ready s w ff)
    (h32 : w.lanes.length ≤ 32) (res : Nat → Lane × Option Trap)
    (hres : ∀ L ∈ executing s w ff, (f (s.skipped w ff) (issueOf s w ff) L (w.lane L)).split = res L ∧ (res L).1.stepped = false ∧ (res L).1.inHandler = false) :
    ∃ w', (s.regIssue ff f).wave? w.uid = some w' ∧ ∀ L ∈ executing s w ff,
      ((res L).1.st = .run → (res L).2 = none → w'.lane L = (res L).1.noted) ∧
      ∀ t, (res L).2 = some t → ∃ n, w'.lane L = ((res L).1.park t n).noted := by
  let now (L : Nat) : Lane × Option Trap := (f (s.skipped w ff) (issueOf s w ff) L ((s.skipped w ff).laneNow (issueOf s w ff) L)).split
  have hnow : ∀ L ∈ executing s w ff, now L = res L := fun L hL => by
    show (f _ _ L (State.laneNow _ _ L)).split = _
    rw [laneNow_skipped hi.found hL]
    exact (hres L hL).1
  obtain ⟨w', hw', hlanes⟩ := issue_laneTraps (busy := never) now hi hr h32 (fun _ => rfl) (fun _ => laneBody_split f (issueOf s w ff) (s.skipped w ff))
    (fun _ => rfl) fun L hL => by rw [hnow L hL]; exact (hres L hL).2
  exact ⟨w', hw', fun L hL => by rw [← hnow L hL]; exact hlanes L hL⟩

/-- Results on their way touch nothing else. -/
theorem foldl_addLand_waves {α : Type} (g : State → α → State) (hg : ∀ s a, (g s a).waves = s.waves) : ∀ (rs : List α) (s : State), (rs.foldl g s).waves = s.waves
  | [], _ => rfl
  | a :: rs, s => (foldl_addLand_waves g hg rs (g s a)).trans (hg s a)

/-- What a producer leaves: the waves as the lanes' results say, and the traps. -/
theorem prodBody_split (sfu : Bool) (f : State → Iss → Nat → Lane → PRes) (i : Iss) (s : State) :
    (prodBody sfu f i s).1.waves = (s.updWave i.uid (fun w => i.E.foldl (fun w L => w.updLane L (fun _ => (f s i L (s.laneNow i L)).split.1)) w)).waves ∧
      (prodBody sfu f i s).2 = i.E.filterMap (fun L => (f s i L (s.laneNow i L)).split.2.map (fun t => (L, t))) := by
  unfold prodBody
  dsimp only
  refine ⟨(foldl_addLand_waves _ (fun s r => ?_) _ _).trans ?_, ?_⟩
  · rcases r with ⟨L, _ | _⟩ <;> rfl
  · simp only [List.foldl_map]
    refine congrArg (fun g => (s.updWave i.uid g).waves) (funext fun w => congrArg (fun g => List.foldl g w i.E) (funext fun w => funext fun L => ?_))
    cases f s i L (s.laneNow i L) <;> rfl
  · rw [List.filterMap_map]
    refine List.filterMap_congr fun L _ => ?_
    show (match f s i L (s.laneNow i L) with | .land _ _ _ _ => none | .trap _ t => some (L, t)) = _
    cases f s i L (s.laneNow i L) <;> rfl

/-- A lane without an enabled exception finishes; one with an enabled exception keeps its registers and traps. -/
theorem fpDone_split (l : Lane) (d : BitVec 7) (r : Word × FpFlags) :
    (NoTrap l r.2 → (l.fpDone d r).split = (((l.flags r.2).set d.toNat r.1).adv, none)) ∧
      (¬ NoTrap l r.2 → (l.fpDone d r).split = (l.flags r.2, some ((l.flags r.2).trapHere tkFPX (r.2.zeroExtend 32)))) := by
  refine ⟨fun h => by rw [fpDone_ok h]; rfl, fun h => ?_⟩
  have htrap : l.fpDone d r = .trap (l.flags r.2) ((l.flags r.2).trapHere tkFPX (r.2.zeroExtend 32)) := if_pos (bne_iff_ne.mpr h)
  rw [htrap, LRes.split]

/-- A lane that has parked at its instruction with FPX. -/
theorem fpxParked_park {l m : Lane} (fl : FpFlags) (n : Nat) (hregs : m.regs = l.regs) (hpreds : m.preds = l.preds) (hpc : m.pc = l.pc)
    (hhints : m.hints = l.hints) (hfp : m.fpctl = l.fpctl) :
    FpxParked l ((m.flags fl).park ((m.flags fl).trapHere tkFPX (fl.zeroExtend 32)) n).noted fl where
  parked := ⟨rfl, rfl, hpc, rfl⟩
  place := ⟨hpc, hhints⟩
  regs := ⟨hregs, hpreds⟩
  flags := congrArg (· ||| fl.zeroExtend 32) hfp

/-- The lanes of an issuing wave outside the handler. -/
theorem lane_outside {w : Wave} (h : ∀ l ∈ w.lanes, l.inHandler = false) (L : Nat) : (w.lane L).inHandler = false := by
  by_cases hl : L < w.lanes.length
  · exact h _ (lane_mem hl)
  · unfold Wave.lane
    rw [List.getD_eq_default _ _ (by omega)]

theorem executing_unstepped {s : State} {w : Wave} {ff : FormF} (hi : Issuing s w) {L : Nat} (hL : L ∈ executing s w ff) :
    (w.lane L).stepping = false ∧ (w.lane L).stepped = false :=
  hi.unstepped _ (lane_mem (mem_minSet_lt (mem_executing.mp hL).1))
theorem executing_runs {s : State} {w : Wave} {ff : FormF} {L : Nat} (hL : L ∈ executing s w ff) : (w.lane L).st = .run :=
  mem_minSet_run (mem_executing.mp hL).1

/-- A lane with other values latched of CLOCK and TIME. -/
def Lane.latched (l : Lane) (c t : Word) : Lane := { l with clockHi := c, timeHi := t }

/-- A register instruction with a result and flags, perhaps after latching CLOCK or TIME. -/
theorem flagTraps_fpDone {i : Instr} {ff : FormF} {d : BitVec 7} (before : State → Iss → Nat → Lane → Lane) (val : State → Iss → Nat → Lane → Word × FpFlags)
    (he : ∀ s, exec i s = .next (s.regIssue ff (fun s x L l => (before s x L l).fpDone d (val s x L l))))
    (hover : ∀ s x L l, ∃ c t, before s x L l = l.latched c t)
    (hskip : ∀ s w x L l, before (s.skipped w ff) x L l = before s x L l ∧ val (s.skipped w ff) x L l = val s x L l) : FlagTraps i ff d val := by
  intro s w hi hr h32 hout
  let x := issueOf s w ff
  obtain ⟨w', hw', hlanes⟩ := regIssue_traps (f := fun s x L l => (before s x L l).fpDone d (val s x L l)) hi hr h32
    (fun L => ((before s x L (w.lane L)).fpDone d (val s x L (w.lane L))).split) fun L hL => by
      obtain ⟨hov, hval⟩ := hskip s w x L (w.lane L)
      obtain ⟨c, t, hbefore⟩ := hover s x L (w.lane L)
      rw [hov, hval, hbefore]
      refine ⟨rfl, ?_⟩
      obtain ⟨hok, htrap⟩ := fpDone_split ((w.lane L).latched c t) d (val s x L (w.lane L))
      by_cases h : NoTrap (w.lane L) (val s x L (w.lane L)).2
      · rw [hok h]
        exact ⟨(executing_unstepped hi hL).1, lane_outside hout L⟩
      · rw [htrap h]
        exact ⟨(executing_unstepped hi hL).2, lane_outside hout L⟩
  refine ⟨_, w', he s, hw', fun L hL => ?_⟩
  obtain ⟨hgo, hpark⟩ := hlanes L hL
  obtain ⟨c, t, hbefore⟩ := hover s x L (w.lane L)
  obtain ⟨hok, htrap⟩ := fpDone_split ((w.lane L).latched c t) d (val s x L (w.lane L))
  rw [hbefore] at hgo hpark
  refine ⟨fun h => ?_, fun h => ?_⟩
  · rw [hok h] at hgo
    rw [hgo (executing_runs hL) rfl]
    rfl
  · rw [htrap h] at hpark
    obtain ⟨n, e⟩ := hpark _ rfl
    rw [e]
    exact fpxParked_park _ n rfl rfl rfl rfl rfl

/-- The same of an instruction that latches nothing. -/
theorem flagTraps_plain {i : Instr} {ff : FormF} {d : BitVec 7} (val : Iss → Nat → Lane → Word × FpFlags)
    (he : ∀ s, exec i s = .next (s.regIssue ff (fun _ x L l => l.fpDone d (val x L l)))) : FlagTraps i ff d (fun _ => val) :=
  flagTraps_fpDone (fun _ _ _ l => l) (fun _ => val) he (fun _ _ _ l => ⟨l.clockHi, l.timeHi, rfl⟩) fun _ _ _ _ _ => ⟨rfl, rfl⟩

/-- A multiply-accumulate with its addend from operand C (R284). -/
theorem flagTraps_mac {ctor : BitVec 7 → BitVec 7 → BitVec 7 → BitVec 1 → BitVec 1 → BitVec 2 → Instr}
    (val : Option (BitVec 25) → Word → Word → Word → Word → Word × FpFlags)
    (he : ∀ d a b e f g s, exec (ctor d a b e f g) s = .next (s.regIssue (fRRRc true d a b e f g) (fun s x L l =>
      let c := cVal true s x L l d
      c.2.fpDone d (val (x.h L).xmod c.2.fpctl (c.2.v a.toNat) (c.2.v b.toNat) c.1)))) (d a b : BitVec 7) (e f : BitVec 1) (g : BitVec 2) :
    FlagTraps (ctor d a b e f g) (fRRRc true d a b e f g) d
      (fun s x L l => val (x.h L).xmod l.fpctl (l.v a.toNat) (l.v b.toNat) (cVal true s x L l d).1) := by
  refine flagTraps_fpDone (fun s x L l => (cVal true s x L l d).2)
    (fun s x L l => val (x.h L).xmod l.fpctl (l.v a.toNat) (l.v b.toNat) (cVal true s x L l d).1) (fun s => ?_)
    (fun s x L l => cVal_lane ..) fun s w x L l => ⟨congrArg Prod.snd (cVal_skipped ..), ?_⟩
  · rw [he]
    simp only [cVal_fpctl, v_congr cVal_keeps.1]
  · rw [cVal_skipped]

/-! ## The SFU (R206, R304) -/

/-- What an SFU instruction makes of a lane, whose result may land at a cycle. -/
def sfuRes (fn : Word → Word → Word × FpFlags) (d a : BitVec 7) (due : Nat) (l : Lane) : PRes :=
  let r := fn l.fpctl (l.v a.toNat)
  let l1 := l.flags r.2
  if l.enabled r.2 != 0 then .trap l1 (l1.trapHere tkFPX (r.2.zeroExtend 32)) else .land l1 d.toNat [r.1] due

/-- The state in which the executing lanes of an SFU instruction enter the queue of their quadrant. -/
def State.sfuEntered (s : State) (i : Iss) : State :=
  s.updCore i.core (fun c => { c with
    sfu := listUpd c.sfu (i.w.slot % 4) (fun _ => sfuQueued c (i.w.slot % 4) s.cycle ++
      [(sfuStart (s.core i.core) (i.w.slot % 4) s.cycle + s.slow i.die (ceilDiv i.E.length 8), (i.l (i.E.getD 0 0)).pc)]) })

/-- The body of an SFU instruction. -/
def sfuBody (fn : Word → Word → Word × FpFlags) (d a : BitVec 7) (i : Iss) (s : State) : State × Traps :=
  prodBody true (fun _ i L l => sfuRes fn d a (sfuStart (s.core i.core) (i.w.slot % 4) s.cycle + s.slow i.die (posIn L i.E / 8 + 24)) l) i (s.sfuEntered i)

theorem sfuOp_eq (fn : Word → Word → Word × FpFlags) (d a : BitVec 7) (e : BitVec 1) (g : BitVec 2) (s : State) :
    sfuOp fn d a e g s = .next (s.issue (fRRF d a e g) (waitIf sfuBusy) (sfuBody fn d a)) := rfl

theorem sfuRes_split (fn : Word → Word → Word × FpFlags) (d a : BitVec 7) (due : Nat) (l : Lane) :
    let r := fn l.fpctl (l.v a.toNat)
    (NoTrap l r.2 → (sfuRes fn d a due l).split = (((l.flags r.2).mark l.pc d.toNat 1).adv, none)) ∧
      (¬ NoTrap l r.2 → (sfuRes fn d a due l).split = (l.flags r.2, some ((l.flags r.2).trapHere tkFPX (r.2.zeroExtend 32)))) := by
  intro r
  refine ⟨fun h => ?_, fun h => ?_⟩
  · have hland : sfuRes fn d a due l = .land (l.flags r.2) d.toNat [r.1] due := if_neg (by rw [Lane.enabled, show r.2 &&& _ = 0 from h]; decide)
    rw [hland]
    rfl
  · have htrap : sfuRes fn d a due l = .trap (l.flags r.2) ((l.flags r.2).trapHere tkFPX (r.2.zeroExtend 32)) := if_pos (bne_iff_ne.mpr h)
    rw [htrap, PRes.split]

/-- Marking touches the registers only. -/
theorem mark_eq (pc : Word) : ∀ (k n : Nat) (l : Lane), ∃ rs, l.mark pc n k = { l with regs := rs }
  | 0, _, l => ⟨l.regs, rfl⟩
  | k + 1, n, l => by
    obtain ⟨rs, h⟩ := mark_eq pc k (n + 1) { l with regs := listUpd l.regs n (fun r => { r with full := false, fault := false, tag := pc }) }
    exact ⟨rs, h⟩

/-- Marking registers empty and going on, after a change that keeps the lane's registers and place. -/
theorem emptied_mark {l m : Lane} {d n : Nat} (hregs : m.regs = l.regs) (hpc : m.pc = l.pc) (hd : d + n ≤ l.regs.length)
    (hrest : { m.less with opCount := 0 } = { l.less with opCount := 0 }) : Emptied l (m.mark m.pc d n).adv.noted d n := by
  have hreg : ∀ r, (m.mark m.pc d n).adv.noted.reg r = if d ≤ r ∧ r < d + n then { l.reg r with full := false, fault := false, tag := l.pc } else l.reg r := by
    intro r
    have h : (m.mark m.pc d n).reg r = _ := reg_mark m m.pc d n r (by rw [hregs]; exact hd)
    have hm : m.reg r = l.reg r := congrArg (fun rs : List Reg => rs.getD r {}) hregs
    rw [hm, hpc] at h
    rw [hpc]
    exact h
  obtain ⟨rs, e⟩ := mark_eq m.pc n d m
  refine ⟨fun k hk => ?_, fun r hr => ?_, ?_, ?_⟩
  · rw [hreg, if_pos ⟨by omega, by omega⟩]
    exact ⟨rfl, rfl, rfl⟩
  · rw [hreg, if_neg (by omega)]
  · rw [e]
    exact ⟨congrArg (· + 1) hpc, rfl⟩
  · rw [e]
    exact hrest

theorem sfuTraps (fn : Word → Word → Word × FpFlags) (d a : BitVec 7) (e : BitVec 1) (g : BitVec 2) {s : State} {w : Wave} (hi : Issuing s w)
    (hr : Ready s w (fRRF d a e g)) (h32 : w.lanes.length ≤ 32) (hout : ∀ l ∈ w.lanes, l.inHandler = false) (hbusy : sfuBusy s (issueOf s w (fRRF d a e g)) = false) :
    ∃ (t : State) (w' : Wave), sfuOp fn d a e g s = .next t ∧ t.wave? w.uid = some w' ∧ ∀ L ∈ executing s w (fRRF d a e g),
        let l := w.lane L
        let r := fn l.fpctl (l.v a.toNat)
        (NoTrap l r.2 → Emptied { l with fpctl := (w'.lane L).fpctl } (w'.lane L) d.toNat 1 ∧ (w'.lane L).fpctl = l.fpctl ||| r.2.zeroExtend 32) ∧
        (¬ NoTrap l r.2 → FpxParked l (w'.lane L) r.2) := by
  let ff := fRRF d a e g
  let i := issueOf s w ff
  let u := s.skipped w ff
  let due (L : Nat) : Nat := sfuStart (u.core i.core) (i.w.slot % 4) u.cycle + u.slow i.die (posIn L i.E / 8 + 24)
  have hnow : ∀ L ∈ executing s w ff, (u.sfuEntered i).laneNow i L = w.lane L := fun L hL => laneNow_skipped hi.found hL
  obtain ⟨hwaves, htraps⟩ := prodBody_split true (fun _ _ L l => sfuRes fn d a (due L) l) i (u.sfuEntered i)
  obtain ⟨w', hw', hlanes⟩ := issue_laneTraps (busy := waitIf sfuBusy) (body := sfuBody fn d a) (fun L => (sfuRes fn d a (due L) ((u.sfuEntered i).laneNow i L)).split) hi hr h32
    (fun _ => if_neg (by rw [hbusy]; exact Bool.false_ne_true)) (fun _ => Prod.ext rfl htraps) (fun _ => hwaves) fun L hL => by
      obtain ⟨hok, htrap⟩ := sfuRes_split fn d a (due L) (w.lane L)
      rw [hnow L hL]
      by_cases h : NoTrap (w.lane L) (fn (w.lane L).fpctl ((w.lane L).v a.toNat)).2
      · obtain ⟨rs, e⟩ := mark_eq (w.lane L).pc 1 d.toNat ((w.lane L).flags (fn (w.lane L).fpctl ((w.lane L).v a.toNat)).2)
        rw [hok h, e]
        exact ⟨(executing_unstepped hi hL).1, lane_outside hout L⟩
      · rw [htrap h]
        exact ⟨(executing_unstepped hi hL).2, lane_outside hout L⟩
  refine ⟨_, w', sfuOp_eq fn d a e g s, hw', fun L hL => ?_⟩
  obtain ⟨hgo, hpark⟩ := hlanes L hL
  obtain ⟨hok, htrap⟩ := sfuRes_split fn d a (due L) (w.lane L)
  rw [hnow L hL] at hgo hpark
  refine ⟨fun h => ?_, fun h => ?_⟩
  · rw [hok h] at hgo
    obtain ⟨rs, e⟩ := mark_eq (w.lane L).pc 1 d.toNat ((w.lane L).flags (fn (w.lane L).fpctl ((w.lane L).v a.toNat)).2)
    have hlane := hgo (by rw [e]; exact executing_runs hL) rfl
    rw [hlane]
    refine ⟨emptied_mark (l := { w.lane L with fpctl := _ }) rfl rfl (executing_has_dst (fun _ _ => rfl) hL) (by rw [e]; rfl), by rw [e]; rfl⟩
  · rw [htrap h] at hpark
    obtain ⟨n, e⟩ := hpark _ rfl
    rw [e]
    exact fpxParked_park _ n rfl rfl rfl rfl rfl

/-- CVTQ finishes with the result of as many elements as its format takes (R307). -/
theorem cvtqExec (d a b : BitVec 7) (e f : BitVec 1) (g : BitVec 2) (s : State) : exec (.cvtq d a b e f g) s =
    .next (s.regIssue (fCVTQ d a b e f g) (fun _ x L l =>
      let m := (x.h L).xmod.getD 0
      let n := if xmFMT m = 5 ∨ xmFMT m = 8 then 8 else 4
      l.fpDone d (cvtq m l.fpctl l.hseed L ((List.range n).map (fun k => l.v (a.toNat + k))) (l.v b.toNat)))) := by
  show execCvtq d a b e f g s = _
  simp only [execCvtq, fmtOf_eq, cvtqSpan_eq, Lane.vs]

/-- Settles O6: each executing lane finishes on its own, and those with an enabled exception park. -/
theorem enabledExceptionsTrap : Obligations.EnabledExceptionsTrap := by
  unfold Obligations.EnabledExceptionsTrap
  intro rrr mac cvt sfu
  have two {ctor val} (he : ∀ d a b e f g s, exec (ctor d a b e f g) s =
      .next (s.regIssue (fRRRx false d a b e f g) (fun _ x L l => l.fpDone d (val (x.h L).xmod l.fpctl (l.v a.toNat) (l.v b.toNat))))) : rrr ctor val :=
    fun d a b e f g => flagTraps_plain (fun x L l => val (x.h L).xmod l.fpctl (l.v a.toNat) (l.v b.toNat)) (he d a b e f g)
  have acc {ctor val} (he : ∀ d a b e f g s, exec (ctor d a b e f g) s = .next (s.regIssue (fRRRc true d a b e f g) (fun s x L l =>
      let c := cVal true s x L l d
      c.2.fpDone d (val (x.h L).xmod c.2.fpctl (c.2.v a.toNat) (c.2.v b.toNat) c.1)))) : mac ctor val := flagTraps_mac val he
  have one {ctor sr val} (he : ∀ d a e g s, exec (ctor d a e g) s =
      .next (s.regIssue (fRRFx sr d a e g) (fun _ x L l => l.fpDone d (val (x.h L).xmod l.fpctl l.hseed L (l.v a.toNat))))) : cvt ctor sr val :=
    fun d a e g => flagTraps_plain (fun x L l => val (x.h L).xmod l.fpctl l.hseed L (l.v a.toNat)) (he d a e g)
  have special {ctor fn} (he : ∀ d a e g s, exec (ctor d a e g) s = sfuOp fn d a e g s) : sfu ctor fn :=
    fun d a e g s w hi hr h32 hout hbusy => by rw [he]; exact sfuTraps fn d a e g hi hr h32 hout hbusy
  clear_value rrr mac cvt sfu
  refine ⟨⟨two ?_, two ?_, two ?_, two ?_, two ?_, two ?_, acc ?_, one ?_⟩, ⟨two ?_, two ?_, two ?_, two ?_, acc ?_, two ?_, two ?_, two ?_, two ?_, acc ?_⟩,
    ⟨one ?_, one ?_, one ?_, one ?_, one ?_, one ?_, one ?_, one ?_, one ?_, one ?_, one ?_, one ?_, one ?_, one ?_, fun d a b e f g =>
      ⟨flagTraps_plain _ fun _ => rfl, flagTraps_plain _ fun _ => rfl, flagTraps_plain _ fun s => cvtqExec d a b e f g s⟩⟩,
    special ?_, special ?_, special ?_, special ?_, special ?_, special ?_, special ?_, special ?_, special ?_, special ?_⟩
  all_goals intros
  all_goals rfl

end Sys2Proof.Machine

/-!
PROOFS. Producers, whose results land later (R203), and the SFU (R206, R304).
-/

namespace Sys2Proof.Machine

/-! ## What an issue without traps leaves of the machine's other parts -/

/-- An issue whose body raises no trap and changes of its wave the executing lanes only, lane L by g L. -/
theorem issue_less {s : State} {w : Wave} {ff : FormF} {busy : State → Iss → Option State} {body : Iss → State → State × Traps}
    (g : Nat → Lane → Lane) (s2 : State) (hi : Issuing s w) (hr : Ready s w ff) (hst : ∀ L ∈ executing s w ff, (g L (w.lane L)).stepped = false)
    (hb : executing s w ff ≠ [] → busy s (issueOf s w ff) = none)
    (hbody : executing s w ff ≠ [] → body (issueOf s w ff) (s.skipped w ff) = (s2, []))
    (hw : executing s w ff ≠ [] → s2.waves = ((s.skipped w ff).updWave w.uid (fun v => (executing s w ff).foldl (fun v L => v.updLane L (g L)) v)).waves)
    (hc : executing s w ff ≠ [] → s2.pkg = s.pkg) :
    ∃ w', Issued s (s.issue ff busy body) w w' ff ∧ w'.less = w.less ∧ (executing s w ff = [] → (s.issue ff busy body).less = s.less) ∧
      (executing s w ff ≠ [] → (s.issue ff busy body).less = s2.less) ∧ ∀ L ∈ executing s w ff, w'.lane L = (g L (w.lane L)).noted := by
  obtain ⟨y, heq, hiss, hnil, hsome, hlanes⟩ := issue_lanes (fun L => L) g (executing s w ff) id s2 (fun _ => rfl) (fun _ => rfl) hi hr (List.map_id _)
    hst hb hbody hw hc
  refine ⟨_, hiss, ?_, fun hE => ?_, fun hE => ?_, hlanes⟩
  · by_cases hE : executing s w ff = []
    · exact hnil hE
    · obtain ⟨ls, hy⟩ := hsome hE
      have hyl : y.less = (w.skipped s ff).less := by rw [hy]; rfl
      exact hyl.trans (less_skipped s w ff)
  · rw [heq, less_noteIssue, bodyState_nil hE]
    rfl
  · rw [heq, less_noteIssue, bodyState_some hE]

/-! ## Producers without traps (R203) -/

/-- Results put on their way one after another. -/
theorem foldl_addLand {i : Iss} (d : Nat → Nat) (vals : Nat → List Word) (due : Nat → Nat) (pc : Nat → Word) (sfu : Bool) : ∀ (Ls : List Nat) (s : State),
    Ls.foldl (fun s L => s.addLand i.uid L (d L) (vals L) (due L) (pc L) sfu) s = { s with
      lands := s.lands ++ (Ls.zipIdx s.fresh).map (fun p =>
        { id := p.2, uid := i.uid, lane := p.1, d := d p.1, vals := vals p.1, due := due p.1, pc := pc p.1, sfu })
      fresh := s.fresh + Ls.length }
  | [], s => by simp
  | L :: Ls, s => by
    rw [List.foldl_cons, foldl_addLand d vals due pc sfu Ls]
    simp [State.addLand, Nat.add_assoc, Nat.add_comm 1]

/-- A producer none of whose executing lanes traps: their destinations go empty, and their results are on their way. -/
theorem prodBody_lands {sfu : Bool} {f : State → Iss → Nat → Lane → PRes} {i : Iss} {s : State} (l : Nat → Lane) (d : Nat → Nat) (vals : Nat → List Word)
    (due : Nat → Nat) (h : ∀ L ∈ i.E, f s i L (s.laneNow i L) = .land (l L) (d L) (vals L) (due L)) :
    prodBody sfu f i s = ({ s.updWave i.uid (fun w => i.E.foldl (fun w L => w.updLane L (fun _ => ((l L).mark (l L).pc (d L) (vals L).length).adv)) w) with
      lands := s.lands ++ (i.E.zipIdx s.fresh).map (fun p =>
        { id := p.2, uid := i.uid, lane := p.1, d := d p.1, vals := vals p.1, due := due p.1, pc := (l p.1).pc, sfu })
      fresh := s.fresh + i.E.length }, []) := by
  have hrs : i.E.map (fun L => (L, f s i L (s.laneNow i L))) = i.E.map (fun L => (L, PRes.land (l L) (d L) (vals L) (due L))) :=
    List.map_congr_left fun L hL => by rw [h L hL]
  unfold prodBody
  simp only [hrs, List.foldl_map, List.filterMap_map]
  rw [foldl_addLand d vals due (fun L => (l L).pc) sfu, Prod.mk.injEq]
  exact ⟨rfl, List.filterMap_eq_nil_iff.mpr fun _ _ => rfl⟩

theorem getElem_zipIdx_posIn : ∀ (Ls : List Nat) (k : Nat), Ls.Nodup → ∀ p ∈ Ls.zipIdx k, posIn p.1 Ls + k = p.2
  | [], _, _, _, h => by cases h
  | L :: Ls, k, hn, p, h => by
    rw [List.zipIdx_cons, List.mem_cons] at h
    unfold posIn
    rcases h with rfl | h
    · simp
    · have hne : L ≠ p.1 := fun e => (List.nodup_cons.mp hn).1 (e ▸ (List.mem_zipIdx h).2.2 ▸ List.getElem_mem _)
      rw [if_neg hne, Nat.add_right_comm, Nat.add_assoc]
      exact getElem_zipIdx_posIn Ls (k + 1) (List.nodup_cons.mp hn).2 p h

/-! ## The SFU without an enabled exception (R206, R304) -/

theorem le_sfuStart (c : CoreSt) (q cycle : Nat) : cycle ≤ sfuStart c q cycle := by
  unfold sfuStart
  generalize sfuQueued c q cycle = xs
  induction xs generalizing cycle with
  | nil => exact Nat.le_refl _
  | cons x xs ih => exact (Nat.le_max_left _ _).trans (ih _)

theorem sfuRes_land (fn : Word → Word → Word × FpFlags) (d a : BitVec 7) (due : Nat) {l : Lane} (h : NoTrap l (fn l.fpctl (l.v a.toNat)).2) :
    sfuRes fn d a due l = .land (l.flags (fn l.fpctl (l.v a.toNat)).2) d.toNat [(fn l.fpctl (l.v a.toNat)).1] due :=
  if_neg (by rw [Lane.enabled, show (fn l.fpctl (l.v a.toNat)).2 &&& _ = 0 from h]; decide)

/-- One result for each executing lane, in ascending order, the k-th due when the k-th lane's is. -/
theorem lands_of_posIn {s : State} {x : Iss} {d : Nat} {vals : Nat → List Word} {due : Nat → Nat} {pc : Nat → Word} {sfu : Bool} (hn : x.E.Nodup)
    (hpc : ∀ L ∈ x.E, pc L = (x.l L).pc) :
    (x.E.zipIdx s.fresh).map (fun p => ({ id := p.2, uid := x.uid, lane := p.1, d := d, vals := vals p.1, due := due (posIn p.1 x.E), pc := pc p.1, sfu } : Land)) =
      landsOf s x d vals due sfu := by
  unfold landsOf
  rw [List.zipIdx_eq_map_add, List.map_map]
  refine List.map_congr_left fun p hp => ?_
  have hk := getElem_zipIdx_posIn x.E 0 hn p hp
  rw [Nat.add_zero] at hk
  simp only [Function.comp, hk, Nat.add_comm, hpc p.1 (List.fst_mem_of_mem_zipIdx hp)]

theorem core_updCore (s : State) (k : Nat) (f : CoreSt → CoreSt) : (s.updCore k f).core k = f (s.core k) ∧ ∀ j, j ≠ k → (s.updCore k f).core j = s.core j := by
  unfold State.updCore State.core
  refine ⟨?_, fun j hj => ?_⟩
  · rw [find_put, if_pos rfl]
    rfl
  · rw [find_put, if_neg hj]

/-- What SFU instruction and lanes come to: the quadrant's queue has one entry more, and each lane has its result on its way. -/
def SfuIssued (fn : Word → Word → Word × FpFlags) (d a : BitVec 7) (s : State) (x : Iss) (w : Wave) (t : State) (w' : Wave) : Prop :=
  w'.less = w.less ∧ t.fresh = s.fresh + x.E.length ∧
    (∀ k, k ≠ x.core → t.core k = s.core k) ∧ { t.core x.core with sfu := [] } = { s.core x.core with sfu := [] } ∧
    (∃ start, s.cycle ≤ start ∧ (sfuQueued (s.core x.core) (x.w.slot % 4) s.cycle = [] → start = s.cycle) ∧
      t.lands = s.lands ++ landsOf s x d.toNat (fun L => [(fn (w.lane L).fpctl ((w.lane L).v a.toNat)).1]) (fun k => start + s.slow x.die (k / 8 + 24)) true) ∧
    ∀ L ∈ x.E, Emptied { w.lane L with fpctl := (w'.lane L).fpctl } (w'.lane L) d.toNat 1 ∧
      (w'.lane L).fpctl = (w.lane L).fpctl ||| (fn (w.lane L).fpctl ((w.lane L).v a.toNat)).2.zeroExtend 32

/-- What the body of an SFU instruction makes of the state when no lane traps. -/
theorem sfuBody_lands (fn : Word → Word → Word × FpFlags) (d a : BitVec 7) {s : State} {w : Wave} {ff : FormF} (hi : Issuing s w)
    (hno : ∀ L ∈ executing s w ff, NoTrap (w.lane L) (fn (w.lane L).fpctl ((w.lane L).v a.toNat)).2) :
    let x := issueOf s w ff
    let start := sfuStart (s.core x.core) (x.w.slot % 4) s.cycle
    let u := (s.skipped w ff).sfuEntered x
    sfuBody fn d a x (s.skipped w ff) = ({ u.updWave w.uid (fun v => x.E.foldl (fun v L => v.updLane L (fun _ =>
        (((w.lane L).flags (fn (w.lane L).fpctl ((w.lane L).v a.toNat)).2).mark (w.lane L).pc d.toNat 1).adv)) v) with
      lands := s.lands ++ landsOf s x d.toNat (fun L => [(fn (w.lane L).fpctl ((w.lane L).v a.toNat)).1]) (fun k => start + s.slow x.die (k / 8 + 24)) true
      fresh := s.fresh + x.E.length }, []) := by
  intro x start u
  let due (k : Nat) : Nat := start + s.slow x.die (k / 8 + 24)
  have hland : ∀ L ∈ x.E, sfuRes fn d a (due (posIn L x.E)) (u.laneNow x L) = .land ((w.lane L).flags (fn (w.lane L).fpctl ((w.lane L).v a.toNat)).2) d.toNat
      [(fn (w.lane L).fpctl ((w.lane L).v a.toNat)).1] (due (posIn L x.E)) := fun L hL => by
    have hnow : u.laneNow x L = w.lane L := laneNow_skipped hi.found hL
    rw [hnow]
    exact sfuRes_land _ _ _ _ (hno L hL)
  have hbody := prodBody_lands (sfu := true) (f := fun _ _ L l => sfuRes fn d a (due (posIn L x.E)) l) _ (fun _ => d.toNat) _ (fun L => due (posIn L x.E)) hland
  have hlands := lands_of_posIn (s := s) (x := x) (d := d.toNat) (vals := fun L => [(fn (w.lane L).fpctl ((w.lane L).v a.toNat)).1]) (due := due)
    (pc := fun L => (w.lane L).pc) (sfu := true) (executing_nodup s w ff) fun L hL => by rw [issueOf_lane hL]
  refine hbody.trans ?_
  rw [← hlands]
  rfl

theorem core_of_cores {s t : State} (h : t.cores = s.cores) : t.core = s.core := by
  funext k
  unfold State.core
  rw [h]

theorem specialIssues (fn : Word → Word → Word × FpFlags) (d a : BitVec 7) (e : BitVec 1) (g : BitVec 2) {s : State} {w : Wave}
    (hi : Issuing s w) (hr : Ready s w (fRRF d a e g)) (hbusy : sfuBusy s (issueOf s w (fRRF d a e g)) = false)
    (hno : ∀ L ∈ executing s w (fRRF d a e g), NoTrap (w.lane L) (fn (w.lane L).fpctl ((w.lane L).v a.toNat)).2) :
    ∃ (t : State) (w' : Wave), sfuOp fn d a e g s = .next t ∧ Issued s t w w' (fRRF d a e g) ∧
      ({ t.lessLands with cores := [] } : State) = { s.lessLands with cores := [] } ∧ SfuIssued fn d a s (issueOf s w (fRRF d a e g)) w t w' := by
  let ff := fRRF d a e g
  let x := issueOf s w ff
  let m (l : Lane) : Lane := l.flags (fn l.fpctl (l.v a.toNat)).2
  obtain ⟨w', hiss, hless, hnil, hsome, hlanes⟩ := issue_less (busy := waitIf sfuBusy) (body := sfuBody fn d a)
    (fun L _ => ((m (w.lane L)).mark (w.lane L).pc d.toNat 1).adv) _ hi hr
    (fun L hL => by
      obtain ⟨rs, e⟩ := mark_eq (w.lane L).pc 1 d.toNat (m (w.lane L))
      rw [e]
      exact (executing_unstepped hi hL).1)
    (fun _ => if_neg (by rw [hbusy]; exact Bool.false_ne_true)) (fun _ => sfuBody_lands fn d a hi hno) (fun _ => rfl) (fun _ => rfl)
  have hlane : ∀ L ∈ x.E, Emptied { w.lane L with fpctl := (w'.lane L).fpctl } (w'.lane L) d.toNat 1 ∧
      (w'.lane L).fpctl = (w.lane L).fpctl ||| (fn (w.lane L).fpctl ((w.lane L).v a.toNat)).2.zeroExtend 32 := by
    intro L hL
    obtain ⟨rs, e⟩ := mark_eq (w.lane L).pc 1 d.toNat (m (w.lane L))
    rw [hlanes L hL]
    exact ⟨emptied_mark (l := { w.lane L with fpctl := _ }) rfl rfl (executing_has_dst (fun _ _ => rfl) hL) (by rw [e]; rfl), by rw [e]; rfl⟩
  refine ⟨_, w', sfuOp_eq fn d a e g s, hiss, ?_⟩
  generalize s.issue (fRRF d a e g) (waitIf sfuBusy) (sfuBody fn d a) = t at hiss hnil hsome ⊢
  by_cases hE : executing s w ff = []
  · have ht := hnil hE
    have hcores : t.core = s.core := core_of_cores (congrArg State.cores ht :)
    have hxE : x.E = [] := hE
    have hnone : landsOf s x d.toNat (fun L => [(fn (w.lane L).fpctl ((w.lane L).v a.toNat)).1]) (fun k => s.cycle + s.slow x.die (k / 8 + 24)) true = [] := by
      unfold landsOf
      rw [hxE]
      rfl
    refine ⟨congrArg (fun u : State => { u with lands := [], fresh := 0, cores := [] }) ht, hless, ?fresh, fun k _ => congrFun hcores k, ?own,
      ⟨s.cycle, Nat.le_refl _, fun _ => rfl, ?lands⟩, hlane⟩
    case fresh => exact (congrArg State.fresh ht).trans (by rw [show (issueOf s w (fRRF d a e g)).E = [] from hE]; rfl)
    case own => rw [hcores]
    case lands => exact (congrArg State.lands ht).trans (by rw [hnone, List.append_nil]; rfl)
  · have ht := hsome hE
    obtain ⟨hown, hother⟩ := core_updCore (s.skipped w ff) x.core (fun c => { c with
      sfu := listUpd c.sfu (x.w.slot % 4) (fun _ => sfuQueued c (x.w.slot % 4) s.cycle ++
        [(sfuStart (s.core x.core) (x.w.slot % 4) s.cycle + s.slow x.die (ceilDiv x.E.length 8), (x.l (x.E.getD 0 0)).pc)]) })
    have hcores : t.core = ((s.skipped w ff).sfuEntered x).core := core_of_cores (congrArg State.cores ht :)
    refine ⟨congrArg (fun u : State => { u with lands := [], fresh := 0, cores := [] }) ht, hless, (congrArg State.fresh ht :),
      fun k hk => (congrFun hcores k).trans (hother k hk), ?own,
      ⟨sfuStart (s.core x.core) (x.w.slot % 4) s.cycle, le_sfuStart _ _ _, ?start, (congrArg State.lands ht :)⟩, hlane⟩
    case own =>
      rw [hcores]
      exact congrArg (fun c : CoreSt => { c with sfu := [] }) hown
    case start =>
      intro hq
      unfold sfuStart
      rw [hq]
      rfl

/-- Settles O8: the results are on their way in lane order, group after group. -/
theorem specialFunctions : Obligations.SpecialFunctions := by
  unfold Obligations.SpecialFunctions
  intro is
  have issues {ctor fn} (he : ∀ d a e g s, exec (ctor d a e g) s = sfuOp fn d a e g s) : is ctor fn := by
    intro d a e g s w hi hr ⟨hbusy, hno⟩
    obtain ⟨t, w', h⟩ := specialIssues fn d a e g hi hr hbusy fun L hL => by
      have h := hno L hL
      rwa [laneNow_issuing _ hi] at h
    exact ⟨t, w', he d a e g s ▸ h⟩
  clear_value is
  refine ⟨issues ?_, issues ?_, issues ?_, issues ?_, issues ?_, issues ?_, issues ?_, issues ?_, issues ?_, issues ?_⟩
  all_goals
    intros
    rfl

end Sys2Proof.Machine

/-!
PROOFS. FADD and FSUB round the exact sum to the nearest FP32 value (R290, R299).
-/

namespace Sys2Proof.Machine

/-! ## The nearest multiple -/

/-- Of the multiples of D, and of the numbers below 2^23·D, a multiple of D within D / 2 of V is the nearest to V; when another is as near,
it is an even multiple. -/
theorem nearest_multiple {V D k c : Int} (hD : 0 < D) (hk : 2 * |k * D - V| ≤ D) (hV : 2 ^ 23 * D ≤ V) (heven : 2 * |k * D - V| = D → k % 2 = 0)
    (hc : (∃ j, c = j * D) ∨ |c| < 2 ^ 23 * D) :
    |k * D - V| ≤ |c - V| ∧ (|k * D - V| = |c - V| → c ≠ k * D → k % 2 = 0) := by
  have hmul : ∀ j : Int, j ≠ k → D - |k * D - V| ≤ |j * D - V| := fun j hj => by
    have hgap : D ≤ |j * D - k * D| := by
      rw [← sub_mul, abs_mul, abs_of_pos hD]
      exact le_mul_of_one_le_left hD.le (Int.one_le_abs (sub_ne_zero.mpr hj))
    have htri : |j * D - k * D| ≤ |j * D - V| + |k * D - V| := by
      rw [abs_sub_comm (k * D)]
      exact abs_sub_le _ _ _
    omega
  have hother : ∀ j : Int, j ≠ k → |k * D - V| ≤ |j * D - V| := fun j hj => by
    have := hmul j hj
    omega
  rcases hc with ⟨j, rfl⟩ | hsmall
  · by_cases hj : j = k
    · rw [hj]
      exact ⟨le_refl _, fun _ h => absurd rfl h⟩
    · refine ⟨hother j hj, fun h _ => heven ?_⟩
      have := hmul j hj
      omega
  · have hbase : |k * D - V| ≤ |2 ^ 23 * D - V| := by
      by_cases h23 : (2 : Int) ^ 23 = k
      · rw [h23]
      · exact hother _ h23
    have hV' : |2 ^ 23 * D - V| = V - 2 ^ 23 * D := by
      rw [abs_sub_comm]
      exact abs_of_nonneg (by omega)
    have hcV : |c - V| = V - c := by
      rw [abs_sub_comm]
      exact abs_of_nonneg (by have := le_abs_self c; omega)
    have hlt := le_abs_self c
    omega

/-! ## FP32 values in units of the least subnormal (R219) -/

/-- A finite FP32 magnitude, from its code, in units of 2^-149. -/
def magUnits (n : Nat) : Nat := if n / 2 ^ 23 = 0 then n % 2 ^ 23 else (n % 2 ^ 23 + 2 ^ 23) * 2 ^ (n / 2 ^ 23 - 1)

/-- A finite FP32 word in those units. -/
def wordUnits (x : Word) : Int :=
  let e := x.toNat / 2 ^ 23 % 256
  let m := x.toNat % 2 ^ 23
  let v : Nat := if e = 0 then m else (m + 2 ^ 23) * 2 ^ (e - 1)
  if x.msb then -(v : Int) else v

theorem wordUnits_eq (x : Word) : wordUnits x = if x.msb then -(magUnits (x.toNat % 2 ^ 31) : Int) else magUnits (x.toNat % 2 ^ 31) := by
  have he : x.toNat % 2 ^ 31 / 2 ^ 23 = x.toNat / 2 ^ 23 % 256 := by omega
  have hm : x.toNat % 2 ^ 31 % 2 ^ 23 = x.toNat % 2 ^ 23 := by omega
  unfold wordUnits magUnits
  rw [he, hm]

/-- A word of a sign and a magnitude. -/
theorem wordUnits_signed (neg : Bool) {n : Nat} (hn : n < 2 ^ 31) :
    wordUnits (BitVec.ofNat 32 (fp32.signed neg n)) = if neg then -(magUnits n : Int) else magUnits n := by
  rw [wordUnits_eq, BitVec.msb_eq_decide, BitVec.toNat_ofNat]
  cases neg with
  | false =>
    have h : fp32.signed false n = n := rfl
    rw [h, Nat.mod_eq_of_lt (by omega : n < 2 ^ 32), Nat.mod_eq_of_lt hn, decide_eq_false (by omega)]
  | true =>
    have h : fp32.signed true n = n + 2 ^ 31 := rfl
    rw [h, Nat.mod_eq_of_lt (by omega : n + 2 ^ 31 < 2 ^ 32), decide_eq_true (by omega), show (n + 2 ^ 31) % 2 ^ 31 = n by omega]

/-- The last bit of such a word is that of its magnitude. -/
theorem lsb_signed (neg : Bool) (n : Nat) : (BitVec.ofNat 32 (fp32.signed neg n)).getLsbD 0 = decide (n % 2 = 1) := by
  have h : fp32.signed neg n % 2 = n % 2 := by
    cases neg with
    | false => rfl
    | true =>
      show (n + 2 ^ 31) % 2 = n % 2
      omega
  rw [BitVec.getLsbD_ofNat, Nat.testBit_zero, h]
  simp

/-- Every finite magnitude is a number below 2^24 times a power of two. -/
theorem magUnits_form (n : Nat) : ∃ M j, M < 2 ^ 24 ∧ magUnits n = M * 2 ^ j := by
  unfold magUnits
  split
  · exact ⟨n % 2 ^ 23, 0, by omega, by omega⟩
  · exact ⟨n % 2 ^ 23 + 2 ^ 23, n / 2 ^ 23 - 1, by omega, rfl⟩

/-- A finite word is a multiple of 2^Q or below 2^23·2^Q. -/
theorem wordUnits_grid (x : Word) (Q : Nat) : (∃ j : Int, wordUnits x = j * (2 ^ Q : Nat)) ∨ |wordUnits x| < 2 ^ 23 * ((2 ^ Q : Nat) : Int) := by
  obtain ⟨M, j, hM, hform⟩ := magUnits_form (x.toNat % 2 ^ 31)
  by_cases hj : Q ≤ j
  · left
    have hdvd : ((2 ^ Q : Nat) : Int) ∣ magUnits (x.toNat % 2 ^ 31) :=
      Int.natCast_dvd_natCast.mpr (hform ▸ (pow_dvd_pow 2 hj).mul_left M)
    have hword : ((2 ^ Q : Nat) : Int) ∣ wordUnits x := by
      rw [wordUnits_eq]
      split
      · exact (Int.dvd_neg).mpr hdvd
      · exact hdvd
    obtain ⟨i, hi⟩ := hword
    exact ⟨i, hi.trans (mul_comm _ _)⟩
  · right
    have habs : |wordUnits x| = magUnits (x.toNat % 2 ^ 31) := by
      rw [wordUnits_eq]
      split
      · rw [abs_neg, Nat.abs_cast]
      · rw [Nat.abs_cast]
    rw [habs, hform]
    have hpow : 2 * 2 ^ j ≤ 2 ^ Q := by
      rw [← Nat.pow_succ']
      exact Nat.pow_le_pow_right (by omega) (by omega)
    have hlt : M * 2 ^ j < 2 ^ 24 * 2 ^ j := Nat.mul_lt_mul_of_pos_right hM (Nat.two_pow_pos j)
    have hnat : M * 2 ^ j < 2 ^ 23 * 2 ^ Q := by omega
    exact_mod_cast hnat

/-! ## Codes of magnitudes (R219) -/

theorem log2_eq {k L : Nat} (h1 : 2 ^ L ≤ k) (h2 : k < 2 ^ (L + 1)) : Nat.log2 k = L :=
  (Nat.log2_eq_iff (by have := Nat.two_pow_pos L; omega)).mpr ⟨h1, h2⟩

theorem magUnits_code {x f : Nat} (hx : 0 < x) (hf : f < 2 ^ 23) : magUnits (x * 2 ^ 23 + f) = (f + 2 ^ 23) * 2 ^ (x - 1) := by
  have hdiv : (x * 2 ^ 23 + f) / 2 ^ 23 = x := by omega
  have hmod : (x * 2 ^ 23 + f) % 2 ^ 23 = f := by omega
  rw [magUnits, hdiv, hmod, if_neg (by omega)]

theorem magBits_eq (k : Nat) (q : Int) : fp32.magBits k q =
    if k = 0 then 0 else if (Nat.log2 k : Int) + q < -126 then shlInt k (q + 149)
    else ((Nat.log2 k : Int) + q + 127).toNat * 2 ^ 23 + (if Nat.log2 k ≤ 23 then k * 2 ^ (23 - Nat.log2 k) else k / 2 ^ (Nat.log2 k - 23)) % 2 ^ 23 := by
  show (if (k == 0) = true then 0 else if (Nat.log2 k : Int) + q < -126 then shlInt k (q - (-149))
    else ((Nat.log2 k : Int) + q + 127).toNat * 2 ^ 23 + (if Nat.log2 k ≤ 23 then k * 2 ^ (23 - Nat.log2 k) else k / 2 ^ (Nat.log2 k - 23)) % 2 ^ 23) = _
  simp only [beq_iff_eq, Int.sub_neg]

/-- The code of k × 2^q stands for k × 2^q, and its last bit is that of a full significand. -/
theorem magBits_spec {k : Nat} {q : Int} (h0 : 0 < k) (hk : k ≤ 2 ^ 24) (hq : -149 ≤ q) (hnorm : 2 ^ 23 ≤ k ∨ q = -149) :
    magUnits (fp32.magBits k q) = k * 2 ^ (q + 149).toNat ∧ (2 ^ 23 ≤ k → k % 2 = 0 → fp32.magBits k q % 2 = 0) := by
  rw [magBits_eq, if_neg (by omega)]
  by_cases hsub : k < 2 ^ 23
  · obtain rfl : q = -149 := by omega
    have hlog : Nat.log2 k < 23 := (Nat.log2_lt (by omega)).mpr hsub
    rw [if_pos (by omega), show shlInt k (-149 + 149) = k from Nat.mul_one k, magUnits, if_pos (by omega)]
    exact ⟨by simp; omega, fun h => by omega⟩
  · by_cases htop : k = 2 ^ 24
    · subst htop
      have hlog : Nat.log2 (2 ^ 24) = 24 := Nat.log2_two_pow
      rw [hlog, if_neg (by omega), if_neg (by omega)]
      have hfrac : 2 ^ 24 / 2 ^ (24 - 23) % 2 ^ 23 = 0 := by decide
      have hx : ((24 : Nat) : Int) + q + 127 = q + 151 := by omega
      rw [hfrac, hx, magUnits_code (by omega) (by omega)]
      have hexp : (q + 151).toNat - 1 = (q + 149).toNat + 1 := by omega
      rw [hexp, Nat.pow_succ]
      exact ⟨by omega, fun _ _ => by omega⟩
    · have hlog : Nat.log2 k = 23 := log2_eq (by omega) (by omega)
      rw [hlog, if_neg (by omega), if_pos (Nat.le_refl _), Nat.sub_self, Nat.pow_zero, Nat.mul_one]
      have hexp : (((23 : Nat) : Int) + q + 127).toNat - 1 = (q + 149).toNat := by omega
      rw [magUnits_code (by omega) (by omega), hexp]
      have hk' : k % 2 ^ 23 + 2 ^ 23 = k := by omega
      rw [hk']
      exact ⟨rfl, fun _ _ => by omega⟩

/-! ## Rounding to nearest even (R223, R290) -/

/-- Rounding m to a multiple of 2^s, to nearest, ties to even. -/
theorem roundUp_nearest (neg : Bool) (m s : Nat) (hs : 0 < s) :
    let k := m / 2 ^ s + if roundUp .rne neg m s false 0 then 1 else 0
    2 * |((k : Int)) * (2 ^ s : Nat) - m| ≤ (2 ^ s : Nat) ∧ (2 * |(k : Int) * (2 ^ s : Nat) - m| = (2 ^ s : Nat) → k % 2 = 0) := by
  intro k
  have hD : 0 < 2 ^ s := Nat.two_pow_pos s
  have hlo : m % 2 ^ s < 2 ^ s := Nat.mod_lt _ hD
  have hm : (m : Int) = (m / 2 ^ s : Nat) * (2 ^ s : Nat) + (m % 2 ^ s : Nat) := by
    exact_mod_cast (Nat.div_add_mod' m (2 ^ s)).symm
  have hup : roundUp .rne neg m s false 0 = true ↔ 2 ^ s < 2 * (m % 2 ^ s) ∨ (2 * (m % 2 ^ s) = 2 ^ s ∧ m / 2 ^ s % 2 = 1) := by
    simp [roundUp, Nat.pos_iff_ne_zero.mp hs]
  by_cases h : roundUp .rne neg m s false 0 = true
  · have hk : k = m / 2 ^ s + 1 := congrArg (m / 2 ^ s + ·) (if_pos h)
    have hcase := hup.mp h
    have hdiff : ((k : Nat) : Int) * (2 ^ s : Nat) - m = (2 ^ s : Nat) - (m % 2 ^ s : Nat) := by
      rw [hk, hm]
      push_cast
      ring
    rw [hdiff, abs_of_nonneg (by omega), hk]
    omega
  · have hk : k = m / 2 ^ s := (congrArg (m / 2 ^ s + ·) (if_neg h)).trans (Nat.add_zero _)
    have hcase := mt hup.mpr h
    have hdiff : ((k : Nat) : Int) * (2 ^ s : Nat) - m = -(m % 2 ^ s : Nat) := by
      rw [hk, hm]
      ring
    rw [hdiff, abs_neg, Nat.abs_cast, hk]
    omega

/-- A finite FP32 word. -/
def WordFinite (x : Word) : Prop := x.toNat / 2 ^ 23 % 256 ≠ 255
/-- r is a nearest finite FP32 value to an exact value, with last bit 0 when another is as near. -/
def NearestWord (r : Word) (exact : Int) : Prop := ∀ c, WordFinite c →
  (wordUnits r - exact).natAbs ≤ (wordUnits c - exact).natAbs ∧
    ((wordUnits r - exact).natAbs = (wordUnits c - exact).natAbs → wordUnits c ≠ wordUnits r → r.getLsbD 0 = false)

theorem nearestWord_exact {r : Word} {v : Int} (h : wordUnits r = v) : NearestWord r v := by
  intro c _
  rw [h, Int.sub_self]
  refine ⟨Nat.zero_le _, fun he hne => absurd ?_ hne⟩
  have := Int.natAbs_eq_zero.mp he.symm
  omega

/-- A code whose magnitude is the nearest is the nearest of its sign. -/
theorem nearestWord_signed {neg : Bool} {n k Q : Nat} {V : Nat} (hn : n < 2 ^ 31) (hunits : magUnits n = k * 2 ^ Q) (hlast : k % 2 = 0 → n % 2 = 0)
    (hk : 2 * |(k : Int) * (2 ^ Q : Nat) - V| ≤ (2 ^ Q : Nat)) (hV : 2 ^ 23 * 2 ^ Q ≤ V)
    (heven : 2 * |(k : Int) * (2 ^ Q : Nat) - V| = (2 ^ Q : Nat) → k % 2 = 0) :
    NearestWord (BitVec.ofNat 32 (fp32.signed neg n)) (if neg then -(V : Int) else V) := by
  intro c _
  have hD : (0 : Int) < (2 ^ Q : Nat) := by exact_mod_cast Nat.two_pow_pos Q
  have hV' : (2 : Int) ^ 23 * (2 ^ Q : Nat) ≤ V := by exact_mod_cast hV
  have heven' : 2 * |(k : Int) * (2 ^ Q : Nat) - V| = (2 ^ Q : Nat) → (k : Int) % 2 = 0 := fun h => by exact_mod_cast heven h
  have hlsb : (k : Int) % 2 = 0 → (BitVec.ofNat 32 (fp32.signed neg n)).getLsbD 0 = false := fun h => by
    rw [lsb_signed, hlast (by omega)]
    rfl
  have hcast : ((k * 2 ^ Q : Nat) : Int) = (k : Int) * (2 ^ Q : Nat) := by push_cast; rfl
  rw [wordUnits_signed neg hn, hunits, hcast]
  cases neg with
  | false =>
    obtain ⟨hle, htie⟩ := nearest_multiple hD hk hV' heven' (wordUnits_grid c Q)
    rw [Int.abs_eq_natAbs, Int.abs_eq_natAbs] at hle htie
    simp only [Bool.false_eq_true, if_false]
    exact ⟨Int.ofNat_le.mp hle, fun h hne => hlsb (htie (congrArg _ h) hne)⟩
  | true =>
    have hgrid : (∃ j : Int, -wordUnits c = j * (2 ^ Q : Nat)) ∨ |-wordUnits c| < 2 ^ 23 * ((2 ^ Q : Nat) : Int) := by
      rw [abs_neg]
      refine (wordUnits_grid c Q).imp (fun ⟨j, hj⟩ => ⟨-j, by rw [hj]; ring⟩) id
    obtain ⟨hle, htie⟩ := nearest_multiple hD hk hV' heven' hgrid
    rw [Int.abs_eq_natAbs, Int.abs_eq_natAbs] at hle htie
    have hmirror : ∀ a : Int, (a - -(V : Int)).natAbs = (-a - V).natAbs := fun a => by omega
    simp only [if_true, hmirror, neg_neg]
    exact ⟨Int.ofNat_le.mp hle, fun h hne => hlsb (htie (congrArg _ h) fun e => hne (by omega))⟩

/-- The spacing, as a power of two, to which m × 2^e is rounded. -/
def roundExp (m : Nat) (e : Int) : Int := max ((Nat.log2 m : Int) + e - 23) (-149)
/-- The magnitude that it is rounded to, as a multiple of that spacing. -/
def roundMant (neg : Bool) (m : Nat) (e : Int) : Nat := (roundQ .rne neg m e (roundExp m e) false 0).1

theorem finish_eq (neg : Bool) (m : Nat) (e : Int) : (fp32.finish .rne false neg m e false 0).1 =
    if 255 * 2 ^ 23 ≤ fp32.magBits (roundMant neg m e) (roundExp m e) then fp32.signed neg (255 * 2 ^ 23)
    else fp32.signed neg (fp32.magBits (roundMant neg m e) (roundExp m e)) := by
  have hexp : (fp32.round .rne neg m e false 0).q = roundExp m e := rfl
  have hmant : (fp32.round .rne neg m e false 0).mant = roundMant neg m e := rfl
  have hinf : fp32.infBits = 255 * 2 ^ 23 := rfl
  unfold Fmt.finish
  simp only [hexp, hmant, hinf, Bool.false_and, Bool.false_eq_true, if_false, ge_iff_le]
  split <;> rfl

theorem not_finite_inf (neg : Bool) : ¬ WordFinite (BitVec.ofNat 32 (fp32.signed neg (255 * 2 ^ 23))) := by
  cases neg <;> exact fun h => h rfl

/-- What the significand is: exact, or the nearest multiple, of at least 2^23. -/
theorem roundMant_spec {neg : Bool} {m : Nat} {e : Int} (hm : 0 < m) (he : -149 ≤ e) :
    let k := roundMant neg m e
    let Q := (roundExp m e + 149).toNat
    let V := m * 2 ^ (e + 149).toNat
    0 < k ∧ k ≤ 2 ^ 24 ∧ (2 ^ 23 ≤ k ∨ roundExp m e = -149) ∧
      (k * 2 ^ Q = V ∨ (2 ^ 23 ≤ k ∧ 2 ^ 23 * 2 ^ Q ≤ V ∧ 2 * |(k : Int) * (2 ^ Q : Nat) - V| ≤ (2 ^ Q : Nat) ∧
        (2 * |(k : Int) * (2 ^ Q : Nat) - V| = (2 ^ Q : Nat) → k % 2 = 0))) := by
  intro k Q V
  have hlog1 : 2 ^ Nat.log2 m ≤ m := Nat.log2_self_le (by omega)
  have hlog2 : m < 2 ^ (Nat.log2 m + 1) := Nat.lt_log2_self
  by_cases hq : roundExp m e ≤ e
  · have hk : k = m * 2 ^ (e - roundExp m e).toNat := by
      show (roundQ .rne neg m e (roundExp m e) false 0).1 = _
      unfold roundQ
      rw [if_pos hq]
      rfl
    have hsum : (e - roundExp m e).toNat + Q = (e + 149).toNat := by
      show _ + (roundExp m e + 149).toNat = _
      have : -149 ≤ roundExp m e := le_max_right _ _
      omega
    have hexp : (Nat.log2 m : Int) + e - 23 ≤ roundExp m e := le_max_left _ _
    have hV : k * 2 ^ Q = V := by rw [hk, Nat.mul_assoc, ← Nat.pow_add, hsum]
    have hupper : k < 2 ^ 24 := by
      rw [hk]
      calc m * 2 ^ (e - roundExp m e).toNat < 2 ^ (Nat.log2 m + 1) * 2 ^ (e - roundExp m e).toNat := Nat.mul_lt_mul_of_pos_right hlog2 (Nat.two_pow_pos _)
        _ = 2 ^ (Nat.log2 m + 1 + (e - roundExp m e).toNat) := (Nat.pow_add ..).symm
        _ ≤ 2 ^ 24 := Nat.pow_le_pow_right (by omega) (by omega)
    refine ⟨by rw [hk]; exact Nat.mul_pos hm (Nat.two_pow_pos _), hupper.le, ?_, .inl hV⟩
    by_cases hsub : roundExp m e = -149
    · exact .inr hsub
    · have hfull : roundExp m e = (Nat.log2 m : Int) + e - 23 := (max_choice _ _).resolve_right hsub
      refine .inl ?_
      rw [hk]
      calc 2 ^ 23 = 2 ^ (Nat.log2 m + (e - roundExp m e).toNat) := by congr 1; omega
        _ = 2 ^ Nat.log2 m * 2 ^ (e - roundExp m e).toNat := Nat.pow_add ..
        _ ≤ m * 2 ^ (e - roundExp m e).toNat := Nat.mul_le_mul_right _ hlog1
  · have hfull : roundExp m e = (Nat.log2 m : Int) + e - 23 := (max_choice _ _).resolve_right fun h => hq (by unfold roundExp; omega)
    let d := (roundExp m e - e).toNat
    let t := (e + 149).toNat
    have hd : d + 23 = Nat.log2 m := by
      show (roundExp m e - e).toNat + 23 = _
      omega
    have hd0 : 0 < d := by
      show 0 < (roundExp m e - e).toNat
      omega
    have hQ : Q = d + t := by
      show (roundExp m e + 149).toNat = (roundExp m e - e).toNat + (e + 149).toNat
      omega
    have hk : k = m / 2 ^ d + if roundUp .rne neg m d false 0 then 1 else 0 := by
      show (roundQ .rne neg m e (roundExp m e) false 0).1 = _
      unfold roundQ
      rw [if_neg hq]
    obtain ⟨hnear, htie⟩ := roundUp_nearest neg m d hd0
    rw [← hk] at hnear htie
    have hlow : 2 ^ 23 * 2 ^ d ≤ m := by
      rw [← Nat.pow_add, Nat.add_comm, hd]
      exact hlog1
    have hhigh : m < 2 ^ 24 * 2 ^ d := by
      rw [← Nat.pow_add, show 24 + d = Nat.log2 m + 1 by omega]
      exact hlog2
    have hhi1 : 2 ^ 23 ≤ m / 2 ^ d := (Nat.le_div_iff_mul_le (Nat.two_pow_pos d)).mpr hlow
    have hhi2 : m / 2 ^ d < 2 ^ 24 := (Nat.div_lt_iff_lt_mul (Nat.two_pow_pos d)).mpr hhigh
    have hk23 : 2 ^ 23 ≤ k := by rw [hk]; omega
    have hk24 : k ≤ 2 ^ 24 := by rw [hk]; split <;> omega
    have ht : (0 : Int) < (2 ^ t : Nat) := by exact_mod_cast Nat.two_pow_pos t
    have hscale : (k : Int) * (2 ^ Q : Nat) - V = ((k : Int) * (2 ^ d : Nat) - m) * (2 ^ t : Nat) := by
      have hV : (V : Int) = m * (2 ^ t : Nat) := Nat.cast_mul _ _
      rw [hQ, Nat.pow_add, hV]
      push_cast
      ring
    have hpow : ((2 ^ Q : Nat) : Int) = (2 ^ d : Nat) * (2 ^ t : Nat) := by rw [hQ, Nat.pow_add]; push_cast; rfl
    rw [hscale, abs_mul, abs_of_pos ht, hpow, ← mul_assoc]
    refine ⟨by omega, hk24, .inl hk23, .inr ⟨hk23, ?_, mul_le_mul_of_nonneg_right hnear ht.le, fun h => htie (mul_right_cancel₀ ht.ne' h)⟩⟩
    rw [hQ, Nat.pow_add, ← Nat.mul_assoc]
    exact Nat.mul_le_mul_right _ hlow

theorem finish_nearest {neg : Bool} {m : Nat} {e : Int} (hm : 0 < m) (he : -149 ≤ e)
    (hfin : WordFinite (BitVec.ofNat 32 (fp32.finish .rne false neg m e false 0).1)) :
    NearestWord (BitVec.ofNat 32 (fp32.finish .rne false neg m e false 0).1)
      (if neg then -((m * 2 ^ (e + 149).toNat : Nat) : Int) else (m * 2 ^ (e + 149).toNat : Nat)) := by
  rw [finish_eq] at hfin ⊢
  split at hfin
  · exact absurd hfin (not_finite_inf neg)
  · rename_i hlt
    rw [if_neg hlt]
    obtain ⟨hk0, hk, hnorm, hcase⟩ := roundMant_spec (neg := neg) hm he
    obtain ⟨hunits, hlast⟩ := magBits_spec (q := roundExp m e) hk0 hk (le_max_right _ _) hnorm
    rcases hcase with hV | ⟨h23, hV, hnear, heven⟩
    · refine nearestWord_exact ?_
      rw [wordUnits_signed neg (by omega), hunits, hV]
    · exact nearestWord_signed (by omega) hunits (hlast h23) hnear hV heven

/-! ## The exact sum (R290) -/

theorem fpInt_scale (neg : Bool) (m : Nat) {e e0 : Int} (h0 : -149 ≤ e0) (h : e0 ≤ e) :
    fpInt neg m e e0 * (2 ^ (e0 + 149).toNat : Nat) = fpInt neg m e (-149) := by
  have hmag : (shlInt m (e - e0) : Int) * (2 ^ (e0 + 149).toNat : Nat) = shlInt m (e - -149) := by
    unfold shlInt
    rw [show (e - -149).toNat = (e - e0).toNat + (e0 + 149).toNat by omega, Nat.pow_add, ← Nat.mul_assoc]
    push_cast
    rfl
  unfold fpInt
  cases neg
  · exact hmag
  · simp only [if_true]
    rw [neg_mul, hmag]

theorem ofInt_nearest {v : Int} {e : Int} {z : Bool} (he : -149 ≤ e) (hfin : WordFinite (BitVec.ofNat 32 (fp32.ofInt .rne false v e z).1)) :
    NearestWord (BitVec.ofNat 32 (fp32.ofInt .rne false v e z).1) (v * (2 ^ (e + 149).toNat : Nat)) := by
  unfold Fmt.ofInt at hfin ⊢
  split at hfin
  · rename_i hv
    rw [if_pos hv, hv, zero_mul]
    exact nearestWord_exact ((wordUnits_signed z (by omega)).trans (by cases z <;> rfl))
  · rename_i hv
    rw [if_neg hv]
    have h := finish_nearest (Int.natAbs_pos.mpr hv) he hfin
    have hexact : (if decide (v < 0) then -((v.natAbs * 2 ^ (e + 149).toNat : Nat) : Int) else (v.natAbs * 2 ^ (e + 149).toNat : Nat)) =
        v * (2 ^ (e + 149).toNat : Nat) := by
      by_cases hneg : v < 0
      · rw [decide_eq_true hneg, if_pos rfl, Nat.cast_mul, ← neg_mul, Int.ofNat_natAbs_of_nonpos hneg.le, neg_neg]
      · rw [decide_eq_false hneg, if_neg Bool.false_ne_true, Nat.cast_mul, Int.natAbs_of_nonneg (by omega)]
    rwa [hexact] at h

/-- The value of a finite word, as an integer in units of 2^-149. -/
theorem decode_finite {x : Word} (hx : WordFinite x) : ∃ neg m e, fp32.decode x.toNat = .fin neg m e ∧ -149 ≤ e ∧ fpInt neg m e (-149) = wordUnits x := by
  unfold WordFinite at hx
  rw [fp32_decode, if_neg hx]
  unfold wordUnits fpInt
  dsimp only
  by_cases he : x.toNat / 2 ^ 23 % 256 = 0
  · rw [if_pos he]
    refine ⟨_, _, _, rfl, le_refl _, ?_⟩
    rw [if_pos he, show shlInt (x.toNat % 2 ^ 23) (-149 - -149) = x.toNat % 2 ^ 23 from Nat.mul_one _]
  · rw [if_neg he]
    refine ⟨_, _, _, rfl, by omega, ?_⟩
    have hexp : (((x.toNat / 2 ^ 23 % 256 : Nat) : Int) - 150 - -149).toNat = x.toNat / 2 ^ 23 % 256 - 1 := by omega
    rw [if_neg he, shlInt, hexp]

/-- The sum of two finite values, rounded, is nearest to the exact one. -/
theorem add_nearest {sa sb : Bool} {ma mb : Nat} {ea eb : Int} (ha : -149 ≤ ea) (hb : -149 ≤ eb)
    (hfin : WordFinite (BitVec.ofNat 32 (fp32.add .rne false (.fin sa ma ea) (.fin sb mb eb)).1)) :
    NearestWord (BitVec.ofNat 32 (fp32.add .rne false (.fin sa ma ea) (.fin sb mb eb)).1) (fpInt sa ma ea (-149) + fpInt sb mb eb (-149)) := by
  have he : -149 ≤ min ea eb := le_min ha hb
  rw [← fpInt_scale sa ma he (min_le_left _ _), ← fpInt_scale sb mb he (min_le_right _ _), ← add_mul]
  exact ofInt_nearest he hfin

/-- With RM and FTZ 0 and no XMOD, FADD and FSUB add the operands' values to nearest even. -/
theorem f32op_addsub (a b : Word) {c : Word} (hc : c.toNat / 2 ^ 10 % 8 = 0) :
    (f32op .add none c a b 0).1 = BitVec.ofNat 32 (fp32.add .rne false (fp32.decode a.toNat) (fp32.decode b.toNat)).1 ∧
      (f32op .sub none c a b 0).1 = BitVec.ofNat 32 (fp32.add .rne false (fp32.decode a.toNat) (fp32.decode b.toNat).neg).1 := by
  have hftz : ftzOf c = false := by
    unfold ftzOf
    rw [BitVec.getLsbD, Nat.testBit_eq_decide_div_mod_eq, decide_eq_false]
    omega
  have hrm : rmOf c = .rne := by
    have h0 : (c.extractLsb' 10 2).toNat = 0 := by
      rw [BitVec.extractLsb'_toNat, Nat.shiftRight_eq_div_pow]
      omega
    unfold rmOf
    rw [h0]
    rfl
  have hop : ∀ n, fp32.operand false n = fp32.decode n := fun n => by
    unfold Fmt.operand
    cases fp32.decode n <;> rfl
  have hsat : satOf none = false := rfl
  unfold f32op
  simp only [Fmt.opSat, Fmt.op, hftz, pickRm, hrm, hop, hsat, Bool.false_eq_true, if_false, and_self]

/-- Settles O7: the exact sum is an integer in units of the least subnormal, rounded to a multiple of a power of two. -/
theorem sumsRoundToNearest : Obligations.SumsRoundToNearest := by
  unfold Obligations.SumsRoundToNearest
  intro finite units nearest a b c ha hb hc
  obtain ⟨hadd, hsub⟩ := f32op_addsub a b hc
  obtain ⟨sa, ma, ea, hda, hea, hua⟩ := decode_finite ha
  obtain ⟨sb, mb, eb, hdb, heb, hub⟩ := decode_finite hb
  have hneg : fpInt (!sb) mb eb (-149) = -wordUnits b := by
    rw [← hub]
    unfold fpInt
    cases sb <;> simp
  refine ⟨fun hfin => ?_, fun hfin => ?_⟩
  · rw [hadd, hda, hdb] at hfin ⊢
    have h := add_nearest hea heb hfin
    rw [hua, hub] at h
    exact h
  · rw [hsub, hda, hdb] at hfin ⊢
    have h := add_nearest hea heb (sb := !sb) hfin
    rw [hua, hneg] at h
    exact h

end Sys2Proof.Machine

/-!
PROOFS. Bytes of memory after a write, and what marking a page dirty changes (R5, R100, R144).
-/

namespace Sys2Proof.Machine

/-! ## Bytes of numbers -/

theorem leBytes_getD : ∀ (n v j : Nat), (leBytes n v).getD j 0 = if j < n then BitVec.ofNat 8 (v / 256 ^ j) else 0
  | 0, _, _ => by simp [leBytes]
  | n + 1, v, 0 => by simp [leBytes]
  | n + 1, v, j + 1 => by
    rw [leBytes, List.getD_cons_succ, leBytes_getD n (v / 256) j, Nat.div_div_eq_div_mul, Nat.pow_succ, Nat.mul_comm 256]
    simp only [Nat.add_lt_add_iff_right]

theorem leNat_byte : ∀ (bs : List Byte) (j : Nat), leNat bs / 256 ^ j % 256 = (bs.getD j 0).toNat
  | [], j => by simp [leNat]
  | b :: bs, 0 => by
    have := b.isLt
    simp only [leNat, Nat.pow_zero, Nat.div_one, List.getD_cons_zero]
    omega
  | b :: bs, j + 1 => by
    have hb := b.isLt
    have hdiv : leNat (b :: bs) / 256 = leNat bs := by
      simp only [leNat]
      omega
    rw [Nat.pow_succ, Nat.mul_comm, ← Nat.div_div_eq_div_mul, hdiv, List.getD_cons_succ]
    exact leNat_byte bs j

/-- A byte of memory after a write. -/
theorem memByte_memPut {m : List Host.Cell} (h : Memory.wf m = true) (a j : Nat) (bs : List Byte) :
    memByte (memPut m a bs) j = if a ≤ j ∧ j < a + bs.length then bs.getD (j - a) 0 else memByte m j := byteAt_putBytes bs a j h

theorem memByte_wr {s : State} (h : Memory.wf s.mem = true) (pa n v a : Nat) :
    memByte (s.wr pa n v).mem a = if pa ≤ a ∧ a < pa + n then BitVec.ofNat 8 (v / 256 ^ (a - pa)) else memByte s.mem a := by
  show memByte (memPut s.mem pa (leBytes n v)) a = _
  rw [memByte_memPut h, length_leBytes, leBytes_getD]
  by_cases hin : pa ≤ a ∧ a < pa + n
  · rw [if_pos hin, if_pos hin, if_pos (by omega)]
  · rw [if_neg hin, if_neg hin]

theorem memBytes_getD (m : List Host.Cell) (a n j : Nat) (hj : j < n) : (memBytes m a n).getD j 0 = memByte m (a + j) := by
  rw [memBytes_eq, bytesAt_eq_map, List.getD_eq_getElem _ _ (by simpa using hj), List.getElem_map, List.getElem_range]
  rfl

/-- A byte of a number read from memory. -/
theorem rd_byte (s : State) (pa n j : Nat) (hj : j < n) : s.rd pa n / 256 ^ j % 256 = (memByte s.mem (pa + j)).toNat := by
  show leNat (memBytes s.mem pa n) / 256 ^ j % 256 = _
  rw [leNat_byte, memBytes_getD _ _ _ _ hj]

/-! ## Marking a page dirty (R100) -/

theorem or_dirty_byte (v j : Nat) : (v ||| 0x200) / 256 ^ j % 256 = v / 256 ^ j % 256 ||| (if j = 1 then 2 else 0) := by
  have h256 : ∀ k, 256 ^ k = 2 ^ (8 * k) := fun k => by rw [show 256 = 2 ^ 8 by rfl, ← Nat.pow_mul]
  apply Nat.eq_of_testBit_eq
  intro b
  rw [h256, show 256 = 2 ^ 8 by rfl, Nat.testBit_mod_two_pow, Nat.testBit_div_two_pow, Nat.testBit_or, Nat.testBit_or, Nat.testBit_mod_two_pow,
    Nat.testBit_div_two_pow, show 0x200 = 2 ^ 9 by rfl, Nat.testBit_two_pow]
  by_cases hj : j = 1
  · subst hj
    rw [if_pos rfl, show 2 = 2 ^ 1 by rfl, Nat.testBit_two_pow]
    by_cases hb : b = 1
    · subst hb; simp
    · have h9 : ¬ 9 = b + 8 * 1 := by omega
      have h1 : ¬ 1 = b := by omega
      simp [h9, h1]
  · rw [if_neg hj, Nat.zero_testBit, Bool.or_false]
    by_cases hb : b < 8
    · have h9 : ¬ 9 = b + 8 * j := by omega
      simp [h9]
    · simp [hb]

/-- Marking an entry dirty sets bit 9 of it, and changes no other byte. -/
theorem memByte_orPte {s : State} (h : Memory.wf s.mem = true) (e a : Nat) :
    (memByte (s.orPte e 0x200).mem a).toNat = (memByte s.mem a).toNat ||| (if a = e + 1 then 2 else 0) := by
  unfold State.orPte
  rw [memByte_wr h]
  by_cases hin : e ≤ a ∧ a < e + 8
  · rw [if_pos hin, BitVec.toNat_ofNat, show 2 ^ 8 = 256 by rfl, or_dirty_byte, rd_byte s e 8 (a - e) (by omega), show e + (a - e) = a by omega]
    by_cases ha : a = e + 1
    · rw [if_pos ha, if_pos (by omega)]
    · rw [if_neg ha, if_neg (by omega)]
  · rw [if_neg hin, if_neg (by omega), Nat.or_zero]

/-- The translations but for what they note of DIRTY. -/
def State.tlbClean (s : State) : List TlbEnt := s.tlb.map (fun e => { e with dirty := true })

theorem covers_dirty (t : TlbEnt) (die c page : Nat) : ({ t with dirty := true } : TlbEnt).covers die c page = t.covers die c page := rfl

/-- A translation is found in states that differ in DIRTY only. -/
theorem tlbFind_clean {s t : State} (h : t.tlbClean = s.tlbClean) (die c va : Nat) :
    (t.tlbFind die c va).map (fun e => { e with dirty := true }) = (s.tlbFind die c va).map (fun e => { e with dirty := true }) := by
  have hfind : ∀ u : State, (u.tlbFind die c va).map (fun e : TlbEnt => { e with dirty := true }) = u.tlbClean.find? (fun e => e.covers die c (va / 65536)) := fun u => by
    unfold State.tlbFind State.tlbClean
    rw [List.find?_map]
    rfl
  rw [hfind, hfind, h]

/-- Marking the page of an address dirty: nothing, or bit 9 of its entry is set; the translations note it only. -/
theorem setDirty_spec (s : State) (die c va : Nat) :
    (s.setDirty die c va).tlbClean = s.tlbClean ∧
      ((s.setDirty die c va).mem = s.mem ∨ ∃ t, s.tlbFind die c va = some t ∧ (s.setDirty die c va).mem = (s.orPte t.leafPa 0x200).mem) := by
  unfold State.setDirty
  cases hfind : s.tlbFind die c va with
  | none => exact ⟨rfl, .inl rfl⟩
  | some t =>
    dsimp only
    by_cases hd : t.dirty = true
    · rw [if_pos hd]
      exact ⟨rfl, .inl rfl⟩
    · rw [if_neg hd]
      refine ⟨?_, .inr ⟨t, rfl, rfl⟩⟩
      unfold State.tlbClean
      rw [List.map_map]
      refine List.map_congr_left fun x _ => ?_
      simp only [Function.comp]
      split <;> rfl

theorem setDirty_less (s : State) (die c va : Nat) : (s.setDirty die c va).lessStores = s.lessStores ∧ (s.setDirty die c va).waves = s.waves ∧
    (s.setDirty die c va).accs = s.accs ∧ (s.setDirty die c va).fresh = s.fresh ∧ (s.setDirty die c va).cycle = s.cycle := by
  unfold State.setDirty
  split
  · exact ⟨rfl, rfl, rfl, rfl, rfl⟩
  · split
    · exact ⟨rfl, rfl, rfl, rfl, rfl⟩
    · unfold State.orPte State.wr State.wrBytes State.noteWrite State.lessStores State.lessAccs State.less
      exact ⟨rfl, rfl, rfl, rfl, rfl⟩

/-- From s to t memory reads as before but for the DIRTY bits of the entries that translate these addresses, and keeps its canonical form. -/
structure DirtyOnly (s t : State) (die c : Nat) (vas : List Nat) : Prop where
  wf : Memory.wf s.mem = true → Memory.wf t.mem = true
  memory : Memory.wf s.mem = true → ∀ a, memByte t.mem a = memByte s.mem a ∨
    ((∃ v ∈ vas, ∃ e, s.tlbFind die c v = some e ∧ a = e.leafPa + 1) ∧ (memByte t.mem a).toNat = (memByte s.mem a).toNat ||| 2)
  tlb : t.tlbClean = s.tlbClean

theorem DirtyOnly.refl (s : State) (die c : Nat) (vas : List Nat) : DirtyOnly s s die c vas := ⟨id, fun _ _ => .inl rfl, rfl⟩

theorem DirtyOnly.of_same {s t u : State} {die c : Nat} {vas : List Nat} (h : DirtyOnly s t die c vas) (hm : u.mem = t.mem) (ht : u.tlb = t.tlb) :
    DirtyOnly s u die c vas :=
  ⟨fun k => hm ▸ h.wf k, fun k a => hm ▸ h.memory k a, (congrArg (List.map _) ht).trans h.tlb⟩

/-- Marking one more page dirty. -/
theorem DirtyOnly.step {s t : State} {die c : Nat} {vas : List Nat} (h : DirtyOnly s t die c vas) {v : Nat} (hv : v ∈ vas) :
    DirtyOnly s (t.setDirty die c v) die c vas := by
  obtain ⟨htlb, hmem⟩ := setDirty_spec t die c v
  refine ⟨fun k => setDirty_keeps t die c v (h.wf k), fun k a => ?_, htlb.trans h.tlb⟩
  rcases hmem with hm | ⟨e, he, hm⟩
  · rw [hm]
    exact h.memory k a
  · have hbyte := memByte_orPte (h.wf k) e.leafPa a
    rw [← hm] at hbyte
    have hsome := tlbFind_clean h.tlb die c v
    rw [he] at hsome
    obtain ⟨e', he', heq⟩ := Option.map_eq_some_iff.mp hsome.symm
    have hpa : e'.leafPa = e.leafPa := (congrArg TlbEnt.leafPa heq :)
    by_cases ha : a = e.leafPa + 1
    · rw [if_pos ha] at hbyte
      right
      refine ⟨⟨v, hv, e', he', by rw [ha, hpa]⟩, ?_⟩
      rcases h.memory k a with hold | ⟨_, hold⟩
      · rw [hbyte, hold]
      · rw [hbyte, hold, Nat.or_assoc, Nat.or_self]
    · rw [if_neg ha, Nat.or_zero] at hbyte
      rw [BitVec.eq_of_toNat_eq hbyte]
      exact h.memory k a

end Sys2Proof.Machine

/-!
PROOFS. The accesses that loads, stores and atomics send (R320 to R332), and the lanes of memory instructions that stop on a check (R93,
R97, R98, R104, R114).
-/

namespace Sys2Proof.Machine

/-! ## A lane that passes and goes on -/

/-- What a lane becomes that sends this access and goes on past it, with these destinations empty. -/
def Lane.sent (l : Lane) (a : Acc) (dst : Nat × Nat) : Lane :=
  let m : Lane := if Machine.counts a.op a.log a.sp.isSome then { l with opCount := l.opCount + 1 } else l
  (m.mark m.pc dst.1 dst.2).adv

theorem sent_emptied {l : Lane} (a : Acc) {d n : Nat} (hd : d + n ≤ l.regs.length) : Emptied l (l.sent a (d, n)).noted d n := by
  unfold Lane.sent
  dsimp only
  split
  · exact emptied_mark rfl rfl hd rfl
  · exact emptied_mark rfl rfl hd rfl

theorem sent_goes (l : Lane) (a : Acc) (dst : Nat × Nat) :
    (l.sent a dst).st = l.st ∧ (l.sent a dst).pc = l.pc + 1 ∧ (l.sent a dst).hints = [] ∧ (l.sent a dst).stepped = l.stepping ∧
      (l.sent a dst).inHandler = l.inHandler := by
  unfold Lane.sent
  dsimp only
  obtain ⟨rs, e⟩ := mark_eq l.pc dst.2 dst.1 l
  obtain ⟨rs', e'⟩ := mark_eq l.pc dst.2 dst.1 { l with opCount := l.opCount + 1 }
  split
  · rw [e']
    exact ⟨rfl, rfl, rfl, rfl, rfl⟩
  · rw [e]
    exact ⟨rfl, rfl, rfl, rfl, rfl⟩

/-- A lane sends an access and goes on. -/
def State.send (s : State) (i : Iss) (L : Nat) (a : Acc) (dst : Nat × Nat) : State := (s.addAcc i L a).goOn i L dst

theorem listUpd_listUpd {α : Type} (f g : α → α) : ∀ (xs : List α) (n : Nat), listUpd (listUpd xs n f) n g = listUpd xs n (fun x => g (f x))
  | [], _ => rfl
  | _ :: _, 0 => rfl
  | x :: xs, n + 1 => congrArg (x :: ·) (listUpd_listUpd f g xs n)

theorem updLane_updLane (w : Wave) (L : Nat) (f g : Lane → Lane) : (w.updLane L f).updLane L g = w.updLane L (fun l => g (f l)) :=
  congrArg (fun ls => { w with lanes := ls }) (listUpd_listUpd f g w.lanes L)

theorem stateUpdLane_updLane (s : State) (uid L : Nat) (f g : Lane → Lane) : (s.updLane uid L f).updLane uid L g = s.updLane uid L (fun l => g (f l)) :=
  (updWave_updWave s uid (fun v => v.updLane L f) (fun v => v.updLane L g) fun _ => rfl).trans
    (congrArg (s.updWave uid) (funext fun v => updLane_updLane v L f g))

/-- The access is on its way, the lane goes on; nothing else changes. -/
theorem send_eq {s : State} {i : Iss} {L : Nat} {v : Wave} (a : Acc) (dst : Nat × Nat) (hv : s.wave? i.uid = some v)
    (hc : (v.lane L).opCount = (i.l L).opCount) :
    s.send i L a dst = { s.updWave i.uid (fun v => v.updLane L (fun l => l.sent a dst)) with
      accs := s.accs ++ [s.madeBy i L s.fresh a], fresh := s.fresh + 1 } := by
  unfold State.send State.addAcc State.addAccAt State.goOn State.madeBy
  rw [hv]
  dsimp only
  rw [hc]
  by_cases h : counts a.op a.log a.sp.isSome = true
  · have hsent : (fun l : Lane => l.sent a dst) = fun l => (({ l with opCount := l.opCount + 1 } : Lane).mark l.pc dst.1 dst.2).adv := by
      funext l
      unfold Lane.sent
      rw [if_pos h]
    rw [if_pos h, hsent]
    rw [stateUpdLane_updLane]
    rfl
  · have hsent : (fun l : Lane => l.sent a dst) = fun l => (l.mark l.pc dst.1 dst.2).adv := by
      funext l
      unfold Lane.sent
      rw [if_neg h]
    rw [if_neg h, hsent]
    rfl

theorem waves_updWave_congr {s t : State} (h : t.waves = s.waves) (uid : Nat) (f : Wave → Wave) : (t.updWave uid f).waves = (s.updWave uid f).waves := by
  unfold State.updWave
  rw [h]

/-- Lanes send one access each, in order, after something that keeps the waves and the accesses: their accesses are on their way, each lane has gone on. -/
theorem foldl_send {i : Iss} (pre : Nat → State → State) (a : Nat → Acc) (dst : Nat × Nat)
    (hpre : ∀ L s, (pre L s).waves = s.waves ∧ (pre L s).accs = s.accs ∧ (pre L s).fresh = s.fresh ∧ (pre L s).cycle = s.cycle) :
    ∀ (Ls : List Nat) (s : State) (v : Wave), s.wave? i.uid = some v → Ls.Nodup → (∀ L ∈ Ls, (v.lane L).opCount = (i.l L).opCount) →
      let t := Ls.foldl (fun s L => (pre L s).send i L (a L) dst) s
      t.waves = (s.updWave i.uid (fun v => Ls.foldl (fun v L => v.updLane L (fun l => l.sent (a L) dst)) v)).waves ∧
        t.accs = s.accs ++ (Ls.zipIdx s.fresh).map (fun p => s.madeBy i p.1 p.2 (a p.1)) ∧ t.fresh = s.fresh + Ls.length ∧ t.cycle = s.cycle
  | [], s, _, _, _, _ => ⟨by simp [State.updWave], by simp, rfl, rfl⟩
  | L :: Ls, s, v, hv, hn, hc => by
    obtain ⟨hw, haccs, hfresh, hcycle⟩ := hpre L s
    have hv1 : (pre L s).wave? i.uid = some v := by
      unfold State.wave?
      rw [hw]
      exact hv
    have hone := send_eq (a L) dst hv1 (hc L List.mem_cons_self)
    have hv2 : ((pre L s).send i L (a L) dst).wave? i.uid = some (v.updLane L (fun l => l.sent (a L) dst)) := by
      rw [hone]
      exact (wave_updWave _ _ (fun v => v.updLane L (fun l => l.sent (a L) dst)) fun _ => rfl).trans (by rw [hv1]; rfl)
    obtain ⟨h1, h2, h3, h4⟩ := foldl_send pre a dst hpre Ls _ _ hv2 (List.nodup_cons.mp hn).2 fun K hK => by
      have hne : K ≠ L := fun e => (List.nodup_cons.mp hn).1 (e ▸ hK)
      rw [lane_updLane, if_neg fun e => hne e.1]
      exact hc K (List.mem_cons_of_mem _ hK)
    have hmade : ∀ K n b, ((pre L s).send i L (a L) dst).madeBy i K n b = s.madeBy i K n b := fun K n b => by
      rw [hone]
      unfold State.madeBy
      rw [show ({ (pre L s).updWave i.uid (fun v => v.updLane L (fun l => l.sent (a L) dst)) with
        accs := (pre L s).accs ++ [(pre L s).madeBy i L (pre L s).fresh (a L)], fresh := (pre L s).fresh + 1 } : State).cycle = s.cycle from hcycle]
    have hmade0 : (pre L s).madeBy i L s.fresh (a L) = s.madeBy i L s.fresh (a L) := by
      unfold State.madeBy
      rw [hcycle]
    rw [List.foldl_cons]
    refine ⟨h1.trans ?_, h2.trans ?_, h3.trans ?_, h4.trans ?_⟩
    · rw [hone]
      have hboth := congrArg State.waves (updWave_updWave (pre L s) i.uid (fun v => v.updLane L (fun l => l.sent (a L) dst))
        (fun v => Ls.foldl (fun v L => v.updLane L (fun l => l.sent (a L) dst)) v) fun _ => rfl)
      exact hboth.trans (waves_updWave_congr hw i.uid _)
    · simp only [hmade]
      rw [hone, List.zipIdx_cons]
      show (pre L s).accs ++ [(pre L s).madeBy i L (pre L s).fresh (a L)] ++ _ = _
      rw [haccs, hfresh, hmade0, List.append_assoc]
      rfl
    · rw [hone]
      show (pre L s).fresh + 1 + _ = _
      rw [hfresh, List.length_cons]
      omega
    · rw [hone]
      exact hcycle

/-! ## Memory instructions whose lanes all pass -/

theorem laneXl_skipped (s : State) (w : Wave) (ff ff' : FormF) (va n : Nat) (k : AccKind) :
    (s.skipped w ff).laneXl (issueOf s w ff') va n k = s.laneXl (issueOf s w ff') va n k := rfl

theorem spCheck_skipped (s : State) (w : Wave) (ff ff' : FormF) (L r a n : Nat) :
    (s.skipped w ff).spCheck (issueOf s w ff') L r a n = s.spCheck (issueOf s w ff') L r a n := rfl

/-- An address that passes its checks has been translated, so no page walk is needed for it. -/
theorem unwalked_nil {s : State} {i : Iss} {vas : List Nat} (h : ∀ va ∈ vas, ∃ n k pa e, s.laneXl i va n k = .ok pa e) : s.unwalked i vas = [] := by
  unfold State.unwalked
  rw [List.filter_eq_nil_iff]
  intro p hp
  obtain ⟨va, hva, rfl⟩ := List.mem_map.mp (List.mem_eraseDups.mp hp)
  obtain ⟨n, k, pa, e, hok⟩ := h va hva
  have hpage : s.tlbFind i.die i.c (va / 65536 * 65536) = s.tlbFind i.die i.c va := by
    unfold State.tlbFind
    rw [Nat.mul_div_cancel _ (by omega)]
  have hsome : (s.tlbFind i.die i.c va).isNone = false := by
    unfold State.laneXl at hok
    cases hfind : s.tlbFind i.die i.c va with
    | none => rw [hfind] at hok; cases hok
    | some t => rfl
  rw [hpage, hsome]
  exact Bool.false_ne_true

theorem needPages_none {s : State} {i : Iss} {vas : Iss → List Nat} (h : s.unwalked i (vas i) = []) : needPages vas s i = none := by
  unfold needPages
  rw [h]

/-- What a memory instruction does with a lane that passes, before it goes on. -/
def State.touched (s : State) (i : Iss) (k : AccKind) (va : Nat) : State := if k.writes then s.setDirty i.die i.c va else s

theorem memBody_passes {k : AccKind} {align n : Nat} {va : Iss → Nat → Nat} {dst : Nat × Nat} {go : Iss → Nat → Nat → Pte → State → State} {i : Iss} {s : State}
    (h : ∀ L ∈ i.E, s.passes i (va i L) n align k) :
    memBody k align n va dst go i s =
      (i.E.foldl (fun u L => go i L (s.paOf i (va i L) n k) (s.pteOf i (va i L) n k) (u.touched i k (va i L))) s, []) := by
  have hxs : i.E.map (fun L => (L, va i L, if va i L % align = 0 then s.laneXl i (va i L) n k else .misaligned)) =
      i.E.map (fun L => (L, va i L, Xl.ok (s.paOf i (va i L) n k) (s.pteOf i (va i L) n k))) := by
    refine List.map_congr_left fun L hL => ?_
    obtain ⟨halign, pa, e, hok⟩ := h L hL
    unfold State.paOf State.pteOf
    rw [if_pos halign, hok]
  unfold memBody
  rw [hxs]
  simp only [List.foldl_map, List.filterMap_map]
  have hnone : ∀ {α : Type} (f : Nat × Nat × Xl → Option α), (∀ L va pa e, f (L, va, Xl.ok pa e) = none) →
      i.E.filterMap (f ∘ fun L => (L, va i L, Xl.ok (s.paOf i (va i L) n k) (s.pteOf i (va i L) n k))) = [] := fun f hf =>
    List.filterMap_eq_nil_iff.mpr fun L _ => hf _ _ _ _
  rw [hnone _ fun _ _ _ _ => rfl, hnone _ fun _ _ _ _ => rfl]
  rfl

/-- An issue whose executing lanes each send one access and go on. -/
theorem sendIssue {s s2 : State} {w : Wave} {ff : FormF} {busy : State → Iss → Option State} {body : Iss → State → State × Traps} (a : Nat → Acc) (d n : Nat)
    (hi : Issuing s w) (hr : Ready s w ff) (hd : ∀ L ∈ executing s w ff, d + n ≤ (w.lane L).regs.length)
    (hb : executing s w ff ≠ [] → busy s (issueOf s w ff) = none)
    (hbody : executing s w ff ≠ [] → body (issueOf s w ff) (s.skipped w ff) = (s2, []))
    (hw : executing s w ff ≠ [] → s2.waves = ((s.skipped w ff).updWave w.uid (fun v => (executing s w ff).foldl (fun v L =>
      v.updLane L (fun l => l.sent (a L) (d, n))) v)).waves)
    (hc : executing s w ff ≠ [] → s2.pkg = s.pkg ∧ s2.fresh = s.fresh + (executing s w ff).length ∧ s2.accs = s.accs ++ accsOf s (issueOf s w ff) a) :
    let t := s.issue ff busy body
    ∃ w', Issued s t w w' ff ∧ (executing s w ff = [] → t.less = s.less) ∧ (executing s w ff ≠ [] → t.less = s2.less) ∧
      w'.less = w.less ∧ t.fresh = s.fresh + (issueOf s w ff).E.length ∧ t.accs = s.accs ++ accsOf s (issueOf s w ff) a ∧
      ∀ L ∈ (issueOf s w ff).E, Emptied (w.lane L) (w'.lane L) d n := by
  obtain ⟨w', hiss, hless, hnil, hsome, hlanes⟩ := issue_less (fun L l => l.sent (a L) (d, n)) s2 hi hr
    (fun L hL => (sent_goes _ _ _).2.2.2.1.trans (executing_unstepped hi hL).1) hb hbody hw fun h => (hc h).1
  generalize s.issue ff busy body = t at hiss hnil hsome ⊢
  refine ⟨w', hiss, hnil, hsome, hless, ?fresh, ?accs, fun L hL => by rw [hlanes L hL]; exact sent_emptied _ (hd L hL)⟩
  case fresh =>
    by_cases hE : executing s w ff = []
    · rw [show (issueOf s w ff).E = [] from hE]
      exact (congrArg State.fresh (hnil hE) :)
    · exact (congrArg State.fresh (hsome hE) :).trans (hc hE).2.1
  case accs =>
    by_cases hE : executing s w ff = []
    · have hnone : accsOf s (issueOf s w ff) a = [] := by
        unfold accsOf
        rw [show (issueOf s w ff).E = [] from hE]
        rfl
      rw [hnone, List.append_nil]
      exact (congrArg State.accs (hnil hE) :)
    · exact (congrArg State.accs (hsome hE) :).trans (hc hE).2.2

/-- The lanes of an instruction as they are when their accesses are counted. -/
theorem opCount_skipped {s : State} {w : Wave} {ff : FormF} {L : Nat} (hL : L ∈ executing s w ff) :
    ((w.skipped s ff).lane L).opCount = ((issueOf s w ff).l L).opCount := by
  rw [lane_skipped_out (skipping_not_executing hL), issueOf_lane hL]

theorem send_waves_accs {s : State} {w : Wave} {ff : FormF} (hi : Issuing s w) (pre : Nat → State → State) (a : Nat → Acc) (dst : Nat × Nat)
    (hpre : ∀ L s, (pre L s).waves = s.waves ∧ (pre L s).accs = s.accs ∧ (pre L s).fresh = s.fresh ∧ (pre L s).cycle = s.cycle) :
    let s2 := (executing s w ff).foldl (fun u L => (pre L u).send (issueOf s w ff) L (a L) dst) (s.skipped w ff)
    s2.waves = ((s.skipped w ff).updWave w.uid (fun v => (executing s w ff).foldl (fun v L => v.updLane L (fun l => l.sent (a L) dst)) v)).waves ∧
      s2.fresh = s.fresh + (executing s w ff).length ∧ s2.accs = s.accs ++ accsOf s (issueOf s w ff) a := by
  obtain ⟨h1, h2, h3, _⟩ := foldl_send (i := issueOf s w ff) pre a dst hpre (executing s w ff) (s.skipped w ff) (w.skipped s ff) (wave_skipped ff hi.found) (executing_nodup s w ff)
    fun L hL => opCount_skipped hL
  refine ⟨h1, h3, h2.trans ?_⟩
  unfold accsOf
  rw [List.zipIdx_eq_map_add, List.map_map]
  refine congrArg (s.accs ++ ·) (List.map_congr_left fun p _ => ?_)
  simp only [Function.comp, Nat.add_comm]
  rfl

/-! ## Scratchpad instructions whose lanes all pass -/

theorem spBody_passes {r : BitVec 4} {off : Iss → Nat → Nat} {n : Nat} {go : Iss → Nat → Nat → Nat → State → State} {i : Iss} {s : State}
    (h : ∀ L ∈ i.E, s.spPasses i L r.toNat (off i L) n) :
    ∃ more, spBody r off n go i s =
      (let s1 := i.E.foldl (fun u L => go i L (s.spTeam i L r.toNat (off i L) n) (off i L) u) s
       ({ s1 with
          accs := s.accs ++ (s1.accs.drop s.accs.length).map (fun a => { a with extra := more })
          lands := s.lands ++ (s1.lands.drop s.lands.length).map (fun x => { x with due := x.due + s.slow i.die more }) }, [])) := by
  have hxs : i.E.map (fun L => (L, s.spCheck i L r.toNat (off i L) n)) = i.E.map (fun L => (L, Except.ok (s.spTeam i L r.toNat (off i L) n))) := by
    refine List.map_congr_left fun L hL => ?_
    obtain ⟨tid, hok⟩ := h L hL
    unfold State.spTeam
    rw [hok]
  unfold spBody
  rw [hxs]
  simp only [List.foldl_map, List.filterMap_map]
  exact ⟨_, Prod.ext rfl (List.filterMap_eq_nil_iff.mpr fun _ _ => rfl)⟩

theorem send_keeps (s : State) (i : Iss) (L : Nat) (a : Acc) (dst : Nat × Nat) : (s.send i L a dst).lessAccs = s.lessAccs := by
  unfold State.send State.addAcc State.addAccAt
  dsimp only
  split <;> rfl

theorem foldl_send_keeps (Ls : List Nat) (i : Iss) (a : Nat → Acc) (dst : Nat × Nat) (s : State) :
    (Ls.foldl (fun u L => u.send i L (a L) dst) s).lessAccs = s.lessAccs := by
  induction Ls generalizing s with
  | nil => rfl
  | cons L Ls ih => exact (ih _).trans (send_keeps s i L (a L) dst)

/-- Lanes that each pass and send one access to a scratchpad: the accesses take the cycles at the banks as well. -/
theorem spBody_sends {s : State} {w : Wave} {ff : FormF} {r : BitVec 4} {off : Iss → Nat → Nat} {n : Nat} {go : Iss → Nat → Nat → Nat → State → State}
    (a : Nat → Acc) (dst : Nat × Nat) (hi : Issuing s w)
    (h : ∀ L ∈ executing s w ff, s.spPasses (issueOf s w ff) L r.toNat (off (issueOf s w ff) L) n)
    (hgo : ∀ L u, go (issueOf s w ff) L (s.spTeam (issueOf s w ff) L r.toNat (off (issueOf s w ff) L) n) (off (issueOf s w ff) L) u =
      u.send (issueOf s w ff) L (a L) dst) :
    ∃ more s2, spBody r off n go (issueOf s w ff) (s.skipped w ff) = (s2, []) ∧ s2.lessAccs = s.lessAccs ∧
      s2.waves = ((s.skipped w ff).updWave w.uid (fun v => (executing s w ff).foldl (fun v L => v.updLane L (fun l => l.sent (a L) dst)) v)).waves ∧
      s2.pkg = s.pkg ∧ s2.fresh = s.fresh + (executing s w ff).length ∧
      s2.accs = s.accs ++ accsOf s (issueOf s w ff) (fun L => { a L with extra := more }) := by
  obtain ⟨more, hbody⟩ := spBody_passes (r := r) (off := off) (n := n) (go := go) (i := issueOf s w ff) (s := s.skipped w ff) h
  obtain ⟨hw, hf, ha⟩ := send_waves_accs (ff := ff) hi (fun _ s => s) a dst fun _ _ => ⟨rfl, rfl, rfl, rfl⟩
  have hfold : (issueOf s w ff).E.foldl (fun u L => go (issueOf s w ff) L ((s.skipped w ff).spTeam (issueOf s w ff) L r.toNat (off (issueOf s w ff) L) n)
      (off (issueOf s w ff) L) u) (s.skipped w ff) = (executing s w ff).foldl (fun u L => u.send (issueOf s w ff) L (a L) dst) (s.skipped w ff) :=
    List.foldl_ext _ _ _ fun u L _ => hgo L u
  have hkeep := foldl_send_keeps (executing s w ff) (issueOf s w ff) a dst (s.skipped w ff)
  rw [hfold] at hbody
  generalize (executing s w ff).foldl (fun u L => u.send (issueOf s w ff) L (a L) dst) (s.skipped w ff) = s1 at hbody hw hf ha hkeep
  have hlands : s1.lands = s.lands := (congrArg State.lands hkeep :)
  have hdue : s.lands ++ (s1.lands.drop s.lands.length).map (fun x => { x with due := x.due + s.slow (issueOf s w ff).die more }) = s1.lands := by
    rw [hlands, List.drop_length, List.map_nil, List.append_nil]
  have hextra : s.accs ++ (s1.accs.drop s.accs.length).map (fun a => { a with extra := more }) =
      s.accs ++ accsOf s (issueOf s w ff) (fun L => { a L with extra := more }) := by
    rw [ha, List.drop_left]
    unfold accsOf
    rw [List.map_map]
    rfl
  refine ⟨more, _, hbody, ?_, hw, (congrArg State.pkg hkeep :), hf, hextra⟩
  exact Eq.trans (congrArg (fun ls => ({ s1.lessAccs with lands := ls } : State)) hdue) hkeep

/-! ## The issue of a memory instruction whose lanes all pass -/

theorem touched_keeps (s : State) (i : Iss) (k : AccKind) (va : Nat) : (s.touched i k va).waves = s.waves ∧ (s.touched i k va).accs = s.accs ∧
    (s.touched i k va).fresh = s.fresh ∧ (s.touched i k va).cycle = s.cycle ∧ (s.touched i k va).lessStores = s.lessStores := by
  unfold State.touched
  split
  · obtain ⟨h1, h2, h3, h4, h5⟩ := setDirty_less s i.die i.c va
    exact ⟨h2, h3, h4, h5, h1⟩
  · exact ⟨rfl, rfl, rfl, rfl, rfl⟩

theorem lessStores_of_lessAccs {s t : State} (h : t.lessAccs = s.lessAccs) : t.lessStores = s.lessStores :=
  congrArg (fun u : State => { u with mem := [], wrote := [], writes := 0, pages := [], tlb := [] }) h

/-- What lanes leave that mark the pages of their addresses dirty and send one access each. -/
theorem foldl_touched (i : Iss) (k : AccKind) (va : Nat → Nat) (a : Nat → Acc) (dst : Nat × Nat) (s0 : State) (vas : List Nat) : ∀ (Ls : List Nat) (s : State),
    (∀ L ∈ Ls, va L ∈ vas) → DirtyOnly s0 s i.die i.c vas →
    let t := Ls.foldl (fun u L => (u.touched i k (va L)).send i L (a L) dst) s
    t.lessStores = s.lessStores ∧ DirtyOnly s0 t i.die i.c vas
  | [], _, _, h => ⟨rfl, h⟩
  | L :: Ls, s, hv, h => by
    have hkeep := send_keeps (s.touched i k (va L)) i L (a L) dst
    have hone : DirtyOnly s0 (s.touched i k (va L)) i.die i.c vas := by
      unfold State.touched
      split
      · exact h.step (hv L List.mem_cons_self)
      · exact h
    have hsent := hone.of_same (u := (s.touched i k (va L)).send i L (a L) dst) (congrArg State.mem hkeep :) (congrArg State.tlb hkeep :)
    obtain ⟨h1, h2⟩ := foldl_touched i k va a dst s0 vas Ls _ (fun K hK => hv K (List.mem_cons_of_mem _ hK)) hsent
    exact ⟨h1.trans ((lessStores_of_lessAccs hkeep).trans (touched_keeps s i k (va L)).2.2.2.2), h2⟩

theorem leafAt_some {s : State} {x : Iss} {va : Nat} {e : TlbEnt} (h : s.tlbFind x.die x.c va = some e) : s.leafAt x va = e.leafPa := by
  unfold State.leafAt
  rw [h]

/-- A memory instruction whose executing lanes pass their checks, send one access each and go on. -/
theorem memIssue {s : State} {w : Wave} {ff : FormF} {k : AccKind} {va : Iss → Nat → Nat} {al n d c : Nat} (acc : Iss → Nat → Nat → Pte → Acc)
    (hi : Issuing s w) (hr : Ready s w ff) (hd : ∀ L ∈ executing s w ff, d + c ≤ (w.lane L).regs.length)
    (hpass : ∀ L ∈ executing s w ff, s.passes (issueOf s w ff) (va (issueOf s w ff) L) n al k) :
    let x := issueOf s w ff
    let t := s.issue ff (needPages (alignedVas al va)) (memBody k al n va (d, c) (fun i L pa e s => s.send i L (acc i L pa e) (d, c)))
    ∃ w', Issued s t w w' ff ∧ t.lessStores = s.lessStores ∧ (k.writes = false → t.lessAccs = s.lessAccs) ∧ OnlyDirty s t x (va x) ∧
      w'.less = w.less ∧ t.fresh = s.fresh + x.E.length ∧ t.accs = s.accs ++ accsOf s x (fun L => acc x L (s.paOf x (va x L) n k) (s.pteOf x (va x L) n k)) ∧
      ∀ L ∈ x.E, Emptied (w.lane L) (w'.lane L) d c := by
  intro x
  let a (L : Nat) : Acc := acc x L (s.paOf x (va x L) n k) (s.pteOf x (va x L) n k)
  obtain ⟨hw, hf, ha⟩ := send_waves_accs (ff := ff) hi (fun L u => u.touched x k (va x L)) a (d, c) fun L u => by
    obtain ⟨h1, h2, h3, h4, _⟩ := touched_keeps u x k (va x L)
    exact ⟨h1, h2, h3, h4⟩
  have hbody := memBody_passes (dst := (d, c)) (s := s.skipped w ff) (go := fun i L pa e s => s.send i L (acc i L pa e) (d, c)) (i := x) hpass
  obtain ⟨hless, hdirty⟩ := foldl_touched x k (va x) a (d, c) s (x.E.map (va x)) (executing s w ff) (s.skipped w ff) (fun L hL => List.mem_map_of_mem hL)
    (.of_same (.refl s x.die x.c _) rfl rfl)
  have hread : k.writes = false → ((executing s w ff).foldl (fun u L => (u.touched x k (va x L)).send x L (a L) (d, c)) (s.skipped w ff)).lessAccs = s.lessAccs := fun h => by
    have hid : ∀ (u : State) L, u.touched x k (va x L) = u := fun u L => if_neg (by rw [h]; exact Bool.false_ne_true)
    simp only [hid]
    exact foldl_send_keeps _ _ _ _ _
  have hbusy : needPages (alignedVas al va) s x = none := needPages_none (unwalked_nil fun v hv => by
    obtain ⟨L, hL, rfl⟩ := List.mem_map.mp (List.mem_of_mem_filter hv)
    obtain ⟨_, pa, e, hok⟩ := hpass L hL
    exact ⟨n, k, pa, e, hok⟩)
  generalize hs2 : (executing s w ff).foldl (fun u L => (u.touched x k (va x L)).send x L (a L) (d, c)) (s.skipped w ff) = s2 at hw hf ha hless hdirty hread
  obtain ⟨w', hiss, hnil, hsome, hpost⟩ := sendIssue (ff := ff) (busy := needPages (alignedVas al va)) a d c hi hr hd (fun _ => hbusy)
    (fun _ => hbody.trans (congrArg (·, []) hs2)) (fun _ => hw) (fun _ => ⟨(congrArg State.pkg hless :), hf, ha⟩)
  intro t
  refine ⟨w', hiss, ?stores, ?loads, ?dirty, hpost⟩
  case stores =>
    by_cases hE : executing s w ff = []
    · exact congrArg (fun u : State => { u with accs := [], fresh := 0, mem := [], wrote := [], writes := 0, pages := [], tlb := [] }) (hnil hE)
    · exact (congrArg (fun u : State => { u with accs := [], fresh := 0, mem := [], wrote := [], writes := 0, pages := [], tlb := [] }) (hsome hE)).trans hless
  case loads =>
    intro h
    by_cases hE : executing s w ff = []
    · exact congrArg (fun u : State => { u with accs := [], fresh := 0 }) (hnil hE)
    · exact (congrArg (fun u : State => { u with accs := [], fresh := 0 }) (hsome hE)).trans (hread h)
  case dirty =>
    have ht : DirtyOnly s t x.die x.c (x.E.map (va x)) := by
      by_cases hE : executing s w ff = []
      · exact .of_same (.refl s x.die x.c _) (congrArg State.mem (hnil hE) :) (congrArg State.tlb (hnil hE) :)
      · exact hdirty.of_same (congrArg State.mem (hsome hE) :) (congrArg State.tlb (hsome hE) :)
    refine ⟨fun hwf b => (ht.memory hwf b).imp id fun ⟨⟨v, hv, e, he, hb⟩, hval⟩ => ⟨?_, hval⟩, ht.tlb⟩
    obtain ⟨L, hL, rfl⟩ := List.mem_map.mp hv
    exact ⟨L, hL, va x L, List.mem_singleton.mpr rfl, by rw [leafAt_some he]; exact hb⟩

/-- An instruction whose lanes are all ready issues as one that does not wait. -/
theorem issueForced_eq {s : State} {w : Wave} {ff : FormF} {busy : State → Iss → Option State} {body : Iss → State → State × Traps} {p : Acc → Bool}
    (hi : Issuing s w) (hr : Ready s w ff) (hb : executing s w ff ≠ [] → busy s (issueOf s w ff) = none)
    (hp : ∀ L ∈ executing s w ff, s.lanePend w.uid L p = []) : s.issueForced ff (fun _ _ => p) false busy body = s.issue ff busy body := by
  by_cases hE : executing s w ff = []
  · unfold State.issueForced
    rw [issue_ready hi hr (.inl hE), issue_ready hi hr (.inl hE), if_pos hE, if_pos hE]
  · have hready : ∀ (u : State), (∀ L, u.lanePend w.uid L p = s.lanePend w.uid L p) → ∀ L ∈ (issueOf s w ff).E, u.force (issueOf s w ff).uid L p false = .ready :=
      fun u hu L hL => force_ready ((hu L).trans (hp L hL))
    have hbusy := forcedBusy_ready (fr := fun (s : State) (i : Iss) (L : Nat) => s.force i.uid L p false) (busy := busy) (i := issueOf s w ff) hE (hready s fun _ => rfl)
    have hbody := forcedBody_ready (fr := fun (s : State) (i : Iss) (L : Nat) => s.force i.uid L p false) (body := body) (i := issueOf s w ff) hE
      (hready (s.skipped w ff) fun _ => rfl)
    unfold State.issueForced
    dsimp only
    rw [issue_ready hi hr (.inr (hb hE)), issue_ready hi hr (.inr (hbusy.trans (hb hE))), if_neg hE, if_neg hE, hbody]

theorem waitList_none {s : State} {i : Iss} {r : BitVec 4} {off : Iss → Nat → Nat} {n : Nat}
    (h : ∀ L ∈ i.E, ∀ tid, s.spCheck i L r.toNat (off i L) n = .ok tid → s.ownList i L tid (off i L) n = false) : waitList r off n s i = none := by
  refine if_neg ?_
  rw [Bool.not_eq_true, List.any_eq_false]
  intro L hL
  cases hc : s.spCheck i L r.toNat (off i L) n with
  | ok tid => exact (h L hL tid hc).symm ▸ Bool.false_ne_true
  | error t => exact Bool.false_ne_true

/-- A scratchpad instruction whose executing lanes pass their checks, send one access each and go on. -/
theorem scratchIssue {s : State} {w : Wave} {ff : FormF} {r : BitVec 4} {off : Iss → Nat → Nat} {n d c : Nat} (acc : Iss → Nat → Nat → Nat → Acc)
    (hi : Issuing s w) (hr : Ready s w ff) (hd : ∀ L ∈ executing s w ff, d + c ≤ (w.lane L).regs.length)
    (hpass : ∀ L ∈ executing s w ff, s.spPasses (issueOf s w ff) L r.toNat (off (issueOf s w ff) L) n ∧
      s.ownList (issueOf s w ff) L (s.spTeam (issueOf s w ff) L r.toNat (off (issueOf s w ff) L) n) (off (issueOf s w ff) L) n = false) :
    let x := issueOf s w ff
    let t := s.issue ff (waitList r off n) (spBody r off n (fun i L tid o s => s.send i L (acc i L tid o) (d, c)))
    ∃ w', Issued s t w w' ff ∧ t.lessAccs = s.lessAccs ∧ w'.less = w.less ∧ t.fresh = s.fresh + x.E.length ∧
      (∃ wait, t.accs = s.accs ++ accsOf s x (fun L => { acc x L (s.spTeam x L r.toNat (off x L) n) (off x L) with extra := wait })) ∧
      ∀ L ∈ x.E, Emptied (w.lane L) (w'.lane L) d c := by
  intro x t
  let a (L : Nat) : Acc := acc x L (s.spTeam x L r.toNat (off x L) n) (off x L)
  obtain ⟨more, s2, hbody, hless, hw, hpkg, hf, ha⟩ := spBody_sends (go := fun i L tid o s => s.send i L (acc i L tid o) (d, c)) a (d, c) hi
    (fun L hL => (hpass L hL).1) fun _ _ => rfl
  have hlist : waitList r off n s x = none := waitList_none fun L hL tid hc => by
    have hown := (hpass L hL).2
    unfold State.spTeam at hown
    rw [show s.spCheck (issueOf s w ff) L r.toNat (off (issueOf s w ff) L) n = .ok tid from hc] at hown
    exact hown
  have hextra : (fun L (l : Lane) => l.sent { a L with extra := more } (d, c)) = fun L l => l.sent (a L) (d, c) := rfl
  obtain ⟨w', hiss, hnil, hsome, hwless, hfresh, haccs, hlanes⟩ := sendIssue (ff := ff) (busy := waitList r off n) (fun L => { a L with extra := more }) d c hi hr hd
    (fun _ => hlist) (fun _ => hbody) (fun _ => hw) (fun _ => ⟨hpkg, hf, ha⟩)
  refine ⟨w', hiss, ?_, hwless, hfresh, ⟨more, haccs⟩, hlanes⟩
  by_cases hE : executing s w ff = []
  · exact congrArg (fun u : State => { u with accs := [], fresh := 0 }) (hnil hE)
  · exact (congrArg (fun u : State => { u with accs := [], fresh := 0 }) (hsome hE)).trans hless

end Sys2Proof.Machine

/-!
PROOFS. Lanes that park on fault records, and memory instructions whose lanes are each checked on their own (R93, R97, R98, R104, R114).
-/

namespace Sys2Proof.Machine

/-! ## Parking on a record (R20, R104) -/

theorem faultTeam_teamOf (s : State) (tid : Nat) (w : Wave) : ((s.faultTeam tid).teamOf w).ctx = (s.teamOf w).ctx := by
  unfold State.faultTeam
  split
  · rfl
  · split
    · rfl
    · show ((((s.updTeam tid (fun t => { t with faulted := true })).team? w.tid)).getD _).ctx = _
      unfold State.teamOf
      by_cases h : w.tid = tid
      · rw [h, team_updTeam s tid (fun t => { t with faulted := true }) fun _ => rfl]
        cases s.team? tid <;> rfl
      · rw [team_updTeam_other s (fun t => { t with faulted := true }) (fun _ => rfl) h]

theorem checkStuck_teamOf (s : State) (tid : Nat) (w : Wave) : ((s.checkStuck tid).teamOf w).ctx = (s.teamOf w).ctx := by
  rcases checkStuck_cases s tid with h | h <;> rw [h]
  exact faultTeam_teamOf s tid w

theorem checkStuck_faults (s : State) (tid : Nat) : (s.checkStuck tid).faults = s.faults := by
  obtain ⟨_, _, _, _, _, _, _, hf, _⟩ := (checkStuck_ran s tid).parts
  exact hf

/-- What a lane becomes that parks on a record. -/
def Lane.onRecord (l : Lane) (v : Wave) (dst : Nat × Nat) (seq : BitVec 32) : Lane :=
  { l.faultMark v dst with st := .faulted seq, dumped := (l.faultMark v dst).stillDumped }

/-- A record names these lanes of a wave, with this cause, kind, page and place. -/
structure Names (f : FaultRec) (ctx cause kind page : Nat) (pc : Word) (uid : Nat) (ls : List Nat) : Prop where
  ctx : f.ctx = ctx
  cause : f.cause = cause
  kind : f.kind = kind
  page : f.va.toNat / 65536 = page
  pc : f.pc = pc
  who : f.who = .lanes uid (lanesMask ls)

/-- Lanes that fault on one page for one cause. -/
def State.parkGroup (s : State) (i : Iss) (kind : Nat) (dst : Nat × Nat) (g : (Nat × Nat) × List (Nat × Nat)) : State :=
  let ls := g.2.map (fun x => x.1)
  let va := (g.2.headD (0, 0)).2
  let s1 := s.updWave i.uid (fun w => { (ls.foldl (fun w L => w.updLane L (fun l => l.faultMark w dst)) w) with
    walkFaults := w.walkFaults.filter (fun x => x.1 != va / 65536) })
  s1.parkFault i.uid ls g.1.1 kind va (i.l (ls.headD 0)).pc

theorem parkFaults_eq (s : State) (i : Iss) (kind : Nat) (dst : Nat × Nat) (fs : List (Nat × Nat × Nat)) :
    s.parkFaults i kind dst fs = (faultGroups fs).foldl (fun s g => s.parkGroup i kind dst g) s := rfl

/-- Lanes of a wave marked for a fault, each with what the wave is then. -/
theorem lane_foldl_faultMark (dst : Nat × Nat) : ∀ (ls : List Nat) (w : Wave), ls.Nodup →
    let w' := ls.foldl (fun w L => w.updLane L (fun l => l.faultMark w dst)) w
    w'.lanes.length = w.lanes.length ∧ { w' with lanes := [] } = { w with lanes := [] } ∧ (∀ L ∉ ls, w'.lane L = w.lane L) ∧
      ∀ L ∈ ls, L < w.lanes.length → ∃ v, w'.lane L = (w.lane L).faultMark v dst
  | [], _, _ => ⟨rfl, rfl, fun _ _ => rfl, fun _ h => by cases h⟩
  | K :: ls, w, hn => by
    obtain ⟨hK, hls⟩ := List.nodup_cons.mp hn
    obtain ⟨hlen, hrest, hout, hin⟩ := lane_foldl_faultMark dst ls (w.updLane K (fun l => l.faultMark w dst)) hls
    refine ⟨hlen.trans (length_updLane _ _ _), hrest, fun L hL => ?_, fun L hL hlt => ?_⟩
    · obtain ⟨hne, hL⟩ := not_or.mp (List.mem_cons.not.mp hL)
      refine (hout L hL).trans ?_
      rw [lane_updLane, if_neg fun e => hne e.1]
    · rcases List.mem_cons.mp hL with rfl | hmem
      · refine ⟨w, (hout L hK).trans ?_⟩
        rw [lane_updLane, if_pos ⟨rfl, hlt⟩]
      · obtain ⟨v, hv⟩ := hin L hmem (by rw [length_updLane]; exact hlt)
        refine ⟨v, hv.trans ?_⟩
        rw [lane_updLane, if_neg fun (e : L = K ∧ K < w.lanes.length) => hK (e.1 ▸ hmem)]

/-- What one group leaves: its lanes stand on a new record, and every other lane is as before. -/
theorem parkGroup_spec {s : State} {i : Iss} {kind : Nat} {dst : Nat × Nat} {g : (Nat × Nat) × List (Nat × Nat)} {v : Wave} {ctx page : Nat}
    (hv : s.wave? i.uid = some v) (hctx : (s.teamOf v).ctx = ctx) (hn : (g.2.map Prod.fst).Nodup) (hpage : ((g.2.headD (0, 0)).2 % 2 ^ 72) / 65536 = page) :
    let t := s.parkGroup i kind dst g
    ∃ v' f, t.wave? i.uid = some v' ∧ v'.lanes.length = v.lanes.length ∧ (t.teamOf v').ctx = ctx ∧ t.faults = s.faults ++ [f] ∧
      Names f ctx g.1.1 kind page (i.l ((g.2.map Prod.fst).headD 0)).pc i.uid (g.2.map Prod.fst) ∧
      (∀ L ∉ g.2.map Prod.fst, v'.lane L = v.lane L) ∧
      ∀ L ∈ g.2.map Prod.fst, L < v.lanes.length → ∃ u, v'.lane L = (v.lane L).onRecord u dst f.seq := by
  intro t
  let ls := g.2.map Prod.fst
  let va := (g.2.headD (0, 0)).2
  let F (w : Wave) : Wave := { (ls.foldl (fun w L => w.updLane L (fun l => l.faultMark w dst)) w) with walkFaults := w.walkFaults.filter (fun x => x.1 != va / 65536) }
  obtain ⟨hlen, hrest, hout, hin⟩ := lane_foldl_faultMark dst ls v hn
  have huid : ∀ w, (F w).uid = w.uid := fun w => (congrArg Wave.uid (lane_foldl_faultMark dst ls w hn).2.1 :)
  have hs1 : (s.updWave i.uid F).wave? i.uid = some (F v) := (wave_updWave s i.uid F huid).trans (by rw [hv]; rfl)
  have hteam : (s.updWave i.uid F).teamOf (F v) = s.teamOf v := by
    have htid : (F v).tid = v.tid := (congrArg Wave.tid hrest :)
    unfold State.teamOf
    rw [htid]
    rfl
  obtain ⟨hseq, hposted⟩ := raiseFault_posted (s.updWave i.uid F) ((s.updWave i.uid F).teamOf (F v)).ctx g.1.1 kind va ((s.updWave i.uid F).teamOf (F v)).die
    ((s.updWave i.uid F).teamOf (F v)).core (F v).slot (lanesMask ls) (i.l (ls.headD 0)).pc 0 (.lanes i.uid (lanesMask ls))
  have hfault : t = s.parkGroup i kind dst g := rfl
  have hunfold : s.parkGroup i kind dst g = (s.updWave i.uid F).parkFault i.uid ls g.1.1 kind va (i.l (ls.headD 0)).pc := rfl
  rw [hunfold, State.parkFault, hs1] at hfault
  dsimp only at hfault
  generalize (s.updWave i.uid F).raiseFault ((s.updWave i.uid F).teamOf (F v)).ctx g.1.1 kind va ((s.updWave i.uid F).teamOf (F v)).die
    ((s.updWave i.uid F).teamOf (F v)).core (F v).slot (lanesMask ls) (i.l (ls.headD 0)).pc 0 (.lanes i.uid (lanesMask ls)) = r at hseq hposted hfault
  obtain ⟨seq, s2⟩ := r
  dsimp only at hseq hposted hfault
  let G (w : Wave) : Wave := ls.foldl (fun w L => w.updLane L (fun l => { l with st := .faulted seq, dumped := l.stillDumped })) w
  have hGuid : ∀ w, (G w).uid = w.uid := fun w => by
    obtain ⟨xs, e⟩ := foldUpd_eq (fun L => L) (fun _ l => { l with st := .faulted seq, dumped := l.stillDumped }) ls w
    exact (congrArg Wave.uid e :)
  obtain ⟨_, _, _, _, _, hteams, hwaves, _, _, _, _, hfaults⟩ := hposted.parts
  have hs2 : s2.wave? i.uid = some (F v) := by
    unfold State.wave?
    rw [hwaves]
    exact hs1
  have hs3 : (s2.updWave i.uid G).wave? i.uid = some (G (F v)) := (wave_updWave s2 i.uid G hGuid).trans (by rw [hs2]; rfl)
  have hfound : t.wave? i.uid = some (G (F v)) := by
    rw [hfault]
    unfold State.wave?
    rw [checkStuck_waves]
    exact hs3
  have hlenG : (G (F v)).lanes.length = v.lanes.length := (length_foldUpd (fun L => L) (fun _ l => { l with st := .faulted seq, dumped := l.stillDumped }) ls _).trans hlen
  have hctx' : (t.teamOf (G (F v))).ctx = ctx := by
    rw [hfault, checkStuck_teamOf]
    have htid : (G (F v)).tid = v.tid := by
      obtain ⟨xs, e⟩ := foldUpd_eq (fun L => L) (fun _ l => { l with st := .faulted seq, dumped := l.stillDumped }) ls (F v)
      exact (congrArg Wave.tid e :).trans (congrArg Wave.tid hrest :)
    rw [← hctx]
    unfold State.teamOf State.team?
    rw [htid]
    show (((s2.teams.find? _).getD _) : Team).ctx = _
    rw [hteams]
    rfl
  let f : FaultRec := { ctx := ((s.updWave i.uid F).teamOf (F v)).ctx, seq, cause := g.1.1, kind, va := BitVec.ofNat 72 va,
                        die := ((s.updWave i.uid F).teamOf (F v)).die, pc := (i.l (ls.headD 0)).pc, who := .lanes i.uid (lanesMask ls), born := s.cycle }
  refine ⟨G (F v), f, hfound, hlenG, hctx', ?faults, ⟨(congrArg Team.ctx hteam).trans hctx, rfl, rfl, ?page, rfl, rfl⟩, ?out, ?inn⟩
  case faults =>
    rw [hfault, checkStuck_faults]
    refine (show _ = s2.faults from rfl).trans (hfaults.trans ?_)
    rw [← hseq]
    rfl
  case page =>
    show (BitVec.ofNat 72 va).toNat / 65536 = page
    rw [BitVec.toNat_ofNat]
    exact hpage
  case out =>
    intro L hL
    exact (lane_foldUpd_out (fun L => L) (fun _ l => { l with st := .faulted seq, dumped := l.stillDumped }) L ls _ (by rw [List.map_id']; exact hL)).trans (hout L hL)
  case inn =>
    intro L hL hlt
    obtain ⟨u, hu⟩ := hin L hL hlt
    refine ⟨u, (lane_foldUpd_in (fun L => L) (fun _ l => { l with st := .faulted seq, dumped := l.stillDumped }) ls _ hL (by rw [List.map_id']; exact hn) (hlen ▸ hlt)).trans ?_⟩
    rw [show (F v).lane L = _ from hu]
    rfl

/-- What all the groups leave, when no lane is in two of them: each lane stands on a record of its group, the records before are still there. -/
theorem foldl_parkGroup {i : Iss} {kind : Nat} {dst : Nat × Nat} {ctx : Nat} : ∀ (gs : List ((Nat × Nat) × List (Nat × Nat))) (s : State) (v : Wave),
    s.wave? i.uid = some v → (s.teamOf v).ctx = ctx → (gs.flatMap (fun g => g.2.map Prod.fst)).Nodup →
    let t := gs.foldl (fun s g => s.parkGroup i kind dst g) s
    ∃ v', t.wave? i.uid = some v' ∧ v'.lanes.length = v.lanes.length ∧ (∀ f ∈ s.faults, f ∈ t.faults) ∧
      (∀ L ∉ gs.flatMap (fun g => g.2.map Prod.fst), v'.lane L = v.lane L) ∧
      ∀ g ∈ gs, ∀ L ∈ g.2.map Prod.fst, L < v.lanes.length → ∃ f ∈ t.faults,
        Names f ctx g.1.1 kind ((g.2.headD (0, 0)).2 % 2 ^ 72 / 65536) (i.l ((g.2.map Prod.fst).headD 0)).pc i.uid (g.2.map Prod.fst) ∧
        ∃ u, v'.lane L = (v.lane L).onRecord u dst f.seq
  | [], s, v, hv, _, _ => ⟨v, hv, rfl, fun _ h => h, fun _ _ => rfl, fun _ h => by cases h⟩
  | g :: gs, s, v, hv, hctx, hn => by
    rw [List.flatMap_cons, List.nodup_append] at hn
    obtain ⟨hg, hgs, hdisj⟩ := hn
    obtain ⟨v1, f, hv1, hlen1, hctx1, hf1, hnames, hout1, hin1⟩ := parkGroup_spec (kind := kind) (dst := dst) hv hctx hg rfl
    obtain ⟨v', hv', hlen, hkeep, hout, hin⟩ := foldl_parkGroup gs (s.parkGroup i kind dst g) v1 hv1 hctx1 hgs
    have hin_f : f ∈ (s.parkGroup i kind dst g).faults := by rw [hf1]; exact List.mem_append_right _ (List.mem_singleton.mpr rfl)
    refine ⟨v', hv', hlen.trans hlen1, fun x hx => hkeep x (by rw [hf1]; exact List.mem_append_left _ hx), fun L hL => ?_, fun g' hg' L hL hlt => ?_⟩
    · rw [List.flatMap_cons, List.mem_append, not_or] at hL
      exact (hout L hL.2).trans (hout1 L hL.1)
    · rcases List.mem_cons.mp hg' with rfl | hmem
      · obtain ⟨u, hu⟩ := hin1 L hL hlt
        refine ⟨f, hkeep f hin_f, hnames, u, (hout L fun h => hdisj L hL L h rfl).trans hu⟩
      · obtain ⟨f', hf', hnames', u, hu⟩ := hin g' hmem L hL (hlen1 ▸ hlt)
        have hnot : L ∉ g.2.map Prod.fst := fun h => hdisj L h L (List.mem_flatMap.mpr ⟨g', hmem, hL⟩) rfl
        exact ⟨f', hf', hnames', u, by rw [hu, hout1 L hnot]⟩

/-! ## Groups of lanes by cause and page (R104) -/

theorem mem_faultGroups {fs : List (Nat × Nat × Nat)} {f : Nat × Nat × Nat} (h : f ∈ fs) :
    ∃ g ∈ faultGroups fs, g.1 = (f.2.2, f.2.1 / 65536) ∧ f.1 ∈ g.2.map Prod.fst := by
  refine ⟨_, List.mem_map.mpr ⟨(f.2.2, f.2.1 / 65536), List.mem_eraseDups.mpr (List.mem_map_of_mem h), rfl⟩, rfl, ?_⟩
  rw [List.map_map]
  exact List.mem_map.mpr ⟨f, List.mem_filter.mpr ⟨h, beq_self_eq_true _⟩, rfl⟩

theorem faultGroups_spec {fs : List (Nat × Nat × Nat)} {g : (Nat × Nat) × List (Nat × Nat)} (h : g ∈ faultGroups fs) :
    g.2 = (fs.filter (fun f => (f.2.2, f.2.1 / 65536) == g.1)).map (fun f => (f.1, f.2.1)) ∧ g.2 ≠ [] := by
  obtain ⟨k, hk, rfl⟩ := List.mem_map.mp h
  refine ⟨rfl, ?_⟩
  obtain ⟨f, hf, rfl⟩ := List.mem_map.mp (List.mem_eraseDups.mp hk)
  intro hnil
  have := List.map_eq_nil_iff.mp hnil
  exact List.filter_eq_nil_iff.mp this f hf (beq_self_eq_true _)

/-- Every lane of a group faults for its cause on its page. -/
theorem faultGroups_page {fs : List (Nat × Nat × Nat)} {g : (Nat × Nat) × List (Nat × Nat)} (h : g ∈ faultGroups fs) :
    ∀ p ∈ g.2, p.2 / 65536 = g.1.2 := by
  intro p hp
  rw [(faultGroups_spec h).1] at hp
  obtain ⟨f, hf, rfl⟩ := List.mem_map.mp hp
  exact (Prod.mk.inj (beq_iff_eq.mp (List.mem_filter.mp hf).2) ).2

theorem nodup_eraseDups {α : Type} [BEq α] [LawfulBEq α] (xs : List α) : xs.eraseDups.Nodup := by
  induction h : xs.length using Nat.strong_induction_on generalizing xs with
  | _ n ih =>
    cases xs with
    | nil => simp
    | cons a as =>
      rw [List.eraseDups_cons, List.nodup_cons, List.mem_eraseDups]
      refine ⟨fun hm => ?_, ih _ ?_ _ rfl⟩
      · have := (List.mem_filter.mp hm).2
        simp at this
      · rw [← h, List.length_cons]
        exact Nat.lt_succ_of_le (List.length_filter_le _ _)

/-- No lane is in two groups, when each faults once. -/
theorem faultGroups_nodup {fs : List (Nat × Nat × Nat)} (h : (fs.map Prod.fst).Nodup) : ((faultGroups fs).flatMap (fun g => g.2.map Prod.fst)).Nodup := by
  unfold faultGroups
  rw [List.flatMap_map, List.nodup_flatMap]
  refine ⟨fun k _ => ?_, (nodup_eraseDups _).imp fun {k k'} hne => ?_⟩
  · rw [List.map_map]
    exact h.sublist (List.filter_sublist.map _)
  · intro L h1 h2
    simp only [List.map_map] at h1 h2
    obtain ⟨f, hf, rfl⟩ := List.mem_map.mp h1
    obtain ⟨f', hf', he⟩ := List.mem_map.mp h2
    have hsame : f' = f := List.inj_on_of_nodup_map h (List.mem_of_mem_filter hf') (List.mem_of_mem_filter hf) he
    have e1 := beq_iff_eq.mp (List.mem_filter.mp hf).2
    have e2 := beq_iff_eq.mp (List.mem_filter.mp hf').2
    rw [hsame] at e2
    exact hne (e1.symm.trans e2)

/-! ## What the checks of a lane come to -/

/-- The trap of a lane whose access does not pass. -/
def Xl.trap (l : Lane) (va align : Nat) : Xl → Option Trap
  | .misaligned => some ((l.trapHere tkMISALIGN (lo32 align)).withVa va)
  | .access d => some ((l.trapHere tkACCESS d).withVa va)
  | _ => none
/-- The cause of a lane's fault. -/
def Xl.cause : Xl → Option Nat
  | .fault c => some c
  | _ => none

/-- What becomes of the state for one lane of a memory instruction, by what its checks answer. -/
def State.stopStep (go : Iss → Nat → Nat → Pte → State → State) (i : Iss) (k : AccKind) (va L : Nat) (x : Xl) (s : State) : State :=
  match x with
  | .ok pa e => go i L pa e (s.touched i k va)
  | .access d => if d = 1 then s.machineCheck i.c 0xFFFF 0 1 s.downPort else s
  | _ => s

/-- The checks of one access (R320). -/
def State.xlOf (s : State) (i : Iss) (k : AccKind) (align n : Nat) (va : Nat) : Xl := if va % align = 0 then s.laneXl i va n k else .misaligned

theorem memBody_eq (k : AccKind) (align n : Nat) (va : Iss → Nat → Nat) (dst : Nat × Nat) (go : Iss → Nat → Nat → Pte → State → State) (i : Iss) (s : State) :
    memBody k align n va dst go i s =
      let xl (L : Nat) : Xl := s.xlOf i k align n (va i L)
      ((i.E.foldl (fun u L => u.stopStep go i k (va i L) L (xl L)) s).parkFaults i k.code dst (i.E.filterMap (fun L => (xl L).cause.map (fun c => (L, va i L, c)))),
        i.E.filterMap (fun L => ((xl L).trap (i.l L) (va i L) align).map (fun t => (L, t)))) := by
  unfold memBody State.xlOf
  simp only [List.foldl_map, List.filterMap_map]
  refine Prod.ext (congrArg₂ (fun f l => State.parkFaults (List.foldl f s i.E) i k.code dst l) (funext fun u => funext fun L => ?_)
    (List.filterMap_congr fun L _ => ?_)) (List.filterMap_congr fun L _ => ?_)
  · generalize (if va i L % align = 0 then s.laneXl i (va i L) n k else .misaligned) = x
    cases x <;> rfl
  · simp only [Function.comp]
    generalize (if va i L % align = 0 then s.laneXl i (va i L) n k else .misaligned) = x
    cases x <;> rfl
  · simp only [Function.comp]
    generalize (if va i L % align = 0 then s.laneXl i (va i L) n k else .misaligned) = x
    cases x <;> rfl

/-! ## Marking a lane's destinations for a fault (R104) -/

theorem reg_markFault : ∀ (k n : Nat) (l : Lane) (r : Nat), n + k ≤ l.regs.length →
    (l.markFault n k).reg r = if n ≤ r ∧ r < n + k then { l.reg r with fault := true } else l.reg r
  | 0, n, l, r, _ => by rw [Lane.markFault, if_neg (by omega)]
  | k + 1, n, l, r, h => by
    let l1 : Lane := { l with regs := listUpd l.regs n (fun r => { r with fault := true }) }
    have hlen : l1.regs.length = l.regs.length := length_listUpd _ _ _
    have h1 : l1.reg r = if r = n ∧ n < l.regs.length then { l.reg r with fault := true } else l.reg r := getD_listUpd _ _ l.regs n r
    have ih := reg_markFault k (n + 1) l1 r (by rw [hlen]; omega)
    refine (show _ = (l1.markFault (n + 1) k).reg r from rfl).trans ?_
    by_cases hr : r = n
    · rw [if_pos ⟨hr, by omega⟩] at h1
      rw [ih, if_neg (by omega), if_pos (by omega), h1]
    · rw [if_neg fun e => hr e.1] at h1
      rw [ih, h1]
      by_cases h2 : n + 1 ≤ r ∧ r < n + 1 + k
      · rw [if_pos h2, if_pos (by omega)]
      · rw [if_neg h2, if_neg (by omega)]

theorem markFault_eq : ∀ (k n : Nat) (l : Lane), ∃ rs, l.markFault n k = { l with regs := rs }
  | 0, _, l => ⟨l.regs, rfl⟩
  | k + 1, n, l => by
    obtain ⟨rs, h⟩ := markFault_eq k (n + 1) { l with regs := listUpd l.regs n (fun r => { r with fault := true }) }
    exact ⟨rs, h⟩

theorem mark_length (pc : Word) : ∀ (k n : Nat) (l : Lane), (l.mark pc n k).regs.length = l.regs.length
  | 0, _, _ => rfl
  | k + 1, n, _ => (mark_length pc k (n + 1) _).trans (length_listUpd _ _ _)

/-- A lane marked for a fault stands where it was, its destinations empty and marked. -/
theorem faultMark_spec (l : Lane) (v : Wave) {d n : Nat} (hd : d + n ≤ l.regs.length) :
    (∃ rs rp, l.faultMark v (d, n) = { l with regs := rs, replay := rp }) ∧
      ∀ r, (l.faultMark v (d, n)).reg r = if d ≤ r ∧ r < d + n then { l.reg r with full := false, fault := true, tag := l.pc } else l.reg r := by
  have hmark : l.faultMark v (d, n) = ((l.keep v).mark l.pc d n).markFault d n := rfl
  rw [hmark]
  obtain ⟨rs, e⟩ := mark_eq l.pc n d (l.keep v)
  obtain ⟨rs', e'⟩ := markFault_eq n d ((l.keep v).mark l.pc d n)
  refine ⟨⟨rs', (l.keep v).replay, ?_⟩, fun r => ?_⟩
  · rw [e', e]
    rfl
  · rw [reg_markFault n d _ r (by rw [mark_length]; exact hd), reg_mark (l.keep v) l.pc d n r hd]
    by_cases h : d ≤ r ∧ r < d + n
    · rw [if_pos h, if_pos h, if_pos h]
      rfl
    · rw [if_neg h, if_neg h, if_neg h]
      rfl

/-! ## Lanes that each pass or stop -/

theorem updLane_id (v : Wave) (L : Nat) : v.updLane L (fun l => l) = v := by
  have hl : ∀ (xs : List Lane) (n : Nat), listUpd xs n (fun l => l) = xs := fun xs => by
    induction xs with
    | nil => exact fun _ => rfl
    | cons x xs ih =>
      intro n
      cases n with
      | zero => rfl
      | succ n => exact congrArg (x :: ·) (ih n)
  exact congrArg (fun ls => { v with lanes := ls }) (hl v.lanes L)

theorem send_waves (s : State) (i : Iss) (L : Nat) (a : Acc) (dst : Nat × Nat) :
    (s.send i L a dst).waves = (s.updWave i.uid (fun v => v.updLane L (fun l => l.sent a dst))).waves ∧ (s.send i L a dst).teams = s.teams := by
  unfold State.send State.addAcc State.addAccAt State.goOn
  dsimp only
  by_cases h : counts a.op a.log a.sp.isSome = true
  · have hsent : (fun l : Lane => l.sent a dst) = fun l => (({ l with opCount := l.opCount + 1 } : Lane).mark l.pc dst.1 dst.2).adv := by
      funext l
      unfold Lane.sent
      rw [if_pos h]
    rw [if_pos h, hsent, stateUpdLane_updLane]
    exact ⟨rfl, rfl⟩
  · have hsent : (fun l : Lane => l.sent a dst) = fun l => (l.mark l.pc dst.1 dst.2).adv := by
      funext l
      unfold Lane.sent
      rw [if_neg h]
    rw [if_neg h, hsent]
    exact ⟨rfl, rfl⟩

/-- What a lane becomes whose checks answer x, before it may park. -/
def Lane.after (l : Lane) (acc : Nat → Pte → Acc) (dst : Nat × Nat) : Xl → Lane
  | .ok pa e => l.sent (acc pa e) dst
  | _ => l

theorem stopStep_waves (acc : Iss → Nat → Nat → Pte → Acc) (dst : Nat × Nat) (i : Iss) (k : AccKind) (va L : Nat) (x : Xl) (s : State) :
    (s.stopStep (fun i L pa e s => s.send i L (acc i L pa e) dst) i k va L x).waves = (s.updWave i.uid (fun v => v.updLane L (fun l => l.after (acc i L) dst x))).waves ∧
      (s.stopStep (fun i L pa e s => s.send i L (acc i L pa e) dst) i k va L x).teams = s.teams := by
  have hid : ∀ u : State, u.waves = s.waves → u.waves = (s.updWave i.uid (fun v => v.updLane L (fun l => l))).waves := fun u hu => by
    rw [hu]
    simp [State.updWave, updLane_id]
  cases x with
  | ok pa e =>
    obtain ⟨h1, h2⟩ := send_waves (s.touched i k va) i L (acc i L pa e) dst
    obtain ⟨h3, _, _, _, h4⟩ := touched_keeps s i k va
    exact ⟨h1.trans (waves_updWave_congr h3 _ _), h2.trans (congrArg State.teams h4 :)⟩
  | misaligned => exact ⟨hid s rfl, rfl⟩
  | fault c => exact ⟨hid s rfl, rfl⟩
  | access d =>
    have hparts : (s.machineCheck i.c 0xFFFF 0 1 s.downPort).waves = s.waves ∧ (s.machineCheck i.c 0xFFFF 0 1 s.downPort).teams = s.teams := by
      obtain ⟨_, _, _, _, _, h1, h2, _⟩ := (machineCheck_posted s i.c 0xFFFF 0 1 s.downPort).parts
      exact ⟨h2, h1⟩
    unfold State.stopStep
    dsimp only
    split
    · exact ⟨hid _ hparts.1, hparts.2⟩
    · exact ⟨hid s rfl, rfl⟩

theorem foldl_stopStep (acc : Iss → Nat → Nat → Pte → Acc) (dst : Nat × Nat) (i : Iss) (k : AccKind) (va : Nat → Nat) (xl : Nat → Xl) : ∀ (Ls : List Nat) (s : State),
    let t := Ls.foldl (fun u L => u.stopStep (fun i L pa e s => s.send i L (acc i L pa e) dst) i k (va L) L (xl L)) s
    t.waves = (s.updWave i.uid (fun v => Ls.foldl (fun v L => v.updLane L (fun l => l.after (acc i L) dst (xl L))) v)).waves ∧ t.teams = s.teams
  | [], s => ⟨by simp [State.updWave], rfl⟩
  | L :: Ls, s => by
    obtain ⟨h1, h2⟩ := stopStep_waves acc dst i k (va L) L (xl L) s
    obtain ⟨h3, h4⟩ := foldl_stopStep acc dst i k va xl Ls (s.stopStep (fun i L pa e s => s.send i L (acc i L pa e) dst) i k (va L) L (xl L))
    have hboth := congrArg State.waves (updWave_updWave s i.uid (fun v => v.updLane L (fun l => l.after (acc i L) dst (xl L)))
      (fun v => Ls.foldl (fun v L => v.updLane L (fun l => l.after (acc i L) dst (xl L))) v) fun _ => rfl)
    exact ⟨h3.trans ((waves_updWave_congr h1 _ _).trans hboth), h4.trans h2⟩

/-- The lanes of the minimum-PC set stand at one place. -/
theorem minSet_pc {w : Wave} {K L : Nat} (hK : K ∈ w.minSet) (hL : L ∈ w.minSet) : (w.lane K).pc = (w.lane L).pc := by
  have h1 := beq_iff_eq.mp (List.mem_filter.mp hK).2
  have h2 := beq_iff_eq.mp (List.mem_filter.mp hL).2
  exact BitVec.eq_of_toNat_eq (h1.trans h2.symm)

theorem lane_after_foldl {s : State} {w : Wave} {ff : FormF} (g : Nat → Lane → Lane) (L : Nat) :
    ((executing s w ff).foldl (fun v L => v.updLane L (g L)) (w.skipped s ff)).lane L =
      if L ∈ executing s w ff then g L (w.lane L) else (w.skipped s ff).lane L := by
  by_cases hL : L ∈ executing s w ff
  · rw [if_pos hL]
    refine (lane_foldUpd_in (fun L => L) g _ _ hL (by rw [List.map_id']; exact executing_nodup s w ff)
      (by rw [length_skipped]; exact mem_minSet_lt (mem_executing.mp hL).1)).trans ?_
    rw [lane_skipped_out (skipping_not_executing hL)]
  · rw [if_neg hL]
    exact lane_foldUpd_out (fun L => L) g L _ _ (by rw [List.map_id']; exact hL)

theorem after_keeps (l : Lane) (acc : Nat → Pte → Acc) (dst : Nat × Nat) (x : Xl) (h : l.stepping = false ∧ l.stepped = false) :
    (l.after acc dst x).stepped = false ∧ (l.after acc dst x).inHandler = l.inHandler := by
  cases x with
  | ok pa e =>
    obtain ⟨_, _, _, h1, h2⟩ := sent_goes l (acc pa e) dst
    exact ⟨h1.trans h.1, h2⟩
  | misaligned => exact ⟨h.2, rfl⟩
  | fault c => exact ⟨h.2, rfl⟩
  | access d => exact ⟨h.2, rfl⟩

/-- What becomes of the wave of a memory instruction whose executing lanes are each checked on their own. -/
theorem memBody_lanes {s : State} {w : Wave} {ff : FormF} {k : AccKind} {va : Iss → Nat → Nat} {n : Nat} {dst : Nat × Nat} (acc : Iss → Nat → Nat → Pte → Acc)
    (hi : Issuing s w) (hva : ∀ i L, va i L < 2 ^ 72) :
    let x := issueOf s w ff
    let xl (L : Nat) : Xl := s.xlOf x k n n (va x L)
    let r := memBody k n n va dst (fun i L pa e s => s.send i L (acc i L pa e) dst) x (s.skipped w ff)
    ∃ y, r.1.wave? w.uid = some y ∧ y.lanes.length = w.lanes.length ∧
      r.2 = x.E.filterMap (fun L => ((xl L).trap (x.l L) (va x L) n).map (fun t => (L, t))) ∧
      (∀ L ∉ x.E, y.lane L = (w.skipped s ff).lane L) ∧
      (∀ L ∈ x.E, (∀ c, xl L ≠ .fault c) → y.lane L = (w.lane L).after (acc x L) dst (xl L)) ∧
      ∀ L ∈ x.E, ∀ c, xl L = .fault c → ∃ f ∈ r.1.faults, ∃ ls, L ∈ ls ∧ Names f x.c c k.code (va x L / 65536) (w.lane L).pc x.uid ls ∧
        ∃ u, y.lane L = (w.lane L).onRecord u dst f.seq := by
  intro x xl r
  let fs : List (Nat × Nat × Nat) := x.E.filterMap (fun L => (xl L).cause.map (fun c => (L, va x L, c)))
  let s1 := x.E.foldl (fun u L => u.stopStep (fun i L pa e s => s.send i L (acc i L pa e) dst) x k (va x L) L (xl L)) (s.skipped w ff)
  have hbody : r = (s1.parkFaults x k.code dst fs, x.E.filterMap (fun L => ((xl L).trap (x.l L) (va x L) n).map (fun t => (L, t)))) := memBody_eq ..
  obtain ⟨hwaves, hteams⟩ := foldl_stopStep acc dst x k (va x) xl x.E (s.skipped w ff)
  let y1 := x.E.foldl (fun v L => v.updLane L (fun l => l.after (acc x L) dst (xl L))) (w.skipped s ff)
  have hy1 : s1.wave? w.uid = some y1 := by
    unfold State.wave?
    rw [hwaves]
    refine (wave_updWave _ _ (fun v => x.E.foldl (fun v L => v.updLane L (fun l => l.after (acc x L) dst (xl L))) v) fun v => ?_).trans
      (by rw [wave_skipped ff hi.found]; rfl)
    obtain ⟨ls, e⟩ := foldUpd_eq (fun L => L) (fun L l => l.after (acc x L) dst (xl L)) x.E v
    exact (congrArg Wave.uid e :)
  have hlen1 : y1.lanes.length = w.lanes.length := (length_foldUpd (fun L => L) (fun L l => l.after (acc x L) dst (xl L)) x.E _).trans (length_skipped s w ff)
  have hlane1 : ∀ L, y1.lane L = if L ∈ x.E then (w.lane L).after (acc x L) dst (xl L) else (w.skipped s ff).lane L := lane_after_foldl _
  have hctx : (s1.teamOf y1).ctx = x.c := by
    have htid : y1.tid = w.tid := by
      obtain ⟨ls, e⟩ := foldUpd_eq (fun L => L) (fun L l => l.after (acc x L) dst (xl L)) x.E (w.skipped s ff)
      exact (congrArg Wave.tid e :).trans (congrArg Wave.tid (less_skipped s w ff) :)
    unfold State.teamOf State.team?
    rw [hteams, htid]
    rfl
  have hfs : ∀ f ∈ fs, f.1 ∈ x.E ∧ xl f.1 = .fault f.2.2 ∧ f.2.1 = va x f.1 := fun f hf => by
    obtain ⟨L, hL, h⟩ := List.mem_filterMap.mp hf
    obtain ⟨c, hc, rfl⟩ := Option.map_eq_some_iff.mp h
    refine ⟨hL, ?_, rfl⟩
    cases hx : xl L with
    | fault c' => rw [hx] at hc; exact congrArg Xl.fault (Option.some.inj hc)
    | ok pa e => rw [hx] at hc; cases hc
    | misaligned => rw [hx] at hc; cases hc
    | access d => rw [hx] at hc; cases hc
  have hnd : (fs.map Prod.fst).Nodup := by
    have hmap : fs.map Prod.fst = x.E.filterMap (fun L => (xl L).cause.map (fun _ => L)) := by
      rw [List.map_filterMap]
      exact List.filterMap_congr fun L _ => by cases (xl L).cause <;> rfl
    rw [hmap]
    refine (executing_nodup s w ff).filterMap fun K L M hK hL => ?_
    obtain ⟨_, _, rfl⟩ := Option.map_eq_some_iff.mp hK
    obtain ⟨_, _, e⟩ := Option.map_eq_some_iff.mp hL
    exact e.symm
  obtain ⟨y, hy, hlen, _, hout, hin⟩ := foldl_parkGroup (i := x) (kind := k.code) (dst := dst) (faultGroups fs) s1 y1 hy1 hctx (faultGroups_nodup hnd)
  have hgroup : ∀ {g L}, g ∈ faultGroups fs → L ∈ g.2.map Prod.fst → L ∈ x.E ∧ xl L = .fault g.1.1 ∧ va x L / 65536 = g.1.2 := fun {g L} hg hL => by
    rw [(faultGroups_spec hg).1, List.map_map] at hL
    obtain ⟨f, hf, rfl⟩ := List.mem_map.mp hL
    obtain ⟨hmem, hkey⟩ := List.mem_filter.mp hf
    obtain ⟨h1, h2, h3⟩ := hfs f hmem
    have hkey := beq_iff_eq.mp hkey
    exact ⟨h1, by rw [← hkey]; exact h2, by rw [← hkey]; exact congrArg (· / 65536) h3.symm⟩
  refine ⟨y, by rw [hbody]; exact hy, hlen.trans hlen1, by rw [hbody], fun L hL => ?_, fun L hL hne => ?_, fun L hL c hc => ?_⟩
  · refine (hout L fun h => ?_).trans ((hlane1 L).trans (if_neg hL))
    obtain ⟨g, hg, hm⟩ := List.mem_flatMap.mp h
    exact hL (hgroup hg hm).1
  · refine (hout L fun h => ?_).trans ((hlane1 L).trans (if_pos hL))
    obtain ⟨g, hg, hm⟩ := List.mem_flatMap.mp h
    exact hne _ (hgroup hg hm).2.1
  · have hmem : (L, va x L, c) ∈ fs := List.mem_filterMap.mpr ⟨L, hL, by rw [hc]; rfl⟩
    obtain ⟨g, hg, hkey, hLg⟩ := mem_faultGroups hmem
    obtain ⟨f, hf, hnames, u, hu⟩ := hin g hg L hLg (by rw [hlen1]; exact mem_minSet_lt (mem_executing.mp hL).1)
    have hhead : (g.2.headD (0, 0)) ∈ g.2 := by
      have hne := (faultGroups_spec hg).2
      cases hg2 : g.2 with
      | nil => exact absurd hg2 hne
      | cons p ps => exact List.mem_cons_self
    have hheadL : (g.2.map Prod.fst).headD 0 = (g.2.headD (0, 0)).1 := by cases g.2 <;> rfl
    have hheadE := hgroup hg (List.mem_map_of_mem hhead)
    have hpage : (g.2.headD (0, 0)).2 % 2 ^ 72 / 65536 = va x L / 65536 := by
      have h1 : (g.2.headD (0, 0)).2 / 65536 = g.1.2 := faultGroups_page hg _ hhead
      have h2 : va x L / 65536 = g.1.2 := (hgroup hg hLg).2.2
      have hlt : (g.2.headD (0, 0)).2 < 2 ^ 72 := by
        have hp := hhead
        rw [(faultGroups_spec hg).1] at hp
        obtain ⟨f', hf', he⟩ := List.mem_map.mp hp
        rw [(faultGroups_spec hg).1, ← he]
        show f'.2.1 < _
        rw [(hfs f' (List.mem_of_mem_filter hf')).2.2]
        exact hva x f'.1
      rw [Nat.mod_eq_of_lt hlt, h1, h2]
    have hpc : (x.l ((g.2.map Prod.fst).headD 0)).pc = (w.lane L).pc := by
      rw [hheadL, issueOf_lane hheadE.1]
      exact minSet_pc (mem_executing.mp hheadE.1).1 (mem_executing.mp hL).1
    refine ⟨f, by rw [hbody]; exact hf, g.2.map Prod.fst, hLg, ⟨hnames.ctx, hnames.cause.trans ?_, hnames.kind, hnames.page.trans hpage, hnames.pc.trans hpc, hnames.who⟩, u, ?_⟩
    · exact (Prod.mk.inj hkey).1
    · rw [hu, hlane1, if_pos hL, hc]
      rfl

/-! ## What is seen of a lane that parks -/

/-- A trap names kind, detail, and the place and hints of a lane. -/
structure Trap.Of (t : Trap) (l : Lane) (kind : Nat) (info4 : Word) : Prop where
  kind : t.kind = kind
  info4 : t.info4 = info4
  place : t.pc = l.pc ∧ t.stop = l.pc ∧ t.keep = l.hints
  small : t.vaHi < 256

theorem trapParked_park {l l' : Lane} {t : Trap} {kind : Nat} {info4 : Word} (n : Nat) (h : t.Of l kind info4) (hk : kind < 256) (hl : l' = (l.park t n).noted) :
    TrapParked l l' kind info4 := by
  obtain ⟨hkind, hinfo, ⟨hpc, hstop, hkeep⟩, hsmall⟩ := h
  subst hl
  refine ⟨⟨rfl, ?_, hpc, hinfo⟩, ⟨hstop, hkeep⟩, ⟨rfl, rfl⟩⟩
  have hlt : t.kind < 256 := hkind ▸ hk
  show (BitVec.ofNat 32 (t.kind + 256 * t.vaHi)).toNat % 256 = kind
  rw [BitVec.toNat_ofNat]
  omega

theorem namesVa_park {l l' : Lane} {t : Trap} {va : Nat} (n : Nat) (hk : t.kind < 256) (hl : l' = (l.park (t.withVa va) n).noted) : NamesVa l' va := by
  subst hl
  refine ⟨?_, rfl, rfl⟩
  show (BitVec.ofNat 32 (t.kind + 256 * (va / 2 ^ 64 % 256))).toNat / 256 % 256 = _
  rw [BitVec.toNat_ofNat, Nat.mod_eq_of_lt (by omega)]
  omega

theorem namesOff_park {l l' : Lane} {t : Trap} {off : Nat} (n : Nat) (hl : l' = (l.park (t.withOff off) n).noted) : NamesOff l' off := by
  subst hl
  exact ⟨rfl, rfl⟩

/-- The trap that an executing lane raises where it stands. -/
theorem trapHere_of {s : State} {w : Wave} {ff : FormF} {L : Nat} (hL : L ∈ executing s w ff) (kind : Nat) (info4 : Word) :
    (((issueOf s w ff).l L).trapHere kind info4).Of (w.lane L) kind info4 := by
  rw [issueOf_lane hL]
  exact ⟨rfl, rfl, ⟨rfl, rfl, rfl⟩, Nat.zero_lt_succ _⟩

theorem Trap.Of.withOff {t : Trap} {l : Lane} {kind : Nat} {info4 : Word} (h : t.Of l kind info4) (off : Nat) : (t.withOff off).Of l kind info4 := by
  obtain ⟨h1, h2, h3, h4⟩ := h
  exact ⟨h1, h2, h3, h4⟩

/-- Access and scratchpad instructions of lanes outside the handler: a lane that sent its access has gone on. -/
theorem sent_noted {l l' : Lane} {a : Acc} {dst : Nat × Nat} (h : l' = (l.sent a dst).noted) (hr : l.st = .run) : l'.st = .run ∧ l'.pc = l.pc + 1 ∧ l'.hints = [] := by
  obtain ⟨h1, h2, h3, _, _⟩ := sent_goes l a dst
  subst h
  exact ⟨h1.trans hr, h2, h3⟩

/-- No two traps of one lane. -/
theorem filterMap_keys_nodup {α : Type} {Ls : List Nat} (f : Nat → Option α) (h : Ls.Nodup) :
    ((Ls.filterMap (fun L => (f L).map (fun t => (L, t)))).map Prod.fst).Nodup := by
  have hmap : (Ls.filterMap (fun L => (f L).map (fun t => (L, t)))).map Prod.fst = Ls.filterMap (fun L => (f L).map (fun _ => L)) := by
    rw [List.map_filterMap]
    exact List.filterMap_congr fun L _ => by cases f L <;> rfl
  rw [hmap]
  refine h.filterMap fun K L M hK hL => ?_
  obtain ⟨_, _, rfl⟩ := Option.map_eq_some_iff.mp hK
  obtain ⟨_, _, e⟩ := Option.map_eq_some_iff.mp hL
  exact e.symm

theorem onRecord_keeps (l : Lane) (v : Wave) (dst : Nat × Nat) (seq : BitVec 32) :
    (l.onRecord v dst seq).stepped = l.stepped ∧ (l.onRecord v dst seq).inHandler = l.inHandler ∧ (l.onRecord v dst seq).stands = false := by
  obtain ⟨rs, e⟩ := mark_eq l.pc dst.2 dst.1 (l.keep v)
  obtain ⟨rs', e'⟩ := markFault_eq dst.2 dst.1 ((l.keep v).mark l.pc dst.1 dst.2)
  have h : l.faultMark v dst = { l with regs := rs', replay := (l.keep v).replay } := by
    refine e'.trans ?_
    rw [e]
    rfl
  unfold Lane.onRecord
  rw [h]
  exact ⟨rfl, rfl, rfl⟩

/-- A lane that parked on a record named for it. -/
theorem faultParked_onRecord {t : State} {x : Iss} {L : Nat} {l l' : Lane} {f : FaultRec} {cause kind va d n : Nat} {ls : List Nat} (u : Wave)
    (hf : f ∈ t.faults) (hn : Names f x.c cause kind (va / 65536) l.pc x.uid ls) (hL : L ∈ ls) (h32 : L < 32) (hd : d + n ≤ l.regs.length)
    (hl : l' = (l.onRecord u (d, n) f.seq).noted) : FaultParked t x L l l' cause kind va d n := by
  obtain ⟨⟨rs, rp, e⟩, hreg⟩ := faultMark_spec l u hd
  have hregs : ∀ r, l'.reg r = (l.faultMark u (d, n)).reg r := fun r => by rw [hl]; rfl
  have hplace : l'.pc = l.pc ∧ l'.hints = l.hints := by
    rw [hl]
    exact ⟨(congrArg Lane.pc e :), (congrArg Lane.hints e :)⟩
  refine ⟨⟨f, hf, by rw [hl]; rfl, hn.ctx, hn.cause, hn.kind, hn.page, hn.pc, _, hn.who, ?_⟩, hplace, fun k hk => ?_, fun r hr => ?_⟩
  · rw [getLsbD_lanesMask L h32]
    exact decide_eq_true hL
  · rw [hregs, hreg, if_pos ⟨Nat.le_add_right _ _, Nat.add_lt_add_left hk _⟩]
    exact ⟨rfl, rfl⟩
  · rw [hregs, hreg, if_neg (by omega)]

/-- Records outlast what a step does after its body. -/
theorem faults_after {s2 u t : State} {w : Wave} {b : Bool} {tm : Team} {set : List Nat} {f : FaultRec} (hr : Ran s2 u) (ht : t = u.noteIssue w tm set b)
    (hf : f ∈ s2.faults) : f ∈ t.faults := by
  obtain ⟨_, _, _, _, _, _, _, hfaults, _⟩ := hr.parts
  have hkeep : t.faults = u.faults := by
    rw [ht]
    rfl
  rw [hkeep, hfaults]
  exact hf

/-- A memory instruction of lanes outside the handler, whose checks each lane meets on its own. -/
theorem accessStops {i : Instr} {ff : FormF} {k : AccKind} {va : Iss → Nat → Nat} {n d c : Nat} {pre : State → Iss → Prop} (acc : Iss → Nat → Nat → Pte → Acc)
    (he : ∀ {s w}, Issuing s w → Ready s w ff → pre s (issueOf s w ff) → s.unwalked (issueOf s w ff) (alignedVas n va (issueOf s w ff)) = [] →
      exec i s = .next (s.issue ff (needPages (alignedVas n va)) (memBody k n n va (d, c) (fun i L pa e s => s.send i L (acc i L pa e) (d, c)))))
    (hva : ∀ i L, va i L < 2 ^ 72) (hd : ∀ {s w}, ∀ L ∈ executing s w ff, d + c ≤ (w.lane L).regs.length) : AccessStops i ff k va n (d, c) pre := by
  intro s w hi hr h32 hout x hpre hwalk
  let xl (L : Nat) : Xl := s.xlOf x k n n (va x L)
  obtain ⟨y, hy, hlen, hts, hyout, hyin, hyfault⟩ := memBody_lanes (ff := ff) (k := k) (va := va) (n := n) (dst := (d, c)) acc hi hva
  generalize hbody : memBody k n n va (d, c) (fun i L pa e s => s.send i L (acc i L pa e) (d, c)) x (s.skipped w ff) = r at hy hts hyfault
  obtain ⟨s2, ts⟩ := r
  dsimp only at hy hts hyfault
  have hyin : ∀ L ∈ x.E, (∀ cause, xl L ≠ .fault cause) → y.lane L = (w.lane L).after (acc x L) (d, c) (xl L) := hyin
  have hbusy : executing s w ff ≠ [] → needPages (alignedVas n va) s x = none := fun _ => needPages_none hwalk
  have hkeep : ∀ L ∈ x.E, (y.lane L).stepped = false ∧ (y.lane L).inHandler = false := fun L hL => by
    by_cases hf : ∃ c, xl L = .fault c
    · obtain ⟨cause, hc⟩ := hf
      obtain ⟨f, _, ls, _, _, u, hu⟩ := hyfault L hL cause hc
      obtain ⟨h1, h2, _⟩ := onRecord_keeps (w.lane L) u (d, c) f.seq
      rw [hu, h1, h2]
      exact ⟨(executing_unstepped hi hL).2, lane_outside hout L⟩
    · rw [hyin L hL fun cause hc => hf ⟨cause, hc⟩]
      obtain ⟨h1, h2⟩ := after_keeps (w.lane L) (acc x L) (d, c) (xl L) (executing_unstepped hi hL)
      exact ⟨h1, h2.trans (lane_outside hout L)⟩
  have hstep : ∀ L, (y.lane L).stepped = false := fun L => by
    by_cases hL : L ∈ x.E
    · exact (hkeep L hL).1
    · rw [hyout L hL]
      exact unstepped_skipped hi L
  have hmem : ∀ p ∈ ts, p.1 ∈ x.E ∧ (xl p.1).trap (x.l p.1) (va x p.1) n = some p.2 := fun p hp => by
    rw [hts] at hp
    obtain ⟨L, hL, h⟩ := List.mem_filterMap.mp hp
    obtain ⟨t, ht, rfl⟩ := Option.map_eq_some_iff.mp h
    exact ⟨hL, ht⟩
  have htrap : ∀ {L t}, L ∈ x.E → (xl L).trap (x.l L) (va x L) n = some t → (L, t) ∈ ts := fun {L t} hL ht => by
    rw [hts]
    exact List.mem_filterMap.mpr ⟨L, hL, by rw [show (s.xlOf x k n n (va x L)).trap _ _ _ = some t from ht]; rfl⟩
  have hno : ∀ {L}, (xl L).trap (x.l L) (va x L) n = none → L ∉ ts.map Prod.fst := fun {L} h hm => by
    obtain ⟨p, hp, rfl⟩ := List.mem_map.mp hm
    rw [(hmem p hp).2] at h
    cases h
  obtain ⟨w', hw', hrest, hlanes⟩ := issue_traps (busy := needPages (alignedVas n va)) (body := memBody k n n va (d, c) (fun i L pa e s => s.send i L (acc i L pa e) (d, c)))
    hi hr h32 hbusy (fun _ => hbody) (fun _ => hy) hlen hstep (by rw [hts]; exact filterMap_keys_nodup _ (executing_nodup s w ff))
    fun p hp => ⟨(hmem p hp).1, (hkeep _ (hmem p hp).1).2⟩
  refine ⟨_, w', he hi hr hpre hwalk, hw', fun L hL => ?_⟩
  obtain ⟨hgo, hpark⟩ := hlanes L hL
  have hparked : ∀ {kind info4}, kind < 256 → xl L = (if kind = 5 then .misaligned else .access info4) →
      (xl L).trap (x.l L) (va x L) n = some (((x.l L).trapHere kind info4).withVa (va x L)) → TrapParked (w.lane L) (w'.lane L) kind info4 ∧ NamesVa (w'.lane L) (va x L) :=
    fun {kind info4} hk hx ht => by
      obtain ⟨m, hm⟩ := hpark _ (htrap hL ht)
      have hafter : y.lane L = w.lane L := by
        have hne : ∀ cause, xl L ≠ .fault cause := fun cause => by rw [hx]; split <;> exact fun h => nomatch h
        rw [hyin L hL hne, hx]
        split <;> rfl
      rw [hafter] at hm
      obtain ⟨h1, h2, h3, _⟩ := trapHere_of hL kind info4
      have hof : (((x.l L).trapHere kind info4).withVa (va x L)).Of (w.lane L) kind info4 := ⟨h1, h2, h3, Nat.mod_lt _ (by omega)⟩
      exact ⟨trapParked_park m hof hk hm, namesVa_park m (h1.symm ▸ hk) hm⟩
  refine ⟨fun hmis => ?_, fun hal => ⟨fun dt hacc => ?_, fun cause hf => ?_, fun pa e hok => ?_⟩⟩
  · have hx : xl L = .misaligned := if_neg hmis
    exact hparked (by omega) (by rw [hx]; rfl) (by rw [hx]; rfl)
  · have hx : xl L = .access dt := (if_pos hal).trans hacc
    exact hparked (by omega) (by rw [hx]; rfl) (by rw [hx]; rfl)
  · have hx : xl L = .fault cause := (if_pos hal).trans hf
    obtain ⟨f, hfaults, ls, hls, hnames, u, hu⟩ := hyfault L hL cause hx
    obtain ⟨v, hran, hfinal⟩ := hrest (List.ne_nil_of_mem hL)
    have hl : w'.lane L = ((w.lane L).onRecord u (d, c) f.seq).noted := by
      rw [← hu]
      refine hgo ?_ (hno (by rw [hx]; rfl))
      rw [hu]
      exact (onRecord_keeps (w.lane L) u (d, c) f.seq).2.2
    exact faultParked_onRecord u (faults_after hran hfinal hfaults) hnames hls (by have := mem_minSet_lt (mem_executing.mp hL).1; omega) (hd L hL) hl
  · have hx : xl L = .ok pa e := (if_pos hal).trans hok
    have hlane : y.lane L = (w.lane L).sent (acc x L pa e) (d, c) := by
      rw [hyin L hL (fun cause h => by rw [h] at hx; cases hx), hx]
      rfl
    refine sent_noted (a := acc x L pa e) (dst := (d, c)) ?_ (executing_runs hL)
    rw [← hlane]
    refine hgo (stands_run ?_) (hno (by rw [hx]; rfl))
    rw [hlane]
    exact (sent_goes _ _ _).1.trans (executing_runs hL)

/-! ## Scratchpad instructions whose lanes each pass or stop -/

/-- What becomes of the state for one lane of a scratchpad instruction, by what its checks answer. -/
def State.spStep (acc : Nat → Nat → Acc) (dst : Nat × Nat) (i : Iss) (L : Nat) (c : Except Trap Nat) (s : State) : State :=
  match c with
  | .ok tid => s.send i L (acc L tid) dst
  | .error _ => s
/-- What a lane becomes whose scratchpad checks answer c, before it may park. -/
def Lane.afterSp (l : Lane) (acc : Nat → Acc) (dst : Nat × Nat) : Except Trap Nat → Lane
  | .ok tid => l.sent (acc tid) dst
  | .error _ => l
/-- The trap of a lane whose scratchpad checks answer c. -/
def spTrap : Except Trap Nat → Option Trap
  | .ok _ => none
  | .error t => some t

theorem afterSp_keeps (l : Lane) (acc : Nat → Acc) (dst : Nat × Nat) (c : Except Trap Nat) (h : l.stepping = false ∧ l.stepped = false) :
    (l.afterSp acc dst c).stepped = false ∧ (l.afterSp acc dst c).inHandler = l.inHandler := by
  cases c with
  | ok tid =>
    obtain ⟨_, _, _, h1, h2⟩ := sent_goes l (acc tid) dst
    exact ⟨h1.trans h.1, h2⟩
  | error t => exact ⟨h.2, rfl⟩

theorem foldl_spStep (acc : Nat → Nat → Acc) (dst : Nat × Nat) (i : Iss) (c : Nat → Except Trap Nat) : ∀ (Ls : List Nat) (s : State),
    (Ls.foldl (fun u L => u.spStep acc dst i L (c L)) s).waves =
      (s.updWave i.uid (fun v => Ls.foldl (fun v L => v.updLane L (fun l => l.afterSp (acc L) dst (c L))) v)).waves
  | [], s => by simp [State.updWave]
  | L :: Ls, s => by
    have h1 : (s.spStep acc dst i L (c L)).waves = (s.updWave i.uid (fun v => v.updLane L (fun l => l.afterSp (acc L) dst (c L)))).waves := by
      unfold State.spStep Lane.afterSp
      cases c L with
      | ok tid => exact (send_waves s i L (acc L tid) dst).1
      | error t => simp [State.updWave, updLane_id]
    have hboth := congrArg State.waves (updWave_updWave s i.uid (fun v => v.updLane L (fun l => l.afterSp (acc L) dst (c L)))
      (fun v => Ls.foldl (fun v L => v.updLane L (fun l => l.afterSp (acc L) dst (c L))) v) fun _ => rfl)
    exact (foldl_spStep acc dst i c Ls _).trans ((waves_updWave_congr h1 _ _).trans hboth)

theorem spBody_eq (r : BitVec 4) (off : Iss → Nat → Nat) (n : Nat) (acc : Iss → Nat → Nat → Nat → Acc) (dst : Nat × Nat) (i : Iss) (s : State) :
    let c (L : Nat) : Except Trap Nat := s.spCheck i L r.toNat (off i L) n
    let x := spBody r off n (fun i L tid o s => s.send i L (acc i L tid o) dst) i s
    x.1.waves = (s.updWave i.uid (fun v => i.E.foldl (fun v L => v.updLane L (fun l => l.afterSp (fun tid => acc i L tid (off i L)) dst (c L))) v)).waves ∧
      x.2 = i.E.filterMap (fun L => (spTrap (c L)).map (fun t => (L, t))) := by
  intro c x
  have h := foldl_spStep (fun L tid => acc i L tid (off i L)) dst i c i.E s
  refine ⟨Eq.trans ?_ h, ?_⟩
  · show (spBody _ _ _ _ _ _).1.waves = _
    unfold spBody
    simp only [List.foldl_map]
    refine congrArg (fun f => (List.foldl f s i.E).waves) (funext fun u => funext fun L => ?_)
    show _ = State.spStep (fun L tid => acc i L tid (off i L)) dst i L (s.spCheck i L r.toNat (off i L) n) u
    cases s.spCheck i L r.toNat (off i L) n <;> rfl
  · show (spBody _ _ _ _ _ _).2 = _
    unfold spBody
    simp only [List.filterMap_map]
    refine List.filterMap_congr fun L _ => ?_
    show (match s.spCheck i L r.toNat (off i L) n with | .ok _ => none | .error t => some (L, t)) =
      (spTrap (s.spCheck i L r.toNat (off i L) n)).map (fun t => (L, t))
    cases s.spCheck i L r.toNat (off i L) n <;> rfl

/-- A scratchpad instruction of lanes outside the handler, whose checks each lane meets on its own. -/
theorem scratchStops {i : Instr} {ff : FormF} {r : BitVec 4} {off : Iss → Nat → Nat} {n : Nat} {dst : Nat × Nat} {pre : State → Iss → Prop}
    (acc : Iss → Nat → Nat → Nat → Acc)
    (he : ∀ {s w}, Issuing s w → Ready s w ff → pre s (issueOf s w ff) →
      exec i s = .next (s.issue ff (waitList r off n) (spBody r off n (fun i L tid o s => s.send i L (acc i L tid o) dst))))
    (hlist : ∀ {s x}, pre s x → ∀ L ∈ x.E, ∀ tid, s.spCheck x L r.toNat (off x L) n = .ok tid → s.ownList x L tid (off x L) n = false) :
    ScratchStops i ff r off n pre := by
  intro s w hi hr h32 hout x hpre
  let c (L : Nat) : Except Trap Nat := s.spCheck x L r.toNat (off x L) n
  let after (L : Nat) (l : Lane) : Lane := l.afterSp (fun tid => acc x L tid (off x L)) dst (c L)
  let y := x.E.foldl (fun v L => v.updLane L (after L)) (w.skipped s ff)
  obtain ⟨hwaves, hts⟩ := spBody_eq r off n acc dst x (s.skipped w ff)
  generalize hbody : spBody r off n (fun i L tid o s => s.send i L (acc i L tid o) dst) x (s.skipped w ff) = b at hwaves hts
  obtain ⟨s2, ts⟩ := b
  dsimp only at hwaves hts
  have hy : s2.wave? w.uid = some y := by
    unfold State.wave?
    rw [hwaves]
    refine (wave_updWave _ _ (fun v => x.E.foldl (fun v L => v.updLane L (after L)) v) fun v => ?_).trans (by rw [wave_skipped ff hi.found]; rfl)
    obtain ⟨ls, e⟩ := foldUpd_eq (fun L => L) after x.E v
    exact (congrArg Wave.uid e :)
  have hlen : y.lanes.length = w.lanes.length := (length_foldUpd (fun L => L) after x.E _).trans (length_skipped s w ff)
  have hin : ∀ L ∈ x.E, y.lane L = after L (w.lane L) := fun L hL => (lane_after_foldl after L).trans (if_pos hL)
  have hkeep : ∀ L ∈ x.E, (y.lane L).stepped = false ∧ (y.lane L).inHandler = false := fun L hL => by
    rw [hin L hL]
    obtain ⟨h1, h2⟩ := afterSp_keeps (w.lane L) (fun tid => acc x L tid (off x L)) dst (c L) (executing_unstepped hi hL)
    exact ⟨h1, h2.trans (lane_outside hout L)⟩
  have hstep : ∀ L, (y.lane L).stepped = false := fun L => by
    by_cases hL : L ∈ x.E
    · exact (hkeep L hL).1
    · rw [show y.lane L = _ from (lane_after_foldl after L).trans (if_neg hL)]
      exact unstepped_skipped hi L
  have hmem : ∀ p ∈ ts, p.1 ∈ x.E ∧ spTrap (c p.1) = some p.2 := fun p hp => by
    rw [hts] at hp
    obtain ⟨L, hL, h⟩ := List.mem_filterMap.mp hp
    obtain ⟨t, ht, rfl⟩ := Option.map_eq_some_iff.mp h
    exact ⟨hL, ht⟩
  obtain ⟨w', hw', _, hlanes⟩ := issue_traps (busy := waitList r off n) hi hr h32 (fun _ => waitList_none (hlist hpre)) (fun _ => hbody) (fun _ => hy) hlen hstep
    (by rw [hts]; exact filterMap_keys_nodup _ (executing_nodup s w ff)) fun p hp => ⟨(hmem p hp).1, (hkeep _ (hmem p hp).1).2⟩
  refine ⟨_, w', he hi hr hpre, hw', fun L hL => ?_⟩
  obtain ⟨hgo, hpark⟩ := hlanes L hL
  have hparked : ∀ {t}, c L = .error t → ∃ m, w'.lane L = ((w.lane L).park t m).noted := fun {t} hc => by
    have hmemt : (L, t) ∈ ts := by
      rw [hts]
      exact List.mem_filterMap.mpr ⟨L, hL, congrArg (fun c => (spTrap c).map (fun t => (L, t))) hc⟩
    obtain ⟨m, hm⟩ := hpark t hmemt
    refine ⟨m, hm.trans ?_⟩
    rw [hin L hL]
    show ((Lane.afterSp _ _ _ (c L)).park t m).noted = _
    rw [hc]
    rfl
  refine ⟨fun hnone => ?_, fun tid hsome => ⟨fun hmis => ?_, fun hal hshort => ?_, fun hal hfits => ?_⟩⟩
  · obtain ⟨m, hm⟩ := hparked (t := (x.l L).trapHere tkCLUSTERRANGE (lo32 r.toNat)) (by
      show State.spCheck _ _ _ _ _ _ = _
      unfold State.spCheck
      rw [hnone])
    exact trapParked_park m (trapHere_of hL _ _) (by decide) hm
  · obtain ⟨m, hm⟩ := hparked (t := ((x.l L).trapHere tkMISALIGN (lo32 n)).withOff (off x L)) (by
      show State.spCheck _ _ _ _ _ _ = _
      unfold State.spCheck
      rw [hsome]
      exact if_pos (bne_iff_ne.mpr hmis))
    exact ⟨trapParked_park m (Trap.Of.withOff (trapHere_of hL tkMISALIGN (lo32 n)) _) (by decide) hm, namesOff_park m hm⟩
  · obtain ⟨m, hm⟩ := hparked (t := ((x.l L).trapHere tkACCESS 0).withOff (off x L)) (by
      show State.spCheck _ _ _ _ _ _ = _
      unfold State.spCheck
      rw [hsome]
      exact (if_neg (by rw [bne_iff_ne]; exact not_not.mpr hal)).trans (if_pos (decide_eq_true hshort)))
    exact ⟨trapParked_park m (Trap.Of.withOff (trapHere_of hL tkACCESS 0) _) (by decide) hm, namesOff_park m hm⟩
  · have hc : c L = .ok tid := by
      show State.spCheck _ _ _ _ _ _ = _
      unfold State.spCheck
      rw [hsome]
      exact (if_neg (by rw [bne_iff_ne]; exact not_not.mpr hal)).trans (if_neg (by rw [decide_eq_true_iff]; omega))
    have hlane : y.lane L = (w.lane L).sent (acc x L tid (off x L)) dst := by
      rw [hin L hL]
      show Lane.afterSp _ _ _ (c L) = _
      rw [hc]
      rfl
    refine sent_noted (a := acc x L tid (off x L)) (dst := dst) ?_ (executing_runs hL)
    rw [← hlane]
    refine hgo (stands_run ?_) fun hm => ?_
    · rw [hlane]
      exact (sent_goes _ _ _).1.trans (executing_runs hL)
    · obtain ⟨p, hp, rfl⟩ := List.mem_map.mp hm
      have h := (hmem p hp).2
      rw [hc] at h
      cases h

end Sys2Proof.Machine

/-!
PROOFS. Loads, stores and atomics (O14, O15, O16).
-/

namespace Sys2Proof.Machine

theorem mVa_lt (r : BitVec 4) (a : BitVec 7) (i : Iss) (L : Nat) : mVa r a i L < 2 ^ 72 := by
  unfold mVa vaOf
  omega

/-- The destinations of a lane that executes are registers it has. -/
theorem executing_dsts {s : State} {w : Wave} {ff : FormF} {d n : Nat} (hd : ∀ h b, (ff h b).dsts = [(d, n)]) (hn : n ≠ 0) :
    ∀ L ∈ executing s w ff, d + n ≤ (w.lane L).regs.length := fun _ hL =>
  run_dsts (d := (d, n)) (mem_executing.mp hL).2 (by rw [hd]; exact List.mem_singleton.mpr rfl) hn

theorem no_dsts {s : State} {w : Wave} {ff : FormF} : ∀ L ∈ executing s w ff, 0 + 0 ≤ (w.lane L).regs.length := fun _ _ => Nat.zero_le _

/-- Lanes that pass their checks need no page walked, and wait for no list. -/
theorem needPages_passes {s : State} {i : Iss} {va : Iss → Nat → Nat} {n : Nat} {k : AccKind} (h : ∀ L ∈ i.E, s.passes i (va i L) n n k) :
    needPages (alignedVas n va) s i = none := needPages_none (unwalked_nil fun v hv => by
  obtain ⟨L, hL, rfl⟩ := List.mem_map.mp (List.mem_of_mem_filter hv)
  obtain ⟨_, pa, e, hok⟩ := h L hL
  exact ⟨n, k, pa, e, hok⟩)

theorem waitList_passes {s : State} {i : Iss} {r : BitVec 4} {off : Iss → Nat → Nat} {n : Nat}
    (h : ∀ L ∈ i.E, s.spPasses i L r.toNat (off i L) n ∧ s.ownList i L (s.spTeam i L r.toNat (off i L) n) (off i L) n = false) : waitList r off n s i = none :=
  waitList_none fun L hL tid hc => by
    have hown := (h L hL).2
    unfold State.spTeam at hown
    rw [hc] at hown
    exact hown

theorem widthOf_pos (z : BitVec 3) : (widthOf z).2.1 ≠ 0 := by
  revert z
  decide

/-! ## Loads -/

/-- The access of a load. -/
def ldAcc (t a : BitVec 7) (r : BitVec 4) (o : BitVec 2) (z : BitVec 3) (i : Iss) (L pa : Nat) (e : Pte) : Acc :=
  { accOf (.load t.toNat (widthOf z).2.2) pa (widthOf z).1 with va := BitVec.ofNat 72 (mVa r a i L), ord := ordLd o, type := e.type, log := e.log }
/-- The access of a load from scratchpad. -/
def ldsAcc (t : BitVec 7) (o : BitVec 2) (z : BitVec 3) (tid off : Nat) : Acc :=
  { accOf (.load t.toNat (widthOf z).2.2) off (widthOf z).1 with sp := some tid, ord := ordLd o }

theorem ldForm_dsts {s : State} {w : Wave} {t a : BitVec 7} {z : BitVec 3} {pair : Nat} {o g : BitVec 2} {bad : Bool} :
    ∀ L ∈ executing s w (fLoad t (widthOf z).2.1 a pair o g bad), t.toNat + (widthOf z).2.1 ≤ (w.lane L).regs.length :=
  executing_dsts (fun _ _ => rfl) (widthOf_pos z)

/-- Settles O14: each lane's checks are those of memBody and spBody; where all pass, every lane sends its access and goes on. -/
theorem loadsIssue : Obligations.LoadsIssue := by
  unfold Obligations.LoadsIssue
  intro unlisted
  refine ⟨fun t a r o z g s w hi hr hpass => ?ld, fun t a r o z g s w hi hr hpass => ?lds, fun t a r o z g => ?ldStops, fun t a r o z g => ?ldsStops⟩
  case ld =>
    obtain ⟨w', hiss, _, hread, _, hless, hfresh, haccs, hlanes⟩ := memIssue (n := (widthOf z).1) (k := .load) (va := mVa r a) (ldAcc t a r o z) hi hr ldForm_dsts hpass
    exact ⟨_, w', rfl, hiss, hread rfl, hless, hfresh, haccs, hlanes⟩
  case lds =>
    obtain ⟨w', hiss, hrest, hless, hfresh, haccs, hlanes⟩ := scratchIssue (n := (widthOf z).1) (r := r) (off := mOff a) (fun _ _ => ldsAcc t o z) hi hr ldForm_dsts hpass
    exact ⟨_, w', rfl, hiss, hrest, hless, hfresh, haccs, hlanes⟩
  case ldStops => exact accessStops (ldAcc t a r o z) (fun _ _ _ _ => rfl) (mVa_lt r a) ldForm_dsts
  case ldsStops => exact scratchStops (dst := (t.toNat, (widthOf z).2.1)) (fun _ _ => ldsAcc t o z) (fun _ _ _ => rfl) fun h => h

/-! ## Stores -/

/-- The access of a store to scratchpad. -/
def stsAcc (t : BitVec 7) (o : BitVec 2) (z : BitVec 3) (i : Iss) (L tid off : Nat) : Acc :=
  { accOf .store off (widthOf z).1 with sp := some tid, data := stData i L t (widthOf z).1 (widthOf z).2.1, ord := ordSt o, posted := true }

/-- Settles O15: nothing holds a store back whose lanes have no earlier write to wait for; then it issues as a load does, its pages' entries perhaps DIRTY. -/
theorem storesIssue : Obligations.StoresIssue := by
  unfold Obligations.StoresIssue
  intro unlisted
  refine ⟨fun t a r o z g s w hi hr hpass => ?st, fun t a r o z g s w hi hr hpass => ?sts, fun t a r o z g => ?stStops, fun t a r o z g => ?stsStops⟩
  case st =>
    have hbusy : needPages (alignedVas (widthOf z).1 (mVa r a)) s (issueOf s w (fStore t (widthOf z).2.1 a 2 o g (!Instr.wf (.st t a r o z g)))) = none :=
      needPages_passes fun L hL => (hpass L hL).2
    obtain ⟨w', hiss, hst, _, hdirty, hless, hfresh, haccs, hlanes⟩ := memIssue (n := (widthOf z).1) (k := .store) (va := mVa r a)
      (fun i L pa e => stAcc i L t a r o (widthOf z).1 (widthOf z).2.1 pa e) hi hr no_dsts fun L hL => (hpass L hL).2
    exact ⟨_, w', congrArg Host.Outcome.next (issueForced_eq hi hr (fun _ => hbusy) fun L hL => (hpass L hL).1), hiss, hst, hless, hfresh, hdirty, haccs, hlanes⟩
  case sts =>
    have hbusy : waitList r (mOff a) (widthOf z).1 s (issueOf s w (fStore t (widthOf z).2.1 a 1 o g (!Instr.wf (.sts t a r o z g)))) = none :=
      waitList_passes fun L hL => (hpass L hL).2
    obtain ⟨w', hiss, hrest, hless, hfresh, haccs, hlanes⟩ := scratchIssue (n := (widthOf z).1) (r := r) (off := mOff a) (stsAcc t o z) hi hr no_dsts
      fun L hL => (hpass L hL).2
    exact ⟨_, w', congrArg Host.Outcome.next (issueForced_eq hi hr (fun _ => hbusy) fun L hL => (hpass L hL).1), hiss, hrest, hless, hfresh, haccs, hlanes⟩
  case stStops =>
    exact accessStops (fun i L pa e => stAcc i L t a r o (widthOf z).1 (widthOf z).2.1 pa e)
      (fun hi hr hready hwalk => congrArg Host.Outcome.next (issueForced_eq hi hr (fun _ => needPages_none hwalk) hready)) (mVa_lt r a) no_dsts
  case stsStops =>
    exact scratchStops (dst := (0, 0)) (stsAcc t o z)
      (fun hi hr h => congrArg Host.Outcome.next (issueForced_eq hi hr (fun _ => waitList_none fun L hL => (h L hL).2) fun L hL => (h L hL).1)) fun h L hL => (h L hL).2

/-! ## Atomics -/

/-- The access of an atomic on scratchpad. -/
def atsAcc (t : BitVec 7) (c : BitVec 4) (z : BitVec 1) (o : BitVec 2) (i : Iss) (L tid off : Nat) : Acc := { atAcc i L t c z o off true with sp := some tid }

/-- Settles O16: nothing holds an atomic back whose lanes have no earlier write to wait for; then it issues as a store does. -/
theorem atomicsIssue : Obligations.AtomicsIssue := by
  unfold Obligations.AtomicsIssue
  intro op mem
  have hmem : ∀ (i : Instr) (lands : Bool) (t a : BitVec 7) (r : BitVec 4) (o : BitVec 2) (c : BitVec 4) (z : BitVec 1),
      (∀ s, exec i s = .next (atomOp lands (!Instr.wf i) t a r o c z s)) → mem i lands t a r o c z := by
    intro i lands t a r o c z he s w hi hr hpass
    let n := 4 * (1 + z.toNat)
    have hbusy : needPages (alignedVas n (mVa r a)) s (issueOf s w (fAtom t a c z o 2 lands (!Instr.wf i))) = none := needPages_passes fun L hL => (hpass L hL).2
    have hexec (dst : Nat × Nat) (hdst : dst = if lands then (t.toNat, 1 + z.toNat) else (0, 0)) : exec i s = .next (s.issue (fAtom t a c z o 2 lands (!Instr.wf i))
        (needPages (alignedVas n (mVa r a))) (memBody (.atomic c.toNat) n n (mVa r a) dst
          (fun i L pa e s => s.send i L (atMem i L t a r o c z pa e lands) dst))) := by
      subst hdst
      exact (he s).trans (congrArg Host.Outcome.next (issueForced_eq hi hr (fun _ => hbusy) fun L hL => (hpass L hL).1))
    cases lands with
    | true =>
      obtain ⟨w', hiss, hst, _, hdirty, hless, hfresh, haccs, hlanes⟩ := memIssue (k := .atomic c.toNat) (va := mVa r a) (d := t.toNat) (c := 1 + z.toNat)
        (fun i L pa e => atMem i L t a r o c z pa e true) hi hr (executing_dsts (fun _ _ => rfl) (by omega)) fun L hL => (hpass L hL).2
      exact ⟨_, w', hexec _ rfl, hiss, hst, hless, hfresh, hdirty, haccs, hlanes⟩
    | false =>
      obtain ⟨w', hiss, hst, _, hdirty, hless, hfresh, haccs, hlanes⟩ := memIssue (k := .atomic c.toNat) (va := mVa r a)
        (fun i L pa e => atMem i L t a r o c z pa e false) hi hr no_dsts fun L hL => (hpass L hL).2
      exact ⟨_, w', hexec _ rfl, hiss, hst, hless, hfresh, hdirty, haccs, hlanes⟩
  refine ⟨fun t a r o c z => hmem _ _ _ _ _ _ _ _ fun _ => rfl, fun t a r o c z => hmem _ _ _ _ _ _ _ _ fun _ => rfl, fun t a r o c z s w hi hr hpass => ?atoms,
    fun t a r o c z => ⟨?atomStops, ?redStops, ?atomsStops⟩⟩
  case atoms =>
    have hbusy : waitList r (mOff a) (4 * (1 + z.toNat)) s (issueOf s w (fAtom t a c z o 1 true (!Instr.wf (.atoms t a r o c z)))) = none :=
      waitList_passes fun L hL => (hpass L hL).2
    obtain ⟨w', hiss, hrest, hless, hfresh, haccs, hlanes⟩ := scratchIssue (r := r) (off := mOff a) (atsAcc t c z o) hi hr
      (executing_dsts (fun _ _ => rfl) (show 1 + z.toNat ≠ 0 by omega)) fun L hL => (hpass L hL).2
    exact ⟨_, w', congrArg Host.Outcome.next (issueForced_eq hi hr (fun _ => hbusy) fun L hL => (hpass L hL).1), hiss, hrest, hless, hfresh, haccs, hlanes⟩
  case atomStops =>
    exact accessStops (fun i L pa e => atMem i L t a r o c z pa e true)
      (fun hi hr hready hwalk => congrArg Host.Outcome.next (issueForced_eq hi hr (fun _ => needPages_none hwalk) hready)) (mVa_lt r a)
      (executing_dsts (fun _ _ => rfl) (by omega))
  case redStops =>
    exact accessStops (fun i L pa e => atMem i L t a r o c z pa e false)
      (fun hi hr hready hwalk => congrArg Host.Outcome.next (issueForced_eq hi hr (fun _ => needPages_none hwalk) hready)) (mVa_lt r a) no_dsts
  case atomsStops =>
    exact scratchStops (dst := (t.toNat, 1 + z.toNat)) (atsAcc t c z o)
      (fun hi hr h => congrArg Host.Outcome.next (issueForced_eq hi hr (fun _ => waitList_none h.2) h.1)) fun h => h.2

end Sys2Proof.Machine

/-!
PROOFS. Operations of atomics (R330): integers, and FP32 minimum and maximum.
-/

namespace Sys2Proof.Machine

/-! ## FP32 codes in order (R300, R330) -/

/-- Place of an FP32 code in the order in which −0 stands below +0. -/
def codeKey (v : Nat) : Int := if v < 2 ^ 31 then v else -1 - ((v : Int) - 2 ^ 31)

theorem magUnits_strictMono {a b : Nat} (h : a < b) : magUnits a < magUnits b := by
  unfold magUnits
  by_cases ha : a / 2 ^ 23 = 0
  · rw [if_pos ha]
    by_cases hb : b / 2 ^ 23 = 0
    · rw [if_pos hb]
      omega
    · rw [if_neg hb]
      have := Nat.two_pow_pos (b / 2 ^ 23 - 1)
      calc a % 2 ^ 23 < 2 ^ 23 := by omega
        _ ≤ (b % 2 ^ 23 + 2 ^ 23) * 1 := by omega
        _ ≤ _ := Nat.mul_le_mul_left _ this
  · have hb : b / 2 ^ 23 ≠ 0 := by omega
    rw [if_neg ha, if_neg hb]
    have hle : a / 2 ^ 23 ≤ b / 2 ^ 23 := Nat.div_le_div_right (Nat.le_of_lt h)
    rcases Nat.lt_or_eq_of_le hle with hlt | heq
    · have hpow : 2 ^ (a / 2 ^ 23 - 1) * 2 ≤ 2 ^ (b / 2 ^ 23 - 1) := by
        rw [← Nat.pow_succ]
        exact Nat.pow_le_pow_right (by omega) (by omega)
      calc (a % 2 ^ 23 + 2 ^ 23) * 2 ^ (a / 2 ^ 23 - 1) < 2 ^ 24 * 2 ^ (a / 2 ^ 23 - 1) := Nat.mul_lt_mul_of_pos_right (by omega) (Nat.two_pow_pos _)
        _ = 2 ^ 23 * (2 ^ (a / 2 ^ 23 - 1) * 2) := by ring
        _ ≤ (b % 2 ^ 23 + 2 ^ 23) * 2 ^ (b / 2 ^ 23 - 1) := Nat.mul_le_mul (by omega) hpow
    · rw [heq]
      exact Nat.mul_lt_mul_of_pos_right (by omega) (Nat.two_pow_pos _)

theorem magUnits_lt {a b : Nat} : magUnits a < magUnits b ↔ a < b := by
  refine ⟨fun h => ?_, magUnits_strictMono⟩
  by_contra hn
  rcases Nat.lt_or_eq_of_le (Nat.not_lt.mp hn) with hlt | rfl
  · have := magUnits_strictMono hlt
    omega
  · omega

/-- The value of a code below that of infinity, and its code again. -/
theorem decode_below {v : Nat} (hv : v < 2 ^ 32) (hn : v % 2 ^ 31 < 0x7F800000) :
    ∃ m e, fp32.decode v = .fin (decide (2 ^ 31 ≤ v)) m e ∧ -149 ≤ e ∧ m * 2 ^ (e + 149).toNat = magUnits (v % 2 ^ 31) ∧ fp32.magBits m e = v % 2 ^ 31 := by
  have hword := fp32_decode (BitVec.ofNat 32 v)
  rw [BitVec.msb_eq_decide, BitVec.toNat_ofNat, Nat.mod_eq_of_lt hv, if_neg (by omega)] at hword
  unfold magUnits
  have hfield : v % 2 ^ 31 / 2 ^ 23 = v / 2 ^ 23 % 256 := by omega
  have hfrac : v % 2 ^ 31 % 2 ^ 23 = v % 2 ^ 23 := by omega
  rw [hfield, hfrac]
  by_cases he : v / 2 ^ 23 % 256 = 0
  · rw [if_pos he] at hword ⊢
    refine ⟨_, _, hword, le_refl _, by simp, ?_⟩
    rw [magBits_eq]
    by_cases h0 : v % 2 ^ 23 = 0
    · rw [if_pos h0]
      omega
    · have hlog : Nat.log2 (v % 2 ^ 23) < 23 := (Nat.log2_lt h0).mpr (by omega)
      rw [if_neg h0, if_pos (by omega), show shlInt (v % 2 ^ 23) (-149 + 149) = v % 2 ^ 23 from Nat.mul_one _]
      omega
  · rw [if_neg he] at hword ⊢
    refine ⟨_, _, hword, by omega, ?_, ?_⟩
    · rw [show (((v / 2 ^ 23 % 256 : Nat) : Int) - 150 + 149).toNat = v / 2 ^ 23 % 256 - 1 by omega]
    · have hlog : Nat.log2 (v % 2 ^ 23 + 2 ^ 23) = 23 := log2_eq (by omega) (by omega)
      rw [magBits_eq, if_neg (by omega), hlog, if_neg (by omega), if_pos (Nat.le_refl _), Nat.sub_self, Nat.pow_zero, Nat.mul_one]
      omega

theorem decode_inf {v : Nat} (hv : v < 2 ^ 32) (hn : v % 2 ^ 31 = 0x7F800000) : fp32.decode v = .inf (decide (2 ^ 31 ≤ v)) := by
  have hword := fp32_decode (BitVec.ofNat 32 v)
  rwa [BitVec.msb_eq_decide, BitVec.toNat_ofNat, Nat.mod_eq_of_lt hv, if_pos (by omega), if_pos (by omega)] at hword

theorem decode_nan {v : Nat} (hv : v < 2 ^ 32) (hn : 0x7F800000 < v % 2 ^ 31) : fp32.decode v = .nan := by
  have hword := fp32_decode (BitVec.ofNat 32 v)
  rwa [BitVec.msb_eq_decide, BitVec.toNat_ofNat, Nat.mod_eq_of_lt hv, if_pos (by omega), if_neg (by omega)] at hword

/-- What is not a NaN is coded as it was. -/
theorem exact_decode {v : Nat} (hv : v < 2 ^ 32) (hn : ¬ 0x7F800000 < v % 2 ^ 31) : fp32.exact (fp32.decode v) = v := by
  have hsigned : fp32.signed (decide (2 ^ 31 ≤ v)) (v % 2 ^ 31) = v := by
    unfold Fmt.signed
    by_cases h : 2 ^ 31 ≤ v
    · rw [decide_eq_true h]
      show v % 2 ^ 31 + 2 ^ 31 = v
      omega
    · rw [decide_eq_false h]
      show v % 2 ^ 31 = v
      omega
  by_cases hinf : v % 2 ^ 31 = 0x7F800000
  · rw [decode_inf hv hinf]
    show fp32.signed _ 0x7F800000 = v
    rw [← hinf, hsigned]
  · obtain ⟨m, e, hd, _, _, hbits⟩ := decode_below hv (by omega)
    rw [hd]
    show fp32.signed _ (fp32.magBits m e) = v
    rw [hbits, hsigned]

theorem shlInt_units {m : Nat} {e e0 : Int} (h0 : -149 ≤ e0) (h : e0 ≤ e) : shlInt m (e - e0) * 2 ^ (e0 + 149).toNat = m * 2 ^ (e + 149).toNat := by
  rw [shlInt, Nat.mul_assoc, ← Nat.pow_add]
  congr 3
  omega

/-- The order of values that are not NaNs is that of their codes' places. -/
theorem fpLess_decode {a b : Nat} (ha : a < 2 ^ 32) (hb : b < 2 ^ 32) (hna : ¬ 0x7F800000 < a % 2 ^ 31) (hnb : ¬ 0x7F800000 < b % 2 ^ 31) :
    fpLess (fp32.decode a) (fp32.decode b) = decide (codeKey a < codeKey b) := by
  unfold codeKey
  by_cases hia : a % 2 ^ 31 = 0x7F800000
  · rw [decode_inf ha hia]
    by_cases hib : b % 2 ^ 31 = 0x7F800000
    · rw [decode_inf hb hib]
      show (decide _ && !decide _) = _
      rw [← decide_not, ← Bool.decide_and, decide_eq_decide]
      split <;> split <;> omega
    · obtain ⟨m, e, hd, _, _, _⟩ := decode_below hb (by omega)
      rw [hd]
      show decide _ = _
      rw [decide_eq_decide]
      split <;> split <;> omega
  · obtain ⟨ma, ea, hda, hea, hua, _⟩ := decode_below ha (by omega)
    rw [hda]
    by_cases hib : b % 2 ^ 31 = 0x7F800000
    · rw [decode_inf hb hib]
      show (!decide _) = _
      rw [← decide_not, decide_eq_decide]
      split <;> split <;> omega
    · obtain ⟨mb, eb, hdb, heb, hub, _⟩ := decode_below hb (by omega)
      rw [hdb]
      show decide (fpKey (.fin _ ma ea) (min ea eb) < fpKey (.fin _ mb eb) (min ea eb)) = _
      have hmin : -149 ≤ min ea eb := le_min hea heb
      have hlt : shlInt ma (ea - min ea eb) < shlInt mb (eb - min ea eb) ↔ a % 2 ^ 31 < b % 2 ^ 31 := by
        rw [← magUnits_lt (a := a % 2 ^ 31), ← hua, ← hub, ← shlInt_units hmin (min_le_left ea eb), ← shlInt_units hmin (min_le_right ea eb)]
        exact (Nat.mul_lt_mul_right (Nat.two_pow_pos _)).symm
      have hgt : shlInt mb (eb - min ea eb) < shlInt ma (ea - min ea eb) ↔ b % 2 ^ 31 < a % 2 ^ 31 := by
        rw [← magUnits_lt (a := b % 2 ^ 31), ← hua, ← hub, ← shlInt_units hmin (min_le_left ea eb), ← shlInt_units hmin (min_le_right ea eb)]
        exact (Nat.mul_lt_mul_right (Nat.two_pow_pos _)).symm
      unfold fpKey
      dsimp only
      rw [decide_eq_decide]
      generalize shlInt ma (ea - min ea eb) = x at hlt hgt ⊢
      generalize shlInt mb (eb - min ea eb) = y at hlt hgt ⊢
      by_cases h1 : 2 ^ 31 ≤ a <;> by_cases h2 : 2 ^ 31 ≤ b
      · simp only [h1, h2, decide_true, if_true, show ¬ a < 2 ^ 31 by omega, show ¬ b < 2 ^ 31 by omega, if_false]
        omega
      · simp only [h1, h2, decide_true, decide_false, if_true, show ¬ a < 2 ^ 31 by omega, show b < 2 ^ 31 by omega, if_false, Bool.false_eq_true]
        omega
      · simp only [h1, h2, decide_true, decide_false, if_true, show a < 2 ^ 31 by omega, show ¬ b < 2 ^ 31 by omega, if_false, Bool.false_eq_true]
        omega
      · simp only [h1, h2, decide_false, if_true, show a < 2 ^ 31 by omega, show b < 2 ^ 31 by omega, if_false, Bool.false_eq_true]
        omega

theorem operand_noFtz (v : Nat) : fp32.operand false v = fp32.decode v := by
  unfold Fmt.operand
  cases fp32.decode v <;> rfl

theorem not_nan_decode {v : Nat} (hv : v < 2 ^ 32) (hn : ¬ 0x7F800000 < v % 2 ^ 31) : fp32.decode v ≠ .nan := by
  by_cases hinf : v % 2 ^ 31 = 0x7F800000
  · rw [decode_inf hv hinf]
    exact fun h => nomatch h
  · obtain ⟨m, e, hd, _⟩ := decode_below hv (by omega)
    rw [hd]
    exact fun h => nomatch h

/-- Minimum and maximum of two numbers: the one of the lesser or greater place. -/
theorem minmax_numbers (isMax : Bool) {a b : Nat} (ha : a < 2 ^ 32) (hb : b < 2 ^ 32) (hna : ¬ 0x7F800000 < a % 2 ^ 31) (hnb : ¬ 0x7F800000 < b % 2 ^ 31) :
    codeKey (fp32.minmax isMax false a b) = if isMax then max (codeKey a) (codeKey b) else min (codeKey a) (codeKey b) := by
  have hpick : fp32.minmax isMax false a b = if (if isMax then fpLess (fp32.decode a) (fp32.decode b) else fpLess (fp32.decode b) (fp32.decode a)) then b else a := by
    have hA := not_nan_decode ha hna
    have hB := not_nan_decode hb hnb
    have hEa := exact_decode ha hna
    have hEb := exact_decode hb hnb
    have hpicked : fp32.minmax isMax false a b = if (if isMax then fpLess (fp32.decode a) (fp32.decode b) else fpLess (fp32.decode b) (fp32.decode a))
        then fp32.exact (fp32.decode b) else fp32.exact (fp32.decode a) := by
      unfold Fmt.minmax
      rw [operand_noFtz, operand_noFtz]
      generalize fp32.decode a = va at hA ⊢
      generalize fp32.decode b = vb at hB ⊢
      cases va with
      | nan => exact absurd rfl hA
      | inf n => cases vb with
        | nan => exact absurd rfl hB
        | inf k => rfl
        | fin k m e => rfl
      | fin n ma ea => cases vb with
        | nan => exact absurd rfl hB
        | inf k => rfl
        | fin k m e => rfl
    rw [hpicked, hEa, hEb]
  rw [hpick, fpLess_decode ha hb hna hnb, fpLess_decode hb ha hnb hna]
  cases isMax with
  | true =>
    rw [if_pos rfl, if_pos rfl]
    by_cases h : codeKey a < codeKey b
    · rw [decide_eq_true h, if_pos rfl, max_eq_right h.le]
    · rw [decide_eq_false h, if_neg Bool.false_ne_true, max_eq_left (not_lt.mp h)]
  | false =>
    rw [if_neg Bool.false_ne_true, if_neg Bool.false_ne_true]
    by_cases h : codeKey b < codeKey a
    · rw [decide_eq_true h, if_pos rfl, min_eq_right h.le]
    · rw [decide_eq_false h, if_neg Bool.false_ne_true, min_eq_left (not_lt.mp h)]

/-- With a NaN among the operands: the other, or the canonical NaN. -/
theorem minmax_nan (isMax : Bool) {a b : Nat} (ha : a < 2 ^ 32) (hb : b < 2 ^ 32) :
    (0x7F800000 < a % 2 ^ 31 ∧ 0x7F800000 < b % 2 ^ 31 → fp32.minmax isMax false a b = 0x7FC00000) ∧
      (0x7F800000 < a % 2 ^ 31 ∧ ¬ 0x7F800000 < b % 2 ^ 31 → fp32.minmax isMax false a b = b) ∧
      (¬ 0x7F800000 < a % 2 ^ 31 ∧ 0x7F800000 < b % 2 ^ 31 → fp32.minmax isMax false a b = a) := by
  unfold Fmt.minmax
  rw [operand_noFtz, operand_noFtz]
  refine ⟨fun ⟨h1, h2⟩ => ?_, fun ⟨h1, h2⟩ => ?_, fun ⟨h1, h2⟩ => ?_⟩
  · rw [decode_nan ha h1, decode_nan hb h2]
    rfl
  · have hB := not_nan_decode hb h2
    have hE := exact_decode hb h2
    rw [decode_nan ha h1]
    generalize fp32.decode b = vb at hB hE ⊢
    cases vb with
    | nan => exact absurd rfl hB
    | inf k => exact hE
    | fin k m e => exact hE
  · have hA := not_nan_decode ha h1
    have hE := exact_decode ha h1
    rw [decode_nan hb h2]
    generalize fp32.decode a = va at hA hE ⊢
    cases va with
    | nan => exact absurd rfl hA
    | inf k => exact hE
    | fin k m e => exact hE

/-! ## Integers (R330) -/

theorem signedOf_eq {n v : Nat} (hn : 0 < n) (hv : v < 2 ^ (8 * n)) : signedOf n v = (BitVec.ofNat (8 * n) v).toInt := by
  obtain ⟨k, hk⟩ : ∃ k, 8 * n = k + 1 := ⟨8 * n - 1, by omega⟩
  unfold signedOf
  rw [BitVec.toInt_eq_toNat_cond, BitVec.toNat_ofNat, Nat.mod_eq_of_lt hv, hk, Nat.add_sub_cancel]
  have hpow : 2 ^ (k + 1) = 2 * 2 ^ k := by rw [Nat.pow_succ, Nat.mul_comm]
  rw [hpow]
  by_cases h : v < 2 ^ k
  · rw [if_pos h, if_pos (by omega)]
  · rw [if_neg h, if_neg (by omega)]
    push_cast [pow_succ]
    ring

/-- The signed order of AOP .smin and .smax. -/
theorem aopFn_signed {n old x y : Nat} (hn : 0 < n) (ho : old < 2 ^ (8 * n)) (hx : x < 2 ^ (8 * n)) :
    let sg (v : Nat) : Int := (BitVec.ofNat (8 * n) v).toInt
    sg (aopFn 1 n old x y) = min (sg old) (sg x) ∧ sg (aopFn 2 n old x y) = max (sg old) (sg x) := by
  intro sg
  have hcond : signedOf n old ≤ signedOf n x ↔ sg old ≤ sg x := by rw [signedOf_eq hn ho, signedOf_eq hn hx]
  show sg (if signedOf n old ≤ signedOf n x then old else x) = _ ∧ sg (if signedOf n old ≤ signedOf n x then x else old) = _
  by_cases h : sg old ≤ sg x
  · rw [if_pos (hcond.mpr h), if_pos (hcond.mpr h), min_eq_left h, max_eq_right h]
    exact ⟨rfl, rfl⟩
  · rw [if_neg fun e => h (hcond.mp e), if_neg fun e => h (hcond.mp e), min_eq_right (not_le.mp h).le, max_eq_left (not_le.mp h).le]
    exact ⟨rfl, rfl⟩

theorem aopFn_inc {n old x y : Nat} (hy : y < 2 ^ (8 * n)) : aopFn 10 n old x y = if y ≤ old then 0 else old + 1 := by
  show (if y ≤ old then 0 else (old + 1) % 2 ^ (8 * n)) = _
  by_cases h : y ≤ old
  · rw [if_pos h, if_pos h]
  · rw [if_neg h, if_neg h, Nat.mod_eq_of_lt (by omega)]

end Sys2Proof.Machine

/-!
PROOFS. Accesses that perform and results that land (O17).
-/

namespace Sys2Proof.Machine

/-- What lanes and memory are is as before: memory, waves, teams, results and accesses on their way. -/
structure Sees (s t : State) : Prop where
  mem : t.mem = s.mem
  waves : t.waves = s.waves
  teams : t.teams = s.teams
  lands : t.lands = s.lands
  accs : t.accs = s.accs

theorem Sees.refl (s : State) : Sees s s := ⟨rfl, rfl, rfl, rfl, rfl⟩
theorem Sees.trans {s t u : State} (h : Sees s t) (k : Sees t u) : Sees s u :=
  ⟨k.mem.trans h.mem, k.waves.trans h.waves, k.teams.trans h.teams, k.lands.trans h.lands, k.accs.trans h.accs⟩

theorem fillL2_sees (s : State) (a : Acc) : Sees s (s.fillL2 a) := by
  unfold State.fillL2 State.fillLine
  split
  · exact .refl s
  · split
    · exact .refl s
    · exact ⟨rfl, rfl, rfl, rfl, rfl⟩
theorem movedAt_sees (s : State) (a : Acc) : Sees s (s.movedAt a) := by
  unfold State.movedAt State.movedBytes
  split
  · split
    · exact ⟨rfl, rfl, rfl, rfl, rfl⟩
    · exact .refl s
  · exact .refl s
theorem settle_sees (s : State) (a : Acc) (n : Nat) : Sees s (s.settle a n) := ⟨rfl, rfl, rfl, rfl, rfl⟩
theorem keepCopy_sees (s : State) (a : Acc) (data : BitVec 1024) (n : Nat) (b : Bool) : Sees s (s.keepCopy a data n b) := ⟨rfl, rfl, rfl, rfl, rfl⟩

theorem foldl_sees {α : Type} {f : State → α → State} (h : ∀ s a, Sees s (f s a)) : ∀ (xs : List α) (s : State), Sees s (xs.foldl f s)
  | [], s => .refl s
  | x :: xs, s => (h s x).trans (foldl_sees h xs (f s x))

theorem notePusher_sees (s : State) (a : Acc) : Sees s (s.notePusher a) := by
  let s2 : State := { s.hostWrote a.addr a.n with pushers := (kindBytes a).foldl (fun p j => Tab.put p (a.addr + j) a.tid) (s.hostWrote a.addr a.n).pushers }
  let f (u : State) (j : Nat) : State := (u.forget (fun k => k == .slot (a.addr + j))).pass (fun k => k == .trav a.me) (.slot (a.addr + j))
  have hfirst : Sees s s2 := ⟨rfl, rfl, rfl, rfl, rfl⟩
  have hlast : Sees s2 ((kindBytes a).foldl f s2) := foldl_sees (f := f) (fun _ _ => ⟨rfl, rfl, rfl, rfl, rfl⟩) (kindBytes a) s2
  exact hfirst.trans hlast

/-- A free access that no log holds back performs at its home; what is done afterwards nobody sees. -/
theorem perform_free {s : State} {a : Acc} (hfree : s.accFree a = true) (hlog : s.accLogged a = false) :
    Sees ((s.dropAcc a.id).homeDo a) (s.perform a false) := by
  have h : s.perform a false = ((((s.dropAcc a.id).homeDo a).fillL2 a).movedAt a).settle a s.writes := by
    unfold State.perform State.ssGate
    rw [hfree, hlog]
    rfl
  rw [h]
  exact ((fillL2_sees _ a).trans (movedAt_sees _ a)).trans (settle_sees _ a _)

theorem execAccessPerform_eq {s : State} {a : Acc} (hfind : s.accs.find? (fun b => b.id == s.occ.n) = some a) (hm : s.occ.m = 0) :
    exec .accessPerform s = .next (s.perform a false) := by
  show execAccessPerform s = _
  unfold execAccessPerform
  rw [hfind, hm]
  rfl

/-! ## Writes at home -/

/-- A write to memory that is not a device register. -/
theorem homeWrite_memory {s : State} {a : Acc} (x : Nat) (hsp : a.sp = none) (hty : a.type ≠ 4) : Sees (s.wr a.addr a.n x) (s.homeWrite a x) := by
  have h : s.homeWrite a x = (s.wr a.addr a.n x).notePusher a := by
    unfold State.homeWrite
    rw [hsp, if_neg hty]
  rw [h]
  exact notePusher_sees _ a

theorem homeWrite_scratch {s : State} {a : Acc} {tid : Nat} (x : Nat) (hsp : a.sp = some tid) : s.homeWrite a x = s.spWr tid a.addr (leBytes a.n x) := by
  unfold State.homeWrite
  rw [hsp]

theorem wr_sameOutside (s : State) (pa n v : Nat) : SameOutside s (s.wr pa n v) pa n := fun a ha =>
  memByte_memPut_other s.mem pa a (leBytes n v) (by rw [length_leBytes]; exact ha)

/-- What a write to a scratchpad leaves: its bytes there, and every other byte and team as before. -/
theorem spWr_spec {s : State} {tid a n v : Nat} {u : Team} (hu : s.team? tid = some u) (hwf : bytesWf u.scratch = true) :
    let t := s.spWr tid a (leBytes n v)
    leNat (t.spRd tid a n) = v % 256 ^ n ∧ (∀ w k, w ≠ tid ∨ k < a ∨ a + n ≤ k → t.spByte w k = s.spByte w k) ∧
      t.teams.map (fun u => { u with scratch := [] }) = s.teams.map (fun u => { u with scratch := [] }) ∧
      t.mem = s.mem ∧ t.waves = s.waves ∧ t.lands = s.lands ∧ t.accs = s.accs := by
  intro t
  have ht : t.team? tid = some { u with scratch := putBytes u.scratch a (leBytes n v) } :=
    (team_updTeam (s.noteWrite (some tid) a (leBytes n v).length) tid (fun t => { t with scratch := putBytes t.scratch a (leBytes n v) }) fun _ => rfl).trans
      (by rw [show (s.noteWrite (some tid) a (leBytes n v).length).team? tid = some u from hu]; rfl)
  refine ⟨?_, fun w k h => ?_, ?_, rfl, rfl, rfl, rfl⟩
  · have hbytes : bytesAt (putBytes u.scratch a (leBytes n v)) a n = leBytes n v := by
      have h := memBytes_memPut u.scratch a (leBytes n v) hwf
      rwa [memBytes_eq, length_leBytes] at h
    unfold State.spRd
    rw [ht]
    show leNat (bytesAt _ a n) = _
    rw [hbytes, leNat_leBytes]
  · by_cases hw : w = tid
    · subst hw
      unfold State.spByte
      rw [ht, hu]
      exact byteAt_putBytes_other _ _ _ _ (by rw [length_leBytes]; exact h.resolve_left fun e => e rfl)
    · have hother : t.team? w = s.team? w :=
        team_updTeam_other (s.noteWrite (some tid) a (leBytes n v).length) (fun t => { t with scratch := putBytes t.scratch a (leBytes n v) }) (fun _ => rfl) hw
      unfold State.spByte
      rw [hother]
  · show (s.teams.map (fun u => if u.tid == tid then { u with scratch := putBytes u.scratch a (leBytes n v) } else u)).map _ = _
    rw [List.map_map]
    exact List.map_congr_left fun u _ => by
      show ({ (if u.tid == tid then { u with scratch := putBytes u.scratch a (leBytes n v) } else u) with scratch := [] } : Team) = _
      split <;> rfl

theorem team?_congr {s t : State} (h : t.teams = s.teams) (tid : Nat) : t.team? tid = s.team? tid := by
  unfold State.team?
  rw [h]
theorem spRd_congr {s t : State} (h : t.teams = s.teams) (tid a n : Nat) : t.spRd tid a n = s.spRd tid a n := by
  unfold State.spRd
  rw [team?_congr h]
theorem spByte_congr {s t : State} (h : t.teams = s.teams) (tid k : Nat) : t.spByte tid k = s.spByte tid k := by
  unfold State.spByte
  rw [team?_congr h]

/-! ## Reads at home -/

/-- The value that an access finds: in a scratchpad or in memory. -/
def State.found (s : State) (a : Acc) : Nat := match a.sp with | some tid => leNat (s.spRd tid a.addr a.n) | none => s.rd a.addr a.n

theorem homeRead_found {s : State} {a : Acc} (h : a.sp.isSome ∨ a.type ≠ 4) : s.homeRead a = (s.found a, s) := by
  unfold State.homeRead State.found
  cases hsp : a.sp with
  | some tid => rfl
  | none =>
    rw [hsp] at h
    rw [if_neg (h.resolve_left Bool.false_ne_true)]

/-- What a read leaves of copies nobody sees. -/
theorem homeDo_read {s : State} {a : Acc} (hread : (∃ d sx, a.op = .load d sx) ∨ (∃ ix off, a.op = .mldData ix off ∨ a.op = .mldScale ix off))
    (h : a.sp.isSome ∨ a.type ≠ 4) : Sees (s.readDone a (s.found a) (s.homeDue a)) (s.homeDo a) := by
  have hhome : s.homeDo a = if a.cached then (s.readDone a (s.found a) (s.homeDue a)).keepCopy a (BitVec.ofNat 1024 (s.rd (a.addr / 128 * 128) 128))
      (s.readDone a (s.found a) (s.homeDue a)).writes true else s.readDone a (s.found a) (s.homeDue a) := by
    unfold State.homeDo
    rcases hread with ⟨d, sx, hop⟩ | ⟨ix, off, hop | hop⟩ <;> rw [hop] <;> dsimp only <;> rw [homeRead_found h]
  rw [hhome]
  split
  · exact keepCopy_sees _ _ _ _ _
  · exact .refl _

/-- The result of a read that its lane still wants. -/
theorem landFor_lands {s : State} {a : Acc} {d : Nat} {vals : List Word} {due : Nat} (hm : a.mute = false) :
    (s.landFor a d vals due).mem = s.mem ∧ (s.landFor a d vals due).waves = s.waves ∧ (s.landFor a d vals due).teams = s.teams ∧
      (s.landFor a d vals due).accs = s.accs ∧
      ∃ x, (s.landFor a d vals due).lands = s.lands ++ [x] ∧ x.uid = a.uid ∧ x.lane = a.lane ∧ x.d = d ∧ x.due = due ∧ x.vals = vals := by
  unfold State.landFor
  rw [hm, if_neg Bool.false_ne_true]
  exact ⟨rfl, rfl, rfl, rfl, _, rfl, rfl, rfl, rfl, rfl, rfl⟩

/-! ## Pieces of an MLD (R359) -/

/-- A slot of operand memory takes a piece. -/
theorem byteAt_piece {o : Tab Byte} (h : bytesWf o = true) (off n x k : Nat) :
    byteAt (putBytes o off (leBytes n x)) k = if off ≤ k ∧ k < off + n then BitVec.ofNat 8 (x / 256 ^ (k - off)) else byteAt o k := by
  rw [byteAt_putBytes _ off k h, length_leBytes, leBytes_getD]
  by_cases hin : off ≤ k ∧ k < off + n
  · rw [if_pos hin, if_pos hin, if_pos (by omega)]
  · rw [if_neg hin, if_neg hin]

theorem updSlot_getD (w : Wave) {ix : Nat} (f : OpSlot → OpSlot) (h : ix < w.ops.length) : (w.updSlot ix f).ops.getD ix {} = f (w.ops.getD ix {}) :=
  (getD_listUpd f _ w.ops ix ix).trans (if_pos ⟨rfl, h⟩)

theorem getElem?_listUpd_other {α : Type} (f : α → α) : ∀ (xs : List α) {i k : Nat}, k ≠ i → (listUpd xs i f)[k]? = xs[k]?
  | [], _, _, _ => rfl
  | _ :: _, 0, 0, h => absurd rfl h
  | _ :: _, 0, _ + 1, _ => rfl
  | _ :: _, _ + 1, 0, _ => rfl
  | _ :: xs, _ + 1, _ + 1, h => getElem?_listUpd_other f xs fun e => h (congrArg (· + 1) e)

theorem waves_filter_other (s : State) (uid : Nat) (f : Wave → Wave) (hf : ∀ w, (f w).uid = w.uid) :
    (s.updWave uid f).waves.filter (fun v => v.uid != uid) = s.waves.filter (fun v => v.uid != uid) := by
  show (s.waves.map (fun w => if w.uid == uid then f w else w)).filter _ = _
  rw [List.filter_map]
  have hpred : (fun v : Wave => v.uid != uid) ∘ (fun w => if w.uid == uid then f w else w) = fun v => v.uid != uid := by
    funext w
    show ((if w.uid == uid then f w else w).uid != uid) = _
    split
    · rw [hf]
    · rfl
  rw [hpred]
  refine (List.map_congr_left fun w hw => ?_).trans (List.map_id _)
  have hne := (List.mem_filter.mp hw).2
  rw [if_neg]
  · rfl
  · intro e
    rw [bne, e] at hne
    cases hne

/-! ## RREL (R351) -/

theorem rrel_bytes (old v : Nat) : rrelFn old v % 2 ^ 64 = old % 2 ^ 64 ∧ rrelFn old v / 2 ^ 64 = max (old / 2 ^ 64) (min v (old % 2 ^ 64)) := by
  unfold rrelFn
  dsimp only
  omega

theorem leNat_append : ∀ (xs ys : List Byte), leNat (xs ++ ys) = leNat xs + 256 ^ xs.length * leNat ys
  | [], ys => by simp [leNat]
  | x :: xs, ys => by
    rw [List.cons_append, leNat, leNat, leNat_append xs ys, List.length_cons, Nat.pow_succ]
    ring

theorem leNat_lt : ∀ bs : List Byte, leNat bs < 256 ^ bs.length
  | [] => Nat.one_pos
  | b :: bs => by
    have h := leNat_lt bs
    have hb := b.isLt
    rw [leNat, List.length_cons, Nat.pow_succ]
    omega

theorem bytesAt_add (t : Tab Byte) : ∀ (m n k : Nat), bytesAt t k (m + n) = bytesAt t k m ++ bytesAt t (k + m) n
  | 0, n, k => by rw [Nat.zero_add]; rfl
  | m + 1, n, k => by
    rw [Nat.succ_add, bytesAt, bytesAt, bytesAt_add t m n (k + 1), List.cons_append, Nat.add_right_comm k 1 m]
    rfl

theorem length_bytesAt (t : Tab Byte) : ∀ (n k : Nat), (bytesAt t k n).length = n
  | 0, _ => rfl
  | n + 1, k => congrArg (· + 1) (length_bytesAt t n (k + 1))

/-- A read of 16 bytes is two of 8. -/
theorem rd_split (s : State) (pa : Nat) : s.rd pa 16 = s.rd pa 8 + 2 ^ 64 * s.rd (pa + 8) 8 ∧ s.rd pa 8 < 2 ^ 64 := by
  have hrd : ∀ a n, s.rd a n = leNat (bytesAt s.mem a n) := fun a n => congrArg leNat (memBytes_eq s.mem a n)
  rw [hrd, hrd, hrd, bytesAt_add _ 8 8, leNat_append, length_bytesAt]
  have hlt := leNat_lt (bytesAt s.mem pa 8)
  rw [length_bytesAt] at hlt
  exact ⟨rfl, hlt⟩

/-- What RREL leaves of a ring header. -/
theorem rrel_writes {s : State} (hwf : Memory.wf s.mem = true) (pa v : Nat) :
    let t := s.wr pa 16 (rrelFn (s.rd pa 16) v)
    t.rd pa 8 = s.rd pa 8 ∧ t.rd (pa + 8) 8 = max (s.rd (pa + 8) 8) (min v (s.rd pa 8)) ∧ SameOutside s t (pa + 8) 8 := by
  intro t
  obtain ⟨hsplit, hw⟩ := rd_split s pa
  obtain ⟨htsplit, htw⟩ := rd_split t pa
  obtain ⟨hlow, hhigh⟩ := rrel_bytes (s.rd pa 16) v
  have hr : s.rd (pa + 8) 8 < 2 ^ 64 := (rd_split s (pa + 8)).2
  have hold : s.rd pa 16 % 2 ^ 64 = s.rd pa 8 ∧ s.rd pa 16 / 2 ^ 64 = s.rd (pa + 8) 8 := by omega
  rw [hold.1] at hlow hhigh
  rw [hold.2] at hhigh
  have htotal : t.rd pa 16 = rrelFn (s.rd pa 16) v := by
    refine (rd_wr s pa 16 _ hwf).trans (Nat.mod_eq_of_lt ?_)
    show _ < 2 ^ 128
    omega
  have hkeep : t.rd pa 8 = s.rd pa 8 := by omega
  refine ⟨hkeep, by omega, fun a ha => ?_⟩
  by_cases hin : pa ≤ a ∧ a < pa + 8
  · have h1 := rd_byte t pa 8 (a - pa) (by omega)
    have h2 := rd_byte s pa 8 (a - pa) (by omega)
    rw [show pa + (a - pa) = a by omega] at h1 h2
    exact BitVec.eq_of_toNat_eq (by rw [← h1, ← h2, hkeep])
  · exact wr_sameOutside s pa 16 _ a (by omega)

/-! ## Atomics (R330) -/

theorem Sees.gone {s t u : State} {id : Nat} (h : Sees t u) (ht : t.accs = (s.dropAcc id).accs) : u.accs = s.accs.filter (fun b => b.id != id) := h.accs.trans ht

/-- The old value of an atomic is on its way to its destination, if it has one. -/
def SentOld (s t : State) (a : Acc) (d : Option Nat) (old : Nat) : Prop :=
  match d with
  | none => t.lands = s.lands
  | some d => ∃ z, t.lands = s.lands ++ [z] ∧ z.uid = a.uid ∧ z.lane = a.lane ∧ z.d = d ∧ z.vals = wordsOf (a.n / 4) old

theorem homeDo_atom_spec {s : State} {a : Acc} {c : Nat} {x y : BitVec 64} {d : Option Nat} (hop : a.op = .atom c x y d) (h : a.sp.isSome ∨ a.type ≠ 4)
    (hm : d.isSome → a.mute = false) :
    let u := s.homeWrite a (aopFn c a.n (s.found a) x.toNat y.toNat)
    let t := s.homeDo a
    t.mem = u.mem ∧ t.waves = u.waves ∧ t.teams = u.teams ∧ t.accs = u.accs ∧ SentOld u t a d (s.found a) := by
  intro u t
  cases d with
  | none =>
    have ht : t = u := by
      show s.homeDo a = _
      unfold State.homeDo
      rw [hop]
      dsimp only
      rw [homeRead_found h]
    rw [ht]
    exact ⟨rfl, rfl, rfl, rfl, rfl⟩
  | some d =>
    have ht : t = u.landFor a d (wordsOf (a.n / 4) (s.found a)) (s.homeDue a) := by
      show s.homeDo a = _
      unfold State.homeDo
      rw [hop]
      dsimp only
      rw [homeRead_found h]
    obtain ⟨h1, h2, h3, h4, z, hz, huid, hlane, hd, _, hvals⟩ := landFor_lands (s := u) (d := d) (vals := wordsOf (a.n / 4) (s.found a)) (due := s.homeDue a) (hm rfl)
    rw [ht]
    exact ⟨h1, h2, h3, h4, z, hz, huid, hlane, hd, hvals⟩

theorem SentOld.congr {s s' t t' : State} {a : Acc} {d : Option Nat} {old : Nat} (h : SentOld s' t' a d old) (hs : s'.lands = s.lands) (ht : t.lands = t'.lands) :
    SentOld s t a d old := by
  unfold SentOld at h ⊢
  rw [ht, ← hs]
  exact h

/-! ## Results that land (R203) -/

theorem setFrom_spec : ∀ (xs : List Word) (l : Lane) (n : Nat), n + xs.length ≤ l.regs.length →
    (∀ k, k < xs.length → ((l.setFrom n xs).reg (n + k)).val = xs.getD k 0 ∧ ((l.setFrom n xs).reg (n + k)).full = true) ∧
      ∀ r, r < n ∨ n + xs.length ≤ r → (l.setFrom n xs).reg r = l.reg r
  | [], _, _, _ => ⟨fun _ h => absurd h (Nat.not_lt_zero _), fun _ _ => rfl⟩
  | x :: xs, l, n, h => by
    rw [List.length_cons] at h
    have hlen : (l.set n x).regs.length = l.regs.length := length_listUpd _ _ _
    obtain ⟨hin, hout⟩ := setFrom_spec xs (l.set n x) (n + 1) (by omega)
    refine ⟨fun k hk => ?_, fun r hr => ?_⟩
    · cases k with
      | zero =>
        rw [Nat.add_zero, show (l.setFrom n (x :: xs)).reg n = (l.set n x).reg n from hout n (by omega), reg_set_same l x (by omega)]
        exact ⟨rfl, rfl⟩
      | succ k =>
        have h := hin k (by simpa using hk)
        rwa [show n + 1 + k = n + (k + 1) by omega] at h
    · rw [List.length_cons] at hr
      rw [show (l.setFrom n (x :: xs)).reg r = (l.set n x).reg r from hout r (by omega), reg_set_other l x (by omega)]

/-! ## The statement -/

theorem accessPerform_found {s : State} {a : Acc} (hfind : s.accs.find? (fun b => b.id == s.occ.n) = some a) (hfree : s.accFree a = true) (hlog : s.accLogged a = false)
    (hm : s.occ.m = 0) : ∃ t, exec .accessPerform s = .next t ∧ Sees ((s.dropAcc a.id).homeDo a) t :=
  ⟨_, execAccessPerform_eq hfind hm, perform_free hfree hlog⟩

/-- Settles O17: an access that performs drops out of those on their way, does its work at its home, and what is noted afterwards nobody sees. -/
theorem accessesPerform : Obligations.AccessesPerform := by
  unfold Obligations.AccessesPerform
  refine ⟨?_, ?ints, ?floats, ?atoms⟩
  · intro free gone scratch value
    have hvalue : ∀ s a, value s a = s.found a := fun _ _ => rfl
    refine ⟨fun s a ⟨hfind, hfree, hlog, hm⟩ hop hsp hty hwf => ?st, fun s a tid ⟨hfind, hfree, hlog, hm⟩ hop hsp ⟨u, hu, hwf⟩ => ?sts,
      fun s a d sx ⟨hfind, hfree, hlog, hm⟩ hop hmute hty => ?ld, fun s a w ix off ⟨hfind, hfree, hlog, hm⟩ hop hmute hty hw hix hdata hscale => ?mld,
      fun s a v ⟨hfind, hfree, hlog, hm⟩ hop hn hsp hty hwf => ?rrel, fun s w x hx hdue hw hlane hregs => ?land⟩
    case st =>
      obtain ⟨t, ht, hsees⟩ := accessPerform_found hfind hfree hlog hm
      have hdo : (s.dropAcc a.id).homeDo a = (s.dropAcc a.id).homeWrite a a.data.toNat := by
        unfold State.homeDo
        rw [hop]
      rw [hdo] at hsees
      have hall := (homeWrite_memory (s := s.dropAcc a.id) a.data.toNat hsp hty).trans hsees
      refine ⟨t, ht, hall.accs, ?_, fun k hk => ?_, hall.waves, hall.teams, hall.lands⟩
      · show leNat (memBytes t.mem a.addr a.n) = _
        rw [hall.mem]
        exact rd_wr s a.addr a.n a.data.toNat hwf
      · rw [hall.mem]
        exact wr_sameOutside s a.addr a.n a.data.toNat k hk
    case sts =>
      obtain ⟨t, ht, hsees⟩ := accessPerform_found hfind hfree hlog hm
      have hdo : (s.dropAcc a.id).homeDo a = (s.dropAcc a.id).spWr tid a.addr (leBytes a.n a.data.toNat) := by
        unfold State.homeDo
        rw [hop]
        exact homeWrite_scratch _ hsp
      rw [hdo] at hsees
      obtain ⟨hread, hother, hteams, hmem, hwaves, hlands, haccs⟩ := spWr_spec (s := s.dropAcc a.id) (a := a.addr) (n := a.n) (v := a.data.toNat) hu hwf
      refine ⟨t, ht, hsees.accs.trans haccs, (congrArg leNat (spRd_congr hsees.teams tid a.addr a.n)).trans hread, fun u k h => ?_, ?_, hsees.mem.trans hmem, hsees.waves.trans hwaves,
        hsees.lands.trans hlands⟩
      · exact (spByte_congr hsees.teams u k).trans (hother u k h)
      · rw [hsees.teams]
        exact hteams
    case ld =>
      obtain ⟨t, ht, hsees⟩ := accessPerform_found hfind hfree hlog hm
      have hall := (homeDo_read (s := s.dropAcc a.id) (.inl ⟨d, sx, hop⟩) hty).trans hsees
      have hdone : (s.dropAcc a.id).readDone a ((s.dropAcc a.id).found a) ((s.dropAcc a.id).homeDue a) =
          (s.dropAcc a.id).landFor a d (loadWords a.n sx (s.found a)) (s.homeDue a) := by
        unfold State.readDone
        rw [hop]
        rfl
      rw [hdone] at hall
      obtain ⟨h1, h2, h3, h4, x, hx, huid, hlane, hd, hdue, hvals⟩ := landFor_lands (s := s.dropAcc a.id) (d := d) (vals := loadWords a.n sx (s.found a)) (due := s.homeDue a) hmute
      exact ⟨t, ht, hall.accs.trans h4, fun k => by rw [hall.mem, h1]; rfl, hall.waves.trans h2, hall.teams.trans h3, x, hall.lands.trans hx, huid, hlane, hd, hdue, hvals⟩
    case mld =>
      intro piece
      obtain ⟨t, ht, hsees⟩ := accessPerform_found hfind hfree hlog hm
      have hall := (homeDo_read (s := s.dropAcc a.id) (.inr ⟨ix, off, hop⟩) hty).trans hsees
      obtain ⟨f, hdone, hfdata, hfscale, hfrest⟩ : ∃ f : OpSlot → OpSlot,
          (s.dropAcc a.id).readDone a ((s.dropAcc a.id).found a) ((s.dropAcc a.id).homeDue a) = (s.dropAcc a.id).updWave a.uid (fun w => w.updSlot ix f) ∧
          piece (.mldData ix off) (w.ops.getD ix {}).data (f (w.ops.getD ix {})).data ∧ piece (.mldScale ix off) (w.ops.getD ix {}).scale (f (w.ops.getD ix {})).scale ∧
          ∀ o, { f o with data := [], scale := [] } = { o with data := [], scale := [] } := by
        rcases hop with hop | hop
        · refine ⟨fun o => { o with data := putBytes o.data off (leBytes a.n (s.found a)) }, ?_, ?_, ?_, fun _ => rfl⟩
          · unfold State.readDone
            rw [hop]
            exact if_neg (by rw [hmute]; exact Bool.false_ne_true)
          · exact (if_pos hop).mpr fun k => byteAt_piece hdata off a.n (s.found a) k
          · exact (if_neg (by rw [hop]; exact fun h => nomatch h)).mpr rfl
        · refine ⟨fun o => { o with scale := putBytes o.scale off (leBytes a.n (s.found a)) }, ?_, ?_, ?_, fun _ => rfl⟩
          · unfold State.readDone
            rw [hop]
            exact if_neg (by rw [hmute]; exact Bool.false_ne_true)
          · exact (if_neg (by rw [hop]; exact fun h => nomatch h)).mpr rfl
          · exact (if_pos hop).mpr fun k => byteAt_piece hscale off a.n (s.found a) k
      rw [hdone] at hall
      have hw' : t.wave? a.uid = some (w.updSlot ix f) := by
        unfold State.wave?
        rw [hall.waves]
        exact (wave_updWave (s.dropAcc a.id) a.uid (fun w => w.updSlot ix f) fun _ => rfl).trans (by rw [show (s.dropAcc a.id).wave? a.uid = some w from hw]; rfl)
      have hslot := updSlot_getD w f hix
      refine ⟨t, w.updSlot ix f, ht, hall.accs, fun k => by rw [hall.mem]; rfl, hall.teams, hall.lands, hw', hslot ▸ hfdata, hslot ▸ hfscale, ?_, fun k hk =>
        getElem?_listUpd_other f w.ops hk, rfl, ?_⟩
      · rw [hslot]
      · rw [hall.waves]
        exact waves_filter_other (s.dropAcc a.id) a.uid (fun w => w.updSlot ix f) fun _ => rfl
    case rrel =>
      obtain ⟨t, ht, hsees⟩ := accessPerform_found hfind hfree hlog hm
      have hdo : (s.dropAcc a.id).homeDo a = (s.dropAcc a.id).homeWrite a (rrelFn ((s.dropAcc a.id).found a) v.toNat) := by
        unfold State.homeDo
        rw [hop]
        dsimp only
        rw [homeRead_found (.inr hty)]
      have hfound : (s.dropAcc a.id).found a = s.rd a.addr 16 := by
        unfold State.found
        rw [hsp, hn]
        rfl
      rw [hdo, hfound] at hsees
      have hall := (homeWrite_memory (s := s.dropAcc a.id) (rrelFn (s.rd a.addr 16) v.toNat) hsp hty).trans hsees
      rw [hn] at hall
      obtain ⟨hwidx, hrel, hout⟩ := rrel_writes (s := s.dropAcc a.id) hwf a.addr v.toNat
      refine ⟨t, ht, hall.accs, ?_, ?_, fun k hk => ?_, hall.waves, hall.teams, hall.lands⟩
      · show leNat (memBytes t.mem a.addr 8) = _
        rw [hall.mem]
        exact hwidx
      · show leNat (memBytes t.mem (a.addr + 8) 8) = _
        rw [hall.mem]
        exact hrel
      · rw [hall.mem]
        exact hout k hk
    case land =>
      let s1 : State := { s with lands := s.lands.filter (fun y => y.id != x.id) }
      have he : exec .resultLand s = .next (s1.updLane x.uid x.lane (fun l => l.setFrom x.d x.vals)) := by
        show execResultLand s = _
        unfold execResultLand
        rw [hx]
        dsimp only
        rw [if_neg (by omega)]
      obtain ⟨hin, hout⟩ := setFrom_spec x.vals (w.lane x.lane) x.d hregs
      have hw' : (s1.updLane x.uid x.lane (fun l => l.setFrom x.d x.vals)).wave? x.uid = some (w.updLane x.lane (fun l => l.setFrom x.d x.vals)) :=
        (wave_updWave s1 x.uid (fun v => v.updLane x.lane (fun l => l.setFrom x.d x.vals)) fun _ => rfl).trans (by rw [show s1.wave? x.uid = some w from hw]; rfl)
      have hsame : (w.updLane x.lane (fun l => l.setFrom x.d x.vals)).lane x.lane = (w.lane x.lane).setFrom x.d x.vals := by
        rw [lane_updLane, if_pos ⟨rfl, hlane⟩]
      refine ⟨_, _, he, hw', rfl, fun k hk => ?_, fun r hr => ?_, fun K hK => ?_, rfl⟩
      · rw [hsame]
        exact hin k hk
      · rw [hsame]
        exact hout r hr
      · rw [lane_updLane, if_neg fun e => hK e.1]
  case ints =>
    intro n old x y hn ho hx hy sg
    have hpos : 0 < n := by omega
    obtain ⟨hmin, hmax⟩ := aopFn_signed (y := y) hpos ho hx
    exact ⟨rfl, hmin, hmax, rfl, rfl, rfl, rfl, rfl, rfl, rfl, aopFn_inc hy⟩
  case floats =>
    intro old x y ho hx nan key
    obtain ⟨hmin1, hmin2, hmin3⟩ := minmax_nan false ho hx
    obtain ⟨hmax1, hmax2, hmax3⟩ := minmax_nan true ho hx
    exact ⟨rfl, fun h => ⟨hmin1 h, hmax1 h⟩, fun h => ⟨hmin2 h, hmax2 h⟩, fun h => ⟨hmin3 h, hmax3 h⟩,
      fun ⟨h1, h2⟩ => ⟨minmax_numbers false ho hx h1 h2, minmax_numbers true ho hx h1 h2⟩⟩
  case atoms =>
    intro s a c x y d hfind hfree hlog hm hop hmute sent
    obtain ⟨t, ht, hsees⟩ := accessPerform_found hfind hfree hlog hm
    refine ⟨fun hsp hty hwf => ?_, fun tid u hsp hu hwf => ?_⟩
    · obtain ⟨h1, h2, h3, h4, h5⟩ := homeDo_atom_spec (s := s.dropAcc a.id) hop (.inr hty) hmute
      have hfound : (s.dropAcc a.id).found a = s.rd a.addr a.n := by
        unfold State.found
        rw [hsp]
        rfl
      rw [hfound] at h1 h2 h3 h4 h5
      have hwr := homeWrite_memory (s := s.dropAcc a.id) (aopFn c a.n (s.rd a.addr a.n) x.toNat y.toNat) hsp hty
      have hmem : t.mem = (s.wr a.addr a.n (aopFn c a.n (s.rd a.addr a.n) x.toNat y.toNat)).mem := hsees.mem.trans (h1.trans hwr.mem)
      refine ⟨t, ht, hsees.accs.trans (h4.trans hwr.accs), ?_, fun k hk => ?_, hsees.waves.trans (h2.trans hwr.waves), hsees.teams.trans (h3.trans hwr.teams), ?_⟩
      · show leNat (memBytes t.mem a.addr a.n) = _
        rw [hmem]
        exact rd_wr s a.addr a.n _ hwf
      · rw [hmem]
        exact wr_sameOutside s a.addr a.n _ k hk
      · exact h5.congr hwr.lands hsees.lands
    · obtain ⟨h1, h2, h3, h4, h5⟩ := homeDo_atom_spec (s := s.dropAcc a.id) hop (.inl (by rw [hsp]; rfl)) hmute
      have hfound : (s.dropAcc a.id).found a = leNat (s.spRd tid a.addr a.n) := by
        unfold State.found
        rw [hsp]
        rfl
      rw [hfound, homeWrite_scratch _ hsp] at h1 h2 h3 h4 h5
      obtain ⟨hread, hother, hteams, hmem, hwaves, hlands, haccs⟩ := spWr_spec (s := s.dropAcc a.id) (a := a.addr) (n := a.n)
        (v := aopFn c a.n (leNat (s.spRd tid a.addr a.n)) x.toNat y.toNat) hu hwf
      have hall := hsees.teams.trans h3
      refine ⟨t, ht, hsees.accs.trans (h4.trans haccs), (congrArg leNat (spRd_congr hall tid a.addr a.n)).trans hread,
        fun v k h => (spByte_congr hall v k).trans (hother v k h), ?_, hsees.mem.trans (h1.trans hmem), hsees.waves.trans (h2.trans hwaves), h5.congr hlands hsees.lands⟩
      rw [hall]
      exact hteams

end Sys2Proof.Machine

/-!
PROOFS. Lanes that block, and what full/empty accesses make of a team's granules (R326, R327).
-/

namespace Sys2Proof.Machine

/-! ## Lanes that block (R197) -/

/-- The lane blocks, n-th in order. -/
def Lane.blockedOn (l : Lane) (wt : Wait) (n : Nat) : Lane := { l with st := .blocked wt, bseq := n }

theorem posIn_cons {K L : Nat} {Ls : List Nat} (h : K ≠ L) : posIn K (L :: Ls) = posIn K Ls + 1 := if_neg fun e => h e.symm

/-- Lanes block one after another, each after pre. -/
theorem foldl_block (uid : Nat) (pre : Nat → Lane → Lane) (wt : Nat → Wait) : ∀ (Ls : List Nat) (s : State), Ls.Nodup →
    Ls.foldl (fun u L => (u.updLane uid L (pre L)).block uid L (wt L)) s =
      { s.updWave uid (fun v => Ls.foldl (fun v L => v.updLane L (fun l => (pre L l).blockedOn (wt L) (s.fresh + posIn L Ls))) v) with
        fresh := s.fresh + Ls.length }
  | [], s, _ => by simp [State.updWave]
  | L :: Ls, s, hn => by
    obtain ⟨hL, hLs⟩ := List.nodup_cons.mp hn
    let f (l : Lane) : Lane := (pre L l).blockedOn (wt L) s.fresh
    have hone : (s.updLane uid L (pre L)).block uid L (wt L) = { s.updLane uid L f with fresh := s.fresh + 1 } :=
      congrArg (fun u : State => { u with fresh := s.fresh + 1 }) (stateUpdLane_updLane s uid L (pre L) (fun l => l.blockedOn (wt L) s.fresh))
    have htail : (fun v : Wave => Ls.foldl (fun v K => v.updLane K (fun l => (pre K l).blockedOn (wt K) (s.fresh + 1 + posIn K Ls))) v) =
        fun v => Ls.foldl (fun v K => v.updLane K (fun l => (pre K l).blockedOn (wt K) (s.fresh + posIn K (L :: Ls)))) v := by
      funext v
      refine List.foldl_ext _ _ v fun u K hK => ?_
      rw [posIn_cons (K := K) (L := L) fun e => hL (e ▸ hK), Nat.add_assoc, Nat.add_comm 1]
    have hhead : posIn L (L :: Ls) = 0 := if_pos rfl
    rw [List.foldl_cons, hone, foldl_block uid pre wt Ls _ hLs]
    show ({ ({ s.updLane uid L f with fresh := s.fresh + 1 } : State).updWave uid _ with fresh := s.fresh + 1 + Ls.length } : State) = _
    rw [htail, List.length_cons, Nat.add_comm Ls.length 1, ← Nat.add_assoc]
    refine congrArg (fun u : State => { u with fresh := s.fresh + 1 + Ls.length }) ((updWave_updWave s uid (fun v => v.updLane L f) _ fun _ => rfl).trans ?_)
    refine congrArg (s.updWave uid) (funext fun v => ?_)
    rw [List.foldl_cons, hhead, Nat.add_zero]

/-- An issue whose executing lanes all block, each after pre. -/
theorem blockIssue {s : State} {w : Wave} {ff : FormF} {busy : State → Iss → Option State} {body : Iss → State → State × Traps} (pre : Nat → Lane → Lane) (wt : Nat → Wait)
    (hi : Issuing s w) (hr : Ready s w ff) (hpre : ∀ L l, (pre L l).stepped = l.stepped) (hb : executing s w ff ≠ [] → busy s (issueOf s w ff) = none)
    (hbody : executing s w ff ≠ [] → body (issueOf s w ff) (s.skipped w ff) =
      ((executing s w ff).foldl (fun u L => (u.updLane w.uid L (pre L)).block w.uid L (wt L)) (s.skipped w ff), [])) :
    let t := s.issue ff busy body
    ∃ w', Issued s t w w' ff ∧ { t.less with fresh := 0 } = { s.less with fresh := 0 } ∧ w'.less = w.less ∧
      ∀ L ∈ executing s w ff, ∃ n, w'.lane L = ((pre L (w.lane L)).blockedOn (wt L) n).noted := by
  intro t
  have hfold := foldl_block w.uid pre wt (executing s w ff) (s.skipped w ff) (executing_nodup s w ff)
  obtain ⟨w', hiss, hless, hnil, hsome, hlanes⟩ := issue_less (busy := busy) (fun L l => (pre L l).blockedOn (wt L) ((s.skipped w ff).fresh + posIn L (executing s w ff)))
    _ hi hr (fun L hL => (hpre L _).trans (executing_unstepped hi hL).2) hb (fun h => (hbody h).trans (congrArg (·, []) hfold)) (fun _ => rfl) fun _ => rfl
  refine ⟨w', hiss, ?_, hless, fun L hL => ⟨_, hlanes L hL⟩⟩
  by_cases hE : executing s w ff = []
  · rw [show t.less = s.less from hnil hE]
  · rw [show t.less = _ from hsome hE]
    rfl

/-! ## Teams whose granules are filled or emptied (R326, R327) -/

theorem granuleFull_set (u : Team) (g : Nat) (full : Bool) (k : Nat) : (u.setGranule g full).granuleFull k = if k = g then full else u.granuleFull k := by
  unfold Team.setGranule Team.granuleFull
  cases full with
  | true =>
    by_cases h : k = g
    · subst h
      simp
    · simp [h]
  | false =>
    by_cases h : k = g
    · subst h
      by_cases hc : k ∈ u.empties <;> simp [hc]
    · by_cases hc : g ∈ u.empties <;> simp [hc, h]

/-- The change of a team for one lane, if it names the team; and the changes for several. -/
def Team.feOne (tid : Nat → Nat) (f : Nat → Team → Team) (L : Nat) (u : Team) : Team := if u.tid == tid L then f L u else u
def Team.feAll (tid : Nat → Nat) (f : Nat → Team → Team) (Ls : List Nat) (u : Team) : Team := Ls.foldl (fun u L => u.feOne tid f L) u

/-- Each change keeps the team's number and sets its granule g L to full. -/
structure SetsGranule (f : Nat → Team → Team) (g : Nat → Nat) (full : Bool) : Prop where
  tid : ∀ L u, (f L u).tid = u.tid
  sets : ∀ L u k, (f L u).granuleFull k = if k = g L then full else u.granuleFull k

theorem feOne_tid {tid : Nat → Nat} {f : Nat → Team → Team} (hf : ∀ L u, (f L u).tid = u.tid) (L : Nat) (u : Team) : (u.feOne tid f L).tid = u.tid := by
  unfold Team.feOne
  split
  · exact hf L u
  · rfl
theorem feAll_tid {tid : Nat → Nat} {f : Nat → Team → Team} (hf : ∀ L u, (f L u).tid = u.tid) : ∀ (Ls : List Nat) (u : Team), (u.feAll tid f Ls).tid = u.tid
  | [], _ => rfl
  | L :: Ls, u => (feAll_tid hf Ls _).trans (feOne_tid hf L u)

theorem feOne_granule {tid : Nat → Nat} {f : Nat → Team → Team} {g : Nat → Nat} {full : Bool} (hf : SetsGranule f g full) (L k : Nat) (u : Team) :
    (u.feOne tid f L).granuleFull k = if u.tid = tid L ∧ k = g L then full else u.granuleFull k := by
  unfold Team.feOne
  by_cases h : u.tid = tid L
  · rw [if_pos (beq_iff_eq.mpr h), hf.sets]
    exact if_congr (by simp [h]) rfl rfl
  · rw [if_neg (by rwa [beq_iff_eq]), if_neg fun e => h e.1]

theorem feAll_full {tid : Nat → Nat} {f : Nat → Team → Team} {g : Nat → Nat} {full : Bool} (hf : SetsGranule f g full) {k : Nat} : ∀ (Ls : List Nat) (u : Team),
    u.granuleFull k = full → (u.feAll tid f Ls).granuleFull k = full
  | [], _, h => h
  | L :: Ls, u, h => feAll_full hf Ls _ (by
    rw [feOne_granule hf]
    split
    · rfl
    · exact h)

theorem feAll_in {tid : Nat → Nat} {f : Nat → Team → Team} {g : Nat → Nat} {full : Bool} (hf : SetsGranule f g full) {L : Nat} (Ls : List Nat) (u : Team)
    (h : L ∈ Ls) (ht : u.tid = tid L) : (u.feAll tid f Ls).granuleFull (g L) = full := by
  induction Ls generalizing u with
  | nil => cases h
  | cons K Ls ih =>
    by_cases hK : L = K
    · exact feAll_full hf Ls _ (by rw [feOne_granule hf, if_pos ⟨hK ▸ ht, congrArg g hK⟩])
    · exact ih _ ((List.mem_cons.mp h).resolve_left hK) ((feOne_tid hf.tid K u).trans ht)

theorem feAll_out {tid : Nat → Nat} {f : Nat → Team → Team} {g : Nat → Nat} {full : Bool} (hf : SetsGranule f g full) {k : Nat} : ∀ (Ls : List Nat) (u : Team),
    (∀ L ∈ Ls, (u.tid, k) ≠ (tid L, g L)) → (u.feAll tid f Ls).granuleFull k = u.granuleFull k
  | [], _, _ => rfl
  | L :: Ls, u, h => by
    refine (feAll_out hf Ls _ fun K hK => by rw [feOne_tid hf.tid]; exact h K (List.mem_cons_of_mem _ hK)).trans ?_
    rw [feOne_granule hf, if_neg fun e => h L List.mem_cons_self (Prod.ext e.1 e.2)]

/-- A team found, when every team was changed. -/
theorem team?_map {s t : State} {F : Team → Team} (h : t.teams = s.teams.map F) (hF : ∀ u, (F u).tid = u.tid) (tid : Nat) : t.team? tid = (s.team? tid).map F := by
  unfold State.team?
  rw [h]
  induction s.teams with
  | nil => rfl
  | cons u us ih =>
    rw [List.map_cons, List.find?_cons, List.find?_cons, hF]
    cases u.tid == tid
    · exact ih
    · rfl

theorem granuleFull_map {s t : State} {F : Team → Team} (h : t.teams = s.teams.map F) (hF : ∀ u, (F u).tid = u.tid) {tid k : Nat} {b : Bool}
    (hb : ∀ u, s.team? tid = some u → (F u).granuleFull k = b) (hnone : s.team? tid = none → b = true) : t.granuleFull tid k = b := by
  unfold State.granuleFull
  rw [team?_map h hF]
  cases hu : s.team? tid with
  | none => exact (hnone hu).symm
  | some u => exact hb u hu

theorem team?_tid {s : State} {tid : Nat} {u : Team} (h : s.team? tid = some u) : u.tid = tid :=
  beq_iff_eq.mp (List.find?_some (p := fun u : Team => u.tid == tid) h)

/-! ## Waiting lanes (R326) -/

/-- Lanes that keep standing where they block: the same lanes are blocked. -/
theorem blocked_map {s t : State} {F : Wave → Wave} (h : t.waves = s.waves.map F) (hF : ∀ w, (F w).uid = w.uid ∧ (F w).lanes.length = w.lanes.length ∧
    ∀ L, ((F w).lane L).st = (w.lane L).st ∧ ((F w).lane L).bseq = (w.lane L).bseq) : t.blocked = s.blocked := by
  unfold State.blocked
  rw [h, List.flatMap_map]
  refine congrArg List.flatten (List.map_congr_left fun w _ => ?_)
  obtain ⟨huid, hlen, hst⟩ := hF w
  rw [huid, hlen]
  refine List.filterMap_congr fun L _ => ?_
  rw [(hst L).1, (hst L).2]

theorem feWaiter_of_blocked {s t : State} (h : t.blocked = s.blocked) (ld : Bool) (tid g : Nat) : t.feWaiter ld tid g = s.feWaiter ld tid g := by
  unfold State.feWaiter
  rw [h]

theorem blocked_updLane {s : State} (uid L : Nat) {f : Lane → Lane} (hf : ∀ l, (f l).st = l.st ∧ (f l).bseq = l.bseq) : (s.updLane uid L f).blocked = s.blocked := by
  refine blocked_map (F := fun w => if w.uid == uid then w.updLane L f else w) rfl fun w => ?_
  split
  · refine ⟨rfl, length_updLane _ _ _, fun K => ?_⟩
    rw [lane_updLane]
    split
    · exact hf _
    · exact ⟨rfl, rfl⟩
  · exact ⟨rfl, rfl, fun _ => ⟨rfl, rfl⟩⟩

theorem blocked_foldl_updLane (uid : Nat) {f : Nat → Lane → Lane} (hf : ∀ L l, (f L l).st = l.st ∧ (f L l).bseq = l.bseq) : ∀ (Ls : List Nat) (s : State),
    (Ls.foldl (fun s L => s.updLane uid L (f L)) s).blocked = s.blocked
  | [], _ => rfl
  | L :: Ls, _ => (blocked_foldl_updLane uid hf Ls _).trans (blocked_updLane uid L (hf L))

theorem goesOn_stands (l : Lane) (pc : Word) (d n : Nat) : ((l.mark pc d n).adv).st = l.st ∧ ((l.mark pc d n).adv).bseq = l.bseq := by
  obtain ⟨rs, e⟩ := mark_eq pc n d l
  rw [e]
  exact ⟨rfl, rfl⟩

theorem blocked_skipped (s : State) (w : Wave) (ff : FormF) : (s.skipped w ff).blocked = s.blocked := by
  have h := blocked_foldl_updLane w.uid (f := fun _ => Lane.adv) (fun _ _ => ⟨rfl, rfl⟩) (skipping s w ff) s
  rw [foldl_updLane] at h
  exact h

/-! ## LDFE of full granules (R326) -/

/-- What LDFE makes of a team for one lane. -/
def feLoaded (clr : Bool) (g : Nat → Nat) (L : Nat) (u : Team) : Team := if clr then u.setGranule (g L) false else u

theorem feLoaded_keeps (clr : Bool) (g : Nat → Nat) (L : Nat) (u : Team) :
    (feLoaded clr g L u).tid = u.tid ∧ { feLoaded clr g L u with empties := [] } = { u with empties := [] } := by
  unfold feLoaded
  split <;> exact ⟨rfl, rfl⟩

/-- The machine without what LDFE changes of it. -/
def State.lessFe (s : State) : State := { s with waves := [], teams := [], wrote := [], lands := [], fresh := 0 }

/-- One lane of an LDFE as the model performs it. -/
def ldfeStep (i : Iss) (tid off : Nat → Nat) (n d : Nat) (clr : Bool) (o : BitVec 2) (u : State) (L : Nat) : State :=
  if u.granuleFull (tid L) (off L / 16) && !u.feWaiter true (tid L) (off L / 16) then
    (u.serveLd i.uid L (tid L, off L, n, d) clr (ordLd o) (i.l L).pc 24).goOn i L (d, n / 4)
  else (u.updLane i.uid L (fun l => l.mark l.pc d (n / 4))).block i.uid L (.ldfe (tid L) (off L) n d clr o)

/-- Granules that differ, lane by lane. -/
def Apart (tid off : Nat → Nat) (Ls : List Nat) : Prop := ∀ L ∈ Ls, ∀ K ∈ Ls, L ≠ K → (tid L, off L / 16) ≠ (tid K, off K / 16)

theorem spRd_map {s t : State} {F : Team → Team} (h : t.teams = s.teams.map F) (hF : ∀ u, (F u).tid = u.tid) (hs : ∀ u, (F u).scratch = u.scratch) (tid a n : Nat) :
    t.spRd tid a n = s.spRd tid a n := by
  unfold State.spRd
  rw [team?_map h hF]
  cases s.team? tid with
  | none => rfl
  | some u => exact congrArg (fun x => bytesAt x a n) (hs u)

theorem feOne_keeps {α : Type} {tid : Nat → Nat} {f : Nat → Team → Team} (p : Team → α) (hp : ∀ L u, p (f L u) = p u) (L : Nat) (u : Team) : p (u.feOne tid f L) = p u := by
  unfold Team.feOne
  split
  · exact hp L u
  · rfl
theorem feAll_keeps {α : Type} {tid : Nat → Nat} {f : Nat → Team → Team} (p : Team → α) (hp : ∀ L u, p (f L u) = p u) : ∀ (Ls : List Nat) (u : Team), p (u.feAll tid f Ls) = p u
  | [], _ => rfl
  | L :: Ls, u => (feAll_keeps p hp Ls _).trans (feOne_keeps p hp L u)

/-- What is on its way for a lane of an LDFE. -/
def ldfeLand (s : State) (i : Iss) (tid off : Nat → Nat) (n d : Nat) (due : Nat → Nat) (p : Nat × Nat) : Land :=
  { id := p.2, uid := i.uid, lane := p.1, d, vals := wordsOf (n / 4) (leNat (s.spRd (tid p.1) (off p.1) n)), due := due p.2, pc := (i.l p.1).pc, isRead := true }

theorem ldfeStep_served {i : Iss} {tid off : Nat → Nat} {n d : Nat} {clr : Bool} {o : BitVec 2} {s : State} {L : Nat}
    (h : s.granuleFull (tid L) (off L / 16) = true ∧ s.feWaiter true (tid L) (off L / 16) = false) :
    let t := ldfeStep i tid off n d clr o s L
    t.waves = (s.updWave i.uid (fun v => v.updLane L (fun l => (l.mark l.pc d (n / 4)).adv))).waves ∧
      t.teams = s.teams.map (fun u => u.feOne tid (feLoaded clr (fun L => off L / 16)) L) ∧
      (∃ due, s.cycle ≤ due ∧ t.lands = s.lands ++ [ldfeLand s i tid off n d (fun _ => due) (L, s.fresh)]) ∧ t.fresh = s.fresh + 1 ∧ t.lessFe = s.lessFe := by
  intro t
  have ht : t = (s.serveLd i.uid L (tid L, off L, n, d) clr (ordLd o) (i.l L).pc 24).goOn i L (d, n / 4) := if_pos (by rw [h.1, h.2]; rfl)
  have hteams : s.teams.map (fun u => u.feOne tid (feLoaded clr (fun L => off L / 16)) L) = (if clr then s.setGranule (tid L) (off L / 16) false else s).teams := by
    cases clr with
    | true => rfl
    | false =>
      refine (List.map_congr_left fun u _ => ?_).trans (List.map_id _)
      unfold Team.feOne feLoaded
      split <;> rfl
  have hparts : (if clr then s.setGranule (tid L) (off L / 16) false else s).waves = s.waves ∧ (if clr then s.setGranule (tid L) (off L / 16) false else s).lands = s.lands ∧
      (if clr then s.setGranule (tid L) (off L / 16) false else s).fresh = s.fresh ∧ (if clr then s.setGranule (tid L) (off L / 16) false else s).lessFe = s.lessFe ∧
      s.cycle ≤ (if clr then s.setGranule (tid L) (off L / 16) false else s).cycle := by
    cases clr <;> exact ⟨rfl, rfl, rfl, rfl, Nat.le_refl _⟩
  obtain ⟨hwaves, hlands, hfresh, hrest, hcycle⟩ := hparts
  rw [ht, hteams]
  unfold State.serveLd
  dsimp only
  generalize (if clr then s.setGranule (tid L) (off L / 16) false else s) = s1 at hwaves hlands hfresh hrest hcycle ⊢
  refine ⟨waves_updWave_congr hwaves _ _, rfl, ⟨s.after (match s.team? (tid L) with | some t => t.die | none => 0) 24, Nat.le_add_right _ _, ?_⟩, congrArg (· + 1) hfresh, hrest⟩
  show s1.lands ++ [_] = s.lands ++ [_]
  rw [hlands, hfresh]
  rfl

/-- LDFE of lanes whose granules are full, differ, and have no lane waiting to load. -/
theorem foldl_ldfe {i : Iss} {tid off : Nat → Nat} {n d : Nat} {clr : Bool} {o : BitVec 2} : ∀ (Ls : List Nat) (s : State), Ls.Nodup → Apart tid off Ls →
    (∀ L ∈ Ls, s.granuleFull (tid L) (off L / 16) = true ∧ s.feWaiter true (tid L) (off L / 16) = false) →
    let t := Ls.foldl (ldfeStep i tid off n d clr o) s
    t.waves = (s.updWave i.uid (fun v => Ls.foldl (fun v L => v.updLane L (fun l => (l.mark l.pc d (n / 4)).adv)) v)).waves ∧
      t.teams = s.teams.map (fun u => u.feAll tid (feLoaded clr (fun L => off L / 16)) Ls) ∧
      (∃ due, (∀ k, s.cycle ≤ due k) ∧ t.lands = s.lands ++ (Ls.zipIdx s.fresh).map (ldfeLand s i tid off n d due)) ∧ t.lessFe = s.lessFe
  | [], s, _, _, _ => ⟨by simp [State.updWave], (List.map_id _).symm, ⟨fun _ => s.cycle, fun _ => Nat.le_refl _, (List.append_nil _).symm⟩, rfl⟩
  | L :: Ls, s, hn, hap, h => by
    obtain ⟨hL, hLs⟩ := List.nodup_cons.mp hn
    let g (L : Nat) : Nat := off L / 16
    let s1 := ldfeStep i tid off n d clr o s L
    obtain ⟨hw, ht, ⟨due0, hdue0, hl⟩, hf, hrest⟩ := ldfeStep_served (i := i) (n := n) (d := d) (clr := clr) (o := o) (h L List.mem_cons_self)
    have htid : ∀ u : Team, (u.feOne tid (feLoaded clr g) L).tid = u.tid := feOne_tid (fun L u => (feLoaded_keeps clr g L u).1) L
    have hcycle : s1.cycle = s.cycle := (congrArg State.cycle hrest :)
    have hblocked : s1.blocked = s.blocked := by
      refine (blocked_map (s := s) (F := fun w => if w.uid == i.uid then w.updLane L (fun l => (l.mark l.pc d (n / 4)).adv) else w) hw fun w => ?_)
      split
      · refine ⟨rfl, length_updLane _ _ _, fun K => ?_⟩
        rw [lane_updLane]
        split
        · exact goesOn_stands _ _ _ _
        · exact ⟨rfl, rfl⟩
      · exact ⟨rfl, rfl, fun _ => ⟨rfl, rfl⟩⟩
    have hready : ∀ K ∈ Ls, s1.granuleFull (tid K) (off K / 16) = true ∧ s1.feWaiter true (tid K) (off K / 16) = false := fun K hK => by
      obtain ⟨h1, h2⟩ := h K (List.mem_cons_of_mem _ hK)
      refine ⟨granuleFull_map ht htid (fun u hu => ?_) fun _ => rfl, (feWaiter_of_blocked hblocked _ _ _).trans h2⟩
      have hfull : u.granuleFull (off K / 16) = true := by
        unfold State.granuleFull at h1
        rw [hu] at h1
        exact h1
      unfold Team.feOne feLoaded
      split
      · split
        · rename_i he _
          rw [granuleFull_set, if_neg, hfull]
          intro e
          exact hap L List.mem_cons_self K (List.mem_cons_of_mem _ hK) (fun e => hL (e ▸ hK))
            (Prod.ext ((beq_iff_eq.mp he).symm.trans (team?_tid hu)) e.symm)
        · exact hfull
      · exact hfull
    obtain ⟨hw', ht', ⟨due, hdue, hl'⟩, hrest'⟩ := foldl_ldfe Ls s1 hLs (fun A hA B hB => hap A (List.mem_cons_of_mem _ hA) B (List.mem_cons_of_mem _ hB)) hready
    refine ⟨hw'.trans ((waves_updWave_congr hw _ _).trans (congrArg State.waves (updWave_updWave s i.uid _ _ fun _ => rfl))), ?_, ⟨fun k => if k = s.fresh then due0 else due k,
      fun k => ?_, ?_⟩, hrest'.trans hrest⟩
    · refine ht'.trans ?_
      rw [ht, List.map_map]
      rfl
    · dsimp only
      split
      · exact hdue0
      · exact hcycle ▸ hdue k
    · refine hl'.trans ?_
      rw [hl, hf, List.zipIdx_cons, List.map_cons, List.append_assoc, List.singleton_append]
      refine congrArg (s.lands ++ ·) (congrArg₂ List.cons ?_ (List.map_congr_left fun p hp => ?_))
      · unfold ldfeLand
        dsimp only
        rw [if_pos rfl]
      · have hge := List.le_snd_of_mem_zipIdx hp
        unfold ldfeLand
        rw [spRd_map ht htid (feOne_keeps (f := feLoaded clr g) Team.scratch (fun M u => (congrArg Team.scratch (feLoaded_keeps clr g M u).2 :)) L)]
        dsimp only
        rw [if_neg (by omega)]

/-! ## STFE of empty granules (R327) -/

/-- What STFE makes of a team for one lane. -/
def feStored (off : Nat → Nat) (n : Nat) (v : Nat → BitVec 128) (L : Nat) (u : Team) : Team :=
  ({ u with scratch := putBytes u.scratch (off L) (leBytes n (v L).toNat) } : Team).setGranule (off L / 16) true

theorem feStored_sets (off : Nat → Nat) (n : Nat) (v : Nat → BitVec 128) : SetsGranule (feStored off n v) (fun L => off L / 16) true :=
  ⟨fun _ _ => rfl, fun _ _ _ => (granuleFull_set _ _ _ _).trans rfl⟩

/-- The machine without what STFE changes of it. -/
def State.lessFeStore (s : State) : State := { s with waves := [], teams := [], wrote := [], writes := 0 }

theorem serveSt_less (s : State) (uid L tid off n : Nat) (v : BitVec 128) (ord : Ord) : (s.serveSt uid L tid off n v ord).lessFeStore = s.lessFeStore := by
  have hwr : (s.spWr tid off (leBytes n v.toNat)).lessFeStore = s.lessFeStore := rfl
  have hset : ∀ u : State, (u.setGranule tid (off / 16) true).lessFeStore = u.lessFeStore := fun _ => rfl
  have hsaw : ∀ u : State, (u.feSaw uid L tid off n .store ord (some s.writes)).lessFeStore = u.lessFeStore := fun _ => rfl
  exact (hsaw _).trans ((hset _).trans hwr)

/-- One lane of an STFE as the model performs it. -/
def stfeStep (i : Iss) (tid off : Nat → Nat) (n : Nat) (v : Nat → BitVec 128) (o : BitVec 2) (u : State) (L : Nat) : State :=
  if !u.granuleFull (tid L) (off L / 16) && !u.feWaiter false (tid L) (off L / 16) then (u.serveSt i.uid L (tid L) (off L) n (v L) (ordSt o)).goOn i L (0, 0)
  else u.block i.uid L (.stfe (tid L) (off L) n (v L) o)

/-- STFE of lanes whose granules are empty, differ, and have no lane waiting to store. -/
theorem foldl_stfe {i : Iss} {tid off : Nat → Nat} {n : Nat} {v : Nat → BitVec 128} {o : BitVec 2} : ∀ (Ls : List Nat) (s : State), Ls.Nodup → Apart tid off Ls →
    (∀ L ∈ Ls, s.granuleFull (tid L) (off L / 16) = false ∧ s.feWaiter false (tid L) (off L / 16) = false) →
    let t := Ls.foldl (stfeStep i tid off n v o) s
    t.waves = (s.updWave i.uid (fun v => Ls.foldl (fun v L => v.updLane L Lane.adv) v)).waves ∧
      t.teams = s.teams.map (fun u => u.feAll tid (feStored off n v) Ls) ∧ t.lessFeStore = s.lessFeStore
  | [], s, _, _, _ => ⟨by simp [State.updWave], (List.map_id _).symm, rfl⟩
  | L :: Ls, s, hn, hap, h => by
    obtain ⟨hL, hLs⟩ := List.nodup_cons.mp hn
    let s1 := stfeStep i tid off n v o s L
    have hs1 : s1 = (s.serveSt i.uid L (tid L) (off L) n (v L) (ordSt o)).goOn i L (0, 0) := if_pos (by
      rw [(h L List.mem_cons_self).1, (h L List.mem_cons_self).2]
      rfl)
    have hw : s1.waves = (s.updWave i.uid (fun v => v.updLane L Lane.adv)).waves := by
      rw [hs1]
      rfl
    have ht : s1.teams = s.teams.map (fun u => u.feOne tid (feStored off n v) L) := by
      rw [hs1]
      show (s.teams.map _).map _ = _
      rw [List.map_map]
      refine List.map_congr_left fun u _ => ?_
      unfold Team.feOne feStored
      by_cases hu : u.tid = tid L
      · simp [hu]
      · simp [hu]
    have hrest : s1.lessFeStore = s.lessFeStore := by
      rw [hs1]
      exact serveSt_less s i.uid L (tid L) (off L) n (v L) (ordSt o)
    have htid : ∀ u : Team, (u.feOne tid (feStored off n v) L).tid = u.tid := feOne_tid (feStored_sets off n v).tid L
    have hblocked : s1.blocked = s.blocked := (blocked_map (s := (s.updWave i.uid (fun v => v.updLane L Lane.adv))) (F := id) (by rw [List.map_id, hw])
      fun _ => ⟨rfl, rfl, fun _ => ⟨rfl, rfl⟩⟩).trans (blocked_updLane i.uid L (f := Lane.adv) fun _ => ⟨rfl, rfl⟩)
    have hready : ∀ K ∈ Ls, s1.granuleFull (tid K) (off K / 16) = false ∧ s1.feWaiter false (tid K) (off K / 16) = false := fun K hK => by
      obtain ⟨h1, h2⟩ := h K (List.mem_cons_of_mem _ hK)
      refine ⟨granuleFull_map ht htid (fun u hu => ?_) (fun hu => ?_), (feWaiter_of_blocked hblocked _ _ _).trans h2⟩
      · unfold State.granuleFull at h1
        rw [hu] at h1
        rw [feOne_granule (feStored_sets off n v), if_neg fun e => ?_]
        · exact h1
        · exact hap L List.mem_cons_self K (List.mem_cons_of_mem _ hK) (fun e => hL (e ▸ hK)) (Prod.ext (e.1.symm.trans (team?_tid hu)) e.2.symm)
      · unfold State.granuleFull at h1
        rw [hu] at h1
        cases h1
    obtain ⟨hw', ht', hrest'⟩ := foldl_stfe Ls s1 hLs (fun A hA B hB => hap A (List.mem_cons_of_mem _ hA) B (List.mem_cons_of_mem _ hB)) hready
    refine ⟨hw'.trans ((waves_updWave_congr hw _ _).trans (congrArg State.waves (updWave_updWave s i.uid _ _ fun _ => rfl))), ht'.trans ?_, hrest'.trans hrest⟩
    rw [ht, List.map_map]
    rfl

theorem scratch_feOne {tid off : Nat → Nat} {n : Nat} {v : Nat → BitVec 128} (L : Nat) (u : Team) :
    (u.feOne tid (feStored off n v) L).scratch = if u.tid = tid L then putBytes u.scratch (off L) (leBytes n (v L).toNat) else u.scratch := by
  unfold Team.feOne
  by_cases h : u.tid = tid L
  · rw [if_pos (beq_iff_eq.mpr h), if_pos h]
    rfl
  · rw [if_neg (by rwa [beq_iff_eq]), if_neg h]

/-- Bytes that no lane names are as before. -/
theorem feAll_scratch_out {tid off : Nat → Nat} {n : Nat} {v : Nat → BitVec 128} {k : Nat} : ∀ (Ls : List Nat) (u : Team),
    (∀ L ∈ Ls, u.tid = tid L → k < off L ∨ off L + n ≤ k) → byteAt (u.feAll tid (feStored off n v) Ls).scratch k = byteAt u.scratch k
  | [], _, _ => rfl
  | L :: Ls, u, h => by
    have htid := feOne_tid (feStored_sets off n v).tid (tid := tid) L u
    refine (feAll_scratch_out Ls _ fun K hK => by rw [htid]; exact h K (List.mem_cons_of_mem _ hK)).trans ?_
    rw [scratch_feOne]
    split
    · rename_i he
      exact byteAt_putBytes_other _ _ _ _ (by rw [length_leBytes]; exact h L List.mem_cons_self he)
    · rfl

/-- An access of 4, 8 or 16 aligned bytes lies in one granule. -/
theorem in_granule {n off k : Nat} (hn : n = 4 ∨ n = 8 ∨ n = 16) (ha : off % n = 0) (h : off ≤ k ∧ k < off + n) : k / 16 = off / 16 := by
  rcases hn with rfl | rfl | rfl <;> omega

/-- A lane's own bytes are those it stores. -/
theorem feAll_scratch_in {tid off : Nat → Nat} {n : Nat} {v : Nat → BitVec 128} {L : Nat} (hn : n = 4 ∨ n = 8 ∨ n = 16) (Ls : List Nat) (u : Team)
    (hap : Apart tid off Ls) (hal : ∀ L ∈ Ls, off L % n = 0) (hL : L ∈ Ls) (hnd : Ls.Nodup) (hu : u.tid = tid L) (hwf : bytesWf u.scratch = true) :
    bytesAt (u.feAll tid (feStored off n v) Ls).scratch (off L) n = leBytes n (v L).toNat := by
  induction Ls generalizing u with
  | nil => cases hL
  | cons K Ls ih =>
    obtain ⟨hK, hLs⟩ := List.nodup_cons.mp hnd
    have htid := feOne_tid (feStored_sets off n v).tid (tid := tid) K u
    by_cases hLK : L = K
    · subst hLK
      have hput : bytesAt (u.feOne tid (feStored off n v) L).scratch (off L) n = leBytes n (v L).toNat := by
        have h := memBytes_memPut u.scratch (off L) (leBytes n (v L).toNat) hwf
        rw [memBytes_eq, length_leBytes] at h
        rw [scratch_feOne, if_pos hu]
        exact h
      refine Eq.trans ?_ hput
      rw [bytesAt_eq_map, bytesAt_eq_map]
      refine List.map_congr_left fun j hj => feAll_scratch_out Ls _ fun M hM hMt => ?_
      have hj := List.mem_range.mp hj
      by_contra hin
      have h1 := in_granule hn (hal M (List.mem_cons_of_mem _ hM)) (k := off L + j) (by omega)
      have h2 := in_granule hn (hal L List.mem_cons_self) (k := off L + j) (by omega)
      exact hap L List.mem_cons_self M (List.mem_cons_of_mem _ hM) (fun e => hK (e ▸ hM)) (Prod.ext (hu.symm.trans (htid.symm.trans hMt)) (h2.symm.trans h1))
    · refine ih _ (fun A hA B hB => hap A (List.mem_cons_of_mem _ hA) B (List.mem_cons_of_mem _ hB)) (fun A hA => hal A (List.mem_cons_of_mem _ hA))
        ((List.mem_cons.mp hL).resolve_left hLK) hLs (htid.trans hu) ?_
      rw [scratch_feOne]
      split
      · exact putBytes_wf _ hwf
      · exact hwf

/-! ## The statement -/

/-- What a scratchpad check that passes has found. -/
theorem spCheck_ok {s : State} {i : Iss} {L r a n tid : Nat} (h : s.spCheck i L r a n = .ok tid) :
    a % n = 0 ∧ a + n ≤ ((s.team? tid).map Team.alloc).getD 0 := by
  unfold State.spCheck at h
  cases hm : s.memberOf i.t i.g r with
  | none =>
    rw [hm] at h
    cases h
  | some k =>
    rw [hm] at h
    dsimp only at h
    split at h
    · cases h
    · rename_i hal
      split at h
      · cases h
      · rename_i hfit
        cases h
        rw [bne_iff_ne, not_not] at hal
        rw [decide_eq_true_iff] at hfit
        exact ⟨hal, not_lt.mp hfit⟩

theorem spTeam_ok {s : State} {i : Iss} {L r a n : Nat} (h : s.spPasses i L r a n) :
    a % n = 0 ∧ (0 < n → ∃ u, s.team? (s.spTeam i L r a n) = some u) := by
  obtain ⟨tid, hok⟩ := h
  obtain ⟨hal, hfit⟩ := spCheck_ok hok
  refine ⟨hal, fun hn => ?_⟩
  unfold State.spTeam
  rw [hok]
  dsimp only
  cases hu : s.team? tid with
  | some u => exact ⟨u, rfl⟩
  | none =>
    rw [hu] at hfit
    simp only [Option.map_none, Option.getD_none] at hfit
    omega

theorem feSize_cases (z : Nat) : feSize z = 4 ∨ feSize z = 8 ∨ feSize z = 16 := by
  unfold feSize
  split <;> simp

/-- Lanes whose earlier accesses have performed do not wait. -/
theorem waitBefore_none {s : State} {i : Iss} {mk : State → Iss → Nat → Option Acc} (h : ∀ L ∈ i.E, ∀ b, mk s i L = some b → s.ordersPend i.uid L b = false) :
    waitBefore mk s i = none := by
  refine if_neg ?_
  rw [Bool.not_eq_true, List.any_eq_false]
  intro L hL
  cases hb : mk s i L with
  | none => exact Bool.false_ne_true
  | some b => exact (h L hL b hb).symm ▸ Bool.false_ne_true

/-- A scratchpad body whose lanes pass and put nothing on its way. -/
theorem spBody_quiet {r : BitVec 4} {off : Iss → Nat → Nat} {n : Nat} {go : Iss → Nat → Nat → Nat → State → State} {i : Iss} {s : State}
    (h : ∀ L ∈ i.E, s.spPasses i L r.toNat (off i L) n)
    (hq : let s1 := i.E.foldl (fun u L => go i L (s.spTeam i L r.toNat (off i L) n) (off i L) u) s; s1.accs = s.accs ∧ s1.lands = s.lands) :
    spBody r off n go i s = (i.E.foldl (fun u L => go i L (s.spTeam i L r.toNat (off i L) n) (off i L) u) s, []) := by
  obtain ⟨more, hbody⟩ := spBody_passes (go := go) h
  rw [hbody]
  dsimp only at hq ⊢
  generalize i.E.foldl (fun u L => go i L (s.spTeam i L r.toNat (off i L) n) (off i L) u) s = s1 at hq ⊢
  obtain ⟨ha, hl⟩ := hq
  rw [← ha, ← hl]
  simp

/-- Nothing holds the lanes of an instruction back that go together, when none of them has an earlier write to wait for. -/
theorem issueTogether_eq {s : State} {w : Wave} {ff : FormF} {busy : State → Iss → Option State} {body : Iss → State → State × Traps} {p : Acc → Bool}
    (hi : Issuing s w) (hr : Ready s w ff) (hb : executing s w ff ≠ [] → busy s (issueOf s w ff) = none)
    (hp : ∀ L ∈ executing s w ff, s.lanePend w.uid L p = []) : s.issueTogether ff (fun _ _ => p) busy body = s.issue ff busy body := by
  by_cases hE : executing s w ff = []
  · unfold State.issueTogether
    rw [issue_ready hi hr (.inl hE), issue_ready hi hr (.inl hE), if_pos hE, if_pos hE]
  · let fr (s : State) (i : Iss) (L : Nat) : Force := s.force i.uid L p false
    have hready : ∀ L ∈ (issueOf s w ff).E, fr s (issueOf s w ff) L = .ready := fun L hL => force_ready (hp L hL)
    have hready' : ∀ L ∈ (issueOf s w ff).E, fr (s.skipped w ff) (issueOf s w ff) L = .ready := hready
    have hany : (issueOf s w ff).E.any (fun L => fr s (issueOf s w ff) L == .wait) = false := by
      rw [List.any_eq_false]
      intro L hL
      rw [hready L hL]
      decide
    have hgo : (issueOf s w ff).E.filter (fun L => fr s (issueOf s w ff) L == .ready) = (issueOf s w ff).E :=
      List.filter_eq_self.mpr fun L hL => by rw [hready L hL]; rfl
    have hbusy : (if (issueOf s w ff).E.any (fun L => fr s (issueOf s w ff) L == .wait) then some s
        else busy s { issueOf s w ff with E := (issueOf s w ff).E.filter (fun L => fr s (issueOf s w ff) L == .ready) }) = none := by
      rw [hany, if_neg Bool.false_ne_true, hgo]
      exact hb hE
    have hbody := forcedBody_ready (fr := fr) (body := body) (i := issueOf s w ff) hE hready'
    unfold State.issueTogether
    dsimp only
    rw [issue_ready hi hr (.inr (hb hE)), issue_ready hi hr (.inr hbusy), if_neg hE, if_neg hE, hbody]

/-- An issue whose body leaves s2 of the machine also where no lane executes. -/
theorem issue_less_all {s : State} {w : Wave} {ff : FormF} {busy : State → Iss → Option State} {body : Iss → State → State × Traps}
    (g : Nat → Lane → Lane) (s2 : State) (hi : Issuing s w) (hr : Ready s w ff) (hst : ∀ L ∈ executing s w ff, (g L (w.lane L)).stepped = false)
    (hb : busy s (issueOf s w ff) = none) (hbody : body (issueOf s w ff) (s.skipped w ff) = (s2, []))
    (hw : s2.waves = ((s.skipped w ff).updWave w.uid (fun v => (executing s w ff).foldl (fun v L => v.updLane L (g L)) v)).waves) (hc : s2.pkg = s.pkg)
    (hnil : executing s w ff = [] → s2.less = s.less) :
    ∃ w', Issued s (s.issue ff busy body) w w' ff ∧ w'.less = w.less ∧ (s.issue ff busy body).less = s2.less ∧
      ∀ L ∈ executing s w ff, w'.lane L = (g L (w.lane L)).noted := by
  obtain ⟨w', hiss, hless, h1, h2, hlanes⟩ := issue_less (busy := busy) g s2 hi hr hst (fun _ => hb) (fun _ => hbody) (fun _ => hw) fun _ => hc
  refine ⟨w', hiss, hless, ?_, hlanes⟩
  by_cases hE : executing s w ff = []
  · exact (h1 hE).trans (hnil hE).symm
  · exact h2 hE

end Sys2Proof.Machine

/-!
PROOFS. Full/empty accesses (O18).
-/

namespace Sys2Proof.Machine

/-- A result that lands some cycles later. -/
def Land.later (n : Nat) (x : Land) : Land := { x with due := x.due + n }

/-- A scratchpad body whose lanes pass and put results on their way. -/
theorem spBody_lands {r : BitVec 4} {off : Iss → Nat → Nat} {n : Nat} {go : Iss → Nat → Nat → Nat → State → State} {i : Iss} {s s1 : State} {ls : List Land}
    (h : ∀ L ∈ i.E, s.spPasses i L r.toNat (off i L) n)
    (hs : i.E.foldl (fun u L => go i L (s.spTeam i L r.toNat (off i L) n) (off i L) u) s = s1) (ha : s1.accs = s.accs) (hl : s1.lands = s.lands ++ ls) :
    ∃ more, spBody r off n go i s = ({ s1 with lands := s.lands ++ ls.map (Land.later (s.slow i.die more)) }, []) := by
  obtain ⟨more, hbody⟩ := spBody_passes (go := go) h
  refine ⟨more, hbody.trans ?_⟩
  rw [hs]
  dsimp only
  have haccs : s.accs ++ (s1.accs.drop s.accs.length).map (fun a => { a with extra := more }) = s1.accs := by
    rw [ha, List.drop_length, List.map_nil, List.append_nil]
  rw [haccs, hl, List.drop_left]
  rfl

/-- What LDFE does with a lane that passes its checks. -/
def ldfeGo (n d : Nat) (clr : Bool) (o : BitVec 2) (i : Iss) (L tid off : Nat) (s : State) : State :=
  if s.granuleFull tid (off / 16) && !s.feWaiter true tid (off / 16) then (s.serveLd i.uid L (tid, off, n, d) clr (ordLd o) (i.l L).pc 24).goOn i L (d, n / 4)
  else (s.updLane i.uid L (fun l => l.mark l.pc d (n / 4))).block i.uid L (.ldfe tid off n d clr o)

/-- What STFE does with a lane that passes its checks. -/
def stfeGo (n : Nat) (t : BitVec 7) (o : BitVec 2) (i : Iss) (L tid off : Nat) (s : State) : State :=
  let v := stData i L t n (n / 4)
  if !s.granuleFull tid (off / 16) && !s.feWaiter false tid (off / 16) then (s.serveSt i.uid L tid off n v (ordSt o)).goOn i L (0, 0)
  else s.block i.uid L (.stfe tid off n v o)

/-- LDFE of full granules. -/
theorem ldfe_full {t a : BitVec 7} {r : BitVec 4} {o : BitVec 2} {z : BitVec 3} {g : BitVec 2} {s : State} {w : Wave} {n : Nat} {ff : FormF}
    (hn : n = feSize z.toNat) (hff : ff = fLoad t (n / 4) a 1 o g (!Instr.wf (.ldfe t a r o z g))) (hi : Issuing s w) (hr : Ready s w ff) :
    let x := issueOf s w ff
    let tid (L : Nat) : Nat := s.spTeam x L r.toNat (mOff a x L) n
    let off (L : Nat) : Nat := mOff a x L
    (∀ L ∈ x.E, (∀ b, feAcc (.load t.toNat 0) (ordLd o) r a n s x L = some b → s.ordersPend x.uid L b = false) ∧ s.spPasses x L r.toNat (off L) n) →
    Apart tid off x.E →
    (∀ L ∈ x.E, s.granuleFull (tid L) (off L / 16) = true ∧ s.feWaiter true (tid L) (off L / 16) = false) →
    ∃ (u : State) (w' : Wave), exec (.ldfe t a r o z g) s = .next u ∧ Issued s u w w' ff ∧ w'.less = w.less ∧
      ({ u.lessLands with teams := [], wrote := [] } : State) = { s.lessLands with teams := [], wrote := [] } ∧
      u.teams = s.teams.map (fun u => u.feAll tid (feLoaded (z.getLsbD 2) (fun L => off L / 16)) x.E) ∧
      (∃ due, (∀ k, s.cycle ≤ due k) ∧ u.lands = s.lands ++ (landsOf s x t.toNat
        (fun L => wordsOf (n / 4) (leNat (s.spRd (tid L) (off L) n))) due false).map (fun y => { y with isRead := true })) ∧
      ∀ L ∈ x.E, Emptied (w.lane L) (w'.lane L) t.toNat (n / 4) := by
  intro x tid off hpass hap hfull
  let clr := z.getLsbD 2
  have he : exec (.ldfe t a r o z g) s = .next (s.issue ff (waitBefore (feAcc (.load t.toNat 0) (ordLd o) r a n)) (spBody r (mOff a) n (ldfeGo n t.toNat clr o))) := by
    rw [hff, hn]
    rfl
  obtain ⟨hw, ht, ⟨due, hdue, hl⟩, hrest⟩ := foldl_ldfe (i := x) (tid := tid) (off := off) (n := n) (d := t.toNat) (clr := clr) (o := o) x.E (s.skipped w ff)
    (executing_nodup s w ff) hap fun L hL => ⟨(hfull L hL).1, (feWaiter_of_blocked (blocked_skipped s w ff) _ _ _).trans (hfull L hL).2⟩
  have hE : executing s w ff = [] → x.E.foldl (ldfeStep x tid off n t.toNat clr o) (s.skipped w ff) = s.skipped w ff := fun h => by
    rw [show x.E = [] from h]
    rfl
  have hfold : x.E.foldl (fun u L => ldfeGo n t.toNat clr o x L ((s.skipped w ff).spTeam x L r.toNat (mOff a x L) n) (mOff a x L) u) (s.skipped w ff) =
      x.E.foldl (ldfeStep x tid off n t.toNat clr o) (s.skipped w ff) := rfl
  generalize x.E.foldl (ldfeStep x tid off n t.toNat clr o) (s.skipped w ff) = s1 at hfold hw ht hl hrest hE
  obtain ⟨more, hbody⟩ := spBody_lands (go := ldfeGo n t.toNat clr o) (fun L hL => (hpass L hL).2) hfold (congrArg State.accs hrest :) hl
  have hst : ∀ L ∈ executing s w ff, ((w.lane L).mark (w.lane L).pc t.toNat (n / 4)).adv.stepped = false := fun L hL => by
    obtain ⟨rs, e⟩ := mark_eq (w.lane L).pc (n / 4) t.toNat (w.lane L)
    rw [e]
    exact (executing_unstepped hi hL).1
  let later : List Land := ((x.E.zipIdx (s.skipped w ff).fresh).map (ldfeLand (s.skipped w ff) x tid off n t.toNat due)).map (Land.later ((s.skipped w ff).slow x.die more))
  have hnil : executing s w ff = [] → ({ s1 with lands := (s.skipped w ff).lands ++ later } : State).less = s.less := fun h => by
    have hnone : later = [] := by
      show (List.map _ (List.map _ (x.E.zipIdx _))) = _
      rw [show x.E = [] from h]
      rfl
    rw [hE h, hnone]
    exact congrArg (fun ls => ({ s.less with lands := ls } : State)) (List.append_nil s.lands)
  obtain ⟨w', hiss, hless, hstate, hlanes⟩ := issue_less_all (busy := waitBefore (feAcc (.load t.toNat 0) (ordLd o) r a n))
    (fun _ l => (l.mark l.pc t.toNat (n / 4)).adv) _ hi hr hst (waitBefore_none fun L hL => (hpass L hL).1) hbody hw (congrArg State.pkg hrest :) hnil
  refine ⟨_, w', he, hiss, hless, ?_, ?_, ⟨fun k => due (s.fresh + k) + (s.skipped w ff).slow x.die more, fun k => Nat.le_add_right_of_le (hdue _), ?_⟩, fun L hL => ?_⟩
  · exact (congrArg (fun u : State => ({ u with lands := [], fresh := 0, teams := [], wrote := [] } : State)) hstate).trans
      (congrArg (fun u : State => ({ u.lessLands with teams := [], wrote := [] } : State)) hrest :)
  · exact (congrArg State.teams hstate :).trans ht
  · refine (congrArg State.lands hstate :).trans ?_
    unfold landsOf
    dsimp only
    rw [List.map_map, List.map_map, List.zipIdx_eq_map_add, List.map_map]
    refine congrArg (s.lands ++ ·) (List.map_congr_left fun p _ => ?_)
    simp only [Function.comp]
    rfl
  · rw [hlanes L hL]
    exact emptied_mark rfl rfl (executing_dsts (by intros; rw [hff]; rfl) (by rw [hn]; rcases feSize_cases z.toNat with h | h | h <;> rw [h] <;> decide) L hL) rfl

/-- STFE of empty granules. -/
theorem stfe_empty {t a : BitVec 7} {r : BitVec 4} {o z g : BitVec 2} {s : State} {w : Wave} {n : Nat} {ff : FormF}
    (hn : n = feSize z.toNat) (hff : ff = fStore t (n / 4) a 1 o g (!Instr.wf (.stfe t a r o z g))) (hi : Issuing s w) (hr : Ready s w ff) :
    let x := issueOf s w ff
    let tid (L : Nat) : Nat := s.spTeam x L r.toNat (mOff a x L) n
    let off (L : Nat) : Nat := mOff a x L
    let v (L : Nat) : BitVec 128 := stData x L t n (n / 4)
    (∀ L ∈ x.E, (∀ b, feAcc .store (ordSt o) r a n s x L = some b → s.ordersPend x.uid L b = false) ∧ s.spPasses x L r.toNat (off L) n) →
    Apart tid off x.E → (∀ L ∈ x.E, s.lanePend x.uid L (relWait o) = []) →
    (∀ L ∈ x.E, s.granuleFull (tid L) (off L / 16) = false ∧ s.feWaiter false (tid L) (off L / 16) = false) →
    ∃ (u : State) (w' : Wave), exec (.stfe t a r o z g) s = .next u ∧ Issued s u w w' ff ∧ w'.less = w.less ∧ u.lessScratch = s.lessScratch ∧
      u.teams = s.teams.map (fun u => u.feAll tid (feStored off n v) x.E) ∧ ∀ L ∈ x.E, Passed (w.lane L) (w'.lane L) := by
  intro x tid off v hpass hap hpend hempty
  have hbusy : waitBefore (feAcc .store (ordSt o) r a n) s x = none := waitBefore_none fun L hL => (hpass L hL).1
  have he : exec (.stfe t a r o z g) s = .next (s.issue ff (waitBefore (feAcc .store (ordSt o) r a n)) (spBody r (mOff a) n (stfeGo n t o))) := by
    refine Eq.trans ?_ (congrArg Host.Outcome.next (issueTogether_eq hi hr (fun _ => hbusy) hpend))
    rw [hff, hn]
    rfl
  obtain ⟨hw, ht, hrest⟩ := foldl_stfe (i := x) (tid := tid) (off := off) (n := n) (v := v) (o := o) x.E (s.skipped w ff)
    (executing_nodup s w ff) hap fun L hL => ⟨(hempty L hL).1, (feWaiter_of_blocked (blocked_skipped s w ff) _ _ _).trans (hempty L hL).2⟩
  have hE : executing s w ff = [] → x.E.foldl (stfeStep x tid off n v o) (s.skipped w ff) = s.skipped w ff := fun h => by
    rw [show x.E = [] from h]
    rfl
  have hfold : x.E.foldl (fun u L => stfeGo n t o x L ((s.skipped w ff).spTeam x L r.toNat (mOff a x L) n) (mOff a x L) u) (s.skipped w ff) =
      x.E.foldl (stfeStep x tid off n v o) (s.skipped w ff) := rfl
  generalize x.E.foldl (stfeStep x tid off n v o) (s.skipped w ff) = s1 at hfold hw ht hrest hE
  have hbody := spBody_quiet (r := r) (off := mOff a) (n := n) (go := stfeGo n t o) (i := x) (s := s.skipped w ff) (fun L hL => (hpass L hL).2)
    (by rw [hfold]; exact ⟨(congrArg State.accs hrest :), (congrArg State.lands hrest :)⟩)
  rw [hfold] at hbody
  obtain ⟨w', hiss, hless, hstate, hlanes⟩ := issue_less_all (busy := waitBefore (feAcc .store (ordSt o) r a n)) (fun _ => Lane.adv) s1 hi hr
    (fun L hL => (executing_unstepped hi hL).1) hbusy hbody hw (congrArg State.pkg hrest :) fun h => by rw [hE h]; rfl
  refine ⟨_, w', he, hiss, hless, ?_, (congrArg State.teams hstate :).trans ht, fun L hL => ?_⟩
  · exact (congrArg (fun u : State => ({ u with teams := [], wrote := [], writes := 0 } : State)) hstate).trans (congrArg State.lessScratch hrest :)
  · rw [hlanes L hL]
    exact ⟨rfl, ⟨rfl, rfl⟩, rfl⟩

/-- LDFE of empty granules blocks, whatever else waits. -/
theorem ldfeGo_empty {n d : Nat} {clr : Bool} {o : BitVec 2} {i : Iss} {tid off : Nat → Nat} : ∀ (Ls : List Nat) (s : State),
    (∀ L ∈ Ls, s.granuleFull (tid L) (off L / 16) = false) →
    Ls.foldl (fun u L => ldfeGo n d clr o i L (tid L) (off L) u) s =
      Ls.foldl (fun u L => (u.updLane i.uid L (fun l => l.mark l.pc d (n / 4))).block i.uid L (.ldfe (tid L) (off L) n d clr o)) s
  | [], _, _ => rfl
  | L :: Ls, s, h => by
    have hone : ldfeGo n d clr o i L (tid L) (off L) s = (s.updLane i.uid L (fun l => l.mark l.pc d (n / 4))).block i.uid L (.ldfe (tid L) (off L) n d clr o) :=
      if_neg (by rw [h L List.mem_cons_self]; exact Bool.false_ne_true)
    rw [List.foldl_cons, List.foldl_cons, hone]
    exact ldfeGo_empty Ls _ fun K hK => h K (List.mem_cons_of_mem _ hK)

/-- STFE of full granules blocks, whatever else waits. -/
theorem stfeGo_full {n : Nat} {t : BitVec 7} {o : BitVec 2} {i : Iss} {tid off : Nat → Nat} : ∀ (Ls : List Nat) (s : State),
    (∀ L ∈ Ls, s.granuleFull (tid L) (off L / 16) = true) →
    Ls.foldl (fun u L => stfeGo n t o i L (tid L) (off L) u) s =
      Ls.foldl (fun u L => (u.updLane i.uid L (fun l => l)).block i.uid L (.stfe (tid L) (off L) n (stData i L t n (n / 4)) o)) s
  | [], _, _ => rfl
  | L :: Ls, s, h => by
    have hid : s.updLane i.uid L (fun l => l) = s := by simp [State.updLane, State.updWave, updLane_id]
    have hone : stfeGo n t o i L (tid L) (off L) s = (s.updLane i.uid L (fun l => l)).block i.uid L (.stfe (tid L) (off L) n (stData i L t n (n / 4)) o) := by
      rw [hid]
      exact if_neg (by rw [h L List.mem_cons_self]; exact Bool.false_ne_true)
    rw [List.foldl_cons, List.foldl_cons, hone]
    exact stfeGo_full Ls _ fun K hK => h K (List.mem_cons_of_mem _ hK)

/-- A team's granule, or the lack of a team, as the state answers it. -/
theorem granuleFull_feAll {s u : State} {tid : Nat → Nat} {f : Nat → Team → Team} {g : Nat → Nat} {full : Bool} {Ls : List Nat} (hf : SetsGranule f g full)
    (ht : u.teams = s.teams.map (fun u => u.feAll tid f Ls)) :
    (∀ L ∈ Ls, (∃ v, s.team? (tid L) = some v) → u.granuleFull (tid L) (g L) = full) ∧
      ∀ k j, (∀ L ∈ Ls, (k, j) ≠ (tid L, g L)) → u.granuleFull k j = s.granuleFull k j := by
  refine ⟨fun L hL ⟨v, hv⟩ => granuleFull_map ht (feAll_tid hf.tid Ls) (fun v hv => feAll_in hf Ls v hL (team?_tid hv)) (fun h => by rw [hv] at h; cases h),
    fun k j h => granuleFull_map ht (feAll_tid hf.tid Ls) (fun v hv => ?_) fun hv => ?_⟩
  · rw [feAll_out hf Ls v fun L hL => by rw [team?_tid hv]; exact h L hL]
    unfold State.granuleFull
    rw [hv]
  · unfold State.granuleFull
    rw [hv]

theorem feLoaded_sets (g : Nat → Nat) : SetsGranule (feLoaded true g) g false := ⟨fun _ _ => rfl, fun _ _ _ => granuleFull_set _ _ _ _⟩

theorem feAll_noClear {tid g : Nat → Nat} (Ls : List Nat) (u : Team) : u.feAll tid (feLoaded false g) Ls = u :=
  feAll_keeps id (fun _ _ => rfl) Ls u

theorem storedBytes_mod (x : Nat) {n : Nat} (h : n = 4 ∨ n = 8 ∨ n = 16) : x % 2 ^ (8 * n) % 2 ^ 128 % 256 ^ n = x % 256 ^ n := by
  rcases h with rfl | rfl | rfl <;> omega

/-- Settles O18: granules that differ do not affect one another, so the lanes are served, or block, each as the state before them says. -/
theorem fullEmptyAccesses : Obligations.FullEmptyAccesses := by
  unfold Obligations.FullEmptyAccesses
  intro at' pre plain
  refine ⟨fun t a r o z g => ?ldFull, fun t a r o z g => ?ldEmpty, fun t a r o z g => ?stEmpty, fun t a r o z g => ?stFull⟩
  case ldFull =>
    intro n s w hi hr ⟨⟨hpass, hap⟩, hfull⟩
    let x := issueOf s w (fLoad t (n / 4) a 1 o g (!Instr.wf (.ldfe t a r o z g)))
    let tid (L : Nat) : Nat := s.spTeam x L r.toNat (mOff a x L) n
    have hpos : 0 < n := by rcases feSize_cases z.toNat with h | h | h <;> show 0 < feSize z.toNat <;> omega
    obtain ⟨u, w', he, hiss, hless, hrest, ht, hlands, hlanes⟩ := ldfe_full (n := n) rfl rfl hi hr hpass hap hfull
    have hkeeps := feLoaded_keeps (z.getLsbD 2) (fun L => mOff a x L / 16)
    refine ⟨u, w', he, hiss, hrest, hless, fun k j => ?_, hlands, ?_⟩
    · unfold State.spByte
      rw [team?_map ht (feAll_tid (fun L u => (hkeeps L u).1) x.E)]
      cases s.team? k with
      | none => rfl
      | some v => exact congrArg (fun b => byteAt b j) (feAll_keeps (f := feLoaded (z.getLsbD 2) fun L => mOff a x L / 16) Team.scratch (fun L u => (congrArg Team.scratch (hkeeps L u).2 :)) x.E v)
    · cases hz : z.getLsbD 2 with
      | true =>
        rw [hz] at ht
        obtain ⟨hin, hout⟩ := granuleFull_feAll (feLoaded_sets fun L => mOff a x L / 16) ht
        exact ⟨fun L hL => hin L hL ((spTeam_ok (hpass L hL).2).2 hpos), hout, hlanes⟩
      | false =>
        have hsame : u.teams = s.teams := by
          rw [ht, hz]
          exact (List.map_congr_left fun v _ => feAll_noClear x.E v).trans (List.map_id _)
        have hgran : ∀ k j, u.granuleFull k j = s.granuleFull k j := fun k j => by
          unfold State.granuleFull
          rw [team?_congr hsame]
        exact ⟨fun L hL => (hgran _ _).trans (hfull L hL).1, fun k j _ => hgran k j, hlanes⟩
  case ldEmpty =>
    intro n s w hi hr ⟨⟨hpass, hap⟩, hempty⟩
    let ff : FormF := fLoad t (n / 4) a 1 o g (!Instr.wf (.ldfe t a r o z g))
    let x := issueOf s w ff
    let tid (L : Nat) : Nat := s.spTeam x L r.toNat (mOff a x L) n
    let clr := z.getLsbD 2
    have hn : n / 4 ≠ 0 := by rcases feSize_cases z.toNat with h | h | h <;> show feSize z.toNat / 4 ≠ 0 <;> omega
    have hfold := ldfeGo_empty (n := n) (d := t.toNat) (clr := clr) (o := o) (i := x) (tid := tid) (off := fun L => mOff a x L) x.E (s.skipped w ff) hempty
    have hblock := foldl_block w.uid (fun _ l => l.mark l.pc t.toNat (n / 4)) (fun L => .ldfe (tid L) (mOff a x L) n t.toNat clr o) x.E (s.skipped w ff) (executing_nodup s w ff)
    have hbody := spBody_quiet (r := r) (off := mOff a) (n := n) (go := ldfeGo n t.toNat clr o) (i := x) (s := s.skipped w ff) (fun L hL => (hpass L hL).2)
      (by
        refine (congrArg (fun u : State => u.accs = s.accs ∧ u.lands = s.lands) (hfold.trans hblock)).mpr ⟨rfl, rfl⟩)
    obtain ⟨w', hiss, hrest, hless, hlanes⟩ := blockIssue (busy := waitBefore (feAcc (.load t.toNat 0) (ordLd o) r a n)) (fun _ l => l.mark l.pc t.toNat (n / 4))
      (fun L => .ldfe (tid L) (mOff a x L) n t.toNat clr o) hi hr (fun L l => by obtain ⟨rs, e⟩ := mark_eq l.pc (n / 4) t.toNat l; rw [e])
      (fun _ => waitBefore_none fun L hL => (hpass L hL).1) fun _ => hbody.trans (congrArg (·, []) hfold)
    refine ⟨_, w', rfl, hiss, hrest, hless, fun L hL => ?_⟩
    obtain ⟨k, hk⟩ := hlanes L hL
    obtain ⟨rs, e⟩ := mark_eq (w.lane L).pc (n / 4) t.toNat (w.lane L)
    refine ⟨by rw [hk]; rfl, by rw [hk, e]; rfl, fun j hj => ?_⟩
    rw [hk]
    show ((Lane.mark _ _ _ _).reg _).full = false
    rw [reg_mark _ _ _ _ _ (executing_dsts (fun _ _ => rfl) hn L hL), if_pos ⟨Nat.le_add_right _ _, Nat.add_lt_add_left hj _⟩]
  case stEmpty =>
    intro n s w hi hr ⟨⟨hpass, hap⟩, hwf, hready⟩
    let x := issueOf s w (fStore t (n / 4) a 1 o g (!Instr.wf (.stfe t a r o z g)))
    let tid (L : Nat) : Nat := s.spTeam x L r.toNat (mOff a x L) n
    let off (L : Nat) : Nat := mOff a x L
    let v (L : Nat) : BitVec 128 := stData x L t n (n / 4)
    have hsize : n = 4 ∨ n = 8 ∨ n = 16 := feSize_cases z.toNat
    have hpos : 0 < n := by omega
    obtain ⟨u, w', he, hiss, hless, hrest, ht, hlanes⟩ := stfe_empty (n := n) rfl rfl hi hr hpass hap (fun L hL => (hready L hL).1) fun L hL => (hready L hL).2
    have hsets := feStored_sets off n v
    obtain ⟨hin, hout⟩ := granuleFull_feAll hsets ht
    refine ⟨u, w', he, hiss, hrest, hless, fun L hL => ?_, fun k j h => ?_, fun L hL => hin L hL ((spTeam_ok (hpass L hL).2).2 hpos), hout, hlanes⟩
    · obtain ⟨q, hq⟩ := (spTeam_ok (hpass L hL).2).2 hpos
      unfold State.spRd
      rw [team?_map ht (feAll_tid hsets.tid x.E), hq]
      show leNat (bytesAt _ (off L) n) = _
      rw [feAll_scratch_in hsize x.E q hap (fun K hK => (spTeam_ok (hpass K hK).2).1) hL (executing_nodup _ _ _) (team?_tid hq) (hwf q (List.mem_of_find?_eq_some hq)),
        leNat_leBytes]
      show (BitVec.ofNat 128 ((x.l L).words t.toNat (n / 4) % 2 ^ (8 * n))).toNat % 256 ^ n = _
      rw [BitVec.toNat_ofNat]
      exact storedBytes_mod _ hsize
    · unfold State.spByte
      rw [team?_map ht (feAll_tid hsets.tid x.E)]
      cases hq : s.team? k with
      | none => rfl
      | some q => exact feAll_scratch_out x.E q fun L hL hqt => h L hL ((team?_tid hq).symm.trans hqt)
  case stFull =>
    intro n s w hi hr ⟨⟨hpass, hap⟩, hready⟩
    let ff : FormF := fStore t (n / 4) a 1 o g (!Instr.wf (.stfe t a r o z g))
    let x := issueOf s w ff
    let tid (L : Nat) : Nat := s.spTeam x L r.toNat (mOff a x L) n
    let wt (L : Nat) : Wait := .stfe (tid L) (mOff a x L) n (stData x L t n (n / 4)) o
    have hbusy : waitBefore (feAcc .store (ordSt o) r a n) s x = none := waitBefore_none fun L hL => (hpass L hL).1
    have hfold := stfeGo_full (n := n) (t := t) (o := o) (i := x) (tid := tid) (off := fun L => mOff a x L) x.E (s.skipped w ff) fun L hL => (hready L hL).2
    have hblock := foldl_block w.uid (fun _ l => l) wt x.E (s.skipped w ff) (executing_nodup s w ff)
    have hbody := spBody_quiet (r := r) (off := mOff a) (n := n) (go := stfeGo n t o) (i := x) (s := s.skipped w ff) (fun L hL => (hpass L hL).2)
      (by
        refine (congrArg (fun u : State => u.accs = s.accs ∧ u.lands = s.lands) (hfold.trans hblock)).mpr ⟨rfl, rfl⟩)
    obtain ⟨w', hiss, hrest, hless, hlanes⟩ := blockIssue (busy := waitBefore (feAcc .store (ordSt o) r a n)) (fun _ l => l) wt hi hr (fun _ _ => rfl)
      (fun _ => hbusy) fun _ => hbody.trans (congrArg (·, []) hfold)
    refine ⟨_, w', congrArg Host.Outcome.next (issueTogether_eq hi hr (fun _ => hbusy) fun L hL => (hready L hL).1), hiss,
      (congrArg (fun u : State => ({ u with wrote := [] } : State)) hrest :), hless, fun L hL => ?_⟩
    obtain ⟨k, hk⟩ := hlanes L hL
    rw [hk]
    exact ⟨rfl, rfl, rfl⟩

end Sys2Proof.Machine

/-!
PROOFS. Machines for counterexamples, and CSTORE to a device page (O19).
-/

namespace Sys2Proof.Machine

/-! ## One wave of one team, at word 0 of its code (R181) -/

/-- The machine after reset, its one wave made of these lanes. -/
def trial (lanes : List Lane) : State :=
  { (State.reset.withFetchWord 32 0) with agenda := [], cur := some 3, cycle := 100, mem := [], waves := [{ bareWave with lanes := lanes }] }
/-- A new lane with these registers. -/
def trialLane (rs : List (Nat × Word)) : Lane := rs.foldl (fun l x => l.set x.1 x.2) (newLane 128 0)
/-- The wave of such a machine. -/
def State.trialWave (s : State) : Wave := (s.wave? 3).getD bareWave

/-- The wave issues an instruction of this form, every lane of its minimum-PC set executing it. -/
def issuesB (s : State) (ff : FormF) : Bool :=
  let w := s.trialWave
  s.cur == some w.uid && s.wave? w.uid == some w && w.minSet != [] && w.lanes.all (fun l => !l.stepping && !l.stepped) &&
    w.minSet.all (fun L => fate s w ff (w.lane L) == .run)

theorem issues_of_bool {s : State} {ff : FormF} (h : issuesB s ff = true) : Issuing s s.trialWave ∧ Ready s s.trialWave ff := by
  simp only [issuesB, Bool.and_eq_true, beq_iff_eq, bne_iff_ne, ne_eq, List.all_eq_true, Bool.not_eq_true'] at h
  obtain ⟨⟨⟨⟨h1, h2⟩, h3⟩, h4⟩, h5⟩ := h
  exact ⟨⟨h1, h2, h3, h4⟩, fun L hL => .inl (h5 L hL)⟩

/-- What is read of the state that an instruction leaves. -/
def State.leaves {α : Type} (s : State) (i : Instr) (f : State → α) : Option α := match exec i s with | .next t => some (f t) | _ => none

theorem leaves_of_next {α : Type} {s t : State} {i : Instr} (f : State → α) {a : α} (h : exec i s = .next t) (ha : s.leaves i f = some a) : f t = a := by
  unfold State.leaves at ha
  rw [h] at ha
  exact Option.some.inj ha

/-- The translation lets the access through. -/
def Xl.isOk : Xl → Bool
  | .ok _ _ => true
  | _ => false
theorem passes_of_bool {s : State} {x : Iss} {va n : Nat} {k : AccKind} (h : (va % n == 0 && (s.laneXl x va n k).isOk) = true) : s.passes x va n n k := by
  rw [Bool.and_eq_true, beq_iff_eq] at h
  obtain ⟨hal, hok⟩ := h
  refine ⟨hal, ?_⟩
  cases hx : s.laneXl x va n k with
  | ok pa e => exact ⟨pa, e, rfl⟩
  | misaligned => rw [hx] at hok; cases hok
  | fault c => rw [hx] at hok; cases hok
  | access d => rw [hx] at hok; cases hok

/-! ## CSTORE to a page of device registers (R98) -/

/-- A lane with claim 1 of its CSTORE, whose header stands on a page of device registers. -/
def deviceClaim : State :=
  let s := trial [{ trialLane [(1, 0x10100), (4, 5)] with claim := some 1 }]
  { s with tlb := s.tlb.map (fun e => { e with leaf := e.leaf ||| 0x40 }) }

/-- Refutes O19: a store may go to a device register, but an element of a CSTORE may not (R98), so a lane with a claim whose slot stands there sends nothing. -/
theorem not_countedStore : ¬ Obligations.CountedStore := by
  unfold Obligations.CountedStore
  rintro ⟨-, h⟩
  let i : Instr := .cstore 4 1 0 0 2 0
  let ff : FormF := fStore 4 (widthOf 2).2.1 1 2 0 0 (!Instr.wf i)
  let x := issueOf deviceClaim deviceClaim.trialWave ff
  obtain ⟨hi, hr⟩ := issues_of_bool (s := deviceClaim) (ff := ff) (by decide +kernel)
  have hE : x.E = [0] := by decide +kernel
  have hclaimed : x.claimed.E = [0] := by decide +kernel
  have hpend : deviceClaim.lanePend x.uid 0 (relWait 0) = [] := by decide +kernel
  have hpass : deviceClaim.passes x (elemVa 0 1 (widthOf 2).1 x 0) (widthOf 2).1 (widthOf 2).1 .store := passes_of_bool (by decide +kernel)
  obtain ⟨t, w', he, -, -, -, hfresh, -⟩ := h 4 1 0 0 2 0 deviceClaim deviceClaim.trialWave hi hr
    ⟨by rw [show Iss.claimed _ = x.claimed from rfl, hclaimed]; exact List.cons_ne_nil _ _, fun L hL => by
      rw [List.mem_singleton.mp (hE.subst (motive := (L ∈ ·)) hL)]; exact hpend, fun L hL => by rw [List.mem_singleton.mp (hclaimed.subst (motive := (L ∈ ·)) hL)]; exact hpass⟩
  have hsame : t.fresh = deviceClaim.fresh := leaves_of_next State.fresh he (by decide +kernel)
  rw [hsame, show Iss.claimed _ = x.claimed from rfl, hclaimed] at hfresh
  exact absurd hfresh (by decide)

end Sys2Proof.Machine

/-!
PROOFS. LOCK and UNLOCK (O20).
-/

namespace Sys2Proof.Machine

/-! ## Instructions with several lines for each lane (R320) -/

theorem laneXls_skipped (s : State) (w : Wave) (ff ff' : FormF) (k : AccKind) : ∀ vas : List (Nat × Nat),
    (s.skipped w ff).laneXls (issueOf s w ff') k vas = s.laneXls (issueOf s w ff') k vas
  | [] => rfl
  | (va, n) :: vas => by
    unfold State.laneXls
    rw [laneXls_skipped s w ff ff' k vas, laneXl_skipped]

/-- What a lane does before its access: an access that writes marks its pages. -/
def State.touchedAll (s : State) (i : Iss) (k : AccKind) (vas : List (Nat × Nat)) : State :=
  if k.writes then vas.foldl (fun s v => s.setDirty i.die i.c v.1) s else s

theorem memBodyN_passes {k : AccKind} {vas : Iss → Nat → List (Nat × Nat)} {dst : Nat × Nat} {go : Iss → Nat → List (Nat × Pte) → State → State} {i : Iss} {s : State}
    (ps : Nat → List (Nat × Pte)) (h : ∀ L ∈ i.E, s.laneXls i k (vas i L) = .ok (ps L)) :
    memBodyN k vas dst go i s = (i.E.foldl (fun u L => go i L (ps L) (u.touchedAll i k (vas i L))) s, []) := by
  have hxs : i.E.map (fun L => (L, s.laneXls i k (vas i L))) = i.E.map (fun L => (L, Xls.ok (ps L))) :=
    List.map_congr_left fun L hL => by rw [h L hL]
  unfold memBodyN
  rw [hxs]
  simp only [List.foldl_map, List.filterMap_map]
  have hnone : ∀ {α : Type} (f : Nat × Xls → Option α), (∀ L qs, f (L, Xls.ok qs) = none) → i.E.filterMap (f ∘ fun L => (L, Xls.ok (ps L))) = [] := fun f hf =>
    List.filterMap_eq_nil_iff.mpr fun L _ => hf _ _
  rw [hnone _ fun _ _ => rfl, hnone _ fun _ _ => rfl]
  rfl

theorem laneXls_ok {s : State} {i : Iss} {k : AccKind} : ∀ {vas : List (Nat × Nat)} {ps : List (Nat × Pte)}, s.laneXls i k vas = .ok ps →
    ∀ v ∈ vas, ∃ pa e, s.laneXl i v.1 v.2 k = .ok pa e
  | (va, n) :: vas, ps, h, v, hv => by
    unfold State.laneXls at h
    cases hx : s.laneXl i va n k with
    | ok pa e =>
      rw [hx] at h
      rcases List.mem_cons.mp hv with rfl | hmem
      · exact ⟨pa, e, hx⟩
      · cases hr : s.laneXls i k vas with
        | ok qs => exact laneXls_ok hr v hmem
        | bad va' x' => rw [hr] at h; cases h
    | misaligned => rw [hx] at h; cases h
    | fault c => rw [hx] at h; cases h
    | access d => rw [hx] at h; cases h

/-! ## Lines locked and released (R112, R113) -/

/-- The machine with other waves, results on their way and fresh number. -/
def State.withRun (s : State) (ws : List Wave) (ls : List Land) (fr : Nat) : State := { s with waves := ws, lands := ls, fresh := fr }

/-- The line counts as it is: it is not local memory, or the context holds it on the die. -/
def State.lockCounts (s : State) (die c : Nat) (p : Nat × Pte) : Bool :=
  p.2.type != 0 || s.locks.any (fun k => (k.ctx == c && k.die == die) && k.line == p.1 / 128)
/-- The line cannot be locked: an earlier one was not, the quota is used up, or its set is full. -/
def State.lockStops (s : State) (die c : Nat) (stopped : Bool) (pa : Nat) : Bool :=
  stopped || decide ((s.ctx c).lockquota ≤ (s.locks.filter (fun k => k.ctx == c && k.die == die)).length) || s.setFull die pa
/-- The line is locked. -/
def State.lockLine (s : State) (die c pa : Nat) : State := { s with locks := s.locks ++ [{ ctx := c, die := die, line := pa / 128 }] }

theorem lockGo_counts {s : State} {die c : Nat} {st : Bool} {p : Nat × Pte} {ps : List (Nat × Pte)} (h : s.lockCounts die c p = true) :
    s.lockGo die c st (p :: ps) = ((s.lockGo die c st ps).1 + 1, (s.lockGo die c st ps).2) := by
  obtain ⟨pa, e⟩ := p
  exact (if_pos h).trans rfl
theorem lockGo_stops {s : State} {die c : Nat} {st : Bool} {p : Nat × Pte} {ps : List (Nat × Pte)} (h : s.lockCounts die c p = false)
    (hs : s.lockStops die c st p.1 = true) : s.lockGo die c st (p :: ps) = s.lockGo die c true ps := by
  obtain ⟨pa, e⟩ := p
  exact (if_neg (ne_true_of_eq_false h)).trans (if_pos hs)
theorem lockGo_locks {s : State} {die c : Nat} {st : Bool} {p : Nat × Pte} {ps : List (Nat × Pte)} (h : s.lockCounts die c p = false)
    (hs : s.lockStops die c st p.1 = false) :
    s.lockGo die c st (p :: ps) = (((s.lockLine die c p.1).lockGo die c st ps).1 + 1, ((s.lockLine die c p.1).lockGo die c st ps).2) := by
  obtain ⟨pa, e⟩ := p
  exact (if_neg (ne_true_of_eq_false h)).trans (if_neg (ne_true_of_eq_false hs))

theorem lockGo_run (die c : Nat) (ws : List Wave) (ls : List Land) (fr : Nat) : ∀ (ps : List (Nat × Pte)) (s : State) (st : Bool),
    (s.withRun ws ls fr).lockGo die c st ps = ((s.lockGo die c st ps).1, (s.lockGo die c st ps).2.withRun ws ls fr)
  | [], _, _ => rfl
  | p :: ps, s, st => by
    cases hc : s.lockCounts die c p with
    | true => rw [lockGo_counts hc, lockGo_counts (s := s.withRun ws ls fr) hc, lockGo_run die c ws ls fr ps s st]
    | false =>
      cases hs : s.lockStops die c st p.1 with
      | true => rw [lockGo_stops hc hs, lockGo_stops (s := s.withRun ws ls fr) hc hs, lockGo_run die c ws ls fr ps s true]
      | false =>
        rw [lockGo_locks hc hs, lockGo_locks (s := s.withRun ws ls fr) hc hs]
        rw [show (s.withRun ws ls fr).lockLine die c p.1 = (s.lockLine die c p.1).withRun ws ls fr from rfl, lockGo_run die c ws ls fr ps]

/-- A line that counts goes on counting as locks are added; without a change of locks nothing changes. -/
theorem lockCounts_append {s t : State} {die c : Nat} {p : Nat × Pte} {new : List Lock} (h : t.locks = s.locks ++ new) (hc : s.lockCounts die c p = true) :
    t.lockCounts die c p = true := by
  unfold State.lockCounts at hc ⊢
  rw [h, List.any_append]
  rw [Bool.or_eq_true] at hc ⊢
  exact hc.imp_right fun e => by rw [e]; rfl
theorem lockCounts_same {s t : State} {die c : Nat} {p : Nat × Pte} (h : t.locks = s.locks) : t.lockCounts die c p = s.lockCounts die c p := by
  unfold State.lockCounts
  rw [h]
theorem lockCounts_lockLine (s : State) (die c : Nat) (p : Nat × Pte) : (s.lockLine die c p.1).lockCounts die c p = true := by
  unfold State.lockCounts State.lockLine
  rw [List.any_append]
  simp

/-- What LOCK leaves of the machine, and how it counts. -/
theorem lockGo_spec (die c : Nat) : ∀ (ps : List (Nat × Pte)) (s : State) (st : Bool),
    let q := s.lockGo die c st ps
    let mine (k : State) : Nat := (k.locks.filter (fun x => x.ctx == c && x.die == die)).length
    q.2 = { s with locks := q.2.locks } ∧
      (∃ new, q.2.locks = s.locks ++ new ∧ ∀ k ∈ new, k.ctx = c ∧ k.die = die ∧ ∃ p ∈ ps, p.1 / 128 = k.line ∧ p.2.type = 0) ∧
      (st = true → q.2.locks = s.locks) ∧ q.1 = (ps.filter (fun p => q.2.lockCounts die c p)).length ∧ mine q.2 ≤ max (mine s) (s.ctx c).lockquota
  | [], s, _ => ⟨rfl, ⟨[], (List.append_nil _).symm, fun _ h => by cases h⟩, fun _ => rfl, rfl, le_max_left _ _⟩
  | p :: ps, s, st => by
    cases hc : s.lockCounts die c p with
    | true =>
      obtain ⟨hrest, ⟨new, hnew, hnamed⟩, hst, hcount, hquota⟩ := lockGo_spec die c ps s st
      rw [lockGo_counts hc]
      refine ⟨hrest, ⟨new, hnew, fun k hk => ?_⟩, hst, ?_, hquota⟩
      · obtain ⟨h1, h2, q, hq, hline⟩ := hnamed k hk
        exact ⟨h1, h2, q, List.mem_cons_of_mem _ hq, hline⟩
      · rw [List.filter_cons_of_pos (lockCounts_append hnew hc), List.length_cons, hcount]
    | false =>
      cases hs : s.lockStops die c st p.1 with
      | true =>
        obtain ⟨hrest, ⟨new, hnew, hnamed⟩, hst, hcount, hquota⟩ := lockGo_spec die c ps s true
        rw [lockGo_stops hc hs]
        refine ⟨hrest, ⟨new, hnew, fun k hk => ?_⟩, fun _ => hst rfl, ?_, hquota⟩
        · obtain ⟨h1, h2, q, hq, hline⟩ := hnamed k hk
          exact ⟨h1, h2, q, List.mem_cons_of_mem _ hq, hline⟩
        · rw [List.filter_cons_of_neg (by rw [lockCounts_same (hst rfl), hc]; exact Bool.false_ne_true), hcount]
      | false =>
        obtain ⟨hrest, ⟨new, hnew, hnamed⟩, _, hcount, hquota⟩ := lockGo_spec die c ps (s.lockLine die c p.1) st
        unfold State.lockStops at hs
        rw [Bool.or_eq_false_iff, Bool.or_eq_false_iff, decide_eq_false_iff_not] at hs
        obtain ⟨⟨hst, hroom⟩, hset⟩ := hs
        have hfree : s.lockStops die c st p.1 = false := by
          unfold State.lockStops
          rw [hst, hset, decide_eq_false hroom]
          rfl
        have htype : p.2.type = 0 := by
          unfold State.lockCounts at hc
          rw [Bool.or_eq_false_iff, bne_eq_false_iff_eq] at hc
          exact hc.1
        rw [lockGo_locks hc hfree]
        refine ⟨hrest.trans rfl, ⟨({ ctx := c, die := die, line := p.1 / 128 } : Lock) :: new, ?_, fun k hk => ?_⟩, fun h => ?_, ?_, ?_⟩
        · exact hnew.trans (List.append_assoc _ _ _)
        · rcases List.mem_cons.mp hk with rfl | hmem
          · exact ⟨rfl, rfl, p, List.mem_cons_self, rfl, htype⟩
          · obtain ⟨h1, h2, q, hq, hline⟩ := hnamed k hmem
            exact ⟨h1, h2, q, List.mem_cons_of_mem _ hq, hline⟩
        · rw [hst] at h
          cases h
        · rw [List.filter_cons_of_pos (lockCounts_append hnew (lockCounts_lockLine s die c p)), List.length_cons, hcount]
        · refine hquota.trans (max_le ?_ (le_max_right _ _))
          refine le_max_of_le_right ?_
          let k : Lock := { ctx := c, die := die, line := p.1 / 128 }
          show ((s.locks ++ [k]).filter (fun x => x.ctx == c && x.die == die)).length ≤ (s.ctx c).lockquota
          rw [List.filter_append, List.length_append]
          have hone : ([k].filter (fun x => x.ctx == c && x.die == die)).length ≤ 1 := List.length_filter_le _ _
          omega

/-- What UNLOCK leaves of the machine, and how it counts (R113). -/
theorem unlockGo_spec (s : State) (c : Nat) (ps : List (Nat × Pte)) :
    let q := s.unlockGo c ps
    let named (k : Lock) : Prop := k.ctx = c ∧ ∃ p ∈ ps, p.1 / 128 = k.line
    q.2 = { s with locks := q.2.locks } ∧ (∀ k, k ∈ q.2.locks ↔ k ∈ s.locks ∧ ¬ named k) ∧
      ∃ lines : List Nat, lines.Nodup ∧ q.1 = lines.length ∧ ∀ n, n ∈ lines ↔ ∃ k ∈ s.locks, named k ∧ k.line = n := by
  intro q named
  have hhit : ∀ k : Lock, (k.ctx == c && ps.any (fun p => p.1 / 128 == k.line)) = true ↔ named k := fun k => by simp [named]
  refine ⟨rfl, fun k => ?_, _, nodup_eraseDups _, rfl, fun n => ?_⟩
  · refine List.mem_filter.trans (and_congr_right fun _ => ?_)
    rw [Bool.not_eq_true', ← Bool.not_eq_true, hhit]
  · rw [List.mem_eraseDups, List.mem_map]
    simp only [List.mem_filter, hhit, and_assoc]

theorem unlockGo_run (c : Nat) (ws : List Wave) (ls : List Land) (fr : Nat) (ps : List (Nat × Pte)) (s : State) :
    (s.withRun ws ls fr).unlockGo c ps = ((s.unlockGo c ps).1, (s.unlockGo c ps).2.withRun ws ls fr) := rfl

/-! ## The answers of LOCK and UNLOCK (R336) -/

/-- An operation on locks that does not look at waves and results. -/
structure LockOp (f : State → List (Nat × Pte) → Nat × State) : Prop where
  run : ∀ s ps ws ls fr, f (s.withRun ws ls fr) ps = ((f s ps).1, (f s ps).2.withRun ws ls fr)
  rest : ∀ s ps, (f s ps).2 = { s with locks := (f s ps).2.locks }

/-- One lane of LOCK or UNLOCK as the model performs it. -/
def lockStep (f : State → List (Nat × Pte) → Nat × State) (i : Iss) (d : Nat) (ps : Nat → List (Nat × Pte)) (u : State) (L : Nat) : State :=
  ((f u (ps L)).2.goOn i L (d, 1)).addLand i.uid L d [lo32 (f u (ps L)).1] ((f u (ps L)).2.replyDue i.die) (i.l L).pc false

/-- Lanes that lock or release lines, one after another. -/
theorem foldl_lock {f : State → List (Nat × Pte) → Nat × State} (hf : LockOp f) (i : Iss) (d : Nat) (ps : Nat → List (Nat × Pte)) (due : Nat) :
    ∀ (Ls : List Nat) (s : State) (ws : List Wave) (ls : List Land) (fr : Nat), s.replyDue i.die = due →
      let q := lockSeq (fun s L => f s (ps L)) s Ls
      Ls.foldl (lockStep f i d ps) (s.withRun ws ls fr) =
        q.2.withRun ((s.withRun ws ls fr).updWave i.uid (fun v => Ls.foldl (fun v L => v.updLane L (fun l => (l.mark l.pc d 1).adv)) v)).waves
          (ls ++ ((Ls.zip q.1).zipIdx fr).map (fun p => { id := p.2, uid := i.uid, lane := p.1.1, d, vals := [lo32 p.1.2], due, pc := (i.l p.1.1).pc }))
          (fr + Ls.length) ∧ q.2 = { s with locks := q.2.locks } ∧ q.1.length = Ls.length
  | [], s, ws, ls, fr, _ => ⟨by simp [State.withRun, State.updWave, lockSeq], rfl, rfl⟩
  | L :: Ls, s, ws, ls, fr, hdue => by
    have hrest := hf.rest s (ps L)
    have hone : lockStep f i d ps (s.withRun ws ls fr) L = (f s (ps L)).2.withRun
        ((s.withRun ws ls fr).updWave i.uid (fun v => v.updLane L (fun l => (l.mark l.pc d 1).adv))).waves
        (ls ++ [{ id := fr, uid := i.uid, lane := L, d, vals := [lo32 (f s (ps L)).1], due, pc := (i.l L).pc }]) (fr + 1) := by
      have hdue' : ((f s (ps L)).2.withRun ws ls fr).replyDue i.die = due := by
        rw [hrest]
        exact hdue
      unfold lockStep
      rw [hf.run]
      dsimp only
      rw [hdue']
      rfl
    obtain ⟨h1, h2, h3⟩ := foldl_lock hf i d ps due Ls (f s (ps L)).2
      ((s.withRun ws ls fr).updWave i.uid (fun v => v.updLane L (fun l => (l.mark l.pc d 1).adv))).waves
      (ls ++ [{ id := fr, uid := i.uid, lane := L, d, vals := [lo32 (f s (ps L)).1], due, pc := (i.l L).pc }]) (fr + 1) (by rw [hrest]; exact hdue)
    refine ⟨?_, h2.trans (congrArg (fun u : State => ({ u with locks := (lockSeq (fun s L => f s (ps L)) (f s (ps L)).2 Ls).2.locks } : State)) hrest :), congrArg (· + 1) h3⟩
    rw [List.foldl_cons, hone, h1]
    have hwaves : (((f s (ps L)).2.withRun ((s.withRun ws ls fr).updWave i.uid (fun v => v.updLane L (fun l => (l.mark l.pc d 1).adv))).waves
        (ls ++ [{ id := fr, uid := i.uid, lane := L, d, vals := [lo32 (f s (ps L)).1], due, pc := (i.l L).pc }]) (fr + 1)).updWave i.uid
        (fun v => Ls.foldl (fun v L => v.updLane L (fun l => (l.mark l.pc d 1).adv)) v)).waves =
        ((s.withRun ws ls fr).updWave i.uid (fun v => (L :: Ls).foldl (fun v L => v.updLane L (fun l => (l.mark l.pc d 1).adv)) v)).waves :=
      (congrArg State.waves (updWave_updWave (s.withRun ws ls fr) i.uid (fun v => v.updLane L (fun l => (l.mark l.pc d 1).adv))
        (fun v => Ls.foldl (fun v L => v.updLane L (fun l => (l.mark l.pc d 1).adv)) v) fun _ => rfl) :)
    rw [hwaves, List.append_assoc, Nat.add_assoc, Nat.add_comm 1]
    rfl

theorem linesAt_ok {s : State} {x : Iss} {vas : List (Nat × Nat)} {ps : List (Nat × Pte)} (h : s.laneXls x .load vas = .ok ps) : s.linesAt x vas = ps := by
  unfold State.linesAt
  rw [h]

/-- The lines are found without a look at the locks. -/
theorem laneXls_locks (s : State) (ls : List Lock) (x : Iss) (k : AccKind) : ∀ vas : List (Nat × Nat),
    ({ s with locks := ls } : State).laneXls x k vas = s.laneXls x k vas
  | [] => rfl
  | (va, n) :: vas => by
    unfold State.laneXls
    rw [laneXls_locks s ls x k vas]
    rfl

theorem linesAt_locks {s u : State} {ls : List Lock} (h : u = { s with locks := ls }) (x : Iss) (vas : List (Nat × Nat)) : u.linesAt x vas = s.linesAt x vas := by
  subst h
  unfold State.linesAt
  rw [laneXls_locks]

theorem lockSeq_linesAt {f : State → List (Nat × Pte) → Nat × State} (hf : LockOp f) (s : State) (x : Iss) (vas : Nat → List (Nat × Nat)) : ∀ (Ls : List Nat) (u : State) (ls : List Lock),
    u = { s with locks := ls } → lockSeq (fun u L => f u (u.linesAt x (vas L))) u Ls = lockSeq (fun u L => f u (s.linesAt x (vas L))) u Ls
  | [], _, _, _ => rfl
  | L :: Ls, u, ls, hu => by
    unfold lockSeq
    dsimp only
    have hnext : (f u (s.linesAt x (vas L))).2 = { s with locks := (f u (s.linesAt x (vas L))).2.locks } := by
      refine (hf.rest u _).trans ?_
      rw [hu]
    rw [linesAt_locks hu, lockSeq_linesAt hf s x vas Ls _ _ hnext]

/-- LOCK or UNLOCK of lines that pass their checks. -/
theorem lockOp_issues {i : Instr} {t a : BitVec 7} {r : BitVec 4} {g : BitVec 2} {f : State → Nat → Nat → List (Nat × Pte) → Nat × State}
    (he : ∀ s, exec i s = .next (lockOp (!Instr.wf i) f t a r g s)) (hf : ∀ d c, LockOp (fun s ps => f s d c ps)) :
    Issues i (fLock t a g (!Instr.wf i)) (fun s x => ∀ L ∈ x.E, ∃ ps, s.laneXls x .load (lockLines t r a x L) = .ok ps)
      (fun s => { s.lessLands with locks := [] })
      (fun s x w s' w' =>
        let q := lockSeq (fun s L => f s x.die x.c (s.linesAt x (lockLines t r a x L))) s x.E
        w'.less = w.less ∧ s'.locks = q.2.locks ∧ s'.fresh = s.fresh + x.E.length ∧
        s'.lands = s.lands ++ (x.E.zip q.1).zipIdx.map (fun p =>
          { id := s.fresh + p.2, uid := x.uid, lane := p.1.1, d := t.toNat, vals := [lo32 p.1.2], due := s.replyDue x.die, pc := (x.l p.1.1).pc }) ∧
        ∀ L ∈ x.E, Emptied (w.lane L) (w'.lane L) t.toNat 1) := by
  intro s w hi hr hpass
  let ff := fLock t a g (!Instr.wf i)
  let x := issueOf s w ff
  let ps (L : Nat) : List (Nat × Pte) := s.linesAt x (lockLines t r a x L)
  have hps : ∀ L ∈ x.E, s.laneXls x .load (lockLines t r a x L) = .ok (ps L) := fun L hL => by
    obtain ⟨qs, hq⟩ := hpass L hL
    exact hq.trans (congrArg Xls.ok (linesAt_ok hq).symm)
  let fc (u : State) (qs : List (Nat × Pte)) : Nat × State := f u x.die x.c qs
  have hbusy : needPages (fun i => i.E.flatMap (fun L => (lockLines t r a i L).map (fun x => x.1))) s x = none :=
    needPages_none (unwalked_nil fun v hv => by
      obtain ⟨L, hL, hv⟩ := List.mem_flatMap.mp hv
      obtain ⟨p, hp, rfl⟩ := List.mem_map.mp hv
      obtain ⟨pa, e, hok⟩ := laneXls_ok (hps L hL) p hp
      exact ⟨p.2, .load, pa, e, hok⟩)
  have hbody := memBodyN_passes (k := .load) (vas := lockLines t r a) (dst := (t.toNat, 1)) (go := fun i L ps s =>
    let (n, s1) := f s i.die i.c ps
    (s1.goOn i L (t.toNat, 1)).addLand i.uid L t.toNat [lo32 n] (s.replyDue i.die) (i.l L).pc false) (i := x) (s := s.skipped w ff) ps
    fun L hL => (laneXls_skipped s w ff ff .load _).trans (hps L hL)
  obtain ⟨hfold, hrest, hlen⟩ := foldl_lock (hf x.die x.c) x t.toNat ps (s.replyDue x.die) x.E s (s.skipped w ff).waves s.lands s.fresh rfl
  have hstep : (fun (u : State) L => (((fc u (ps L)).2.goOn x L (t.toNat, 1)).addLand x.uid L t.toNat [lo32 (fc u (ps L)).1] (u.replyDue x.die) (x.l L).pc false)) =
      lockStep fc x t.toNat ps := by
    funext u L
    have hdue : u.replyDue x.die = (fc u (ps L)).2.replyDue x.die := by
      rw [(hf x.die x.c).rest u (ps L)]
      rfl
    rw [hdue]
    rfl
  have hrun := hbody.trans (congrArg (fun g => (x.E.foldl g (s.skipped w ff), ([] : Traps))) hstep)
  have hskip : s.skipped w ff = s.withRun (s.skipped w ff).waves s.lands s.fresh := rfl
  rw [hskip] at hrun
  rw [hfold] at hrun
  have hseq : lockSeq (fun u L => fc u (ps L)) s x.E = lockSeq (fun u L => f u x.die x.c (u.linesAt x (lockLines t r a x L))) s x.E :=
    (lockSeq_linesAt (hf x.die x.c) s x (lockLines t r a x) x.E s s.locks rfl).symm
  generalize hq : lockSeq (fun u L => fc u (ps L)) s x.E = q at hrun hseq hrest hlen
  let ls : List Land := s.lands ++ ((x.E.zip q.1).zipIdx s.fresh).map
    (fun p => { id := p.2, uid := x.uid, lane := p.1.1, d := t.toNat, vals := [lo32 p.1.2], due := s.replyDue x.die, pc := (x.l p.1.1).pc })
  have hst : ∀ L ∈ executing s w ff, ((w.lane L).mark (w.lane L).pc t.toNat 1).adv.stepped = false := fun L hL => by
    obtain ⟨rs, e⟩ := mark_eq (w.lane L).pc 1 t.toNat (w.lane L)
    rw [e]
    exact (executing_unstepped hi hL).1
  have hnil : executing s w ff = [] → (q.2.withRun ((s.skipped w ff).updWave x.uid
      (fun v => x.E.foldl (fun v L => v.updLane L (fun l => (l.mark l.pc t.toNat 1).adv)) v)).waves ls (s.fresh + x.E.length)).less = s.less := fun h => by
    have hE : x.E = [] := h
    have hnone : q.2 = s := by
      rw [← hq, hE]
      rfl
    have hlands : ls = s.lands := by
      show s.lands ++ List.map _ (List.zipIdx (x.E.zip q.1) _) = _
      rw [hE]
      exact List.append_nil _
    rw [hnone, hlands, hE]
    rfl
  obtain ⟨w', hiss, hless, hstate, hlanes⟩ := issue_less_all (fun _ l => (l.mark l.pc t.toNat 1).adv) _ hi hr hst hbusy hrun rfl (congrArg State.pkg hrest :) hnil
  refine ⟨_, w', he s, hiss, ?_, hless, ?_, (congrArg State.fresh hstate :), ?_, fun L hL => ?_⟩
  · refine (congrArg (fun u : State => ({ u.lessLands with locks := [] } : State)) hstate).trans ?_
    exact (congrArg (fun u : State => ({ u.less.lessLands with locks := [] } : State)) hrest :)
  · exact (congrArg State.locks hstate :).trans (congrArg (fun q => q.2.locks) hseq)
  · refine (congrArg State.lands hstate :).trans ?_
    rw [← hseq]
    show s.lands ++ _ = _
    rw [List.zipIdx_eq_map_add, List.map_map]
    refine congrArg (s.lands ++ ·) (List.map_congr_left fun p _ => ?_)
    rfl
  · rw [hlanes L hL]
    exact emptied_mark rfl rfl (executing_dsts (fun _ _ => rfl) one_ne_zero L hL) rfl

/-- Settles O20: the lines' checks do not depend on locks, so the lanes lock or release one after another as the state alone says. -/
theorem lineLocks : Obligations.LineLocks := by
  unfold Obligations.LineLocks
  refine ⟨fun t a r g => lockOp_issues (i := .lock t a r g) (t := t) (a := a) (r := r) (g := g) (f := fun s d c ps => s.lockGo d c false ps) (fun _ => rfl) fun d c => ⟨fun s ps ws ls fr => lockGo_run d c ws ls fr ps s false, fun s ps => (lockGo_spec d c ps s false).1⟩,
    fun t a r g => lockOp_issues (i := .unlock t a r g) (t := t) (a := a) (r := r) (g := g) (f := fun s _ c ps => s.unlockGo c ps) (fun _ => rfl) fun d c => ⟨fun s ps ws ls fr => unlockGo_run c ws ls fr ps s, fun s ps => rfl⟩, fun s die c ps => ?_, unlockGo_spec⟩
  obtain ⟨h1, h2, _, h4, h5⟩ := lockGo_spec die c ps s false
  refine ⟨h1, h2, h4.trans ?_, h5⟩
  refine congrArg (fun f => (ps.filter f).length) (funext fun p => ?_)
  unfold State.lockCounts
  rfl

end Sys2Proof.Machine

/-!
PROOFS. Prefetches, base registers and fences (O21).
-/

namespace Sys2Proof.Machine

/-! ## Prefetches (R337) -/

/-- The machine with another L2 and other copies, requests to tier engines and waves. -/
def State.withCaches (s : State) (l2 : List Nat) (cs : List Copy) (tq : List TierReq) (fr : Nat) (ws : List Wave) : State :=
  { s with l2 := l2, copies := cs, tierq := tq, fresh := fr, waves := ws }

/-- What prefetches leave of the machine: lines enter the L2, and unless only that is asked for, copies and requests to tier engines may come. -/
structure Prefetched (lone : Bool) (s u : State) : Prop where
  rest : u = s.withCaches u.l2 u.copies u.tierq u.fresh u.waves
  same : lone = true → u.copies = s.copies ∧ u.tierq = s.tierq ∧ u.fresh = s.fresh
  lines : ∀ x ∈ s.l2, x ∈ u.l2

theorem Prefetched.refl (b : Bool) (s : State) : Prefetched b s s := ⟨rfl, fun _ => ⟨rfl, rfl, rfl⟩, fun _ h => h⟩
theorem Prefetched.trans {b : Bool} {s t u : State} (h : Prefetched b s t) (h' : Prefetched b t u) : Prefetched b s u where
  rest := h'.rest.trans (congrArg (fun v : State => v.withCaches u.l2 u.copies u.tierq u.fresh u.waves) h.rest :)
  same := fun hb => by
    obtain ⟨h1, h2, h3⟩ := h.same hb
    obtain ⟨h4, h5, h6⟩ := h'.same hb
    exact ⟨h4.trans h1, h5.trans h2, h6.trans h3⟩
  lines := fun x hx => h'.lines x (h.lines x hx)

theorem prefetched_fold {α : Type} {b : Bool} {f : State → α → State} (hf : ∀ u a, Prefetched b u (f u a)) : ∀ (as : List α) (s : State), Prefetched b s (as.foldl f s)
  | [], s => .refl b s
  | a :: as, s => (hf s a).trans (prefetched_fold hf as (f s a))

theorem walkGo_withCaches (s : State) (l2 : List Nat) (cs : List Copy) (tq : List TierReq) (fr : Nat) (ws : List Wave) (va : Nat) : ∀ lvl t,
    (s.withCaches l2 cs tq fr ws).walkGo va lvl t = s.walkGo va lvl t
  | 0, _ => rfl
  | k + 1, t => by
    unfold State.walkGo
    simp only [walkGo_withCaches s l2 cs tq fr ws va k]
    rfl

theorem walkFrom_withCaches (s : State) (l2 : List Nat) (cs : List Copy) (tq : List TierReq) (fr : Nat) (ws : List Wave) (c va : Nat) :
    (s.withCaches l2 cs tq fr ws).walkFrom c va none = s.walkFrom c va none := by
  unfold State.walkFrom
  simp only [walkGo_withCaches]
  rfl

theorem fillLine_prefetched (s : State) (ty pa : Nat) : Prefetched true s (s.fillLine ty pa) := by
  unfold State.fillLine
  split
  · exact .refl true s
  · exact ⟨rfl, fun _ => ⟨rfl, rfl, rfl⟩, fun _ h => List.mem_cons_of_mem _ h⟩

/-- The copy of a line that the RDC of a die takes, in place of an older one. -/
def State.takeCopy (s : State) (die pa : Nat) : List Copy :=
  { die := die, core := none, line := pa / 128, data := BitVec.ofNat 1024 (s.rd (pa / 128 * 128) 128), asOf := s.writes } ::
    s.copies.filter (fun x => !(x.die == die && x.core == none && x.line == pa / 128))

theorem fillLine_has (s : State) (pa : Nat) : pa / 128 ∈ (s.fillLine 0 pa).l2 := by
  unfold State.fillLine
  split
  · next h => simpa using h
  · exact List.mem_cons_self ..

/-- A line whose page is no NORMAL memory that is there and can be reached is left where it is. -/
def State.unfit (s : State) (die : Nat) (e : Pte) (pa : Nat) : Bool :=
  e.type != 0 || !s.present pa || !s.holds pa 128 || !s.reachable pa || !s.memRdy (some die) true pa

theorem prefLine_leaf {s : State} {die c va lvl epa : Nat} {e : Pte} (rdc : Bool) (hw : (s.walkFrom c va none).1 = .leaf lvl e epa) :
    let pa := (tlbOf die c va lvl e epa).phys va
    s.prefLine die c rdc va = if s.unfit die e pa then s else
      if !rdc || s.homeHere die pa then s.fillLine e.type pa else { s.fillLine e.type pa with copies := s.takeCopy die pa } := by
  unfold State.prefLine
  rw [hw]
  rfl

theorem prefLine_prefetched (s : State) (die c : Nat) (rdc : Bool) (va : Nat) : Prefetched (!rdc) s (s.prefLine die c rdc va) := by
  cases hw : (s.walkFrom c va none).1 with
  | bad x =>
    have h : s.prefLine die c rdc va = s := by
      unfold State.prefLine
      rw [hw]
    rw [h]
    exact .refl _ s
  | leaf lvl e epa =>
    rw [prefLine_leaf rdc hw]
    obtain ⟨hrest, hsame, hlines⟩ := fillLine_prefetched s e.type ((tlbOf die c va lvl e epa).phys va)
    dsimp only
    split
    · exact .refl _ s
    · split
      · exact ⟨hrest, fun _ => hsame rfl, hlines⟩
      · next h =>
        refine ⟨(congrArg (fun u : State => ({ u with copies := s.takeCopy die ((tlbOf die c va lvl e epa).phys va) } : State)) hrest :), fun hr => ?_, hlines⟩
        rw [hr] at h
        exact absurd rfl h

theorem prefPage_prefetched (s : State) (c va : Nat) (near : Bool) : Prefetched false s (s.prefPage c va near) := by
  have hask : ∀ d, Prefetched false s (s.tierAsk d c va near false) := fun d => by
    unfold State.tierAsk
    dsimp only
    split
    · exact .refl _ s
    · exact ⟨rfl, (nomatch ·), fun _ h => h⟩
  unfold State.prefPage
  split
  · split
    · exact .refl _ s
    · exact hask _
  · exact .refl _ s

theorem prefLine_has {s : State} {die c va lvl epa : Nat} {e : Pte} (rdc : Bool) (hw : (s.walkFrom c va none).1 = .leaf lvl e epa) (hty : e.type = 0)
    (hfit : s.unfit die e ((tlbOf die c va lvl e epa).phys va) = false) : (tlbOf die c va lvl e epa).phys va / 128 ∈ (s.prefLine die c rdc va).l2 := by
  rw [prefLine_leaf rdc hw]
  dsimp only
  rw [if_neg (ne_true_of_eq_false hfit), hty]
  split
  · exact fillLine_has s _
  · exact fillLine_has s _

/-- What PREF asks for before a lane goes on. -/
def State.prefetch (s : State) (i : Iss) (z va len : Nat) : State :=
  match z with
  | 0 => (linesOf va len).foldl (fun (s : State) p => s.prefLine i.die i.c false p) s
  | 1 => (linesOf va len).foldl (fun (s : State) p => s.prefLine i.die i.c true p) s
  | 2 => (pagesOf va len).foldl (fun (s : State) p => s.prefPage i.c p true) s
  | 3 => (pagesOf va len).foldl (fun (s : State) p => s.prefPage i.c p false) s
  | _ => s

theorem prefetch_prefetched (s : State) (i : Iss) (z va len : Nat) : Prefetched (z == 0) s (s.prefetch i z va len) := by
  unfold State.prefetch
  split
  · exact prefetched_fold (fun u p => prefLine_prefetched u i.die i.c false p) _ s
  · exact prefetched_fold (fun u p => prefLine_prefetched u i.die i.c true p) _ s
  · exact prefetched_fold (fun u p => prefPage_prefetched u i.c p true) _ s
  · exact prefetched_fold (fun u p => prefPage_prefetched u i.c p false) _ s
  · exact .refl _ s

/-- A line asked for is in the L2 afterwards, if it can be brought there. -/
theorem prefLines_have {s : State} {die c va lvl epa : Nat} {e : Pte} (rdc : Bool) (hw : (s.walkFrom c va none).1 = .leaf lvl e epa) (hty : e.type = 0)
    (hfit : s.unfit die e ((tlbOf die c va lvl e epa).phys va) = false) (vas : List Nat) : ∀ u : State, va ∈ vas → Prefetched false s u →
    (tlbOf die c va lvl e epa).phys va / 128 ∈ (vas.foldl (fun (s : State) p => s.prefLine die c rdc p) u).l2 := by
  induction vas with
  | nil => exact fun u hmem _ => nomatch hmem
  | cons v vas ih =>
    intro u hmem hu
    have hone := prefLine_prefetched u die c rdc v
    rcases List.mem_cons.mp hmem with hv | hmem
    · refine (prefetched_fold (b := !rdc) (fun t p => prefLine_prefetched t die c rdc p) vas _).lines _ ?_
      rw [← hv]
      refine prefLine_has rdc ?_ hty ?_
      · rw [hu.rest, walkFrom_withCaches]
        exact hw
      · rw [hu.rest]
        exact hfit
    · exact ih _ hmem (hu.trans ⟨hone.rest, (nomatch ·), hone.lines⟩)

theorem prefetch_has {s u : State} {i : Iss} {va0 len va lvl epa z : Nat} {e : Pte} (hz : z ≤ 1) (hw : (s.walkFrom i.c va none).1 = .leaf lvl e epa) (hty : e.type = 0)
    (hfit : s.unfit i.die e ((tlbOf i.die i.c va lvl e epa).phys va) = false) (hmem : va ∈ linesOf va0 len) (hu : Prefetched false s u) :
    (tlbOf i.die i.c va lvl e epa).phys va / 128 ∈ (u.prefetch i z va0 len).l2 := by
  match z, hz with
  | 0, _ => exact prefLines_have false hw hty hfit _ u hmem hu
  | 1, _ => exact prefLines_have true hw hty hfit _ u hmem hu

/-- PREF in one lane. -/
def prefStep (i : Iss) (r : BitVec 4) (t a : BitVec 7) (z : Nat) (u : State) (L : Nat) : State :=
  (u.prefetch i z (mVa r a i L) ((i.l L).v t.toNat).toNat).updLane i.uid L Lane.adv

theorem waves_updWave_of {s u : State} (h : u.waves = s.waves) (uid : Nat) (f : Wave → Wave) : (u.updWave uid f).waves = (s.updWave uid f).waves := by
  unfold State.updWave
  rw [h]

theorem prefetch_waves (s : State) (i : Iss) (z va len : Nat) : (s.prefetch i z va len).waves = s.waves := by
  have hline : ∀ rdc (u : State) p, (u.prefLine i.die i.c rdc p).waves = u.waves := fun rdc u p => by
    unfold State.prefLine State.fillLine
    split
    · dsimp only
      repeat' split
      all_goals rfl
    · rfl
  have hpage : ∀ near (u : State) p, (u.prefPage i.c p near).waves = u.waves := fun near u p => by
    unfold State.prefPage State.tierAsk
    split
    · dsimp only
      repeat' split
      all_goals rfl
    · rfl
  have hfold : ∀ (f : State → Nat → State), (∀ u p, (f u p).waves = u.waves) → ∀ (ps : List Nat) (u : State), (ps.foldl f u).waves = u.waves := fun f hf ps => by
    induction ps with
    | nil => exact fun _ => rfl
    | cons p ps ih => exact fun u => (ih _).trans (hf u p)
  unfold State.prefetch
  split
  · exact hfold _ (hline false) _ s
  · exact hfold _ (hline true) _ s
  · exact hfold _ (hpage true) _ s
  · exact hfold _ (hpage false) _ s
  · rfl

theorem foldl_prefStep (i : Iss) (r : BitVec 4) (t a : BitVec 7) (z : Nat) : ∀ (Ls : List Nat) (s : State),
    Prefetched (z == 0) s (Ls.foldl (prefStep i r t a z) s) ∧
      (Ls.foldl (prefStep i r t a z) s).waves = (s.updWave i.uid (fun v => Ls.foldl (fun v L => v.updLane L Lane.adv) v)).waves
  | [], s => ⟨.refl _ s, by simp [State.updWave]⟩
  | L :: Ls, s => by
    obtain ⟨hpre, hw⟩ := foldl_prefStep i r t a z Ls (prefStep i r t a z s L)
    obtain ⟨hrest, hsame, hlines⟩ := prefetch_prefetched s i z (mVa r a i L) ((i.l L).v t.toNat).toNat
    have hstep : Prefetched (z == 0) s (prefStep i r t a z s L) :=
      ⟨(congrArg (fun u : State => u.updLane i.uid L Lane.adv) hrest :), hsame, hlines⟩
    refine ⟨hstep.trans hpre, hw.trans ?_⟩
    have hone : (prefStep i r t a z s L).waves = (s.updWave i.uid (fun v => v.updLane L Lane.adv)).waves :=
      waves_updWave_of (prefetch_waves s i z _ _) i.uid _
    exact (waves_updWave_of hone i.uid _).trans (congrArg State.waves
      (updWave_updWave s i.uid (fun v => v.updLane L Lane.adv) (fun v => Ls.foldl (fun v L => v.updLane L Lane.adv) v) fun _ => rfl) :)

theorem foldl_prefStep_has {s : State} {i : Iss} {r : BitVec 4} {t a : BitVec 7} {va lvl epa z L : Nat} {e : Pte} (hz : z ≤ 1)
    (hw : (s.walkFrom i.c va none).1 = .leaf lvl e epa) (hty : e.type = 0) (hfit : s.unfit i.die e ((tlbOf i.die i.c va lvl e epa).phys va) = false)
    (hmem : va ∈ linesOf (mVa r a i L) ((i.l L).v t.toNat).toNat) (Ls : List Nat) : ∀ u : State, L ∈ Ls → Prefetched false s u →
    (tlbOf i.die i.c va lvl e epa).phys va / 128 ∈ (Ls.foldl (prefStep i r t a z) u).l2 := by
  induction Ls with
  | nil => exact fun _ hL _ => nomatch hL
  | cons M Ls ih =>
    intro u hL hu
    rcases List.mem_cons.mp hL with rfl | hL
    · exact (foldl_prefStep i r t a z Ls _).1.lines _ (prefetch_has hz hw hty hfit hmem hu)
    · obtain ⟨hrest, _, hlines⟩ := (foldl_prefStep i r t a z [M] u).1
      exact ih _ hL (hu.trans ⟨hrest, (nomatch ·), hlines⟩)

/-- PREF (R337): lines of memory that are there enter the L2; nothing that a program sees changes. -/
theorem pref_issues (t a : BitVec 7) (r : BitVec 4) (z : BitVec 3) (g : BitVec 2) :
    Issues (.pref t a r z g) (fPref t a g (!Instr.wf (.pref t a r z g)) (z.toNat == 3)) (fun _ _ => True)
      (fun s => if z = 0 then { s.less with l2 := [] } else { s.less with copies := [], tierq := [], fresh := 0, l2 := [] })
      (fun s x w s' w' => w'.less = w.less ∧ (∀ L ∈ x.E, Passed (w.lane L) (w'.lane L)) ∧
        (z.toNat ≤ 1 → ∀ L ∈ x.E, ∀ va ∈ linesOf (mVa r a x L) ((x.l L).v t.toNat).toNat, ∀ lvl e epa, (s.walkFrom x.c va none).1 = .leaf lvl e epa →
          let pa := (tlbOf x.die x.c va lvl e epa).phys va
          e.type = 0 → s.present pa = true → s.holds pa 128 = true → s.reachable pa = true → s.memRdy (some x.die) true pa = true →
            pa / 128 ∈ s'.l2)) := by
  intro s w hi hr _
  let ff : FormF := fPref t a g (!Instr.wf (.pref t a r z g)) (z.toNat == 3)
  let x := issueOf s w ff
  obtain ⟨hpre, hw⟩ := foldl_prefStep x r t a z.toNat x.E (s.skipped w ff)
  have hnil : executing s w ff = [] → (x.E.foldl (prefStep x r t a z.toNat) (s.skipped w ff)).less = s.less := fun h => by
    rw [show x.E = [] from h]
    rfl
  obtain ⟨w', hiss, hless, hstate, hlanes⟩ := issue_less_all (busy := never) (body := fun i s => (i.E.foldl (prefStep i r t a z.toNat) s, []))
    (fun _ l => l.adv) _ hi hr (fun L hL => (executing_unstepped hi hL).1) rfl rfl hw (congrArg State.pkg hpre.rest :) hnil
  refine ⟨_, w', rfl, hiss, ?_, hless, fun L hL => ?_, ?_⟩
  · by_cases hz : z = 0
    · dsimp only
      rw [if_pos hz, if_pos hz]
      obtain ⟨hcs, htq, hfr⟩ := hpre.same (by rw [hz]; rfl)
      have hrest : (x.E.foldl (prefStep x r t a z.toNat) (s.skipped w ff)).less =
          ({ s.less with l2 := (x.E.foldl (prefStep x r t a z.toNat) (s.skipped w ff)).l2 } : State) := by
        refine (congrArg State.less hpre.rest).trans ?_
        rw [hcs, htq, hfr]
        rfl
      exact (congrArg (fun u : State => ({ u with l2 := [] } : State)) (hstate.trans hrest) :)
    · dsimp only
      rw [if_neg hz, if_neg hz]
      exact (congrArg (fun u : State => ({ u with copies := [], tierq := [], fresh := 0, l2 := [] } : State)) (hstate.trans (congrArg State.less hpre.rest)) :)
  · rw [hlanes L hL]
    exact ⟨rfl, ⟨rfl, rfl⟩, rfl⟩
  · intro hz L hL va hva lvl e epa hwalk pa hty h1 h2 h3 h4
    have hfit : s.unfit x.die e pa = false := by
      unfold State.unfit
      rw [hty, h1, h2, h3, h4]
      rfl
    exact (congrArg (fun u : State => pa / 128 ∈ u.l2) hstate).mpr (foldl_prefStep_has hz hwalk hty hfit hva x.E _ hL ⟨rfl, (nomatch ·), fun _ h => h⟩)

/-! ## Base registers (R339) -/

theorem bset_issues (a : BitVec 7) (n : BitVec 4) :
    Issues (.bset a n) (fSYS [srcBlk a 3] []) (fun _ x => ∀ L ∈ x.E, baseVal (x.l L) a = baseVal (x.l (x.E.headD 0)) a) State.less
      (fun _ x w _ w' => { w'.less with bases := [] } = { w.less with bases := [] } ∧
        w'.bases = (if x.E = [] then w.bases else w.bases.set n.toNat (baseVal (x.l (x.E.headD 0)) a)) ∧
        ∀ L ∈ x.E, Passed (w.lane L) (w'.lane L)) := by
  intro s w hi hr heq
  let ff : FormF := fSYS [srcBlk a 3] []
  let x := issueOf s w ff
  let v0 := baseVal (x.l (x.E.headD 0)) a
  let base (v : Wave) : Wave := { v with bases := v.bases.set n.toNat v0 }
  let go (v : Wave) : Wave := x.E.foldl (fun v L => v.updLane L (fun _ => (w.lane L).adv)) v
  have hnow : ∀ L ∈ x.E, ((s.skipped w ff).updWave x.uid base).laneNow x L = w.lane L := fun L hL => by
    refine Eq.trans ?_ (laneNow_skipped hi.found hL)
    unfold State.laneNow
    rw [wave_updWave (s.skipped w ff) x.uid base (fun _ => rfl), show (s.skipped w ff).wave? x.uid = _ from wave_skipped ff hi.found]
    rfl
  have hall : x.E.all (fun L => baseVal (x.l L) a == v0) = true := List.all_eq_true.mpr fun L hL => beq_iff_eq.mpr (heq L hL)
  have hbody := laneBody_ok (f := fun _ _ _ l => .ok l.adv) (x := x) (s := (s.skipped w ff).updWave x.uid base) (fun L => (w.lane L).adv)
    fun L hL => by rw [hnow L hL]
  obtain ⟨y, heq', hiss, hnil, hsome, hlanes⟩ := issue_lanes (busy := never) (body := fun i s =>
      let v := baseVal (i.l (i.E.headD 0)) a
      if i.E.all (fun L => baseVal (i.l L) a == v) then laneBody (fun _ _ _ l => .ok l.adv) i (s.updWave i.uid (fun w => { w with bases := w.bases.set n.toNat v }))
      else (s, i.E.map (fun L => (L, (i.l L).trapHere tkFMTDIV 0))))
    (fun L => L) (fun L _ => (w.lane L).adv) x.E base (((s.skipped w ff).updWave x.uid base).updWave x.uid go) (fun _ => rfl) (fun _ => rfl) hi hr (List.map_id _)
    (fun L hL => (executing_unstepped hi hL).1) (fun _ => rfl) (fun _ => (if_pos hall).trans hbody)
    (fun _ => (congrArg State.waves (updWave_updWave (s.skipped w ff) x.uid base go fun _ => rfl) :)) (fun _ => rfl)
  refine ⟨_, _, rfl, hiss, ?_, ?_, ?_, fun L hL => ?_⟩
  · rw [heq', less_noteIssue]
    unfold bodyState
    split <;> rfl
  · by_cases hE : executing s w ff = []
    · exact (congrArg (fun v : Wave => ({ v with bases := [] } : Wave)) (hnil hE) :)
    · obtain ⟨ls, hy⟩ := hsome hE
      refine Eq.trans ?_ (congrArg (fun v : Wave => ({ v with bases := [] } : Wave)) (less_skipped s w ff))
      rw [hy]
      rfl
  · by_cases hE : executing s w ff = []
    · exact (congrArg Wave.bases (hnil hE) :).trans (if_pos hE).symm
    · obtain ⟨ls, hy⟩ := hsome hE
      refine Eq.trans ?_ (if_neg hE).symm
      rw [hy]
      exact congrArg (fun bs : List (BitVec 72) => bs.set n.toNat v0) (congrArg Wave.bases (less_skipped s w ff) :)
  · rw [hlanes L hL]
    exact ⟨rfl, ⟨rfl, rfl⟩, rfl⟩

/-- Writing registers leaves the rest of a lane. -/
theorem setFrom_eq : ∀ (xs : List Word) (n : Nat) (l : Lane), ∃ rs, l.setFrom n xs = { l with regs := rs }
  | [], _, l => ⟨l.regs, rfl⟩
  | x :: xs, n, l => setFrom_eq xs (n + 1) (l.set n x)

theorem bget_issues (d : BitVec 7) (n : BitVec 4) :
    LaneIssues (.bget d n) (fSYS [] [(d.toNat, 3)]) anyLane (fun _ x _ l l' => WroteSpan l l' d.toNat (wordsOf 3 (x.w.bases.getD n.toNat 0).toNat)) :=
  laneIssues_reg (fun _ => rfl) fun s w hi L hL _ _ => by
    have hlen := executing_dsts (n := 3) (fun _ _ => rfl) (by decide) L hL
    obtain ⟨hin, hout⟩ := setFrom_spec (wordsOf 3 (w.bases.getD n.toNat 0).toNat) (w.lane L) d.toNat hlen
    obtain ⟨rs, hrs⟩ := setFrom_eq (wordsOf 3 (w.bases.getD n.toNat 0).toNat) d.toNat (w.lane L)
    have hset : ∀ P : Lane → Prop, P { w.lane L with regs := rs } → P ((w.lane L).setFrom d.toNat (wordsOf 3 (w.bases.getD n.toNat 0).toNat)) := fun P h => hrs ▸ h
    exact ⟨_, rfl, hset (fun l => l.stepping = false) (executing_unstepped hi hL).1, hin, hout, hset (fun l => l.pc + 1 = (w.lane L).pc + 1 ∧ [] = []) ⟨rfl, rfl⟩,
      hset (fun l => l.adv.noted.less = (w.lane L).less) rfl⟩

/-! ## Fences (R152, R155, R340) -/

/-- An instruction whose lanes have nothing left to wait for, reads among them, issues as one that does not wait. -/
theorem issueForced_quiet {s : State} {w : Wave} {ff : FormF} {busy : State → Iss → Option State} {body : Iss → State → State × Traps} {p : Acc → Bool}
    (hi : Issuing s w) (hr : Ready s w ff) (hb : executing s w ff ≠ [] → busy s (issueOf s w ff) = none)
    (hp : ∀ L ∈ executing s w ff, s.lanePend w.uid L p = [] ∧ s.readsPend w.uid L = false) :
    s.issueForced ff (fun _ _ => p) true busy body = s.issue ff busy body := by
  by_cases hE : executing s w ff = []
  · unfold State.issueForced
    rw [issue_ready hi hr (.inl hE), issue_ready hi hr (.inl hE), if_pos hE, if_pos hE]
  · have hready : ∀ (u : State), (∀ L, u.lanePend w.uid L p = s.lanePend w.uid L p) → (∀ L, u.readsPend w.uid L = s.readsPend w.uid L) →
        ∀ L ∈ (issueOf s w ff).E, u.force (issueOf s w ff).uid L p true = .ready := fun u hu hl L hL => by
      obtain ⟨hpend, hreads⟩ := hp L hL
      unfold State.force
      rw [show u.lanePend (issueOf s w ff).uid L p = [] from (hu L).trans hpend, show u.readsPend (issueOf s w ff).uid L = false from (hl L).trans hreads]
      rfl
    have hbusy := forcedBusy_ready (fr := fun (s : State) (i : Iss) (L : Nat) => s.force i.uid L p true) (busy := busy) (i := issueOf s w ff) hE
      (hready s (fun _ => rfl) fun _ => rfl)
    have hbody := forcedBody_ready (fr := fun (s : State) (i : Iss) (L : Nat) => s.force i.uid L p true) (body := body) (i := issueOf s w ff) hE
      (hready (s.skipped w ff) (fun _ => rfl) fun _ => rfl)
    unfold State.issueForced
    dsimp only
    rw [issue_ready hi hr (.inr (hb hE)), issue_ready hi hr (.inr (hbusy.trans (hb hE))), if_neg hE, if_neg hE, hbody]

theorem mem_add {w : Unshown} {fs : List Fact} {g : Fact} : g ∈ (w.add fs).facts ↔ g ∈ w.facts ∨ g ∈ fs := by
  have h : ∀ (fs r : List Fact), g ∈ fs.foldl (fun r f => if r.contains f then r else r ++ [f]) r ↔ g ∈ r ∨ g ∈ fs := fun fs => by
    induction fs with
    | nil => simp
    | cons f fs ih =>
      intro r
      rw [List.foldl_cons, ih]
      by_cases hf : r.contains f = true
      · rw [if_pos hf]
        have hmem : f ∈ r := by simpa using hf
        exact ⟨fun h => h.imp_right (List.mem_cons_of_mem _), fun h => h.elim .inl fun h => (List.mem_cons.mp h).elim (fun h => .inl (h ▸ hmem)) .inr⟩
      · rw [if_neg hf]
        simp [or_assoc]
  exact h fs w.facts

theorem whos_skipped {s : State} {w : Wave} {ff : FormF} (hi : Issuing s w) : (issueOf s w ff).whos (s.skipped w ff) = (issueOf s w ff).whos s := by
  refine List.map_congr_left fun L hL => ?_
  have hlane : (w.skipped s ff).lane L = w.lane L := lane_skipped_out (skipping_not_executing hL)
  unfold State.whoOf
  rw [show (s.skipped w ff).wave? (issueOf s w ff).uid = _ from wave_skipped ff hi.found, show s.wave? (issueOf s w ff).uid = _ from hi.found]
  dsimp only
  rw [hlane]
  have htid : (w.skipped s ff).tid = w.tid := (congrArg Wave.tid (less_skipped s w ff) :)
  unfold State.teamOf
  rw [htid]
  rfl

/-- What FENCE adds for a fact of a write (R152). -/
def fenceFacts (qs : List Who) (k z : Nat) (f : Fact) : List Fact :=
  match f.reach with
  | .made a =>
    (match qs.find? (fun q => q.me == a.me) with
     | some q =>
       let v := linked f.via { scope := z, who := q }
       if a.outside && z != 6 then []
       else if k = 1 then [{ reach := .writes q.me (z == 6), via := v }]
       else if k = 2 && !a.op.returns then []
       else [{ reach := .lane q.me (z == 6), via := v }]
     | none => [])
  | _ => []

theorem mem_singleton_fact {g : Fact} {rch : Reach} {v : List Pub} : g ∈ [({ reach := rch, via := v } : Fact)] ↔ g.via = v ∧ g.reach = rch := by
  rw [List.mem_singleton]
  exact ⟨fun h => h ▸ ⟨rfl, rfl⟩, fun ⟨h1, h2⟩ => by cases g; cases h1; cases h2; rfl⟩

theorem mem_fenceFacts (qs : List Who) (k z : Nat) (f g : Fact) :
    g ∈ fenceFacts qs k z f ↔ ∃ a q, f.reach = .made a ∧ qs.find? (fun q => q.me == a.me) = some q ∧ (a.outside = true → z = 6) ∧ (k = 2 → a.op.returns = true) ∧
        g.via = linked f.via { scope := z, who := q } ∧ g.reach = if k = 1 then .writes q.me (z == 6) else .lane q.me (z == 6) := by
  unfold fenceFacts
  split
  · next a hmade =>
    cases hq : qs.find? (fun q => q.me == a.me) with
    | none =>
      refine ⟨(nomatch ·), fun ⟨b, q, hb, hfind, _⟩ => ?_⟩
      rw [hmade] at hb
      cases hb
      rw [hq] at hfind
      cases hfind
    | some q =>
      dsimp only
      have hiff : ∀ P : Acc → Who → Prop, (∃ b p, f.reach = .made b ∧ qs.find? (fun q => q.me == b.me) = some p ∧ P b p) ↔ P a q := fun P =>
        ⟨fun ⟨b, p, hb, hp, h⟩ => by
          rw [hmade] at hb
          cases hb
          rw [hq] at hp
          cases hp
          exact h, fun h => ⟨a, q, hmade, hq, h⟩⟩
      rw [hiff fun a q => (a.outside = true → z = 6) ∧ (k = 2 → a.op.returns = true) ∧ g.via = linked f.via { scope := z, who := q } ∧
        g.reach = if k = 1 then .writes q.me (z == 6) else .lane q.me (z == 6)]
      by_cases hout : (a.outside && z != 6) = true
      · rw [if_pos hout]
        rw [Bool.and_eq_true, bne_iff_ne] at hout
        exact ⟨(nomatch ·), fun ⟨h, _⟩ => absurd (h hout.1) hout.2⟩
      · have hz : a.outside = true → z = 6 := fun h => by
          by_contra hz
          exact hout (by rw [h, bne_iff_ne.mpr hz]; rfl)
        rw [if_neg hout]
        by_cases hk : k = 1
        · rw [if_pos hk, if_pos hk, mem_singleton_fact]
          exact ⟨fun ⟨h1, h2⟩ => ⟨hz, fun h => by omega, h1, h2⟩, fun ⟨_, _, h1, h2⟩ => ⟨h1, h2⟩⟩
        · rw [if_neg hk, if_neg hk]
          by_cases hret : (k = 2 && !a.op.returns) = true
          · rw [if_pos hret]
            simp only [Bool.and_eq_true, decide_eq_true_eq, Bool.not_eq_true'] at hret
            exact ⟨(nomatch ·), fun ⟨_, h, _⟩ => absurd (h hret.1) (by rw [hret.2]; decide)⟩
          · rw [if_neg hret, mem_singleton_fact]
            simp only [Bool.and_eq_true, decide_eq_true_eq, Bool.not_eq_true', not_and, Bool.not_eq_false] at hret
            exact ⟨fun ⟨h1, h2⟩ => ⟨hz, hret, h1, h2⟩, fun ⟨_, _, h1, h2⟩ => ⟨h1, h2⟩⟩
  · next hother =>
    exact ⟨(nomatch ·), fun ⟨a, _, ha, _⟩ => absurd ha (hother a)⟩

/-- The writes once a FENCE has added its facts. -/
def fenced (qs : List Who) (k z : Nat) (ws : List Unshown) : List Unshown := ws.map (fun w => w.add (w.facts.flatMap (fenceFacts qs k z)))

theorem fence_eq (s : State) (qs : List Who) (k z : Nat) : s.fence qs k z = { s with wrote := fenced qs k z s.wrote } := rfl

theorem fenced_nil (k z : Nat) (ws : List Unshown) : fenced [] k z ws = ws := by
  have hone : ∀ f, fenceFacts [] k z f = [] := fun f => by
    unfold fenceFacts
    split <;> rfl
  have hadd : ∀ w : Unshown, w.add (w.facts.flatMap (fenceFacts [] k z)) = w := fun w => by
    rw [show w.facts.flatMap (fenceFacts [] k z) = [] from List.flatMap_eq_nil_iff.mpr fun f _ => hone f]
    rfl
  exact (List.map_congr_left fun w _ => hadd w).trans (List.map_id _)

/-- A fence of lanes with nothing left to wait for: the lanes go on, and what else it makes of the machine is f. -/
theorem fence_goes_on {s : State} {w : Wave} {ff : FormF} {p : Acc → Bool} (f : Iss → State → State) (hi : Issuing s w) (hr : Ready s w ff)
    (hp : ∀ L ∈ executing s w ff, s.lanePend w.uid L p = [] ∧ s.readsPend w.uid L = false)
    (hw : (f (issueOf s w ff) (s.skipped w ff)).waves = (s.skipped w ff).waves) (hpkg : (f (issueOf s w ff) (s.skipped w ff)).pkg = s.pkg) :
    ∃ w', Issued s (s.issueForced ff (fun _ _ => p) true never (fun i s => laneBody (fun _ _ _ l => .ok l.adv) i (f i s))) w w' ff ∧ w'.less = w.less ∧
      (s.issueForced ff (fun _ _ => p) true never (fun i s => laneBody (fun _ _ _ l => .ok l.adv) i (f i s))).less =
        (if executing s w ff = [] then s else f (issueOf s w ff) (s.skipped w ff)).less ∧
      ∀ L ∈ executing s w ff, Passed (w.lane L) (w'.lane L) := by
  let x := issueOf s w ff
  have hnow : ∀ L ∈ x.E, (f x (s.skipped w ff)).laneNow x L = w.lane L := fun L hL => by
    refine Eq.trans ?_ (laneNow_skipped hi.found hL)
    unfold State.laneNow State.wave?
    rw [hw]
  rw [issueForced_quiet hi hr (fun _ => rfl) hp]
  have hbody := laneBody_ok (f := fun _ _ _ l => .ok l.adv) (x := x) (s := f x (s.skipped w ff)) (fun L => (w.lane L).adv) fun L hL => by rw [hnow L hL]
  obtain ⟨w', hiss, hless, h1, h2, hlanes⟩ := issue_less (busy := never) (body := fun i s => laneBody (fun _ _ _ l => .ok l.adv) i (f i s))
    (fun L _ => (w.lane L).adv) _ hi hr (fun L hL => (executing_unstepped hi hL).1) (fun _ => rfl) (fun _ => hbody) (fun _ => waves_updWave_of hw x.uid _) fun _ => hpkg
  refine ⟨w', hiss, hless, ?_, fun L hL => by rw [hlanes L hL]; exact ⟨rfl, ⟨rfl, rfl⟩, rfl⟩⟩
  by_cases hE : executing s w ff = []
  · rw [if_pos hE]
    exact h1 hE
  · rw [if_neg hE]
    exact h2 hE

theorem fence_issues (k : BitVec 2) (z : BitVec 3) :
    Issues (.fence k z) (fun _ _ => { bad := !Instr.wf (.fence k z) })
      (fun s x => ∀ L ∈ x.E, s.lanePend x.uid L (fenceOf k z) = [] ∧ s.readsPend x.uid L = false)
      (fun s => { s.less with wrote := [] })
      (fun s x w s' w' => w'.less = w.less ∧ (∀ L ∈ x.E, Passed (w.lane L) (w'.lane L)) ∧ s'.wrote.length = s.wrote.length ∧
        ∀ (n : Nat) (v : Unshown), s.wrote[n]? = some v → ∃ v', s'.wrote[n]? = some v' ∧ { v' with facts := [] } = { v with facts := [] } ∧
          ∀ g, g ∈ v'.facts ↔ g ∈ v.facts ∨ ∃ f ∈ v.facts, ∃ a q, f.reach = .made a ∧ (x.whos s).find? (fun q => q.me == a.me) = some q ∧
            (a.outside = true → z = 6) ∧ (k = 2 → a.op.returns = true) ∧ g.via = linked f.via { scope := z.toNat, who := q } ∧
            g.reach = if k = 1 then .writes q.me (z == 6) else .lane q.me (z == 6)) := by
  intro s w hi hr hp
  let ff : FormF := fun _ _ => { bad := !Instr.wf (.fence k z) }
  let x := issueOf s w ff
  obtain ⟨w', hiss, hless, hstate, hpass⟩ := fence_goes_on (fun i s => s.fence (i.whos s) k.toNat z.toNat) hi hr hp rfl rfl
  have hafter : (if executing s w ff = [] then s else (s.skipped w ff).fence (x.whos (s.skipped w ff)) k.toNat z.toNat).less =
      ({ s.less with wrote := fenced (x.whos s) k.toNat z.toNat s.wrote } : State) := by
    by_cases hE : executing s w ff = []
    · have hwho : x.whos s = [] := congrArg (List.map fun L => s.whoOf x.uid L) hE
      rw [if_pos hE, hwho, fenced_nil]
      rfl
    · rw [if_neg hE, whos_skipped hi]
      rfl
  have hstate := hstate.trans hafter
  have hwrote := (congrArg State.wrote hstate :)
  refine ⟨_, w', rfl, hiss, (congrArg (fun u : State => ({ u with wrote := [] } : State)) hstate :), hless, hpass, ?_, fun n v hv => ?_⟩
  · exact (congrArg List.length hwrote).trans (List.length_map _)
  · refine ⟨v.add (v.facts.flatMap (fenceFacts (x.whos s) k.toNat z.toNat)), ?_, rfl, fun g => ?_⟩
    · refine (congrArg (fun ws : List Unshown => ws[n]?) hwrote).trans ?_
      exact (List.getElem?_map ..).trans (congrArg (Option.map _) hv)
    · rw [mem_add, List.mem_flatMap]
      have hz : z.toNat = 6 ↔ z = 6 := ⟨fun h => BitVec.eq_of_toNat_eq h, fun h => by rw [h]; rfl⟩
      have hzb : (z.toNat == 6) = (z == 6) := by rw [Bool.eq_iff_iff, beq_iff_eq, beq_iff_eq, hz]
      have hk : ∀ b : Nat, b < 4 → (k.toNat = b ↔ k = BitVec.ofNat 2 b) := fun b hb =>
        ⟨fun h => by rw [← h, BitVec.ofNat_toNat, BitVec.setWidth_eq], fun h => by rw [h, BitVec.toNat_ofNat]; omega⟩
      refine or_congr_right (exists_congr fun f => and_congr_right fun _ => (mem_fenceFacts (x.whos s) k.toNat z.toNat f g).trans ?_)
      simp only [hz, hzb, hk 1 (by decide), hk 2 (by decide)]
      rfl

theorem xfenceTrav_eq (qs : List Who) : ∀ s : State, s.xfenceTrav qs = { s with wrote := (s.xfenceTrav qs).wrote } := by
  induction qs with
  | nil => exact fun _ => rfl
  | cons q qs ih => exact fun s => ih (s.release [q] 5 [.trav q.me])

theorem xfenceTrav_waves (qs : List Who) (ws : List Wave) : ∀ s : State, (({ s with waves := ws } : State).xfenceTrav qs).wrote = (s.xfenceTrav qs).wrote := by
  induction qs with
  | nil => exact fun _ => rfl
  | cons q qs ih => exact fun s => ih (s.release [q] 5 [.trav q.me])

theorem fromEngine_nil (s : State) (dom : Nat) : s.fromEngine [] dom = s := by
  have h : ∀ w : Unshown, (if w.eng == some dom then w.add [] else w) = w := fun w => by split <;> rfl
  exact congrArg (fun ws => ({ s with wrote := ws } : State)) ((List.map_congr_left fun w _ => h w).trans (List.map_id _))

/-- What XFENCE does besides letting its lanes go on (R155, R340). -/
def xfenced (d : BitVec 1) (m : BitVec 3) (i : Iss) (s : State) : State :=
  if d = 1 then (s.dropCopies i.die i.core).fromEngine (i.whos s) m.toNat
  else if m.toNat = 1 then s.xfenceTrav (i.whos s)
  else if m.toNat = 3 then { s with esuDescs := s.esuDescs.filter (fun x => x.ctx != i.c) }
  else s

theorem xfenced_rest (d : BitVec 1) (m : BitVec 3) (i : Iss) (s : State) :
    xfenced d m i s = { s with copies := (xfenced d m i s).copies, esuDescs := (xfenced d m i s).esuDescs, wrote := (xfenced d m i s).wrote } := by
  unfold xfenced
  split
  · rfl
  · split
    · rw [xfenceTrav_eq]
    · split <;> rfl

theorem xfence_issues (d : BitVec 1) (m : BitVec 3) :
    let mine (x : Iss) (c : Copy) : Bool := c.die == x.die && (c.core == none || c.core == some x.core)
    Issues (.xfence d m) (fun _ _ => { bad := !Instr.wf (.xfence d m) })
      (fun s x => ∀ L ∈ x.E, s.lanePend x.uid L (xfenceOf d m) = [] ∧ s.readsPend x.uid L = false)
      (fun s => { s.less with copies := [], esuDescs := [], wrote := [] })
      (fun s x w s' w' => w'.less = w.less ∧ (∀ L ∈ x.E, Passed (w.lane L) (w'.lane L)) ∧
        s'.wrote = (if d = 1 then s.fromEngine (x.whos s) m.toNat else if m = 1 then s.xfenceTrav (x.whos s) else s).wrote ∧
        s'.copies = (if d = 1 ∧ x.E ≠ [] then s.copies.filter (fun c => !mine x c) else s.copies) ∧
        s'.esuDescs = if d = 0 ∧ m = 3 ∧ x.E ≠ [] then s.esuDescs.filter (fun e => e.ctx != x.c) else s.esuDescs) := by
  intro mine s w hi hr hp
  let ff : FormF := fun _ _ => { bad := !Instr.wf (.xfence d m) }
  let x := issueOf s w ff
  have hd : d ≠ 1 → d = 0 := fun h => by
    have := d.isLt
    refine BitVec.eq_of_toNat_eq ?_
    have h1 : d.toNat ≠ 1 := fun e => h (BitVec.eq_of_toNat_eq e)
    show d.toNat = 0
    omega
  have hm : ∀ b : Nat, b < 8 → (m.toNat = b ↔ m = BitVec.ofNat 3 b) := fun b hb =>
    ⟨fun h => by rw [← h, BitVec.ofNat_toNat, BitVec.setWidth_eq], fun h => by rw [h, BitVec.toNat_ofNat]; omega⟩
  have hm1 : m.toNat = 1 ↔ m = 1 := hm 1 (by decide)
  have hm3 : m.toNat = 3 ↔ m = 3 := hm 3 (by decide)
  have hrest := xfenced_rest d m x (s.skipped w ff)
  obtain ⟨w', hiss, hless, hstate, hpass⟩ := fence_goes_on (xfenced d m) hi hr hp (congrArg State.waves hrest :) (congrArg State.pkg hrest :)
  refine ⟨_, w', rfl, hiss, ?_, hless, hpass, ?_⟩
  · refine (congrArg (fun u : State => ({ u with copies := [], esuDescs := [], wrote := [] } : State)) hstate :).trans ?_
    by_cases hE : executing s w ff = []
    · rw [if_pos hE]
    · rw [if_neg hE]
      exact (congrArg (fun u : State => ({ u.less with copies := [], esuDescs := [], wrote := [] } : State)) hrest :)
  · suffices h : ∀ u : State, u = (if executing s w ff = [] then s else xfenced d m x (s.skipped w ff)) →
        u.wrote = (if d = 1 then s.fromEngine (x.whos s) m.toNat else if m = 1 then s.xfenceTrav (x.whos s) else s).wrote ∧
        u.copies = (if d = 1 ∧ x.E ≠ [] then s.copies.filter (fun c => !mine x c) else s.copies) ∧
        u.esuDescs = if d = 0 ∧ m = 3 ∧ x.E ≠ [] then s.esuDescs.filter (fun e => e.ctx != x.c) else s.esuDescs by
      obtain ⟨h1, h2, h3⟩ := h _ rfl
      exact ⟨(congrArg State.wrote hstate :).trans h1, (congrArg State.copies hstate :).trans h2, (congrArg State.esuDescs hstate :).trans h3⟩
    intro u hu
    by_cases hE : executing s w ff = []
    · rw [if_pos hE] at hu
      have hx : x.E = [] := hE
      have hwho : x.whos s = [] := congrArg (List.map fun L => s.whoOf x.uid L) hE
      have hn1 : ¬(d = 1 ∧ x.E ≠ []) := fun h => h.2 hx
      have hn0 : ¬(d = 0 ∧ m = 3 ∧ x.E ≠ []) := fun h => h.2.2 hx
      rw [hu, hwho, fromEngine_nil, if_neg hn1, if_neg hn0]
      refine ⟨?_, rfl, rfl⟩
      split
      · rfl
      · split <;> rfl
    · rw [if_neg hE] at hu
      have hx : x.E ≠ [] := hE
      subst hu
      unfold xfenced
      rw [whos_skipped hi]
      by_cases h1 : d = 1
      · have hn0 : ¬(d = 0 ∧ m = 3 ∧ x.E ≠ []) := fun h => absurd (h.1.symm.trans h1) (by decide)
        rw [if_pos h1, if_pos h1, if_pos ⟨h1, hx⟩, if_neg hn0]
        exact ⟨rfl, rfl, rfl⟩
      · have hn1 : ¬(d = 1 ∧ x.E ≠ []) := fun h => h1 h.1
        rw [if_neg h1, if_neg h1, if_neg hn1]
        by_cases h2 : m = 1
        · have hn3 : ¬(d = 0 ∧ m = 3 ∧ x.E ≠ []) := fun h => absurd (h.2.1.symm.trans h2) (by decide)
          rw [if_pos (hm1.mpr h2), if_pos h2, if_neg hn3]
          have htrav := xfenceTrav_eq (x.whos s) (s.skipped w ff)
          exact ⟨xfenceTrav_waves _ _ s, (congrArg State.copies htrav :), (congrArg State.esuDescs htrav :)⟩
        · rw [if_neg (mt hm1.mp h2), if_neg h2]
          by_cases h3 : m = 3
          · rw [if_pos (hm3.mpr h3), if_pos ⟨hd h1, h3, hx⟩]
            exact ⟨rfl, rfl, rfl⟩
          · have hn3 : ¬(d = 0 ∧ m = 3 ∧ x.E ≠ []) := fun h => h3 h.2.1
            rw [if_neg (mt hm3.mp h3), if_neg hn3]
            exact ⟨rfl, rfl, rfl⟩

/-- Settles O21: a prefetch touches what no program sees, and a fence adds to what a write happens before exactly what R152 says. -/
theorem prefetchBasesAndFences : Obligations.PrefetchBasesAndFences := by
  unfold Obligations.PrefetchBasesAndFences
  exact ⟨⟨pref_issues, bset_issues, bget_issues⟩, fence_issues, xfence_issues⟩

end Sys2Proof.Machine

/-!
PROOFS. Barriers and tickets (O22).
-/

namespace Sys2Proof.Machine

/-- An issue whose body raises no trap and changes of its wave the executing lanes only, each as its key says; the state and the lanes after it. -/
theorem issue_less_keyed {s : State} {w : Wave} {ff : FormF} {busy : State → Iss → Option State} {body : Iss → State → State × Traps} {α : Type}
    (key : α → Nat) (g : α → Lane → Lane) (rs : List α) (s2 : State) (hi : Issuing s w) (hr : Ready s w ff) (hkeys : rs.map key = executing s w ff)
    (hst : ∀ r ∈ rs, (g r (w.lane (key r))).stepped = false) (hb : busy s (issueOf s w ff) = none) (hbody : body (issueOf s w ff) (s.skipped w ff) = (s2, []))
    (hw : s2.waves = ((s.skipped w ff).updWave w.uid (fun v => rs.foldl (fun v r => v.updLane (key r) (g r)) v)).waves) (hc : s2.pkg = s.pkg) :
    ∃ w', Issued s (s.issue ff busy body) w w' ff ∧ w'.less = w.less ∧ (s.issue ff busy body).less = (bodyState s w ff s2).less ∧
      ∀ r ∈ rs, w'.lane (key r) = (g r (w.lane (key r))).noted := by
  obtain ⟨y, heq, hiss, hnil, hsome, hlanes⟩ := issue_lanes key g rs id s2 (fun _ => rfl) (fun _ => rfl) hi hr hkeys hst (fun _ => hb) (fun _ => hbody) (fun _ => hw) fun _ => hc
  refine ⟨_, hiss, ?_, ?_, hlanes⟩
  · by_cases hE : executing s w ff = []
    · exact hnil hE
    · obtain ⟨ls, hy⟩ := hsome hE
      have hyl : y.less = (w.skipped s ff).less := by rw [hy]; rfl
      exact hyl.trans (less_skipped s w ff)
  · rw [heq, less_noteIssue]

/-! ## Barriers (R341 to R343) -/

/-- The team with barrier b in this state. -/
def Team.withBar (t : Team) (b : Nat) (y : Bar) : Team := { t with bars := listUpd t.bars b (fun _ => y) }

theorem listUpd_same {α : Type} (d : α) : ∀ (xs : List α) (i : Nat), listUpd xs i (fun _ => xs.getD i d) = xs
  | [], _ => rfl
  | _ :: _, 0 => rfl
  | x :: xs, i + 1 => congrArg (x :: ·) (listUpd_same d xs i)

theorem withBar_same (t : Team) (b : Nat) : t.withBar b (t.bars.getD b {}) = t := by
  unfold Team.withBar
  rw [listUpd_same]

theorem bars_withBar {t : Team} {b : Nat} (y : Bar) (hb : b < t.bars.length) : (t.withBar b y).bars.getD b {} = y := by
  have h := getD_listUpd (fun _ => y) ({} : Bar) t.bars b b
  rw [if_pos ⟨rfl, hb⟩] at h
  exact h

theorem updBar_withBar (t : Team) (b : Nat) (y : Bar) (f : Bar → Bar) : ({ t.withBar b y with bars := listUpd (t.withBar b y).bars b f } : Team) = t.withBar b (f y) := by
  unfold Team.withBar
  rw [listUpd_listUpd]

/-- A barrier of the team stands in this state; of the machine, nothing but it, the order of writes and blocked lanes of a wave has changed. -/
structure BarAt (s u : State) (t : Team) (b : Nat) (y : Bar) : Prop where
  rest : { u.lessTeams with wrote := [], fresh := 0 } = { s.lessTeams with wrote := [], fresh := 0 }
  team : u.team? t.tid = some (t.withBar b y)
  others : ∀ k, k ≠ t.tid → u.team? k = s.team? k

theorem BarAt.bar {s u : State} {t : Team} {b : Nat} {y : Bar} (h : BarAt s u t b y) (hb : b < t.bars.length) : u.bar t.tid b = y := by
  unfold State.bar
  rw [h.team]
  exact bars_withBar y hb

theorem BarAt.updBar {s u : State} {t : Team} {b : Nat} {y : Bar} (h : BarAt s u t b y) (f : Bar → Bar) : BarAt s (u.updBar t.tid b f) t b (f y) where
  rest := h.rest
  team := by
    refine (team_updTeam u t.tid (fun v => { v with bars := listUpd v.bars b f }) fun _ => rfl).trans ?_
    rw [h.team]
    exact congrArg some (updBar_withBar t b y f)
  others := fun k hk => (team_updTeam_other u (fun v => { v with bars := listUpd v.bars b f }) (fun _ => rfl) hk).trans (h.others k hk)

/-- What a lane becomes at a barrier: it waits for the phase in which it has arrived, or goes on (R342). -/
def barTo (k : BarKind) (b : Nat) (y : Bar) (key n : Nat) (l : Lane) : Lane :=
  if k != .wait && y.has key then l.blockedOn (.bar b y.phase true (k == .sync)) n
  else if k = .arrive then l.adv
  else if k = .sync || y.waits key then l.blockedOn (.bar b y.phase false true) n
  else l.adv

/-- What a lane makes of the barrier, as the lanes after it see it. -/
structure BarKept (k : BarKind) (key : Nat) (y y' : Bar) : Prop where
  phase : y'.phase = y.phase
  arrived : ∀ j, j < 1024 → y'.arrived.getLsbD j = (y.arrived.getLsbD j || (k != .wait && key == j))
  last : ∀ j, j ≠ key → y'.waits j = y.waits j

theorem BarAt.wrote {s u u' : State} {t : Team} {b : Nat} {y : Bar} (h : BarAt s u t b y) (hu : u' = { u with wrote := u'.wrote }) : BarAt s u' t b y := by
  rw [hu]
  exact ⟨h.rest, h.team, h.others⟩

theorem BarAt.obtainBar {s u : State} {t : Team} {b : Nat} {y : Bar} (h : BarAt s u t b y) (q : Who) (k : Sync) : BarAt s (u.obtainBar q k) t b y :=
  h.wrote rfl

theorem BarAt.updLane {s u : State} {t : Team} {b : Nat} {y : Bar} (h : BarAt s u t b y) (uid L : Nat) (f : Lane → Lane) : BarAt s (u.updLane uid L f) t b y :=
  ⟨h.rest, h.team, h.others⟩

theorem BarAt.block {s u : State} {t : Team} {b : Nat} {y : Bar} (h : BarAt s u t b y) (uid L : Nat) (wt : Wait) : BarAt s (u.block uid L wt) t b y :=
  ⟨h.rest, h.team, h.others⟩

theorem arrive_kept {k : BarKind} {key : Nat} {y : Bar} (hk : k ≠ .wait) : BarKept k key y (y.arrive key) where
  phase := rfl
  arrived := fun j hj => by
    have hkb : (k != .wait) = true := bne_iff_ne.mpr hk
    rw [hkb, Bool.true_and]
    unfold Bar.arrive
    dsimp only
    rw [BitVec.getLsbD_or, BitVec.getLsbD_shiftLeft]
    refine congrArg (y.arrived.getLsbD j || ·) ?_
    rw [decide_eq_true hj, Bool.true_and, BitVec.getLsbD_one, Bool.eq_iff_iff]
    simp
    omega
  last := fun j hj => by
    unfold Bar.waits Bar.arrive
    dsimp only
    rw [find_put, if_neg hj]

theorem forget_kept {k : BarKind} {key : Nat} {y y' : Bar} (h : BarKept k key y y') : BarKept k key y (y'.forget key) where
  phase := h.phase
  arrived := h.arrived
  last := fun j hj => by
    refine Eq.trans ?_ (h.last j hj)
    unfold Bar.waits Bar.forget
    dsimp only
    rw [find_drop_other hj]

theorem arrive_waits (y : Bar) (key : Nat) : (y.arrive key).waits key = true := by
  unfold Bar.waits Bar.arrive
  dsimp only
  rw [find_put, if_pos rfl]
  exact beq_self_eq_true _

theorem barTo_again {k : BarKind} {y : Bar} {key : Nat} (b n : Nat) (h : (k != .wait && y.has key) = true) :
    barTo k b y key n = fun l => l.blockedOn (.bar b y.phase true (k == .sync)) n := funext fun _ => if_pos h
theorem barTo_arrive {y : Bar} {key : Nat} (b n : Nat) (h : ¬(BarKind.arrive != .wait && y.has key) = true) : barTo .arrive b y key n = Lane.adv :=
  funext fun _ => (if_neg h).trans (if_pos rfl)
theorem barTo_waits {k : BarKind} {y : Bar} {key : Nat} (b n : Nat) (h : ¬(k != .wait && y.has key) = true) (hk : k ≠ .arrive) (hw : (k = .sync || y.waits key) = true) :
    barTo k b y key n = fun l => l.blockedOn (.bar b y.phase false true) n := funext fun _ => (if_neg h).trans ((if_neg hk).trans (if_pos hw))
theorem barTo_goes {k : BarKind} {y : Bar} {key : Nat} (b n : Nat) (h : ¬(k != .wait && y.has key) = true) (hk : k ≠ .arrive) (hw : ¬(k = .sync || y.waits key) = true) :
    barTo k b y key n = Lane.adv := funext fun _ => (if_neg h).trans ((if_neg hk).trans (if_neg hw))

theorem barLane_spec {s u : State} {i : Iss} {b L : Nat} {k : BarKind} {y : Bar} (h : BarAt s u i.t b y) (hb : b < i.t.bars.length) :
    ∃ y' n, BarAt s (u.barLane i b k L) i.t b y' ∧ BarKept k (laneKey i.w L) y y' ∧
      (u.barLane i b k L).waves = (u.updLane i.uid L (barTo k b y (laneKey i.w L) n)).waves ∧ (u.barLane i b k L).pkg = u.pkg := by
  have hbar := h.bar hb
  by_cases hagain : (k != .wait && y.has (laneKey i.w L)) = true
  · have he : u.barLane i b k L = u.block i.uid L (.bar b y.phase true (k == .sync)) := by
      unfold State.barLane
      rw [hbar]
      exact if_pos hagain
    rw [he]
    refine ⟨y, u.fresh, h.block _ _ _, ⟨rfl, fun j _ => ?_, fun _ _ => rfl⟩, ?_, rfl⟩
    · obtain ⟨hk, hhas⟩ := Bool.and_eq_true_iff.mp hagain
      rw [hk, Bool.true_and]
      by_cases hj : laneKey i.w L = j
      · rw [← hj, show y.arrived.getLsbD (laneKey i.w L) = true from hhas]
        rfl
      · rw [beq_false_of_ne hj, Bool.or_false]
    · rw [barTo_again b u.fresh hagain]
      rfl
  · let s1 : State := if k = .wait then u
      else (u.release [u.whoOf i.uid L] (barScope i.t b) [barKey i.t b y.phase]).updBar i.t.tid b (fun x => x.arrive (laneKey i.w L))
    let y1 : Bar := if k = .wait then y else y.arrive (laneKey i.w L)
    have he : u.barLane i b k L = if k = .arrive then s1.updLane i.uid L Lane.adv
        else if (s1.bar i.t.tid b).waits (laneKey i.w L) then s1.block i.uid L (.bar b y.phase false true)
        else ((s1.updBar i.t.tid b (fun x => x.forget (laneKey i.w L))).obtainBar (u.whoOf i.uid L) (barKey i.t b ((Tab.find y.last (laneKey i.w L)).getD 0))).updLane i.uid L
          Lane.adv := by
      unfold State.barLane
      rw [hbar]
      exact if_neg hagain
    have hat : BarAt s s1 i.t b y1 := by
      by_cases hk : k = .wait
      · rw [show s1 = u from if_pos hk, show y1 = y from if_pos hk]
        exact h
      · rw [show s1 = _ from if_neg hk, show y1 = _ from if_neg hk]
        exact (h.wrote rfl).updBar _
    have hkept : BarKept k (laneKey i.w L) y y1 := by
      by_cases hk : k = .wait
      · rw [show y1 = y from if_pos hk, hk]
        exact ⟨rfl, fun j _ => (Bool.or_false _).symm, fun _ _ => rfl⟩
      · rw [show y1 = _ from if_neg hk]
        exact arrive_kept hk
    have hwaits : k ≠ .arrive → y1.waits (laneKey i.w L) = (k = .sync || y.waits (laneKey i.w L)) := fun hna => by
      cases k with
      | sync => exact arrive_waits y _
      | arrive => exact absurd rfl hna
      | wait => rfl
    have hw1 : s1.waves = u.waves ∧ s1.pkg = u.pkg := by
      by_cases hk : k = .wait
      · rw [show s1 = u from if_pos hk]
        exact ⟨rfl, rfl⟩
      · rw [show s1 = _ from if_neg hk]
        exact ⟨rfl, rfl⟩
    clear_value s1
    rw [he]
    by_cases ha : k = .arrive
    · rw [if_pos ha]
      subst ha
      exact ⟨y1, 0, hat.updLane _ _ _, hkept, by rw [barTo_arrive b 0 hagain]; exact waves_updWave_of hw1.1 _ _, hw1.2⟩
    · rw [if_neg ha, hat.bar hb, hwaits ha]
      by_cases hw : (k = .sync || y.waits (laneKey i.w L)) = true
      · rw [if_pos hw]
        exact ⟨y1, s1.fresh, hat.block _ _ _, hkept, by rw [barTo_waits b _ hagain ha hw]; exact waves_updWave_of hw1.1 _ _, hw1.2⟩
      · rw [if_neg hw]
        exact ⟨y1.forget (laneKey i.w L), 0, ((hat.updBar (fun x => x.forget (laneKey i.w L))).obtainBar _ _).updLane _ _ _, forget_kept hkept, by rw [barTo_goes b 0 hagain ha hw]; exact waves_updWave_of hw1.1 _ _, hw1.2⟩

/-- The lanes at a barrier, one after the other, each with the number it blocks under. -/
theorem foldl_barLane {s : State} {i : Iss} {b : Nat} {k : BarKind} (hb : b < i.t.bars.length) (b0 : Bar) : ∀ (Ls : List Nat) (u : State) (y : Bar), Ls.Nodup →
    BarAt s u i.t b y → y.phase = b0.phase → (∀ L ∈ Ls, y.has (laneKey i.w L) = b0.has (laneKey i.w L) ∧ y.waits (laneKey i.w L) = b0.waits (laneKey i.w L)) →
    ∃ (y' : Bar) (rs : List (Nat × Nat)), BarAt s (Ls.foldl (fun u L => u.barLane i b k L) u) i.t b y' ∧ y'.phase = b0.phase ∧
      (∀ j, j < 1024 → y'.arrived.getLsbD j = (y.arrived.getLsbD j || (k != .wait && Ls.any (fun L => laneKey i.w L == j)))) ∧ rs.map Prod.fst = Ls ∧
      (Ls.foldl (fun u L => u.barLane i b k L) u).waves =
        (u.updWave i.uid (fun v => rs.foldl (fun v r => v.updLane r.1 (barTo k b b0 (laneKey i.w r.1) r.2)) v)).waves ∧
      (Ls.foldl (fun u L => u.barLane i b k L) u).pkg = u.pkg := by
  intro Ls
  induction Ls with
  | nil => exact fun u y _ hat hph _ => ⟨y, [], hat, hph, fun j _ => by simp, rfl, by simp [State.updWave], rfl⟩
  | cons L Ls ih =>
    intro u y hn hat hph hkeys
    obtain ⟨hL, hn⟩ := List.nodup_cons.mp hn
    obtain ⟨y1, n, hat1, hkept, hw1, hpkg1⟩ := barLane_spec (k := k) (L := L) hat hb
    obtain ⟨hhas, hwaits⟩ := hkeys L (List.mem_cons_self ..)
    have hto : barTo k b y (laneKey i.w L) n = barTo k b b0 (laneKey i.w L) n := by
      unfold barTo
      rw [hhas, hwaits, hph]
    have hne : ∀ K ∈ Ls, laneKey i.w K ≠ laneKey i.w L := fun K hK e => hL (by
      have : K = L := by
        unfold laneKey at e
        omega
      exact this ▸ hK)
    have hlater : ∀ K ∈ Ls, y1.has (laneKey i.w K) = b0.has (laneKey i.w K) ∧ y1.waits (laneKey i.w K) = b0.waits (laneKey i.w K) := fun K hK => by
      obtain ⟨h1, h2⟩ := hkeys K (List.mem_cons_of_mem _ hK)
      refine ⟨?_, (hkept.last _ (hne K hK)).trans h2⟩
      by_cases hlt : laneKey i.w K < 1024
      · refine (hkept.arrived _ hlt).trans ?_
        rw [beq_false_of_ne (hne K hK).symm, Bool.and_false, Bool.or_false]
        exact h1
      · unfold Bar.has
        rw [BitVec.getLsbD_of_ge _ _ (Nat.le_of_not_lt hlt), BitVec.getLsbD_of_ge _ _ (Nat.le_of_not_lt hlt)]
    obtain ⟨y', rs, hat', hph', harr, hrs, hw', hpkg'⟩ := ih _ y1 hn hat1 (hkept.phase.trans hph) hlater
    refine ⟨y', (L, n) :: rs, hat', hph', fun j hj => ?_, by rw [List.map_cons, hrs], hw'.trans ?_, hpkg'.trans hpkg1⟩
    · rw [harr j hj, hkept.arrived j hj, List.any_cons, Bool.and_or_distrib_left, Bool.or_assoc]
    · rw [hto] at hw1
      exact (waves_updWave_of hw1 i.uid _).trans (congrArg State.waves
        (updWave_updWave u i.uid (fun v => v.updLane L (barTo k b b0 (laneKey i.w L) n)) (fun v => rs.foldl (fun v r => v.updLane r.1 (barTo k b b0 (laneKey i.w r.1) r.2)) v)
          fun _ => rfl) :)

/-- What a BAR form does with its lanes. -/
def barBody (b : Nat) (k : BarKind) (i : Iss) (s : State) : State × Traps :=
  let (bad, ok) := i.E.partition (fun L => (i.l L).routine.isSome)
  (ok.foldl (fun s L => s.barLane i b k L) s, bad.map (fun L => (L, (i.l L).trapHere tkROUTINE 0)))

theorem barTo_stepped {k : BarKind} {b : Nat} {y : Bar} {key n : Nat} {l : Lane} (h : l.stepping = false ∧ l.stepped = false) : (barTo k b y key n l).stepped = false := by
  unfold barTo
  repeat' split
  · exact h.2
  · exact h.1
  · exact h.2
  · exact h.1

theorem blocked_noted (l : Lane) (wt : Wait) (n : Nat) : Blocked l (l.blockedOn wt n).noted wt := ⟨rfl, rfl, ⟨rfl, rfl⟩, rfl⟩
theorem passed_noted (l : Lane) : Passed l l.adv.noted := ⟨rfl, ⟨rfl, rfl⟩, rfl⟩

/-- A BAR form of lanes outside routines with nothing left for it to order. -/
theorem barOp_issues {i : Instr} {b : Nat} {k : BarKind} (he : ∀ s, exec i s = .next (barOp b k s)) (hb : b < 17) :
    Issues i (fun _ _ => { prd := false })
      (fun s x => s.team? x.w.tid = some x.t ∧ x.t.bars.length = 17 ∧ ∀ L ∈ x.E, (x.l L).routine = none ∧ s.unquiet x.uid L anyAccess = false)
      (fun s => { s.lessTeams with wrote := [], fresh := 0 })
      (fun s x w s' w' =>
        let y0 : Bar := x.t.bars.getD b {}
        w'.less = w.less ∧
        (∃ y, s'.team? x.t.tid = some (x.t.withBar b y) ∧ y.phase = y0.phase ∧
          ∀ j, j < 1024 → y.arrived.getLsbD j = (y0.arrived.getLsbD j || (k != .wait && x.E.any (fun L => laneKey x.w L == j)))) ∧
        (∀ u, u ≠ x.t.tid → s'.team? u = s.team? u) ∧
        ∀ L ∈ x.E, ∃ n, w'.lane L = (barTo k b y0 (laneKey x.w L) n (w.lane L)).noted) := by
  intro s w hi hr ⟨hteam, hlen, hquiet⟩
  let ff : FormF := fun _ _ => { prd := false }
  let x := issueOf s w ff
  let y0 : Bar := x.t.bars.getD b {}
  have hb' : b < x.t.bars.length := by
    rw [show x.t.bars.length = 17 from hlen]
    exact hb
  have htid : x.t.tid = x.w.tid := by simpa using List.find?_some hteam
  have hat : ∀ u : State, u.teams = s.teams → { u.lessTeams with wrote := [], fresh := 0 } = ({ s.lessTeams with wrote := [], fresh := 0 } : State) → BarAt s u x.t b y0 := fun u hu hrest =>
    ⟨hrest, by rw [team?_congr hu, htid, withBar_same]; exact hteam, fun j _ => team?_congr hu j⟩
  obtain ⟨y, rs, hafter, hph, harr, hrs, hw, hpkg⟩ := foldl_barLane (k := k) hb' y0 x.E (s.skipped w ff) y0 (executing_nodup s w ff) (hat _ rfl rfl) rfl fun _ _ => ⟨rfl, rfl⟩
  have hno : ∀ L ∈ x.E, (x.l L).routine.isSome = false := fun L hL => by rw [(hquiet L hL).1]; rfl
  have hbusy : waitIf (fun s i => i.E.any (fun L => (i.l L).routine.isNone && s.unquiet i.uid L anyAccess)) s x = none := by
    refine if_neg (ne_true_of_eq_false (List.any_eq_false.mpr fun L hL => ?_))
    rw [(hquiet L hL).2, Bool.and_false]
    exact Bool.false_ne_true
  have hbody : barBody b k x (s.skipped w ff) = (x.E.foldl (fun u L => u.barLane x b k L) (s.skipped w ff), []) := by
    have hbad : x.E.filter (fun L => (x.l L).routine.isSome) = [] := List.filter_eq_nil_iff.mpr fun L hL => ne_true_of_eq_false (hno L hL)
    have hok : x.E.filter (not ∘ fun L => (x.l L).routine.isSome) = x.E := List.filter_eq_self.mpr fun L hL => by
      simp only [Function.comp, hno L hL]
      rfl
    unfold barBody
    rw [List.partition_eq_filter_filter, hbad, hok]
    rfl
  obtain ⟨w', hiss, hless, hstate, hlanes⟩ := issue_less_keyed Prod.fst (fun r => barTo k b y0 (laneKey x.w r.1) r.2) rs _ hi hr hrs (fun r hr => barTo_stepped (executing_unstepped hi (hrs ▸ List.mem_map_of_mem hr))) hbusy hbody hw hpkg
  have hthen : BarAt s (bodyState s w ff (x.E.foldl (fun u L => u.barLane x b k L) (s.skipped w ff))) x.t b y := by
    by_cases hE : executing s w ff = []
    · have hnil : (x.E.foldl (fun u L => u.barLane x b k L) (s.skipped w ff)) = s.skipped w ff := by
        rw [show x.E = [] from hE]
        rfl
      rw [bodyState_nil hE, ← hnil]
      exact hafter
    · rw [bodyState_some hE]
      exact hafter
  refine ⟨_, w', he s, hiss, ?_, hless, ⟨y, ?_, hph, harr⟩, fun u hu => ?_, fun L hL => ?_⟩
  · exact (congrArg (fun u : State => ({ u.lessTeams with wrote := [], fresh := 0 } : State)) hstate :).trans hthen.rest
  · exact (team?_congr (congrArg State.teams hstate :) _).trans hthen.team
  · exact (team?_congr (congrArg State.teams hstate :) _).trans (hthen.others u hu)
  · have hmem : L ∈ rs.map Prod.fst := hrs ▸ hL
    obtain ⟨r, hr, rfl⟩ := List.mem_map.mp hmem
    exact ⟨r.2, hlanes r hr⟩

/-- A lane at a barrier blocks, or goes on. -/
theorem barTo_does (k : BarKind) (b : Nat) (y : Bar) (key n : Nat) (l : Lane) :
    let l' := (barTo k b y key n l).noted
    if k != .wait && y.has key then Blocked l l' (.bar b y.phase true (k != .arrive))
    else if k != .arrive && (k != .wait || y.waits key) then Blocked l l' (.bar b y.phase false true)
    else Passed l l' := by
  intro l'
  by_cases hag : (k != .wait && y.has key) = true
  · rw [if_pos hag]
    have hto : l' = (l.blockedOn (.bar b y.phase true (k == .sync)) n).noted := congrArg Lane.noted (if_pos hag)
    have hkind : (k == .sync) = (k != .arrive) := by
      cases k with
      | sync => rfl
      | arrive => rfl
      | wait => cases hag
    rw [hto, hkind]
    exact blocked_noted l _ n
  · rw [if_neg hag]
    have hto : l' = (if k = .arrive then l.adv else if k = .sync || y.waits key then l.blockedOn (.bar b y.phase false true) n else l.adv).noted :=
      congrArg Lane.noted (if_neg hag)
    rw [hto]
    cases k with
    | sync => exact blocked_noted l _ n
    | arrive => exact passed_noted l
    | wait =>
      cases hw : y.waits key with
      | true => exact blocked_noted l _ n
      | false => exact passed_noted l

/-- What O22 says of a BAR form, which arrives unless it only waits, and blocks unless it only arrives. -/
theorem bar_issues {i : Instr} {b : Nat} (k : BarKind) (he : ∀ s, exec i s = .next (barOp b k s)) (hb : b < 17) :
    Issues i (fun _ _ => { prd := false })
      (fun s x => s.team? x.w.tid = some x.t ∧ x.t.bars.length = 17 ∧ ∀ L ∈ x.E, (x.l L).routine = none ∧ s.unquiet x.uid L anyAccess = false)
      (fun s => { s.lessTeams with wrote := [], fresh := 0 })
      (fun s x w s' w' => w'.less = w.less ∧
        (∃ y, s'.team? x.t.tid = some { x.t with bars := listUpd x.t.bars b (fun _ => y) } ∧ y.phase = (x.t.bars.getD b {}).phase ∧
          ∀ j, j < 1024 → y.arrived.getLsbD j = ((x.t.bars.getD b {}).arrived.getLsbD j || (k != .wait && x.E.any (fun L => 32 * x.w.idx + L == j)))) ∧
        (∀ u, u ≠ x.t.tid → s'.team? u = s.team? u) ∧
        ∀ L ∈ x.E,
          let again := k != .wait && (x.t.bars.getD b {}).has (32 * x.w.idx + L)
          if again then Blocked (w.lane L) (w'.lane L) (.bar b (x.t.bars.getD b {}).phase true (k != .arrive))
          else if k != .arrive && (k != .wait || (x.t.bars.getD b {}).waits (32 * x.w.idx + L)) then Blocked (w.lane L) (w'.lane L) (.bar b (x.t.bars.getD b {}).phase false true)
          else Passed (w.lane L) (w'.lane L)) := by
  intro s w hi hr hpre
  obtain ⟨t, w', hexec, hiss, hrest, hless, hteam, hothers, hlanes⟩ := barOp_issues he hb s w hi hr hpre
  refine ⟨t, w', hexec, hiss, hrest, hless, hteam, hothers, fun L hL => ?_⟩
  obtain ⟨n, hl⟩ := hlanes L hL
  rw [hl]
  exact barTo_does k b _ _ n (w.lane L)

/-! ## Tickets (R345, R70) -/

theorem grid?_congr {s t : State} (h : t.grids = s.grids) (gid : Nat) : t.grid? gid = s.grid? gid := by
  unfold State.grid?
  rw [h]


/-- What ORDWAIT is answered, by the tickets of the lower teams. -/
theorem ticketState_spec {g : Grid} {t : Team} {n : Nat} (h : g.ordered = true) (hk : t.kind = .dealt) :
    let below (p : Tickets → Bool) : Prop := ∃ k, k < t.ordinal ∧ p (g.ticketsOf k) = true
    (ticketState g t n = some 1 ↔ below (fun x => x.poisoned.getLsbD n)) ∧
      (ticketState g t n = some 0 ↔ ¬ below (fun x => x.poisoned.getLsbD n || !x.taken.getLsbD n)) := by
  intro below
  have ht : ticketed g t = true := by
    unfold ticketed
    rw [h, hk]
    rfl
  have hany : ∀ p : Tickets → Bool, ((List.range t.ordinal).map g.ticketsOf).any p = true ↔ below p := fun p => by
    simp only [List.any_map, List.any_eq_true, List.mem_range]
    rfl
  have hall : ∀ p : Tickets → Bool, ((List.range t.ordinal).map g.ticketsOf).all p = true ↔ ¬ below (fun x => !p x) := fun p => by
    refine Iff.trans ?_ (not_congr (hany fun x => !p x))
    simp
  have hstate : ticketState g t n = if ((List.range t.ordinal).map g.ticketsOf).any (fun x => x.poisoned.getLsbD n) then some 1
      else if ((List.range t.ordinal).map g.ticketsOf).all (fun x => x.taken.getLsbD n) then some 0 else none := by
    unfold ticketState
    rw [ht]
    rfl
  rw [hstate]
  by_cases hp : below (fun x => x.poisoned.getLsbD n)
  · rw [if_pos ((hany _).mpr hp)]
    refine ⟨⟨fun _ => hp, fun _ => rfl⟩, fun h => by simp at h, fun h => absurd ?_ h⟩
    obtain ⟨k, hk, hpk⟩ := hp
    exact ⟨k, hk, Bool.or_eq_true_iff.mpr (.inl hpk)⟩
  · rw [if_neg (mt (hany _).mp hp)]
    have hboth : below (fun x => x.poisoned.getLsbD n || !x.taken.getLsbD n) ↔ below (fun x => !x.taken.getLsbD n) :=
      ⟨fun ⟨k, hk, h⟩ => ⟨k, hk, (Bool.or_eq_true_iff.mp h).resolve_left fun h => hp ⟨k, hk, h⟩⟩, fun ⟨k, hk, h⟩ => ⟨k, hk, Bool.or_eq_true_iff.mpr (.inr h)⟩⟩
    rw [hboth]
    by_cases htk : below (fun x => !x.taken.getLsbD n)
    · rw [if_neg (mt (hall _).mp (not_not_intro htk))]
      exact ⟨⟨(nomatch ·), fun h => absurd h hp⟩, (nomatch ·), fun h => absurd htk h⟩
    · rw [if_pos ((hall _).mpr htk)]
      exact ⟨⟨fun h => by simp at h, fun h => absurd h hp⟩, fun _ => htk, fun _ => rfl⟩

/-- What ORDWAIT does with its lanes. -/
def ordBody (d : BitVec 7) (n : BitVec 4) (i : Iss) (s : State) : State × Traps :=
  (i.E.foldl (fun s L =>
    match ticketState i.g i.t n.toNat with
    | some v => (s.goOn i L (d.toNat, 1)).ordLand i.t n.toNat i.uid L d.toNat v (i.l L).pc
    | none => (s.updLane i.uid L (fun l => l.mark l.pc d.toNat 1)).block i.uid L (.ordwait n.toNat d.toNat)) s, [])

/-- An answered lane goes on, and its answer may land. -/
def ordStep (x : Iss) (n d : Nat) (v : Word) (u : State) (L : Nat) : State := (u.goOn x L (d, 1)).ordLand x.t n x.uid L d v (x.l L).pc

theorem foldl_ordStep (x : Iss) (n d : Nat) (v : Word) : ∀ (Ls : List Nat) (s : State),
    let u := Ls.foldl (ordStep x n d v) s
    { u.lessLands with wrote := [] } = { s.lessLands with wrote := [] } ∧ u.fresh = s.fresh + Ls.length ∧
      u.lands = s.lands ++ (Ls.zipIdx s.fresh).map (fun p => { id := p.2, uid := x.uid, lane := p.1, d, vals := [v], due := s.cycle, pc := (x.l p.1).pc }) ∧
      u.waves = (s.updWave x.uid (fun v => Ls.foldl (fun v L => v.updLane L (fun l => (l.mark l.pc d 1).adv)) v)).waves
  | [], s => ⟨rfl, rfl, (List.append_nil _).symm, by simp [State.updWave]⟩
  | L :: Ls, s => by
    intro u
    obtain ⟨h1, h2, h3, h4⟩ := foldl_ordStep x n d v Ls (ordStep x n d v s L)
    have hone : ∃ ws, ordStep x n d v s L = ({ s.goOn x L (d, 1) with wrote := ws } : State).addLand x.uid L d [v] s.cycle (x.l L).pc false := by
      unfold ordStep State.ordLand
      split
      · exact ⟨_, rfl⟩
      · exact ⟨s.wrote, rfl⟩
    obtain ⟨ws, hone⟩ := hone
    rw [hone] at h1 h2 h3 h4
    have hu : u = Ls.foldl (ordStep x n d v) (({ s.goOn x L (d, 1) with wrote := ws } : State).addLand x.uid L d [v] s.cycle (x.l L).pc false) := congrArg (Ls.foldl (ordStep x n d v)) hone
    rw [hu]
    refine ⟨h1, h2.trans ?_, h3.trans ?_, h4.trans ?_⟩
    · rw [List.length_cons, Nat.add_comm Ls.length, ← Nat.add_assoc]
      rfl
    · rw [List.zipIdx_cons, List.map_cons]
      exact List.append_assoc s.lands _ _
    · exact (congrArg State.waves (updWave_updWave s x.uid (fun v => v.updLane L (fun l => (l.mark l.pc d 1).adv))
        (fun v => Ls.foldl (fun v L => v.updLane L (fun l => (l.mark l.pc d 1).adv)) v) fun _ => rfl) :)

/-- ORDWAIT with an answer. -/
theorem ordwait_answers (d : BitVec 7) (n : BitVec 4) (v : Word) :
    Issues (.ordwait d n) (fSYS [] [(d.toNat, 1)]) (fun _ x => ticketState x.g x.t n.toNat = some v)
      (fun s => { s.lessLands with wrote := [] }) (fun s x w s' w' => w'.less = w.less ∧ s'.fresh = s.fresh + x.E.length ∧
        s'.lands = s.lands ++ landsOf s x d.toNat (fun _ => [v]) (fun _ => s.cycle) false ∧
        (∀ L ∈ x.E, Emptied (w.lane L) (w'.lane L) d.toNat 1)) := by
  intro s w hi hr hv
  let ff : FormF := fSYS [] [(d.toNat, 1)]
  let x := issueOf s w ff
  obtain ⟨hrest, hfresh, hlands, hw⟩ := foldl_ordStep x n.toNat d.toNat v x.E (s.skipped w ff)
  have hnil : executing s w ff = [] → (x.E.foldl (ordStep x n.toNat d.toNat v) (s.skipped w ff)).less = s.less := fun h => by
    rw [show x.E = [] from h]
    rfl
  generalize hs2 : x.E.foldl (ordStep x n.toNat d.toNat v) (s.skipped w ff) = s2 at hrest hfresh hlands hw hnil
  have hbody : ordBody d n x (s.skipped w ff) = (s2, []) := by
    unfold ordBody
    rw [show ticketState x.g x.t n.toNat = some v from hv]
    exact congrArg (·, []) hs2
  obtain ⟨w', hiss, hless, hstate, hlanes⟩ := issue_less_all (busy := never) (fun _ l => (l.mark l.pc d.toNat 1).adv) _ hi hr (fun L hL => by
    obtain ⟨rs, e⟩ := mark_eq (w.lane L).pc 1 d.toNat (w.lane L)
    rw [e]
    exact (executing_unstepped hi hL).1) rfl hbody hw (congrArg State.pkg hrest :) hnil
  refine ⟨_, w', rfl, hiss, ?_, hless, (congrArg State.fresh hstate :).trans hfresh, ?_, fun L hL => ?_⟩
  · exact (congrArg (fun u : State => ({ u.lessLands with wrote := [] } : State)) hstate :).trans hrest
  · refine (congrArg State.lands hstate :).trans (hlands.trans ?_)
    unfold landsOf
    rw [List.zipIdx_eq_map_add, List.map_map]
    rfl
  · rw [hlanes L hL]
    exact emptied_mark rfl rfl (executing_dsts (fun _ _ => rfl) one_ne_zero L hL) rfl

/-- ORDWAIT that waits. -/
theorem ordwait_waits (d : BitVec 7) (n : BitVec 4) :
    Issues (.ordwait d n) (fSYS [] [(d.toNat, 1)]) (fun _ x => ticketState x.g x.t n.toNat = none)
      (fun s => { s.less with fresh := 0 }) (fun _ x w _ w' => w'.less = w.less ∧
        ∀ L ∈ x.E, (w'.lane L).st = .blocked (.ordwait n.toNat d.toNat) ∧ (w'.lane L).pc = (w.lane L).pc ∧ ((w'.lane L).reg d.toNat).full = false ∧
          ∀ r, r ≠ d.toNat → (w'.lane L).reg r = (w.lane L).reg r) := by
  intro s w hi hr hv
  let ff : FormF := fSYS [] [(d.toNat, 1)]
  let x := issueOf s w ff
  have hst : ∀ (_ : Nat) (l : Lane), (l.mark l.pc d.toNat 1).stepped = l.stepped := fun _ l => rfl
  obtain ⟨w', hiss, hrest, hless, hlanes⟩ := blockIssue (s := s) (w := w) (ff := ff) (busy := never) (body := ordBody d n)
    (fun _ l => l.mark l.pc d.toNat 1) (fun _ => .ordwait n.toNat d.toNat) hi hr hst (fun _ => rfl) fun _ => by
      unfold ordBody
      rw [show ticketState (issueOf s w ff).g (issueOf s w ff).t n.toNat = none from hv]
      rfl
  refine ⟨_, w', rfl, hiss, hrest, hless, fun L hL => ?_⟩
  obtain ⟨m, hl⟩ := hlanes L hL
  rw [hl]
  have hreg := fun r => reg_mark (w.lane L) (w.lane L).pc d.toNat 1 r (executing_dsts (fun _ _ => rfl) one_ne_zero L hL)
  refine ⟨rfl, rfl, ?_, fun r hrd => ?_⟩
  · exact (congrArg Reg.full ((hreg d.toNat).trans (if_pos ⟨le_refl _, Nat.lt_succ_self _⟩)) :)
  · exact (hreg r).trans (if_neg fun h => hrd (by omega))

theorem waitQuiet_none {p : Acc → Bool} {s : State} {i : Iss} (h : ∀ L ∈ i.E, s.unquiet i.uid L p = false) : waitQuiet p s i = none :=
  if_neg (ne_true_of_eq_false (List.any_eq_false.mpr fun L hL => ne_true_of_eq_false (h L hL)))

/-- What ORDTAKE makes of the machine besides its lanes: its team is marked, and its ticket is taken. -/
def State.orderTaken (s : State) (i : Iss) (n : Nat) : State :=
  let s0 := s.updTeam i.t.tid (fun t => { t with marked := true })
  if ticketed i.g i.t then
    (s0.release (i.whos s) 5 [.ticket i.t.gid i.t.ordinal n]).updGrid i.t.gid (fun g => g.updTickets i.t.ordinal (fun x => { x with taken := x.taken ||| 1#16 <<< n }))
  else s0

/-- What ORDTAKE does with its lanes. -/
def takeBody (n : BitVec 4) (i : Iss) (s : State) : State × Traps :=
  let s0 := s.updTeam i.t.tid (fun t => { t with marked := true })
  let s1 := if ticketed i.g i.t then s0.release (i.whos s) 5 [.ticket i.t.gid i.t.ordinal n.toNat] else s0
  if !ticketed i.g i.t then laneBody (fun _ _ _ l => .ok l.adv) i s1
  else if ticketState i.g i.t n.toNat == some 1 then
    (s0, i.E.map (fun L => (L, (i.l L).trapHere tkTICKETPOISON (n.zeroExtend 32))))
  else
    laneBody (fun _ _ _ l => .ok l.adv) i (s1.updGrid i.t.gid (fun g => g.updTickets i.t.ordinal (fun x => { x with taken := x.taken ||| 1#16 <<< n.toNat })))

theorem orderTaken_rest (s : State) (i : Iss) (n : Nat) :
    ∃ ws, s.orderTaken i n = { s with teams := (s.updTeam i.t.tid (fun t => { t with marked := true })).teams, grids := (s.orderTaken i n).grids, wrote := ws } := by
  unfold State.orderTaken
  dsimp only
  split
  · exact ⟨_, rfl⟩
  · exact ⟨_, rfl⟩

theorem taken_bit (a : BitVec 16) (n k : Nat) (hn : n < 16) : (a ||| 1#16 <<< n).getLsbD k = (a.getLsbD k || (k == n)) := by
  rw [BitVec.getLsbD_or, BitVec.getLsbD_shiftLeft, BitVec.getLsbD_one]
  refine congrArg (a.getLsbD k || ·) ?_
  rw [Bool.eq_iff_iff]
  simp
  omega

/-- Only the ticket of the team itself is taken, and only of an ordered grid. -/
theorem orderTaken_grid {s : State} {i : Iss} {n : Nat} (hn : n < 16) (hg : s.grid? i.t.gid = some i.g) :
    (∃ g', (s.orderTaken i n).grid? i.t.gid = some g' ∧ (g'.ticketsOf i.t.ordinal).poisoned = (i.g.ticketsOf i.t.ordinal).poisoned ∧
      (∀ k, k ≠ i.t.ordinal → g'.ticketsOf k = i.g.ticketsOf k) ∧ { g' with tickets := [] } = { i.g with tickets := [] } ∧
      ∀ k, k < 16 → (g'.ticketsOf i.t.ordinal).taken.getLsbD k = ((i.g.ticketsOf i.t.ordinal).taken.getLsbD k || (ticketed i.g i.t && k == n))) ∧
    ∀ u, u ≠ i.t.gid → (s.orderTaken i n).grid? u = s.grid? u := by
  unfold State.orderTaken
  dsimp only
  by_cases ht : ticketed i.g i.t = true
  · rw [if_pos ht, ht]
    let f (g : Grid) : Grid := g.updTickets i.t.ordinal (fun x => { x with taken := x.taken ||| 1#16 <<< n })
    have hfind : ∀ k, (f i.g).ticketsOf k = if k = i.t.ordinal then { i.g.ticketsOf i.t.ordinal with taken := (i.g.ticketsOf i.t.ordinal).taken ||| 1#16 <<< n } else i.g.ticketsOf k := fun k => by
      show ((Tab.find (Tab.put i.g.tickets i.t.ordinal _) k).getD {}) = _
      rw [find_put]
      split <;> rfl
    have hown := (hfind i.t.ordinal).trans (if_pos rfl)
    refine ⟨⟨f i.g, ?_, by rw [hown], fun k hk => (hfind k).trans (if_neg hk), rfl, fun k _ => ?_⟩, fun u hu => ?_⟩
    · exact (grid_updGrid _ i.t.gid f fun _ => rfl).trans (congrArg (Option.map f) hg)
    · rw [hown]
      exact taken_bit _ n k hn
    · exact grid_updGrid_other _ f (fun _ => rfl) hu
  · rw [if_neg ht, Bool.eq_false_of_not_eq_true ht]
    exact ⟨⟨i.g, hg, rfl, fun _ _ => rfl, rfl, fun _ _ => (Bool.or_false _).symm⟩, fun _ _ => rfl⟩

theorem takeBody_taken {n : BitVec 4} {i : Iss} {s : State} (h : ticketed i.g i.t = true → ticketState i.g i.t n.toNat ≠ some 1) :
    takeBody n i s = laneBody (fun _ _ _ l => .ok l.adv) i (s.orderTaken i n.toNat) := by
  unfold takeBody State.orderTaken
  by_cases ht : ticketed i.g i.t = true
  · have hp : (ticketState i.g i.t n.toNat == some 1) = false := beq_false_of_ne (h ht)
    rw [ht, hp]
    rfl
  · rw [Bool.eq_false_of_not_eq_true ht]
    rfl

theorem laneBody_after {s u : State} {w : Wave} {ff : FormF} (hi : Issuing s w) (hw : u.waves = (s.skipped w ff).waves) :
    laneBody (fun _ _ _ l => .ok l.adv) (issueOf s w ff) u =
      (u.updWave w.uid (fun v => (executing s w ff).foldl (fun v L => v.updLane L (fun _ => (w.lane L).adv)) v), []) :=
  laneBody_ok (fun L => (w.lane L).adv) fun L hL => by
    have hnow : u.laneNow (issueOf s w ff) L = w.lane L := by
      refine Eq.trans ?_ (laneNow_skipped hi.found hL)
      unfold State.laneNow State.wave?
      rw [hw]
    rw [hnow]

theorem ordtake_issues (n : BitVec 4) :
    Issues (.ordtake n) (fSYS [] [])
      (fun s x => s.team? x.w.tid = some x.t ∧ s.grid? x.t.gid = some x.g ∧ (ticketed x.g x.t = true → ticketState x.g x.t n.toNat ≠ some 1) ∧
        ∀ L ∈ x.E, s.lanePend x.uid L anyWrite = [] ∧ s.unquiet x.uid L anyAccess = false)
      (fun s => { s.lessTeams with grids := [], wrote := [] }) (fun s x w s' w' => w'.less = w.less ∧
        (∀ L ∈ x.E, Passed (w.lane L) (w'.lane L)) ∧
        (x.E ≠ [] → s'.team? x.t.tid = some { x.t with marked := true } ∧
          ∃ g', s'.grid? x.t.gid = some g' ∧ (g'.ticketsOf x.t.ordinal).poisoned = (x.g.ticketsOf x.t.ordinal).poisoned ∧
            (∀ k, k ≠ x.t.ordinal → g'.ticketsOf k = x.g.ticketsOf k) ∧ { g' with tickets := [] } = { x.g with tickets := [] } ∧
            ∀ k, k < 16 → (g'.ticketsOf x.t.ordinal).taken.getLsbD k =
              ((x.g.ticketsOf x.t.ordinal).taken.getLsbD k || (ticketed x.g x.t && k == n.toNat))) ∧
        (∀ u, u ≠ x.t.tid → s'.team? u = s.team? u) ∧ ∀ u, u ≠ x.t.gid → s'.grid? u = s.grid? u) := by
  intro s w hi hr ⟨hteam, hgrid, hok, hquiet⟩
  let ff : FormF := fSYS [] []
  let x := issueOf s w ff
  have hexec : exec (.ordtake n) s = .next (s.issue ff (waitQuiet anyAccess) (takeBody n)) :=
    congrArg Host.Outcome.next (issueForced_eq hi hr (fun _ => waitQuiet_none fun L hL => (hquiet L hL).2) fun L hL => (hquiet L hL).1)
  let mark (t : Team) : Team := { t with marked := true }
  obtain ⟨ws, hu⟩ := orderTaken_rest (s.skipped w ff) x n.toNat
  obtain ⟨htaken, hgrids⟩ := orderTaken_grid (s := s.skipped w ff) (i := x) n.isLt hgrid
  generalize hut : (s.skipped w ff).orderTaken x n.toNat = u at hu htaken hgrids
  obtain ⟨w', hiss, hless, h1, h2, hlanes⟩ := issue_less (busy := waitQuiet anyAccess) (body := takeBody n) (fun L _ => (w.lane L).adv) _ hi hr
    (fun L hL => (executing_unstepped hi hL).1)
    (fun _ => waitQuiet_none fun L hL => (hquiet L hL).2) (fun _ => ((takeBody_taken hok).trans (congrArg _ hut)).trans (laneBody_after hi (congrArg State.waves hu :)))
    (fun _ => waves_updWave_of (congrArg State.waves hu :) w.uid _) fun _ => (congrArg State.pkg hu :)
  have htid : x.t.tid = x.w.tid := by simpa using List.find?_some hteam
  have hteams : ∀ v : State, v.teams = (s.updTeam x.t.tid mark).teams → v.team? x.t.tid = some (mark x.t) ∧ ∀ k, k ≠ x.t.tid → v.team? k = s.team? k := fun v hv =>
    ⟨(team?_congr hv _).trans ((team_updTeam s x.t.tid mark fun _ => rfl).trans (by rw [htid, hteam]; rfl)),
      fun k hk => (team?_congr hv k).trans (team_updTeam_other s mark (fun _ => rfl) hk)⟩
  refine ⟨_, w', hexec, hiss, ?_, hless, fun L hL => by rw [hlanes L hL]; exact passed_noted _, ?_⟩
  · by_cases hE : executing s w ff = []
    · exact (congrArg (fun u : State => ({ u.lessTeams with grids := [], wrote := [] } : State)) (h1 hE) :)
    · exact (congrArg (fun u : State => ({ u.lessTeams with grids := [], wrote := [] } : State)) ((h2 hE).trans (congrArg (fun v : State => (v.updWave w.uid _).less) hu)) :)
  · by_cases hE : executing s w ff = []
    · have h1 := h1 hE
      exact ⟨fun h => absurd hE h, fun k _ => team?_congr (congrArg State.teams h1 :) k, fun k _ => grid?_congr (congrArg State.grids h1 :) k⟩
    · have h2 := h2 hE
      obtain ⟨hown, hother⟩ := hteams _ ((congrArg State.teams h2 :).trans (congrArg State.teams hu :))
      have hg : ∀ k, _ = u.grid? k := grid?_congr (congrArg State.grids h2 :)
      refine ⟨fun _ => ⟨hown, ?_⟩, hother, fun k hk => (hg k).trans (hgrids k hk)⟩
      obtain ⟨g', h3, h4⟩ := htaken
      exact ⟨g', (hg _).trans h3, h4⟩

/-- Settles O22: lanes of a wave have numbers of their own at a barrier, so each finds there what stood before the instruction. -/
theorem barriersAndTickets : Obligations.BarriersAndTickets := by
  unfold Obligations.BarriersAndTickets
  have hlt : ∀ b : BitVec 4, b.toNat < 17 := fun b => b.isLt.trans (by decide)
  exact ⟨⟨fun b => bar_issues .sync (fun _ => rfl) (hlt b), fun b => bar_issues .arrive (fun _ => rfl) (hlt b), fun b => bar_issues .wait (fun _ => rfl) (hlt b),
    bar_issues .sync (fun _ => rfl) (by decide)⟩, ordwait_answers, ordwait_waits, fun _ _ _ h hk => ticketState_spec h hk, ordtake_issues⟩

end Sys2Proof.Machine

/-!
PROOFS. What several steps of a body together make of the lanes that execute.
-/

namespace Sys2Proof.Machine

/-- Of its waves, u differs from s in these lanes of wave uid only, each of which has become what R says. -/
def LanesTo (uid : Nat) (Ls : List Nat) (R : Nat → Lane → Lane → Prop) (s u : State) : Prop :=
  ∃ f : Wave → Wave, u.waves = (s.updWave uid f).waves ∧ ∀ v, (f v).less = v.less ∧ (f v).lanes.length = v.lanes.length ∧
    (∀ L, L ∉ Ls → (f v).lane L = v.lane L) ∧ ∀ L ∈ Ls, L < v.lanes.length → R L (v.lane L) ((f v).lane L)

theorem LanesTo.of_waves {uid : Nat} {Ls : List Nat} {R : Nat → Lane → Lane → Prop} {s u : State} (hR : ∀ L ∈ Ls, ∀ l, R L l l) (h : u.waves = s.waves) : LanesTo uid Ls R s u :=
  ⟨id, by rw [h]; simp [State.updWave], fun _ => ⟨rfl, rfl, fun _ _ => rfl, fun L hL _ => hR L hL _⟩⟩

theorem LanesTo.mono {uid : Nat} {Ls : List Nat} {R R' : Nat → Lane → Lane → Prop} {s u : State} (h : LanesTo uid Ls R s u) (hR : ∀ L ∈ Ls, ∀ l l', R L l l' → R' L l l') :
    LanesTo uid Ls R' s u := by
  obtain ⟨f, hw, hf⟩ := h
  refine ⟨f, hw, fun v => ?_⟩
  obtain ⟨h1, h2, h3, h4⟩ := hf v
  exact ⟨h1, h2, h3, fun L hL hlt => hR L hL _ _ (h4 L hL hlt)⟩

/-- A state with the same waves will do. -/
theorem LanesTo.congr {uid : Nat} {Ls : List Nat} {R : Nat → Lane → Lane → Prop} {s s' u u' : State} (h : LanesTo uid Ls R s u) (hs : s'.waves = s.waves) (hu : u'.waves = u.waves) :
    LanesTo uid Ls R s' u' := by
  obtain ⟨f, hw, hf⟩ := h
  exact ⟨f, hu.trans (hw.trans (waves_updWave_of hs.symm uid f)), hf⟩

theorem uid_of_less {v w : Wave} (h : v.less = w.less) : v.uid = w.uid := (congrArg Wave.uid h :)

theorem LanesTo.trans {uid : Nat} {Ls : List Nat} {R R' : Nat → Lane → Lane → Prop} {s t u : State} (h : LanesTo uid Ls R s t) (h' : LanesTo uid Ls R' t u) :
    LanesTo uid Ls (fun L l l' => ∃ m, R L l m ∧ R' L m l') s u := by
  obtain ⟨f, hw, hf⟩ := h
  obtain ⟨f', hw', hf'⟩ := h'
  refine ⟨fun v => f' (f v), ?_, fun v => ?_⟩
  · refine hw'.trans ((waves_updWave_of hw uid f').trans ?_)
    exact (congrArg State.waves (updWave_updWave s uid f f' fun v => uid_of_less (hf v).1) :)
  · obtain ⟨h1, h2, h3, h4⟩ := hf v
    obtain ⟨k1, k2, k3, k4⟩ := hf' (f v)
    exact ⟨k1.trans h1, k2.trans h2, fun L hL => (k3 L hL).trans (h3 L hL), fun L hL hlt => ⟨_, h4 L hL hlt, k4 L hL (by rw [h2]; exact hlt)⟩⟩

theorem LanesTo.updLaneOf {uid L : Nat} {R : Nat → Lane → Lane → Prop} (s : State) (g : Wave → Lane → Lane) (hR : ∀ w l, R L l (g w l)) :
    LanesTo uid [L] R s (s.updWave uid (fun w => w.updLane L (g w))) := by
  refine ⟨fun v => v.updLane L (g v), rfl, fun v => ⟨rfl, length_listUpd _ _ _, fun K hK => ?_, fun K hK hlt => ?_⟩⟩
  · rw [lane_updLane, if_neg fun h => hK (List.mem_singleton.mpr h.1)]
  · rw [List.mem_singleton.mp hK] at hlt ⊢
    rw [lane_updLane, if_pos ⟨rfl, hlt⟩]
    exact hR _ _

theorem LanesTo.updLane {uid L : Nat} {R : Nat → Lane → Lane → Prop} (s : State) (g : Lane → Lane) (hR : ∀ l, R L l (g l)) : LanesTo uid [L] R s (s.updLane uid L g) :=
  LanesTo.updLaneOf s (fun _ => g) fun _ => hR

/-- Steps that each change one lane, over different lanes. -/
theorem LanesTo.foldl_keyed {α : Type} {uid : Nat} {R : Nat → Lane → Lane → Prop} {step : State → α → State} (key : α → Nat) (P : State → Prop) (Ls : List α) :
    ∀ s : State, (Ls.map key).Nodup → P s → (∀ a ∈ Ls, ∀ u, P u → LanesTo uid [key a] R u (step u a) ∧ P (step u a)) →
      LanesTo uid (Ls.map key) R s (Ls.foldl step s) ∧ P (Ls.foldl step s) := by
  induction Ls with
  | nil => exact fun s _ hP _ => ⟨.of_waves (fun _ h => nomatch h) rfl, hP⟩
  | cons L Ls ih =>
    intro s hn hP hstep
    rw [List.map_cons, List.nodup_cons] at hn
    obtain ⟨hL, hn⟩ := hn
    obtain ⟨⟨f, hw, hf⟩, hP1⟩ := hstep L (List.mem_cons_self ..) s hP
    obtain ⟨⟨f', hw', hf'⟩, hP2⟩ := ih (step s L) hn hP1 fun K hK => hstep K (List.mem_cons_of_mem _ hK)
    refine ⟨⟨fun v => f' (f v), ?_, fun v => ?_⟩, hP2⟩
    · refine hw'.trans ((waves_updWave_of hw uid f').trans ?_)
      exact (congrArg State.waves (updWave_updWave s uid f f' fun v => uid_of_less (hf v).1) :)
    · obtain ⟨h1, h2, h3, h4⟩ := hf v
      obtain ⟨k1, k2, k3, k4⟩ := hf' (f v)
      refine ⟨k1.trans h1, k2.trans h2, fun K hK => ?_, fun K hK hlt => ?_⟩
      · rw [List.map_cons, List.mem_cons, not_or] at hK
        exact (k3 K hK.2).trans (h3 K fun h => hK.1 (List.mem_singleton.mp h))
      · rw [List.map_cons] at hK
        rcases List.mem_cons.mp hK with hKL | hK
        · rw [k3 K (hKL ▸ hL)]
          exact h4 K (List.mem_singleton.mpr hKL) hlt
        · have hsame : (f v).lane K = v.lane K := h3 K fun h => hL (List.mem_singleton.mp h ▸ hK)
          rw [← hsame]
          exact k4 K hK (by rw [h2]; exact hlt)

theorem LanesTo.foldl {uid : Nat} {R : Nat → Lane → Lane → Prop} {step : State → Nat → State} (P : State → Prop) (Ls : List Nat) (s : State) (hn : Ls.Nodup) (hs : P s)
    (h : ∀ L ∈ Ls, ∀ u, P u → LanesTo uid [L] R u (step u L) ∧ P (step u L)) : LanesTo uid Ls R s (Ls.foldl step s) ∧ P (Ls.foldl step s) := by
  have hk := LanesTo.foldl_keyed (uid := uid) (R := R) (step := step) (fun L => L) P Ls s (by rw [List.map_id']; exact hn) hs h
  rw [List.map_id'] at hk
  exact hk

/-- Nothing is lost by naming more lanes, if R lets a lane stay as it is. -/
theorem LanesTo.widen {uid : Nat} {Ls Ls' : List Nat} {R : Nat → Lane → Lane → Prop} {s u : State} (h : LanesTo uid Ls R s u) (hsub : ∀ L ∈ Ls, L ∈ Ls') (hR : ∀ L l, R L l l) :
    LanesTo uid Ls' R s u := by
  obtain ⟨f, hw, hf⟩ := h
  refine ⟨f, hw, fun v => ?_⟩
  obtain ⟨h1, h2, h3, h4⟩ := hf v
  refine ⟨h1, h2, fun L hL => h3 L fun e => hL (hsub L e), fun L hL hlt => ?_⟩
  by_cases hin : L ∈ Ls
  · exact h4 L hin hlt
  · rw [h3 L hin]
    exact hR L _

/-- An issue whose body raises no trap and makes of its executing lanes what R says. -/
theorem issue_made {s : State} {w : Wave} {ff : FormF} {busy : State → Iss → Option State} {body : Iss → State → State × Traps} {R : Nat → Lane → Lane → Prop} (s2 : State)
    (hi : Issuing s w) (hr : Ready s w ff) (hb : executing s w ff ≠ [] → busy s (issueOf s w ff) = none)
    (hbody : executing s w ff ≠ [] → body (issueOf s w ff) (s.skipped w ff) = (s2, []))
    (hm : executing s w ff ≠ [] → LanesTo w.uid (executing s w ff) R (s.skipped w ff) s2)
    (hst : ∀ L l l', l.stepping = false ∧ l.stepped = false → R L l l' → l'.stepped = false) (hc : executing s w ff ≠ [] → s2.pkg = s.pkg) :
    ∃ w', Issued s (s.issue ff busy body) w w' ff ∧ w'.less = w.less ∧ (s.issue ff busy body).less = (bodyState s w ff s2).less ∧
      ∀ L ∈ executing s w ff, ∃ l', R L (w.lane L) l' ∧ w'.lane L = l'.noted := by
  by_cases hE : executing s w ff = []
  · obtain ⟨w', hiss, hless, h1, _, _⟩ := issue_less (busy := busy) (body := body) (fun _ l => l) (s.skipped w ff) hi hr (fun L hL => by rw [hE] at hL; cases hL)
      (fun h => absurd hE h) (fun h => absurd hE h) (fun h => absurd hE h) fun h => absurd hE h
    exact ⟨w', hiss, hless, (h1 hE).trans (by rw [bodyState_nil hE]; rfl), fun L hL => by rw [hE] at hL; cases hL⟩
  · obtain ⟨f, hw, hf⟩ := hm hE
    obtain ⟨h1, h2, h3, h4⟩ := hf (w.skipped s ff)
    have huid : ∀ v, (f v).uid = v.uid := fun v => uid_of_less (hf v).1
    have hin : ∀ L ∈ executing s w ff, R L (w.lane L) ((f (w.skipped s ff)).lane L) := fun L hL => by
      have hR := h4 L hL (by rw [length_skipped]; exact mem_minSet_lt (mem_executing.mp hL).1)
      rw [lane_skipped_out (skipping_not_executing hL)] at hR
      exact hR
    have hp : Performed s s2 w (f (w.skipped s ff)) ff := by
      refine ⟨?_, h2.trans (length_skipped s w ff), ?_, fun k v hk hv => ?_, fun L h => ?_, fun L h hs => ?_, fun L hL => ?_, hc hE⟩
      · have e : s2.wave? w.uid = ((s.skipped w ff).updWave w.uid f).wave? w.uid := by
          unfold State.wave?
          rw [hw]
        rw [e, wave_updWave _ _ _ huid, wave_skipped ff hi.found]
        rfl
      · rw [hw, length_updWave]
        exact length_updWave s _ _
      · rw [hw]
        exact waves_updWave_other _ (waves_updWave_other _ hk hv) hv
      · rw [h3 L fun e => h (mem_executing.mp e).1, lane_skipped_out fun e => h (mem_skipping.mp e).1]
      · have hsk : L ∈ skipping s w ff := mem_skipping.mpr ⟨h, hs⟩
        rw [h3 L fun e => (by rw [(mem_executing.mp e).2] at hs; cases hs), lane_skipped_in hsk]
      · exact hst L _ _ (executing_unstepped hi hL) (hin L hL)
    obtain ⟨heq, hiss, hlanes⟩ := issue_performs (busy := busy) (body := body) hi hr (.inr (hb hE)) ((if_neg hE).trans (hbody hE)) hp
    exact ⟨_, hiss, h1.trans (less_skipped s w ff), by rw [heq, less_noteIssue, bodyState_some hE], fun L hL => ⟨_, hin L hL, hlanes L hL⟩⟩

/-! ## Pieces that no log holds back (R254, R256) -/

/-- The lane, which has counted operations. -/
def Recount (_ : Nat) (l l' : Lane) : Prop := ∃ n, l' = { l with opCount := n }

theorem recount_refl (L : Nat) (l : Lane) : Recount L l l := ⟨l.opCount, rfl⟩
theorem LanesTo.recount_trans {uid : Nat} {Ls : List Nat} {s t u : State} (h : LanesTo uid Ls Recount s t) (h' : LanesTo uid Ls Recount t u) : LanesTo uid Ls Recount s u :=
  (h.trans h').mono fun _ _ _ _ ⟨_, ⟨n, hm⟩, n', hl⟩ => ⟨n', by rw [hl, hm]⟩

theorem movedBytes_same (s : State) (c pa n : Nat) : (s.movedBytes c pa n).less = s.less ∧ (s.movedBytes c pa n).waves = s.waves := by
  unfold State.movedBytes
  split <;> exact ⟨rfl, rfl⟩

/-- The pieces of a wave that is not logged pass: their lanes count operations, and nothing else that a program sees changes. -/
theorem passGo_free {i : Iss} {Ls : List Nat} (hlog : i.g.logOrd = none) (s0 : State) : ∀ (ws : List Whole) (s : State), (∀ x ∈ ws, x.lane ∈ Ls) →
    (s0.passGo s i ws).1 = true ∧ (s0.passGo s i ws).2.less = s.less ∧ LanesTo i.uid Ls Recount s (s0.passGo s i ws).2
  | [], s, _ => ⟨rfl, rfl, .of_waves (fun L _ l => recount_refl L l) rfl⟩
  | x :: ws, s, hin => by
    have htail : ∀ y ∈ ws, y.lane ∈ Ls := fun y hy => hin y (List.mem_cons_of_mem _ hy)
    unfold State.passGo
    by_cases hl : (!x.e.log) = true
    · rw [if_pos hl]
      obtain ⟨h1, h2, h3⟩ := passGo_free hlog s0 ws (s.movedBytes i.c x.pa x.n) htail
      exact ⟨h1, h2.trans (movedBytes_same s _ _ _).1, h3.congr (movedBytes_same s _ _ _).2.symm rfl⟩
    · rw [if_neg hl]
      have hgate : ∀ die p, s.ssGate (i.g.logOrd.isSome && s.isLocal x.pa) die p = (true, s) := fun die p => by
        rw [hlog]
        rfl
      dsimp only
      rw [hgate]
      obtain ⟨h1, h2, h3⟩ := passGo_free hlog s0 ws ((s.updLane i.uid x.lane (fun l => { l with opCount := l.opCount + 1 })).movedBytes i.c x.pa x.n) htail
      refine ⟨h1, h2.trans (movedBytes_same _ _ _ _).1, ?_⟩
      have hone : LanesTo i.uid Ls Recount s ((s.updLane i.uid x.lane (fun l => { l with opCount := l.opCount + 1 })).movedBytes i.c x.pa x.n) :=
        ((LanesTo.updLane s (fun l => { l with opCount := l.opCount + 1 }) fun l => ⟨l.opCount + 1, rfl⟩).widen
          (fun L hL => List.mem_singleton.mp hL ▸ hin x (List.mem_cons_self ..)) recount_refl).congr rfl (movedBytes_same _ _ _ _).2
      exact hone.recount_trans h3

theorem waitWholes_free {ws : State → Iss → List Whole} {s : State} {i : Iss} (hlog : i.g.logOrd = none) (hin : ∀ x ∈ ws s i, x.lane ∈ i.E) : waitWholes ws s i = none :=
  if_pos (passGo_free hlog s (ws s i) s hin).1

theorem wholes_lanes {s : State} {i : Iss} {k : AccKind} {vas : Iss → Nat → List (Nat × Nat)} {Ls : List Nat} : ∀ x ∈ s.wholes i k vas Ls, x.lane ∈ Ls := fun x hx => by
  obtain ⟨L, hL, hx⟩ := List.mem_flatMap.mp hx
  split at hx
  · obtain ⟨p, _, rfl⟩ := List.mem_map.mp hx
    exact hL
  · cases hx

end Sys2Proof.Machine

/-!
PROOFS. RWAIT and RREL (O23).
-/

namespace Sys2Proof.Machine

/-! ## What a lane's checks look at -/

theorem laneXl_less {s u : State} (h : u.less = s.less) (i : Iss) (va n : Nat) (k : AccKind) : u.laneXl i va n k = s.laneXl i va n k :=
  (congrArg (fun v : State => v.laneXl i va n k) h :)

theorem passes_less {s u : State} (h : u.less = s.less) {i : Iss} {va n al : Nat} {k : AccKind} (hp : s.passes i va n al k) : u.passes i va n al k := by
  obtain ⟨hal, pa, e, hok⟩ := hp
  exact ⟨hal, pa, e, (laneXl_less h i va n k).trans hok⟩

theorem paOf_less {s u : State} (h : u.less = s.less) (i : Iss) (va n : Nat) (k : AccKind) : u.paOf i va n k = s.paOf i va n k := by
  unfold State.paOf
  rw [laneXl_less h]

theorem pteOf_less {s u : State} (h : u.less = s.less) (i : Iss) (va n : Nat) (k : AccKind) : u.pteOf i va n k = s.pteOf i va n k := by
  unfold State.pteOf
  rw [laneXl_less h]

/-! ## RWAIT (R350) -/

/-- What RWAIT does in one lane, at its ring header. -/
def rwaitGo (a : BitVec 7) (n : BitVec 4) (i : Iss) (L pa : Nat) (e : Pte) (s0 : State) : State :=
  let idx := ((i.l L).pair a.toNat).toNat
  let s := s0.sawRing i.uid L pa e.type
  if decide (idx < s.rd pa 8) then s.goOn i L (0, 0) else s.block i.uid L (.rwait idx (sysVa n i L))

/-- The lane goes on, or waits for its index. -/
def rwaitTo (a : BitVec 7) (n : BitVec 4) (s : State) (i : Iss) (L : Nat) (l l' : Lane) : Prop :=
  (((i.l L).pair a.toNat).toNat < s.rd (s.paOf i (sysVa n i L) 8 .ring) 8 → l' = l.adv) ∧
    (¬((i.l L).pair a.toNat).toNat < s.rd (s.paOf i (sysVa n i L) 8 .ring) 8 → ∃ k, l' = l.blockedOn (.rwait ((i.l L).pair a.toNat).toNat (sysVa n i L)) k)

/-- What of the machine RWAIT leaves. -/
def State.lessRing (s : State) : State := { s.less with wrote := [], l2 := [], fresh := 0 }

theorem sawRing_same (s : State) (uid L pa ty : Nat) : (s.sawRing uid L pa ty).lessRing = s.lessRing ∧ (s.sawRing uid L pa ty).waves = s.waves ∧ (s.sawRing uid L pa ty).mem = s.mem := by
  unfold State.sawRing State.fillLine
  split <;> exact ⟨rfl, rfl, rfl⟩

theorem lessRing_of_less {s u : State} (h : u.less = s.less) : u.lessRing = s.lessRing := by
  unfold State.lessRing
  rw [h]

theorem mem_of_lessRing {s u : State} (h : u.lessRing = s.lessRing) : u.mem = s.mem := (congrArg State.mem h :)

theorem rwaitGo_spec (a : BitVec 7) (n : BitVec 4) (i : Iss) (s : State) (L : Nat) (u : State) (hu : u.lessRing = s.lessRing) :
    let go := rwaitGo a n i L (s.paOf i (sysVa n i L) 8 .ring) (s.pteOf i (sysVa n i L) 8 .ring) u
    LanesTo i.uid [L] (rwaitTo a n s i) u go ∧ go.lessRing = s.lessRing := by
  intro go
  obtain ⟨hsaw, hwaves, hmem⟩ := sawRing_same u i.uid L (s.paOf i (sysVa n i L) 8 .ring) (s.pteOf i (sysVa n i L) 8 .ring).type
  have hgo : go = if decide (((i.l L).pair a.toNat).toNat < s.rd (s.paOf i (sysVa n i L) 8 .ring) 8) then
      (u.sawRing i.uid L (s.paOf i (sysVa n i L) 8 .ring) (s.pteOf i (sysVa n i L) 8 .ring).type).goOn i L (0, 0)
      else (u.sawRing i.uid L (s.paOf i (sysVa n i L) 8 .ring) (s.pteOf i (sysVa n i L) 8 .ring).type).block i.uid L (.rwait ((i.l L).pair a.toNat).toNat (sysVa n i L)) := by
    show rwaitGo _ _ _ _ _ _ _ = _
    unfold rwaitGo State.rd
    dsimp only
    rw [hmem, mem_of_lessRing hu]
  generalize hv : u.sawRing i.uid L (s.paOf i (sysVa n i L) 8 .ring) (s.pteOf i (sysVa n i L) 8 .ring).type = v at hgo hsaw hwaves
  rw [hgo]
  by_cases hlt : ((i.l L).pair a.toNat).toNat < s.rd (s.paOf i (sysVa n i L) 8 .ring) 8
  · rw [if_pos (decide_eq_true hlt)]
    have hto : ∀ l, rwaitTo a n s i L l l.adv := fun l => ⟨fun _ => rfl, fun h => absurd hlt h⟩
    have hmade : LanesTo i.uid [L] (rwaitTo a n s i) v (v.updLane i.uid L Lane.adv) := LanesTo.updLane v Lane.adv hto
    exact ⟨hmade.congr hwaves.symm rfl, (hsaw.trans hu : v.lessRing = _)⟩
  · rw [if_neg (by rw [decide_eq_false hlt]; decide)]
    have hto : ∀ l, rwaitTo a n s i L l (l.blockedOn (.rwait ((i.l L).pair a.toNat).toNat (sysVa n i L)) v.fresh) := fun l => ⟨fun h => absurd h hlt, fun _ => ⟨_, rfl⟩⟩
    have hmade : LanesTo i.uid [L] (rwaitTo a n s i) v (v.updLane i.uid L (fun l => l.blockedOn (.rwait ((i.l L).pair a.toNat).toNat (sysVa n i L)) v.fresh)) :=
      LanesTo.updLane v _ hto
    exact ⟨hmade.congr hwaves.symm rfl, (hsaw.trans hu : v.lessRing = _)⟩

/-- A choice of statements, case by case. -/
theorem ite_as_cases (c P Q : Prop) [Decidable c] : (if c then P else Q) = ((c → P) ∧ (¬c → Q)) := by
  by_cases h : c
  · simp [h]
  · simp [h]

theorem emptied_recount (l : Lane) (n : Nat) : Emptied l (({ l with opCount := n } : Lane).adv).noted 0 0 :=
  ⟨fun _ hk => absurd hk (Nat.not_lt_zero _), fun _ _ => rfl, ⟨rfl, rfl⟩, rfl⟩
theorem blocked_recount (l : Lane) (wt : Wait) (n k : Nat) : Blocked l ((({ l with opCount := n } : Lane).blockedOn wt k).noted) wt := ⟨rfl, rfl, ⟨rfl, rfl⟩, rfl⟩

theorem rwaitTo_unstepped {a : BitVec 7} {n : BitVec 4} {s : State} {i : Iss} {L : Nat} {l m l' : Lane} (hl : l.stepping = false ∧ l.stepped = false) (hm : Recount L l m)
    (hgo : rwaitTo a n s i L m l') : l'.stepped = false := by
  obtain ⟨k, rfl⟩ := hm
  by_cases hlt : ((i.l L).pair a.toNat).toNat < s.rd (s.paOf i (sysVa n i L) 8 .ring) 8
  · rw [hgo.1 hlt]
    exact hl.1
  · obtain ⟨j, hj⟩ := hgo.2 hlt
    rw [hj]
    exact hl.2

theorem lessRing_bodyState {s s2 : State} {w : Wave} {ff : FormF} (h : s2.lessRing = s.lessRing) : (bodyState s w ff s2).lessRing = s.lessRing := by
  unfold bodyState
  split
  · rfl
  · exact h

/-- What RWAIT has made of a lane. -/
structure RwaitDid (a : BitVec 7) (n : BitVec 4) (s : State) (i : Iss) (L : Nat) (l l' : Lane) : Prop where
  goes : ((i.l L).pair a.toNat).toNat < s.rd (s.paOf i (sysVa n i L) 8 .ring) 8 → Emptied l l' 0 0
  waits : ¬((i.l L).pair a.toNat).toNat < s.rd (s.paOf i (sysVa n i L) 8 .ring) 8 → Blocked l l' (.rwait ((i.l L).pair a.toNat).toNat (sysVa n i L))

/-- What RWAIT waits for. -/
def rwaitBusy (n : BitVec 4) (s : State) (i : Iss) : Option State :=
  match needPages (alignedVas 8 (sysVa n)) s i with
  | some s1 => some s1
  | none => (match waitBefore (rwaitAcc n) s i with | some s1 => some s1 | none => waitWholes (rwaitWholes n) s i)
/-- What RWAIT does with its lanes. -/
def rwaitBody (a : BitVec 7) (n : BitVec 4) (i : Iss) (s : State) : State × Traps :=
  memBody .ring 8 8 (sysVa n) (0, 0) (rwaitGo a n) i (s.passed i (rwaitWholes n s i))

/-- The lanes of an RWAIT that nothing holds back each go on or block. -/
theorem rwait_made {a : BitVec 7} {n : BitVec 4} {s : State} {w : Wave} {ff : FormF} (hlog : (issueOf s w ff).g.logOrd = none)
    (hpass : ∀ L ∈ executing s w ff, s.passes (issueOf s w ff) (sysVa n (issueOf s w ff) L) 8 8 .ring ∧
      ∀ b, rwaitAcc n s (issueOf s w ff) L = some b → s.ordersPend (issueOf s w ff).uid L b = false) :
    ∃ s2, rwaitBusy n s (issueOf s w ff) = none ∧ rwaitBody a n (issueOf s w ff) (s.skipped w ff) = (s2, []) ∧
      LanesTo w.uid (executing s w ff) (fun L l l' => ∃ m, Recount L l m ∧ rwaitTo a n s (issueOf s w ff) L m l') (s.skipped w ff) s2 ∧ s2.lessRing = s.lessRing := by
  let x := issueOf s w ff
  let u := (s.skipped w ff).passed x (rwaitWholes n (s.skipped w ff) x)
  have hlanes : ∀ v : State, ∀ p ∈ rwaitWholes n v x, p.lane ∈ x.E := fun v p hp => List.mem_of_mem_filter (wholes_lanes p hp)
  obtain ⟨_, hless, hcount⟩ := passGo_free hlog (s.skipped w ff) (rwaitWholes n (s.skipped w ff) x) (s.skipped w ff) (hlanes _)
  have hu : u.less = s.less := hless
  have hbusy : needPages (alignedVas 8 (sysVa n)) s x = none := needPages_none (unwalked_nil fun v hv => by
    obtain ⟨L, hL, rfl⟩ := List.mem_map.mp (List.mem_of_mem_filter hv)
    obtain ⟨⟨_, pa, e, hok⟩, _⟩ := hpass L hL
    exact ⟨8, .ring, pa, e, hok⟩)
  have hwait : waitBefore (rwaitAcc n) s x = none := waitBefore_none fun L hL => (hpass L hL).2
  have hbody := memBody_passes (go := rwaitGo a n) (dst := (0, 0)) (i := x) (s := u) (va := sysVa n) fun L hL => passes_less hu (hpass L hL).1
  have hring : u.lessRing = s.lessRing := lessRing_of_less hu
  obtain ⟨hmade, hrest⟩ := LanesTo.foldl (uid := x.uid) (R := rwaitTo a n s x) (step := fun v L => rwaitGo a n x L (s.paOf x (sysVa n x L) 8 .ring) (s.pteOf x (sysVa n x L) 8 .ring) v)
    (fun v => v.lessRing = s.lessRing) x.E u (executing_nodup s w ff) hring fun L _ v hv => rwaitGo_spec a n x s L v hv
  have hfold : x.E.foldl (fun v L => rwaitGo a n x L (u.paOf x (sysVa n x L) 8 .ring) (u.pteOf x (sysVa n x L) 8 .ring) (v.touched x .ring (sysVa n x L))) u =
      x.E.foldl (fun v L => rwaitGo a n x L (s.paOf x (sysVa n x L) 8 .ring) (s.pteOf x (sysVa n x L) 8 .ring) v) u := by
    simp only [paOf_less hu, pteOf_less hu]
    rfl
  rw [hfold] at hbody
  generalize x.E.foldl (fun v L => rwaitGo a n x L (s.paOf x (sysVa n x L) 8 .ring) (s.pteOf x (sysVa n x L) 8 .ring) v) u = s2 at hbody hmade hrest
  have hidle : rwaitBusy n s x = none := by
    unfold rwaitBusy
    rw [hbusy]
    dsimp only
    rw [hwait]
    exact waitWholes_free hlog (hlanes s)
  exact ⟨s2, hidle, hbody, hcount.trans hmade, hrest⟩

theorem exec_rwait (a : BitVec 7) (n : BitVec 4) (s : State) : exec (.rwait a n) s = .next (s.issue (fSYSx [srcBlk a 2] []) (rwaitBusy n) (rwaitBody a n)) := rfl

theorem rwait_issues (a : BitVec 7) (n : BitVec 4) : Issues (.rwait a n) (fSYSx [srcBlk a 2] [])
    (fun s x => x.g.logOrd = none ∧ ∀ L ∈ x.E, s.passes x (sysVa n x L) 8 8 .ring ∧
      ∀ b, rwaitAcc n s x L = some b → s.ordersPend x.uid L b = false)
    (fun s => { s.less with wrote := [], l2 := [], fresh := 0 }) (fun s x w _ w' => w'.less = w.less ∧ ∀ L ∈ x.E, RwaitDid a n s x L (w.lane L) (w'.lane L)) := by
  intro s w hi hr ⟨hlog, hpass⟩
  obtain ⟨s2, hidle, hbody, hmade, hrest⟩ := rwait_made (a := a) hlog hpass
  obtain ⟨w', hiss, hwave, hstate, hto⟩ := issue_made (busy := rwaitBusy n) (body := rwaitBody a n)
    s2 hi hr (fun _ => hidle) (fun _ => hbody) (fun _ => hmade)
    (fun L l l' hl ⟨m, hm, hgo⟩ => rwaitTo_unstepped hl hm hgo) fun _ => (congrArg State.pkg hrest :)
  refine ⟨_, w', exec_rwait a n s, hiss, (lessRing_of_less hstate).trans (lessRing_bodyState hrest), hwave, fun L hL => ?_⟩
  obtain ⟨l', ⟨m, ⟨k, hm⟩, hgo⟩, hl⟩ := hto L hL
  refine ⟨fun hlt => ?_, fun hlt => ?_⟩
  · rw [hl, hgo.1 hlt, hm]
    exact emptied_recount _ k
  · obtain ⟨j, hj⟩ := hgo.2 hlt
    rw [hl, hj, hm]
    exact blocked_recount _ _ k j

/-! ## RREL (R351) -/

theorem rrel_issues (a : BitVec 7) (n : BitVec 4) : Issues (.rrel a n) (fSYSx [srcBlk a 2] [])
    (fun s x => ∀ L ∈ x.E, s.passes x (sysVa n x L) 16 8 (.atomic 1)) State.lessStores
    (fun s x w s' w' => w'.less = w.less ∧ s'.fresh = s.fresh + x.E.length ∧ OnlyDirty s s' x (sysVa n x) ∧
      s'.accs = s.accs ++ accsOf s x (fun L =>
        let va := sysVa n x L
        { accOf (.rrel ((x.l L).pair a.toNat)) (s.paOf x va 16 (.atomic 1)) 16 with
          va := BitVec.ofNat 72 va, type := (s.pteOf x va 16 (.atomic 1)).type, log := (s.pteOf x va 16 (.atomic 1)).log, posted := true }) ∧
      ∀ L ∈ x.E, Emptied (w.lane L) (w'.lane L) 0 0) := by
  intro s w hi hr hpass
  obtain ⟨w', hiss, hst, _, hdirty, hless, hfresh, haccs, hlanes⟩ := memIssue (k := .atomic 1) (va := sysVa n) (d := 0) (c := 0)
    (fun i L pa e => rrelAcc i L a n pa e) hi hr no_dsts hpass
  exact ⟨_, w', rfl, hiss, hst, hless, hfresh, hdirty, haccs, hlanes⟩

/-- Settles O23: an RWAIT of lanes that nothing holds back reads WIDX where it stands, and RREL is a posted access like a store. -/
theorem ringWaits : Obligations.RingWaits := by
  unfold Obligations.RingWaits
  simp only [ite_as_cases]
  refine ⟨fun a n => ?_, rrel_issues⟩
  intro s w hi hr hpre
  obtain ⟨t, w', hexec, hiss, hrest, hless, hdid⟩ := rwait_issues a n s w hi hr hpre
  exact ⟨t, w', hexec, hiss, hrest, hless, fun L hL => ⟨(hdid L hL).goes, (hdid L hL).waits⟩⟩
end Sys2Proof.Machine

/-!
PROOFS. QPUSH (O24).
-/

namespace Sys2Proof.Machine

/-! ## What lanes see as they read at issue -/

/-- The machine but what a program does not see, what is kept of the order of writes, and the L2. -/
def State.lessSaw (s : State) : State := { s.less with wrote := [], l2 := [] }

theorem lessSaw_of_less {s u : State} (h : u.less = s.less) : u.lessSaw = s.lessSaw := by
  unfold State.lessSaw
  rw [h]

theorem sawAll_same (i : Iss) (ord : Ord) : ∀ (ws : List Whole) (s : State), (s.sawAll i ord ws).lessSaw = s.lessSaw ∧ (s.sawAll i ord ws).waves = s.waves
  | [], _ => ⟨rfl, rfl⟩
  | x :: ws, s => by
    have hone : ((s.sawWhole (s.whoOf i.uid x.lane) none x.pa x.n ord x.e.type).fillLine x.e.type x.pa).lessSaw = s.lessSaw ∧
        ((s.sawWhole (s.whoOf i.uid x.lane) none x.pa x.n ord x.e.type).fillLine x.e.type x.pa).waves = s.waves := by
      unfold State.fillLine
      split <;> exact ⟨rfl, rfl⟩
    obtain ⟨h1, h2⟩ := sawAll_same i ord ws ((s.sawWhole (s.whoOf i.uid x.lane) none x.pa x.n ord x.e.type).fillLine x.e.type x.pa)
    exact ⟨h1.trans hone.1, h2.trans hone.2⟩

theorem laneXl_lessSaw {s u : State} (h : u.lessSaw = s.lessSaw) (i : Iss) (va n : Nat) (k : AccKind) : u.laneXl i va n k = s.laneXl i va n k :=
  (congrArg (fun v : State => v.laneXl i va n k) h :)

theorem qhdrAt_lessSaw {s u : State} (h : u.lessSaw = s.lessSaw) (i : Iss) (n : BitVec 4) (L : Nat) : u.qhdrAt i n L = s.qhdrAt i n L := by
  have hrd : ∀ pa, u.qhdr pa = s.qhdr pa := fun pa => (congrArg (fun v : State => v.qhdr pa) h :)
  unfold State.qhdrAt
  rw [laneXl_lessSaw h]
  simp only [hrd]

/-- What a store makes of the entries that translate it does not hang on what lanes have seen. -/
theorem setDirty_lessSaw {s u : State} (h : u.lessSaw = s.lessSaw) (die c va : Nat) :
    (u.setDirty die c va).mem = (s.setDirty die c va).mem ∧ (u.setDirty die c va).tlb = (s.setDirty die c va).tlb := by
  have hself : ∀ v : State, (v.setDirty die c va).mem = (v.lessSaw.setDirty die c va).mem ∧ (v.setDirty die c va).tlb = (v.lessSaw.setDirty die c va).tlb := fun v => by
    unfold State.setDirty
    rw [show v.lessSaw.tlbFind die c va = v.tlbFind die c va from rfl]
    split
    · exact ⟨rfl, rfl⟩
    · split <;> exact ⟨rfl, rfl⟩
  rw [(hself u).1, (hself u).2, (hself s).1, (hself s).2, h]
  exact ⟨rfl, rfl⟩

/-- The machine but its memory, what has been made and kept of its writes, its accesses, its TLBs and the L2. -/
def State.lessClaim (s : State) : State := { s.lessStores with l2 := [] }

theorem lessClaim_lessSaw (s : State) : s.lessSaw.lessClaim = s.lessClaim := rfl
theorem lessClaim_of_lessSaw {s u : State} (h : u.lessSaw = s.lessSaw) : u.lessClaim = s.lessClaim := by
  rw [← lessClaim_lessSaw u, h, lessClaim_lessSaw]
theorem lessClaim_of_less {s u : State} (h : u.less = s.less) : u.lessClaim = s.lessClaim := lessClaim_of_lessSaw (lessSaw_of_less h)
theorem lessClaim_of_lessStores {s u : State} (h : u.lessStores = s.lessStores) : u.lessClaim = s.lessClaim := by
  unfold State.lessClaim
  rw [h]
@[simp] theorem lessClaim_wr (s : State) (pa n v : Nat) : (s.wr pa n v).lessClaim = s.lessClaim := rfl
theorem mem_wr (s : State) (pa n v : Nat) : (s.wr pa n v).mem = memPut s.mem pa (leBytes n v) := rfl

theorem mem_of_lessSaw {s u : State} (h : u.lessSaw = s.lessSaw) : u.mem = s.mem := (congrArg State.mem h :)
theorem tlb_of_lessSaw {s u : State} (h : u.lessSaw = s.lessSaw) : u.tlb = s.tlb := (congrArg State.tlb h :)
theorem accs_of_lessSaw {s u : State} (h : u.lessSaw = s.lessSaw) : u.accs = s.accs ∧ u.fresh = s.fresh := ⟨(congrArg State.accs h :), (congrArg State.fresh h :)⟩
theorem pkg_of_lessClaim {s u : State} (h : u.lessClaim = s.lessClaim) : u.pkg = s.pkg := (congrArg State.pkg h :)

/-! ## Instructions that wait for the earlier writes of lanes that have claimed -/

theorem unclaim_nil (s : State) (uid : Nat) : s.unclaim uid [] = s := by
  unfold State.unclaim State.updWave
  simp

/-- What QPUSH does with its lanes once those that have claimed are ready. -/
def qpushAll (d a : BitVec 7) (n : BitVec 4) (i : Iss) (s : State) : State × Traps :=
  let r := forcedBody (fun s i L => s.force i.uid L (fun x => (i.l L).claim.isSome && anyWrite x) false) (qpushBody d a n) i s
  (r.1.unclaim i.uid r.2, r.2)

theorem exec_qpush (d a : BitVec 7) (n : BitVec 4) (s : State) : exec (.qpush d a n) s =
    .next (s.issue (fSYSx [srcBlk a 16] [(d.toNat, 1)])
      (forcedBusy (fun s i L => s.force i.uid L (fun x => (i.l L).claim.isSome && anyWrite x) false) (qpushBusy n a)) (qpushAll d a n)) := rfl

/-- A lane that has not claimed, or has no earlier write on its way, is ready. -/
theorem claimed_ready {s : State} {i : Iss} {L : Nat} (h : (i.l L).claim.isSome = true → s.lanePend i.uid L anyWrite = []) :
    s.force i.uid L (fun x => (i.l L).claim.isSome && anyWrite x) false = .ready := by
  refine force_ready ?_
  cases hc : (i.l L).claim.isSome with
  | false =>
    unfold State.lanePend
    simp
  | true => exact h hc

theorem qpush_idle {s : State} {i : Iss} {n : BitVec 4} {a : BitVec 7} (hE : i.E ≠ []) (hready : ∀ L ∈ i.E, (i.l L).claim.isSome = true → s.lanePend i.uid L anyWrite = [])
    (h : qpushBusy n a s i = none) : forcedBusy (fun s i L => s.force i.uid L (fun x => (i.l L).claim.isSome && anyWrite x) false) (qpushBusy n a) s i = none :=
  (forcedBusy_ready hE fun L hL => claimed_ready (hready L hL)).trans h

theorem qpush_goes {s t : State} {i : Iss} {n : BitVec 4} {d a : BitVec 7} (hE : i.E ≠ []) (hready : ∀ L ∈ i.E, (i.l L).claim.isSome = true → s.lanePend i.uid L anyWrite = [])
    (h : qpushBody d a n i s = (t, [])) : qpushAll d a n i s = (t, []) := by
  unfold qpushAll
  rw [forcedBody_ready hE fun L hL => claimed_ready (hready L hL), h]
  dsimp only
  rw [unclaim_nil]

/-! ## The claim (R349) -/

theorem hdrWholes_lanes {n : BitVec 4} {off len : Nat} {s : State} {i : Iss} {Ls : List Nat} : ∀ x ∈ hdrWholes n off len s i Ls, x.lane ∈ Ls := fun x hx => by
  obtain ⟨L, hL, hx⟩ := List.mem_flatMap.mp hx
  split at hx
  · cases hx
  · split at hx
    · rw [List.mem_singleton] at hx
      rw [hx]
      exact hL
    · cases hx

/-- What holds of lanes that are to claim a slot each: one queue, that takes packets, and nothing to wait for. -/
structure Claiming (s : State) (i : Iss) (a : BitVec 7) (n : BitVec 4) (h : QHdr) (pa : Nat) (e : Pte) : Prop where
  nonempty : i.E ≠ []
  unlogged : i.g.logOrd = none
  header : s.qhdrAt i n (i.E.headD 0) = some h
  good : h.bad = false
  found : s.laneXl i (sysVa n i (i.E.headD 0)) 32 (.atomic 0) = .ok pa e
  free : s.migHeld pa = false
  alone : ∀ L ∈ i.E, s.ordersPend i.uid L { accOf (.atom 0 0 0 none) pa 32 with type := e.type } = false
  lanes : ∀ L ∈ i.E, (i.l L).claim = none ∧ ((i.l L).v a.toNat &&& 0xFF != 0) = true ∧ sysVa n i L = sysVa n i (i.E.headD 0)

theorem Claiming.unclaimed {s : State} {i : Iss} {a : BitVec 7} {n : BitVec 4} {h : QHdr} {pa : Nat} {e : Pte} (hc : Claiming s i a n h pa e) : i.claimed.E = [] :=
  List.filter_eq_nil_iff.mpr fun L hL => by
    rw [(hc.lanes L hL).1]
    decide

theorem Claiming.pushers {s : State} {i : Iss} {a : BitVec 7} {n : BitVec 4} {h : QHdr} {pa : Nat} {e : Pte} (hc : Claiming s i a n h pa e) : i.pushers a = i := by
  unfold Iss.pushers
  rw [List.filter_eq_self.mpr fun L hL => (hc.lanes L hL).2.1]

theorem claim_gate {s u : State} {i : Iss} (hlog : i.g.logOrd = none) (pa die : Nat) (p : SsPoint) : u.ssGate (claimLogged s i pa) die p = (true, u) := by
  unfold claimLogged
  rw [hlog]
  rfl

theorem claim_idle {s : State} {i : Iss} {a : BitVec 7} {n : BitVec 4} {h : QHdr} {pa : Nat} {e : Pte} (hc : Claiming s i a n h pa e) : qpushBusy n a s i = none := by
  have hpages : needPages (alignedVas 8 (sysVa n)) s i = none := needPages_none (unwalked_nil fun v hv => by
    obtain ⟨L, hL, rfl⟩ := List.mem_map.mp (List.mem_of_mem_filter hv)
    rw [(hc.lanes L hL).2.2]
    exact ⟨32, .atomic 0, pa, e, hc.found⟩)
  have hnone : (i.E.any fun L => s.ordersPend i.uid L { accOf (.atom 0 0 0 none) pa 32 with type := e.type }) = false :=
    List.any_eq_false.mpr fun L hL => ne_true_of_eq_false (hc.alone L hL)
  have hsome : (i.E == []) = false := by
    cases hE : i.E with
    | nil => exact absurd hE hc.nonempty
    | cons L Ls => rfl
  have hin : ∀ x ∈ headWholes n s i, x.lane ∈ [i.E.headD 0] := hdrWholes_lanes
  have hwhole : waitWholes (headWholes n) s i = none := if_pos (passGo_free hc.unlogged s (headWholes n s i) s hin).1
  unfold qpushBusy
  rw [hc.unclaimed, hpages, hc.header, hc.found, hc.pushers]
  dsimp only
  rw [hc.good, hsome, hc.free, hnone, hwhole, claim_gate hc.unlogged]
  rfl

/-- The state once the lanes have read the header and marked its page. -/
def claimFrom (s : State) (i : Iss) (n : BitVec 4) : State :=
  ((s.passed i (headWholes n s i)).sawAll i .sc (i.eachLane (headWholes n s i))).setDirty i.die i.c (sysVa n i (i.E.headD 0))

theorem claim_body {s : State} {i : Iss} {d a : BitVec 7} {n : BitVec 4} {h : QHdr} {pa : Nat} {e : Pte} (hc : Claiming s i a n h pa e) :
    qpushBody d a n i s = ((claimFrom s i n).qpushClaim i d pa e.type h, []) := by
  have hin : ∀ x ∈ headWholes n s i, x.lane ∈ [i.E.headD 0] := hdrWholes_lanes
  have hsaw : ((s.passed i (headWholes n s i)).sawAll i .sc (i.eachLane (headWholes n s i))).lessSaw = s.lessSaw :=
    (sawAll_same i .sc _ _).1.trans (lessSaw_of_less (passGo_free hc.unlogged s (headWholes n s i) s hin).2.1)
  have hbad : i.E.filter (fun L => !i.E.contains L) = [] := List.filter_eq_nil_iff.mpr fun L hL => by simp [hL]
  unfold qpushBody
  rw [hc.unclaimed, hc.header]
  dsimp only
  rw [hc.good, hc.pushers, hbad, if_neg hc.nonempty, laneXl_lessSaw hsaw, hc.found]
  dsimp only
  rw [claim_gate hc.unlogged]
  rfl

/-- The lane, with its index and the queue's slots, and its destination empty. -/
def Lane.claims (l : Lane) (w : Wave) (d k : Nat) (h : QHdr) : Lane :=
  { ((l.keep w).mark l.pc d 1) with claim := some k, ring := (h.slots, h.logslots) }

/-- What the claim makes of a lane: it has counted operations, and has the index of its place among the lanes. -/
def ClaimTo (i : Iss) (d base : Nat) (h : QHdr) (L : Nat) (l l' : Lane) : Prop :=
  ∃ k w m, (k, L) ∈ (List.range i.E.length).zip i.E ∧ Recount L l m ∧ l' = m.claims w d ((base + k) % 2 ^ 64) h

theorem sawClaim_same (i : Iss) (pa n : Nat) (ord : Ord) (own : Nat) (s : State) : (s.sawClaim i pa n ord own).lessSaw = s.lessSaw ∧ (s.sawClaim i pa n ord own).waves = s.waves := by
  unfold State.sawClaim
  have h : ∀ (Ls : List Nat) (u : State), (Ls.foldl (fun s L => s.touch (claimAcc i s L pa n ord) true (some own) s.writes) u).lessSaw = u.lessSaw ∧
      (Ls.foldl (fun s L => s.touch (claimAcc i s L pa n ord) true (some own) s.writes) u).waves = u.waves := fun Ls => by
    induction Ls with
    | nil => exact fun _ => ⟨rfl, rfl⟩
    | cons L Ls ih => exact fun u => ⟨(ih _).1.trans rfl, (ih _).2.trans rfl⟩
  exact h i.E s

theorem fillLine_same (s : State) (ty pa : Nat) : (s.fillLine ty pa).lessSaw = s.lessSaw ∧ (s.fillLine ty pa).waves = s.waves := by
  unfold State.fillLine
  split <;> exact ⟨rfl, rfl⟩

/-- The lanes' claims one after the other, once the atomic has been made. -/
def claimStep (i : Iss) (d base : Nat) (h : QHdr) (s : State) (p : Nat × Nat) : State :=
  s.updWave i.uid (fun w => w.updLane p.2 (fun l => l.claims w d ((base + p.1) % 2 ^ 64) h))

/-- The state once the atomic has been made. -/
def claimAdd (u : State) (i : Iss) (pa ty : Nat) : State :=
  ((((u.wr pa 8 (u.rd pa 8 + i.E.length)).movedBytes i.c pa 8).sawClaim i pa 8 .sc u.writes).fillLine ty pa).updLane i.uid (i.E.headD 0) (fun l => { l with opCount := l.opCount + 1 })

theorem qpushClaim_eq (u : State) (i : Iss) (d : BitVec 7) (pa ty : Nat) (h : QHdr) :
    u.qpushClaim i d pa ty h = ((List.range i.E.length).zip i.E).foldl (claimStep i d.toNat (u.rd pa 8) h) (claimAdd u i pa ty) := rfl

theorem claimAdd_spec (u : State) (i : Iss) (pa ty : Nat) (hE : i.E ≠ []) :
    (claimAdd u i pa ty).lessSaw = (u.wr pa 8 (u.rd pa 8 + i.E.length)).lessSaw ∧ LanesTo i.uid i.E Recount u (claimAdd u i pa ty) := by
  let v := ((u.wr pa 8 (u.rd pa 8 + i.E.length)).movedBytes i.c pa 8).sawClaim i pa 8 .sc u.writes
  obtain ⟨h1, h2⟩ := fillLine_same v ty pa
  obtain ⟨h3, h4⟩ := sawClaim_same i pa 8 .sc u.writes ((u.wr pa 8 (u.rd pa 8 + i.E.length)).movedBytes i.c pa 8)
  obtain ⟨h5, h6⟩ := movedBytes_same (u.wr pa 8 (u.rd pa 8 + i.E.length)) i.c pa 8
  refine ⟨(h1.trans (h3.trans (lessSaw_of_less h5)) : (v.fillLine ty pa).lessSaw = _), ?_⟩
  have hone : LanesTo i.uid [i.E.headD 0] Recount (v.fillLine ty pa) (claimAdd u i pa ty) :=
    LanesTo.updLane (v.fillLine ty pa) (fun l => { l with opCount := l.opCount + 1 }) fun l => ⟨l.opCount + 1, rfl⟩
  have hhead : i.E.headD 0 ∈ i.E := by
    cases hl : i.E with
    | nil => exact absurd hl hE
    | cons L Ls => exact List.mem_cons_self ..
  exact (hone.widen (fun L hL => List.mem_singleton.mp hL ▸ hhead) recount_refl).congr (h2.trans (h4.trans h6)).symm rfl

theorem qpushClaim_spec (u : State) (i : Iss) (d : BitVec 7) (pa ty : Nat) (h : QHdr) (hE : i.E ≠ []) (hn : i.E.Nodup) :
    (u.qpushClaim i d pa ty h).lessSaw = (u.wr pa 8 (u.rd pa 8 + i.E.length)).lessSaw ∧ LanesTo i.uid i.E (ClaimTo i d.toNat (u.rd pa 8) h) u (u.qpushClaim i d pa ty h) := by
  obtain ⟨hsaw, hadd⟩ := claimAdd_spec u i pa ty hE
  have hkeys : ((List.range i.E.length).zip i.E).map Prod.snd = i.E := List.map_snd_zip (by rw [List.length_range])
  obtain ⟨hmade, hrest⟩ := LanesTo.foldl_keyed (uid := i.uid) (step := claimStep i d.toNat (u.rd pa 8) h)
    (R := fun L l l' => ∃ k w, (k, L) ∈ (List.range i.E.length).zip i.E ∧ l' = l.claims w d.toNat ((u.rd pa 8 + k) % 2 ^ 64) h)
    Prod.snd (fun v => v.lessSaw = (claimAdd u i pa ty).lessSaw) ((List.range i.E.length).zip i.E) (claimAdd u i pa ty) (by rw [hkeys]; exact hn) rfl
    fun p hp v hv => ⟨LanesTo.updLaneOf v (fun w l => l.claims w d.toNat ((u.rd pa 8 + p.1) % 2 ^ 64) h) fun w l => ⟨p.1, w, hp, rfl⟩, hv⟩
  rw [hkeys] at hmade
  rw [qpushClaim_eq]
  exact ⟨hrest.trans hsaw, (hadd.trans hmade).mono fun L _ l l' ⟨m, hm, k, w, hk, hl⟩ => ⟨k, w, m, hk, hm, hl⟩⟩

theorem claimTo_unstepped {i : Iss} {d base L : Nat} {h : QHdr} {l m l' : Lane} (hl : l.stepping = false ∧ l.stepped = false) (hm : Recount L l m)
    (hR : ClaimTo i d base h L m l') : l'.stepped = false := by
  obtain ⟨k, w, m', _, ⟨n', rfl⟩, rfl⟩ := hR
  obtain ⟨n, rfl⟩ := hm
  obtain ⟨rs, hrs⟩ := mark_eq (({ ({ l with opCount := n } : Lane) with opCount := n' } : Lane).keep w).pc 1 d (({ ({ l with opCount := n } : Lane) with opCount := n' } : Lane).keep w)
  have hmark : ((({ ({ l with opCount := n } : Lane) with opCount := n' } : Lane).keep w).mark l.pc d 1).stepped = false := by
    rw [show ((({ ({ l with opCount := n } : Lane) with opCount := n' } : Lane).keep w).mark l.pc d 1) = _ from hrs]
    exact hl.2
  exact hmark

/-- Each lane has the index of its place. -/
theorem place_of_zip {Ls : List Nat} {k L j : Nat} (hn : Ls.Nodup) (hk : (k, L) ∈ (List.range Ls.length).zip Ls) (hj : (L, j) ∈ Ls.zipIdx) : k = j := by
  obtain ⟨m, hm, hget⟩ := List.mem_iff_getElem.mp hk
  rw [List.getElem_zip, List.getElem_range, Prod.mk.injEq] at hget
  obtain ⟨rfl, hL⟩ := hget
  have hj' := List.mem_zipIdx_iff_getElem?.mp hj
  have hlt : m < Ls.length := by simpa using hm
  obtain ⟨hjlt, hjget⟩ := List.getElem?_eq_some_iff.mp hj'
  exact (List.Nodup.getElem_inj_iff hn).mp (hL.trans hjget.symm)

theorem claims_claimed (l : Lane) (w : Wave) (n d k : Nat) (h : QHdr) (hd : d + 1 ≤ l.regs.length) :
    let l' := (({ l with opCount := n } : Lane).claims w d k h).noted
    Claimed l { l' with regs := l.regs } k ∧ l'.ring = (h.slots, h.logslots) ∧ (l'.reg d).full = false ∧ ∀ r, r ≠ d → l'.reg r = l.reg r := by
  intro l'
  obtain ⟨rs, hrs⟩ := mark_eq l.pc 1 d (({ l with opCount := n } : Lane).keep w)
  have hl : l' = ({ ({ (({ l with opCount := n } : Lane).keep w) with regs := rs } : Lane) with claim := some k, ring := (h.slots, h.logslots) } : Lane).noted :=
    congrArg (fun m : Lane => ({ m with claim := some k, ring := (h.slots, h.logslots) } : Lane).noted) hrs
  have hreg : ∀ r, l'.reg r = if d ≤ r ∧ r < d + 1 then { l.reg r with full := false, fault := false, tag := l.pc } else l.reg r := fun r =>
    (reg_mark (({ l with opCount := n } : Lane).keep w) l.pc d 1 r hd :)
  refine ⟨?_, by rw [hl]; rfl, ?_, fun r hr => ?_⟩
  · rw [hl]
    refine ⟨⟨rfl, ?_⟩, rfl, ⟨rfl, rfl⟩, rfl⟩
    unfold Lane.keep Lane.srcRegs Lane.noted
    dsimp only
    cases l.replay <;> rfl
  · rw [hreg, if_pos ⟨le_refl _, Nat.lt_succ_self _⟩]
  · rw [hreg, if_neg fun h => hr (by omega)]

theorem claimFrom_spec {s : State} {i : Iss} {n : BitVec 4} (hlog : i.g.logOrd = none) (hE : i.E ≠ []) :
    let s1 := s.setDirty i.die i.c (sysVa n i (i.E.headD 0))
    (claimFrom s i n).mem = s1.mem ∧ (claimFrom s i n).tlb = s1.tlb ∧ (claimFrom s i n).accs = s.accs ∧ (claimFrom s i n).fresh = s.fresh ∧
      (claimFrom s i n).lessClaim = s.lessClaim ∧ LanesTo i.uid i.E Recount s (claimFrom s i n) := by
  intro s1
  have hin : ∀ x ∈ headWholes n s i, x.lane ∈ [i.E.headD 0] := hdrWholes_lanes
  obtain ⟨_, hpass, hcount⟩ := passGo_free hlog s (headWholes n s i) s hin
  obtain ⟨hsaw, hwaves⟩ := sawAll_same i .sc (i.eachLane (headWholes n s i)) (s.passed i (headWholes n s i))
  have hall := hsaw.trans (lessSaw_of_less hpass)
  obtain ⟨hmem, htlb⟩ := setDirty_lessSaw hall i.die i.c (sysVa n i (i.E.headD 0))
  obtain ⟨hstores, hw, ha, hf, _⟩ := setDirty_less ((s.passed i (headWholes n s i)).sawAll i .sc (i.eachLane (headWholes n s i))) i.die i.c (sysVa n i (i.E.headD 0))
  have hhead : i.E.headD 0 ∈ i.E := by
    cases hl : i.E with
    | nil => exact absurd hl hE
    | cons L Ls => exact List.mem_cons_self ..
  refine ⟨hmem, htlb, ha.trans (accs_of_lessSaw hall).1, hf.trans (accs_of_lessSaw hall).2, ?_, ?_⟩
  · exact (lessClaim_of_lessStores hstores).trans (lessClaim_of_lessSaw hall)
  · exact (hcount.widen (fun L hL => List.mem_singleton.mp hL ▸ hhead) recount_refl).congr rfl (hw.trans hwaves)

/-- What the claim makes of the machine, and of the lanes. -/
structure ClaimMade (s : State) (i : Iss) (n : BitVec 4) (d pa : Nat) (h : QHdr) (t : State) : Prop where
  memory : t.mem = ((s.setDirty i.die i.c (sysVa n i (i.E.headD 0))).wr pa 8 ((s.setDirty i.die i.c (sysVa n i (i.E.headD 0))).rd pa 8 + i.E.length)).mem
  tlb : t.tlb = (s.setDirty i.die i.c (sysVa n i (i.E.headD 0))).tlb
  accs : t.accs = s.accs ∧ t.fresh = s.fresh
  rest : t.lessClaim = s.lessClaim
  lanes : LanesTo i.uid i.E (fun L l l' => ∃ m, Recount L l m ∧ ClaimTo i d ((s.setDirty i.die i.c (sysVa n i (i.E.headD 0))).rd pa 8) h L m l') s t

theorem claim_made {s : State} {i : Iss} {n : BitVec 4} (d : BitVec 7) (pa ty : Nat) (h : QHdr) (hlog : i.g.logOrd = none) (hE : i.E ≠ []) (hn : i.E.Nodup) :
    ClaimMade s i n d.toNat pa h ((claimFrom s i n).qpushClaim i d pa ty h) := by
  obtain ⟨hmem, htlb, haccs, hfresh, hrest, hcount⟩ := claimFrom_spec (s := s) (n := n) hlog hE
  obtain ⟨hsaw, hmade⟩ := qpushClaim_spec (claimFrom s i n) i d pa ty h hE hn
  have hrd : (claimFrom s i n).rd pa 8 = (s.setDirty i.die i.c (sysVa n i (i.E.headD 0))).rd pa 8 := by
    unfold State.rd
    rw [hmem]
  rw [hrd] at hsaw hmade
  refine ⟨(mem_of_lessSaw hsaw).trans (by rw [mem_wr, mem_wr, hmem]), (tlb_of_lessSaw hsaw).trans htlb, ?_, (lessClaim_of_lessSaw hsaw).trans ((lessClaim_wr _ _ _ _).trans hrest),
    hcount.trans hmade⟩
  exact ⟨(accs_of_lessSaw hsaw).1.trans haccs, (accs_of_lessSaw hsaw).2.trans hfresh⟩

/-- The first stage of QPUSH: the lanes of one wave claim their slots with one atomic add. -/
theorem qpush_claims (d a : BitVec 7) (n : BitVec 4) : Issues (.qpush d a n) (fSYSx [srcBlk a 16] [(d.toNat, 1)])
    (fun s x => x.E ≠ [] ∧ Memory.wf s.mem = true ∧ x.g.logOrd = none ∧
      (∃ h, s.qhdrAt x n (x.E.headD 0) = some h ∧ h.qkind ≠ 3 ∧ 4 ≤ h.logslots ∧ h.logslots ≤ 20) ∧
      (∃ pa e, s.laneXl x (sysVa n x (x.E.headD 0)) 32 (.atomic 0) = .ok pa e ∧ s.migHeld pa = false ∧
        ∀ L ∈ x.E, s.ordersPend x.uid L { accOf (.atom 0 0 0 none) pa 32 with type := e.type } = false) ∧
      ∀ L ∈ x.E, (x.l L).claim = none ∧ (x.l L).v a.toNat &&& 0xFF ≠ 0 ∧ sysVa n x L = sysVa n x (x.E.headD 0))
    (fun s => { s.lessStores with l2 := [] })
    (fun s x w s' w' =>
      let hva := sysVa n x (x.E.headD 0)
      let pa := s.paOf x hva 32 (.atomic 0)
      let s1 := s.setDirty x.die x.c hva
      w'.less = w.less ∧ s'.accs = s.accs ∧ s'.fresh = s.fresh ∧ s'.tlb = s1.tlb ∧
      s'.rd pa 8 = (s1.rd pa 8 + x.E.length) % 2 ^ 64 ∧ SameOutside s1 s' pa 8 ∧
      ∀ p ∈ x.E.zipIdx, let l' := w'.lane p.1
        Claimed (w.lane p.1) { l' with regs := (w.lane p.1).regs } ((s1.rd pa 8 + p.2) % 2 ^ 64) ∧
        (∃ h, s.qhdrAt x n (x.E.headD 0) = some h ∧ l'.ring = (h.slots, h.logslots)) ∧
        (l'.reg d.toNat).full = false ∧ ∀ r, r ≠ d.toNat → l'.reg r = (w.lane p.1).reg r) := by
  intro s w hi hr ⟨hE, hwf, hlog, ⟨h, hhdr, hkind, hlo, hhi⟩, ⟨pa, e, hok, hmig, hord⟩, hlanes⟩
  let ff : FormF := fSYSx [srcBlk a 16] [(d.toNat, 1)]
  let x := issueOf s w ff
  let u0 := s.skipped w ff
  have hbad : h.bad = false := by
    unfold QHdr.bad
    rw [beq_false_of_ne hkind, decide_eq_false (by omega), decide_eq_false (by omega)]
    rfl
  have hc : Claiming s x a n h pa e := ⟨hE, hlog, hhdr, hbad, hok, hmig, hord, fun L hL => by
    obtain ⟨h1, h2, h3⟩ := hlanes L hL
    exact ⟨h1, bne_iff_ne.mpr h2, h3⟩⟩
  have hc0 : Claiming u0 x a n h pa e := ⟨hE, hlog, (qhdrAt_lessSaw rfl x n _).trans hhdr, hbad, (laneXl_lessSaw rfl x _ _ _).trans hok, hmig, hord, hc.lanes⟩
  have hready : ∀ v : State, ∀ L ∈ x.E, (x.l L).claim.isSome = true → v.lanePend x.uid L anyWrite = [] := fun v L hL hs => by
    rw [(hlanes L hL).1] at hs
    cases hs
  have hm := claim_made (s := u0) (n := n) d pa e.type h hlog hE (executing_nodup s w ff)
  obtain ⟨hmem0, htlb0⟩ := setDirty_lessSaw (s := s) (u := u0) rfl x.die x.c (sysVa n x (x.E.headD 0))
  obtain ⟨w', hiss, hless, hstate, hto⟩ := issue_made ((claimFrom u0 x n).qpushClaim x d pa e.type h) hi hr (fun _ => qpush_idle hE (hready s) (claim_idle hc))
    (fun _ => qpush_goes hE (hready u0) (claim_body hc0)) (fun _ => hm.lanes)
    (fun L l l' hl ⟨m, hm, hR⟩ => claimTo_unstepped hl hm hR) fun _ => pkg_of_lessClaim hm.rest
  rw [bodyState_some hE] at hstate
  generalize (claimFrom u0 x n).qpushClaim x d pa e.type h = t at hm hstate
  have hpa : s.paOf x (sysVa n x (x.E.headD 0)) 32 (.atomic 0) = pa := by
    unfold State.paOf
    rw [hok]
  have hrd : (u0.setDirty x.die x.c (sysVa n x (x.E.headD 0))).rd pa 8 = (s.setDirty x.die x.c (sysVa n x (x.E.headD 0))).rd pa 8 := by
    unfold State.rd
    rw [hmem0]
  have hmemt : (s.issue ff (forcedBusy (fun s i L => s.force i.uid L (fun x => (i.l L).claim.isSome && anyWrite x) false) (qpushBusy n a)) (qpushAll d a n)).mem =
      ((s.setDirty x.die x.c (sysVa n x (x.E.headD 0))).wr pa 8 ((s.setDirty x.die x.c (sysVa n x (x.E.headD 0))).rd pa 8 + x.E.length)).mem := by
    refine (mem_of_lessSaw (lessSaw_of_less hstate)).trans (hm.memory.trans ?_)
    rw [hrd, mem_wr, mem_wr, hmem0]
  refine ⟨_, w', exec_qpush d a n s, hiss, (lessClaim_of_less hstate).trans hm.rest, hless, (congrArg State.accs hstate :).trans hm.accs.1,
    (congrArg State.fresh hstate :).trans hm.accs.2, (congrArg State.tlb hstate :).trans (hm.tlb.trans htlb0), ?_, ?_, ?_⟩
  · rw [hpa]
    have hwf1 : Memory.wf (s.setDirty x.die x.c (sysVa n x (x.E.headD 0))).mem = true := setDirty_keeps s _ _ _ hwf
    have hread := rd_wr (s.setDirty x.die x.c (sysVa n x (x.E.headD 0))) pa 8 ((s.setDirty x.die x.c (sysVa n x (x.E.headD 0))).rd pa 8 + x.E.length) hwf1
    unfold State.rd at hread ⊢
    rw [hmemt]
    exact hread
  · rw [hpa]
    intro b hb
    rw [hmemt]
    exact wr_sameOutside _ pa 8 _ b hb
  · intro p hp
    have hL : p.1 ∈ x.E := (List.mem_zipIdx' hp).2 ▸ List.getElem_mem _
    obtain ⟨l', ⟨m, ⟨j, hj⟩, hclaim⟩, hl⟩ := hto p.1 hL
    obtain ⟨k, w0, m', hk, ⟨j', hj'⟩, hclaims⟩ := hclaim
    have hplace : k = p.2 := place_of_zip (executing_nodup s w ff) hk hp
    have hlane : w'.lane p.1 = (({ w.lane p.1 with opCount := j' } : Lane).claims w0 d.toNat (((s.setDirty x.die x.c (sysVa n x (x.E.headD 0))).rd pa 8 + p.2) % 2 ^ 64) h).noted := by
      rw [hl, hclaims, hj', hj, hplace, hrd]
    obtain ⟨h1, h2, h3, h4⟩ := claims_claimed (w.lane p.1) w0 j' d.toNat (((s.setDirty x.die x.c (sysVa n x (x.E.headD 0))).rd pa 8 + p.2) % 2 ^ 64) h
      (executing_dsts (fun _ _ => rfl) one_ne_zero p.1 hL)
    rw [hpa]
    dsimp only
    rw [hlane]
    exact ⟨h1, ⟨h, hhdr, h2⟩, h3, h4⟩

/-! ## The packet of a claimed slot (R349) -/

theorem leNat_take_drop (bs : List Byte) (k n : Nat) : leNat ((bs.drop k).take n) = leNat bs / 256 ^ k % 256 ^ n := by
  have hdrop : ∀ (m : Nat) (cs : List Byte), leNat (cs.drop m) = leNat cs / 256 ^ m := fun m cs => by
    by_cases hm : m ≤ cs.length
    · have h := leNat_append (cs.take m) (cs.drop m)
      have hlt := leNat_lt (cs.take m)
      rw [List.take_append_drop] at h
      rw [List.length_take, Nat.min_eq_left hm] at h hlt
      rw [h, Nat.add_mul_div_left _ _ (by positivity), Nat.div_eq_of_lt hlt, Nat.zero_add]
    · have hlt := leNat_lt cs
      rw [List.drop_eq_nil_of_le (by omega), Nat.div_eq_of_lt (hlt.trans_le (Nat.pow_le_pow_right (by norm_num) (by omega)))]
      rfl
  have htake : ∀ (m : Nat) (cs : List Byte), leNat (cs.take m) = leNat cs % 256 ^ m := fun m cs => by
    by_cases hm : m ≤ cs.length
    · have h := leNat_append (cs.take m) (cs.drop m)
      have hlt := leNat_lt (cs.take m)
      rw [List.take_append_drop] at h
      rw [List.length_take, Nat.min_eq_left hm] at h hlt
      rw [h, Nat.add_mul_mod_self_left, Nat.mod_eq_of_lt hlt]
    · have hlt := leNat_lt cs
      rw [List.take_of_length_le (by omega), Nat.mod_eq_of_lt (hlt.trans_le (Nat.pow_le_pow_right (by norm_num) (by omega)))]
  rw [htake, hdrop]

/-- The bytes of the packet with the index as its SEQ. -/
def pktBytes (l : Lane) (a : BitVec 7) : List Byte :=
  (recordBytes (pktOf l a)).take 2 ++ leBytes 2 (l.claim.getD 0) ++ (recordBytes (pktOf l a)).drop 4

theorem words_lt (l : Lane) : ∀ k n, l.words n k < 2 ^ (32 * k)
  | 0, _ => Nat.one_pos
  | k + 1, n => by
    have h := words_lt l k (n + 1)
    have hv := (l.v n).isLt
    unfold Lane.words
    rw [show 32 * (k + 1) = 32 + 32 * k by ring, pow_add]
    nlinarith

theorem pow_256 (n : Nat) : 256 ^ n = 2 ^ (8 * n) := pow_mul 2 8 n ▸ rfl

theorem leNat_pktBytes (l : Lane) (a : BitVec 7) :
    leNat (pktBytes l a) = l.words a.toNat 16 % 2 ^ 16 + 2 ^ 16 * (l.claim.getD 0 % 2 ^ 16) + 2 ^ 32 * (l.words a.toNat 16 / 2 ^ 32) := by
  have hlt := words_lt l 16 a.toNat
  have hwhole : leNat (recordBytes (pktOf l a)) = l.words a.toNat 16 := by
    unfold recordBytes pktOf
    rw [leNat_leBytes, BitVec.toNat_ofNat, pow_256, Nat.mod_mod_of_dvd _ (pow_dvd_pow 2 (by norm_num)),
      Nat.mod_eq_of_lt (hlt.trans_le (Nat.pow_le_pow_right (by norm_num) (by norm_num)))]
  have hlen : (recordBytes (pktOf l a)).length = 64 := by
    unfold recordBytes
    rw [length_leBytes]
  have hfirst : leNat ((recordBytes (pktOf l a)).take 2) = l.words a.toNat 16 % 2 ^ 16 := by
    have h := leNat_take_drop (recordBytes (pktOf l a)) 0 2
    rw [List.drop_zero, hwhole, pow_zero, Nat.div_one] at h
    exact h
  have hlast : leNat ((recordBytes (pktOf l a)).drop 4) = l.words a.toNat 16 / 2 ^ 32 := by
    have h := leNat_take_drop (recordBytes (pktOf l a)) 4 60
    rw [List.take_of_length_le (by rw [List.length_drop, hlen]), hwhole] at h
    rw [h, pow_256 4, Nat.mod_eq_of_lt]
    refine Nat.div_lt_of_lt_mul ?_
    rw [pow_256, ← pow_add]
    exact hlt
  unfold pktBytes
  rw [leNat_append, leNat_append, hfirst, hlast, leNat_leBytes, List.length_append, List.length_take, hlen, length_leBytes]
  norm_num

/-- The pieces of a packet's store: where each starts, how long it is, and its order. -/
def pktPieces : List (Nat × Nat × Ord) := [(1, 1, .wk), (2, 2, .wk), (4, 4, .wk), (8, 8, .wk), (16, 16, .wk), (32, 16, .wk), (48, 16, .wk), (0, 1, .rel)]

theorem qpushAccs_eq (i : Iss) (L : Nat) (a : BitVec 7) (va pa : Nat) (e : Pte) : qpushAccs i L a va pa e = pktPieces.map (fun x =>
    { accOf .store (pa + x.1) x.2.1 with
      va := BitVec.ofNat 72 (va + x.1), data := BitVec.ofNat 128 (leNat (pktBytes (i.l L) a) / 256 ^ x.1 % 256 ^ x.2.1), ord := x.2.2, type := e.type
      log := e.log, posted := true }) :=
  List.map_congr_left fun x _ => by
    rw [← leNat_take_drop]
    rfl

/-! ## Operations that a lane counts -/

/-- The lane, which has counted k more operations. -/
def Counted (k : Nat → Nat) (L : Nat) (l l' : Lane) : Prop := l' = { l with opCount := l.opCount + k L }

theorem LanesTo.wave {uid : Nat} {Ls : List Nat} {R : Nat → Lane → Lane → Prop} {s u : State} {v : Wave} (h : LanesTo uid Ls R s u) (hv : s.wave? uid = some v) :
    ∃ v', u.wave? uid = some v' ∧ v'.lanes.length = v.lanes.length ∧ (∀ L, L ∉ Ls → v'.lane L = v.lane L) ∧
      ∀ L ∈ Ls, L < v.lanes.length → R L (v.lane L) (v'.lane L) := by
  obtain ⟨f, hw, hf⟩ := h
  obtain ⟨h1, h2, h3, h4⟩ := hf v
  refine ⟨f v, ?_, h2, h3, h4⟩
  have e : u.wave? uid = (s.updWave uid f).wave? uid := by
    unfold State.wave?
    rw [hw]
  rw [e, wave_updWave _ _ _ fun v => uid_of_less (hf v).1, hv]
  rfl

/-- A piece that is read passes: its lane counts it, if the page is logged. -/
def passStep (i : Iss) (s : State) (x : Whole) : State :=
  if !x.e.log then s.movedBytes i.c x.pa x.n else (s.updLane i.uid x.lane (fun l => { l with opCount := l.opCount + 1 })).movedBytes i.c x.pa x.n

theorem passGo_fold {i : Iss} (hlog : i.g.logOrd = none) (s0 : State) : ∀ (ws : List Whole) (s : State), (s0.passGo s i ws).2 = ws.foldl (passStep i) s
  | [], _ => rfl
  | x :: ws, s => by
    have hgate : ∀ die p, s.ssGate (i.g.logOrd.isSome && s.isLocal x.pa) die p = (true, s) := fun die p => by
      rw [hlog]
      rfl
    unfold State.passGo
    rw [List.foldl_cons]
    unfold passStep
    split
    · exact passGo_fold hlog s0 ws _
    · dsimp only
      rw [hgate]
      exact passGo_fold hlog s0 ws _

/-- One piece for each of different lanes: each counts its own. -/
theorem passed_counts {i : Iss} (hlog : i.g.logOrd = none) (s : State) (f : Nat → Whole) (Ls : List Nat) (hn : Ls.Nodup) (hf : ∀ L, (f L).lane = L) :
    LanesTo i.uid Ls (Counted fun L => if (f L).e.log then 1 else 0) s (s.passed i (Ls.map f)) := by
  unfold State.passed
  rw [passGo_fold hlog, List.foldl_map]
  refine (LanesTo.foldl (fun _ => True) Ls s hn trivial fun L _ u _ => ⟨?_, trivial⟩).1
  unfold passStep
  cases hl : (f L).e.log with
  | false =>
    refine (LanesTo.of_waves (fun K hK l => ?_) (movedBytes_same u _ _ _).2 : LanesTo i.uid [L] _ u _)
    rw [List.mem_singleton.mp hK]
    unfold Counted
    dsimp only
    rw [hl]
    rfl
  | true =>
    have hone : LanesTo i.uid [L] (fun _ l l' => l' = { l with opCount := l.opCount + 1 }) u (u.updLane i.uid L (fun l => { l with opCount := l.opCount + 1 })) :=
      LanesTo.updLane u _ fun l => rfl
    rw [hf L]
    refine (hone.congr rfl (movedBytes_same _ _ _ _).2).mono fun K hK l l' h => ?_
    rw [List.mem_singleton.mp hK]
    unfold Counted
    dsimp only
    rw [hl]
    exact h

/-! ## Accesses of one lane, one after the other -/

theorem addAccAt_spec {i : Iss} {L : Nat} {s : State} {v : Wave} (scope : BitVec 3) (a : Acc) (hv : s.wave? i.uid = some v) :
    let t := s.addAccAt i L scope a
    t.lessAccs = s.lessAccs ∧ t.fresh = s.fresh + 1 ∧ t.accs = s.accs ++ [{ s.madeBy i L s.fresh a with scope := scope, count := (v.lane L).opCount }] ∧
      LanesTo i.uid [L] (Counted fun _ => if counts a.op a.log a.sp.isSome then 1 else 0) s t := by
  intro t
  have ht : t = s.addAccAt i L scope a := rfl
  unfold State.addAccAt at ht
  rw [hv] at ht
  dsimp only at ht
  rw [ht]
  cases h : counts a.op a.log a.sp.isSome with
  | false => exact ⟨rfl, rfl, rfl, .of_waves (fun _ _ _ => rfl) rfl⟩
  | true => exact ⟨rfl, rfl, rfl, (LanesTo.updLane _ _ fun l => rfl : LanesTo i.uid [L] _ { s with accs := _, fresh := _ } _).congr rfl rfl⟩

theorem addAccs_spec {i : Iss} {L : Nat} (scope : BitVec 3) (log : Bool) : ∀ (as : List Acc) (s : State) (v : Wave), s.wave? i.uid = some v → L < v.lanes.length →
    (∀ a ∈ as, counts a.op a.log a.sp.isSome = log) →
    let t := as.foldl (fun s a => s.addAccAt i L scope a) s
    t.lessAccs = s.lessAccs ∧ t.fresh = s.fresh + as.length ∧
      t.accs = s.accs ++ as.zipIdx.map (fun q => { s.madeBy i L (s.fresh + q.2) q.1 with scope := scope, count := (v.lane L).opCount + if log then q.2 else 0 }) ∧
      LanesTo i.uid [L] (Counted fun _ => if log then as.length else 0) s t
  | [], s, v, _, _, _ => ⟨rfl, rfl, (List.append_nil _).symm, .of_waves (fun _ _ l => by unfold Counted; cases log <;> rfl) rfl⟩
  | a :: as, s, v, hv, hL, has => by
    have hcount := has a (List.mem_cons_self ..)
    obtain ⟨h1, h2, h3, h4⟩ := addAccAt_spec (L := L) scope a hv
    rw [hcount] at h4
    obtain ⟨v', hv', hlen, _, hR⟩ := h4.wave hv
    have hlane := hR L (List.mem_singleton.mpr rfl) hL
    obtain ⟨k1, k2, k3, k4⟩ := addAccs_spec scope log as (s.addAccAt i L scope a) v' hv' (hlen ▸ hL) fun b hb => has b (List.mem_cons_of_mem _ hb)
    rw [List.foldl_cons]
    have hcycle : (s.addAccAt i L scope a).cycle = s.cycle := (congrArg State.cycle h1 :)
    refine ⟨k1.trans h1, k2.trans (by rw [h2, List.length_cons]; omega), k3.trans ?_, (h4.trans k4).mono fun _ _ l l' ⟨m, hm, hl⟩ => ?_⟩
    · rw [h3, List.zipIdx_cons, List.zipIdx_succ, List.map_cons, List.map_map, List.append_assoc]
      refine congrArg (s.accs ++ ·) ?_
      rw [List.singleton_append]
      congr 1
      · cases log <;> rfl
      · refine List.map_congr_left fun q _ => ?_
        dsimp only [Function.comp]
        rw [hlane, h2]
        unfold State.madeBy
        rw [hcycle]
        cases log
        · rw [show s.fresh + 1 + q.2 = s.fresh + (q.2 + 1) by omega]
          rfl
        · dsimp only
          rw [if_pos rfl, if_pos rfl, if_pos rfl, show s.fresh + 1 + q.2 = s.fresh + (q.2 + 1) by omega, show (v.lane L).opCount + 1 + q.2 = (v.lane L).opCount + (q.2 + 1) by omega]
    · unfold Counted at hm hl ⊢
      rw [hl, hm]
      cases log
      · rfl
      · dsimp only
        rw [if_pos rfl, if_pos rfl, if_pos rfl, List.length_cons, Nat.add_assoc, Nat.add_comm 1]

/-! ## The stores of one packet, and of all (R349) -/

/-- The machine but what the stores of packets change. -/
def State.lessPush (s : State) : State := { s.lessStores with lands := [], l2 := [] }

theorem lessPush_lessSaw (s : State) : s.lessSaw.lessPush = s.lessPush := rfl
theorem lessPush_of_lessSaw {s u : State} (h : u.lessSaw = s.lessSaw) : u.lessPush = s.lessPush := by
  rw [← lessPush_lessSaw u, h, lessPush_lessSaw]

theorem lessPush_of_lessStores {s u : State} (h : u.lessStores = s.lessStores) : u.lessPush = s.lessPush := by
  unfold State.lessPush
  rw [h]

/-- The lane, which has sent its packet and goes on. -/
def PushTo (_ : Nat) (l l' : Lane) : Prop := ∃ k, l' = ({ l with opCount := k } : Lane).adv

/-- The accesses of one packet, made from this number of accesses and of operations on. -/
def pushedAccs (s : State) (i : Iss) (L : Nat) (a : BitVec 7) (va pa : Nat) (e : Pte) (fresh count : Nat) : List Acc :=
  pktPieces.zipIdx.map (fun q =>
    { s.madeBy i L (fresh + q.2) { accOf .store (pa + q.1.1) q.1.2.1 with
        va := BitVec.ofNat 72 (va + q.1.1), data := BitVec.ofNat 128 (leNat (pktBytes (i.l L) a) / 256 ^ q.1.1 % 256 ^ q.1.2.1), ord := q.1.2.2
        type := e.type, log := e.log, posted := true } with
      scope := 5
      count := count + if e.log then q.2 else 0 })

/-- The index on its way. -/
def pushedLand (s : State) (i : Iss) (L d fresh : Nat) : Land :=
  { id := fresh + 8, uid := i.uid, lane := L, d := d, vals := [lo32 ((i.l L).claim.getD 0)], due := s.replyDue i.die, pc := (i.l L).pc }

/-- What the store of a lane's packet leaves. -/
structure PushMade (s : State) (i : Iss) (d a : BitVec 7) (va pa : Nat → Nat) (e : Nat → Pte) (count : Nat → Nat) (Ls : List Nat) (t : State) : Prop where
  rest : t.lessPush = s.lessPush
  fresh : t.fresh = s.fresh + 9 * Ls.length
  accs : t.accs = s.accs ++ Ls.zipIdx.flatMap (fun p => pushedAccs s i p.1 a (va p.1) (pa p.1) (e p.1) (s.fresh + 9 * p.2) (count p.1))
  lands : t.lands = s.lands ++ Ls.zipIdx.map (fun p => pushedLand s i p.1 d.toNat (s.fresh + 9 * p.2))
  lanes : LanesTo i.uid Ls PushTo s t

theorem qpushStore_made {s : State} {i : Iss} {L : Nat} {v : Wave} (d a : BitVec 7) (va pa : Nat) (e : Pte) (hv : s.wave? i.uid = some v) (hL : L < v.lanes.length) :
    let t := s.qpushStore i L d a va pa e
    PushMade s i d a (fun _ => va) (fun _ => pa) (fun _ => e) (fun K => (v.lane K).opCount) [L] t ∧ t.mem = s.mem ∧ t.tlb = s.tlb := by
  have hcounts : ∀ b ∈ qpushAccs i L a va pa e, counts b.op b.log b.sp.isSome = e.log := fun b hb => by
    rw [qpushAccs_eq] at hb
    obtain ⟨x, _, rfl⟩ := List.mem_map.mp hb
    unfold counts
    cases e.log <;> rfl
  obtain ⟨h1, h2, h3, h4⟩ := addAccs_spec 5 e.log (qpushAccs i L a va pa e) s v hv hL hcounts
  intro t
  have ht : t = s.qpushStore i L d a va pa e := rfl
  unfold State.qpushStore at ht
  dsimp only at ht
  have hlen : (qpushAccs i L a va pa e).length = 8 := rfl
  rw [hlen] at h2
  generalize (qpushAccs i L a va pa e).foldl (fun s a => s.addAccAt i L 5 a) s = u at h1 h2 h3 h4 ht
  have hlands : u.lands = s.lands := (congrArg State.lands h1 :)
  rw [ht]
  refine ⟨⟨?_, ?_, ?_, ?_, ?_⟩, (congrArg State.mem h1 :), (congrArg State.tlb h1 :)⟩
  · exact (congrArg (fun v : State => { v with mem := [], wrote := [], writes := 0, pages := [], tlb := [], lands := [], l2 := [] }) h1 :)
  · exact (congrArg (· + 1) h2 :)
  · refine h3.trans (congrArg (s.accs ++ ·) ?_)
    rw [qpushAccs_eq, List.zipIdx_map, List.map_map]
    exact (List.append_nil _).symm
  · show u.lands ++ _ = _
    rw [hlands]
    refine congrArg (s.lands ++ ·) ?_
    show [_] = [_]
    rw [show (u.updLane i.uid L Lane.adv).fresh = s.fresh + 8 from h2]
    rfl
  · have hadv : LanesTo i.uid [L] (fun _ l l' => l' = l.adv) u (u.updLane i.uid L Lane.adv) := LanesTo.updLane u _ fun l => rfl
    exact (h4.trans (hadv.congr rfl rfl)).mono fun _ _ l l' ⟨m, hm, hl⟩ => ⟨_, hl.trans (congrArg Lane.adv hm)⟩

theorem pushedAccs_congr {s u : State} (h : u.cycle = s.cycle) (i : Iss) (L : Nat) (a : BitVec 7) (va pa : Nat) (e : Pte) (fresh count : Nat) :
    pushedAccs u i L a va pa e fresh count = pushedAccs s i L a va pa e fresh count := by
  unfold pushedAccs State.madeBy
  rw [h]

/-- One lane becomes what R says, then the others do. -/
theorem LanesTo.cons {uid L : Nat} {Ls : List Nat} {R : Nat → Lane → Lane → Prop} {s u t : State} (h : LanesTo uid [L] R s u) (h' : LanesTo uid Ls R u t) (hL : L ∉ Ls) :
    LanesTo uid (L :: Ls) R s t := by
  obtain ⟨f, hw, hf⟩ := h
  obtain ⟨f', hw', hf'⟩ := h'
  refine ⟨fun v => f' (f v), ?_, fun v => ?_⟩
  · refine hw'.trans ((waves_updWave_of hw uid f').trans ?_)
    exact (congrArg State.waves (updWave_updWave s uid f f' fun v => uid_of_less (hf v).1) :)
  · obtain ⟨h1, h2, h3, h4⟩ := hf v
    obtain ⟨k1, k2, k3, k4⟩ := hf' (f v)
    refine ⟨k1.trans h1, k2.trans h2, fun K hK => ?_, fun K hK hlt => ?_⟩
    · obtain ⟨hne, hnot⟩ := not_or.mp fun e => hK (List.mem_cons.mpr e)
      exact (k3 K hnot).trans (h3 K fun e => hne (List.mem_singleton.mp e))
    · rcases List.mem_cons.mp hK with rfl | hK
      · rw [k3 K hL]
        exact h4 K (List.mem_singleton.mpr rfl) hlt
      · rw [← h3 K fun e => hL (List.mem_singleton.mp e ▸ hK)]
        exact k4 K hK (by rw [h2]; exact hlt)

/-- Lanes send their packets one after the other. -/
theorem foldl_push {i : Iss} (d a : BitVec 7) (va pa : Nat → Nat) (e : Nat → Pte) (count : Nat → Nat) (s0 : State) (vas : List Nat) : ∀ (Ls : List Nat) (s : State) (v : Wave),
    s.wave? i.uid = some v → Ls.Nodup → (∀ L ∈ Ls, (v.lane L).opCount = count L ∧ L < v.lanes.length ∧ va L ∈ vas) → DirtyOnly s0 s i.die i.c vas →
    let t := Ls.foldl (fun u L => (u.touched i .store (va L)).qpushStore i L d a (va L) (pa L) (e L)) s
    PushMade s i d a va pa e count Ls t ∧ DirtyOnly s0 t i.die i.c vas
  | [], s, v, _, _, _, h => ⟨⟨rfl, rfl, (List.append_nil _).symm, (List.append_nil _).symm, .of_waves (fun _ h => nomatch h) rfl⟩, h⟩
  | L :: Ls, s, v, hv, hn, hin, h => by
    obtain ⟨hcount, hL, hva⟩ := hin L (List.mem_cons_self ..)
    obtain ⟨hnotin, hn⟩ := List.nodup_cons.mp hn
    obtain ⟨hw, ha, hf, hc, hstores⟩ := touched_keeps s i .store (va L)
    have hv1 : (s.touched i .store (va L)).wave? i.uid = some v := by
      unfold State.wave?
      rw [hw]
      exact hv
    have hone : DirtyOnly s0 (s.touched i .store (va L)) i.die i.c vas := h.step hva
    obtain ⟨hm, hmem, htlb⟩ := qpushStore_made d a (va L) (pa L) (e L) hv1 hL
    rw [List.foldl_cons]
    generalize (s.touched i .store (va L)).qpushStore i L d a (va L) (pa L) (e L) = u at hm hmem htlb
    obtain ⟨h1, h2, h3, h4, h5⟩ := hm
    have hlanes : LanesTo i.uid [L] PushTo s u := h5.congr hw.symm rfl
    obtain ⟨v', hv', hlen, hout, _⟩ := hlanes.wave hv
    obtain ⟨⟨k1, k2, k3, k4, k5⟩, hdirty⟩ := foldl_push d a va pa e count s0 vas Ls u v' hv' hn (fun K hK => by
      rw [hout K fun hKL => hnotin (List.mem_singleton.mp hKL ▸ hK), hlen]
      exact hin K (List.mem_cons_of_mem _ hK)) (hone.of_same hmem htlb)
    have hless : u.lessPush = s.lessPush := h1.trans (lessPush_of_lessStores hstores)
    have hcycle : u.cycle = s.cycle := (congrArg State.cycle hless :)
    have hdue : u.replyDue i.die = s.replyDue i.die := (congrArg (fun v : State => v.replyDue i.die) hless :)
    have hdue1 : (s.touched i .store (va L)).replyDue i.die = s.replyDue i.die := (congrArg (fun v : State => v.replyDue i.die) hstores :)
    have hlands : (s.touched i .store (va L)).lands = s.lands := (congrArg State.lands hstores :)
    have hfresh : u.fresh = s.fresh + 9 := by rw [h2, hf]; rfl
    have hfirst : u.accs = s.accs ++ pushedAccs s i L a (va L) (pa L) (e L) (s.fresh + 9 * 0) (count L) := by
      rw [h3, ha, hf, ← hcount]
      exact congrArg (s.accs ++ ·) ((List.append_nil _).trans (pushedAccs_congr hc ..))
    have hland : u.lands = s.lands ++ [pushedLand s i L d.toNat (s.fresh + 9 * 0)] := by
      rw [h4, hlands, hf]
      refine congrArg (s.lands ++ [·]) ?_
      unfold pushedLand
      dsimp only
      rw [hdue1]
    refine ⟨⟨k1.trans hless, ?_, ?_, ?_, ?_⟩, hdirty⟩
    · rw [k2, hfresh, List.length_cons]
      omega
    · rw [k3, hfirst, hfresh, List.zipIdx_cons, List.zipIdx_succ, List.flatMap_cons, List.flatMap_map, List.append_assoc]
      refine congrArg (fun as => s.accs ++ (pushedAccs s i L a (va L) (pa L) (e L) (s.fresh + 9 * 0) (count L) ++ as)) (List.flatMap_congr fun p _ => ?_)
      rw [pushedAccs_congr hcycle, show s.fresh + 9 + 9 * p.2 = s.fresh + 9 * (p.2 + 1) by omega]
    · rw [k4, hland, hfresh, List.zipIdx_cons, List.zipIdx_succ, List.map_cons, List.map_map, List.append_assoc, List.singleton_append]
      refine congrArg (fun ls => s.lands ++ (pushedLand s i L d.toNat (s.fresh + 9 * 0) :: ls)) (List.map_congr_left fun p _ => ?_)
      unfold pushedLand
      dsimp only [Function.comp]
      rw [hdue, show s.fresh + 9 + 9 * p.2 = s.fresh + 9 * (p.2 + 1) by omega]
    · exact hlanes.cons k5 hnotin

/-! ## The stage that writes packets -/

/-- Lanes that are not named stay as they are. -/
theorem LanesTo.among {uid : Nat} {Ls Ls' : List Nat} {R : Nat → Lane → Lane → Prop} {s u : State} (h : LanesTo uid Ls R s u) (hsub : ∀ L ∈ Ls, L ∈ Ls') :
    LanesTo uid Ls' (fun L l l' => (L ∈ Ls → R L l l') ∧ (L ∉ Ls → l' = l)) s u := by
  obtain ⟨f, hw, hf⟩ := h
  refine ⟨f, hw, fun v => ?_⟩
  obtain ⟨h1, h2, h3, h4⟩ := hf v
  exact ⟨h1, h2, fun L hL => h3 L fun e => hL (hsub L e), fun L _ hlt => ⟨fun hin => h4 L hin hlt, fun hout => h3 L hout⟩⟩

theorem paOf_lessSaw {s u : State} (h : u.lessSaw = s.lessSaw) (i : Iss) (va n : Nat) (k : AccKind) : u.paOf i va n k = s.paOf i va n k := by
  unfold State.paOf
  rw [laneXl_lessSaw h]

theorem pteOf_lessSaw {s u : State} (h : u.lessSaw = s.lessSaw) (i : Iss) (va n : Nat) (k : AccKind) : u.pteOf i va n k = s.pteOf i va n k := by
  unfold State.pteOf
  rw [laneXl_lessSaw h]

theorem placed_lessSaw {s u : State} (h : u.lessSaw = s.lessSaw) (i : Iss) (n : BitVec 4) : i.placed u n = i.placed s n := by
  unfold Iss.placed slotFree
  simp only [qhdrAt_lessSaw h]

/-- A lane whose header can be read names an aligned one that is translated. -/
theorem qhdrAt_some {s : State} {i : Iss} {n : BitVec 4} {L : Nat} (h : (s.qhdrAt i n L).isSome = true) : s.passes i (sysVa n i L) 32 8 .load := by
  unfold State.qhdrAt at h
  split at h
  · cases h
  · next hal =>
    refine ⟨by simpa using hal, ?_⟩
    split at h
    · next pa e hok => exact ⟨pa, e, hok⟩
    · cases h

/-- What holds of lanes that have claimed and are to send their packets. -/
structure Pushing (s : State) (i : Iss) (n : BitVec 4) : Prop where
  some : (i.placed s n).E ≠ []
  unlogged : i.g.logOrd = none
  header : ∀ L ∈ i.claimed.E, (s.qhdrAt i n L).isSome = true
  passes : ∀ L ∈ (i.placed s n).E, s.passes i (slotVa i L) 64 64 .store
  distinct : (i.placed s n).E.Nodup

theorem Pushing.claimed {s : State} {i : Iss} {n : BitVec 4} (h : Pushing s i n) : i.claimed.E ≠ [] := fun e => h.some (by
  unfold Iss.placed
  rw [e]
  rfl)

theorem placed_claimed {s : State} {i : Iss} {n : BitVec 4} {L : Nat} (h : L ∈ (i.placed s n).E) : L ∈ i.claimed.E := List.mem_of_mem_filter h
theorem claimed_in {i : Iss} {L : Nat} (h : L ∈ i.claimed.E) : L ∈ i.E := List.mem_of_mem_filter h

/-- The piece of its queue's header that a lane with a claim reads. -/
def freeWhole (s : State) (i : Iss) (n : BitVec 4) (L : Nat) : Whole :=
  { lane := L, pa := s.paOf i (sysVa n i L) 32 .load + 8, n := 8, e := s.pteOf i (sysVa n i L) 32 .load }

theorem Pushing.wholes {s : State} {i : Iss} {n : BitVec 4} (h : Pushing s i n) : freeWholes n s i = (i.placed s n).E.map (freeWhole s i n) := by
  unfold freeWholes hdrWholes
  rw [List.map_eq_flatMap]
  refine List.flatMap_congr fun L hL => ?_
  obtain ⟨hal, pa, e, hok⟩ := qhdrAt_some (h.header L (placed_claimed hL))
  unfold freeWhole State.paOf State.pteOf
  rw [hok, if_neg (by simp [hal])]

theorem push_idle {s : State} {i : Iss} {a : BitVec 7} {n : BitVec 4} (h : Pushing s i n) : qpushBusy n a s i = none := by
  have hsome : (i.claimed.E != []) = true := bne_iff_ne.mpr h.claimed
  have hheader : needPages (fun i => i.E.map (sysVa n i)) s i.claimed = none := needPages_none (unwalked_nil fun v hv => by
    obtain ⟨L, hL, rfl⟩ := List.mem_map.mp hv
    obtain ⟨_, pa, e, hok⟩ := qhdrAt_some (h.header L hL)
    exact ⟨32, .load, pa, e, hok⟩)
  have hslot : needPages (fun i => i.E.map (slotVa i)) s (i.placed s n) = none := needPages_none (unwalked_nil fun v hv => by
    obtain ⟨L, hL, rfl⟩ := List.mem_map.mp hv
    obtain ⟨_, pa, e, hok⟩ := h.passes L hL
    exact ⟨64, .store, pa, e, hok⟩)
  have hwhole : waitWholes (freeWholes n) s i = none := waitWholes_free h.unlogged fun x hx => claimed_in (placed_claimed (hdrWholes_lanes x hx))
  unfold qpushBusy
  rw [if_pos hsome, hheader]
  dsimp only
  rw [if_neg h.some, hslot]
  exact hwhole

/-- The state once the lanes have read their headers. -/
def pushFrom (s : State) (i : Iss) (n : BitVec 4) : State := (s.passed i (freeWholes n s i)).sawAll i .sc (freeWholes n s i)

/-- The state once the lanes have sent their packets as well. -/
def pushAll (s : State) (i : Iss) (d a : BitVec 7) (n : BitVec 4) : State :=
  (i.placed s n).E.foldl (fun u L =>
    (u.touched i .store (slotVa i L)).qpushStore i L d a (slotVa i L) (s.paOf i (slotVa i L) 64 .store) (s.pteOf i (slotVa i L) 64 .store)) (pushFrom s i n)

theorem pushFrom_same {s : State} {i : Iss} {n : BitVec 4} (h : Pushing s i n) : (pushFrom s i n).lessSaw = s.lessSaw ∧
    LanesTo i.uid (i.placed s n).E (Counted fun L => if (s.pteOf i (sysVa n i L) 32 .load).log then 1 else 0) s (pushFrom s i n) := by
  have hpass := (passGo_free h.unlogged s (freeWholes n s i) s (Ls := (i.placed s n).E) hdrWholes_lanes).2.1
  obtain ⟨hsaw, hwaves⟩ := sawAll_same i .sc (freeWholes n s i) (s.passed i (freeWholes n s i))
  refine ⟨hsaw.trans (lessSaw_of_less hpass), ?_⟩
  have hcount := passed_counts h.unlogged s (freeWhole s i n) (i.placed s n).E h.distinct fun _ => rfl
  rw [← h.wholes] at hcount
  exact hcount.congr rfl hwaves

theorem push_body {s : State} {i : Iss} {d a : BitVec 7} {n : BitVec 4} (h : Pushing s i n) : qpushBody d a n i s = (pushAll s i d a n, []) := by
  have hstuck : i.claimed.E.filter (fun L => (s.qhdrAt i n L).isNone) = [] := List.filter_eq_nil_iff.mpr fun L hL => by
    rw [Option.isNone_eq_false_iff.mpr (h.header L hL)]
    exact Bool.false_ne_true
  have hsome : (i.claimed.E != []) = true := bne_iff_ne.mpr h.claimed
  have hready : (i.placed s n).E.filter (fun L => !([] : List Nat).contains L) = (i.placed s n).E := List.filter_eq_self.mpr fun _ _ => rfl
  have hsaw := (pushFrom_same h).1
  have hmem := memBody_passes (k := .store) (align := 64) (n := 64) (va := slotVa) (dst := (d.toNat, 1))
    (go := fun i L pa e s1 => s1.qpushStore i L d a (slotVa i L) pa e) (i := { i with E := (i.placed s n).E }) (s := pushFrom s i n) fun L hL => by
      obtain ⟨hal, pa, e, hok⟩ := h.passes L hL
      exact ⟨hal, pa, e, (laneXl_lessSaw hsaw _ _ _ _).trans hok⟩
  unfold qpushBody
  rw [if_pos hsome, hstuck]
  dsimp only
  rw [hready]
  refine congrArg (fun r : State × Traps => (r.1, r.2)) (hmem.trans (congrArg (·, []) ?_))
  refine List.foldl_ext _ _ _ fun u L _ => ?_
  rw [paOf_lessSaw hsaw, pteOf_lessSaw hsaw]
  rfl

/-- The operations that a lane has counted once it has read its queue's header. -/
def pushCount (s : State) (i : Iss) (n : BitVec 4) (L : Nat) : Nat := (i.l L).opCount + if (s.pteOf i (sysVa n i L) 32 .load).log then 1 else 0

theorem placed_skipped (s : State) (w : Wave) (ff : FormF) (x : Iss) (n : BitVec 4) : x.placed (s.skipped w ff) n = x.placed s n :=
  placed_lessSaw rfl x n

theorem placed_executing {s : State} {w : Wave} {ff : FormF} {n : BitVec 4} {L : Nat} (hL : L ∈ ((issueOf s w ff).placed s n).E) : L ∈ executing s w ff :=
  claimed_in (placed_claimed hL)

theorem pushAll_eq (s : State) (w : Wave) (ff : FormF) (x : Iss) (d a : BitVec 7) (n : BitVec 4) :
    pushAll (s.skipped w ff) x d a n = (x.placed s n).E.foldl (fun u L => (u.touched x .store (slotVa x L)).qpushStore x L d a (slotVa x L)
      (s.paOf x (slotVa x L) 64 .store) (s.pteOf x (slotVa x L) 64 .store)) (pushFrom (s.skipped w ff) x n) := by
  unfold pushAll
  rw [placed_skipped]
  rfl

/-- The lanes that send a packet, as the read of their headers leaves them. -/
theorem pushFrom_lane {s : State} {w v : Wave} {ff : FormF} {n : BitVec 4} {L : Nat} (hL : L ∈ ((issueOf s w ff).placed s n).E)
    (hlen : v.lanes.length = (w.skipped s ff).lanes.length)
    (hin : L < (w.skipped s ff).lanes.length → (v.lane L).opCount = pushCount s (issueOf s w ff) n L) :
    (v.lane L).opCount = pushCount s (issueOf s w ff) n L ∧ L < v.lanes.length := by
  have hlt : L < (w.skipped s ff).lanes.length := by
    rw [length_skipped]
    exact mem_minSet_lt (mem_executing.mp (placed_executing hL)).1
  exact ⟨hin hlt, hlen ▸ hlt⟩

/-- Packets that are sent once the headers are read come from the machine before it as well: the read only counts. -/
theorem PushMade.of_saw {s u t : State} {x : Iss} {d a : BitVec 7} {va pa : Nat → Nat} {e : Nat → Pte} {count c : Nat → Nat} {P : List Nat}
    (hsaw : u.lessSaw = s.lessSaw) (hcount : LanesTo x.uid P (Counted c) s u) (h : PushMade u x d a va pa e count P t) :
    PushMade s x d a va pa e count P t := by
  obtain ⟨h1, h2, h3, h4, h5⟩ := h
  obtain ⟨hacc, hfresh⟩ := accs_of_lessSaw hsaw
  have hcycle : u.cycle = s.cycle := (congrArg State.cycle hsaw :)
  have hdue : u.replyDue x.die = s.replyDue x.die := (congrArg (fun u : State => u.replyDue x.die) hsaw :)
  have hlands : u.lands = s.lands := (congrArg State.lands hsaw :)
  refine ⟨h1.trans (lessPush_of_lessSaw hsaw), by rw [h2, hfresh], ?_, ?_, (hcount.trans h5).mono fun L _ l l' ⟨m, hm, k, hl⟩ => ⟨k, by rw [hl, hm]⟩⟩
  · rw [h3, hacc, hfresh]
    simp only [pushedAccs_congr hcycle]
  · rw [h4, hlands, hfresh]
    unfold pushedLand
    simp only [hdue]

/-- The second stage of QPUSH: lanes that have claimed a free slot send their packets there. -/
theorem pushAll_made {s : State} {w : Wave} {ff : FormF} {d a : BitVec 7} {n : BitVec 4} (hi : Issuing s w) (h : Pushing (s.skipped w ff) (issueOf s w ff) n) :
    let x := issueOf s w ff
    let t := pushAll (s.skipped w ff) x d a n
    PushMade (s.skipped w ff) x d a (slotVa x) (fun L => s.paOf x (slotVa x L) 64 .store) (fun L => s.pteOf x (slotVa x L) 64 .store)
      (pushCount s x n) (x.placed s n).E t ∧
      DirtyOnly s t x.die x.c ((x.placed s n).E.map (slotVa x)) := by
  intro x t
  obtain ⟨hsaw, hcount⟩ := pushFrom_same h
  rw [placed_skipped] at hcount
  obtain ⟨v, hv, hlen, _, hin⟩ := hcount.wave (wave_skipped ff hi.found)
  have hlanes : ∀ L ∈ (x.placed s n).E, (v.lane L).opCount = pushCount s x n L ∧ L < v.lanes.length ∧ slotVa x L ∈ (x.placed s n).E.map (slotVa x) := fun L hL => by
    obtain ⟨hc, hlt⟩ := pushFrom_lane hL hlen fun hlt => (congrArg Lane.opCount (hin L hL hlt)).trans (by
      rw [lane_skipped_out (skipping_not_executing (placed_executing hL))]
      unfold pushCount
      rw [issueOf_lane (placed_executing hL)]
      rfl)
    exact ⟨hc, hlt, List.mem_map_of_mem hL⟩
  obtain ⟨hm, hdirty⟩ := foldl_push (i := x) d a (slotVa x) (fun L => s.paOf x (slotVa x L) 64 .store) (fun L => s.pteOf x (slotVa x L) 64 .store)
    (pushCount s x n) s ((x.placed s n).E.map (slotVa x)) (x.placed s n).E
    (pushFrom (s.skipped w ff) x n) v hv (placed_skipped s w ff x n ▸ h.distinct) hlanes
    (.of_same (.refl s x.die x.c _) (mem_of_lessSaw hsaw) (tlb_of_lessSaw hsaw))
  rw [← pushAll_eq] at hm hdirty
  exact ⟨hm.of_saw hsaw hcount, hdirty⟩

theorem DirtyOnly.only {s t : State} {x : Iss} {va : Nat → Nat} (h : DirtyOnly s t x.die x.c (x.E.map va)) : OnlyDirty s t x va := by
  refine ⟨fun hwf b => (h.memory hwf b).imp id fun ⟨⟨v, hv, e, he, hb⟩, hval⟩ => ⟨?_, hval⟩, h.tlb⟩
  obtain ⟨L, hL, rfl⟩ := List.mem_map.mp hv
  exact ⟨L, hL, va L, List.mem_singleton.mpr rfl, by rw [leafAt_some he]; exact hb⟩

theorem pkg_of_lessPush {s u : State} (h : u.lessPush = s.lessPush) : u.pkg = s.pkg := (congrArg State.pkg h :)

theorem pushTo_unstepped {P : List Nat} {L : Nat} {l l' : Lane} (hl : l.stepping = false ∧ l.stepped = false) (h : (L ∈ P → PushTo L l l') ∧ (L ∉ P → l' = l)) :
    l'.stepped = false := by
  by_cases hL : L ∈ P
  · obtain ⟨k, rfl⟩ := h.1 hL
    exact hl.1
  · rw [h.2 hL]
    exact hl.2

theorem pushTo_emptied {L : Nat} {l l' : Lane} (h : PushTo L l l') : Emptied l l'.noted 0 0 := by
  obtain ⟨k, rfl⟩ := h
  exact ⟨fun _ h => absurd h (Nat.not_lt_zero _), fun _ _ => rfl, ⟨rfl, rfl⟩, rfl⟩

theorem pushedAccs_words (s : State) (i : Iss) (L : Nat) (a : BitVec 7) (va pa : Nat) (e : Pte) (fresh count : Nat) :
    let v := (i.l L).words a.toNat 16
    let v1 := v % 2 ^ 16 + 2 ^ 16 * ((i.l L).claim.getD 0 % 2 ^ 16) + 2 ^ 32 * (v / 2 ^ 32)
    pushedAccs s i L a va pa e fresh count = pktPieces.zipIdx.map (fun q =>
      { s.madeBy i L (fresh + q.2) { accOf .store (pa + q.1.1) q.1.2.1 with
          va := BitVec.ofNat 72 (va + q.1.1), data := BitVec.ofNat 128 (v1 / 256 ^ q.1.1 % 256 ^ q.1.2.1), ord := q.1.2.2
          type := e.type, log := e.log, posted := true } with
        scope := 5
        count := count + if e.log then q.2 else 0 }) := by
  intro v v1
  unfold pushedAccs
  rw [leNat_pktBytes]

/-- The second stage of QPUSH: packets are sent to the slots that are free. -/
theorem qpush_sends (d a : BitVec 7) (n : BitVec 4) : Issues (.qpush d a n) (fSYSx [srcBlk a 16] [(d.toNat, 1)])
    (fun s x => x.g.logOrd = none ∧ (x.placed s n).E ≠ [] ∧ (∀ L ∈ x.claimed.E, (s.qhdrAt x n L).isSome = true ∧ s.lanePend x.uid L anyWrite = []) ∧
      ∀ L ∈ (x.placed s n).E, s.passes x (slotVa x L) 64 64 .store)
    (fun s => { s.lessStores with lands := [], l2 := [] })
    (fun s x w s' w' =>
      let E := (x.placed s n).E
      w'.less = w.less ∧ s'.fresh = s.fresh + 9 * E.length ∧ OnlyDirty s s' { x with E := E } (slotVa x) ∧
      s'.accs = s.accs ++ E.zipIdx.flatMap (fun p =>
        pushedAccs s x p.1 a (slotVa x p.1) (s.paOf x (slotVa x p.1) 64 .store) (s.pteOf x (slotVa x p.1) 64 .store) (s.fresh + 9 * p.2)
          (pushCount s x n p.1)) ∧
      s'.lands = s.lands ++ E.zipIdx.map (fun p => pushedLand s x p.1 d.toNat (s.fresh + 9 * p.2)) ∧
      (∀ L ∈ E, Emptied (w.lane L) (w'.lane L) 0 0) ∧ ∀ L ∈ x.E, L ∉ E → w'.lane L = (w.lane L).noted) := by
  intro s w hi hr ⟨hlog, hsome, hhdr, hpass⟩
  let ff : FormF := fSYSx [srcBlk a 16] [(d.toNat, 1)]
  let x := issueOf s w ff
  let u0 := s.skipped w ff
  have hdistinct : (x.placed s n).E.Nodup := ((executing_nodup s w ff).filter _).filter _
  have hplaced : x.placed u0 n = x.placed s n := placed_lessSaw rfl x n
  have hp : Pushing s x n := ⟨hsome, hlog, fun L hL => (hhdr L hL).1, hpass, hdistinct⟩
  have hp0 : Pushing u0 x n := ⟨hplaced ▸ hsome, hlog, hp.header, fun L hL => hpass L (hplaced ▸ hL), hplaced ▸ hdistinct⟩
  have hE : x.E ≠ [] := fun e => hp.claimed (by
    unfold Iss.claimed
    rw [e]
    rfl)
  have hready : ∀ v : State, v.accs = s.accs → ∀ L ∈ x.E, (x.l L).claim.isSome = true → v.lanePend x.uid L anyWrite = [] := fun v hv L hL hc => by
    unfold State.lanePend
    rw [hv]
    exact (hhdr L (List.mem_filter.mpr ⟨hL, hc⟩)).2
  obtain ⟨hm, hdirty⟩ := pushAll_made (d := d) (a := a) hi hp0
  obtain ⟨w', hiss, hless, hstate, hto⟩ := issue_made (pushAll u0 x d a n) hi hr (fun _ => qpush_idle hE (hready s rfl) (push_idle hp))
    (fun _ => qpush_goes hE (hready u0 rfl) (push_body hp0)) (fun _ => hm.lanes.among fun L hL => claimed_in (placed_claimed hL))
    (fun L l l' hl hR => pushTo_unstepped hl hR) fun _ => pkg_of_lessPush hm.rest
  rw [bodyState_some hE] at hstate
  refine ⟨_, w', exec_qpush d a n s, hiss, (lessPush_of_lessSaw (lessSaw_of_less hstate)).trans hm.rest, hless,
    (congrArg State.fresh hstate :).trans hm.fresh, DirtyOnly.only (hdirty.of_same (congrArg State.mem hstate :) (congrArg State.tlb hstate :)),
    (congrArg State.accs hstate :).trans hm.accs, (congrArg State.lands hstate :).trans hm.lands, fun L hL => ?_, fun L hL hnot => ?_⟩
  · obtain ⟨l', hR, hl⟩ := hto L (claimed_in (placed_claimed hL))
    rw [hl]
    exact pushTo_emptied (hR.1 hL)
  · obtain ⟨l', hR, hl⟩ := hto L hL
    rw [hl, hR.2 hnot]

theorem Issues.imp {i : Instr} {ff : FormF} {pre : State → Iss → Prop} {rest : State → State} {post post' : State → Iss → Wave → State → Wave → Prop}
    (h : Issues i ff pre rest post) (hpost : ∀ s x w t w', post s x w t w' → post' s x w t w') : Issues i ff pre rest post' := fun s w hi hr hp => by
  obtain ⟨t, w', hexec, hiss, hrest, hp⟩ := h s w hi hr hp
  exact ⟨t, w', hexec, hiss, hrest, hpost _ _ _ _ _ hp⟩

/-- Settles O24: lanes without a claim take their indexes with one atomic, and lanes with one write their packets where a slot is free. -/
theorem queuePush : Obligations.QueuePush := by
  refine ⟨qpush_claims, fun d a n => (qpush_sends d a n).imp fun s x w t w' => ?_⟩
  simp only [pushedAccs_words]
  exact id

end Sys2Proof.Machine

/-!
PROOFS. Producers whose results are on their way (R203), and the DOT group (O31).
-/

namespace Sys2Proof.Machine

/-! ## Producers whose lanes may have counted operations -/

/-- Lanes of one wave that are changed in one go, lane L by g L. -/
theorem LanesTo.foldlUpd {uid : Nat} {R : Nat → Lane → Lane → Prop} (g : Nat → Lane → Lane) {Ls : List Nat} (s : State) (hn : Ls.Nodup) (hR : ∀ L ∈ Ls, ∀ l, R L l (g L l)) :
    LanesTo uid Ls R s (s.updWave uid (fun v => Ls.foldl (fun v L => v.updLane L (g L)) v)) := by
  have hkeys : Ls.map (fun L => L) = Ls := List.map_id' Ls
  refine ⟨_, rfl, fun v => ⟨?_, ?_, fun L hL => ?_, fun L hL hlt => ?_⟩⟩
  · obtain ⟨ls, h⟩ := foldUpd_eq (fun L => L) g Ls v
    rw [h]
    rfl
  · exact length_foldUpd (fun L => L) g Ls v
  · exact lane_foldUpd_out (fun L => L) g L Ls v (by rw [hkeys]; exact hL)
  · rw [lane_foldUpd_in (fun L => L) g Ls v hL (by rw [hkeys]; exact hn) hlt]
    exact hR L hL _

/-- What a lane becomes that has counted operations, if any, and goes on with its destination empty. -/
def LandTo (w : Wave) (E : List Nat) (d n L : Nat) (_ l' : Lane) : Prop :=
  L ∈ E ∧ ∃ c, l' = (({ w.lane L with opCount := c } : Lane).mark (w.lane L).pc d n).adv

theorem landTo_emptied {w : Wave} {E : List Nat} {d n L : Nat} {l l' : Lane} (h : LandTo w E d n L l l') (hd : d + n ≤ (w.lane L).regs.length) :
    Emptied (w.lane L) l'.noted d n := by
  obtain ⟨_, c, rfl⟩ := h
  exact emptied_mark rfl rfl hd rfl

/-- An issue whose executing lanes each have one result on its way, from a state v in which they may have counted operations. -/
theorem landIssue {s : State} {w : Wave} {ff : FormF} {busy : State → Iss → Option State} {body : Iss → State → State × Traps}
    {f : State → Iss → Nat → Lane → PRes} (v : State) (d n : Nat) (vals : Nat → List Word) (due : Nat → Nat)
    (hi : Issuing s w) (hr : Ready s w ff) (hd : ∀ L ∈ executing s w ff, d + n ≤ (w.lane L).regs.length) (hn : ∀ L ∈ executing s w ff, (vals L).length = n)
    (hb : executing s w ff ≠ [] → busy s (issueOf s w ff) = none)
    (hbody : executing s w ff ≠ [] → body (issueOf s w ff) (s.skipped w ff) = prodBody false f (issueOf s w ff) v)
    (hv : executing s w ff ≠ [] → LanesTo w.uid (executing s w ff) Recount (s.skipped w ff) v ∧ v.lands = s.lands ∧ v.fresh = s.fresh ∧ v.pkg = s.pkg)
    (hf : ∀ L ∈ executing s w ff, ∀ c, f v (issueOf s w ff) L { w.lane L with opCount := c } =
      .land { w.lane L with opCount := c } d (vals L) (due (posIn L (executing s w ff)))) :
    let x := issueOf s w ff
    let t := s.issue ff busy body
    ∃ w', Issued s t w w' ff ∧ (x.E = [] → t.less = s.less) ∧ (x.E ≠ [] → t.lessLands = v.lessLands) ∧ w'.less = w.less ∧
      t.fresh = s.fresh + x.E.length ∧ t.lands = s.lands ++ landsOf s x d vals due false ∧ ∀ L ∈ x.E, Emptied (w.lane L) (w'.lane L) d n := by
  intro x t
  let u0 := s.skipped w ff
  let s2 : State := { v.updWave x.uid (fun w => x.E.foldl (fun w L => w.updLane L (fun _ => ((v.laneNow x L).mark (v.laneNow x L).pc d (vals L).length).adv)) w) with
    lands := v.lands ++ (x.E.zipIdx v.fresh).map (fun p => { id := p.2, uid := x.uid, lane := p.1, d := d, vals := vals p.1, due := due (posIn p.1 x.E), pc := (v.laneNow x p.1).pc, sfu := false })
    fresh := v.fresh + x.E.length }
  have hnow : ∀ L ∈ x.E, ∃ c, v.laneNow x L = { w.lane L with opCount := c } := fun L hL => by
    obtain ⟨w1, hw1, _, _, hin⟩ := (hv (List.ne_nil_of_mem hL)).1.wave (wave_skipped ff hi.found)
    obtain ⟨c, hc⟩ := hin L hL (by rw [length_skipped]; exact mem_minSet_lt (mem_executing.mp hL).1)
    refine ⟨c, ?_⟩
    unfold State.laneNow
    rw [show v.wave? x.uid = some w1 from hw1]
    dsimp only
    rw [hc, lane_skipped_out (skipping_not_executing hL)]
  have hprod : executing s w ff ≠ [] → body x u0 = (s2, []) := fun hE => (hbody hE).trans (prodBody_lands _ (fun _ => d) vals (fun L => due (posIn L x.E)) fun L hL => by
    obtain ⟨c, hc⟩ := hnow L hL
    rw [hc]
    exact hf L hL c)
  have hlanes : executing s w ff ≠ [] → LanesTo w.uid (executing s w ff) (LandTo w (executing s w ff) d n) u0 s2 := fun hE => by
    have h2 : LanesTo w.uid (executing s w ff) (LandTo w (executing s w ff) d n) v
        (v.updWave x.uid (fun w => x.E.foldl (fun w L => w.updLane L (fun _ => ((v.laneNow x L).mark (v.laneNow x L).pc d (vals L).length).adv)) w)) :=
      LanesTo.foldlUpd (fun L _ => ((v.laneNow x L).mark (v.laneNow x L).pc d (vals L).length).adv) v (executing_nodup s w ff) fun L hL l => by
        obtain ⟨c, hc⟩ := hnow L hL
        rw [hc, hn L hL]
        exact ⟨hL, c, rfl⟩
    exact ((hv hE).1.trans (h2.congr rfl rfl)).mono fun L _ l l' ⟨m, _, hl⟩ => hl
  obtain ⟨w', hiss, hless, hstate, hto⟩ := issue_made s2 hi hr hb hprod hlanes (fun L l l' _ ⟨hL, c, hl⟩ => by
    obtain ⟨rs, e⟩ := mark_eq (w.lane L).pc n d ({ w.lane L with opCount := c } : Lane)
    rw [hl, e]
    exact (executing_unstepped hi hL).1) fun hE => (hv hE).2.2.2
  refine ⟨w', hiss, fun hE => ?_, fun hE => ?_, hless, ?_, ?_, fun L hL => ?_⟩
  · rw [hstate, bodyState_nil hE]
    rfl
  · rw [bodyState_some hE] at hstate
    exact (congrArg (fun u : State => { u with lands := [], fresh := 0 }) hstate :).trans rfl
  · by_cases hE : executing s w ff = []
    · rw [bodyState_nil hE] at hstate
      rw [show x.E = [] from hE]
      exact (congrArg State.fresh hstate :)
    · rw [bodyState_some hE] at hstate
      exact (congrArg State.fresh hstate :).trans (congrArg (· + x.E.length) (hv hE).2.2.1)
  · by_cases hE : executing s w ff = []
    · rw [bodyState_nil hE] at hstate
      unfold landsOf
      rw [show x.E = [] from hE]
      exact (congrArg State.lands hstate :).trans (List.append_nil _).symm
    · rw [bodyState_some hE] at hstate
      refine (congrArg State.lands hstate :).trans ?_
      rw [← lands_of_posIn (pc := fun L => (v.laneNow x L).pc) (executing_nodup s w ff) fun L hL => by
        obtain ⟨c, hc⟩ := hnow L hL
        rw [hc, issueOf_lane hL]]
      show v.lands ++ _ = _
      rw [(hv hE).2.1, (hv hE).2.2.1]
  · obtain ⟨l', hl, hw⟩ := hto L hL
    rw [hw]
    exact landTo_emptied hl (hd L hL)

/-! ## Packed elements -/

/-- Element j of width n is read as a signed number. -/
theorem elemI_eq {n : Nat} (hn : 0 < n) (v : Word) (j : Nat) : elemI v j n = (v.extractLsb' (n * j) n).toInt := by
  have hmsb : (v.extractLsb' (n * j) n).msb = v.getLsbD (n * j + n - 1) := by
    rw [BitVec.msb_eq_getLsbD_last, BitVec.getLsbD_extractLsb', decide_eq_true (by omega), Bool.true_and, Nat.add_sub_assoc hn]
  unfold elemI
  rw [BitVec.toInt_eq_msb_cond, hmsb, BitVec.extractLsb'_toNat, Nat.shiftRight_eq_div_pow]
  split <;> simp

theorem elemN_eq (n : Nat) (v : Word) (j : Nat) : elemN v j n = (v.extractLsb' (n * j) n).toNat := by
  unfold elemN
  rw [BitVec.extractLsb'_toNat, Nat.shiftRight_eq_div_pow]

theorem sumI_eq (f : Nat → Int) : ∀ n, sumI f n = ((List.range n).map f).sum
  | 0 => rfl
  | n + 1 => by
    rw [List.range_succ, List.map_append, List.sum_append, ← sumI_eq f n]
    simp [sumI]

theorem add_ofInt (c : Word) (n : Int) : c + BitVec.ofInt 32 n = BitVec.ofInt 32 (c.toInt + n) := by
  rw [BitVec.ofInt_add, BitVec.ofInt_toInt]

/-! ## The DOT group (R370) -/

/-- A DOT instruction lands its sum 8 cycles of the die after issue. -/
theorem dot_lands {i : Instr} (d a : BitVec 7) (e : BitVec 1) (g : BitVec 2) (fn : Word → Word → Word → Word) (hexec : ∀ s, exec i s = .next (dotOp fn d a e g s)) :
    Issues i (fun _ _ => { g := g.toNat, srcs := [src a e 2, srcBlk d], dsts := [(d.toNat, 1)] }) (fun _ _ => True) State.lessLands
      (fun s x w s' w' => w'.less = w.less ∧ s'.fresh = s.fresh + x.E.length ∧
        s'.lands = s.lands ++ landsOf s x d.toNat (fun L => [fn ((w.lane L).v d.toNat) ((w.lane L).v a.toNat) ((w.lane L).v (a.toNat + 1))])
          (fun _ => s.after x.die 8) false ∧
        ∀ L ∈ x.E, Emptied (w.lane L) (w'.lane L) d.toNat 1) := by
  intro s w hi hr _
  let ff : FormF := fun _ _ => { g := g.toNat, srcs := [src a e 2, srcBlk d], dsts := [(d.toNat, 1)] }
  obtain ⟨w', hiss, hnil, hsome, hless, hfresh, hlands, hlanes⟩ := landIssue (ff := ff) (busy := never)
    (body := prodBody false (fun s i _ l => .land l d.toNat [fn (l.v d.toNat) (l.v a.toNat) (l.v (a.toNat + 1))] (s.after i.die 8))) (s.skipped w ff) d.toNat 1
    (fun L => [fn ((w.lane L).v d.toNat) ((w.lane L).v a.toNat) ((w.lane L).v (a.toNat + 1))]) (fun _ => s.after (issueOf s w ff).die 8) hi hr
    (executing_dsts (fun _ _ => rfl) one_ne_zero) (fun _ _ => rfl) (fun _ => rfl) (fun _ => rfl) (fun _ => ⟨.of_waves (fun L _ l => recount_refl L l) rfl, rfl, rfl, rfl⟩)
    fun _ _ _ => rfl
  refine ⟨_, w', hexec s, hiss, ?_, hless, hfresh, hlands, hlanes⟩
  by_cases hE : executing s w ff = []
  · exact (congrArg (fun u : State => { u with lands := [], fresh := 0 }) (hnil hE) :)
  · exact (hsome hE).trans rfl

/-- Settles O31: signed and unsigned sums of products, and groups of products in FP32. -/
theorem dotProducts : Obligations.DotProducts := by
  have hsum : ∀ (fn : Word → Word → Word → Word) (t : Word → Word → Nat → Int) (n : Nat),
      (∀ c p q, fn c p q = c + BitVec.ofInt 32 (sumI (t p q) n)) → fn = fun c p q => BitVec.ofInt 32 (c.toInt + ((List.range n).map (t p q)).sum) :=
    fun fn t n h => funext fun c => funext fun p => funext fun q => by rw [h, add_ofInt, sumI_eq]
  refine ⟨fun d a e g => ?_, fun d a e g => ?_, fun d a e g => ?_, fun d a e g => ?_, fun d a e g => dot_lands d a e g _ fun _ => rfl,
    fun d a e g => dot_lands d a e g _ fun _ => rfl, fun d a e g => dot_lands d a e g _ fun _ => rfl⟩
  · rw [← hsum idot4 _ 4 fun c p q => by simp only [← elemI_eq (n := 8) (by decide)]; rfl]
    exact dot_lands d a e g _ fun _ => rfl
  · rw [← hsum ndot4 _ 4 fun c p q => by simp only [← elemN_eq 8]; rfl]
    exact dot_lands d a e g _ fun _ => rfl
  · rw [← hsum idot8 _ 8 fun c p q => by simp only [← elemI_eq (n := 4) (by decide)]; rfl]
    exact dot_lands d a e g _ fun _ => rfl
  · rw [← hsum idist4 _ 4 fun c p q => by simp only [← elemI_eq (n := 8) (by decide)]; rfl]
    exact dot_lands d a e g _ fun _ => rfl

end Sys2Proof.Machine

/-!
PROOFS. The sampling pipe (O30).
-/

namespace Sys2Proof.Machine

/-! ## A read of a line that is not in the L2 (R353, R367) -/

/-- A lane whose MARCH reads a descriptor of one cell and one step, and then that cell. -/
def marchStart : State :=
  let s := trial [trialLane [(1, 0x10100)]]
  let pa := s.pkg.deviceId.toNat * 2 ^ 50
  ((((s.wr (pa + 0x100) 9 0x10300).wr (pa + 0x10C) 2 1).wr (pa + 0x10E) 2 1).wr (pa + 0x110) 2 1).wr (pa + 0x112) 1 1

/-- The two words that a lane's reads come to. -/
def rdWords (r : Rd (List Word)) : Option (Word × Word) := match r with | .ok [p, q] _ => some (p, q) | _ => none

theorem ok_of_rdWords {r : Rd (List Word)} {p q : Word} (h : rdWords r = some (p, q)) : ∃ ps, r = .ok [p, q] ps := by
  unfold rdWords at h
  split at h
  · cases h
    exact ⟨_, rfl⟩
  · cases h

/-- Refutes O30: the lines that a lane reads are in the L2 when its result's cycles are counted, so a read that missed the L2 at issue takes those of a hit. -/
theorem not_samplingPipe : ¬ Obligations.SamplingPipe := by
  unfold Obligations.SamplingPipe
  rintro ⟨h, -, -⟩
  let i : Instr := .march 4 16 1 0 0 0
  let run : State → Iss → Nat → Rd (List Word) := fun s x L => s.marchLane x L 16 1
  let x := issueOf marchStart marchStart.trialWave (formOf i)
  obtain ⟨hi, hr⟩ := issues_of_bool (s := marchStart) (ff := formOf i) (by decide +kernel)
  have hE : x.E = [0] := by decide +kernel
  have hlog : x.g.logOrd = none := by decide +kernel
  have horder : (rdWholes run marchStart x).all (fun p => !marchStart.ordersPend x.uid p.lane (marchStart.wholeAcc x (.load 0 0) .wk p)) = true := by decide +kernel
  obtain ⟨ps, hrun⟩ := ok_of_rdWords (r := run marchStart x 0) (p := 0x7F800000) (q := 0xFFFFFFFF) (by decide +kernel)
  have hdue : marchStart.after x.die (40 + marchStart.rdCycles x.die (rdWholes run marchStart x) 0) = 572 := by decide +kernel
  obtain ⟨t, w', he, -, -, -, -, hlands, -⟩ := h 4 16 1 0 0 0 marchStart marchStart.trialWave hi hr
    ⟨hlog, fun p hp => (Bool.not_eq_eq_eq_not.mp (List.all_eq_true.mp horder p hp) : _ = !true), fun L hL => by
      rw [List.mem_singleton.mp (hE.subst (motive := (L ∈ ·)) hL)]; exact ⟨_, _, ps, hrun⟩⟩
  have hsoon : t.lands.map Land.due = [330] := leaves_of_next (fun t => t.lands.map Land.due) he (by decide +kernel)
  have hlate : t.lands.map Land.due = [572] := by
    rw [hlands, show marchStart.lands = [] from rfl]
    unfold landsOf
    rw [show Iss.E _ = [0] from hE]
    exact congrArg (fun n => [n]) hdue
  rw [hsoon] at hlate
  exact absurd hlate (by decide)

end Sys2Proof.Machine

/-!
PROOFS. Special registers (O38).
-/

namespace Sys2Proof.Machine

/-- SRD only latches the halves of CLOCK and TIME. -/
theorem srd_latches (s : State) (x : Iss) (L : Nat) (l : Lane) (z : Nat) : ∃ c t, (srd s x L l z).2 = l.latched c t := by
  unfold srd
  split <;> exact ⟨_, _, rfl⟩

theorem srd_skipped (s : State) (w : Wave) (ff : FormF) (x : Iss) (L : Nat) (l : Lane) (z : Nat) : srd (s.skipped w ff) x L l z = srd s x L l z := rfl

theorem srd_reads (d : BitVec 7) (z : BitVec 11) :
    LaneIssues (.srd d z) (formOf (.srd d z)) anyLane (fun s x L l l' => WroteOver l (srd s x L l z.toNat).2 l' d.toNat (srd s x L l z.toNat).1) := by
  refine laneIssues_reg (fun _ => rfl) fun s w _ L hL _ hstep => ⟨((srd (s.skipped w (formOf (.srd d z))) (issueOf s w (formOf (.srd d z))) L (w.lane L) z.toNat).2.set d.toNat
    (srd (s.skipped w (formOf (.srd d z))) (issueOf s w (formOf (.srd d z))) L (w.lane L) z.toNat).1).adv, rfl, ?_, ?_⟩
  · obtain ⟨c, t, h⟩ := srd_latches (s.skipped w (formOf (.srd d z))) (issueOf s w (formOf (.srd d z))) L (w.lane L) z.toNat
    rw [h]
    exact hstep
  · obtain ⟨c, t, h⟩ := srd_latches s (issueOf s w (formOf (.srd d z))) L (w.lane L) z.toNat
    rw [srd_skipped]
    have hd : d.toNat < (w.lane L).regs.length := executing_has_dst (fun _ _ => rfl) hL
    exact wroteOver_done (by rw [h]; rfl) (by rw [h]; rfl) hd

/-- SWR changes the one register that its selector names. -/
theorem swr_writes (a : BitVec 7) (z : BitVec 11) :
    LaneIssues (.swr a z) (formOf (.swr a z)) (fun _ _ _ l => z.toNat = 36 → l.inHandler = true) (fun _ _ _ l l' =>
      let v := l.v a.toNat
      l'.regs = l.regs ∧ l'.pc = l.pc + 1 ∧ l'.hints = [] ∧
      l'.fpctl = (if z.toNat = 21 then v &&& 0x1FFF else l.fpctl) ∧ l'.key = (if z.toNat = 33 then v &&& 0xFFFF else l.key) ∧
      l'.hseed = (if z.toNat = 34 then v else l.hseed) ∧ l'.resumepc = (if z.toNat = 36 then v else l.resumepc) ∧
      { l'.less with fpctl := 0, key := 0, hseed := 0, resumepc := 0 } = { l.less with fpctl := 0, key := 0, hseed := 0, resumepc := 0 }) := by
  refine laneIssues_reg (fun _ => rfl) fun s w _ L hL hin hstep => ?_
  have hbad := executing_not_bad (b := !Instr.wf (.swr a z)) (fun _ _ => rfl) (fun _ _ => rfl) hL
  have hz : ((z.toNat = 21 ∨ z.toNat = 33) ∨ z.toNat = 34) ∨ z.toNat = 36 := by
    have h : Instr.wf (.swr a z) = true := by simpa using hbad
    simpa only [Instr.wf, Bool.or_eq_true, beq_iff_eq] using h
  have hgo : (z.toNat = 36 && !(w.lane L).inHandler) = false := by
    by_cases h : z.toNat = 36
    · rw [hin h]
      exact Bool.and_false _
    · rw [decide_eq_false h]
      rfl
  refine ⟨((w.lane L).swr z.toNat ((w.lane L).v a.toNat)).adv, if_neg (ne_true_of_eq_false hgo), ?_⟩
  rcases hz with ((h | h) | h) | h <;> rw [h] <;> exact ⟨hstep, rfl, rfl, rfl, rfl, rfl, rfl, rfl, rfl⟩

/-- Outside the handler, lanes that write RESUMEPC park. -/
theorem swr_resumepc_traps (a : BitVec 7) (s : State) (w : Wave) (hi : Issuing s w) (hr : Ready s w (formOf (.swr a 36))) (h32 : w.lanes.length ≤ 32)
    (hout : ∀ l ∈ w.lanes, l.inHandler = false) :
    ∃ t w', exec (.swr a 36) s = .next t ∧ t.wave? w.uid = some w' ∧ ∀ L ∈ executing s w (formOf (.swr a 36)),
      (w'.lane L).st = .trapped ∧ (w'.lane L).trapKind = 1 ∧ (w'.lane L).pc = (w.lane L).pc ∧ (w'.lane L).regs = (w.lane L).regs ∧
      (w'.lane L).resumepc = (w.lane L).resumepc := by
  obtain ⟨w', hw', hlanes⟩ := regIssue_traps (f := fun _ _ _ l => if (36 : BitVec 11).toNat = 36 && !l.inHandler then .trap l (l.trapHere tkILLEGAL 0)
      else .ok (l.swr 36 (l.v a.toNat)).adv) hi hr h32 (fun L => (w.lane L, some ((w.lane L).trapHere tkILLEGAL 0))) fun L hL => by
    refine ⟨?_, (executing_unstepped hi hL).2, lane_outside hout L⟩
    rw [lane_outside hout L]
    rfl
  refine ⟨_, w', rfl, hw', fun L hL => ?_⟩
  obtain ⟨n, hpark⟩ := (hlanes L hL).2 _ rfl
  rw [hpark]
  exact ⟨rfl, rfl, rfl, rfl, rfl⟩

/-- Settles O38: SRD and SWR, selector by selector. -/
theorem specialRegisters : Obligations.SpecialRegisters := by
  refine ⟨srd_reads, fun s x L l => ⟨rfl, rfl, rfl, rfl, rfl, rfl, rfl, rfl, rfl, rfl, rfl, rfl, rfl, fun k hk => ?_⟩, swr_writes, swr_resumepc_traps⟩
  interval_cases k <;> rfl

end Sys2Proof.Machine

/-!
PROOFS. Entering the handler and returning from it (O40).
-/

namespace Sys2Proof.Machine

/-! ## An issue that changes its wave beyond the executing lanes -/

/-- An issue whose body raises no trap and leaves its wave as x, no lane of which is stepped. -/
theorem issue_settles {s s2 : State} {w x : Wave} {ff : FormF} {busy : State → Iss → Option State} {body : Iss → State → State × Traps} (hi : Issuing s w) (hr : Ready s w ff)
    (hE : executing s w ff ≠ []) (hb : busy s (issueOf s w ff) = none) (hbody : body (issueOf s w ff) (s.skipped w ff) = (s2, []))
    (hx : s2.wave? w.uid = some x) (hst : ∀ l ∈ x.lanes, l.stepped = false) :
    ∃ c b, (s.issue ff busy body).wave? w.uid = some (x.noted c b w) ∧ (s.issue ff busy body).less = s2.less := by
  let c := s2.dieCycle (s.teamOf w).die
  let b := (ff {} false).isHint
  have hfound : (s2.noteIssue w (s.teamOf w) w.minSet b).wave? w.uid = some (x.noted c b w) := by
    rw [noteIssue_eq]
    exact (wave_updWave s2 w.uid (fun y => y.noted c b w) (fun _ => rfl)).trans (by rw [hx]; rfl)
  have hnone : ∀ l ∈ (x.noted c b w).lanes, l.stepped = false := fun l hl => by
    obtain ⟨L, hL, rfl⟩ := List.getElem_of_mem hl
    have hlt : L < x.lanes.length := (length_noted x w c b) ▸ hL
    have e : (x.noted c b w).lane L = (x.noted c b w).lanes[L] := List.getD_eq_getElem _ _ hL
    rw [← e]
    by_cases hm : L ∈ w.minSet
    · rw [lane_noted_in hm hlt]
      exact (hst _ (lane_mem hlt) : (x.lane L).stepped = false)
    · rw [lane_noted_out hm]
      exact hst _ (lane_mem hlt)
  refine ⟨c, b, ?_⟩
  rw [issue_ready hi hr (.inr hb), if_neg hE, hbody]
  dsimp only
  rw [takeTraps_nil, stepHalt_none hfound hnone]
  exact ⟨hfound, less_noteIssue ..⟩

/-- The lane as it was, but for what an issue notes of it. -/
theorem noted_lane (x w : Wave) (c : Nat) (b : Bool) (L : Nat) : (x.noted c b w).lane L = x.lane L ∨ (x.noted c b w).lane L = (x.lane L).noted := by
  by_cases hm : L ∈ w.minSet
  · by_cases hlt : L < x.lanes.length
    · exact .inr (lane_noted_in hm hlt)
    · refine .inl ?_
      unfold Wave.lane
      rw [List.getD_eq_default _ _ (Nat.le_of_not_lt hlt), List.getD_eq_default _ _ (by rw [length_noted]; exact Nat.le_of_not_lt hlt)]
  · exact .inl (lane_noted_out hm)

/-! ## Entering the handler (R209) -/

/-- The wave that starts the handler. -/
def Wave.entered (w : Wave) (ls : List Nat) (c : Ctx) (t : Team) : Wave :=
  { (ls.foldl (fun w L => w.updLane L (fun l => l.enter c.handler)) w) with
    handlerB15 := some (w.bases.getD 15 0), bases := w.bases.set 15 (BitVec.ofNat 72 (handlerArea c.hstackva t.die t.core w.slot)) }

theorem deliver_nodup (s : State) (w : Wave) : (s.deliver w).Nodup := by
  unfold State.deliver
  split
  · exact List.nodup_nil
  · exact List.nodup_range.filter _

theorem deliver_lt {s : State} {w : Wave} {L : Nat} (h : L ∈ s.deliver w) : L < w.lanes.length := by
  unfold State.deliver at h
  split at h
  · cases h
  · exact List.mem_range.mp (List.mem_of_mem_filter h)

theorem lane_entered_in {w : Wave} {ls : List Nat} {c : Ctx} {t : Team} {L : Nat} (hn : ls.Nodup) (hL : L ∈ ls) (hlt : L < w.lanes.length) :
    (w.entered ls c t).lane L = (w.lane L).enter c.handler :=
  lane_foldUpd_in (fun L => L) (fun _ l => l.enter c.handler) ls w hL (by rw [List.map_id']; exact hn) hlt
theorem lane_entered_out {w : Wave} {ls : List Nat} {c : Ctx} {t : Team} {L : Nat} (hL : L ∉ ls) : (w.entered ls c t).lane L = w.lane L :=
  lane_foldUpd_out (fun L => L) (fun _ l => l.enter c.handler) L ls w (by rw [List.map_id']; exact hL)

theorem uid_entered (w : Wave) (ls : List Nat) (c : Ctx) (t : Team) : (w.entered ls c t).uid = w.uid := by
  obtain ⟨lanes, h⟩ := foldUpd_eq (fun L => L) (fun _ l => l.enter c.handler) ls w
  show (ls.foldl (fun w L => w.updLane L (fun l => l.enter c.handler)) w).uid = w.uid
  rw [h]

theorem bases_getD_set {bs : List (BitVec 72)} (h : bs.length = 16) (b : BitVec 72) : (bs.set 15 b).getD 15 0 = b ∧ ∀ n, n < 15 → (bs.set 15 b).getD n 0 = bs.getD n 0 := by
  refine ⟨?_, fun n hn => ?_⟩
  · simp [List.getD_eq_getElem?_getD, h]
  · simp [List.getD_eq_getElem?_getD, Nat.ne_of_gt hn]

theorem handler_entered {s : State} {w : Wave} {win : Window} (hact : s.activeWave? s.occ.n = some w) (hwin : w.window = some win) (hclosed : win.closed = true)
    (hdel : s.deliver w ≠ []) (hnot : w.handlerB15 = none) (hpend : s.pending w.uid = false) :
    ∃ t, exec .handlerEntry s = .next t ∧ { t with waves := [] } = { s with waves := [] } ∧
      t.wave? w.uid = some (w.entered (s.deliver w) (s.ctx (s.teamOf w).ctx) (s.teamOf w)) := by
  have hw : s.wave? s.occ.n = some w := by
    unfold State.activeWave? at hact
    exact (Option.filter_eq_some_iff.mp hact).1
  have huid : s.occ.n = w.uid := (wave_uid hw).symm
  have hcond : (win.closed && s.deliver w != [] && !w.handling && !s.pending s.occ.n) = true := by
    rw [hclosed, bne_iff_ne.mpr hdel, huid, hpend]
    unfold Wave.handling
    rw [hnot]
    rfl
  have hgo : s.enterHandler s.occ.n = s.updWave s.occ.n (fun v => v.entered (s.deliver w) (s.ctx (s.teamOf w).ctx) (s.teamOf w)) := by
    unfold State.enterHandler
    rw [hw]
    dsimp only
    rw [hwin]
    dsimp only
    rw [if_pos hcond]
    rfl
  refine ⟨s.enterHandler s.occ.n, ?_, ?_, ?_⟩
  · show execHandlerEntry s = _
    unfold execHandlerEntry
    rw [hact]
    rfl
  · rw [hgo]
    rfl
  · rw [hgo, huid]
    refine (wave_updWave s w.uid (fun v => v.entered (s.deliver w) (s.ctx (s.teamOf w).ctx) (s.teamOf w)) fun v => uid_entered v _ _ _).trans ?_
    rw [← huid, hw]
    rfl

/-! ## Returning from it (R387) -/

/-- A lane that has returned. -/
def Lane.returns (l : Lane) : Lane := { l with st := .returned, hints := [], stepped := l.stepping }

/-- What RFT does with its lanes. -/
def rftBody (i : Iss) (s : State) : State × Traps := ((s.updWave i.uid (fun w => i.E.foldl (fun w L => w.updLane L Lane.returns) w)).endHandler i.uid, [])

theorem exec_rft (s : State) : exec .rft s = .next (s.issue (formOf .rft) never rftBody) := rfl

/-- RFT accepts no PRED hint. -/
theorem rft_wordTrap {l : Lane} (h : (hintSet l.hints).prd ≠ none) : wordTrap (formOf .rft (hintSet l.hints) l.inHandler) (hintSet l.hints) l ≠ none := by
  have hsome : ((l.hints.find? (fun x => x.major.toNat == 0x7F)).map Hint.pay) ≠ none := h
  obtain ⟨y, hy⟩ := Option.ne_none_iff_exists'.mp fun e => hsome (Option.map_eq_none_iff.mpr e)
  have hmem := List.mem_of_find?_eq_some hy
  have hmajor : y.major.toNat = 0x7F := by simpa using List.find?_some hy
  unfold wordTrap
  split
  · next hhint => cases hhint
  · split
    · exact fun e => nomatch e
    · next hnone =>
      have hall := List.find?_eq_none.mp hnone y hmem
      rw [hmajor] at hall
      exact absurd rfl hall

/-- RFT has no guard. -/
theorem rft_no_skips (s : State) (w : Wave) : skipping s w (formOf .rft) = [] := List.filter_eq_nil_iff.mpr fun L _ h => by
  have hf : fate s w (formOf .rft) (w.lane L) = .skip := beq_iff_eq.mp h
  by_cases hp : (hintSet (w.lane L).hints).prd = none
  · have hpass : guardPass (formOf .rft (hintSet (w.lane L).hints) (w.lane L).inHandler) (hintSet (w.lane L).hints) (w.lane L) = true := by
      show (match (hintSet (w.lane L).hints).prd with | none => true | some x => predHolds (w.lane L) x) = true
      rw [hp]
    unfold fate at hf
    simp only [hpass, Bool.not_true, Bool.false_eq_true, if_false] at hf
    repeat' split at hf
    all_goals cases hf
  · obtain ⟨t, ht⟩ := Option.ne_none_iff_exists'.mp (rft_wordTrap hp)
    unfold fate at hf
    simp only [ht] at hf
    split at hf
    · cases hf
    · next hnone =>
      split at hnone <;> cases hnone

theorem rft_skipped (s : State) (w : Wave) : w.skipped s (formOf .rft) = w := by
  unfold Wave.skipped
  rw [rft_no_skips]
  rfl

/-- The wave once its executing lanes have returned. -/
def Wave.returned (w : Wave) (E : List Nat) : Wave := E.foldl (fun w L => w.updLane L Lane.returns) w

theorem lane_returned_in {w : Wave} {E : List Nat} {L : Nat} (hn : E.Nodup) (hL : L ∈ E) (hlt : L < w.lanes.length) : (w.returned E).lane L = (w.lane L).returns :=
  lane_foldUpd_in (fun L => L) (fun _ l => l.returns) E w hL (by rw [List.map_id']; exact hn) hlt
theorem lane_returned_out {w : Wave} {E : List Nat} {L : Nat} (hL : L ∉ E) : (w.returned E).lane L = w.lane L :=
  lane_foldUpd_out (fun L => L) (fun _ l => l.returns) L E w (by rw [List.map_id']; exact hL)
theorem returned_eq (w : Wave) (E : List Nat) : ∃ ls, w.returned E = { w with lanes := ls } := foldUpd_eq (fun L => L) (fun _ l => l.returns) E w
theorem length_returned (w : Wave) (E : List Nat) : (w.returned E).lanes.length = w.lanes.length := length_foldUpd (fun L => L) (fun _ l => l.returns) E w

theorem rft_wave {s : State} {w : Wave} (hi : Issuing s w) :
    ((s.skipped w (formOf .rft)).updWave w.uid (fun v => v.returned (executing s w (formOf .rft)))).wave? w.uid = some (w.returned (executing s w (formOf .rft))) := by
  rw [wave_updWave _ _ _ fun v => (by obtain ⟨ls, h⟩ := returned_eq v (executing s w (formOf .rft)); rw [h]), wave_skipped _ hi.found, rft_skipped]
  rfl

/-- The lane has left the handler, or is through with it. -/
def Lane.through (l : Lane) : Bool := !l.inHandler || l.st == .returned || l.st == .exited

theorem endHandler_stays {s : State} {uid : Nat} {w : Wave} (hw : s.wave? uid = some w) (h : w.lanes.all Lane.through = false) : s.endHandler uid = s := by
  unfold State.endHandler
  rw [hw]
  dsimp only
  split
  · rfl
  · exact if_neg (ne_true_of_eq_false h)

/-- The wave whose handler has ended. -/
def Wave.handlerEnded (w : Wave) (b15 : BitVec 72) (cycle : Nat) : Wave :=
  { w with lanes := (w.release false).lanes.map Lane.leave, bases := w.bases.set 15 b15, handlerB15 := none, window := w.nextWindow cycle, next := none }

theorem endHandler_ends {s : State} {uid : Nat} {w : Wave} {b15 : BitVec 72} (hw : s.wave? uid = some w) (hb : w.handlerB15 = some b15)
    (h : w.lanes.all Lane.through = true) : s.endHandler uid = s.updWave uid (fun v => v.handlerEnded b15 s.cycle) := by
  unfold State.endHandler
  rw [hw]
  dsimp only
  rw [hb]
  exact if_pos h

/-- RFT of some of the lanes that run the handler. -/
theorem rft_returns (s : State) (w : Wave) (hi : Issuing s w) (hr : Ready s w (formOf .rft)) (hmore : ∃ L, L < w.lanes.length ∧ L ∉ executing s w (formOf .rft) ∧
    (w.lane L).inHandler = true ∧ (w.lane L).st ≠ .returned ∧ (w.lane L).st ≠ .exited) :
    ∃ t w', exec .rft s = .next t ∧ Issued s t w w' (formOf .rft) ∧ t.less = s.less ∧ w'.less = w.less ∧
      ∀ L ∈ executing s w (formOf .rft), w'.lane L = ({ w.lane L with st := .returned, hints := [], stepped := false } : Lane).noted := by
  let E := executing s w (formOf .rft)
  let s2 := (s.skipped w (formOf .rft)).updWave w.uid (fun v => v.returned E)
  obtain ⟨L, hlt, hout, hin, hst, hex⟩ := hmore
  have hall : (w.returned E).lanes.all Lane.through = false := List.all_eq_false.mpr ⟨(w.returned E).lane L, lane_mem (by rw [length_returned]; exact hlt), by
    rw [lane_returned_out hout]
    unfold Lane.through
    rw [hin, beq_false_of_ne hst, beq_false_of_ne hex]
    decide⟩
  have hbody : rftBody (issueOf s w (formOf .rft)) (s.skipped w (formOf .rft)) = (s2, []) := congrArg (·, []) (endHandler_stays (rft_wave hi) hall)
  have hto : LanesTo w.uid E (fun _ l l' => l' = l.returns) (s.skipped w (formOf .rft)) s2 := LanesTo.foldlUpd (fun _ l => l.returns) _ (executing_nodup ..) fun _ _ _ => rfl
  obtain ⟨w', hiss, hless, hstate, hlanes⟩ := issue_made (busy := never) (body := rftBody) s2 hi hr (fun _ => rfl) (fun _ => hbody) (fun _ => hto)
    (fun _ l l' hl h => by rw [h]; exact hl.1) fun _ => rfl
  refine ⟨_, w', exec_rft s, hiss, hstate.trans ?_, hless, fun L hL => ?_⟩
  · unfold bodyState
    split <;> rfl
  · obtain ⟨l', hl, hw⟩ := hlanes L hL
    rw [hw, hl]
    exact congrArg (fun b => ({ w.lane L with st := .returned, hints := [], stepped := b } : Lane).noted) (executing_unstepped hi hL).1

theorem lane_handlerEnded {w : Wave} {b15 : BitVec 72} {cycle L : Nat} (hlt : L < w.lanes.length) :
    (w.handlerEnded b15 cycle).lane L = ((if (w.lane L).st == .held && (w.lane L).inHandler == false then { w.lane L with st := .run } else w.lane L) : Lane).leave := by
  unfold Wave.handlerEnded Wave.release Wave.lane
  simp [List.getD_eq_getElem?_getD, hlt]

/-- What becomes of a lane of a wave whose handler ends: of those that return, and of the others. -/
theorem leave_cases {l : Lane} (h : l.through = true) :
    let l' := ((if l.st == .held && l.inHandler == false then { l with st := .run } else l) : Lane).leave
    l'.regs = l.regs ∧ l'.inHandler = false ∧ l'.stepped = l.stepped ∧
      if l.st = .returned then l'.st = .run ∧ l'.pc = l.resumepc ∧ l'.hints = if l.resumepc = l.entryPc then l.aside else []
      else l'.st = (if l.st = .held then .run else l.st) ∧ l'.pc = l.pc := by
  intro l'
  by_cases hret : l.st = .returned
  · have hl : l' = l.leave := by
      show Lane.leave _ = _
      rw [hret]
      rfl
    rw [if_pos hret, hl]
    unfold Lane.leave
    rw [hret]
    refine ⟨rfl, rfl, rfl, rfl, rfl, ?_⟩
    by_cases he : l.resumepc = l.entryPc
    · rw [if_pos he]
      exact if_pos (beq_iff_eq.mpr he)
    · rw [if_neg he]
      exact if_neg fun h => he (beq_iff_eq.mp h)
  · rw [if_neg hret]
    by_cases hheld : l.st = .held
    · have hout : l.inHandler = false := by
        unfold Lane.through at h
        rw [hheld] at h
        simpa using h
      have hl : l' = { l with st := .run, inHandler := false, aside := [] } := by
        show Lane.leave _ = _
        rw [hheld, hout]
        rfl
      rw [hl, if_pos hheld]
      exact ⟨rfl, rfl, rfl, rfl, rfl⟩
    · have hl : l' = { l with inHandler := false, aside := [] } := by
        show Lane.leave _ = _
        rw [if_neg (by rw [beq_false_of_ne hheld]; exact Bool.false_ne_true)]
        exact if_neg (ne_true_of_eq_false (beq_false_of_ne hret))
      rw [hl, if_neg hheld]
      exact ⟨rfl, rfl, rfl, rfl, rfl⟩

/-- A lane that executes is none of those that parked or halted meanwhile. -/
theorem nextWindow_returned {w : Wave} {E : List Nat} (hn : E.Nodup) (hrun : ∀ L ∈ E, (w.lane L).st = .run ∧ L < w.lanes.length) (cycle : Nat) :
    (w.returned E).nextWindow cycle = w.nextWindow cycle := by
  have hnext : (w.returned E).next = w.next := by
    obtain ⟨ls, h⟩ := returned_eq w E
    rw [h]
  have hst : ∀ L, (((w.returned E).lane L).st == .trapped || ((w.returned E).lane L).st == .halted) = ((w.lane L).st == .trapped || (w.lane L).st == .halted) := fun L => by
    by_cases hL : L ∈ E
    · rw [lane_returned_in hn hL (hrun L hL).2, (hrun L hL).1]
      rfl
    · rw [lane_returned_out hL]
  unfold Wave.nextWindow
  rw [hnext]
  simp only [hst]

/-- RFT of the last lanes that run the handler. -/
theorem rft_ends (s : State) (w : Wave) (b15 : BitVec 72) (hi : Issuing s w) (hr : Ready s w (formOf .rft)) (hb : w.handlerB15 = some b15) (hbases : w.bases.length = 16)
    (hE : executing s w (formOf .rft) ≠ []) (hrest : ∀ L, L < w.lanes.length → L ∉ executing s w (formOf .rft) →
      (w.lane L).inHandler = false ∨ (w.lane L).st = .returned ∨ (w.lane L).st = .exited) :
    ∃ t w', exec .rft s = .next t ∧ t.wave? w.uid = some w' ∧ t.less = s.less ∧ w'.handlerB15 = none ∧ w'.window = w.nextWindow s.cycle ∧ w'.next = none ∧
      w'.bases.getD 15 0 = b15 ∧ (∀ n, n < 15 → w'.bases.getD n 0 = w.bases.getD n 0) ∧
      (∀ L, L < w.lanes.length → (w'.lane L).regs = (w.lane L).regs ∧ (w'.lane L).inHandler = false ∧
        if L ∈ executing s w (formOf .rft) ∨ (w.lane L).st = .returned then
          (w'.lane L).st = .run ∧ (w'.lane L).pc = (w.lane L).resumepc ∧
          (w'.lane L).hints = if (w.lane L).resumepc = (w.lane L).entryPc then (w.lane L).aside else []
        else (w'.lane L).st = (if (w.lane L).st = .held then .run else (w.lane L).st) ∧ (w'.lane L).pc = (w.lane L).pc) := by
  let E := executing s w (formOf .rft)
  let v := w.returned E
  let u := (s.skipped w (formOf .rft)).updWave w.uid (fun v => v.returned E)
  have hn : E.Nodup := executing_nodup ..
  have hv : u.wave? w.uid = some v := rft_wave hi
  have hlt : ∀ L ∈ E, L < w.lanes.length := fun L hL => mem_minSet_lt (mem_executing.mp hL).1
  have hthrough : ∀ L, L < w.lanes.length → (v.lane L).through = true := fun L hL => by
    by_cases h : L ∈ E
    · rw [lane_returned_in hn h hL]
      unfold Lane.through Lane.returns
      simp
    · rw [lane_returned_out h]
      unfold Lane.through
      rcases hrest L hL h with h | h | h <;> simp [h]
  have hall : v.lanes.all Lane.through = true := List.all_eq_true.mpr fun l hl => by
    obtain ⟨L, hL, rfl⟩ := List.getElem_of_mem hl
    have e : v.lane L = v.lanes[L] := List.getD_eq_getElem _ _ hL
    rw [← e]
    exact hthrough L (length_returned w E ▸ hL)
  obtain ⟨ls, hvls⟩ := returned_eq w E
  have hvb : v.handlerB15 = some b15 := by
    show (w.returned E).handlerB15 = _
    rw [hvls]
    exact hb
  let x := v.handlerEnded b15 s.cycle
  have hbody : rftBody (issueOf s w (formOf .rft)) (s.skipped w (formOf .rft)) = (u.updWave w.uid (fun v => v.handlerEnded b15 s.cycle), []) :=
    congrArg (·, []) (endHandler_ends hv hvb hall)
  have hx : (u.updWave w.uid (fun v => v.handlerEnded b15 s.cycle)).wave? w.uid = some x := by
    rw [wave_updWave _ _ (fun v => v.handlerEnded b15 s.cycle) fun _ => rfl, hv]
    rfl
  have hsize : x.lanes.length = w.lanes.length := by
    show ((v.release false).lanes.map Lane.leave).length = _
    unfold Wave.release
    rw [List.length_map, List.length_map]
    exact length_returned w E
  have hlane : ∀ L, L < w.lanes.length → (x.lane L).regs = (w.lane L).regs ∧ (x.lane L).inHandler = false ∧ (x.lane L).stepped = false ∧
      if L ∈ E ∨ (w.lane L).st = .returned then
        (x.lane L).st = .run ∧ (x.lane L).pc = (w.lane L).resumepc ∧ (x.lane L).hints = if (w.lane L).resumepc = (w.lane L).entryPc then (w.lane L).aside else []
      else (x.lane L).st = (if (w.lane L).st = .held then .run else (w.lane L).st) ∧ (x.lane L).pc = (w.lane L).pc := fun L hL => by
    obtain ⟨h1, h2, h3, h4⟩ := leave_cases (hthrough L hL)
    rw [show x.lane L = _ from lane_handlerEnded (by rw [length_returned]; exact hL)]
    have hunst := hi.unstepped _ (lane_mem hL)
    by_cases h : L ∈ E
    · rw [lane_returned_in hn h hL] at h1 h2 h3 h4 ⊢
      rw [if_pos (show (w.lane L).returns.st = .returned from rfl)] at h4
      rw [if_pos (show L ∈ E ∨ (w.lane L).st = .returned from .inl h)]
      exact ⟨h1, h2, h3.trans hunst.1, h4⟩
    · rw [lane_returned_out h] at h1 h2 h3 h4 ⊢
      refine ⟨h1, h2, h3.trans hunst.2, ?_⟩
      by_cases hret : (w.lane L).st = .returned
      · rw [if_pos hret] at h4
        rw [if_pos (show L ∈ E ∨ (w.lane L).st = .returned from .inr hret)]
        exact h4
      · rw [if_neg hret] at h4
        rw [if_neg (show ¬(L ∈ E ∨ (w.lane L).st = .returned) from fun e => e.elim h hret)]
        exact h4
  obtain ⟨c, b, hfound, hless⟩ := issue_settles (busy := never) hi hr hE rfl hbody hx fun l hl => by
    obtain ⟨L, hL, rfl⟩ := List.getElem_of_mem hl
    have e : x.lane L = x.lanes[L] := List.getD_eq_getElem _ _ hL
    rw [← e]
    exact (hlane L (hsize ▸ hL)).2.2.1
  obtain ⟨hb15, hbn⟩ := bases_getD_set hbases b15
  have hvbases : v.bases = w.bases := by
    show (w.returned E).bases = _
    rw [hvls]
  refine ⟨_, _, exec_rft s, hfound, hless, rfl, ?_, rfl, ?_, fun n hn => ?_, fun L hL => ?_⟩
  · exact nextWindow_returned hn (fun L hL => ⟨executing_runs hL, hlt L hL⟩) s.cycle
  · show (v.bases.set 15 b15).getD 15 0 = _
    rw [hvbases]
    exact hb15
  · show (v.bases.set 15 b15).getD n 0 = _
    rw [hvbases]
    exact hbn n hn
  · obtain ⟨h1, h2, _, h4⟩ := hlane L hL
    rcases noted_lane x w c b L with e | e <;> rw [e] <;> exact ⟨h1, h2, h4⟩

/-- Settles O40: the window's lanes start the handler, RFT leaves them returned, and the last one ends it. -/
theorem handlerEntryAndReturn : Obligations.HandlerEntryAndReturn := by
  refine ⟨fun s w win hact hwin hclosed hdel hnot hpend hbases => ?_, rft_returns, rft_ends⟩
  obtain ⟨t, hexec, hrest, hw⟩ := handler_entered hact hwin hclosed hdel hnot hpend
  obtain ⟨hb15, hbn⟩ := bases_getD_set hbases (BitVec.ofNat 72 (handlerArea (s.ctx (s.teamOf w).ctx).hstackva (s.teamOf w).die (s.teamOf w).core w.slot))
  exact ⟨t, _, hexec, hw, hrest, rfl, hbn, hb15, fun L hL => lane_entered_in (deliver_nodup s w) hL (deliver_lt hL), fun L hL => lane_entered_out hL⟩

end Sys2Proof.Machine
